-- ==== Sys2Proof/Word.lean ====
section
/-!
DEFINITION. Word.lean: the word types of the Gyash and the sparse map that holds its registers and memories.
-/

namespace Sys2Proof

/-- A register word (R367: BAR0 takes 32-bit accesses). -/
abbrev Word := BitVec 32

/-- A byte of a memory window. -/
abbrev Byte := BitVec 8

/-- A Peg time as a command names it: 80 bits of kerfs (R24). -/
abbrev PT := BitVec 80

/-- A sparse map from addresses to values in canonical form: keys strictly rising, no entry at its key's default. -/
abbrev SMap (α : Type) := List (Nat × α)

end Sys2Proof
end

