-- ==== Sys2Proof/Syntax.lean ====
section
/-!
DEFINITION. Syntax.lean: the commands the block takes, one constructor per row of spec/opcode_table.json, and the types
of their operands. Every command carries the instant `t` at which it takes place (a request instant of R9, the PT of a
peg, or the instant of an event); the operands after it name the resource and give what the world outside the block
supplies (a sample, a stamp, a received frame, a measured value).
-/

namespace Sys2Proof

/-- A register page: page `p` of bent `b`, or a package page (R403, R405). -/
inductive Page where
  | bent (b : Fin 8) (p : Fin 48)
  | pkg (q : Fin 6)
  deriving DecidableEq, Repr

/-- Who sends a register access: the host and the foreman each have their own latches and hold registers (R25). -/
inductive Writer where
  | host
  | foreman
  deriving DecidableEq, Repr

/-- What the SECDED check of a read finds (R17, R18). -/
inductive Ecc where
  | good
  | corrected
  | uncorrectable
  deriving DecidableEq, Repr

/-- The timebase sources, by their codes (R51). -/
inductive Source where
  | refin
  | ocxo
  | xtal
  deriving DecidableEq, Repr

/-- How a peg reaches its lane: damaged on the fabric (R344), or whole, with what the check of one word of shape memory that
its lane reads for it finds (R17, R182). -/
inductive PegRead where
  | parity
  | whole (ecc : Ecc) (word : Fin 0x100000)
  deriving DecidableEq, Repr

/-- An edge at an input: its direction and its stamp (R36, R104, R210, R237). -/
structure PinEdge where
  falling : Bool
  stamp : PT
  deriving DecidableEq, Repr

/-- What the tests of a source find (R52): the lowest and the highest frequency over RETURN_QUAL, in µHz, and the phase error
that a coast on it has built up, in kerfs (R79). -/
structure SrcTest where
  lo : Nat
  hi : Nat
  phase : Int
  deriving DecidableEq, Repr

/-- A source, and the frequencies measured of the three, in µHz (R53). -/
structure SrcFreqs where
  src : Source
  f0 : Nat
  f1 : Nat
  f2 : Nat
  deriving DecidableEq, Repr

/-- The edges of a reference that fails (R77): the last good update, and the updates since the last lock window. -/
structure LostRef where
  last : PT
  edges : List Nat
  deriving DecidableEq, Repr

/-- What sensing finds (R114): its samples, and the shift under the probe current, in mV. -/
structure Sensed where
  samples : List Int
  shift : Nat
  deriving DecidableEq, Repr

/-- A rail of a bent and its reading in mV (R410). -/
structure RailReading where
  rail : Fin 4
  mv : BitVec 16
  deriving DecidableEq, Repr

/-- The class of a damaged frame and the lane it was damaged on (R351, R352). -/
structure BadFrame where
  cls : Fin 16
  lane : Fin 4
  deriving DecidableEq, Repr

/-- Words 0–2 of a descriptor in host memory (R381). -/
abbrev DescWords := BitVec 64 × BitVec 64 × BitVec 64

/-- The commands. -/
inductive Instr where
  | registerWrite (t : PT) (addr : Fin 0x4000000) (full : Bool) (v : Word)
  | ptHoldWrite (t : PT) (w : Writer) (addr : Fin 0x4000000) (v : Word)
  | ptLoWrite (t : PT) (w : Writer) (addr : Fin 0x4000000) (v : Word)
  | readLatch (t : PT) (w : Writer) (addr : Fin 0x4000000)
  | bar2Write (t : PT) (addr : Fin 0x400000000) (data : List Byte)
  | bar2Read (t : PT) (addr : Fin 0x400000000) (ecc : Ecc)
  | commit (t : PT) (pg : Page) (kind : Fin 16)
  | commitCancel (t : PT) (pg : Page)
  | commitApply (t : PT) (pg : Page)
  | pageEnable (t : PT) (pg : Page)
  | pageDisable (t : PT) (pg : Page)
  | pageDrain (t : PT) (pg : Page)
  | pageFence (t : PT) (pg : Page)
  | pageSelftest (t : PT) (pg : Page)
  | pageLock (t : PT) (pg : Page)
  | hclr (t : PT) (pg : Page)
  | selftestDone (t : PT) (pg : Page) (pass : Bool)
  | drainDone (t : PT) (pg : Page)
  | evtPendClear (t : PT) (pg : Page) (hi : Bool) (v : Word)
  | evtForce (t : PT) (pg : Page) (hi : Bool) (v : Word)
  | evtEnWrite (t : PT) (pg : Page) (hi : Bool) (v : Word)
  | holdoffExpiry (t : PT) (v : Fin 1152)
  | clrCounts (t : PT) (pg : Page) (part_ : Option (Fin 16))
  | countClr (t : PT) (b : Fin 8)
  | scrub (t : PT) (b : Fin 8) (addr : Fin 0x80000000) (ecc : Ecc)
  | pegAccept (t : PT) (b kind : Fin 8) (idx : Fin 256) (read : PegRead) (calLive : PT)
  | marker (t : PT) (b : Fin 8) (idx : Fin 64)
  | alarmArm (t : PT) (b : Fin 8)
  | alarmDisarm (t : PT) (b : Fin 8)
  | alarm (t : PT) (b : Fin 8)
  | ppsEdge (t : PT) (edge : PinEdge)
  | ppsMissing (t : PT)
  | sourceQualified (t : PT) (src : Source) (test : SrcTest)
  | srcLost (t : PT) (m : SrcFreqs)
  | switchCmd (t : PT) (src : Fin 4)
  | switched (t : PT) (freq : BitVec 32)
  | steeringDone (t : PT)
  | ocxoReadyChange (t : PT) (level : Bool)
  | warmSettled (t : PT)
  | ageUpdate (t : PT)
  | lockWindow (t : PT) (b : Fin 8) (k : Fin 2) (before : List Nat) (last : Nat)
  | refLos (t : PT) (b : Fin 8) (ref : LostRef)
  | twinWatch (t : PT) (b : Fin 8) (skews errA errB : List Int)
  | takeover (t : PT) (b : Fin 8)
  | sillReacquireTimeout (t : PT) (b : Fin 8) (k : Fin 2)
  | swap (t : PT) (b : Fin 8) (k : Fin 2)
  | restart (t : PT) (b : Fin 8) (k : Fin 2)
  | unpark (t : PT) (b : Fin 8) (k : Fin 2)
  | holdLimit (t : PT) (b : Fin 8)
  | pullDone (t : PT) (b : Fin 8)
  | phaseStep (t : PT) (b : Fin 8) (k : Fin 2) (v : BitVec 24)
  | phaseDone (t : PT)
  | relock (t : PT) (b : Fin 8) (k : Fin 2) (n : BitVec 11) (tree : Bool)
  | relockDone (t : PT)
  | set (t : PT) (b : Fin 8) (ch : Fin 32)
  | pulse (t : PT) (b : Fin 8) (ch : Fin 32)
  | burst (t : PT) (b : Fin 8) (ch : Fin 32)
  | clockStart (t : PT) (b : Fin 8) (ch : Fin 32)
  | clockStop (t : PT) (b : Fin 8) (ch : Fin 32)
  | rest (t : PT) (b : Fin 8) (ch : Fin 32)
  | arm (t : PT) (b : Fin 8) (ch : Fin 32)
  | disarm (t : PT) (b : Fin 8) (ch : Fin 32)
  | trigger (t : PT) (b : Fin 8) (ch : Fin 32) (edge : PinEdge)
  | chStop (t : PT) (b : Fin 8) (ch : Fin 32)
  | chDrain (t : PT) (b : Fin 8) (ch : Fin 32)
  | chResense (t : PT) (b : Fin 8) (ch : Fin 32)
  | chArm (t : PT) (b : Fin 8) (ch : Fin 32)
  | chDisarm (t : PT) (b : Fin 8) (ch : Fin 32)
  | sensingDone (t : PT) (b : Fin 8) (ch : Fin 32) (sensed : Sensed)
  | disableHoldEnd (t : PT) (b : Fin 8) (kind : Fin 4) (idx : Fin 64)
  | pinFault (t : PT) (b : Fin 8) (ch : Fin 32)
  | spareTakeover (t : PT) (b : Fin 8) (ch : Fin 32)
  | thrWindow (t : PT) (b : Fin 8) (ch : Fin 32) (transitions : Nat) (low high : Int)
  | vectorFail (t : PT) (b : Fin 8) (ch : Fin 32) (m : Nat) (seen : Bool)
  | seqStart (t : PT) (b : Fin 8) (q : Fin 16)
  | estimateDone (t : PT) (b : Fin 8) (q : Fin 16)
  | seqHalt (t : PT) (b : Fin 8) (q : Fin 16)
  | seqStop (t : PT) (b : Fin 8) (q : Fin 16)
  | seqMove (t : PT) (b : Fin 8) (q : Fin 16)
  | admitRequest (t : PT) (b : Fin 8) (q : Fin 16)
  | stepFetch (t : PT) (b : Fin 8) (q : Fin 16) (ecc : Ecc)
  | pegStep (t : PT) (b : Fin 8) (q : Fin 16)
  | playStep (t : PT) (b : Fin 8) (q : Fin 16)
  | segmentStep (t : PT) (b : Fin 8) (q : Fin 16)
  | captureStep (t : PT) (b : Fin 8) (q : Fin 16)
  | waitStep (t : PT) (b : Fin 8) (q : Fin 16)
  | branch (t : PT) (b : Fin 8) (q : Fin 16)
  | loopStep (t : PT) (b : Fin 8) (q : Fin 16)
  | callStep (t : PT) (b : Fin 8) (q : Fin 16)
  | returnStep (t : PT) (b : Fin 8) (q : Fin 16)
  | syncStep (t : PT) (b : Fin 8) (q : Fin 16)
  | syncTimeout (t : PT) (ch : Fin 64)
  | setStep (t : PT) (b : Fin 8) (q : Fin 16)
  | endShot (t : PT) (b : Fin 8) (q : Fin 16)
  | haltStep (t : PT) (b : Fin 8) (q : Fin 16)
  | await (t : PT) (b : Fin 8) (q : Fin 16)
  | awaitTimeout (t : PT) (b : Fin 8) (q : Fin 16)
  | shotTrigger (t : PT) (b : Fin 8) (q : Fin 16) (pin : Bool) (index : Fin 32) (falling : Bool) (stamp : PT)
  | verdictDelivery (t : PT) (b : Fin 8) (toInput : Bool) (idx : Fin 16) (vid : Fin 512) (lost parity : Bool)
  | verdictTimeout (t : PT) (b : Fin 8) (q : Fin 16)
  | parityFault (t : PT) (b : Fin 8) (q : Fin 16)
  | shotDone (t : PT) (b : Fin 8) (q : Fin 16) (energy : Nat)
  | segmentPeg (t : PT) (b : Fin 8) (n : Fin 16)
  | strStart (t : PT) (b : Fin 8) (n : Fin 16)
  | strStop (t : PT) (b : Fin 8) (n : Fin 16)
  | strDrain (t : PT) (b : Fin 8) (n : Fin 16)
  | strJump (t : PT) (b : Fin 8) (n : Fin 16)
  | ringReset (t : PT) (b : Fin 8) (n : Fin 16)
  | ringWrWrite (t : PT) (b : Fin 8) (n : Fin 16) (v : Word)
  | segmentCommit (t : PT) (b : Fin 8) (n : Fin 16)
  | segmentBoundary (t : PT) (b : Fin 8) (n : Fin 16) (ecc : Ecc) (word : Fin 0x200000)
  | underrun (t : PT) (b : Fin 8) (n : Fin 16)
  | fillEnd (t : PT) (b : Fin 8) (n : Fin 16)
  | ownedStreamEnd (t : PT) (b : Fin 8) (n : Fin 16)
  | clrFail (t : PT) (b : Fin 8)
  | playPeg (t : PT) (b : Fin 8) (kind : Fin 4) (idx : Fin 64) (from_ : Nat) (ecc : Ecc) (word : Fin 0x100000)
  | frameAdd (t : PT) (b : Fin 8) (kind : Fin 4) (idx : Fin 64)
  | frameSet (t : PT) (b : Fin 8) (kind : Fin 4) (idx : Fin 64)
  | stopPeg (t : PT) (b : Fin 8) (kind : Fin 4) (idx : Fin 64)
  | toneStop (t : PT) (b : Fin 8) (kind : Fin 4) (idx : Fin 64)
  | toneDrain (t : PT) (b : Fin 8) (kind : Fin 4) (idx : Fin 64)
  | flxStop (t : PT) (b : Fin 8) (idx : Fin 16)
  | flxDrain (t : PT) (b : Fin 8) (idx : Fin 16)
  | outFault (t : PT) (b : Fin 8) (kind : Fin 4) (idx : Fin 64)
  | window (t : PT) (b : Fin 8) (ch : Fin 4)
  | heldWindowStart (t : PT) (b : Fin 8) (ch : Fin 4)
  | windowEnd (t : PT) (b : Fin 8) (ch : Fin 4) (samples : List Int)
  | contStart (t : PT) (b : Fin 8) (ch : Fin 4)
  | contStop (t : PT) (b : Fin 8) (ch : Fin 4)
  | capContStart (t : PT) (b : Fin 8) (ch : Fin 4)
  | capContStop (t : PT) (b : Fin 8) (ch : Fin 4)
  | contBlock (t : PT) (b : Fin 8) (ch : Fin 4) (samples : List Int)
  | inject (t : PT) (b : Fin 8) (ch : Fin 4)
  | capStop (t : PT) (b : Fin 8) (ch : Fin 4)
  | capDrain (t : PT) (b : Fin 8) (ch : Fin 4)
  | rotate (t : PT) (b : Fin 8) (ch : Fin 4)
  | rotation (t : PT) (b : Fin 8) (ch : Fin 4)
  | sliceSwap (t : PT) (b : Fin 8) (ch : Fin 4)
  | sliceCalDone (t : PT) (b : Fin 8) (ch : Fin 4)
  | shadowBlock (t : PT) (b : Fin 8) (ch : Fin 4) (spare other : List Int)
  | pulseWidthEvent (t : PT) (b : Fin 8) (ch : Fin 4) (lead : PinEdge) (trail : PT)
  | inFault (t : PT) (b : Fin 8) (ch : Fin 4)
  | verdictFrame (t : PT) (p : Fin 16) (hops : Fin 4) (entries : List (Fin 256 × Fin 512 × Fin 256 × BitVec 48))
  | stamp (t : PT) (b : Fin 8) (pin : Bool) (idx : Fin 32) (edge : PinEdge) (k0 k1 k2 k3 : Fin 160)
  | lathWithdrawal (t : PT) (b ch : Fin 8) (k : Fin 4)
  | lathReturn (t : PT) (b ch : Fin 8) (hits : List Nat) (complete : Bool)
  | tiuArmPeg (t : PT) (b : Fin 8) (u : Fin 4)
  | tiuDisarmPeg (t : PT) (b : Fin 8) (u : Fin 4)
  | tiuArm (t : PT) (b : Fin 8) (u : Fin 4)
  | tiuDisarm (t : PT) (b : Fin 8) (u : Fin 4)
  | tiuClr (t : PT) (b : Fin 8) (u : Fin 4)
  | tiuMeasurement (t : PT) (b : Fin 8) (u : Fin 4)
  | tiuTimeout (t : PT) (b : Fin 8) (u : Fin 4)
  | gate (t : PT) (b : Fin 8) (e : Fin 2)
  | freStopPeg (t : PT) (b : Fin 8) (e : Fin 2)
  | freGate (t : PT) (b : Fin 8) (e : Fin 2)
  | freStop (t : PT) (b : Fin 8) (e : Fin 2)
  | freClr (t : PT) (b : Fin 8) (e : Fin 2)
  | gateEnd (t : PT) (b : Fin 8) (e : Fin 2)
  | gateDone (t : PT) (b : Fin 8) (e : Fin 2)
  | signDone (t : PT) (b : Fin 8)
  | calStart (t : PT) (b : Fin 8) (cls : Fin 6)
  | calMeasurement (t : PT) (b : Fin 8) (item : Fin 32) (inst : Fin 64) (m : List Int) (complete active : Bool)
  | correctionApply (t : PT) (b : Fin 8) (item : Fin 32) (inst : Fin 64)
  | forcedApply (t : PT) (b : Fin 8) (item : Fin 32) (inst : Fin 64)
  | trestleTakeover (t : PT) (b : Fin 8) (g : Fin 4)
  | trestleReturn (t : PT) (b : Fin 8) (g : Fin 4)
  | takeoverAbandon (t : PT) (b : Fin 8) (g : Fin 4)
  | reinterpolate (t : PT) (b : Fin 8)
  | calStale (t : PT) (b : Fin 8) (item : Fin 32) (inst : Fin 64)
  | pwrupDone (t : PT) (b : Fin 8)
  | pwrupTimeout (t : PT) (b : Fin 8)
  | runPass (t : PT) (b : Fin 8)
  | runItem (t : PT) (b : Fin 8)
  | store (t : PT) (b : Fin 8) (v drop : Word)
  | autoStore (t : PT) (b : Fin 8) (v drop : Word)
  | storeRetry (t : PT) (b : Fin 8) (v drop : Word)
  | storeDone (t : PT) (b : Fin 8)
  | storeStall (t : PT) (b : Fin 8)
  | shimCancel (t : PT) (b : Fin 8)
  | delete (t : PT) (b : Fin 8)
  | reload (t : PT) (b : Fin 8)
  | bentFence (t : PT) (b : Fin 8)
  | bentUnfence (t : PT) (b : Fin 8)
  | bentDrain (t : PT) (b : Fin 8)
  | fwSwitch (t : PT) (b : Fin 8)
  | foremanStop (t : PT) (b : Fin 8)
  | foremanRestart (t : PT) (b : Fin 8) (up : Bool)
  | tunnelledWrite (t : PT) (src : Fin 257) (n : Word) (addr : Fin 0x4000000) (v : Word)
  | resetN (t : PT) (long : Bool)
  | por (t : PT)
  | perstN (t : PT) (low : Bool)
  | pwrFail (t : PT)
  | pwrRestored (t : PT)
  | creditUpdate (t : PT) (rails : List Nat) (aux : Nat)
  | lowMargin (t : PT)
  | telemRead (t : PT) (b : Fin 8) (ok : Bool) (rails : List (Nat × Nat)) (vaux : BitVec 16)
  | groupIdle (t : PT) (b : Fin 8) (g : Fin 13)
  | groupWake (t : PT) (b : Fin 8) (g : Fin 13)
  | wakeDone (t : PT) (b : Fin 8) (g : Fin 14)
  | paceSample (t : PT) (b : Fin 8) (counts : List (BitVec 16)) (avs : Bool) (mv : BitVec 16)
  | paceRaise (t : PT) (b : Fin 8)
  | paceLower (t : PT) (b : Fin 8)
  | avsFault (t : PT) (b : Fin 8)
  | clrPeak (t : PT) (b : Fin 8)
  | election (t : PT)
  | migrate (t : PT)
  | heartbeat (t : PT) (parity : Bool)
  | heartbeatLoss (t : PT)
  | purlinHandover (t : PT)
  | skewDone (t : PT) (skews : List Int)
  | purlinMarker (t : PT) (b : Fin 8) (diff : Int)
  | reskew (t : PT)
  | join (t : PT) (auto : Bool)
  | joinComplete (t : PT) (child : Option (Fin 16)) (sent o : PT)
  | leave (t : PT)
  | tenonLost (t : PT)
  | timeExchange (t : PT) (p : Fin 16)
  | timeFrame (t : PT) (p : Fin 16) (t1 t2 t3 t4 : PT)
  | eventFrame (t : PT) (p : Fin 16) (seq pkg : Fin 256) (source : Fin 65536) (forced : Bool) (health : Fin 256) (pt : PT)
      (detail : BitVec 64) (gen : Word)
  | regFrame (t : PT) (p : Fin 16) (seq src dst : Fin 256) (read : Bool) (n : Word) (addr : Fin 0x4000000) (v : Word)
  | bulkFrame (t : PT) (p : Fin 16) (seq pkg : Fin 256) (b : Fin 8) (source : Fin 16) (data : List Byte)
  | retrain (t : PT) (b : Fin 8) (k : Fin 2) (auto : Bool)
  | trainingDone (t : PT) (b : Fin 8) (k : Fin 2) (ok : BitVec 4) (eyes : Word) (pkg : Fin 256) (n : BitVec 11) (level : Fin
      3) (ordinal : Fin 16) (phase : Int)
  | asymCal (t : PT) (b : Fin 8) (k : Fin 2)
  | asymDone (t : PT) (b : Fin 8) (k : Fin 2) (sumN sumR : Int)
  | raccWrite (t : PT)
  | raccRead (t : PT)
  | raccDone (t : PT) (v : Word)
  | raccTimeout (t : PT)
  | sidePortEnable (t : PT) (b : Fin 8) (rate : Fin 6) (width : Fin 5)
  | headWrite (t : PT) (b : Fin 8) (e : Fin 16) (head : Word) (descs : List DescWords)
  | dmaDescriptor (t : PT) (b : Fin 8) (e : Fin 16) (data : List Byte) (fail : Fin 3)
  | dmaFlush (t : PT) (b : Fin 8) (e : Fin 16)
  | dmaReset (t : PT) (b : Fin 8) (e : Fin 16)
  | version (t : PT) (b : Fin 8)
  | fwOpen (t : PT) (b : Fin 8)
  | fwWrite (t : PT) (b : Fin 8)
  | fwClose (t : PT) (b : Fin 8)
  | cfgOpen (t : PT) (b : Fin 8) (v drop : Word)
  | cfgWrite (t : PT) (b : Fin 8) (v drop : Word)
  | cfgClose (t : PT) (b : Fin 8) (v drop : Word)
  | flashRead (t : PT) (b : Fin 8)
  | mbxDone (t : PT) (b : Fin 8) (pass : Bool)
  | getVersion (t : PT)
  | getCapabilities (t : PT)
  | negotiateAlgorithms (t : PT) (p384 sha384 : Bool)
  | getDigests (t : PT)
  | getCertificate (t : PT) (slot : Fin 8) (offset len : BitVec 16)
  | challenge (t : PT) (slot : Fin 8) (transcript : List Byte)
  | getMeasurements (t : PT) (index : Fin 256) (transcript : List Byte)
  | ownerSet (t : PT)
  | ownerClear (t : PT)
  | tempSample (t : PT) (b : Fin 8) (v : BitVec 16)
  | railAlert (t : PT) (b : Fin 8) (m : RailReading)
  | bist (t : PT) (b : Fin 8) (pass : Bool) (block : Fin 256)
  | sourceActivity (t : PT) (which : Fin 4) (duty : Option (Fin 101)) (phase : Int)
  | overrangeSample (t : PT) (b : Fin 8) (ch : Fin 4)
  | ringGranuleTaken (t : PT) (b : Fin 8) (n : Fin 16) (ecc : Ecc) (word : Fin 48)
  | linkUp (t : PT) (b : Fin 8) (k : Fin 2)
  | frameCrcFail (t : PT) (b : Fin 8) (k : Fin 2) (frame : BadFrame) (resent : Fin 256)
  | sidePortDown (t : PT) (b : Fin 8)
  | foremanStart (t : PT) (fails : List (Fin 8 × Fin 3))
  | railInBand (t : PT) (b : Fin 8) (m : RailReading)
  deriving DecidableEq, Repr

end Sys2Proof
end

