-- ==== Sys2Proof/Decode.lean ====
section
/-!
DEFINITION. Decode.lean: the commands that a word spells. The opcode table gives no row any bits: the block takes its commands
by name, so no word spells one.
-/

namespace Sys2Proof

/-- The command that a word of `nbits` bits spells, by the table's bits: none, since no row of the table has bits. -/
def decodeTableWord (_nbits _w : Nat) : Option Instr := none

end Sys2Proof
end

