-- ==== Sys2Proof/Config.lean ====
section
/-!
DEFINITION. Config.lean: the free values and the outside functions of the model. Nothing in Lean can evaluate them, so a
statement about them holds whatever they are.
-/

namespace Sys2Proof.Config

/-- A value the spec leaves open, fresh at each use (log entry 1): applied to a counter that the state holds. -/
opaque freeValue : Nat → Nat

/-- A value the spec leaves open at a read (log entry 1): of the state's counter, the instant and the register read. -/
opaque freeRead : Nat → Nat → Nat → Nat

/-- SHA-384 of a byte string (R390, R393); the spec names the function and does not define it. -/
opaque sha384 : List Byte → List Byte

/-- ECDSA P-384 with deterministic nonces of the key numbered first over a digest (R390). -/
opaque ecdsaSign : Nat → List Byte → List Byte

/-- Does a signature verify under a public key (R397)? -/
opaque ecdsaVerify : List Byte → List Byte → List Byte → Bool

/-- CRC-32 of a byte string (R149, R297, R309); the spec gives no polynomial. -/
opaque crc32 : List Byte → Nat

/-- The number of elements of an instance of a calibration item whose figures the spec does not give (R262): the cells of a
DAC and the points of its delay table. -/
opaque elemCount : Nat → Nat

/-- The point of a DAC's delay table that holds for a frequency word (R177); the spec does not give the table's points. -/
opaque delayPoint : Nat → Nat

/-- What the driver settings of an edge channel (swing, common mode, single-ended) add to its path delay, in 1/16 kerf, as it was
characterised (R97, R112): bent, channel, settings. -/
opaque driverDelay : Nat → Nat → Nat → Nat → Bool → Int

/-- An element as the factory wrote it: bent, temperature of the point, instance (item × 256 + instance), element. -/
opaque factoryTrim : Nat → Int → Nat → Nat → Int

/-- A built-in nominal trim (R282): instance and element. -/
opaque nominalTrim : Nat → Nat → Int

/-- The DER-encoded certificates of a bent: bent and 0 for its own, 1 for the device CA (R390). -/
opaque certificate : Nat → Nat → List Byte

/-- The DER-encoded SubjectPublicKeyInfo of a bent's key (R389). -/
opaque publicKey : Nat → List Byte

/-- A byte of the boot flash as the board programmed it, by flash offset (R426). -/
opaque flashImage : Nat → Byte

/-- The length in bytes of the firmware image that the board left in a bank (R396). -/
opaque imageLength : Nat → Nat

/-- The Valane key that the boot ROM holds (R396). -/
opaque valaneKey : List Byte

/-- The firmware version in the header of an image's trailer (R396 gives the header's fields and not their places). -/
opaque versionOf : List Byte → Nat

/-- The size of the boot flash in bytes beyond the 32 MiB that every board has (R426, and the table after R421). -/
opaque flashMore : Nat

/-- The 64-byte build identifier of a bank's firmware (R387). -/
opaque buildId : Nat → List Byte

/-- The bytes of a trim store copy (directory and slots, R281), from its content as a list of numbers. -/
opaque trimBytes : List Int → List Byte

/-- The package serial number (R409). -/
opaque serial : Nat

end Sys2Proof.Config
end

