-- ==== Sys2Proof/Machine/Num.lean ====
section
/-!
DEFINITION. Machine/Num.lean: bit fields, signed readings, the rounding of R2, and the sparse maps that hold registers
and memories.
-/

namespace Sys2Proof.Machine

/-- Bits [lo + len - 1 : lo] of a word. -/
def bits (x lo len : Nat) : Nat := (x >>> lo) % 2 ^ len

/-- The word with bits [lo + len - 1 : lo] replaced by `v`. -/
def putBits (x lo len v : Nat) : Nat :=
  x % 2 ^ lo + (v % 2 ^ len) * 2 ^ lo + (x >>> (lo + len)) * 2 ^ (lo + len)

/-- Bit `i` of a word. -/
def bitAt (x i : Nat) : Bool := x.testBit i

/-- 1 for true, 0 for false. -/
def b2n (b : Bool) : Nat := if b then 1 else 0

/-- The two's-complement reading of the low `w` bits. -/
def toSigned (w x : Nat) : Int :=
  if x % 2 ^ w < 2 ^ (w - 1) then (x % 2 ^ w : Nat) else ((x % 2 ^ w : Nat) : Int) - (2 ^ w : Nat)

/-- The low `w` bits of an integer, as two's complement holds it. -/
def ofSigned (w : Nat) (i : Int) : Nat := (i % ((2 ^ w : Nat) : Int)).toNat

/-- The integer clamped between two bounds. -/
def clampI (lo hi i : Int) : Int := if i < lo then lo else if hi < i then hi else i

/-- The natural number clamped between two bounds. -/
def clampN (lo hi n : Nat) : Nat := if n < lo then lo else if hi < n then hi else n

/-- a / b rounded to the nearest, halves away from zero (R2); `b` is positive. -/
def roundDiv (a : Int) (b : Nat) : Int :=
  let m := a.natAbs
  let q := (2 * m + b) / (2 * b)
  if a < 0 then -(q : Int) else q

/-- a / b rounded up. -/
def ceilDiv (a b : Nat) : Nat := (a + b - 1) / b

/-- A 32-bit count that saturates (R47 and the counts of the other pages). -/
def satAdd (x n : Nat) : Nat := min (x + n) 0xFFFFFFFF

/-- The integer square root by bisection on bits, for values below 2^(2k). -/
def isqrtLoop (n : Nat) : Nat → Nat → Nat
  | 0, r => r
  | k + 1, r =>
    let c := r + 2 ^ k
    if c * c ≤ n then isqrtLoop n k c else isqrtLoop n k r

/-- floor(sqrt n) for n < 2^256. -/
def isqrt (n : Nat) : Nat := isqrtLoop n 128 0

/-! ### Sparse maps -/

variable {α : Type}

/-- The value a map holds at a key; the default where it lists none. -/
def mapGet (d : Nat → α) (m : SMap α) (k : Nat) : α :=
  match m with
  | [] => d k
  | (k', v) :: r => if k' = k then v else mapGet d r k

/-- The map without a key. -/
def mapErase (m : SMap α) (k : Nat) : SMap α := m.filter (fun e => e.1 != k)

/-- Place an entry before the first larger key. -/
def mapInsert (m : SMap α) (k : Nat) (v : α) : SMap α :=
  match m with
  | [] => [(k, v)]
  | (k', v') :: r => if k < k' then (k, v) :: (k', v') :: r else (k', v') :: mapInsert r k v

/-- The map with a value at a key; writing the default removes the entry, so that equal maps are equal data. -/
def mapSet [DecidableEq α] (d : Nat → α) (m : SMap α) (k : Nat) (v : α) : SMap α :=
  if v = d k then mapErase m k else mapInsert (mapErase m k) k v

/-- Every key of the map is above a bound. -/
def keysAbove (m : SMap α) (k : Nat) : Bool := m.all (fun e => decide (k < e.1))

/-- The canonical form: keys strictly rising and no entry at its default. -/
def mapWf [DecidableEq α] (d : Nat → α) (m : SMap α) : Bool :=
  match m with
  | [] => true
  | (k, v) :: r => decide (v ≠ d k) && keysAbove r k && mapWf d r

/-- A set of keys. -/
abbrev KSet := SMap Bool

/-- Membership in a set of keys. -/
def setHas (m : KSet) (k : Nat) : Bool := mapGet (fun _ => false) m k

/-- Put a key in, or take it out. -/
def setPut (m : KSet) (k : Nat) (b : Bool) : KSet := mapSet (fun _ => false) m k b

/-- The little-endian bytes of a number. -/
def leBytes (n : Nat) : Nat → List Byte
  | 0 => []
  | k + 1 => BitVec.ofNat 8 n :: leBytes (n >>> 8) k

/-- The number that little-endian bytes spell. -/
def leNat : List Byte → Nat
  | [] => 0
  | b :: r => b.toNat + 256 * leNat r

end Sys2Proof.Machine
end

