-- ==== Sys2Proof/Machine/RegTable.lean ====
section
/-!
DEFINITION. Machine/RegTable.lean: the registers of every page, as the register tables of the spec give them
(R369, R48, R64, R93, R125, R151, R170, R198, R224, R258, R260, R287, R290, R312, R331-R333, R358-R360, R385,
R386, R400, R407, R409): offset, stride and count, access code (R5), reset value, implemented bits, the bits a write can
reach, the timing-affecting bits (R373), how many following words a read latches (R25), whether the register has a
command row of its own, and the fields whose encodings are restricted (R6). A dash in a Reset column stands as 0 here
(log entry 6).
-/

namespace Sys2Proof.Machine

/-- The access codes of R5. -/
inductive Acc where
  | rw | rs | ro | w1c | w1s | wo
  deriving DecidableEq, Repr

/-- Which values of a field are not a reserved encoding (R6): a union of ranges, a signed range, or the multiples of a
number within a range. -/
inductive Chk where
  | rng (rs : List (Nat × Nat))
  | sgn (lo hi : Int)
  | mult (m lo hi : Nat)
  deriving DecidableEq, Repr

/-- A field whose encodings are restricted: its lowest bit, its width, and the allowed values. -/
structure FieldChk where
  lo : Nat
  width : Nat
  chk : Chk
  deriving DecidableEq, Repr

/-- One row of a register table: `count` registers from `base`, `stride` bytes apart. -/
structure RegRow where
  base : Nat
  stride : Nat
  count : Nat
  acc : Acc
  reset : Nat
  mask : Nat
  wmask : Nat
  timing : Nat
  latches : Nat
  own : Bool
  checks : List FieldChk
  deriving DecidableEq, Repr

/-- The register tables of the spec, one constructor per table. -/
inductive PageKind where
  | bent | sill | time | edge | tone | probe | flux | segment | cap | stamp | freq | cal | shimstore | continuity | energy
  | pace | fliud | events | foreman | seq | pkg | timebase | purlin | ledger | ident | hier
  deriving DecidableEq, Repr

namespace Off

abbrev TIME_NOW_LO : Nat := 0x40
abbrev TIME_NOW_MID : Nat := 0x44
abbrev TIME_NOW_HI : Nat := 0x48
abbrev TIME_LATTICE_N : Nat := 0x4C
abbrev TIME_LAT_ORIGIN_LO : Nat := 0x50
abbrev TIME_LAT_ORIGIN_MID : Nat := 0x54
abbrev TIME_LAT_ORIGIN_HI : Nat := 0x58
abbrev TIME_PT_GEN : Nat := 0x5C
abbrev TIME_EPOCH_TAI_LO : Nat := 0x60
abbrev TIME_EPOCH_TAI_HI : Nat := 0x64
abbrev TIME_EPOCH_FRAC_LO : Nat := 0x68
abbrev TIME_EPOCH_FRAC_HI : Nat := 0x6C
abbrev TIME_PPS_CTRL : Nat := 0x70
abbrev TIME_PPS_PT_LO : Nat := 0x74
abbrev TIME_PPS_PT_MID : Nat := 0x78
abbrev TIME_PPS_PT_HI : Nat := 0x7C
abbrev TIME_PPS_COUNT : Nat := 0x80
abbrev TIME_PPS_MISS_COUNT : Nat := 0x84
abbrev TIME_ALARM_PT_LO : Nat := 0x88
abbrev TIME_ALARM_PT_MID : Nat := 0x8C
abbrev TIME_ALARM_PT_HI : Nat := 0x90
abbrev TIME_ALARM_CTRL : Nat := 0x94
abbrev TIME_MARK_CTRL : Nat := 0x98
abbrev TIME_LATE_DROP_COUNT : Nat := 0x9C
abbrev TIME_LATE_SLIP_COUNT : Nat := 0xA0
abbrev TIME_LATE_VOID_COUNT : Nat := 0xA4
abbrev TIME_COLLIDE_COUNT : Nat := 0xA8
abbrev TIME_COUNT_CLR : Nat := 0xAC
abbrev TIME_EPOCH_COUNT : Nat := 0xB0
abbrev TIMEBASE_SRC_PRIO : Nat := 0x40
abbrev TIMEBASE_SRC_STAT : Nat := 0x44
abbrev TIMEBASE_REFIN_FREQ : Nat := 0x48
abbrev TIMEBASE_OCXO_FREQ : Nat := 0x4C
abbrev TIMEBASE_XTAL_FREQ : Nat := 0x50
abbrev TIMEBASE_QUAL : Nat := 0x54
abbrev TIMEBASE_WARM_CTRL : Nat := 0x58
abbrev TIMEBASE_WARM_SETTLE : Nat := 0x5C
abbrev TIMEBASE_SLEW_MAX : Nat := 0x60
abbrev TIMEBASE_AGE_RATE : Nat := 0x64
abbrev TIMEBASE_AGE_BASE : Nat := 0x68
abbrev TIMEBASE_AGE_EPOCH_LO : Nat := 0x6C
abbrev TIMEBASE_AGE_EPOCH_MID : Nat := 0x70
abbrev TIMEBASE_AGE_EPOCH_HI : Nat := 0x74
abbrev TIMEBASE_AGE_CORR : Nat := 0x78
abbrev TIMEBASE_PPS_DISC : Nat := 0x7C
abbrev TIMEBASE_DISC_CORR : Nat := 0x80
abbrev TIMEBASE_SWITCH_CMD : Nat := 0x84
abbrev TIMEBASE_STEER_FREQ : Nat := 0x88
abbrev TIMEBASE_SWITCH_COUNT : Nat := 0x8C
abbrev TIMEBASE_LAST_SWITCH_PT_LO : Nat := 0x90
abbrev TIMEBASE_LAST_SWITCH_PT_MID : Nat := 0x94
abbrev TIMEBASE_LAST_SWITCH_PT_HI : Nat := 0x98
abbrev SILL_SILL_CTRL : Nat := 0x40
abbrev SILL_SILL_STAT : Nat := 0x44
abbrev SILL_LOOP_BW : Nat := 0x48
abbrev SILL_LOOP_ZETA : Nat := 0x4C
abbrev SILL_LOCK_WIN : Nat := 0x50
abbrev SILL_LOCK_TOL : Nat := 0x54
abbrev SILL_UNLOCK_TOL : Nat := 0x58
abbrev SILL_LOCK_ERR : Nat := 0x5C
abbrev SILL_HOLD_AVG : Nat := 0x60
abbrev SILL_HOLD_LIMIT : Nat := 0x64
abbrev SILL_DCO_WORD : Nat := 0x68
abbrev SILL_DCO_FLOOR : Nat := 0x6C
abbrev SILL_DCO_CEIL : Nat := 0x70
abbrev SILL_RELOCK : Nat := 0x74
abbrev SILL_PHASE_STEP : Nat := 0x78
abbrev SILL_PHASE_RATE : Nat := 0x7C
abbrev SILL_PHASE_LEFT : Nat := 0x80
abbrev SILL_SILL_CMD : Nat := 0x84
abbrev SILL_TWIN_SKEW : Nat := 0x88
abbrev SILL_TWIN_TOL : Nat := 0x8C
abbrev SILL_COAST_PT_LO : Nat := 0x90
abbrev SILL_COAST_PT_MID : Nat := 0x94
abbrev SILL_COAST_PT_HI : Nat := 0x98
abbrev SILL_COAST_TIME : Nat := 0x9C
abbrev SILL_PULL_LEFT : Nat := 0xA0
abbrev SILL_TAKEOVER_COUNT : Nat := 0xA4
abbrev SILL_COAST_COUNT : Nat := 0xA8
abbrev SILL_FAULT_PT_LO : Nat := 0xAC
abbrev SILL_FAULT_PT_MID : Nat := 0xB0
abbrev SILL_FAULT_PT_HI : Nat := 0xB4
abbrev SILL_SO_CFG (n : Nat) : Nat := 0x100 + 0x8 * n
abbrev SILL_SO_DLY (n : Nat) : Nat := 0x104 + 0x8 * n
abbrev EDGE_GRP_CTRL : Nat := 0x40
abbrev EDGE_GRP_STAT : Nat := 0x44
abbrev EDGE_GRP_CMD : Nat := 0x48
abbrev EDGE_PAT_PERIOD_LO (p : Nat) : Nat := 0x80 + 0x10 * p
abbrev EDGE_PAT_PERIOD_HI (p : Nat) : Nat := 0x84 + 0x10 * p
abbrev EDGE_PAT_WIDTH (p : Nat) : Nat := 0x88 + 0x10 * p
abbrev EDGE_PAT_COUNT (p : Nat) : Nat := 0x8C + 0x10 * p
abbrev EDGE_CH_CTRL (c : Nat) : Nat := 0x100 + 0x40 * c
abbrev EDGE_CH_STAT (c : Nat) : Nat := 0x104 + 0x40 * c
abbrev EDGE_CH_DRV_CFG (c : Nat) : Nat := 0x108 + 0x40 * c
abbrev EDGE_CH_RCV_CFG (c : Nat) : Nat := 0x10C + 0x40 * c
abbrev EDGE_CH_RCV_THR (c : Nat) : Nat := 0x110 + 0x40 * c
abbrev EDGE_CH_TRIG_SRC (c : Nat) : Nat := 0x114 + 0x40 * c
abbrev EDGE_CH_TRIG_DELAY_LO (c : Nat) : Nat := 0x118 + 0x40 * c
abbrev EDGE_CH_TRIG_DELAY_HI (c : Nat) : Nat := 0x11C + 0x40 * c
abbrev EDGE_CH_TRIG_WIDTH_LO (c : Nat) : Nat := 0x120 + 0x40 * c
abbrev EDGE_CH_TRIG_WIDTH_HI (c : Nat) : Nat := 0x124 + 0x40 * c
abbrev EDGE_CH_VEC_CTRL (c : Nat) : Nat := 0x128 + 0x40 * c
abbrev EDGE_CH_CMD (c : Nat) : Nat := 0x12C + 0x40 * c
abbrev EDGE_CH_LATE_COUNT (c : Nat) : Nat := 0x130 + 0x40 * c
abbrev EDGE_CH_DISCARD_COUNT (c : Nat) : Nat := 0x134 + 0x40 * c
abbrev EDGE_CH_TRIG_COUNT (c : Nat) : Nat := 0x138 + 0x40 * c
abbrev EDGE_CH_TRIG_MISSED (c : Nat) : Nat := 0x13C + 0x40 * c
abbrev SEQ_SEQ_CTRL : Nat := 0x40
abbrev SEQ_SEQ_STAT : Nat := 0x44
abbrev SEQ_SEQ_CMD : Nat := 0x48
abbrev SEQ_ENTRY : Nat := 0x4C
abbrev SEQ_LEAD_MAX : Nat := 0x50
abbrev SEQ_DECIDE_LEAD : Nat := 0x54
abbrev SEQ_VERDICT_TIMEOUT : Nat := 0x58
abbrev SEQ_SHOT_START : Nat := 0x5C
abbrev SEQ_SHOT_PERIOD : Nat := 0x60
abbrev SEQ_TRIG_DELAY : Nat := 0x64
abbrev SEQ_FIRST_PT_LO : Nat := 0x68
abbrev SEQ_FIRST_PT_MID : Nat := 0x6C
abbrev SEQ_FIRST_PT_HI : Nat := 0x70
abbrev SEQ_SHOT_LIMIT_LO : Nat := 0x74
abbrev SEQ_SHOT_LIMIT_HI : Nat := 0x78
abbrev SEQ_SHOT_NUM_LO : Nat := 0x7C
abbrev SEQ_SHOT_NUM_HI : Nat := 0x80
abbrev SEQ_FRAME_NUM : Nat := 0x84
abbrev SEQ_CURSOR_LO : Nat := 0x88
abbrev SEQ_CURSOR_MID : Nat := 0x8C
abbrev SEQ_CURSOR_HI : Nat := 0x90
abbrev SEQ_SEED_INIT_LO : Nat := 0x94
abbrev SEQ_SEED_INIT_HI : Nat := 0x98
abbrev SEQ_SNAP_CFG : Nat := 0x9C
abbrev SEQ_PROG_BASE : Nat := 0xA0
abbrev SEQ_PROG_END : Nat := 0xA4
abbrev SEQ_MOVE_TARGET : Nat := 0xA8
abbrev SEQ_EST_ENERGY : Nat := 0xAC
abbrev SEQ_EST_OVERRIDE : Nat := 0xB0
abbrev SEQ_FAULT_INFO : Nat := 0xB4
abbrev SEQ_VOID_COUNT : Nat := 0xB8
abbrev SEQ_REPLAY_COUNT : Nat := 0xBC
abbrev SEQ_STRETCH_COUNT : Nat := 0xC0
abbrev SEQ_LATE_VERDICT_COUNT : Nat := 0xC4
abbrev SEQ_TRIG_MISSED : Nat := 0xC8
abbrev SEQ_DEFER_COUNT : Nat := 0xCC
abbrev SEQ_SKIP_COUNT : Nat := 0xD0
abbrev SEQ_P (i : Nat) : Nat := 0x100 + 0x4 * i
abbrev SEGMENT_SEG_TABLE_BASE : Nat := 0x40
abbrev SEGMENT_SEG_TABLE_COUNT : Nat := 0x44
abbrev SEGMENT_SEG_CMD : Nat := 0x48
abbrev SEGMENT_FAIL_COUNT : Nat := 0x4C
abbrev SEGMENT_FAIL_LOG_FILL : Nat := 0x50
abbrev SEGMENT_SEG_STAT : Nat := 0x54
abbrev SEGMENT_STR_CFG (n : Nat) : Nat := 0x100 + 0x40 * n
abbrev SEGMENT_STR_STAT (n : Nat) : Nat := 0x104 + 0x40 * n
abbrev SEGMENT_STR_CMD (n : Nat) : Nat := 0x108 + 0x40 * n
abbrev SEGMENT_STR_OPER (n : Nat) : Nat := 0x10C + 0x40 * n
abbrev SEGMENT_STR_START_PT_LO (n : Nat) : Nat := 0x110 + 0x40 * n
abbrev SEGMENT_STR_START_PT_MID (n : Nat) : Nat := 0x114 + 0x40 * n
abbrev SEGMENT_STR_START_PT_HI (n : Nat) : Nat := 0x118 + 0x40 * n
abbrev SEGMENT_STR_RING_BASE (n : Nat) : Nat := 0x11C + 0x40 * n
abbrev SEGMENT_STR_RING_SIZE (n : Nat) : Nat := 0x120 + 0x40 * n
abbrev SEGMENT_STR_RING_WR (n : Nat) : Nat := 0x124 + 0x40 * n
abbrev SEGMENT_STR_RING_RD (n : Nat) : Nat := 0x128 + 0x40 * n
abbrev SEGMENT_STR_RING_REL (n : Nat) : Nat := 0x12C + 0x40 * n
abbrev SEGMENT_STR_WMARK (n : Nat) : Nat := 0x130 + 0x40 * n
abbrev SEGMENT_STR_FLAGS (n : Nat) : Nat := 0x134 + 0x40 * n
abbrev SEGMENT_STR_DISCARD_COUNT (n : Nat) : Nat := 0x138 + 0x40 * n
abbrev SEGMENT_STR_SEG_NOW (n : Nat) : Nat := 0x13C + 0x40 * n
abbrev SEGMENT_STR_FILL_SEG (n : Nat) : Nat := 0x500 + 0x20 * n
abbrev SEGMENT_STR_VEC_STROBE (n : Nat) : Nat := 0x504 + 0x20 * n
abbrev SEGMENT_STR_UNDERRUN_COUNT (n : Nat) : Nat := 0x508 + 0x20 * n
abbrev SEGMENT_STR_FILL_COUNT (n : Nat) : Nat := 0x50C + 0x20 * n
abbrev SEGMENT_STR_JUMP_COUNT (n : Nat) : Nat := 0x510 + 0x20 * n
abbrev SEGMENT_STR_DEFER_COUNT (n : Nat) : Nat := 0x514 + 0x20 * n
abbrev SEGMENT_STR_LATE_COUNT (n : Nat) : Nat := 0x518 + 0x20 * n
abbrev SEGMENT_STR_CONFLICT_COUNT (n : Nat) : Nat := 0x51C + 0x20 * n
abbrev TONE_GRP_CMD : Nat := 0x40
abbrev TONE_DAC_CTRL (d : Nat) : Nat := 0x100 + 0x20 * d
abbrev TONE_DAC_STAT (d : Nat) : Nat := 0x104 + 0x20 * d
abbrev TONE_DAC_FLAGS (d : Nat) : Nat := 0x108 + 0x20 * d
abbrev TONE_DAC_CLIP_COUNT (d : Nat) : Nat := 0x10C + 0x20 * d
abbrev TONE_DAC_DISCARD_COUNT (d : Nat) : Nat := 0x110 + 0x20 * d
abbrev TONE_DAC_PEAK (d : Nat) : Nat := 0x114 + 0x20 * d
abbrev TONE_TONE_CTRL (t : Nat) : Nat := 0x200 + 0x20 * t
abbrev TONE_TONE_STAT (t : Nat) : Nat := 0x204 + 0x20 * t
abbrev TONE_TONE_FREQ_LO (t : Nat) : Nat := 0x208 + 0x20 * t
abbrev TONE_TONE_FREQ_HI (t : Nat) : Nat := 0x20C + 0x20 * t
abbrev TONE_TONE_FRAME (t : Nat) : Nat := 0x210 + 0x20 * t
abbrev TONE_TONE_FRAME_NOW (t : Nat) : Nat := 0x214 + 0x20 * t
abbrev TONE_TONE_CMD (t : Nat) : Nat := 0x218 + 0x20 * t
abbrev TONE_TONE_LATE_COUNT (t : Nat) : Nat := 0x21C + 0x20 * t
abbrev FLUX_GRP_CMD : Nat := 0x40
abbrev FLUX_FLX_CTRL (c : Nat) : Nat := 0x100 + 0x20 * c
abbrev FLUX_FLX_STAT (c : Nat) : Nat := 0x104 + 0x20 * c
abbrev FLUX_FLX_BIAS (c : Nat) : Nat := 0x108 + 0x20 * c
abbrev FLUX_FLX_FLAGS (c : Nat) : Nat := 0x10C + 0x20 * c
abbrev FLUX_FLX_CMD (c : Nat) : Nat := 0x110 + 0x20 * c
abbrev FLUX_FLX_LATE_COUNT (c : Nat) : Nat := 0x114 + 0x20 * c
abbrev FLUX_FLX_DISCARD_COUNT (c : Nat) : Nat := 0x118 + 0x20 * c
abbrev FLUX_FLX_CLIP_COUNT (c : Nat) : Nat := 0x11C + 0x20 * c
abbrev CAP_CAP_CTRL : Nat := 0x40
abbrev CAP_CAP_STAT : Nat := 0x44
abbrev CAP_CAP_CMD : Nat := 0x48
abbrev CAP_WIN_DELAY : Nat := 0x4C
abbrev CAP_PLAUS_TOL : Nat := 0x50
abbrev CAP_COMPAT_CORR : Nat := 0x54
abbrev CAP_ROT_CTRL : Nat := 0x58
abbrev CAP_SLICE_STAT : Nat := 0x5C
abbrev CAP_MISMATCH : Nat := 0x60
abbrev CAP_PWE_CTRL : Nat := 0x64
abbrev CAP_PWE_MIN : Nat := 0x68
abbrev CAP_PWE_MAX : Nat := 0x6C
abbrev CAP_PWE_DELAY : Nat := 0x70
abbrev CAP_TMPL_MASK : Nat := 0x74
abbrev CAP_TMPL_LEN : Nat := 0x78
abbrev CAP_INJ_CTRL : Nat := 0x7C
abbrev CAP_INJ_DELAY : Nat := 0x80
abbrev CAP_CONT_CFG : Nat := 0x84
abbrev CAP_RING_BASE : Nat := 0x88
abbrev CAP_RING_SIZE : Nat := 0x8C
abbrev CAP_RING_WR : Nat := 0x90
abbrev CAP_RING_RD : Nat := 0x94
abbrev CAP_REC_SEQ : Nat := 0x98
abbrev CAP_WIN_COUNT : Nat := 0x9C
abbrev CAP_LATE_COUNT : Nat := 0xA0
abbrev CAP_TRIG_MISSED : Nat := 0xA4
abbrev CAP_DISCARD_COUNT : Nat := 0xA8
abbrev CAP_DROP_COUNT : Nat := 0xAC
abbrev CAP_INJ_COUNT : Nat := 0xB0
abbrev CAP_MISMATCH_COUNT : Nat := 0xB4
abbrev CAP_ROT_COUNT : Nat := 0xB8
abbrev CAP_OVR_COUNT : Nat := 0xBC
abbrev CAP_CAP_FLAGS : Nat := 0xC0
abbrev CAP_DEM_CTRL (d : Nat) : Nat := 0x400 + 0x40 * d
abbrev CAP_DEM_FREQ_LO (d : Nat) : Nat := 0x404 + 0x40 * d
abbrev CAP_DEM_FREQ_HI (d : Nat) : Nat := 0x408 + 0x40 * d
abbrev CAP_DEM_PHASE (d : Nat) : Nat := 0x40C + 0x40 * d
abbrev CAP_DEM_WEIGHT (d : Nat) : Nat := 0x410 + 0x40 * d
abbrev CAP_DEM_BND0 (d : Nat) : Nat := 0x414 + 0x40 * d
abbrev CAP_DEM_BND0_C (d : Nat) : Nat := 0x418 + 0x40 * d
abbrev CAP_DEM_BND1 (d : Nat) : Nat := 0x41C + 0x40 * d
abbrev CAP_DEM_BND1_C (d : Nat) : Nat := 0x420 + 0x40 * d
abbrev CAP_DEM_CONF (d : Nat) : Nat := 0x424 + 0x40 * d
abbrev CAP_DEM_RES_I (d : Nat) : Nat := 0x428 + 0x40 * d
abbrev CAP_DEM_RES_Q (d : Nat) : Nat := 0x42C + 0x40 * d
abbrev CAP_DEM_VERDICT (d : Nat) : Nat := 0x430 + 0x40 * d
abbrev CAP_DEM_END_LO (d : Nat) : Nat := 0x434 + 0x40 * d
abbrev CAP_DEM_END_MID (d : Nat) : Nat := 0x438 + 0x40 * d
abbrev CAP_DEM_END_HI (d : Nat) : Nat := 0x43C + 0x40 * d
abbrev STAMP_REC_CTRL : Nat := 0x40
abbrev STAMP_REC_BASE : Nat := 0x44
abbrev STAMP_REC_SIZE : Nat := 0x48
abbrev STAMP_REC_WR : Nat := 0x4C
abbrev STAMP_REC_RD : Nat := 0x50
abbrev STAMP_REC_SEQ : Nat := 0x54
abbrev STAMP_REC_DROP_COUNT : Nat := 0x58
abbrev STAMP_SIGN_SKIP_COUNT : Nat := 0x5C
abbrev STAMP_LATH_CTRL : Nat := 0x60
abbrev STAMP_STAMP_CMD : Nat := 0x64
abbrev STAMP_ARM_DISCARD_COUNT : Nat := 0x68
abbrev STAMP_IN_CFG (n : Nat) : Nat := 0x100 + 0x20 * n
abbrev STAMP_IN_STAT (n : Nat) : Nat := 0x104 + 0x20 * n
abbrev STAMP_IN_COUNT (n : Nat) : Nat := 0x108 + 0x20 * n
abbrev STAMP_IN_MISS (n : Nat) : Nat := 0x10C + 0x20 * n
abbrev STAMP_IN_EXCL (n : Nat) : Nat := 0x110 + 0x20 * n
abbrev STAMP_IN_LAST_LO (n : Nat) : Nat := 0x114 + 0x20 * n
abbrev STAMP_IN_LAST_MID (n : Nat) : Nat := 0x118 + 0x20 * n
abbrev STAMP_IN_LAST_HI (n : Nat) : Nat := 0x11C + 0x20 * n
abbrev STAMP_TIU_CTRL (u : Nat) : Nat := 0x200 + 0x80 * u
abbrev STAMP_TIU_START_SRC (u : Nat) : Nat := 0x204 + 0x80 * u
abbrev STAMP_TIU_STOP_SRC (u : Nat) : Nat := 0x208 + 0x80 * u
abbrev STAMP_TIU_HOLDOFF (u : Nat) : Nat := 0x20C + 0x80 * u
abbrev STAMP_TIU_TIMEOUT (u : Nat) : Nat := 0x210 + 0x80 * u
abbrev STAMP_TIU_ZERO_LO (u : Nat) : Nat := 0x214 + 0x80 * u
abbrev STAMP_TIU_ZERO_HI (u : Nat) : Nat := 0x218 + 0x80 * u
abbrev STAMP_TIU_CMD (u : Nat) : Nat := 0x21C + 0x80 * u
abbrev STAMP_TIU_STAT (u : Nat) : Nat := 0x220 + 0x80 * u
abbrev STAMP_TIU_LAST_LO (u : Nat) : Nat := 0x224 + 0x80 * u
abbrev STAMP_TIU_LAST_HI (u : Nat) : Nat := 0x228 + 0x80 * u
abbrev STAMP_TIU_MEAN_LO (u : Nat) : Nat := 0x22C + 0x80 * u
abbrev STAMP_TIU_MEAN_HI (u : Nat) : Nat := 0x230 + 0x80 * u
abbrev STAMP_TIU_RMS (u : Nat) : Nat := 0x234 + 0x80 * u
abbrev STAMP_TIU_MIN_LO (u : Nat) : Nat := 0x238 + 0x80 * u
abbrev STAMP_TIU_MIN_HI (u : Nat) : Nat := 0x23C + 0x80 * u
abbrev STAMP_TIU_MAX_LO (u : Nat) : Nat := 0x240 + 0x80 * u
abbrev STAMP_TIU_MAX_HI (u : Nat) : Nat := 0x244 + 0x80 * u
abbrev STAMP_TIU_ORDER_COUNT (u : Nat) : Nat := 0x248 + 0x80 * u
abbrev STAMP_TIU_NEAR_COUNT (u : Nat) : Nat := 0x24C + 0x80 * u
abbrev STAMP_TIU_START_PT_LO (u : Nat) : Nat := 0x250 + 0x80 * u
abbrev STAMP_TIU_START_PT_MID (u : Nat) : Nat := 0x254 + 0x80 * u
abbrev STAMP_TIU_START_PT_HI (u : Nat) : Nat := 0x258 + 0x80 * u
abbrev FREQ_FREQ_CMD : Nat := 0x40
abbrev FREQ_FRE_CTRL (e : Nat) : Nat := 0x100 + 0x80 * e
abbrev FREQ_FRE_SRC (e : Nat) : Nat := 0x104 + 0x80 * e
abbrev FREQ_FRE_GATE_LO (e : Nat) : Nat := 0x108 + 0x80 * e
abbrev FREQ_FRE_GATE_HI (e : Nat) : Nat := 0x10C + 0x80 * e
abbrev FREQ_FRE_NOMINAL_LO (e : Nat) : Nat := 0x110 + 0x80 * e
abbrev FREQ_FRE_NOMINAL_HI (e : Nat) : Nat := 0x114 + 0x80 * e
abbrev FREQ_FRE_START_PT_LO (e : Nat) : Nat := 0x118 + 0x80 * e
abbrev FREQ_FRE_START_PT_MID (e : Nat) : Nat := 0x11C + 0x80 * e
abbrev FREQ_FRE_START_PT_HI (e : Nat) : Nat := 0x120 + 0x80 * e
abbrev FREQ_FRE_CMD (e : Nat) : Nat := 0x124 + 0x80 * e
abbrev FREQ_FRE_STAT (e : Nat) : Nat := 0x128 + 0x80 * e
abbrev FREQ_FRE_FREQ_LO (e : Nat) : Nat := 0x12C + 0x80 * e
abbrev FREQ_FRE_FREQ_HI (e : Nat) : Nat := 0x130 + 0x80 * e
abbrev FREQ_FRE_DEV_LO (e : Nat) : Nat := 0x134 + 0x80 * e
abbrev FREQ_FRE_DEV_HI (e : Nat) : Nat := 0x138 + 0x80 * e
abbrev FREQ_FRE_RESID (e : Nat) : Nat := 0x13C + 0x80 * e
abbrev FREQ_FRE_COUNT (e : Nat) : Nat := 0x140 + 0x80 * e
abbrev FREQ_FRE_SPAN_LO (e : Nat) : Nat := 0x144 + 0x80 * e
abbrev FREQ_FRE_SPAN_HI (e : Nat) : Nat := 0x148 + 0x80 * e
abbrev FREQ_FRE_TB (e : Nat) : Nat := 0x14C + 0x80 * e
abbrev FREQ_FRE_GATE_COUNT (e : Nat) : Nat := 0x150 + 0x80 * e
abbrev FREQ_FRE_END_PT_LO (e : Nat) : Nat := 0x154 + 0x80 * e
abbrev FREQ_FRE_END_PT_MID (e : Nat) : Nat := 0x158 + 0x80 * e
abbrev FREQ_FRE_END_PT_HI (e : Nat) : Nat := 0x15C + 0x80 * e
abbrev CAL_CAL_CTRL : Nat := 0x40
abbrev CAL_CAL_STAT : Nat := 0x44
abbrev CAL_CAL_CMD : Nat := 0x48
abbrev CAL_CAL_SEL : Nat := 0x4C
abbrev CAL_CAL_BOUNDARY : Nat := 0x50
abbrev CAL_CAL_MAX_AGE : Nat := 0x54
abbrev CAL_CAL_WAIT_MAX : Nat := 0x58
abbrev CAL_REJECT_LIMIT : Nat := 0x5C
abbrev CAL_TEMP_STEP : Nat := 0x60
abbrev CAL_TEMP_NOW : Nat := 0x64
abbrev CAL_TEMP_INTERP : Nat := 0x68
abbrev CAL_COUNT : Nat := 0x6C
abbrev CAL_FAIL_COUNT : Nat := 0x70
abbrev CAL_FORCED_COUNT : Nat := 0x74
abbrev CAL_LAST_PT_LO : Nat := 0x78
abbrev CAL_LAST_PT_MID : Nat := 0x7C
abbrev CAL_LAST_PT_HI : Nat := 0x80
abbrev CAL_REJECT_INFO : Nat := 0x84
abbrev CAL_STALE_MAP : Nat := 0x88
abbrev CAL_LOWCONF_MAP : Nat := 0x8C
abbrev CAL_ITEM_STAT : Nat := 0x90
abbrev CAL_ITEM_AGE : Nat := 0x94
abbrev CAL_ITEM_PT_LO : Nat := 0x98
abbrev CAL_ITEM_PT_MID : Nat := 0x9C
abbrev CAL_ITEM_PT_HI : Nat := 0xA0
abbrev CAL_ITEM_TEMP : Nat := 0xA4
abbrev CAL_ITEM_DELTA : Nat := 0xA8
abbrev SHIMSTORE_SHIM_CTRL : Nat := 0x40
abbrev SHIMSTORE_SHIM_STAT : Nat := 0x44
abbrev SHIMSTORE_SHIM_CMD : Nat := 0x48
abbrev SHIMSTORE_SHIM_SEL : Nat := 0x4C
abbrev SHIMSTORE_MERGE_BAND : Nat := 0x50
abbrev SHIMSTORE_RETRY_MS : Nat := 0x54
abbrev SHIMSTORE_POINT_TEMP : Nat := 0x58
abbrev SHIMSTORE_POINT_PT_LO : Nat := 0x5C
abbrev SHIMSTORE_POINT_PT_MID : Nat := 0x60
abbrev SHIMSTORE_POINT_PT_HI : Nat := 0x64
abbrev SHIMSTORE_POINT_GEN : Nat := 0x68
abbrev SHIMSTORE_SEQ_A : Nat := 0x6C
abbrev SHIMSTORE_SEQ_B : Nat := 0x70
abbrev SHIMSTORE_STORE_COUNT : Nat := 0x74
abbrev SHIMSTORE_DEFER_COUNT : Nat := 0x78
abbrev SHIMSTORE_ABORT_COUNT : Nat := 0x7C
abbrev SHIMSTORE_HOLD_ENERGY : Nat := 0x80
abbrev SHIMSTORE_HOLD_CAP : Nat := 0x84
abbrev SHIMSTORE_STORE_NEED : Nat := 0x88
abbrev CONTINUITY_CONT_CTRL : Nat := 0x40
abbrev CONTINUITY_CONT_STAT : Nat := 0x44
abbrev CONTINUITY_BENT_CMD : Nat := 0x48
abbrev CONTINUITY_ECC_CORR_COUNT : Nat := 0x4C
abbrev CONTINUITY_ECC_UNCORR_COUNT : Nat := 0x50
abbrev CONTINUITY_POISON_ADDR : Nat := 0x54
abbrev CONTINUITY_FOREMAN_RESTARTS : Nat := 0x58
abbrev CONTINUITY_FW_STAT : Nat := 0x5C
abbrev CONTINUITY_RESET_GLITCH_COUNT : Nat := 0x60
abbrev CONTINUITY_LAST_RESET : Nat := 0x64
abbrev CONTINUITY_PERST_COUNT : Nat := 0x68
abbrev CONTINUITY_FENCED_PEG_COUNT : Nat := 0x6C
abbrev CONTINUITY_TUNNEL_APPLIED : Nat := 0x70
abbrev CONTINUITY_TUNNEL_DUP_COUNT : Nat := 0x74
abbrev CONTINUITY_ABANDON_COUNT : Nat := 0x78
abbrev CONTINUITY_TALLY_LOST_COUNT : Nat := 0x7C
abbrev CONTINUITY_TALLY_WR (s : Nat) : Nat := 0x100 + 0x8 * s
abbrev CONTINUITY_TALLY_RD (s : Nat) : Nat := 0x104 + 0x8 * s
abbrev ENERGY_E_BENT_LO : Nat := 0x40
abbrev ENERGY_E_BENT_HI : Nat := 0x44
abbrev ENERGY_P_NOW : Nat := 0x48
abbrev ENERGY_P_PEAK : Nat := 0x4C
abbrev ENERGY_RAIL_SEL : Nat := 0x50
abbrev ENERGY_RAIL_E_LO : Nat := 0x54
abbrev ENERGY_RAIL_E_HI : Nat := 0x58
abbrev ENERGY_TELEM_CTRL : Nat := 0x5C
abbrev ENERGY_TELEM_STAT : Nat := 0x60
abbrev ENERGY_ENERGY_CMD : Nat := 0x64
abbrev ENERGY_BENT_STATE : Nat := 0x68
abbrev ENERGY_BENT_STAT : Nat := 0x6C
abbrev ENERGY_WAKE_LATE_COUNT : Nat := 0x70
abbrev ENERGY_EST_EXCEED_COUNT : Nat := 0x74
abbrev ENERGY_COEF_DRV : Nat := 0x80
abbrev ENERGY_COEF_PRB : Nat := 0x84
abbrev ENERGY_COEF_FLX : Nat := 0x88
abbrev ENERGY_COEF_CAP : Nat := 0x8C
abbrev ENERGY_COEF_VEC : Nat := 0x90
abbrev ENERGY_GRP_CTRL (g : Nat) : Nat := 0x100 + 0x4 * g
abbrev ENERGY_GRP_STAT (g : Nat) : Nat := 0x140 + 0x4 * g
abbrev PACE_PACE_CTRL : Nat := 0x40
abbrev PACE_PACE_STAT : Nat := 0x44
abbrev PACE_VCORE_SET : Nat := 0x48
abbrev PACE_VCORE_MEAS : Nat := 0x4C
abbrev PACE_VMAX : Nat := 0x50
abbrev PACE_VMIN : Nat := 0x54
abbrev PACE_PACE_MIN : Nat := 0x58
abbrev PACE_PACE_NOW : Nat := 0x5C
abbrev PACE_SHORT_COUNT : Nat := 0x60
abbrev PACE_SHORT_TIME : Nat := 0x64
abbrev PACE_PACE_CMD : Nat := 0x68
abbrev LEDGER_CAP : Nat := 0x40
abbrev LEDGER_RESERVOIR : Nat := 0x44
abbrev LEDGER_BG_RESERVE : Nat := 0x48
abbrev LEDGER_LEDGER_CTRL : Nat := 0x4C
abbrev LEDGER_CREDIT_LO : Nat := 0x50
abbrev LEDGER_CREDIT_HI : Nat := 0x54
abbrev LEDGER_COMMITTED_LO : Nat := 0x58
abbrev LEDGER_COMMITTED_HI : Nat := 0x5C
abbrev LEDGER_MARGIN_LO : Nat := 0x60
abbrev LEDGER_MARGIN_HI : Nat := 0x64
abbrev LEDGER_E_PKG_LO : Nat := 0x68
abbrev LEDGER_E_PKG_HI : Nat := 0x6C
abbrev LEDGER_P_PKG : Nat := 0x70
abbrev LEDGER_ADMIT_COUNT : Nat := 0x74
abbrev LEDGER_DEFER_COUNT : Nat := 0x78
abbrev LEDGER_WARN_COUNT : Nat := 0x7C
abbrev LEDGER_OVERDRAW_TIME : Nat := 0x80
abbrev LEDGER_PKG_STATE : Nat := 0x84
abbrev LEDGER_PKG_STAT : Nat := 0x88
abbrev FLIUD_EXPORT_LO : Nat := 0x40
abbrev FLIUD_EXPORT_HI : Nat := 0x44
abbrev FLIUD_IMPORT_MISS_COUNT : Nat := 0x48
abbrev FLIUD_FLIUD_CMD : Nat := 0x4C
abbrev FLIUD_PORT_CTRL (k : Nat) : Nat := 0x100 + 0x80 * k
abbrev FLIUD_PORT_STAT (k : Nat) : Nat := 0x104 + 0x80 * k
abbrev FLIUD_PORT_CMD (k : Nat) : Nat := 0x108 + 0x80 * k
abbrev FLIUD_PORT_CRC_COUNT (k : Nat) : Nat := 0x10C + 0x80 * k
abbrev FLIUD_PORT_RETX_COUNT (k : Nat) : Nat := 0x110 + 0x80 * k
abbrev FLIUD_PORT_VDROP_COUNT (k : Nat) : Nat := 0x114 + 0x80 * k
abbrev FLIUD_PORT_RETRAIN_COUNT (k : Nat) : Nat := 0x118 + 0x80 * k
abbrev FLIUD_PORT_DELAY (k : Nat) : Nat := 0x11C + 0x80 * k
abbrev FLIUD_PORT_OFFSET (k : Nat) : Nat := 0x120 + 0x80 * k
abbrev FLIUD_PORT_ASYM (k : Nat) (m : Nat) : Nat := 0x124 + 0x80 * k + 0x4 * m
abbrev FLIUD_PORT_EYE (k : Nat) : Nat := 0x134 + 0x80 * k
abbrev FLIUD_IMP (e : Nat) : Nat := 0x200 + 0x4 * e
abbrev PURLIN_PURLIN_STAT : Nat := 0x40
abbrev PURLIN_PURLIN_CTRL : Nat := 0x44
abbrev PURLIN_PURLIN_CMD : Nat := 0x48
abbrev PURLIN_MISMATCH_COUNT : Nat := 0x4C
abbrev PURLIN_LOSS_COUNT : Nat := 0x50
abbrev PURLIN_SKEW (b : Nat) : Nat := 0x100 + 0x4 * b
abbrev PURLIN_PHASE (b : Nat) : Nat := 0x120 + 0x4 * b
abbrev HIER_HIER_CTRL : Nat := 0x40
abbrev HIER_HIER_STAT : Nat := 0x44
abbrev HIER_CAND : Nat := 0x48
abbrev HIER_HIER_CMD : Nat := 0x4C
abbrev HIER_MIG_TARGET : Nat := 0x50
abbrev HIER_MIG_COUNT : Nat := 0x54
abbrev HIER_LAST_MIG_PT_LO : Nat := 0x58
abbrev HIER_LAST_MIG_PT_MID : Nat := 0x5C
abbrev HIER_LAST_MIG_PT_HI : Nat := 0x60
abbrev HIER_FABRIC_PARITY_COUNT : Nat := 0x64
abbrev HIER_TT_OFFSET : Nat := 0x68
abbrev HIER_TT_DELAY : Nat := 0x6C
abbrev HIER_RACC_PKG : Nat := 0x70
abbrev HIER_RACC_ADDR : Nat := 0x74
abbrev HIER_RACC_DATA : Nat := 0x78
abbrev HIER_RACC_CMD : Nat := 0x7C
abbrev HIER_RACC_STAT : Nat := 0x80
abbrev HIER_CHILDREN : Nat := 0x84
abbrev PG_PAGE_ID : Nat := 0x0
abbrev PG_PAGE_CAP : Nat := 0x4
abbrev PG_PAGE_CTRL : Nat := 0x8
abbrev PG_PAGE_STAT : Nat := 0xC
abbrev PG_EVT_RAW_LO : Nat := 0x10
abbrev PG_EVT_RAW_HI : Nat := 0x14
abbrev PG_EVT_EN_LO : Nat := 0x18
abbrev PG_EVT_EN_HI : Nat := 0x1C
abbrev PG_EVT_PEND_LO : Nat := 0x20
abbrev PG_EVT_PEND_HI : Nat := 0x24
abbrev PG_EVT_FORCE_LO : Nat := 0x28
abbrev PG_EVT_FORCE_HI : Nat := 0x2C
abbrev PG_COMMIT : Nat := 0x30
abbrev PG_COMMIT_STAT : Nat := 0x34
abbrev PG_PAGE_SEQ : Nat := 0x38
abbrev EVENTS_EVR_BASE_LO : Nat := 0x40
abbrev EVENTS_EVR_BASE_HI : Nat := 0x44
abbrev EVENTS_EVR_SIZE : Nat := 0x48
abbrev EVENTS_EVR_CTRL : Nat := 0x4C
abbrev EVENTS_EVR_WB_LO : Nat := 0x50
abbrev EVENTS_EVR_WB_HI : Nat := 0x54
abbrev EVENTS_EVR_WR : Nat := 0x58
abbrev EVENTS_EVR_RD : Nat := 0x5C
abbrev EVENTS_EVR_LOST : Nat := 0x60
abbrev EVENTS_FAULT_CTRL : Nat := 0x64
abbrev EVENTS_FAULT_STAT : Nat := 0x68
abbrev EVENTS_SIDE_CTRL : Nat := 0x6C
abbrev EVENTS_SIDE_STAT : Nat := 0x70
abbrev EVENTS_EVENTS_CMD : Nat := 0x74
abbrev EVENTS_PVEC (p : Nat) : Nat := 0x100 + 0x4 * p
abbrev EVENTS_PKGVEC (q : Nat) : Nat := 0x1C0 + 0x4 * q
abbrev EVENTS_DMA_CTRL (e : Nat) : Nat := 0x400 + 0x40 * e
abbrev EVENTS_DMA_STAT (e : Nat) : Nat := 0x404 + 0x40 * e
abbrev EVENTS_DMA_RING_BASE_LO (e : Nat) : Nat := 0x408 + 0x40 * e
abbrev EVENTS_DMA_RING_BASE_HI (e : Nat) : Nat := 0x40C + 0x40 * e
abbrev EVENTS_DMA_RING_SIZE (e : Nat) : Nat := 0x410 + 0x40 * e
abbrev EVENTS_DMA_HEAD (e : Nat) : Nat := 0x414 + 0x40 * e
abbrev EVENTS_DMA_TAIL (e : Nat) : Nat := 0x418 + 0x40 * e
abbrev EVENTS_DMA_BYTES_LO (e : Nat) : Nat := 0x41C + 0x40 * e
abbrev EVENTS_DMA_BYTES_HI (e : Nat) : Nat := 0x420 + 0x40 * e
abbrev EVENTS_DMA_DROP_COUNT (e : Nat) : Nat := 0x424 + 0x40 * e
abbrev EVENTS_DMA_ERR_COUNT (e : Nat) : Nat := 0x428 + 0x40 * e
abbrev EVENTS_DMA_CMD (e : Nat) : Nat := 0x42C + 0x40 * e
abbrev FOREMAN_FM_STAT : Nat := 0x40
abbrev FOREMAN_FM_UPTIME : Nat := 0x44
abbrev FOREMAN_MBX_CMD : Nat := 0x48
abbrev FOREMAN_MBX_ARG0 : Nat := 0x4C
abbrev FOREMAN_MBX_ARG1 : Nat := 0x50
abbrev FOREMAN_MBX_LEN : Nat := 0x54
abbrev FOREMAN_MBX_STAT : Nat := 0x58
abbrev FOREMAN_MBX_RESULT : Nat := 0x5C
abbrev FOREMAN_MBX_DATA (j : Nat) : Nat := 0x800 + 0x4 * j
abbrev IDENT_ID_STAT : Nat := 0x40
abbrev IDENT_CERT_SEL : Nat := 0x44
abbrev IDENT_CERT_LEN : Nat := 0x48
abbrev IDENT_KEY_ID_LO : Nat := 0x4C
abbrev IDENT_KEY_ID_HI : Nat := 0x50
abbrev IDENT_SIGN_SEQ : Nat := 0x54
abbrev IDENT_LOCK_SEL : Nat := 0x58
abbrev IDENT_LOCK_MAP_LO : Nat := 0x5C
abbrev IDENT_LOCK_MAP_HI : Nat := 0x60
abbrev IDENT_OWNER_CMD : Nat := 0x64
abbrev IDENT_BOOT_STAT : Nat := 0x68
abbrev IDENT_ATTEST_COUNT : Nat := 0x6C
abbrev IDENT_OWNER_HASH (w : Nat) : Nat := 0x80 + 0x4 * w
abbrev IDENT_CERT_DATA (j : Nat) : Nat := 0x800 + 0x4 * j
abbrev BENT_BENT_INFO : Nat := 0x40
abbrev BENT_BENT_ROLE : Nat := 0x44
abbrev BENT_BIST_RESULT : Nat := 0x48
abbrev BENT_DIE_TEMP : Nat := 0x4C
abbrev BENT_TEMP_HI : Nat := 0x50
abbrev BENT_TEMP_LO : Nat := 0x54
abbrev BENT_TEMP_CRIT : Nat := 0x58
abbrev BENT_RAIL_STAT : Nat := 0x5C
abbrev BENT_LOCKED_PAGES : Nat := 0x60
abbrev BENT_SCRATCH : Nat := 0x64
abbrev PKG_PKG_INFO : Nat := 0x40
abbrev PKG_PKG_STAT : Nat := 0x44
abbrev PKG_SERIAL_LO : Nat := 0x48
abbrev PKG_SERIAL_HI : Nat := 0x4C
abbrev PKG_CFG_SEQ : Nat := 0x50
abbrev PKG_TEMP_MAX : Nat := 0x54
abbrev PKG_VAUX_MEAS : Nat := 0x58
abbrev PKG_VHOLD_MEAS : Nat := 0x5C
abbrev PKG_PWR_STAT : Nat := 0x60
abbrev PKG_PWR_FAIL_COUNT : Nat := 0x64
abbrev PKG_PKG_SCRATCH : Nat := 0x68

end Off

/-- Register rows of the time table. -/
def timeRows : List RegRow := [
  ⟨0x40, 0x0, 1, .ro, 0x0, 0xFFFFFFFF, 0x0, 0x0, 2, false, []⟩, -- NOW_LO
  ⟨0x44, 0x0, 1, .ro, 0x0, 0xFFFFFFFF, 0x0, 0x0, 0, false, []⟩, -- NOW_MID
  ⟨0x48, 0x0, 1, .ro, 0x0, 0xFFFF, 0x0, 0x0, 0, false, []⟩, -- NOW_HI
  ⟨0x4C, 0x0, 1, .ro, 0x640, 0x7FF, 0x0, 0x0, 0, false, []⟩, -- LATTICE_N
  ⟨0x50, 0x0, 1, .ro, 0x0, 0xFFFFFFFF, 0x0, 0x0, 2, false, []⟩, -- LAT_ORIGIN_LO
  ⟨0x54, 0x0, 1, .ro, 0x0, 0xFFFFFFFF, 0x0, 0x0, 0, false, []⟩, -- LAT_ORIGIN_MID
  ⟨0x58, 0x0, 1, .ro, 0x0, 0xFFFF, 0x0, 0x0, 0, false, []⟩, -- LAT_ORIGIN_HI
  ⟨0x5C, 0x0, 1, .ro, 0x0, 0xFFFFFFFF, 0x0, 0x0, 0, false, []⟩, -- PT_GEN
  ⟨0x60, 0x0, 1, .rs, 0x0, 0xFFFFFFFF, 0xFFFFFFFF, 0x0, 0, false, []⟩, -- EPOCH_TAI_LO
  ⟨0x64, 0x0, 1, .rs, 0x0, 0xFFFFFFFF, 0xFFFFFFFF, 0x0, 0, false, []⟩, -- EPOCH_TAI_HI
  ⟨0x68, 0x0, 1, .rs, 0x0, 0xFFFFFFFF, 0xFFFFFFFF, 0x0, 0, false, []⟩, -- EPOCH_FRAC_LO
  ⟨0x6C, 0x0, 1, .rs, 0x0, 0xFFF, 0xFFF, 0x0, 0, false, []⟩, -- EPOCH_FRAC_HI
  ⟨0x70, 0x0, 1, .rw, 0x6400, 0xFFFF03, 0xFFFF03, 0x0, 0, false, []⟩, -- PPS_CTRL
  ⟨0x74, 0x0, 1, .ro, 0x0, 0xFFFFFFFF, 0x0, 0x0, 2, false, []⟩, -- PPS_PT_LO
  ⟨0x78, 0x0, 1, .ro, 0x0, 0xFFFFFFFF, 0x0, 0x0, 0, false, []⟩, -- PPS_PT_MID
  ⟨0x7C, 0x0, 1, .ro, 0x0, 0xFFFF, 0x0, 0x0, 0, false, []⟩, -- PPS_PT_HI
  ⟨0x80, 0x0, 1, .ro, 0x0, 0xFFFFFFFF, 0x0, 0x0, 0, false, []⟩, -- PPS_COUNT
  ⟨0x84, 0x0, 1, .ro, 0x0, 0xFFFFFFFF, 0x0, 0x0, 0, false, []⟩, -- PPS_MISS_COUNT
  ⟨0x88, 0x0, 1, .rw, 0x0, 0xFFFFFFFF, 0xFFFFFFFF, 0x0, 2, true, []⟩, -- ALARM_PT_LO
  ⟨0x8C, 0x0, 1, .rw, 0x0, 0xFFFFFFFF, 0xFFFFFFFF, 0x0, 0, true, []⟩, -- ALARM_PT_MID
  ⟨0x90, 0x0, 1, .rw, 0x0, 0xFFFF, 0xFFFF, 0x0, 0, true, []⟩, -- ALARM_PT_HI
  ⟨0x94, 0x0, 1, .rw, 0x0, 0x3, 0x1, 0x0, 0, true, []⟩, -- ALARM_CTRL
  ⟨0x98, 0x0, 1, .rw, 0x0, 0x3, 0x3, 0x0, 0, false, [.mk 0 2 (.rng [(0, 2)])]⟩, -- MARK_CTRL
  ⟨0x9C, 0x0, 1, .ro, 0x0, 0xFFFFFFFF, 0x0, 0x0, 0, false, []⟩, -- LATE_DROP_COUNT
  ⟨0xA0, 0x0, 1, .ro, 0x0, 0xFFFFFFFF, 0x0, 0x0, 0, false, []⟩, -- LATE_SLIP_COUNT
  ⟨0xA4, 0x0, 1, .ro, 0x0, 0xFFFFFFFF, 0x0, 0x0, 0, false, []⟩, -- LATE_VOID_COUNT
  ⟨0xA8, 0x0, 1, .ro, 0x0, 0xFFFFFFFF, 0x0, 0x0, 0, false, []⟩, -- COLLIDE_COUNT
  ⟨0xAC, 0x0, 1, .w1s, 0x0, 0x1, 0x1, 0x0, 0, true, []⟩, -- COUNT_CLR
  ⟨0xB0, 0x0, 1, .ro, 0x0, 0xFFFFFFFF, 0x0, 0x0, 0, false, []⟩ -- EPOCH_COUNT
  ]

/-- Register rows of the timebase table. -/
def timebaseRows : List RegRow := [
  ⟨0x40, 0x0, 1, .rs, 0x124, 0x13F, 0x13F, 0x0, 0, false, []⟩, -- SRC_PRIO
  ⟨0x44, 0x0, 1, .ro, 0x0, 0x7F3F, 0x0, 0x0, 0, false, []⟩, -- SRC_STAT
  ⟨0x48, 0x0, 1, .rs, 0x5F5E100, 0xFFFFFFFF, 0xFFFFFFFF, 0x0, 0, false, []⟩, -- REFIN_FREQ
  ⟨0x4C, 0x0, 1, .rs, 0x989680, 0xFFFFFFFF, 0xFFFFFFFF, 0x0, 0, false, []⟩, -- OCXO_FREQ
  ⟨0x50, 0x0, 1, .rs, 0x2FAF080, 0xFFFFFFFF, 0xFFFFFFFF, 0x0, 0, false, []⟩, -- XTAL_FREQ
  ⟨0x54, 0x0, 1, .rs, 0x6401F4, 0xFFFFFFFF, 0xFFFFFFFF, 0x0, 0, false, []⟩, -- QUAL
  ⟨0x58, 0x0, 1, .rs, 0x0, 0x1, 0x1, 0x0, 0, false, []⟩, -- WARM_CTRL
  ⟨0x5C, 0x0, 1, .rs, 0x493E0, 0xFFFFFFFF, 0xFFFFFFFF, 0x0, 0, false, []⟩, -- WARM_SETTLE
  ⟨0x60, 0x0, 1, .rs, 0x3E8, 0xFFFF, 0xFFFF, 0x0, 0, false, [.mk 0 16 (.rng [(1, 10000)])]⟩, -- SLEW_MAX
  ⟨0x64, 0x0, 1, .rs, 0x0, 0xFFFFFFFF, 0xFFFFFFFF, 0x0, 0, false, []⟩, -- AGE_RATE
  ⟨0x68, 0x0, 1, .rs, 0x0, 0xFFFFFFFF, 0xFFFFFFFF, 0x0, 0, false, []⟩, -- AGE_BASE
  ⟨0x6C, 0x0, 1, .rs, 0x0, 0xFFFFFFFF, 0xFFFFFFFF, 0x0, 2, true, []⟩, -- AGE_EPOCH_LO
  ⟨0x70, 0x0, 1, .rs, 0x0, 0xFFFFFFFF, 0xFFFFFFFF, 0x0, 0, true, []⟩, -- AGE_EPOCH_MID
  ⟨0x74, 0x0, 1, .rs, 0x0, 0xFFFF, 0xFFFF, 0x0, 0, true, []⟩, -- AGE_EPOCH_HI
  ⟨0x78, 0x0, 1, .ro, 0x0, 0xFFFFFFFF, 0x0, 0x0, 0, false, []⟩, -- AGE_CORR
  ⟨0x7C, 0x0, 1, .rs, 0x640010, 0xFFFF003F, 0xFFFF003F, 0x0, 0, false, [.mk 1 5 (.rng [(4, 16)]), .mk 16 16 (.rng [(1, 2000)])]⟩, -- PPS_DISC
  ⟨0x80, 0x0, 1, .ro, 0x0, 0xFFFFFFFF, 0x0, 0x0, 0, false, []⟩, -- DISC_CORR
  ⟨0x84, 0x0, 1, .wo, 0x0, 0x7, 0x7, 0x0, 0, true, []⟩, -- SWITCH_CMD
  ⟨0x88, 0x0, 1, .ro, 0x0, 0xFFFFFFFF, 0x0, 0x0, 0, false, []⟩, -- STEER_FREQ
  ⟨0x8C, 0x0, 1, .ro, 0x0, 0xFFFFFFFF, 0x0, 0x0, 0, false, []⟩, -- SWITCH_COUNT
  ⟨0x90, 0x0, 1, .ro, 0x0, 0xFFFFFFFF, 0x0, 0x0, 2, false, []⟩, -- LAST_SWITCH_PT_LO
  ⟨0x94, 0x0, 1, .ro, 0x0, 0xFFFFFFFF, 0x0, 0x0, 0, false, []⟩, -- LAST_SWITCH_PT_MID
  ⟨0x98, 0x0, 1, .ro, 0x0, 0xFFFF, 0x0, 0x0, 0, false, []⟩ -- LAST_SWITCH_PT_HI
  ]

/-- Register rows of the sill table. -/
def sillRows : List RegRow := [
  ⟨0x40, 0x0, 1, .rs, 0x124, 0x1FF, 0x1FF, 0x3, 0, false, [.mk 0 2 (.rng [(0, 2)])]⟩, -- SILL_CTRL
  ⟨0x44, 0x0, 1, .ro, 0x0, 0x773FF, 0x0, 0x0, 0, false, []⟩, -- SILL_STAT
  ⟨0x48, 0x0, 1, .rs, 0x186A0, 0x1FFFFF, 0x1FFFFF, 0x0, 0, false, [.mk 0 21 (.rng [(10, 2000000)])]⟩, -- LOOP_BW
  ⟨0x4C, 0x0, 1, .rs, 0xB5, 0x3FF, 0x3FF, 0x0, 0, false, [.mk 0 10 (.rng [(128, 512)])]⟩, -- LOOP_ZETA
  ⟨0x50, 0x0, 1, .rs, 0x410, 0xFF1F, 0xFF1F, 0x0, 0, false, [.mk 0 5 (.rng [(8, 24)]), .mk 8 8 (.rng [(1, 255)])]⟩, -- LOCK_WIN
  ⟨0x54, 0x0, 1, .rs, 0x2710, 0xFFFFFF, 0xFFFFFF, 0x0, 0, false, []⟩, -- LOCK_TOL
  ⟨0x58, 0x0, 1, .rs, 0xC350, 0xFFFFFF, 0xFFFFFF, 0x0, 0, false, []⟩, -- UNLOCK_TOL
  ⟨0x5C, 0x0, 1, .ro, 0x0, 0xFFFFFFFF, 0x0, 0x0, 0, false, []⟩, -- LOCK_ERR
  ⟨0x60, 0x0, 1, .rs, 0x64, 0x3FFF, 0x3FFF, 0x0, 0, false, [.mk 0 14 (.rng [(1, 10000)])]⟩, -- HOLD_AVG
  ⟨0x64, 0x0, 1, .rs, 0x3C, 0xFFFFFFFF, 0xFFFFFFFF, 0x0, 0, false, []⟩, -- HOLD_LIMIT
  ⟨0x68, 0x0, 1, .ro, 0x0, 0xFFFFFFF, 0x0, 0x0, 0, false, []⟩, -- DCO_WORD
  ⟨0x6C, 0x0, 1, .rs, 0xAFD56D8, 0xFFFFFFF, 0xFFFFFFF, 0xFFFFFFF, 0, false, []⟩, -- DCO_FLOOR
  ⟨0x70, 0x0, 1, .rs, 0xB5CB4E8, 0xFFFFFFF, 0xFFFFFFF, 0xFFFFFFF, 0, false, []⟩, -- DCO_CEIL
  ⟨0x74, 0x0, 1, .wo, 0x0, 0x800007FF, 0x800007FF, 0x0, 0, true, []⟩, -- RELOCK
  ⟨0x78, 0x0, 1, .wo, 0x0, 0xFFFFFF, 0xFFFFFF, 0x0, 0, true, []⟩, -- PHASE_STEP
  ⟨0x7C, 0x0, 1, .rs, 0x64, 0x7F, 0x7F, 0x0, 0, false, [.mk 0 7 (.rng [(1, 100)])]⟩, -- PHASE_RATE
  ⟨0x80, 0x0, 1, .ro, 0x0, 0xFFFFFFFF, 0x0, 0x0, 0, false, []⟩, -- PHASE_LEFT
  ⟨0x84, 0x0, 1, .w1s, 0x0, 0x7, 0x7, 0x0, 0, true, []⟩, -- SILL_CMD
  ⟨0x88, 0x0, 1, .ro, 0x0, 0xFFFF, 0x0, 0x0, 0, false, []⟩, -- TWIN_SKEW
  ⟨0x8C, 0x0, 1, .rs, 0x10, 0xFF, 0xFF, 0x0, 0, false, [.mk 0 8 (.rng [(4, 255)])]⟩, -- TWIN_TOL
  ⟨0x90, 0x0, 1, .ro, 0x0, 0xFFFFFFFF, 0x0, 0x0, 2, false, []⟩, -- COAST_PT_LO
  ⟨0x94, 0x0, 1, .ro, 0x0, 0xFFFFFFFF, 0x0, 0x0, 0, false, []⟩, -- COAST_PT_MID
  ⟨0x98, 0x0, 1, .ro, 0x0, 0xFFFF, 0x0, 0x0, 0, false, []⟩, -- COAST_PT_HI
  ⟨0x9C, 0x0, 1, .ro, 0x0, 0xFFFFFFFF, 0x0, 0x0, 0, false, []⟩, -- COAST_TIME
  ⟨0xA0, 0x0, 1, .ro, 0x0, 0xFFFFFFFF, 0x0, 0x0, 0, false, []⟩, -- PULL_LEFT
  ⟨0xA4, 0x0, 1, .ro, 0x0, 0xFFFFFFFF, 0x0, 0x0, 0, false, []⟩, -- TAKEOVER_COUNT
  ⟨0xA8, 0x0, 1, .ro, 0x0, 0xFFFFFFFF, 0x0, 0x0, 0, false, []⟩, -- COAST_COUNT
  ⟨0xAC, 0x0, 1, .ro, 0x0, 0xFFFFFFFF, 0x0, 0x0, 2, false, []⟩, -- FAULT_PT_LO
  ⟨0xB0, 0x0, 1, .ro, 0x0, 0xFFFFFFFF, 0x0, 0x0, 0, false, []⟩, -- FAULT_PT_MID
  ⟨0xB4, 0x0, 1, .ro, 0x0, 0xFFFF, 0x0, 0x0, 0, false, []⟩, -- FAULT_PT_HI
  ⟨0x100, 0x0, 1, .rs, 0x2, 0x303FF, 0x3FF, 0x3FF, 0, false, [.mk 0 10 (.rng [(1, 2)])]⟩, -- SO0_CFG
  ⟨0x108, 0x0, 1, .rs, 0x2, 0x303FF, 0x3FF, 0x3FF, 0, false, [.mk 0 10 (.rng [(1, 2)])]⟩, -- SO1_CFG
  ⟨0x110, 0x0, 1, .rs, 0x2, 0x303FF, 0x3FF, 0x3FF, 0, false, [.mk 0 10 (.rng [(1, 2)])]⟩, -- SO2_CFG
  ⟨0x118, 0x0, 1, .rs, 0x2, 0x303FF, 0x3FF, 0x3FF, 0, false, [.mk 0 10 (.rng [(1, 2)])]⟩, -- SO3_CFG
  ⟨0x120, 0x0, 1, .rs, 0x2, 0x303FF, 0x3FF, 0x3FF, 0, false, [.mk 0 10 (.rng [(1, 2)])]⟩, -- SO4_CFG
  ⟨0x128, 0x0, 1, .rs, 0xA, 0x303FF, 0x3FF, 0x3FF, 0, false, [.mk 0 10 (.rng [(2, 2), (10, 10)])]⟩, -- SO5_CFG
  ⟨0x130, 0x0, 1, .rs, 0xA, 0x303FF, 0x3FF, 0x3FF, 0, false, [.mk 0 10 (.rng [(2, 2), (10, 10)])]⟩, -- SO6_CFG
  ⟨0x138, 0x0, 1, .rs, 0x2, 0x303FF, 0x3FF, 0x3FF, 0, false, [.mk 0 10 (.rng [(1, 2), (4, 4)])]⟩, -- SO7_CFG
  ⟨0x140, 0x0, 1, .rs, 0x2, 0x303FF, 0x3FF, 0x3FF, 0, false, [.mk 0 10 (.rng [(1, 2), (4, 4)])]⟩, -- SO8_CFG
  ⟨0x148, 0x0, 1, .rs, 0x2, 0x303FF, 0x3FF, 0x3FF, 0, false, [.mk 0 10 (.rng [(1, 2), (4, 4)])]⟩, -- SO9_CFG
  ⟨0x150, 0x0, 1, .rs, 0x2, 0x303FF, 0x3FF, 0x3FF, 0, false, [.mk 0 10 (.rng [(1, 2), (4, 4)])]⟩, -- SO10_CFG
  ⟨0x158, 0x0, 1, .rs, 0x1, 0x303FF, 0x3FF, 0x3FF, 0, false, [.mk 0 10 (.rng [(1, 2)])]⟩, -- SO11_CFG
  ⟨0x160, 0x0, 1, .rs, 0x1, 0x303FF, 0x3FF, 0x3FF, 0, false, [.mk 0 10 (.rng [(1, 2)])]⟩, -- SO12_CFG
  ⟨0x168, 0x0, 1, .rs, 0xC8, 0x303FF, 0x303FF, 0x303FF, 0, false, [.mk 0 10 (.rng [(0, 0), (4, 1023)])]⟩, -- SO13_CFG
  ⟨0x170, 0x0, 1, .rs, 0xC8, 0x303FF, 0x303FF, 0x303FF, 0, false, [.mk 0 10 (.rng [(0, 0), (4, 1023)])]⟩, -- SO14_CFG
  ⟨0x178, 0x0, 1, .rs, 0x2, 0x303FF, 0x3FF, 0x3FF, 0, false, [.mk 0 10 (.rng [(2, 2)])]⟩, -- SO15_CFG
  ⟨0x104, 0x0, 1, .ro, 0x0, 0x1FF07FF, 0x0, 0x0, 0, false, []⟩, -- SO0_DLY
  ⟨0x10C, 0x0, 1, .ro, 0x0, 0x1FF07FF, 0x0, 0x0, 0, false, []⟩, -- SO1_DLY
  ⟨0x114, 0x0, 1, .ro, 0x0, 0x1FF07FF, 0x0, 0x0, 0, false, []⟩, -- SO2_DLY
  ⟨0x11C, 0x0, 1, .ro, 0x0, 0x1FF07FF, 0x0, 0x0, 0, false, []⟩, -- SO3_DLY
  ⟨0x124, 0x0, 1, .ro, 0x0, 0x1FF07FF, 0x0, 0x0, 0, false, []⟩, -- SO4_DLY
  ⟨0x12C, 0x0, 1, .ro, 0x0, 0x1FF07FF, 0x0, 0x0, 0, false, []⟩, -- SO5_DLY
  ⟨0x134, 0x0, 1, .ro, 0x0, 0x1FF07FF, 0x0, 0x0, 0, false, []⟩, -- SO6_DLY
  ⟨0x13C, 0x0, 1, .ro, 0x0, 0x1FF07FF, 0x0, 0x0, 0, false, []⟩, -- SO7_DLY
  ⟨0x144, 0x0, 1, .ro, 0x0, 0x1FF07FF, 0x0, 0x0, 0, false, []⟩, -- SO8_DLY
  ⟨0x14C, 0x0, 1, .ro, 0x0, 0x1FF07FF, 0x0, 0x0, 0, false, []⟩, -- SO9_DLY
  ⟨0x154, 0x0, 1, .ro, 0x0, 0x1FF07FF, 0x0, 0x0, 0, false, []⟩, -- SO10_DLY
  ⟨0x15C, 0x0, 1, .ro, 0x0, 0x1FF07FF, 0x0, 0x0, 0, false, []⟩, -- SO11_DLY
  ⟨0x164, 0x0, 1, .ro, 0x0, 0x1FF07FF, 0x0, 0x0, 0, false, []⟩, -- SO12_DLY
  ⟨0x16C, 0x0, 1, .rs, 0x0, 0x1FF07FF, 0x1FF07FF, 0x1FF07FF, 0, false, []⟩, -- SO13_DLY
  ⟨0x174, 0x0, 1, .rs, 0x0, 0x1FF07FF, 0x1FF07FF, 0x1FF07FF, 0, false, []⟩, -- SO14_DLY
  ⟨0x17C, 0x0, 1, .ro, 0x0, 0x1FF07FF, 0x0, 0x0, 0, false, []⟩ -- SO15_DLY
  ]

/-- Register rows of the edge table. -/
def edgeRows : List RegRow := [
  ⟨0x40, 0x0, 1, .rs, 0x3, 0x3, 0x3, 0x0, 0, false, []⟩, -- GRP_CTRL
  ⟨0x44, 0x0, 1, .ro, 0x0, 0xFFFFFF1F, 0x0, 0x0, 0, false, []⟩, -- GRP_STAT
  ⟨0x48, 0x0, 1, .w1s, 0x0, 0x1, 0x1, 0x0, 0, true, []⟩, -- GRP_CMD
  ⟨0x80, 0x10, 8, .rs, 0xC80, 0xFFFFFFFF, 0xFFFFFFFF, 0xFFFFFFFF, 0, false, []⟩, -- PATp_PERIOD_LO
  ⟨0x84, 0x10, 8, .rs, 0x0, 0xFF, 0xFF, 0xFF, 0, false, []⟩, -- PATp_PERIOD_HI
  ⟨0x88, 0x10, 8, .rs, 0x640, 0xFFFFFFFF, 0xFFFFFFFF, 0xFFFFFFFF, 0, false, []⟩, -- PATp_WIDTH
  ⟨0x8C, 0x10, 8, .rs, 0x1, 0xFFFFFFFF, 0xFFFFFFFF, 0xFFFFFFFF, 0, false, []⟩, -- PATp_COUNT
  ⟨0x100, 0x40, 8, .rs, 0x840, 0xFF7, 0xFF7, 0x407, 0, false, [.mk 0 3 (.rng [(0, 4)]), .mk 4 2 (.rng [(0, 2)]), .mk 6 2 (.rng [(0, 2)])]⟩, -- CHc_CTRL
  ⟨0x104, 0x40, 8, .ro, 0x0, 0x77F3FFF, 0x0, 0x0, 0, false, []⟩, -- CHc_STAT
  ⟨0x108, 0x40, 8, .rs, 0x5A28, 0x7F7F, 0x7F7F, 0x7F7F, 0, false, [.mk 0 7 (.rng [(20, 100)]), .mk 8 7 (.rng [(60, 120)])]⟩, -- CHc_DRV_CFG
  ⟨0x10C, 0x40, 8, .rs, 0x450000, 0xFFFFF1, 0xFFFFF1, 0xFFFFF1, 0, false, [.mk 4 12 (.sgn (-500) (500))]⟩, -- CHc_RCV_CFG
  ⟨0x110, 0x40, 8, .ro, 0x0, 0xFFF0FFF, 0x0, 0x0, 0, false, []⟩, -- CHc_RCV_THR
  ⟨0x114, 0x40, 8, .rs, 0x0, 0x1FFF, 0x1FFF, 0x0, 0, false, [.mk 8 2 (.rng [(0, 1)])]⟩, -- CHc_TRIG_SRC
  ⟨0x118, 0x40, 8, .rs, 0x75300, 0xFFFFFFFF, 0xFFFFFFFF, 0xFFFFFFFF, 0, false, []⟩, -- CHc_TRIG_DELAY_LO
  ⟨0x11C, 0x40, 8, .rs, 0x0, 0x3FFFFF, 0x3FFFFF, 0x3FFFFF, 0, false, []⟩, -- CHc_TRIG_DELAY_HI
  ⟨0x120, 0x40, 8, .rs, 0x3E80, 0xFFFFFFFF, 0xFFFFFFFF, 0x0, 0, false, []⟩, -- CHc_TRIG_WIDTH_LO
  ⟨0x124, 0x40, 8, .rs, 0x0, 0xFF, 0xFF, 0x0, 0, false, []⟩, -- CHc_TRIG_WIDTH_HI
  ⟨0x128, 0x40, 8, .rs, 0x0, 0x3FFF01FF, 0x3FFF01FF, 0x3FFF01FF, 0, false, []⟩, -- CHc_VEC_CTRL
  ⟨0x12C, 0x40, 8, .w1s, 0x0, 0x1F, 0x1F, 0x0, 0, true, []⟩, -- CHc_CMD
  ⟨0x130, 0x40, 8, .ro, 0x0, 0xFFFFFFFF, 0x0, 0x0, 0, false, []⟩, -- CHc_LATE_COUNT
  ⟨0x134, 0x40, 8, .ro, 0x0, 0xFFFFFFFF, 0x0, 0x0, 0, false, []⟩, -- CHc_DISCARD_COUNT
  ⟨0x138, 0x40, 8, .ro, 0x0, 0xFFFFFFFF, 0x0, 0x0, 0, false, []⟩, -- CHc_TRIG_COUNT
  ⟨0x13C, 0x40, 8, .ro, 0x0, 0xFFFFFFFF, 0x0, 0x0, 0, false, []⟩ -- CHc_TRIG_MISSED
  ]

/-- Register rows of the seq table. -/
def seqRows : List RegRow := [
  ⟨0x40, 0x0, 1, .rs, 0x4, 0xF, 0xF, 0x0, 0, false, []⟩, -- SEQ_CTRL
  ⟨0x44, 0x0, 1, .ro, 0x2, 0xFFFFF, 0x0, 0x0, 0, false, []⟩, -- SEQ_STAT
  ⟨0x48, 0x0, 1, .w1s, 0x0, 0x1F, 0x1F, 0x0, 0, true, []⟩, -- SEQ_CMD
  ⟨0x4C, 0x0, 1, .rs, 0x0, 0x1FFFF, 0x1FFFF, 0x0, 0, false, []⟩, -- ENTRY
  ⟨0x50, 0x0, 1, .rs, 0x3E8, 0x1FFF, 0x1FFF, 0x0, 0, false, [.mk 0 13 (.rng [(1, 4096)])]⟩, -- LEAD_MAX
  ⟨0x54, 0x0, 1, .rs, 0x258, 0x3FFF, 0x3FFF, 0x0, 0, false, [.mk 0 14 (.rng [(160, 8000)])]⟩, -- DECIDE_LEAD
  ⟨0x58, 0x0, 1, .rs, 0x271, 0xFFFF, 0xFFFF, 0x0, 0, false, [.mk 0 16 (.rng [(1, 65535)])]⟩, -- VERDICT_TIMEOUT
  ⟨0x5C, 0x0, 1, .rs, 0x200, 0x7FF, 0x7FF, 0x7FF, 0, false, [.mk 0 2 (.rng [(0, 2)]), .mk 9 2 (.rng [(0, 2)])]⟩, -- SHOT_START
  ⟨0x60, 0x0, 1, .rs, 0x1, 0xFFFFFFFF, 0xFFFFFFFF, 0xFFFFFFFF, 0, false, [.mk 0 32 (.rng [(1, 4294967295)])]⟩, -- SHOT_PERIOD
  ⟨0x64, 0x0, 1, .rs, 0x3E800, 0xFFFFFFFF, 0xFFFFFFFF, 0xFFFFFFFF, 0, false, []⟩, -- TRIG_DELAY
  ⟨0x68, 0x0, 1, .rs, 0x0, 0xFFFFFFFF, 0xFFFFFFFF, 0xFFFFFFFF, 2, true, []⟩, -- FIRST_PT_LO
  ⟨0x6C, 0x0, 1, .rs, 0x0, 0xFFFFFFFF, 0xFFFFFFFF, 0xFFFFFFFF, 0, true, []⟩, -- FIRST_PT_MID
  ⟨0x70, 0x0, 1, .rs, 0x0, 0xFFFF, 0xFFFF, 0xFFFF, 0, true, []⟩, -- FIRST_PT_HI
  ⟨0x74, 0x0, 1, .rs, 0x0, 0xFFFFFFFF, 0xFFFFFFFF, 0x0, 0, false, []⟩, -- SHOT_LIMIT_LO
  ⟨0x78, 0x0, 1, .rs, 0x0, 0xFFFF, 0xFFFF, 0x0, 0, false, []⟩, -- SHOT_LIMIT_HI
  ⟨0x7C, 0x0, 1, .ro, 0x0, 0xFFFFFFFF, 0x0, 0x0, 1, false, []⟩, -- SHOT_NUM_LO
  ⟨0x80, 0x0, 1, .ro, 0x0, 0xFFFF, 0x0, 0x0, 0, false, []⟩, -- SHOT_NUM_HI
  ⟨0x84, 0x0, 1, .ro, 0x0, 0xFFFFFFFF, 0x0, 0x0, 0, false, []⟩, -- FRAME_NUM
  ⟨0x88, 0x0, 1, .ro, 0x0, 0xFFFFFFFF, 0x0, 0x0, 2, false, []⟩, -- CURSOR_LO
  ⟨0x8C, 0x0, 1, .ro, 0x0, 0xFFFFFFFF, 0x0, 0x0, 0, false, []⟩, -- CURSOR_MID
  ⟨0x90, 0x0, 1, .ro, 0x0, 0xFFFF, 0x0, 0x0, 0, false, []⟩, -- CURSOR_HI
  ⟨0x94, 0x0, 1, .rs, 0x1, 0xFFFFFFFF, 0xFFFFFFFF, 0x0, 0, false, []⟩, -- SEED_INIT_LO
  ⟨0x98, 0x0, 1, .rs, 0x0, 0xFFFFFFFF, 0xFFFFFFFF, 0x0, 0, false, []⟩, -- SEED_INIT_HI
  ⟨0x9C, 0x0, 1, .rs, 0x4001F000, 0xFF01FFFF, 0xFF01FFFF, 0x0, 0, false, [.mk 24 8 (.rng [(1, 255)])]⟩, -- SNAP_CFG
  ⟨0xA0, 0x0, 1, .rs, 0x0, 0x1FFFF, 0x1FFFF, 0x0, 0, false, []⟩, -- PROG_BASE
  ⟨0xA4, 0x0, 1, .rs, 0x1EFFF, 0x1FFFF, 0x1FFFF, 0x0, 0, false, []⟩, -- PROG_END
  ⟨0xA8, 0x0, 1, .rs, 0x0, 0x7F, 0x7F, 0x0, 0, false, []⟩, -- MOVE_TARGET
  ⟨0xAC, 0x0, 1, .ro, 0x0, 0xFFFFFFFF, 0x0, 0x0, 0, false, []⟩, -- EST_ENERGY
  ⟨0xB0, 0x0, 1, .rs, 0x0, 0xFFFFFFFF, 0xFFFFFFFF, 0x0, 0, false, []⟩, -- EST_OVERRIDE
  ⟨0xB4, 0x0, 1, .ro, 0x0, 0xF1FFFF, 0x0, 0x0, 0, false, []⟩, -- FAULT_INFO
  ⟨0xB8, 0x0, 1, .ro, 0x0, 0xFFFFFFFF, 0x0, 0x0, 0, false, []⟩, -- VOID_COUNT
  ⟨0xBC, 0x0, 1, .ro, 0x0, 0xFFFFFFFF, 0x0, 0x0, 0, false, []⟩, -- REPLAY_COUNT
  ⟨0xC0, 0x0, 1, .ro, 0x0, 0xFFFFFFFF, 0x0, 0x0, 0, false, []⟩, -- STRETCH_COUNT
  ⟨0xC4, 0x0, 1, .ro, 0x0, 0xFFFFFFFF, 0x0, 0x0, 0, false, []⟩, -- LATE_VERDICT_COUNT
  ⟨0xC8, 0x0, 1, .ro, 0x0, 0xFFFFFFFF, 0x0, 0x0, 0, false, []⟩, -- TRIG_MISSED
  ⟨0xCC, 0x0, 1, .ro, 0x0, 0xFFFFFFFF, 0x0, 0x0, 0, false, []⟩, -- DEFER_COUNT
  ⟨0xD0, 0x0, 1, .ro, 0x0, 0xFFFFFFFF, 0x0, 0x0, 0, false, []⟩, -- SKIP_COUNT
  ⟨0x100, 0x4, 16, .rs, 0x0, 0xFFFFFFFF, 0xFFFFFFFF, 0x0, 0, false, []⟩ -- Pi
  ]

/-- Register rows of the segment table. -/
def segmentRows : List RegRow := [
  ⟨0x40, 0x0, 1, .rs, 0x0, 0xFFFFFF, 0xFFFFFF, 0x0, 0, false, [.mk 0 24 (.mult 16 0 16777215)]⟩, -- SEG_TABLE_BASE
  ⟨0x44, 0x0, 1, .rs, 0x100, 0x1FFFF, 0x1FFFF, 0x0, 0, false, [.mk 0 17 (.rng [(1, 65536)])]⟩, -- SEG_TABLE_COUNT
  ⟨0x48, 0x0, 1, .w1s, 0x0, 0x3, 0x3, 0x0, 0, true, []⟩, -- SEG_CMD
  ⟨0x4C, 0x0, 1, .ro, 0x0, 0xFFFFFFFF, 0x0, 0x0, 0, false, []⟩, -- FAIL_COUNT
  ⟨0x50, 0x0, 1, .ro, 0x0, 0x1FF, 0x0, 0x0, 0, false, []⟩, -- FAIL_LOG_FILL
  ⟨0x54, 0x0, 1, .ro, 0x0, 0xFFFFFFFF, 0x0, 0x0, 0, false, []⟩, -- SEG_STAT
  ⟨0x100, 0x40, 16, .rs, 0x0, 0x7FFF001F, 0x7FFF001F, 0x7FFF001F, 0, false, [.mk 2 2 (.rng [(0, 2)])]⟩, -- STRn_CFG
  ⟨0x104, 0x40, 16, .ro, 0x0, 0xF7F071F, 0x0, 0x0, 0, false, []⟩, -- STRn_STAT
  ⟨0x108, 0x40, 16, .w1s, 0x0, 0x1F, 0x1F, 0x0, 0, true, []⟩, -- STRn_CMD
  ⟨0x10C, 0x40, 16, .rw, 0x0, 0xFFFF, 0xFFFF, 0x0, 0, false, []⟩, -- STRn_OPER
  ⟨0x110, 0x40, 16, .rw, 0x0, 0xFFFFFFFF, 0xFFFFFFFF, 0x0, 2, true, []⟩, -- STRn_START_PT_LO
  ⟨0x114, 0x40, 16, .rw, 0x0, 0xFFFFFFFF, 0xFFFFFFFF, 0x0, 0, true, []⟩, -- STRn_START_PT_MID
  ⟨0x118, 0x40, 16, .rw, 0x0, 0xFFFF, 0xFFFF, 0x0, 0, true, []⟩, -- STRn_START_PT_HI
  ⟨0x11C, 0x40, 16, .rs, 0x0, 0xFFFFFF, 0xFFFFFF, 0xFFFFFF, 0, false, []⟩, -- STRn_RING_BASE
  ⟨0x120, 0x40, 16, .rs, 0x8, 0xFFFFFF, 0xFFFFFF, 0xFFFFFF, 0, false, []⟩, -- STRn_RING_SIZE
  ⟨0x124, 0x40, 16, .rw, 0x0, 0xFFFFFFFF, 0xFFFFFFFF, 0x0, 0, true, []⟩, -- STRn_RING_WR
  ⟨0x128, 0x40, 16, .ro, 0x0, 0xFFFFFFFF, 0x0, 0x0, 0, false, []⟩, -- STRn_RING_RD
  ⟨0x12C, 0x40, 16, .ro, 0x0, 0xFFFFFFFF, 0x0, 0x0, 0, false, []⟩, -- STRn_RING_REL
  ⟨0x130, 0x40, 16, .rs, 0x4, 0xFFFFFF, 0xFFFFFF, 0x0, 0, false, []⟩, -- STRn_WMARK
  ⟨0x134, 0x40, 16, .w1c, 0x0, 0x7F, 0x7F, 0x0, 0, false, []⟩, -- STRn_FLAGS
  ⟨0x138, 0x40, 16, .ro, 0x0, 0xFFFFFFFF, 0x0, 0x0, 0, false, []⟩, -- STRn_DISCARD_COUNT
  ⟨0x13C, 0x40, 16, .ro, 0x0, 0xFFFFFFFF, 0x0, 0x0, 0, false, []⟩, -- STRn_SEG_NOW
  ⟨0x500, 0x20, 16, .rs, 0x0, 0xFFFF, 0xFFFF, 0xFFFF, 0, false, []⟩, -- STRn_FILL_SEG
  ⟨0x504, 0x20, 16, .rs, 0x0, 0x3FFF, 0x3FFF, 0x3FFF, 0, false, []⟩, -- STRn_VEC_STROBE
  ⟨0x508, 0x20, 16, .ro, 0x0, 0xFFFFFFFF, 0x0, 0x0, 0, false, []⟩, -- STRn_UNDERRUN_COUNT
  ⟨0x50C, 0x20, 16, .ro, 0x0, 0xFFFFFFFF, 0x0, 0x0, 0, false, []⟩, -- STRn_FILL_COUNT
  ⟨0x510, 0x20, 16, .ro, 0x0, 0xFFFFFFFF, 0x0, 0x0, 0, false, []⟩, -- STRn_JUMP_COUNT
  ⟨0x514, 0x20, 16, .ro, 0x0, 0xFFFFFFFF, 0x0, 0x0, 0, false, []⟩, -- STRn_DEFER_COUNT
  ⟨0x518, 0x20, 16, .ro, 0x0, 0xFFFFFFFF, 0x0, 0x0, 0, false, []⟩, -- STRn_LATE_COUNT
  ⟨0x51C, 0x20, 16, .ro, 0x0, 0xFFFFFFFF, 0x0, 0x0, 0, false, []⟩ -- STRn_CONFLICT_COUNT
  ]

/-- Register rows of the tone table. -/
def toneRows : List RegRow := [
  ⟨0x40, 0x0, 1, .w1s, 0x0, 0x1, 0x1, 0x0, 0, true, []⟩, -- GRP_CMD
  ⟨0x100, 0x20, 4, .rs, 0x80000002, 0xFFFF0003, 0xFFFF0003, 0xFFFF0002, 0, false, []⟩, -- DACd_CTRL
  ⟨0x104, 0x20, 4, .ro, 0x0, 0xFFFF001F, 0x0, 0x0, 0, false, []⟩, -- DACd_STAT
  ⟨0x108, 0x20, 4, .w1c, 0x0, 0x7F, 0x7F, 0x0, 0, false, []⟩, -- DACd_FLAGS
  ⟨0x10C, 0x20, 4, .ro, 0x0, 0xFFFFFFFF, 0x0, 0x0, 0, false, []⟩, -- DACd_CLIP_COUNT
  ⟨0x110, 0x20, 4, .ro, 0x0, 0xFFFFFFFF, 0x0, 0x0, 0, false, []⟩, -- DACd_DISCARD_COUNT
  ⟨0x114, 0x20, 4, .ro, 0x0, 0x3FFF, 0x0, 0x0, 0, false, []⟩, -- DACd_PEAK
  ⟨0x200, 0x20, 16, .rs, 0x0, 0x7, 0x7, 0x0, 0, false, [.mk 1 2 (.rng [(0, 2)])]⟩, -- TONEt_CTRL
  ⟨0x204, 0x20, 16, .ro, 0x0, 0x3F007F, 0x0, 0x0, 0, false, []⟩, -- TONEt_STAT
  ⟨0x208, 0x20, 16, .rs, 0x0, 0xFFFFFFFF, 0xFFFFFFFF, 0xFFFFFFFF, 0, false, []⟩, -- TONEt_FREQ_LO
  ⟨0x20C, 0x20, 16, .rs, 0x0, 0xFFFF, 0xFFFF, 0xFFFF, 0, false, []⟩, -- TONEt_FREQ_HI
  ⟨0x210, 0x20, 16, .rs, 0x0, 0xFFFF, 0xFFFF, 0xFFFF, 0, false, []⟩, -- TONEt_FRAME
  ⟨0x214, 0x20, 16, .ro, 0x0, 0xFFFF, 0x0, 0x0, 0, false, []⟩, -- TONEt_FRAME_NOW
  ⟨0x218, 0x20, 16, .w1s, 0x0, 0x3, 0x3, 0x0, 0, true, []⟩, -- TONEt_CMD
  ⟨0x21C, 0x20, 16, .ro, 0x0, 0xFFFFFFFF, 0x0, 0x0, 0, false, []⟩ -- TONEt_LATE_COUNT
  ]

/-- Register rows of the probe table. -/
def probeRows : List RegRow := [
  ⟨0x40, 0x0, 1, .w1s, 0x0, 0x1, 0x1, 0x0, 0, true, []⟩, -- GRP_CMD
  ⟨0x100, 0x20, 4, .rs, 0x80000002, 0xFFFF0003, 0xFFFF0003, 0xFFFF0002, 0, false, []⟩, -- DACd_CTRL
  ⟨0x104, 0x20, 4, .ro, 0x0, 0xFFFF001F, 0x0, 0x0, 0, false, []⟩, -- DACd_STAT
  ⟨0x108, 0x20, 4, .w1c, 0x0, 0x7F, 0x7F, 0x0, 0, false, []⟩, -- DACd_FLAGS
  ⟨0x10C, 0x20, 4, .ro, 0x0, 0xFFFFFFFF, 0x0, 0x0, 0, false, []⟩, -- DACd_CLIP_COUNT
  ⟨0x110, 0x20, 4, .ro, 0x0, 0xFFFFFFFF, 0x0, 0x0, 0, false, []⟩, -- DACd_DISCARD_COUNT
  ⟨0x114, 0x20, 4, .ro, 0x0, 0x3FFF, 0x0, 0x0, 0, false, []⟩, -- DACd_PEAK
  ⟨0x200, 0x20, 64, .rs, 0x0, 0x7, 0x7, 0x0, 0, false, [.mk 1 2 (.rng [(0, 2)])]⟩, -- TONEt_CTRL
  ⟨0x204, 0x20, 64, .ro, 0x0, 0x3F007F, 0x0, 0x0, 0, false, []⟩, -- TONEt_STAT
  ⟨0x208, 0x20, 64, .rs, 0x0, 0xFFFFFFFF, 0xFFFFFFFF, 0xFFFFFFFF, 0, false, []⟩, -- TONEt_FREQ_LO
  ⟨0x20C, 0x20, 64, .rs, 0x0, 0xFFFF, 0xFFFF, 0xFFFF, 0, false, []⟩, -- TONEt_FREQ_HI
  ⟨0x210, 0x20, 64, .rs, 0x0, 0xFFFF, 0xFFFF, 0xFFFF, 0, false, []⟩, -- TONEt_FRAME
  ⟨0x214, 0x20, 64, .ro, 0x0, 0xFFFF, 0x0, 0x0, 0, false, []⟩, -- TONEt_FRAME_NOW
  ⟨0x218, 0x20, 64, .w1s, 0x0, 0x3, 0x3, 0x0, 0, true, []⟩, -- TONEt_CMD
  ⟨0x21C, 0x20, 64, .ro, 0x0, 0xFFFFFFFF, 0x0, 0x0, 0, false, []⟩ -- TONEt_LATE_COUNT
  ]

/-- Register rows of the flux table. -/
def fluxRows : List RegRow := [
  ⟨0x40, 0x0, 1, .w1s, 0x0, 0x1, 0x1, 0x0, 0, true, []⟩, -- GRP_CMD
  ⟨0x100, 0x20, 8, .rs, 0x80000000, 0xFFFF000F, 0xFFFF000F, 0xFFFF0008, 0, false, [.mk 1 2 (.rng [(0, 2)])]⟩, -- FLXc_CTRL
  ⟨0x104, 0x20, 8, .ro, 0x0, 0x3F007F, 0x0, 0x0, 0, false, []⟩, -- FLXc_STAT
  ⟨0x108, 0x20, 8, .rs, 0x0, 0xFFFF, 0xFFFF, 0xFFFF, 0, false, []⟩, -- FLXc_BIAS
  ⟨0x10C, 0x20, 8, .w1c, 0x0, 0x7F, 0x7F, 0x0, 0, false, []⟩, -- FLXc_FLAGS
  ⟨0x110, 0x20, 8, .w1s, 0x0, 0x3, 0x3, 0x0, 0, true, []⟩, -- FLXc_CMD
  ⟨0x114, 0x20, 8, .ro, 0x0, 0xFFFFFFFF, 0x0, 0x0, 0, false, []⟩, -- FLXc_LATE_COUNT
  ⟨0x118, 0x20, 8, .ro, 0x0, 0xFFFFFFFF, 0x0, 0x0, 0, false, []⟩, -- FLXc_DISCARD_COUNT
  ⟨0x11C, 0x20, 8, .ro, 0x0, 0xFFFFFFFF, 0x0, 0x0, 0, false, []⟩ -- FLXc_CLIP_COUNT
  ]

/-- Register rows of the cap table. -/
def capRows : List RegRow := [
  ⟨0x40, 0x0, 1, .rs, 0x8, 0xFF, 0xFF, 0x0, 0, false, [.mk 1 2 (.rng [(0, 2)]), .mk 3 2 (.rng [(0, 2)])]⟩, -- CAP_CTRL
  ⟨0x44, 0x0, 1, .ro, 0x0, 0x1F0FFF, 0x0, 0x0, 0, false, []⟩, -- CAP_STAT
  ⟨0x48, 0x0, 1, .w1s, 0x0, 0x7F, 0x7F, 0x0, 0, true, []⟩, -- CAP_CMD
  ⟨0x4C, 0x0, 1, .rs, 0x0, 0xFFFFFF, 0xFFFFFF, 0xFFFFFF, 0, false, []⟩, -- WIN_DELAY
  ⟨0x50, 0x0, 1, .rs, 0x8, 0xFF, 0xFF, 0x0, 0, false, [.mk 0 8 (.rng [(1, 255)])]⟩, -- PLAUS_TOL
  ⟨0x54, 0x0, 1, .rs, 0x40000000, 0xFFFF0FFF, 0xFFFF0FFF, 0x0, 0, false, []⟩, -- COMPAT_CORR
  ⟨0x58, 0x0, 1, .rs, 0x303E8, 0x3FFFF, 0x3FFFF, 0x0, 0, false, [.mk 0 16 (.rng [(100, 60000)])]⟩, -- ROT_CTRL
  ⟨0x5C, 0x0, 1, .ro, 0x24, 0x1FFF, 0x0, 0x0, 0, false, []⟩, -- SLICE_STAT
  ⟨0x60, 0x0, 1, .ro, 0x0, 0xFFFFFFFF, 0x0, 0x0, 0, false, []⟩, -- MISMATCH
  ⟨0x64, 0x0, 1, .rs, 0x0, 0x1F, 0x1F, 0x0, 0, false, []⟩, -- PWE_CTRL
  ⟨0x68, 0x0, 1, .rs, 0x0, 0xFFFFFFFF, 0xFFFFFFFF, 0x0, 0, false, []⟩, -- PWE_MIN
  ⟨0x6C, 0x0, 1, .rs, 0xFFFFFFFF, 0xFFFFFFFF, 0xFFFFFFFF, 0x0, 0, false, []⟩, -- PWE_MAX
  ⟨0x70, 0x0, 1, .rs, 0x55F00, 0xFFFFFFFF, 0xFFFFFFFF, 0xFFFFFFFF, 0, false, []⟩, -- PWE_DELAY
  ⟨0x74, 0x0, 1, .rs, 0x1, 0xFFFFF, 0xFFFFF, 0x0, 0, false, [.mk 16 4 (.rng [(0, 3)])]⟩, -- TMPL_MASK
  ⟨0x78, 0x0, 1, .rs, 0x1F40, 0xFFFFFF, 0xFFFFFF, 0xFFFFFF, 0, false, [.mk 0 24 (.rng [(1, 16777215)])]⟩, -- TMPL_LEN
  ⟨0x7C, 0x0, 1, .rs, 0x0, 0x3FFF, 0x3FFF, 0x0, 0, false, []⟩, -- INJ_CTRL
  ⟨0x80, 0x0, 1, .rs, 0x0, 0xFFFFFF, 0xFFFFFF, 0xFFFFFF, 0, false, []⟩, -- INJ_DELAY
  ⟨0x84, 0x0, 1, .rs, 0xA00000, 0xFFFF003F, 0xFFFF003F, 0xFFFF003F, 0, false, [.mk 16 16 (.rng [(16, 65535)])]⟩, -- CONT_CFG
  ⟨0x88, 0x0, 1, .rs, 0x200000, 0x7FFFFF, 0x7FFFFF, 0x0, 0, false, [.mk 0 23 (.mult 4096 0 8388607)]⟩, -- RING_BASE
  ⟨0x8C, 0x0, 1, .rs, 0x200000, 0xFFFFFFFF, 0xFFFFFFFF, 0x0, 0, false, [.mk 0 32 (.mult 4096 4096 8388608)]⟩, -- RING_SIZE
  ⟨0x90, 0x0, 1, .ro, 0x0, 0xFFFFFFFF, 0x0, 0x0, 0, false, []⟩, -- RING_WR
  ⟨0x94, 0x0, 1, .rw, 0x0, 0xFFFFFFFF, 0xFFFFFFFF, 0x0, 0, false, []⟩, -- RING_RD
  ⟨0x98, 0x0, 1, .ro, 0x0, 0xFFFFFFFF, 0x0, 0x0, 0, false, []⟩, -- REC_SEQ
  ⟨0x9C, 0x0, 1, .ro, 0x0, 0xFFFFFFFF, 0x0, 0x0, 0, false, []⟩, -- WIN_COUNT
  ⟨0xA0, 0x0, 1, .ro, 0x0, 0xFFFFFFFF, 0x0, 0x0, 0, false, []⟩, -- LATE_COUNT
  ⟨0xA4, 0x0, 1, .ro, 0x0, 0xFFFFFFFF, 0x0, 0x0, 0, false, []⟩, -- TRIG_MISSED
  ⟨0xA8, 0x0, 1, .ro, 0x0, 0xFFFFFFFF, 0x0, 0x0, 0, false, []⟩, -- DISCARD_COUNT
  ⟨0xAC, 0x0, 1, .ro, 0x0, 0xFFFFFFFF, 0x0, 0x0, 0, false, []⟩, -- DROP_COUNT
  ⟨0xB0, 0x0, 1, .ro, 0x0, 0xFFFFFFFF, 0x0, 0x0, 0, false, []⟩, -- INJ_COUNT
  ⟨0xB4, 0x0, 1, .ro, 0x0, 0xFFFFFFFF, 0x0, 0x0, 0, false, []⟩, -- MISMATCH_COUNT
  ⟨0xB8, 0x0, 1, .ro, 0x0, 0xFFFFFFFF, 0x0, 0x0, 0, false, []⟩, -- ROT_COUNT
  ⟨0xBC, 0x0, 1, .ro, 0x0, 0xFFFFFFFF, 0x0, 0x0, 0, false, []⟩, -- OVR_COUNT
  ⟨0xC0, 0x0, 1, .w1c, 0x0, 0x3FF, 0x3FF, 0x0, 0, false, []⟩, -- CAP_FLAGS
  ⟨0x400, 0x40, 16, .rs, 0x0, 0x7, 0x7, 0x0, 0, false, []⟩, -- DEMd_CTRL
  ⟨0x404, 0x40, 16, .rs, 0x0, 0xFFFFFFFF, 0xFFFFFFFF, 0xFFFFFFFF, 0, false, []⟩, -- DEMd_FREQ_LO
  ⟨0x408, 0x40, 16, .rs, 0x0, 0xFFFF, 0xFFFF, 0xFFFF, 0, false, []⟩, -- DEMd_FREQ_HI
  ⟨0x40C, 0x40, 16, .rs, 0x0, 0xFFFF, 0xFFFF, 0xFFFF, 0, false, []⟩, -- DEMd_PHASE
  ⟨0x410, 0x40, 16, .rs, 0x1E0000, 0x3F0FFF, 0x3F0FFF, 0x3F0FFF, 0, false, [.mk 16 6 (.rng [(20, 40)])]⟩, -- DEMd_WEIGHT
  ⟨0x414, 0x40, 16, .rs, 0x0, 0xFFFFFFFF, 0xFFFFFFFF, 0x0, 0, false, []⟩, -- DEMd_BND0
  ⟨0x418, 0x40, 16, .rs, 0x0, 0xFFFFFFFF, 0xFFFFFFFF, 0x0, 0, false, []⟩, -- DEMd_BND0_C
  ⟨0x41C, 0x40, 16, .rs, 0x0, 0xFFFFFFFF, 0xFFFFFFFF, 0x0, 0, false, []⟩, -- DEMd_BND1
  ⟨0x420, 0x40, 16, .rs, 0x0, 0xFFFFFFFF, 0xFFFFFFFF, 0x0, 0, false, []⟩, -- DEMd_BND1_C
  ⟨0x424, 0x40, 16, .rs, 0x0, 0xFFFFFFFF, 0xFFFFFFFF, 0x0, 0, false, []⟩, -- DEMd_CONF
  ⟨0x428, 0x40, 16, .ro, 0x0, 0xFFFFFFFF, 0x0, 0x0, 5, false, []⟩, -- DEMd_RES_I
  ⟨0x42C, 0x40, 16, .ro, 0x0, 0xFFFFFFFF, 0x0, 0x0, 0, false, []⟩, -- DEMd_RES_Q
  ⟨0x430, 0x40, 16, .ro, 0x3, 0xFFFFFFFF, 0x0, 0x0, 0, false, []⟩, -- DEMd_VERDICT
  ⟨0x434, 0x40, 16, .ro, 0x0, 0xFFFFFFFF, 0x0, 0x0, 0, false, []⟩, -- DEMd_END_LO
  ⟨0x438, 0x40, 16, .ro, 0x0, 0xFFFFFFFF, 0x0, 0x0, 0, false, []⟩, -- DEMd_END_MID
  ⟨0x43C, 0x40, 16, .ro, 0x0, 0xFFFF, 0x0, 0x0, 0, false, []⟩ -- DEMd_END_HI
  ]

/-- Register rows of the stamp table. -/
def stampRows : List RegRow := [
  ⟨0x40, 0x0, 1, .rs, 0x0, 0x3, 0x3, 0x0, 0, false, [.mk 0 2 (.rng [(0, 2)])]⟩, -- REC_CTRL
  ⟨0x44, 0x0, 1, .rs, 0x0, 0x7FFFFF, 0x7FFFFF, 0x0, 0, false, [.mk 0 23 (.mult 4096 0 8388607)]⟩, -- REC_BASE
  ⟨0x48, 0x0, 1, .rs, 0x0, 0xFFFFFFFF, 0xFFFFFFFF, 0x0, 0, false, [.mk 0 32 (.mult 4096 0 8388608)]⟩, -- REC_SIZE
  ⟨0x4C, 0x0, 1, .ro, 0x0, 0xFFFFFFFF, 0x0, 0x0, 0, false, []⟩, -- REC_WR
  ⟨0x50, 0x0, 1, .rw, 0x0, 0xFFFFFFFF, 0xFFFFFFFF, 0x0, 0, false, []⟩, -- REC_RD
  ⟨0x54, 0x0, 1, .ro, 0x0, 0xFFFFFFFF, 0x0, 0x0, 0, false, []⟩, -- REC_SEQ
  ⟨0x58, 0x0, 1, .ro, 0x0, 0xFFFFFFFF, 0x0, 0x0, 0, false, []⟩, -- REC_DROP_COUNT
  ⟨0x5C, 0x0, 1, .ro, 0x0, 0xFFFFFFFF, 0x0, 0x0, 0, false, []⟩, -- SIGN_SKIP_COUNT
  ⟨0x60, 0x0, 1, .rs, 0x801, 0xFF01, 0xFF01, 0x0, 0, false, [.mk 8 8 (.rng [(2, 255)])]⟩, -- LATH_CTRL
  ⟨0x64, 0x0, 1, .w1s, 0x0, 0x1, 0x1, 0x0, 0, true, []⟩, -- STAMP_CMD
  ⟨0x68, 0x0, 1, .ro, 0x0, 0xFFFFFFFF, 0x0, 0x0, 0, false, []⟩, -- ARM_DISCARD_COUNT
  ⟨0x100, 0x20, 8, .rs, 0x5000E, 0xFFFFF, 0xFFFFF, 0xFFFFF, 0, false, [.mk 1 2 (.rng [(1, 3)]), .mk 4 12 (.sgn (-500) (500))]⟩, -- INn_CFG
  ⟨0x104, 0x20, 8, .ro, 0x1E, 0x7FF, 0x0, 0x0, 0, false, []⟩, -- INn_STAT
  ⟨0x108, 0x20, 8, .ro, 0x0, 0xFFFFFFFF, 0x0, 0x0, 0, false, []⟩, -- INn_COUNT
  ⟨0x10C, 0x20, 8, .ro, 0x0, 0xFFFFFFFF, 0x0, 0x0, 0, false, []⟩, -- INn_MISS
  ⟨0x110, 0x20, 8, .ro, 0x0, 0xFFFFFFFF, 0x0, 0x0, 0, false, []⟩, -- INn_EXCL
  ⟨0x114, 0x20, 8, .ro, 0x0, 0xFFFFFFFF, 0x0, 0x0, 2, false, []⟩, -- INn_LAST_LO
  ⟨0x118, 0x20, 8, .ro, 0x0, 0xFFFFFFFF, 0x0, 0x0, 0, false, []⟩, -- INn_LAST_MID
  ⟨0x11C, 0x20, 8, .ro, 0x0, 0xFFFF, 0x0, 0x0, 0, false, []⟩, -- INn_LAST_HI
  ⟨0x200, 0x80, 4, .rs, 0x10000, 0xFFFF001F, 0xFFFF001F, 0x0, 0, false, [.mk 1 2 (.rng [(0, 2)]), .mk 16 16 (.rng [(1, 65535)])]⟩, -- TIUu_CTRL
  ⟨0x204, 0x80, 4, .rs, 0x0, 0x1FF, 0x1FF, 0x1FF, 0, false, []⟩, -- TIUu_START_SRC
  ⟨0x208, 0x80, 4, .rs, 0x0, 0x1FF, 0x1FF, 0x1FF, 0, false, []⟩, -- TIUu_STOP_SRC
  ⟨0x20C, 0x80, 4, .rs, 0x0, 0xFFFFFFFF, 0xFFFFFFFF, 0x0, 0, false, []⟩, -- TIUu_HOLDOFF
  ⟨0x210, 0x80, 4, .rs, 0x0, 0xFFFFFFFF, 0xFFFFFFFF, 0x0, 0, false, []⟩, -- TIUu_TIMEOUT
  ⟨0x214, 0x80, 4, .rs, 0x0, 0xFFFFFFFF, 0xFFFFFFFF, 0x0, 0, false, []⟩, -- TIUu_ZERO_LO
  ⟨0x218, 0x80, 4, .rs, 0x0, 0xFFFFFFFF, 0xFFFFFFFF, 0x0, 0, false, []⟩, -- TIUu_ZERO_HI
  ⟨0x21C, 0x80, 4, .w1s, 0x0, 0x7, 0x7, 0x0, 0, true, []⟩, -- TIUu_CMD
  ⟨0x220, 0x80, 4, .ro, 0x0, 0xFFFF01FF, 0x0, 0x0, 0, false, []⟩, -- TIUu_STAT
  ⟨0x224, 0x80, 4, .ro, 0x0, 0xFFFFFFFF, 0x0, 0x0, 13, false, []⟩, -- TIUu_LAST_LO
  ⟨0x228, 0x80, 4, .ro, 0x0, 0xFFFFFFFF, 0x0, 0x0, 0, false, []⟩, -- TIUu_LAST_HI
  ⟨0x22C, 0x80, 4, .ro, 0x0, 0xFFFFFFFF, 0x0, 0x0, 0, false, []⟩, -- TIUu_MEAN_LO
  ⟨0x230, 0x80, 4, .ro, 0x0, 0xFFFFFFFF, 0x0, 0x0, 0, false, []⟩, -- TIUu_MEAN_HI
  ⟨0x234, 0x80, 4, .ro, 0x0, 0xFFFFFFFF, 0x0, 0x0, 0, false, []⟩, -- TIUu_RMS
  ⟨0x238, 0x80, 4, .ro, 0x0, 0xFFFFFFFF, 0x0, 0x0, 0, false, []⟩, -- TIUu_MIN_LO
  ⟨0x23C, 0x80, 4, .ro, 0x0, 0xFFFFFFFF, 0x0, 0x0, 0, false, []⟩, -- TIUu_MIN_HI
  ⟨0x240, 0x80, 4, .ro, 0x0, 0xFFFFFFFF, 0x0, 0x0, 0, false, []⟩, -- TIUu_MAX_LO
  ⟨0x244, 0x80, 4, .ro, 0x0, 0xFFFFFFFF, 0x0, 0x0, 0, false, []⟩, -- TIUu_MAX_HI
  ⟨0x248, 0x80, 4, .ro, 0x0, 0xFFFFFFFF, 0x0, 0x0, 0, false, []⟩, -- TIUu_ORDER_COUNT
  ⟨0x24C, 0x80, 4, .ro, 0x0, 0xFFFFFFFF, 0x0, 0x0, 0, false, []⟩, -- TIUu_NEAR_COUNT
  ⟨0x250, 0x80, 4, .ro, 0x0, 0xFFFFFFFF, 0x0, 0x0, 0, false, []⟩, -- TIUu_START_PT_LO
  ⟨0x254, 0x80, 4, .ro, 0x0, 0xFFFFFFFF, 0x0, 0x0, 0, false, []⟩, -- TIUu_START_PT_MID
  ⟨0x258, 0x80, 4, .ro, 0x0, 0xFFFF, 0x0, 0x0, 0, false, []⟩ -- TIUu_START_PT_HI
  ]

/-- Register rows of the freq table. -/
def freqRows : List RegRow := [
  ⟨0x40, 0x0, 1, .w1s, 0x0, 0x1, 0x1, 0x0, 0, true, []⟩, -- FREQ_CMD
  ⟨0x100, 0x80, 2, .rs, 0x0, 0x1F001F, 0x1F001F, 0x1F0000, 0, false, [.mk 1 2 (.rng [(0, 2)]), .mk 16 5 (.rng [(0, 16)])]⟩, -- FREe_CTRL
  ⟨0x104, 0x80, 2, .rs, 0x0, 0x1FF, 0x1FF, 0x1FF, 0, false, []⟩, -- FREe_SRC
  ⟨0x108, 0x80, 2, .rs, 0x4A510000, 0xFFFFFFFF, 0xFFFFFFFF, 0xFFFFFFFF, 0, false, []⟩, -- FREe_GATE_LO
  ⟨0x10C, 0x80, 2, .rs, 0xE8D, 0x3FFFFF, 0x3FFFFF, 0x3FFFFF, 0, false, []⟩, -- FREe_GATE_HI
  ⟨0x110, 0x80, 2, .rs, 0x0, 0xFFFFFFFF, 0xFFFFFFFF, 0x0, 0, false, []⟩, -- FREe_NOMINAL_LO
  ⟨0x114, 0x80, 2, .rs, 0x989680, 0xFFFFFFFF, 0xFFFFFFFF, 0x0, 0, false, []⟩, -- FREe_NOMINAL_HI
  ⟨0x118, 0x80, 2, .rw, 0x0, 0xFFFFFFFF, 0xFFFFFFFF, 0x0, 2, true, []⟩, -- FREe_START_PT_LO
  ⟨0x11C, 0x80, 2, .rw, 0x0, 0xFFFFFFFF, 0xFFFFFFFF, 0x0, 0, true, []⟩, -- FREe_START_PT_MID
  ⟨0x120, 0x80, 2, .rw, 0x0, 0xFFFF, 0xFFFF, 0x0, 0, true, []⟩, -- FREe_START_PT_HI
  ⟨0x124, 0x80, 2, .w1s, 0x0, 0x7, 0x7, 0x0, 0, true, []⟩, -- FREe_CMD
  ⟨0x128, 0x80, 2, .ro, 0x0, 0x1FF, 0x0, 0x0, 0, false, []⟩, -- FREe_STAT
  ⟨0x12C, 0x80, 2, .ro, 0x0, 0xFFFFFFFF, 0x0, 0x0, 12, false, []⟩, -- FREe_FREQ_LO
  ⟨0x130, 0x80, 2, .ro, 0x0, 0xFFFFFFFF, 0x0, 0x0, 0, false, []⟩, -- FREe_FREQ_HI
  ⟨0x134, 0x80, 2, .ro, 0x0, 0xFFFFFFFF, 0x0, 0x0, 0, false, []⟩, -- FREe_DEV_LO
  ⟨0x138, 0x80, 2, .ro, 0x0, 0xFFFFFFFF, 0x0, 0x0, 0, false, []⟩, -- FREe_DEV_HI
  ⟨0x13C, 0x80, 2, .ro, 0x0, 0xFFFFFFFF, 0x0, 0x0, 0, false, []⟩, -- FREe_RESID
  ⟨0x140, 0x80, 2, .ro, 0x0, 0xFFFFFFFF, 0x0, 0x0, 0, false, []⟩, -- FREe_COUNT
  ⟨0x144, 0x80, 2, .ro, 0x0, 0xFFFFFFFF, 0x0, 0x0, 0, false, []⟩, -- FREe_SPAN_LO
  ⟨0x148, 0x80, 2, .ro, 0x0, 0xFFFFFFFF, 0x0, 0x0, 0, false, []⟩, -- FREe_SPAN_HI
  ⟨0x14C, 0x80, 2, .ro, 0xF, 0x1FF, 0x0, 0x0, 0, false, []⟩, -- FREe_TB
  ⟨0x150, 0x80, 2, .ro, 0x0, 0xFFFFFFFF, 0x0, 0x0, 0, false, []⟩, -- FREe_GATE_COUNT
  ⟨0x154, 0x80, 2, .ro, 0x0, 0xFFFFFFFF, 0x0, 0x0, 0, false, []⟩, -- FREe_END_PT_LO
  ⟨0x158, 0x80, 2, .ro, 0x0, 0xFFFFFFFF, 0x0, 0x0, 0, false, []⟩, -- FREe_END_PT_MID
  ⟨0x15C, 0x80, 2, .ro, 0x0, 0xFFFF, 0x0, 0x0, 0, false, []⟩ -- FREe_END_PT_HI
  ]

/-- Register rows of the cal table. -/
def calRows : List RegRow := [
  ⟨0x40, 0x0, 1, .rs, 0x3, 0x3, 0x3, 0x0, 0, false, []⟩, -- CAL_CTRL
  ⟨0x44, 0x0, 1, .ro, 0x0, 0xFFFFFF, 0x0, 0x0, 0, false, []⟩, -- CAL_STAT
  ⟨0x48, 0x0, 1, .w1s, 0x0, 0x7, 0x7, 0x0, 0, true, []⟩, -- CAL_CMD
  ⟨0x4C, 0x0, 1, .rw, 0x0, 0xFFFF, 0xFFFF, 0x0, 0, false, []⟩, -- CAL_SEL
  ⟨0x50, 0x0, 1, .rs, 0x22211, 0x77777, 0x77777, 0x0, 0, false, [.mk 0 3 (.rng [(1, 4)]), .mk 4 3 (.rng [(1, 4)]), .mk 8 3 (.rng [(1, 4)]), .mk 12 3 (.rng [(1, 4)]), .mk 16 3 (.rng [(1, 4)])]⟩, -- CAL_BOUNDARY
  ⟨0x54, 0x0, 1, .rs, 0x258, 0xFFFFFFFF, 0xFFFFFFFF, 0x0, 0, false, [.mk 0 32 (.rng [(60, 86400)])]⟩, -- CAL_MAX_AGE
  ⟨0x58, 0x0, 1, .rs, 0x3E8, 0xFFFFFFFF, 0xFFFFFFFF, 0x0, 0, false, [.mk 0 32 (.rng [(10, 60000)])]⟩, -- CAL_WAIT_MAX
  ⟨0x5C, 0x0, 1, .rs, 0x3, 0xF, 0xF, 0x0, 0, false, [.mk 0 4 (.rng [(1, 15)])]⟩, -- REJECT_LIMIT
  ⟨0x60, 0x0, 1, .rs, 0x8, 0x3F, 0x3F, 0x0, 0, false, [.mk 0 6 (.rng [(1, 32)])]⟩, -- TEMP_STEP
  ⟨0x64, 0x0, 1, .ro, 0x0, 0xFFFFFFFF, 0x0, 0x0, 0, false, []⟩, -- TEMP_NOW
  ⟨0x68, 0x0, 1, .ro, 0x0, 0xFFFFFFFF, 0x0, 0x0, 0, false, []⟩, -- TEMP_INTERP
  ⟨0x6C, 0x0, 1, .ro, 0x0, 0xFFFFFFFF, 0x0, 0x0, 0, false, []⟩, -- COUNT
  ⟨0x70, 0x0, 1, .ro, 0x0, 0xFFFFFFFF, 0x0, 0x0, 0, false, []⟩, -- FAIL_COUNT
  ⟨0x74, 0x0, 1, .ro, 0x0, 0xFFFFFFFF, 0x0, 0x0, 0, false, []⟩, -- FORCED_COUNT
  ⟨0x78, 0x0, 1, .ro, 0x0, 0xFFFFFFFF, 0x0, 0x0, 2, false, []⟩, -- LAST_PT_LO
  ⟨0x7C, 0x0, 1, .ro, 0x0, 0xFFFFFFFF, 0x0, 0x0, 0, false, []⟩, -- LAST_PT_MID
  ⟨0x80, 0x0, 1, .ro, 0x0, 0xFFFF, 0x0, 0x0, 0, false, []⟩, -- LAST_PT_HI
  ⟨0x84, 0x0, 1, .ro, 0x0, 0xFFFFF, 0x0, 0x0, 0, false, []⟩, -- REJECT_INFO
  ⟨0x88, 0x0, 1, .ro, 0x0, 0xFFFFFFFF, 0x0, 0x0, 0, false, []⟩, -- STALE_MAP
  ⟨0x8C, 0x0, 1, .ro, 0x0, 0xFFFFFFFF, 0x0, 0x0, 0, false, []⟩, -- LOWCONF_MAP
  ⟨0x90, 0x0, 1, .ro, 0x0, 0x3FF, 0x0, 0x0, 0, false, []⟩, -- ITEM_STAT
  ⟨0x94, 0x0, 1, .ro, 0x0, 0xFFFFFFFF, 0x0, 0x0, 0, false, []⟩, -- ITEM_AGE
  ⟨0x98, 0x0, 1, .ro, 0x0, 0xFFFFFFFF, 0x0, 0x0, 2, false, []⟩, -- ITEM_PT_LO
  ⟨0x9C, 0x0, 1, .ro, 0x0, 0xFFFFFFFF, 0x0, 0x0, 0, false, []⟩, -- ITEM_PT_MID
  ⟨0xA0, 0x0, 1, .ro, 0x0, 0xFFFF, 0x0, 0x0, 0, false, []⟩, -- ITEM_PT_HI
  ⟨0xA4, 0x0, 1, .ro, 0x0, 0xFFFFFFFF, 0x0, 0x0, 0, false, []⟩, -- ITEM_TEMP
  ⟨0xA8, 0x0, 1, .ro, 0x0, 0xFFFFFFFF, 0x0, 0x0, 0, false, []⟩ -- ITEM_DELTA
  ]

/-- Register rows of the shimstore table. -/
def shimstoreRows : List RegRow := [
  ⟨0x40, 0x0, 1, .rs, 0x1800, 0xFF01, 0xFF01, 0x0, 0, false, []⟩, -- SHIM_CTRL
  ⟨0x44, 0x0, 1, .ro, 0x0, 0xFFF, 0x0, 0x0, 0, false, []⟩, -- SHIM_STAT
  ⟨0x48, 0x0, 1, .w1s, 0x0, 0xF, 0xF, 0x0, 0, true, []⟩, -- SHIM_CMD
  ⟨0x4C, 0x0, 1, .rw, 0x0, 0x7, 0x7, 0x0, 0, false, []⟩, -- SHIM_SEL
  ⟨0x50, 0x0, 1, .rs, 0x28, 0xFF, 0xFF, 0x0, 0, false, [.mk 0 8 (.rng [(8, 160)])]⟩, -- MERGE_BAND
  ⟨0x54, 0x0, 1, .rs, 0x3E8, 0xFFFFFFFF, 0xFFFFFFFF, 0x0, 0, false, [.mk 0 32 (.rng [(100, 60000)])]⟩, -- RETRY_MS
  ⟨0x58, 0x0, 1, .ro, 0x0, 0x3FFFF, 0x0, 0x0, 0, false, []⟩, -- POINT_TEMP
  ⟨0x5C, 0x0, 1, .ro, 0x0, 0xFFFFFFFF, 0x0, 0x0, 2, false, []⟩, -- POINT_PT_LO
  ⟨0x60, 0x0, 1, .ro, 0x0, 0xFFFFFFFF, 0x0, 0x0, 0, false, []⟩, -- POINT_PT_MID
  ⟨0x64, 0x0, 1, .ro, 0x0, 0xFFFF, 0x0, 0x0, 0, false, []⟩, -- POINT_PT_HI
  ⟨0x68, 0x0, 1, .ro, 0x0, 0xFFFFFFFF, 0x0, 0x0, 0, false, []⟩, -- POINT_GEN
  ⟨0x6C, 0x0, 1, .ro, 0x0, 0xFFFFFFFF, 0x0, 0x0, 0, false, []⟩, -- SEQ_A
  ⟨0x70, 0x0, 1, .ro, 0x0, 0xFFFFFFFF, 0x0, 0x0, 0, false, []⟩, -- SEQ_B
  ⟨0x74, 0x0, 1, .ro, 0x0, 0xFFFFFFFF, 0x0, 0x0, 0, false, []⟩, -- STORE_COUNT
  ⟨0x78, 0x0, 1, .ro, 0x0, 0xFFFFFFFF, 0x0, 0x0, 0, false, []⟩, -- DEFER_COUNT
  ⟨0x7C, 0x0, 1, .ro, 0x0, 0xFFFFFFFF, 0x0, 0x0, 0, false, []⟩, -- ABORT_COUNT
  ⟨0x80, 0x0, 1, .ro, 0x0, 0xFFFFFFFF, 0x0, 0x0, 0, false, []⟩, -- HOLD_ENERGY
  ⟨0x84, 0x0, 1, .ro, 0x0, 0xFFFFFFFF, 0x0, 0x0, 0, false, []⟩, -- HOLD_CAP
  ⟨0x88, 0x0, 1, .ro, 0x12C, 0xFFFFFFFF, 0x0, 0x0, 0, false, []⟩ -- STORE_NEED
  ]

/-- Register rows of the continuity table. -/
def continuityRows : List RegRow := [
  ⟨0x40, 0x0, 1, .rs, 0x30D40003, 0xFFFF003F, 0xFFFF003F, 0x0, 0, false, [.mk 0 4 (.rng [(1, 15)])]⟩, -- CONT_CTRL
  ⟨0x44, 0x0, 1, .ro, 0x2, 0x3F, 0x0, 0x0, 0, false, []⟩, -- CONT_STAT
  ⟨0x48, 0x0, 1, .w1s, 0x0, 0x1F, 0x1F, 0x0, 0, true, []⟩, -- BENT_CMD
  ⟨0x4C, 0x0, 1, .ro, 0x0, 0xFFFFFFFF, 0x0, 0x0, 0, false, []⟩, -- ECC_CORR_COUNT
  ⟨0x50, 0x0, 1, .ro, 0x0, 0xFFFFFFFF, 0x0, 0x0, 0, false, []⟩, -- ECC_UNCORR_COUNT
  ⟨0x54, 0x0, 1, .ro, 0x0, 0xFFFFFFFF, 0x0, 0x0, 0, false, []⟩, -- POISON_ADDR
  ⟨0x58, 0x0, 1, .ro, 0x0, 0xFFFFFFFF, 0x0, 0x0, 0, false, []⟩, -- FOREMAN_RESTARTS
  ⟨0x5C, 0x0, 1, .ro, 0x0, 0xFFFF0007, 0x0, 0x0, 0, false, []⟩, -- FW_STAT
  ⟨0x60, 0x0, 1, .ro, 0x0, 0xFFFFFFFF, 0x0, 0x0, 0, false, []⟩, -- RESET_GLITCH_COUNT
  ⟨0x64, 0x0, 1, .ro, 0x1, 0x3, 0x0, 0x0, 0, false, []⟩, -- LAST_RESET
  ⟨0x68, 0x0, 1, .ro, 0x0, 0xFFFFFFFF, 0x0, 0x0, 0, false, []⟩, -- PERST_COUNT
  ⟨0x6C, 0x0, 1, .ro, 0x0, 0xFFFFFFFF, 0x0, 0x0, 0, false, []⟩, -- FENCED_PEG_COUNT
  ⟨0x70, 0x0, 1, .ro, 0x0, 0xFFFFFFFF, 0x0, 0x0, 0, false, []⟩, -- TUNNEL_APPLIED
  ⟨0x74, 0x0, 1, .ro, 0x0, 0xFFFFFFFF, 0x0, 0x0, 0, false, []⟩, -- TUNNEL_DUP_COUNT
  ⟨0x78, 0x0, 1, .ro, 0x0, 0xFFFFFFFF, 0x0, 0x0, 0, false, []⟩, -- ABANDON_COUNT
  ⟨0x7C, 0x0, 1, .ro, 0x0, 0xFFFFFFFF, 0x0, 0x0, 0, false, []⟩, -- TALLY_LOST_COUNT
  ⟨0x100, 0x8, 16, .ro, 0x0, 0xFFFFFFFF, 0x0, 0x0, 0, false, []⟩, -- TALLYs_WR
  ⟨0x104, 0x8, 16, .rw, 0x0, 0xFFFFFFFF, 0xFFFFFFFF, 0x0, 0, false, []⟩ -- TALLYs_RD
  ]

/-- Register rows of the energy table. -/
def energyRows : List RegRow := [
  ⟨0x40, 0x0, 1, .ro, 0x0, 0xFFFFFFFF, 0x0, 0x0, 1, false, []⟩, -- E_BENT_LO
  ⟨0x44, 0x0, 1, .ro, 0x0, 0xFFFFFFFF, 0x0, 0x0, 0, false, []⟩, -- E_BENT_HI
  ⟨0x48, 0x0, 1, .ro, 0x0, 0xFFFFFFFF, 0x0, 0x0, 0, false, []⟩, -- P_NOW
  ⟨0x4C, 0x0, 1, .ro, 0x0, 0xFFFFFFFF, 0x0, 0x0, 0, false, []⟩, -- P_PEAK
  ⟨0x50, 0x0, 1, .rw, 0x0, 0x3, 0x3, 0x0, 0, false, []⟩, -- RAIL_SEL
  ⟨0x54, 0x0, 1, .ro, 0x0, 0xFFFFFFFF, 0x0, 0x0, 1, false, []⟩, -- RAIL_E_LO
  ⟨0x58, 0x0, 1, .ro, 0x0, 0xFFFFFFFF, 0x0, 0x0, 0, false, []⟩, -- RAIL_E_HI
  ⟨0x5C, 0x0, 1, .rs, 0xA01, 0xFF01, 0xFF01, 0x0, 0, false, [.mk 8 8 (.rng [(1, 255)])]⟩, -- TELEM_CTRL
  ⟨0x60, 0x0, 1, .ro, 0x0, 0xFFFF0001, 0x0, 0x0, 0, false, []⟩, -- TELEM_STAT
  ⟨0x64, 0x0, 1, .w1s, 0x0, 0x3, 0x3, 0x0, 0, true, []⟩, -- ENERGY_CMD
  ⟨0x68, 0x0, 1, .rs, 0x0, 0x7, 0x7, 0x0, 0, false, [.mk 0 3 (.rng [(0, 4)])]⟩, -- BENT_STATE
  ⟨0x6C, 0x0, 1, .ro, 0x0, 0xF, 0x0, 0x0, 0, false, []⟩, -- BENT_STAT
  ⟨0x70, 0x0, 1, .ro, 0x0, 0xFFFFFFFF, 0x0, 0x0, 0, false, []⟩, -- WAKE_LATE_COUNT
  ⟨0x74, 0x0, 1, .ro, 0x0, 0xFFFFFFFF, 0x0, 0x0, 0, false, []⟩, -- EST_EXCEED_COUNT
  ⟨0x80, 0x0, 1, .ro, 0xC80, 0xFFFFFFFF, 0x0, 0x0, 0, false, []⟩, -- COEF_DRV
  ⟨0x84, 0x0, 1, .ro, 0xC80, 0xFFFFFFFF, 0x0, 0x0, 0, false, []⟩, -- COEF_PRB
  ⟨0x88, 0x0, 1, .ro, 0x7D0, 0xFFFFFFFF, 0x0, 0x0, 0, false, []⟩, -- COEF_FLX
  ⟨0x8C, 0x0, 1, .ro, 0x320, 0xFFFFFFFF, 0x0, 0x0, 0, false, []⟩, -- COEF_CAP
  ⟨0x90, 0x0, 1, .ro, 0x5DC, 0xFFFFFFFF, 0x0, 0x0, 0, false, []⟩, -- COEF_VEC
  ⟨0x100, 0x4, 13, .rs, 0x640004, 0xFFFF003F, 0xFFFF003F, 0x0, 0, false, [.mk 0 2 (.rng [(0, 2)]), .mk 4 2 (.rng [(0, 2)]), .mk 16 16 (.rng [(1, 65535)])]⟩, -- GRPg_CTRL
  ⟨0x140, 0x4, 13, .ro, 0x8, 0xF, 0x0, 0x0, 0, false, []⟩ -- GRPg_STAT
  ]

/-- Register rows of the pace table. -/
def paceRows : List RegRow := [
  ⟨0x40, 0x0, 1, .rs, 0x501, 0xFF01, 0xFF01, 0x0, 0, false, [.mk 8 8 (.rng [(0, 50)])]⟩, -- PACE_CTRL
  ⟨0x44, 0x0, 1, .ro, 0x0, 0x70F, 0x0, 0x0, 0, false, []⟩, -- PACE_STAT
  ⟨0x48, 0x0, 1, .ro, 0x320, 0xFFFFFFFF, 0x0, 0x0, 0, false, []⟩, -- VCORE_SET
  ⟨0x4C, 0x0, 1, .ro, 0x0, 0xFFFFFFFF, 0x0, 0x0, 0, false, []⟩, -- VCORE_MEAS
  ⟨0x50, 0x0, 1, .rs, 0x320, 0xFFFFFFFF, 0xFFFFFFFF, 0x0, 0, false, []⟩, -- VMAX
  ⟨0x54, 0x0, 1, .rs, 0x226, 0xFFFFFFFF, 0xFFFFFFFF, 0x0, 0, false, []⟩, -- VMIN
  ⟨0x58, 0x0, 1, .ro, 0x0, 0xFFFFFFFF, 0x0, 0x0, 0, false, []⟩, -- PACE_MIN
  ⟨0x5C, 0x0, 1, .ro, 0x0, 0xFFFFFFFF, 0x0, 0x0, 0, false, []⟩, -- PACE_NOW
  ⟨0x60, 0x0, 1, .ro, 0x0, 0xFFFFFFFF, 0x0, 0x0, 0, false, []⟩, -- SHORT_COUNT
  ⟨0x64, 0x0, 1, .ro, 0x0, 0xFFFFFFFF, 0x0, 0x0, 0, false, []⟩, -- SHORT_TIME
  ⟨0x68, 0x0, 1, .w1s, 0x0, 0x1, 0x1, 0x0, 0, true, []⟩ -- PACE_CMD
  ]

/-- Register rows of the ledger table. -/
def ledgerRows : List RegRow := [
  ⟨0x40, 0x0, 1, .rs, 0x0, 0xFFFFFFFF, 0xFFFFFFFF, 0x0, 0, false, []⟩, -- CAP
  ⟨0x44, 0x0, 1, .rs, 0x186A0, 0xFFFFFFFF, 0xFFFFFFFF, 0x0, 0, false, [.mk 0 32 (.rng [(1000, 4000000000)])]⟩, -- RESERVOIR
  ⟨0x48, 0x0, 1, .rs, 0x2710, 0xFFFFFFFF, 0xFFFFFFFF, 0x0, 0, false, []⟩, -- BG_RESERVE
  ⟨0x4C, 0x0, 1, .rs, 0x1, 0x1, 0x1, 0x0, 0, false, []⟩, -- LEDGER_CTRL
  ⟨0x50, 0x0, 1, .ro, 0x0, 0xFFFFFFFF, 0x0, 0x0, 1, false, []⟩, -- CREDIT_LO
  ⟨0x54, 0x0, 1, .ro, 0x0, 0xFFFFFFFF, 0x0, 0x0, 0, false, []⟩, -- CREDIT_HI
  ⟨0x58, 0x0, 1, .ro, 0x0, 0xFFFFFFFF, 0x0, 0x0, 1, false, []⟩, -- COMMITTED_LO
  ⟨0x5C, 0x0, 1, .ro, 0x0, 0xFFFFFFFF, 0x0, 0x0, 0, false, []⟩, -- COMMITTED_HI
  ⟨0x60, 0x0, 1, .ro, 0x0, 0xFFFFFFFF, 0x0, 0x0, 1, false, []⟩, -- MARGIN_LO
  ⟨0x64, 0x0, 1, .ro, 0x0, 0xFFFFFFFF, 0x0, 0x0, 0, false, []⟩, -- MARGIN_HI
  ⟨0x68, 0x0, 1, .ro, 0x0, 0xFFFFFFFF, 0x0, 0x0, 1, false, []⟩, -- E_PKG_LO
  ⟨0x6C, 0x0, 1, .ro, 0x0, 0xFFFFFFFF, 0x0, 0x0, 0, false, []⟩, -- E_PKG_HI
  ⟨0x70, 0x0, 1, .ro, 0x0, 0xFFFFFFFF, 0x0, 0x0, 0, false, []⟩, -- P_PKG
  ⟨0x74, 0x0, 1, .ro, 0x0, 0xFFFFFFFF, 0x0, 0x0, 0, false, []⟩, -- ADMIT_COUNT
  ⟨0x78, 0x0, 1, .ro, 0x0, 0xFFFFFFFF, 0x0, 0x0, 0, false, []⟩, -- DEFER_COUNT
  ⟨0x7C, 0x0, 1, .ro, 0x0, 0xFFFFFFFF, 0x0, 0x0, 0, false, []⟩, -- WARN_COUNT
  ⟨0x80, 0x0, 1, .ro, 0x0, 0xFFFFFFFF, 0x0, 0x0, 0, false, []⟩, -- OVERDRAW_TIME
  ⟨0x84, 0x0, 1, .rs, 0x0, 0x7, 0x7, 0x0, 0, false, [.mk 0 3 (.rng [(0, 0), (3, 4)])]⟩, -- PKG_STATE
  ⟨0x88, 0x0, 1, .ro, 0x0, 0xF, 0x0, 0x0, 0, false, []⟩ -- PKG_STAT
  ]

/-- Register rows of the fliud table. -/
def fliudRows : List RegRow := [
  ⟨0x40, 0x0, 1, .rs, 0x0, 0xFFFFFFFF, 0xFFFFFFFF, 0x0, 0, false, []⟩, -- EXPORT_LO
  ⟨0x44, 0x0, 1, .rs, 0x0, 0xFFFFFFFF, 0xFFFFFFFF, 0x0, 0, false, []⟩, -- EXPORT_HI
  ⟨0x48, 0x0, 1, .ro, 0x0, 0xFFFFFFFF, 0x0, 0x0, 0, false, []⟩, -- IMPORT_MISS_COUNT
  ⟨0x4C, 0x0, 1, .w1s, 0x0, 0x1, 0x1, 0x0, 0, true, []⟩, -- FLIUD_CMD
  ⟨0x100, 0x80, 2, .rs, 0x1A500, 0x1F7F1, 0x1F7F1, 0x1F7F1, 0, false, [.mk 4 7 (.rng [(40, 100)])]⟩, -- PORTk_CTRL
  ⟨0x104, 0x80, 2, .ro, 0x0, 0xFF7FFF, 0x0, 0x0, 0, false, []⟩, -- PORTk_STAT
  ⟨0x108, 0x80, 2, .w1s, 0x0, 0x7, 0x7, 0x0, 0, true, []⟩, -- PORTk_CMD
  ⟨0x10C, 0x80, 2, .ro, 0x0, 0xFFFFFFFF, 0x0, 0x0, 0, false, []⟩, -- PORTk_CRC_COUNT
  ⟨0x110, 0x80, 2, .ro, 0x0, 0xFFFFFFFF, 0x0, 0x0, 0, false, []⟩, -- PORTk_RETX_COUNT
  ⟨0x114, 0x80, 2, .ro, 0x0, 0xFFFFFFFF, 0x0, 0x0, 0, false, []⟩, -- PORTk_VDROP_COUNT
  ⟨0x118, 0x80, 2, .ro, 0x0, 0xFFFFFFFF, 0x0, 0x0, 0, false, []⟩, -- PORTk_RETRAIN_COUNT
  ⟨0x11C, 0x80, 2, .ro, 0x0, 0xFFFFFFFF, 0x0, 0x0, 0, false, []⟩, -- PORTk_DELAY
  ⟨0x120, 0x80, 2, .ro, 0x0, 0xFFFFFFFF, 0x0, 0x0, 0, false, []⟩, -- PORTk_OFFSET
  ⟨0x124, 0x4, 4, .rs, 0x0, 0xFFFFFFFF, 0xFFFFFFFF, 0x0, 0, false, []⟩, -- PORT0_ASYMm
  ⟨0x1A4, 0x4, 4, .rs, 0x0, 0xFFFFFFFF, 0xFFFFFFFF, 0x0, 0, false, []⟩, -- PORT1_ASYMm
  ⟨0x134, 0x80, 2, .ro, 0x0, 0xFFFFFFFF, 0x0, 0x0, 0, false, []⟩, -- PORTk_EYE
  ⟨0x200, 0x4, 64, .rs, 0x0, 0x3FFFF, 0x3FFFF, 0x0, 0, false, []⟩ -- IMPe
  ]

/-- Register rows of the purlin table. -/
def purlinRows : List RegRow := [
  ⟨0x40, 0x0, 1, .ro, 0x0, 0xFFFFFF07, 0x0, 0x0, 0, false, []⟩, -- PURLIN_STAT
  ⟨0x44, 0x0, 1, .rs, 0x1, 0x1, 0x1, 0x0, 0, false, []⟩, -- PURLIN_CTRL
  ⟨0x48, 0x0, 1, .w1s, 0x0, 0x3, 0x3, 0x0, 0, true, []⟩, -- PURLIN_CMD
  ⟨0x4C, 0x0, 1, .ro, 0x0, 0xFFFFFFFF, 0x0, 0x0, 0, false, []⟩, -- MISMATCH_COUNT
  ⟨0x50, 0x0, 1, .ro, 0x0, 0xFFFFFFFF, 0x0, 0x0, 0, false, []⟩, -- LOSS_COUNT
  ⟨0x100, 0x4, 8, .ro, 0x0, 0xFFFFFFFF, 0x0, 0x0, 0, false, []⟩, -- SKEWb
  ⟨0x120, 0x4, 8, .ro, 0x0, 0xFFFFFFFF, 0x0, 0x0, 0, false, []⟩ -- PHASEb
  ]

/-- Register rows of the hier table. -/
def hierRows : List RegRow := [
  ⟨0x40, 0x0, 1, .rs, 0x32A00002, 0xFFF1FF1F, 0xFFF1FF1F, 0x0, 0, false, [.mk 20 4 (.rng [(4, 15)]), .mk 24 8 (.rng [(1, 255)])]⟩, -- HIER_CTRL
  ⟨0x44, 0x0, 1, .ro, 0x0, 0x3FFFF, 0x0, 0x0, 0, false, []⟩, -- HIER_STAT
  ⟨0x48, 0x0, 1, .ro, 0x0, 0xFFFFFF, 0x0, 0x0, 0, false, []⟩, -- CAND
  ⟨0x4C, 0x0, 1, .w1s, 0x0, 0xF, 0xF, 0x0, 0, true, []⟩, -- HIER_CMD
  ⟨0x50, 0x0, 1, .rw, 0x0, 0x7, 0x7, 0x0, 0, false, []⟩, -- MIG_TARGET
  ⟨0x54, 0x0, 1, .ro, 0x0, 0xFFFFFFFF, 0x0, 0x0, 0, false, []⟩, -- MIG_COUNT
  ⟨0x58, 0x0, 1, .ro, 0x0, 0xFFFFFFFF, 0x0, 0x0, 2, false, []⟩, -- LAST_MIG_PT_LO
  ⟨0x5C, 0x0, 1, .ro, 0x0, 0xFFFFFFFF, 0x0, 0x0, 0, false, []⟩, -- LAST_MIG_PT_MID
  ⟨0x60, 0x0, 1, .ro, 0x0, 0xFFFF, 0x0, 0x0, 0, false, []⟩, -- LAST_MIG_PT_HI
  ⟨0x64, 0x0, 1, .ro, 0x0, 0xFFFFFFFF, 0x0, 0x0, 0, false, []⟩, -- FABRIC_PARITY_COUNT
  ⟨0x68, 0x0, 1, .ro, 0x0, 0xFFFFFFFF, 0x0, 0x0, 0, false, []⟩, -- TT_OFFSET
  ⟨0x6C, 0x0, 1, .ro, 0x0, 0xFFFFFFFF, 0x0, 0x0, 0, false, []⟩, -- TT_DELAY
  ⟨0x70, 0x0, 1, .rw, 0x0, 0xFF, 0xFF, 0x0, 0, false, []⟩, -- RACC_PKG
  ⟨0x74, 0x0, 1, .rw, 0x0, 0x3FFFFFC, 0x3FFFFFC, 0x0, 0, false, []⟩, -- RACC_ADDR
  ⟨0x78, 0x0, 1, .rw, 0x0, 0xFFFFFFFF, 0xFFFFFFFF, 0x0, 0, false, []⟩, -- RACC_DATA
  ⟨0x7C, 0x0, 1, .w1s, 0x0, 0x3, 0x3, 0x0, 0, true, []⟩, -- RACC_CMD
  ⟨0x80, 0x0, 1, .ro, 0x0, 0xF, 0x0, 0x0, 0, false, []⟩, -- RACC_STAT
  ⟨0x84, 0x0, 1, .ro, 0x0, 0xFFFFFFFF, 0x0, 0x0, 0, false, []⟩ -- CHILDREN
  ]

/-- Register rows of the header table. -/
def headerRows : List RegRow := [
  ⟨0x0, 0x0, 1, .ro, 0x0, 0xFFFFFFFF, 0x0, 0x0, 0, false, []⟩, -- PAGE_ID
  ⟨0x4, 0x0, 1, .ro, 0x0, 0xFFFFFFFF, 0x0, 0x0, 0, false, []⟩, -- PAGE_CAP
  ⟨0x8, 0x0, 1, .rw, 0x0, 0x30F, 0x30F, 0x0, 0, true, []⟩, -- PAGE_CTRL
  ⟨0xC, 0x0, 1, .ro, 0x0, 0xFFF7F, 0x0, 0x0, 0, false, []⟩, -- PAGE_STAT
  ⟨0x10, 0x0, 1, .ro, 0x0, 0xFFFFFFFF, 0x0, 0x0, 0, false, []⟩, -- EVT_RAW_LO
  ⟨0x14, 0x0, 1, .ro, 0x0, 0xFFFFFFFF, 0x0, 0x0, 0, false, []⟩, -- EVT_RAW_HI
  ⟨0x18, 0x0, 1, .rw, 0x0, 0xFFFFFFFF, 0xFFFFFFFF, 0x0, 0, true, []⟩, -- EVT_EN_LO
  ⟨0x1C, 0x0, 1, .rw, 0x0, 0xFFFFFFFF, 0xFFFFFFFF, 0x0, 0, true, []⟩, -- EVT_EN_HI
  ⟨0x20, 0x0, 1, .w1c, 0x0, 0xFFFFFFFF, 0xFFFFFFFF, 0x0, 0, true, []⟩, -- EVT_PEND_LO
  ⟨0x24, 0x0, 1, .w1c, 0x0, 0xFFFFFFFF, 0xFFFFFFFF, 0x0, 0, true, []⟩, -- EVT_PEND_HI
  ⟨0x28, 0x0, 1, .wo, 0x0, 0xFFFFFFFF, 0xFFFFFFFF, 0x0, 0, true, []⟩, -- EVT_FORCE_LO
  ⟨0x2C, 0x0, 1, .wo, 0x0, 0xFFFFFFFF, 0xFFFFFFFF, 0x0, 0, true, []⟩, -- EVT_FORCE_HI
  ⟨0x30, 0x0, 1, .wo, 0x0, 0x8000000F, 0x8000000F, 0x0, 0, true, []⟩, -- COMMIT
  ⟨0x34, 0x0, 1, .ro, 0x0, 0xFFFFFFFF, 0x0, 0x0, 0, false, []⟩, -- COMMIT_STAT
  ⟨0x38, 0x0, 1, .ro, 0x0, 0xFFFFFFFF, 0x0, 0x0, 0, false, []⟩ -- PAGE_SEQ
  ]

/-- Register rows of the events table. -/
def eventsRows : List RegRow := [
  ⟨0x40, 0x0, 1, .rw, 0x0, 0xFFFFF000, 0xFFFFF000, 0x0, 0, false, []⟩, -- EVR_BASE_LO
  ⟨0x44, 0x0, 1, .rw, 0x0, 0xFFFFFFFF, 0xFFFFFFFF, 0x0, 0, false, []⟩, -- EVR_BASE_HI
  ⟨0x48, 0x0, 1, .rw, 0x0, 0x1F, 0x1F, 0x0, 0, false, [.mk 0 5 (.rng [(0, 0), (6, 16)])]⟩, -- EVR_SIZE
  ⟨0x4C, 0x0, 1, .rw, 0x640000, 0xFFFF0001, 0xFFFF0001, 0x0, 0, false, []⟩, -- EVR_CTRL
  ⟨0x50, 0x0, 1, .rw, 0x0, 0xFFFFFFFF, 0xFFFFFFFF, 0x0, 0, false, [.mk 0 32 (.mult 8 0 4294967295)]⟩, -- EVR_WB_LO
  ⟨0x54, 0x0, 1, .rw, 0x0, 0xFFFFFFFF, 0xFFFFFFFF, 0x0, 0, false, []⟩, -- EVR_WB_HI
  ⟨0x58, 0x0, 1, .ro, 0x0, 0xFFFFFFFF, 0x0, 0x0, 0, false, []⟩, -- EVR_WR
  ⟨0x5C, 0x0, 1, .rw, 0x0, 0xFFFFFFFF, 0xFFFFFFFF, 0x0, 0, false, []⟩, -- EVR_RD
  ⟨0x60, 0x0, 1, .ro, 0x0, 0xFFFFFFFF, 0x0, 0x0, 0, false, []⟩, -- EVR_LOST
  ⟨0x64, 0x0, 1, .rw, 0x7F, 0x17F, 0x17F, 0x0, 0, false, []⟩, -- FAULT_CTRL
  ⟨0x68, 0x0, 1, .ro, 0x0, 0x17F, 0x0, 0x0, 0, false, []⟩, -- FAULT_STAT
  ⟨0x6C, 0x0, 1, .rw, 0x0, 0x1, 0x1, 0x0, 0, true, []⟩, -- SIDE_CTRL
  ⟨0x70, 0x0, 1, .ro, 0x0, 0xFF, 0x0, 0x0, 0, false, []⟩, -- SIDE_STAT
  ⟨0x74, 0x0, 1, .w1s, 0x0, 0x1, 0x1, 0x0, 0, true, []⟩, -- EVENTS_CMD
  ⟨0x100, 0x4, 48, .rw, 0x0, 0x107FF, 0x107FF, 0x0, 0, false, []⟩, -- PVECp
  ⟨0x1C0, 0x4, 6, .rw, 0x201, 0x107FF, 0x107FF, 0x0, 0, false, []⟩, -- PKGVECq
  ⟨0x400, 0x40, 16, .rw, 0x6400, 0xFFFFFF7F, 0xFFFFFF7F, 0x0, 0, false, [.mk 8 8 (.rng [(1, 255)])]⟩, -- DMAe_CTRL
  ⟨0x404, 0x40, 16, .ro, 0x0, 0xF7, 0x0, 0x0, 0, false, []⟩, -- DMAe_STAT
  ⟨0x408, 0x40, 16, .rw, 0x0, 0xFFFFF000, 0xFFFFF000, 0x0, 0, false, []⟩, -- DMAe_RING_BASE_LO
  ⟨0x40C, 0x40, 16, .rw, 0x0, 0xFFFFFFFF, 0xFFFFFFFF, 0x0, 0, false, []⟩, -- DMAe_RING_BASE_HI
  ⟨0x410, 0x40, 16, .rw, 0x4, 0x1F, 0x1F, 0x0, 0, false, [.mk 0 5 (.rng [(4, 16)])]⟩, -- DMAe_RING_SIZE
  ⟨0x414, 0x40, 16, .rw, 0x0, 0xFFFFFFFF, 0xFFFFFFFF, 0x0, 0, true, []⟩, -- DMAe_HEAD
  ⟨0x418, 0x40, 16, .ro, 0x0, 0xFFFFFFFF, 0x0, 0x0, 0, false, []⟩, -- DMAe_TAIL
  ⟨0x41C, 0x40, 16, .ro, 0x0, 0xFFFFFFFF, 0x0, 0x0, 1, false, []⟩, -- DMAe_BYTES_LO
  ⟨0x420, 0x40, 16, .ro, 0x0, 0xFFFFFFFF, 0x0, 0x0, 0, false, []⟩, -- DMAe_BYTES_HI
  ⟨0x424, 0x40, 16, .ro, 0x0, 0xFFFFFFFF, 0x0, 0x0, 0, false, []⟩, -- DMAe_DROP_COUNT
  ⟨0x428, 0x40, 16, .ro, 0x0, 0xFFFFFFFF, 0x0, 0x0, 0, false, []⟩, -- DMAe_ERR_COUNT
  ⟨0x42C, 0x40, 16, .w1s, 0x0, 0x3, 0x3, 0x0, 0, true, []⟩ -- DMAe_CMD
  ]

/-- Register rows of the foreman table. -/
def foremanRows : List RegRow := [
  ⟨0x40, 0x0, 1, .ro, 0x0, 0xFFFF0003, 0x0, 0x0, 0, false, []⟩, -- FM_STAT
  ⟨0x44, 0x0, 1, .ro, 0x0, 0xFFFFFFFF, 0x0, 0x0, 0, false, []⟩, -- FM_UPTIME
  ⟨0x48, 0x0, 1, .wo, 0x0, 0x800000FF, 0x800000FF, 0x0, 0, true, []⟩, -- MBX_CMD
  ⟨0x4C, 0x0, 1, .rw, 0x0, 0xFFFFFFFF, 0xFFFFFFFF, 0x0, 0, false, []⟩, -- MBX_ARG0
  ⟨0x50, 0x0, 1, .rw, 0x0, 0xFFFFFFFF, 0xFFFFFFFF, 0x0, 0, false, []⟩, -- MBX_ARG1
  ⟨0x54, 0x0, 1, .rw, 0x0, 0xFFF, 0xFFF, 0x0, 0, false, [.mk 0 12 (.rng [(0, 2048)])]⟩, -- MBX_LEN
  ⟨0x58, 0x0, 1, .ro, 0x0, 0xFF03, 0x0, 0x0, 0, false, []⟩, -- MBX_STAT
  ⟨0x5C, 0x0, 1, .ro, 0x0, 0xFFFFFFFF, 0x0, 0x0, 0, false, []⟩, -- MBX_RESULT
  ⟨0x800, 0x4, 512, .rw, 0x0, 0xFFFFFFFF, 0xFFFFFFFF, 0x0, 0, false, []⟩ -- MBX_DATA
  ]

/-- Register rows of the ident table. -/
def identRows : List RegRow := [
  ⟨0x40, 0x0, 1, .ro, 0x0, 0xF, 0x0, 0x0, 0, false, []⟩, -- ID_STAT
  ⟨0x44, 0x0, 1, .rw, 0x0, 0x107, 0x107, 0x0, 0, false, []⟩, -- CERT_SEL
  ⟨0x48, 0x0, 1, .ro, 0x0, 0xFFF, 0x0, 0x0, 0, false, []⟩, -- CERT_LEN
  ⟨0x4C, 0x0, 1, .ro, 0x0, 0xFFFFFFFF, 0x0, 0x0, 0, false, []⟩, -- KEY_ID_LO
  ⟨0x50, 0x0, 1, .ro, 0x0, 0xFFFFFFFF, 0x0, 0x0, 0, false, []⟩, -- KEY_ID_HI
  ⟨0x54, 0x0, 1, .ro, 0x0, 0xFFFFFFFF, 0x0, 0x0, 0, false, []⟩, -- SIGN_SEQ
  ⟨0x58, 0x0, 1, .rw, 0x0, 0xF, 0xF, 0x0, 0, false, [.mk 0 4 (.rng [(0, 8)])]⟩, -- LOCK_SEL
  ⟨0x5C, 0x0, 1, .ro, 0x0, 0xFFFFFFFF, 0x0, 0x0, 0, false, []⟩, -- LOCK_MAP_LO
  ⟨0x60, 0x0, 1, .ro, 0x0, 0xFFFFFFFF, 0x0, 0x0, 0, false, []⟩, -- LOCK_MAP_HI
  ⟨0x64, 0x0, 1, .w1s, 0x0, 0x3, 0x3, 0x0, 0, true, []⟩, -- OWNER_CMD
  ⟨0x68, 0x0, 1, .ro, 0x0, 0xFFFFFF, 0x0, 0x0, 0, false, []⟩, -- BOOT_STAT
  ⟨0x6C, 0x0, 1, .ro, 0x0, 0xFFFFFFFF, 0x0, 0x0, 0, false, []⟩, -- ATTEST_COUNT
  ⟨0x80, 0x4, 12, .rw, 0x0, 0xFFFFFFFF, 0xFFFFFFFF, 0x0, 0, false, []⟩, -- OWNER_HASHw
  ⟨0x800, 0x4, 512, .ro, 0x0, 0xFFFFFFFF, 0x0, 0x0, 0, false, []⟩ -- CERT_DATA
  ]

/-- Register rows of the bent table. -/
def bentRows : List RegRow := [
  ⟨0x40, 0x0, 1, .ro, 0x0, 0xFFF3F, 0x0, 0x0, 0, false, []⟩, -- BENT_INFO
  ⟨0x44, 0x0, 1, .ro, 0x0, 0x1F, 0x0, 0x0, 0, false, []⟩, -- BENT_ROLE
  ⟨0x48, 0x0, 1, .ro, 0x0, 0xFF01, 0x0, 0x0, 0, false, []⟩, -- BIST_RESULT
  ⟨0x4C, 0x0, 1, .ro, 0x0, 0xFFFFFFFF, 0x0, 0x0, 0, false, []⟩, -- DIE_TEMP
  ⟨0x50, 0x0, 1, .rs, 0x690, 0xFFFFFFFF, 0xFFFFFFFF, 0x0, 0, false, []⟩, -- TEMP_HI
  ⟨0x54, 0x0, 1, .rs, 0xFFFFFD80, 0xFFFFFFFF, 0xFFFFFFFF, 0x0, 0, false, []⟩, -- TEMP_LO
  ⟨0x58, 0x0, 1, .rs, 0x7D0, 0xFFFFFFFF, 0xFFFFFFFF, 0x0, 0, false, []⟩, -- TEMP_CRIT
  ⟨0x5C, 0x0, 1, .ro, 0x0, 0xF, 0x0, 0x0, 0, false, []⟩, -- RAIL_STAT
  ⟨0x60, 0x0, 1, .ro, 0x0, 0xFFFFFFFF, 0x0, 0x0, 0, false, []⟩, -- LOCKED_PAGES
  ⟨0x64, 0x0, 1, .rw, 0x0, 0xFFFFFFFF, 0xFFFFFFFF, 0x0, 0, false, []⟩ -- SCRATCH
  ]

/-- Register rows of the pkg table. -/
def pkgRows : List RegRow := [
  ⟨0x40, 0x0, 1, .ro, 0x0, 0xFFFFFFFF, 0x0, 0x0, 0, false, []⟩, -- PKG_INFO
  ⟨0x44, 0x0, 1, .ro, 0x0, 0x107FFFF, 0x0, 0x0, 0, false, []⟩, -- PKG_STAT
  ⟨0x48, 0x0, 1, .ro, 0x0, 0xFFFFFFFF, 0x0, 0x0, 0, false, []⟩, -- SERIAL_LO
  ⟨0x4C, 0x0, 1, .ro, 0x0, 0xFFFFFFFF, 0x0, 0x0, 0, false, []⟩, -- SERIAL_HI
  ⟨0x50, 0x0, 1, .ro, 0x0, 0xFFFFFFFF, 0x0, 0x0, 0, false, []⟩, -- CFG_SEQ
  ⟨0x54, 0x0, 1, .ro, 0x0, 0x7FFFF, 0x0, 0x0, 0, false, []⟩, -- TEMP_MAX
  ⟨0x58, 0x0, 1, .ro, 0x0, 0xFFFFFFFF, 0x0, 0x0, 0, false, []⟩, -- VAUX_MEAS
  ⟨0x5C, 0x0, 1, .ro, 0x0, 0xFFFFFFFF, 0x0, 0x0, 0, false, []⟩, -- VHOLD_MEAS
  ⟨0x60, 0x0, 1, .ro, 0x0, 0x3, 0x0, 0x0, 0, false, []⟩, -- PWR_STAT
  ⟨0x64, 0x0, 1, .ro, 0x0, 0xFFFFFFFF, 0x0, 0x0, 0, false, []⟩, -- PWR_FAIL_COUNT
  ⟨0x68, 0x0, 1, .rw, 0x0, 0xFFFFFFFF, 0xFFFFFFFF, 0x0, 0, false, []⟩ -- PKG_SCRATCH
  ]

/-- The rows of a page's own table (the common header of R369 is `headerRows`). -/
def PageKind.rows : PageKind → List RegRow
  | .time => timeRows
  | .timebase => timebaseRows
  | .sill => sillRows
  | .edge => edgeRows
  | .seq => seqRows
  | .segment => segmentRows
  | .tone => toneRows
  | .probe => probeRows
  | .flux => fluxRows
  | .cap => capRows
  | .stamp => stampRows
  | .freq => freqRows
  | .cal => calRows
  | .shimstore => shimstoreRows
  | .continuity => continuityRows
  | .energy => energyRows
  | .pace => paceRows
  | .ledger => ledgerRows
  | .fliud => fliudRows
  | .purlin => purlinRows
  | .hier => hierRows
  | .events => eventsRows
  | .foreman => foremanRows
  | .ident => identRows
  | .bent => bentRows
  | .pkg => pkgRows

/-- Does the row hold a register at offset `off`? -/
def RegRow.holds (r : RegRow) (off : Nat) : Bool :=
  if r.count = 1 then off == r.base
  else decide (r.base ≤ off) && decide (off < r.base + r.stride * r.count) && (off - r.base) % r.stride == 0

/-- The row of a page kind that holds a register at an offset; none at a reserved offset. -/
def PageKind.row? (k : PageKind) (off : Nat) : Option RegRow :=
  if off < 0x40 then headerRows.find? (·.holds off) else k.rows.find? (·.holds off)

end Sys2Proof.Machine
end

