-- ==== Sys2Proof/Machine/State.lean ====
section
/-!
DEFINITION. Machine/State.lean: the state of the package as plain data, the reasons a command can stop, and the state
right after reset.

A register lives in `regs` (in force) and, if it is staged, in `shadow` (as last written), keyed by its BAR0 byte offset
(R366); a register no write has moved from its reset value is not listed. A status bit that the rules compute from other
state is computed when it is read (Machine/Flags.lean) and has no second home here.
-/

namespace Sys2Proof.Machine

/-- Why a command stops the block. No meaning of this model faults. Safe. -/
inductive Fault where
  /-- An access to state that does not exist. Raised by no command: R367 and R368 give every such access a meaning. -/
  | noSuchState
  deriving DecidableEq, Repr

/-- Why a command is turned away with no meaning. -/
inductive Refusal where
  /-- A command that has no meaning yet (raised by its arm of `exec`). Safe. -/
  | notModelled (mnemonic : String)
  deriving DecidableEq, Repr

/-- The three package sizes (R1). -/
inductive Variant where
  | gy2 | gy4 | gy8
  deriving DecidableEq, Repr

/-- The number of bents of a variant (R1). -/
def Variant.bents : Variant → Nat
  | .gy2 => 2
  | .gy4 => 4
  | .gy8 => 8

/-- Peg time and the lattice (R24–R31): the package's PT, whether it has started, N, and the origin O. -/
structure Clk where
  now : Nat
  running : Bool
  n : Nat
  o : Nat
  deriving DecidableEq, Repr

/-- PT and the lattice in reset: not started, at the nominal N of 1 600 (R26, R30). -/
def Clk.reset : Clk := { now := 0, running := false, n := 1600, o := 0 }

/-- PT starts at 0 at a tick of the lattice (R30). -/
def Clk.start (c : Clk) : Clk := { c with now := 0, running := true, o := 0 }

/-- One staged field of a commit's snapshot: the register, the staged word, and whether it was written since the last
commit request (R372). -/
structure Staged where
  addr : Nat
  val : Word
  dirty : Bool
  deriving DecidableEq, Repr

/-- A pending commit: its page, its kind, the instant it was requested, the instant before which it cannot apply because an
earlier one had not, and its snapshot (R372). -/
structure Commit where
  page : Nat
  kind : Nat
  at_ : Nat
  from_ : Nat
  snap : List Staged
  deriving DecidableEq, Repr

/-- The shot that issued a peg: the sequencer (bent × 16 + s) and the shot number. -/
structure Owner where
  seq : Nat
  shot : Nat
  deriving DecidableEq, Repr

/-- A peg (R38): its PT, its payload, the shot that issued it (none for a command's or a trigger's peg), and whether a
trigger issued it (R104). -/
structure Peg where
  pt : Nat
  payload : Nat
  owner : Option Owner
  trig : Bool
  deriving DecidableEq, Repr

/-! ### Edge channels -/

/-- A running edge effect (R100): its first transition, its period and width, the number of pulses (none for a clock
that nothing has stopped), whether it is a clock, its owner, and whether a trigger issued it. -/
structure EdgeEff where
  start : Nat
  period : Nat
  width : Nat
  count : Option Nat
  clock : Bool
  owner : Option Owner
  trig : Bool
  deriving DecidableEq, Repr

/-- An edge channel beside its registers: the level before the running effect, the running effect, the last transition
made, the instant the driver moves the pin to its rest level, whether the driver drives, from when on, and until when after a
mode change (R118), the end of sensing (R113) and whether sensing enables the channel, the end of the hold after a disable
(R116), while the channel drains the instant the drain was written (R117), the instants from which it was armed and disarmed
last (R107), the last D0 or D1 of its vector stream (R164), the sequencer of the last effect applied on it, and the end of the
last window of the adaptive threshold (R111). -/
structure EdgeSt where
  base : Bool
  eff : Option EdgeEff
  lastTrans : Option Nat
  restAt : Option Nat
  driving : Bool
  onAt : Nat
  offAt : Option Nat
  senseEnd : Option Nat
  senseLive : Bool
  holdEnd : Option Nat
  drainAt : Option Nat
  armAt : Nat
  disarmAt : Nat
  dk : Option Bool
  drv : Option Nat
  thrAt : Nat
  deriving DecidableEq, Repr

/-- An edge channel in reset: driver high-impedance, nothing running (R115). -/
def EdgeSt.init : EdgeSt :=
  { base := false, eff := none, lastTrans := none, restAt := none, driving := false, onAt := 0, offAt := none,
    senseEnd := none, senseLive := false, holdEnd := none, drainAt := none, armAt := 0, disarmAt := 0, dk := none,
    drv := none, thrAt := 0 }

/-! ### Sequencers and shots -/

/-- A stack frame (R142): a loop with its own step address and the passes left, or a return address. -/
inductive Frame where
  | loop (addr left : Nat)
  | call (ret : Nat)
  deriving DecidableEq, Repr

/-- One run of a program (R137, R297): what its tally entry will hold, and what decides when it is written. `fillOnly`:
a FILL underrun (R168) is its only cause of void so far. `cutPt`: the void PT from which its pegs and effects have been ended
(R46). `energy`: the converter energy attributed to it so far, in nJ / 2^16 (R317). -/
structure Shot where
  num : Nat
  start : Nat
  admitAt : Nat
  entry : Nat
  seed : Nat
  snap : Nat
  flags : Nat
  est : Nat
  replays : Nat
  frameEnd : Bool
  stretchG : Nat
  branchPath : Nat
  branchCount : Nat
  lateVerdicts : Nat
  states : Nat
  verdicts : Nat
  timedOut : Bool
  voidPt : Option Nat
  noReplay : Bool
  fillOnly : Bool
  cutPt : Option Nat
  poison : Option Nat
  cEnd : Nat
  effEnd : Nat
  energy : Nat
  deriving DecidableEq, Repr

/-- A verdict as the fabric carries it (R230): its ID, its byte, and the tick in which its window ended. -/
structure VRec where
  vid : Nat
  byte : Nat
  endTick : Nat
  serial : Nat
  deriving DecidableEq, Repr

/-- A verdict that has reached a sequencer, with its arrival tick (R139). -/
structure Arrival where
  rec_ : VRec
  tick : Nat
  deriving DecidableEq, Repr

/-- Where a sequencer stands between its commands. -/
inductive SeqPhase where
  | halted      -- stopped
  | estimating  -- the static walk of R147 runs
  | planned     -- the next S is known, admission not yet answered
  | trigWait    -- waits for a trigger to give S (R134)
  | inShot      -- executes steps
  | voidWait    -- its shot was voided; waits for C_void (R299)
  | gateHold    -- waits at a commit boundary (R138)
  | halting     -- ends once its shots are resolved (R148)
  | parked      -- waits for UNPARK (R78)
  deriving DecidableEq, Repr

/-- A sequencer beside its registers (R128). `cur` is a fetched step that has not executed; `next` is the S planned for the
next shot and `orig` the S it had before any deferral (R319); `last` is the S of the last admitted shot; `heard` holds the
trigger edges that have reached the sequencer, by source and stamp (R141); grid points before index `skipTo` have been counted
(R134). -/
structure SeqSt where
  phase : SeqPhase
  stepAddr : Nat
  cursor : Nat
  stack : List Frame
  prng : Nat
  chain : Nat
  trigQ : List Nat
  cur : Option Nat
  curAddr : Nat
  shot : Option Shot
  tail : List Shot
  owed : List Shot
  next : Option Nat
  orig : Nat
  deferred : Bool
  moved : Bool
  gap : Nat
  cEnd : Nat
  last : Option Nat
  first : Bool
  frameOpen : Bool
  shotsRun : Nat
  haltReq : Bool
  drained : Bool
  faulted : Bool
  unbounded : Bool
  admitWait : Bool
  runAheadWait : Bool
  awaitWait : Bool
  syncWait : Bool
  entry : Nat
  firstPt : Nat
  seedInit : Nat
  snapCfg : Nat
  progBase : Nat
  progEnd : Nat
  snapSlot : Nat
  snapP : Option (List Word)
  est : Nat
  moveReq : Bool
  parkReq : Bool
  lastNum : Nat
  arrivals : List Arrival
  heard : List (Nat × Nat)
  skipTo : Nat
  deriving DecidableEq, Repr

/-- A sequencer in reset: halted, no shot, cursor 0. -/
def SeqSt.init : SeqSt :=
  { phase := .halted, stepAddr := 0, cursor := 0, stack := [], prng := 0, chain := 0, trigQ := [], cur := none,
    curAddr := 0, shot := none, tail := [], owed := [], next := none, orig := 0, deferred := false, moved := false,
    gap := 0, cEnd := 0, last := none, first := false, frameOpen := false, shotsRun := 0, haltReq := false,
    drained := false, faulted := false, unbounded := false, admitWait := false, runAheadWait := false,
    awaitWait := false, syncWait := false, entry := 0, firstPt := 0, seedInit := 0, snapCfg := 0, progBase := 0, progEnd := 0, snapSlot := 0,
    snapP := none, est := 0, moveReq := false, parkReq := false, lastNum := 0, arrivals := [],
    heard := [], skipTo := 0 }

/-- A barrier of R143: the COUNT it was joined with and, for each sequencer waiting, its cursor and its timeout. -/
structure Barrier where
  count : Nat
  waiting : List (Nat × Nat × Nat)
  deriving DecidableEq, Repr

/-! ### Host side: events, vectors, host memory as the device has written it -/

/-- A vector's holdoff (R378): the instant it ends, and whether a trigger fell within it. -/
structure Holdoff where
  until_ : Nat
  again : Bool
  deriving DecidableEq, Repr

/-- Events and interrupts: raised sources (key page × 64 + bit), latched and standing health codes (key page × 256 + code),
the event ring's counts and pending GAP (R376), vectors in holdoff, the MSI-X table's words and pending bits, the messages
sent on each vector, FAULT_N as last driven and whether the foreman has evaluated it (R379), the FAULT_N categories that stand
for a reason held outside the health codes (key category × 64 + bent), host memory as the device has written it, in 32-bit
words, and the frames in which a worker has sent its own event records and host-stream records up the tree (R357). -/
structure EvSt where
  raw : KSet
  latched : KSet
  standing : KSet
  wr : Nat
  lost : Nat
  rseq : Nat
  gap : Bool
  losing : Bool
  holdoff : SMap (Option Holdoff)
  msix : SMap Word
  pba : KSet
  sent : SMap Nat
  faultN : Bool
  faultOn : Bool
  cats : KSet
  perstLow : Bool
  host : SMap Word
  up : Nat
  upBulk : Nat
  deriving DecidableEq, Repr

/-! ### DMA engines -/

/-- A descriptor the host has made available (R381): its words 0–2 as the engine read them, the bytes placed so far, and
the marks of word 3 gathered so far. -/
structure Desc where
  w0 : Nat
  w1 : Nat
  w2 : Nat
  filled : Nat
  sor : Bool
  eor : Bool
  poison : Bool
  gap : Bool
  deriving DecidableEq, Repr

/-- A DMA engine beside its registers: the descriptors from TAIL to HEAD − 1, the instant of its last record (for FLUSH,
R382), and whether a record was dropped since the last one placed. -/
structure DmaSt where
  descs : List Desc
  lastRec : Nat
  gap : Bool
  deriving DecidableEq, Repr

/-- A DMA engine in reset. -/
def DmaSt.init : DmaSt := { descs := [], lastRec := 0, gap := false }

/-! ### Tones, flux channels and their DACs -/

/-- A pulse on a tone or flux lane (R183, R189): its start, its natural end, the start of its taper, its payload with the
shape descriptor and the data words of its shape above it (R182), the shot that issued it, and the stream that plays it. -/
structure Pulse where
  start : Nat
  stop : Nat
  taper : Option Nat
  payload : Nat
  owner : Option Owner
  stream : Option Nat
  deriving DecidableEq, Repr

/-- A tone or flux lane beside its registers: the pulse, the frame phase Θ (R180), and the instant its drain was
written (R191). -/
structure ToneSt where
  pulse : Option Pulse
  theta : Nat
  drainAt : Option Nat
  deriving DecidableEq, Repr

/-- A tone lane in reset: idle, Θ = 0 (R180). -/
def ToneSt.init : ToneSt := { pulse := none, theta := 0, drainAt := none }


/-! ### Segment streams -/

/-- A fill (R168): the boundary at which the missing ring granule was due, its number, once it is written the instant of the
write, the fill segment's descriptor, the boundary at which a committed jump ends the fill, and a further fill that follows
it after ring granules: its boundary, the number of its missing granule, the instant of that one's write, and the descriptor. -/
structure Fill where
  from_ : Nat
  j : Nat
  avail : Option Nat
  desc : Nat
  jumpAt : Option Nat
  next : Option (Nat × Nat × Option Nat × Nat)
  deriving DecidableEq, Repr

/-- A segment stream beside its registers (R154–R169): the segment playing and its descriptor as committed, the segment's
first boundary (of an idle stream, the PT of the peg whose descriptor is already committed), its end boundary E (later
by each fill granule), the ring granules of it taken, the boundary of the last one, the loop stack (segment, plays
left), the pending jump (P, segment), the successor decided at the commit horizon (none: the chain ends; else segment,
descriptor, and whether a jump starts it), the owning shot, RING_RD at the chain's start, the ring data that owned
chains have taken and not released (owner, start, end), the fill, the instant at which the stream ends early, whether it
drains, whether WATERMARK may be raised, configuration that waits for the stream to be idle (STRn_CFG, RING_BASE, RING_SIZE,
FILL_SEG, VEC_STROBE), granules that have played or were about to when the stream stopped, newest first (boundary and BAR2
address of the data), the instant of an early stop, from which vectors hold X, and the granules of the segment looked
through for poison. -/
structure StreamSt where
  seg : Option Nat
  desc : Nat
  segStart : Nat
  endPt : Nat
  taken : Nat
  tookAt : Nat
  stack : List (Nat × Nat)
  jump : Option (Nat × Nat)
  succ : Option (Option (Nat × Nat × Bool))
  owner : Option Owner
  ringStart : Nat
  ringUse : List (Owner × Nat × Nat)
  fill : Option Fill
  endAt : Option Nat
  drain : Bool
  wmArmed : Bool
  heldCfg : Option (List Nat)
  recent : List (Nat × Nat)
  cutAt : Option Nat
  seen : Nat
  deriving DecidableEq, Repr

/-- A stream in reset: idle. -/
def StreamSt.init : StreamSt :=
  { seg := none, desc := 0, segStart := 0, endPt := 0, taken := 0, tookAt := 0, stack := [], jump := none, succ := none,
    owner := none, ringStart := 0, ringUse := [], fill := none, endAt := none, drain := false, wmArmed := false,
    heldCfg := none, recent := [], cutAt := none, seen := 0 }

/-! ### Capture inputs -/

/-- The settings of a demodulator as a window latches them at its first sample (R213): its number and the words of
DEMd_CTRL, FREQ, PHASE, WEIGHT, BND0, BND0_C, BND1, BND1_C and CONF, and the weight shape's descriptor unless it is
invalid (R212). -/
structure Demod where
  d : Nat
  ctrl : Nat
  freq : Nat
  phase : Nat
  weight : Nat
  bnd0 : Nat
  bnd0c : Nat
  bnd1 : Nat
  bnd1c : Nat
  conf : Nat
  shape : Option Nat
  deriving DecidableEq, Repr

/-- A window (R208): the PT of its first sample, its length in samples, the mask and STORE of its request, the
demodulators that take part, and what its record will flag. `peg` is its place in the order of acceptance (R209). -/
structure Window where
  first : Nat
  len : Nat
  mask : Nat
  store : Nat
  demods : List Demod
  late : Bool
  injected : Bool
  trunc : Bool
  ovr : Bool
  suspect : Bool
  coasted : Bool
  warming : Bool
  peg : Nat
  owner : Option Owner
  deriving DecidableEq, Repr

/-- A window that waits (R209, R211): the instant p, the earliest instant of its first sample, LEN, mask, STORE, its place
in the order of acceptance, its owner, whether it starts late, whether it is counted as late already, and whether QUEUE
holds it. -/
structure HeldWin where
  p : Nat
  from_ : Nat
  len : Nat
  mask : Nat
  store : Nat
  peg : Nat
  owner : Option Owner
  late : Bool
  counted : Bool
  queued : Bool
  deriving DecidableEq, Repr

/-- Continuous capture (R219): the first sample of its next block, the settings latched at its start, the instant before
which its last sample falls, whether a disable cuts it, what the block's record will flag, and the shot that started it. -/
structure Cont where
  next : Nat
  src : Nat
  demod : Nat
  dest : Nat
  dec : Nat
  stop : Option Nat
  cut : Bool
  ovr : Bool
  suspect : Bool
  coasted : Bool
  warming : Bool
  owner : Option Owner
  deriving DecidableEq, Repr

/-- A slice rotation (R205): the role that leaves the stream (0 EVEN, 1 ODD), the shadow blocks seen, whether the swap of
step 3 is done, whether a vote ordered it (R204), and the instant from which the swap may follow (R205, R206). -/
structure Rotation where
  role : Nat
  blocks : Nat
  swapped : Bool
  spared : Bool
  ready : Nat
  deriving DecidableEq, Repr

/-- A capture input beside its registers (R201–R224): its windows, the windows held, the first sample of an injected
conversion not yet started, continuous capture, the instant of its drain, the
GAP its next record carries, the rotation in progress, whether one has been asked for, the role that left last, the
results of the vote so far (against EVEN, against ODD), the order of acceptance, the instant of the last rotation, ring geometry
that waits (R224), and the PT of the last sample and the place in the ring of each record of the last shadow block (R203). -/
structure CapSt where
  wins : List Window
  held : List HeldWin
  inj : Option Nat
  cont : Option Cont
  drainAt : Option Nat
  gap : Bool
  rot : Option Rotation
  rotReq : Bool
  lastRole : Nat
  vote : Option (Option Bool × Option Bool)
  seqNo : Nat
  lastRot : Nat
  ringHeld : Option (Nat × Nat)
  recs : List (Nat × Nat)
  deriving DecidableEq, Repr

/-- A capture input in reset: nothing runs. -/
def CapSt.init : CapSt :=
  { wins := [], held := [], inj := none, cont := none, drainAt := none, gap := false, rot := none, rotReq := false,
    lastRole := 1, vote := none, seqNo := 0, lastRot := 0, ringHeld := none, recs := [] }

/-! ### Time-interval units, frequency engines, stamp inputs -/

/-- A time-interval unit beside its registers (R243–R248): whether a series runs, the arming instant of the measurement,
the candidate start and stop stamps, the sum of x and of x², and the results of the series as far as no register holds
them, the smallest and largest x, the owning shot, the timebase conditions gathered (R252), and the first start stamp. -/
structure Tiu where
  armed : Bool
  arm : Nat
  starts : List Nat
  stops : List Nat
  sum : Int
  sumSq : Int
  least : Int
  most : Int
  count : Nat
  owner : Option Owner
  tb : Nat
  firstStart : Option Nat
  draining : Bool
  deriving DecidableEq, Repr

/-- A unit in reset: not armed. -/
def Tiu.init : Tiu :=
  { armed := false, arm := 0, starts := [], stops := [], sum := 0, sumSq := 0, least := 0, most := 0,
    count := 0, owner := none, tb := 0,
    firstStart := none, draining := false }

/-- A running or finished gate (R249, R250): its interval, the numbering of its stamps, the accumulators, the flags, the
owning shot, and the timebase conditions gathered. -/
structure Gate where
  start : Nat
  stop : Nat
  p0 : Nat
  decim : Nat
  t0 : Option Nat
  tPrev : Nat
  nPrev : Int
  nFirst : Int
  nLast : Int
  m : Nat
  sn : Int
  snn : Int
  sr : Int
  snr : Int
  srr : Int
  range : Bool
  limit : Bool
  trunc : Bool
  gapped : Bool
  late : Bool
  owner : Option Owner
  tb : Nat
  deriving DecidableEq, Repr

/-- A frequency engine beside its registers: the open gate, the gates whose results are not ready yet (oldest first), and
whether continuous gating drains. -/
structure Fre where
  gate : Option Gate
  done : List Gate
  draining : Bool
  deriving DecidableEq, Repr

/-- An engine in reset: no gate. -/
def Fre.init : Fre := { gate := none, done := [], draining := false }

/-- A stamp input beside its registers: the instant of its last stamped edge, the number of its stamps, the laths' recent
exclusions (stamp number and lath of each), the withdrawn lath and the instant of its withdrawal. -/
structure StampIn where
  last : Option Nat
  num : Nat
  excl : List (Nat × Nat)
  withdrawn : Option (Nat × Nat)
  deriving DecidableEq, Repr

/-- A stamp input in reset. -/
def StampIn.init : StampIn := { last := none, num := 0, excl := [], withdrawn := none }


/-! ### Calibration and the trim store -/

/-- A shim point (R278, R281): its temperature in 1/16 °C, the PT and PT_GEN of its writing, whether it was written at
manufacture, and, unless it was, its elements by instance (key item × 256 + instance). -/
structure ShimPoint where
  temp : Int
  pt : Nat
  gen : Nat
  factory : Bool
  vals : SMap (List Int)
  deriving DecidableEq, Repr

/-- A copy of the trim store (R281): whether its CRCs hold, its sequence number and its points, by temperature. -/
structure TrimCopy where
  valid : Bool
  seq : Nat
  points : List ShimPoint
  deriving DecidableEq, Repr

/-- The five factory points of every trim store (R278). -/
def factoryPoints : List ShimPoint :=
  [-640, 0, 640, 1360, 2000].map fun t => { temp := t, pt := 0, gen := 0, factory := true, vals := [] }

/-- A copy as the factory leaves it (log entry 20). -/
def TrimCopy.made (seq : Nat) : TrimCopy := { valid := true, seq := seq, points := factoryPoints }

/-- A calibrated instance beside its registers (R263–R277): consecutive rejections, the flags of ITEM_STAT, the PT and
temperature of its last acceptance, the instant its age counts from, δ, the instant a correction that waits was
submitted, the start of the last operation on it, and a measurement that a running store holds. -/
structure CalInst where
  rejects : Nat
  faulty : Bool
  lowconf : Bool
  stale : Bool
  acc : Option Nat
  temp : Option Int
  since : Nat
  delta : List Int
  pend : Option Nat
  ran : Nat
  held : Option (List Int)
  applied : Option (List Int)
  wasDelta : Option (List Int)
  deriving DecidableEq, Repr

/-- An instance before its first measurement. -/
def CalInst.init : CalInst :=
  { rejects := 0, faulty := false, lowconf := false, stale := false, acc := none, temp := none, since := 0, delta := [],
    pend := none, ran := 0, held := none, applied := none, wasDelta := none }

/-- A background operation (R270): its class (R266: 0 EDGE, 1 STAMP, 2 CAPTURE, 3 DAC, 4 FLUX, 5 SILL), its item and
instance (of an engine calibration, item 0 and the channel), the step of R271 it stands in, the instant that step began,
the items of it that have ended, and its cost. -/
structure BgOp where
  cls : Nat
  item : Nat
  inst : Nat
  step : Nat
  since : Nat
  done : List Nat
  cost : Nat
  deriving DecidableEq, Repr

/-- The calibration of a bent beside its registers: the two copies and whether the factory copy holds, the working set,
the background operations, the instant of the last RUN_PASS, the instance RUN_ITEM named, the instant of the first lock,
whether the items N run after a relock, the copy being written and the start of its writing, a STORE that waits, the next
automatic store, and the temperatures of the last 100 samples. -/
structure CalSt where
  copyA : TrimCopy
  copyB : TrimCopy
  factoryOk : Bool
  work : List ShimPoint
  ops : List BgOp
  passAt : Nat
  next : Option (Nat × Nat)
  lockAt : Option Nat
  relock : Bool
  prep : Option TrimCopy
  storeAt : Nat
  storeReq : Bool
  autoAt : Option Nat
  temps : List Int
  deriving DecidableEq, Repr

/-- A bent's trim store as the factory leaves it, before its foreman starts. -/
def CalSt.init : CalSt :=
  { copyA := TrimCopy.made 2, copyB := TrimCopy.made 1, factoryOk := true, work := [], ops := [], passAt := 0, next := none,
    lockAt := none, relock := false, prep := none, storeAt := 0, storeReq := false, autoAt := none, temps := [] }


/-! ### Timebase and sills -/

/-- The timebase beside its registers: the source a switch goes to (R57 steps 1–3), the source that was lost when no other
was qualified (R56), the instant OCXO_READY rose while it is high and whether the OCXO is settled (R60), the anchor of
the discipline's grid and the sum of its errors (R63), the expected PPS edge (R37), a relock in progress: NEXT_N and, once
the ridge's sill has locked, that instant (R89), with whether outputs hold during it and its acceptance, the instant since
which each source passes its activity and specific tests (R52), the duty cycle of each in per cent (R68), and what moves the
expected instant of an update (R69): the offset of the corrections summed up to `offAt`, in 10^−15 kerf, the discipline
correction at `offAt` and its target in 10^−15, the steering offset at `offAt` in 10^−12, and of a joined worker
the offset of time transfer, in kerfs: where it was at `treeAt` and where it goes (R354). -/
structure Tb where
  switchTo : Option Nat
  lost : Option Nat
  ready : Option Nat
  settled : Bool
  anchor : Option Nat
  sumE : Int
  ppsNext : Option Nat
  relock : Option (Nat × Option Nat)
  relockHold : Bool
  relockAt : Nat
  since : SMap (Option Nat)
  duty : SMap Nat
  offAcc : Int
  offAt : Nat
  discFrom : Int
  discTo : Int
  steer : Int
  treeFrom : Int
  treeTo : Int
  treeAt : Nat
  deriving DecidableEq, Repr

/-- The timebase in reset. -/
def Tb.init : Tb :=
  { switchTo := none, lost := none, ready := none, settled := false, anchor := none, sumE := 0, ppsNext := none,
    relock := none, relockHold := false, relockAt := 0, since := [], duty := [], offAcc := 0, offAt := 0, discFrom := 0,
    discTo := 0, steer := 0, treeFrom := 0, treeTo := 0, treeAt := 0 }

/-- A phase error that is being removed after a coast (R79): when that began, in kerfs of PT, with the SLEW_MAX, PULL_AT_IDLE
and PHASE_RATE it goes by. -/
structure Pull where
  at_ : Nat
  slew : Nat
  idle : Bool
  rate : Nat
  deriving DecidableEq, Repr

/-- The update a sill counts its phase from (R69): its instant, the updates since, and the offset that applied at it, in
10^−15 kerf. -/
structure PhaseRef where
  inst : Nat
  count : Nat
  off : Int
  deriving DecidableEq, Repr

/-- A sill beside its registers: the windows within LOCK_TOL and beyond UNLOCK_TOL counted so far, whether the last window was
within LOCK_TOL, whether its comparator has fired and waits for a judgement (R73, R74), the start of its reacquisition after a
fault (R81), the start of its coast, and whether UNPARK has switched the policy of the coast to CONTINUE (R78), the update its
phase is counted from (R69), the integrator of its filter in 2^−32 of a word step (R70), the control words of its last
updates, newest first (R76), its last update with the offset that applied at it, the instant of its last good one, the
temperature at the freeze (R76), a pull, the instant PHASE_LEFT was last put (R83), and the trim that nulls the shadow's
output, in 2^−32 of 1/16 kerf (R75). -/
structure Sill where
  good : Nat
  bad : Nat
  lastOk : Bool
  fired : Bool
  acq : Option Nat
  coastAt : Nat
  goOn : Bool
  ref : Option PhaseRef
  integ : Int
  words : List Nat
  lastUpd : Option (Nat × Int)
  goodUpd : Option Nat
  coastTemp : Int
  pull : Option Pull
  phaseAt : Nat
  trim : Int
  deriving DecidableEq, Repr

/-- A sill in reset. -/
def Sill.init : Sill :=
  { good := 0, bad := 0, lastOk := false, fired := false, acq := none, coastAt := 0, goOn := false, ref := none, integ := 0,
    words := [], lastUpd := none, goodUpd := none, coastTemp := 0, pull := none, phaseAt := 0, trim := 0 }

/-- A sill output beside its registers (R84, R85), its instants in quarter kerfs: the edge from which it runs, the instant of
its stop, the divider before its last change with the instant of the change, the delay it had at the last change of SOn_DLY,
with the PT of that change, and the instant from which a relock holds it (R89). -/
structure SillOut where
  startAt : Option Nat
  stopAt : Option Nat
  oldDiv : Nat
  divAt : Nat
  dlyFrom : Nat
  dlyAt : Nat
  heldAt : Option Nat
  deriving DecidableEq, Repr

/-- An output in reset: static (R86). -/
def SillOut.init : SillOut :=
  { startAt := none, stopAt := none, oldDiv := 0, divAt := 0, dlyFrom := 0, dlyAt := 0, heldAt := none }


/-! ### Ridge, purlin and tree -/

/-- A migration in progress (R338–R340): the new ridge, whether loss of the old one caused it, whether the old one is
fenced after it (R304), and the instant of its decision. -/
structure Mig where
  target : Nat
  loss : Bool
  fence : Bool
  since : Nat
  deriving DecidableEq, Repr

/-- What the peer of a port reports once it has trained (R345, R349): its package number, N, its level in the tree, and the
ordinal of its mortise. -/
structure Peer where
  pkg : Nat
  n : Nat
  level : Nat
  ordinal : Nat
  deriving DecidableEq, Repr

/-- The tree beside its registers: whether a ridge has been elected, whether a bent has qualified as a candidate, the
migration in progress, the last heartbeat, a skew measurement that runs (1 for RESKEW, 2 after a migration), the last
marker of each follower that passed its test (R342), the followers that coast for a mismatch, the instant a join began and
whether 2^TT_AVG exchanges have been averaged since (R349), the instant a remote access began and whether it reads (R357),
and HIER_CTRL fields that wait for JOINED to be 0 (R360). -/
structure Tree where
  elected : Bool
  seen : Bool
  mig : Option Mig
  lastHb : Nat
  skew : Nat
  marker : SMap Nat
  mism : KSet
  join : Option Nat
  avg : Bool
  racc : Option (Nat × Bool)
  heldCtrl : Option Nat
  deriving DecidableEq, Repr

/-- The tree in reset. -/
def Tree.init : Tree :=
  { elected := false, seen := false, mig := none, lastHb := 0, skew := 0, marker := [], mism := [], join := none,
    avg := false, racc := none, heldCtrl := none }

/-- A Fliud port beside its registers: its peer, the lanes that failed their last training, the lanes a retraining has
still to take and the lane it has out of service (R352), the same for an asymmetry calibration (R355), the exchanges
averaged so far with the sums of 2θ and 2δ (R354), the last frame number of each class (R351), the CRC errors attributed to
lanes within the last ms (lane, instant: R352), and the last microsecond in which it started an exchange (R354). -/
structure Port where
  peer : Option Peer
  failed : Nat
  todo : Nat
  lane : Option Nat
  asymTodo : Nat
  asym : Option Nat
  n : Nat
  sumT : Int
  sumD : Int
  frames : SMap Nat
  errs : List (Nat × Nat)
  timed : Nat
  deriving DecidableEq, Repr

/-- A port in reset. -/
def Port.init : Port :=
  { peer := none, failed := 0, todo := 0, lane := none, asymTodo := 0, asym := none, n := 0, sumT := 0, sumD := 0,
    frames := [], errs := [], timed := 0 }

/-! ### Energy, pace and temperature -/

/-- The meters of a bent (R315, R316): the energy of VCORE, VDAC, VANA and VIO since POR and that of the current millisecond, in
nJ / 2^16, the gain corrections in force in 2^−16, the telemetry reads that failed in a row, the instant the slowest sensor
rose above 1.05 T (R329), the instant of the last raise of VCORE, the groups whose FORCE was cleared and that have not woken
yet, as a mask (R326), the last telemetry read that succeeded with the rails' energy at it (R316), and the last microsecond
whose sensor counts were taken (R329). -/
structure Meter where
  rails : List Nat
  acc : Nat
  gain : List Int
  fails : Nat
  above : Option Nat
  raised : Option Nat
  unforced : Nat
  read : Option (Nat × List Nat)
  paced : Nat
  deriving DecidableEq, Repr

/-- A bent's meters at POR. -/
def Meter.init : Meter :=
  { rails := [0, 0, 0, 0], acc := 0, gain := [0, 0, 0, 0], fails := 0, above := none, raised := none, unforced := 0,
    read := none, paced := 0 }

/-- The package account (R315, R318, R320, R322) beside its registers: the fraction of C below a microjoule, the
package energy since POR and that of the current millisecond, in nJ / 2^16, the microseconds of that millisecond, the
microseconds with C < 0 not yet counted, the instant from which M has stayed below 0, whether LOW_MARGIN has been raised for
it, and the last microsecond of PT accounted for. -/
structure Account where
  frac : Nat
  used : Nat
  acc : Nat
  us : Nat
  overUs : Nat
  lowAt : Option Nat
  lowDone : Bool
  upd : Nat
  deriving DecidableEq, Repr

/-- The account at POR. -/
def Account.init : Account :=
  { frac := 0, used := 0, acc := 0, us := 0, overUs := 0, lowAt := none, lowDone := false, upd := 0 }

/-! ### Foremen, boot flash, mailbox and attestation -/

/-- A mailbox command that runs (R387): its OP, its arguments and its data. -/
structure Mbx where
  op : Nat
  arg0 : Nat
  arg1 : Nat
  len : Nat
  data : List Byte
  deriving DecidableEq, Repr

/-- The foremen and what they keep (R281, R308, R309, R396–R398, R426): whether they have started since the last reset, the
bents whose self-test has ended, the bank each bent runs, the instants their foremen started or stopped, the instant each
foreman's restart began, the bent a firmware switch has reached with the bank it goes to, bytes of the boot flash that the
part has written, banks erased and not written since (0, 1), images and copies left invalid (banks 0 and 1, copies 2 and 3),
image lengths that FW_CLOSE gave, the owner key hash stored and the bents whose foreman has started with it, whether its
removal waits for POR, preloads that wait for step 5 of R425, and the mailbox commands that run. -/
structure Boot where
  up : Bool
  bisted : KSet
  banks : SMap Nat
  startAt : SMap Nat
  downAt : SMap (Option Nat)
  switch : Option (Nat × Nat)
  flash : SMap (Option Byte)
  erased : KSet
  bad : KSet
  lens : SMap (Option Nat)
  owner : Option (List Word)
  ownerOn : KSet
  clear : Bool
  preloads : List (Nat × Word)
  mbx : SMap (Option Mbx)
  deriving DecidableEq, Repr

/-- The foremen of a new part in POR: bank 0 everywhere. -/
def Boot.init : Boot :=
  { up := false, bisted := [], banks := [], startAt := [], downAt := [], switch := none, flash := [], erased := [],
    bad := [], lens := [], owner := none, ownerOn := [], clear := false, preloads := [], mbx := [] }

/-- An answer of the ridge over SPDM (R392, R393): the content, in the order the rules name it. -/
inductive Answer where
  | version (v : Nat)
  | capabilities (cert chal meas signed : Bool)
  | algorithms (p384 sha384 : Bool)
  | digests (slot0 : List Byte)
  | certificate (der : List Byte)
  | challenge (digest sig : List Byte)
  | measurements (blocks : List (Nat × List Byte)) (sig : List Byte)
  | error
  deriving DecidableEq, Repr

/-- An SPDM exchange (R392): the stage it has reached (1 version, 2 capabilities, 3 algorithms) and the last answer. -/
structure Spdm where
  stage : Nat
  answer : Option Answer
  deriving DecidableEq, Repr


/-! ### The whole package -/

/-- The state of the package. `pending` is the queue of commands that wait, first in, first out. -/
structure State where
  pending : List Instr
  variant : Variant
  clk : Clk
  regs : SMap Word
  shadow : SMap Word
  dirty : KSet
  latch : SMap Word
  hold : SMap Word
  commits : List Commit
  ev : EvSt
  mem : SMap Byte
  poison : KSet
  queues : SMap (List Peg)
  flight : SMap (List Peg)
  edges : SMap EdgeSt
  seqs : SMap SeqSt
  barriers : SMap (Option Barrier)
  verdicts : List VRec
  serial : Nat
  ridge : Nat
  pkgNum : Nat
  ptGen : Nat
  dmas : SMap DmaSt
  tones : SMap ToneSt
  touched : SMap Nat
  dacHold : SMap (Option Nat)
  dacAt : SMap Nat
  streams : SMap StreamSt
  failLog : SMap (List (BitVec 64))
  caps : SMap CapSt
  vseen : SMap Nat
  tius : SMap Tiu
  fres : SMap Fre
  stampIns : SMap StampIn
  edgeStamp : SMap (Option Nat)
  recGap : KSet
  signQ : List (Nat × List Byte)
  signSeq : SMap Nat
  recHeld : SMap (Option (Nat × Nat))
  drainPt : SMap (Option Nat)
  wakes : SMap (Option Nat)
  cals : SMap CalSt
  calInsts : SMap CalInst
  tb : Tb
  sills : SMap Sill
  takeovers : SMap (Option (Nat × Bool))
  souts : SMap SillOut
  ptOff : SMap Int
  tree : Tree
  ports : SMap Port
  meters : SMap Meter
  account : Account
  boot : Boot
  spdm : Spdm
  tunnels : SMap Nat
  tempOff : KSet
  readyOff : Bool
  free : Nat
  deriving DecidableEq, Repr

/-- Everything after reset but the clock's generation and what the reset keeps. -/
def State.fresh (v : Variant) : State :=
  { pending := [], variant := v, clk := Clk.reset,
    regs := [], shadow := [], dirty := [], latch := [], hold := [], commits := [],
    ev := { raw := [], latched := [], standing := [], wr := 0, lost := 0, rseq := 0, gap := false, losing := false,
            holdoff := [], msix := [], pba := [], sent := [], faultN := false, faultOn := false, cats := [], perstLow := false,
            host := [], up := 0, upBulk := 0 },
    mem := [], poison := [], queues := [], flight := [], edges := [], seqs := [], barriers := [], verdicts := [],
    serial := 0, ridge := 0, pkgNum := 0, ptGen := 0,
    dmas := [],
    tones := [], touched := [], dacHold := [], dacAt := [],
    streams := [], failLog := [],
    caps := [], vseen := [],
    tius := [], fres := [], stampIns := [], edgeStamp := [], recGap := [], signQ := [], signSeq := [], recHeld := [],
    drainPt := [], wakes := [],
    cals := [], calInsts := [],
    tb := Tb.init, sills := [], takeovers := [], souts := [], ptOff := [],
    tree := Tree.init, ports := [], meters := [], account := Account.init, boot := Boot.init,
    spdm := { stage := 0, answer := none }, tunnels := [], tempOff := [], readyOff := false,
    free := 0 }

/-- The machine right after reset (R7, R310), before the foremen start: a GY-8 (log entry 2). -/
def State.reset : State := State.fresh .gy8

end Sys2Proof.Machine
end

