-- ==== Sys2Proof/Machine/Ops.lean ====
section
/-!
DEFINITION. Machine/Ops.lean: the operations every command shares: pages and registers, Peg time, health codes, events
and interrupts, and the BAR2 memories.
-/

namespace Sys2Proof.Machine

/-! ### Pages (R403, R405) -/

/-- The BAR0 offset of page `p` of bent `b` (R366). -/
abbrev bp (b p : Nat) : Nat := b * 0x400000 + p * 0x1000

/-- The BAR0 offset of package page `q` (R405). -/
abbrev pkgp (q : Nat) : Nat := 0x2000000 + q * 0x1000

/-- The BAR0 offset of a page. -/
def pageBase : Page → Nat
  | .bent b p => bp b p
  | .pkg q => pkgp q

/-- A row of the page tables: register table, type code and version, capabilities, reset value of ENABLE, whether
ENABLE is fixed, whether the page can be fenced, and its event sources (R403, R405). -/
structure PageRow where
  kind : PageKind
  id : Nat
  cap : Nat
  enable : Bool
  fixed : Bool
  fence : Bool
  events : Nat
  deriving DecidableEq, Repr

/-- The per-bent pages (R403). -/
def bentPage (p : Nat) : Option PageRow :=
  if p = 0 then some ⟨.bent, 0x00000001, 0x0000002E, true, true, false, 8⟩
  else if p = 1 then some ⟨.sill, 0x00010001, 0x00000010, true, true, false, 10⟩
  else if p = 2 then some ⟨.sill, 0x00010101, 0x00000010, true, true, false, 10⟩
  else if p = 3 then some ⟨.time, 0x00030001, 0x00000040, true, true, false, 6⟩
  else if p < 8 then some ⟨.edge, 0x00040001 + (p - 4) * 0x100, 0x00034008, false, false, true, 16⟩
  else if p < 0xC then some ⟨.tone, 0x00080001 + (p - 8) * 0x100, 0x00200404, false, false, true, 8⟩
  else if p = 0xC then some ⟨.probe, 0x000C0001, 0x00201004, false, false, true, 8⟩
  else if p < 0xF then some ⟨.flux, 0x000D0001 + (p - 0xD) * 0x100, 0x00200008, false, false, true, 8⟩
  else if p = 0xF then some ⟨.segment, 0x000F0001, 0x00040010, false, false, true, 8⟩
  else if p < 0x14 then some ⟨.cap, 0x00100001 + (p - 0x10) * 0x100, 0x00100310, false, false, true, 8⟩
  else if p = 0x14 then some ⟨.stamp, 0x00140001, 0x00040408, false, false, true, 8⟩
  else if p = 0x15 then some ⟨.freq, 0x00150001, 0x00001002, false, false, true, 4⟩
  else if p = 0x16 then some ⟨.cal, 0x00160001, 0x00080013, true, false, true, 8⟩
  else if p = 0x17 then some ⟨.shimstore, 0x00170001, 0x00000008, true, false, true, 4⟩
  else if p = 0x18 then some ⟨.continuity, 0x00180001, 0x04000F10, true, true, false, 6⟩
  else if p = 0x19 then some ⟨.energy, 0x00190001, 0x00000D04, true, true, false, 4⟩
  else if p = 0x1A then some ⟨.pace, 0x001A0001, 0x00000008, true, true, false, 2⟩
  else if p = 0x1B then some ⟨.fliud, 0x001B0001, 0x00040402, true, false, true, 4⟩
  else if p = 0x1C then some ⟨.events, 0x001C0001, 0x08000010, true, false, true, 0⟩
  else if p = 0x1D then some ⟨.foreman, 0x001D0001, 0x00000800, true, true, false, 2⟩
  else if 0x20 ≤ p ∧ p < 0x30 then some ⟨.seq, 0x00200001 + (p - 0x20) * 0x100, 0x00041010, false, false, true, 4⟩
  else none

/-- The package pages (R405). -/
def pkgPage (q : Nat) : Option PageRow :=
  if q = 0 then some ⟨.pkg, 0x01000001, 0x00000006, true, true, false, 8⟩
  else if q = 1 then some ⟨.timebase, 0x01010001, 0x00000003, true, true, false, 8⟩
  else if q = 2 then some ⟨.purlin, 0x01020001, 0x00000008, true, true, false, 4⟩
  else if q = 3 then some ⟨.ledger, 0x01030001, 0x00000001, true, true, false, 4⟩
  else if q = 4 then some ⟨.ident, 0x01040001, 0x00000D08, true, true, false, 2⟩
  else if q = 5 then some ⟨.hier, 0x01050001, 0x00020F10, true, true, false, 6⟩
  else none

/-- Is the offset one of the package window? -/
def isPkg (a : Nat) : Bool := decide (0x2000000 ≤ a)

/-- The bent of a BAR0 offset of a bent window. -/
def bentOf (a : Nat) : Nat := a / 0x400000

/-- The page number of a BAR0 offset. -/
def pageNo (a : Nat) : Nat := if isPkg a then (a - 0x2000000) / 0x1000 else a % 0x400000 / 0x1000

/-- The page of a BAR0 offset, as its base. -/
def pageOf (a : Nat) : Nat := a - a % 0x1000

/-- The page row of a BAR0 offset in a variant; none where nothing is populated (R367). -/
def pageRow? (v : Variant) (a : Nat) : Option PageRow :=
  if isPkg a then (if a < 0x2006000 then pkgPage (pageNo a) else none)
  else if bentOf a < v.bents then bentPage (pageNo a) else none

/-- The register row of a BAR0 offset; none at a reserved or unpopulated offset. -/
def regRow? (v : Variant) (a : Nat) : Option RegRow :=
  match pageRow? v a with
  | none => none
  | some pr => if a % 4 = 0 then pr.kind.row? (a % 0x1000) else none

/-- The tile indices of a bent (R407): i and j. -/
def tileOf (v : Variant) (b : Nat) : Nat × Nat :=
  match v with
  | .gy2 => (0, b)
  | .gy4 => (b / 2, b % 2)
  | .gy8 => (b / 4, b % 4)

/-- PKG_INFO of a variant (R409). -/
def pkgInfo : Variant → Nat
  | .gy2 => 0x4702A112
  | .gy4 => 0x4704A124
  | .gy8 => 0x4708A138

/-- The power cap a variant resets to, in milliwatts (R333). -/
def maxPower : Variant → Nat
  | .gy2 => 0x128E0
  | .gy4 => 0x24220
  | .gy8 => 0x474A0

/-- The reset value of a register (R7): the one its table gives, with the values that differ from page to page. -/
def resetNat (v : Variant) (a : Nat) : Nat :=
  let off := a % 0x1000
  match pageRow? v a with
  | none => 0
  | some pr =>
    if off = 0 then pr.id
    else if off = 4 then pr.cap
    else if off = 8 then b2n pr.enable
    else if a % 4 ≠ 0 then 0
    else
      match pr.kind.row? off with
      | none => 0
      | some r =>
        match pr.kind with
        | .sill => if off = Off.SILL_SILL_CTRL ∧ pageNo a = 2 then 0x1A4 else r.reset
        | .seq => if off = Off.SEQ_SNAP_CFG then 0x4001F000 + 0x100 * (pageNo a - 0x20) else r.reset
        | .cap => if off = Off.CAP_RING_BASE then 0x200000 * (pageNo a - 0x10) else r.reset
        | .events =>
          if 0x100 ≤ off ∧ off < 0x1C0 then 1 + 64 * bentOf a + (off - 0x100) / 4
          else if 0x1C0 ≤ off ∧ off < 0x1D8 then 0x201 + (off - 0x1C0) / 4
          else r.reset
        | .bent =>
          if off = Off.BENT_BENT_INFO then
            bentOf a + 8 * (tileOf v (bentOf a)).1 + 16 * (tileOf v (bentOf a)).2 + 0xA100 + v.bents * 0x10000
          else r.reset
        | .timebase => if off = Off.TIMEBASE_SRC_STAT then 3 else r.reset
        | .pkg => if off = Off.PKG_PKG_INFO then pkgInfo v else if off = Off.PKG_PWR_STAT then 1 else r.reset
        | .ledger => if off = Off.LEDGER_CAP then maxPower v else if off = Off.LEDGER_CREDIT_LO then 0x186A0 else r.reset
        | .pace => if off = Off.PACE_PACE_MIN then 1200 else r.reset
        | _ => r.reset

/-- The reset word of a register. -/
def resetWord (v : Variant) (a : Nat) : Word := BitVec.ofNat 32 (resetNat v a)

/-- Registers that every bent's window shows alike stand once, at bent 0: the event ring, FAULT_CTRL and PKGVECq of the
EVENTS page (R385), and the PPS registers of the TIME page (R36). -/
def canon (a : Nat) : Nat :=
  let off := a % 0x1000
  if isPkg a then a
  else if pageNo a = 0x1C ∧ ((0x40 ≤ off ∧ off < 0x6C) ∨ (0x1C0 ≤ off ∧ off < 0x1D8)) then a % 0x400000
  else if pageNo a = 3 ∧ 0x74 ≤ off ∧ off < 0x88 then a % 0x400000
  else a

/-! ### Registers in force -/

/-- The word a register holds in force. -/
def State.reg (s : State) (a : Nat) : Word := mapGet (resetWord s.variant) s.regs a

/-- The register in force, as a number. -/
def State.rd (s : State) (a : Nat) : Nat := (s.reg a).toNat

/-- Bits [lo + len - 1 : lo] of a register in force. -/
def State.fld (s : State) (a lo len : Nat) : Nat := bits (s.rd a) lo len

/-- One bit of a register in force. -/
def State.bit (s : State) (a i : Nat) : Bool := bitAt (s.rd a) i

/-- Put a word in force. -/
def State.setReg (s : State) (a : Nat) (w : Word) : State :=
  { s with regs := mapSet (resetWord s.variant) s.regs a w }

/-- Put a number in force. -/
def State.wr (s : State) (a v : Nat) : State := s.setReg a (BitVec.ofNat 32 v)

/-- Put a field in force. -/
def State.setFld (s : State) (a lo len v : Nat) : State := s.wr a (putBits (s.rd a) lo len v)

/-- Put one bit in force. -/
def State.setBit (s : State) (a i : Nat) (b : Bool) : State := s.setFld a i 1 (b2n b)

/-- Add to a saturating count. -/
def State.count (s : State) (a n : Nat) : State := s.wr a (satAdd (s.rd a) n)

/-- A saturating count goes up by one. -/
def State.bump (s : State) (a : Nat) : State := s.count a 1

/-- The value of a `_LO`, `_MID`, `_HI` register. -/
def State.rd80 (s : State) (a : Nat) : Nat := s.rd a + s.rd (a + 4) * 2 ^ 32 + bits (s.rd (a + 8)) 0 16 * 2 ^ 64

/-- Put an 80-bit value in force. -/
def State.wr80 (s : State) (a v : Nat) : State :=
  ((s.wr a (bits v 0 32)).wr (a + 4) (bits v 32 32)).wr (a + 8) (bits v 64 16)

/-- The value of a `_LO`, `_HI` register. -/
def State.rd64 (s : State) (a : Nat) : Nat := s.rd a + s.rd (a + 4) * 2 ^ 32

/-- Put a 64-bit value in force. -/
def State.wr64 (s : State) (a v : Nat) : State := (s.wr a (bits v 0 32)).wr (a + 4) (bits v 32 32)

/-- The staged word of a register (R5: what an RS register reads). -/
def State.staged (s : State) (a : Nat) : Word := mapGet (resetWord s.variant) s.shadow a

/-- Stage a word. -/
def State.setStaged (s : State) (a : Nat) (w : Word) : State :=
  { s with shadow := mapSet (resetWord s.variant) s.shadow a w, dirty := setPut s.dirty a true }

/-- Set several registers to 0 (a CLR_COUNTS command). -/
def State.zero (s : State) (as : List Nat) : State := as.foldl (fun s a => s.wr a 0) s

/-! ### Variant and pages -/

/-- Does the package have bent `b`? -/
def State.has (s : State) (b : Nat) : Bool := decide (b < s.variant.bents)

/-- PAGE_CTRL.ENABLE of a page. -/
def State.enabled (s : State) (pg : Nat) : Bool := s.bit (pg + Off.PG_PAGE_CTRL) 0

/-- PAGE_CTRL.DRAIN of a page. -/
def State.draining (s : State) (pg : Nat) : Bool := s.bit (pg + Off.PG_PAGE_CTRL) 1

/-- PAGE_CTRL.FENCE of a page. -/
def State.fenced (s : State) (pg : Nat) : Bool := s.bit (pg + Off.PG_PAGE_CTRL) 2

/-- PAGE_CTRL.LOCK of a page (R399). -/
def State.locked (s : State) (pg : Nat) : Bool := s.bit (pg + Off.PG_PAGE_CTRL) 8

/-- PAGE_STAT.DRAINED of a page. -/
def State.drained (s : State) (pg : Nat) : Bool := s.bit (pg + Off.PG_PAGE_STAT) 1

/-- Set PAGE_STAT.DRAINED. -/
def State.setDrained (s : State) (pg : Nat) (b : Bool) : State := s.setBit (pg + Off.PG_PAGE_STAT) 1 b

/-! ### Peg time (R24–R31) -/

/-- A PT sum, modulo 2^80 (R24). -/
def ptAdd (p d : Nat) : Nat := (p + d) % 2 ^ 80

/-- Kerfs in a microsecond. -/
def usK : Nat := 16000000

/-- Kerfs in a second. -/
def secK : Nat := 16000000000000

/-- A granule in kerfs (R28). -/
def State.gK (s : State) : Nat := 160 * s.clk.n

/-- The tick of a PT (R27). -/
def State.tick (s : State) (p : Nat) : Nat := (p - s.clk.o) / s.clk.n

/-- The kerf offset of a PT within its tick (R27). -/
def State.ofs (s : State) (p : Nat) : Nat := (p - s.clk.o) % s.clk.n

/-- The PT of a tick boundary (R27). -/
def State.ptOf (s : State) (k : Nat) : Nat := s.clk.o + k * s.clk.n

/-- The first granule boundary at or after a PT (R28). -/
def State.granCeil (s : State) (p : Nat) : Nat :=
  s.clk.o + ceilDiv (p - s.clk.o) s.gK * s.gK

/-- The first granule boundary at or after a PT for a period given in granules from O. -/
def State.now (s : State) : Nat := s.clk.now

/-- The boundary of the tick that holds the present instant: what NOW reads (R48). -/
def State.nowTick (s : State) : Nat := s.ptOf (s.tick s.now)

/-- A command reaches the block at `t`: PT, once started, moves on and never back (R30, R31). -/
def State.arrive (s : State) (t : PT) : State :=
  if s.clk.running then { s with clk := { s.clk with now := max s.clk.now t.toNat } } else s

/-! ### Health codes (R371) -/

/-- Set a latched health code. -/
def State.latchHealth (s : State) (pg code : Nat) : State :=
  { s with ev := { s.ev with latched := setPut s.ev.latched (pg * 256 + code) true } }

/-- HEALTH of a page: the highest code that applies. -/
def State.health (s : State) (pg : Nat) : Nat :=
  ((s.ev.latched ++ s.ev.standing).filter (fun e => e.1 / 256 == pg)).foldl (fun m e => max m (e.1 % 256)) 0

/-- Does a standing code stand on a page? -/
def State.stands (s : State) (pg code : Nat) : Bool := setHas s.ev.standing (pg * 256 + code)

/-! ### Host memory, vectors and events (R370, R374–R379) -/

/-- Write a 32-bit word of host memory. -/
def EvSt.hostWr (e : EvSt) (addr v : Nat) : EvSt :=
  { e with host := mapSet (fun _ => 0) e.host (addr / 4) (BitVec.ofNat 32 v) }

/-- Write a 64-bit word of host memory. -/
def EvSt.hostWr64 (e : EvSt) (addr v : Nat) : EvSt := (e.hostWr addr v).hostWr (addr + 4) (v / 2 ^ 32)

/-- Write bytes of host memory, four at a time. -/
def EvSt.hostBytes (e : EvSt) (addr : Nat) : List Byte → EvSt
  | a :: b :: c :: d :: r => (e.hostWr addr (leNat [a, b, c, d])).hostBytes (addr + 4) r
  | [] => e
  | l => e.hostWr addr (leNat l)

/-- What a word of the MSI-X table reads as before it is written: vector control masked, the rest 0 (log entry 7). -/
def msixReset (i : Nat) : Word := if i % 4 = 3 then 1 else 0

/-- A word of the MSI-X table. -/
def EvSt.msixWord (e : EvSt) (i : Nat) : Nat := (mapGet msixReset e.msix i).toNat

/-- Send a vector's message, or set its pending bit while it is masked (R378). -/
def EvSt.message (e : EvSt) (v : Nat) : EvSt :=
  if e.msixWord (4 * v + 3) % 2 = 1 then { e with pba := setPut e.pba v true }
  else
    { e.hostWr (e.msixWord (4 * v) + e.msixWord (4 * v + 1) * 2 ^ 32) (e.msixWord (4 * v + 2)) with
      pba := setPut e.pba v false, sent := mapSet (fun _ => 0) e.sent v (mapGet (fun _ => 0) e.sent v + 1) }

/-- A trigger of a vector: a message, or, within the holdoff, a coalesced one at its end (R378). -/
def EvSt.fire (e : EvSt) (v now hold : Nat) : EvSt :=
  match mapGet (fun _ => none) e.holdoff v with
  | some h =>
    if h.again || decide (now < h.until_) then { e with holdoff := mapSet (fun _ => none) e.holdoff v (some { h with again := true }) }
    else
      { e.message v with
        holdoff := if hold = 0 then mapSet (fun _ => none) e.holdoff v none
          else mapSet (fun _ => none) e.holdoff v (some { until_ := now + hold, again := false }) }
  | none =>
    { e.message v with
      holdoff := if hold = 0 then e.holdoff
        else mapSet (fun _ => none) e.holdoff v (some { until_ := now + hold, again := false }) }

/-- The holdoff of a vector in kerfs: the engine's own for a DMA vector, EVR_CTRL.HOLDOFF for the others. -/
def State.holdK (s : State) (v : Nat) : Nat :=
  if 1024 ≤ v ∧ v < 1152 then s.fld (bp ((v - 1024) / 16) 0x1C + Off.EVENTS_DMA_CTRL ((v - 1024) % 16)) 16 16 * usK
  else s.fld (bp 0 0x1C + Off.EVENTS_EVR_CTRL) 16 16 * usK

/-- A trigger of a vector. -/
def State.fire (s : State) (v : Nat) : State := { s with ev := s.ev.fire v s.now (s.holdK v) }

/-- The vector register of a page (R378, R385). -/
def vecReg (pg : Nat) : Nat :=
  if isPkg pg then bp 0 0x1C + Off.EVENTS_PKGVEC (pageNo pg)
  else bp (bentOf pg) 0x1C + Off.EVENTS_PVEC (pageNo pg)

/-- The source ID of a page's event bit (R374). -/
def sourceId (pg bit : Nat) : Nat :=
  if isPkg pg then 0x8000 + pageNo pg * 64 + bit else bentOf pg * 0x1000 + pageNo pg * 64 + bit

/-- The event ring register block, which every bent shows alike (R385). -/
abbrev evr : Nat := bp 0 0x1C

/-- Write an event record into the ring (R375, R376), or count it lost. `w1` holds the bits of word 1 above PT_HI but
for GAP, and `gen` is the PT_GEN of the package it comes from. -/
def State.record (s : State) (pt w1 detail gen : Nat) : State :=
  let size := s.rd (evr + Off.EVENTS_EVR_SIZE)
  if size = 0 then s
  else if s.ev.perstLow then
    { s with ev := { s.ev with lost := satAdd s.ev.lost 1, rseq := (s.ev.rseq + 1) % 2 ^ 32, gap := true } }
  else if (s.ev.wr + 2 ^ 32 - s.rd (evr + Off.EVENTS_EVR_RD)) % 2 ^ 32 ≥ 2 ^ size then
    let s1 := { s with ev := { s.ev with
      lost := satAdd s.ev.lost 1, rseq := (s.ev.rseq + 1) % 2 ^ 32, gap := true, losing := true } }
    let s2 := s1.latchHealth (bp s.ridge 0x1C) 0x30
    if s.ev.losing then s2 else s2.fire 0
  else
    let base := s.rd (evr + Off.EVENTS_EVR_BASE_LO) + s.rd (evr + Off.EVENTS_EVR_BASE_HI) * 2 ^ 32
    let a := base + s.ev.wr % 2 ^ size * 32
    let e := (((s.ev.hostWr64 a pt).hostWr64 (a + 8) (bits pt 64 16 + w1 + b2n s.ev.gap * 2 ^ 41)).hostWr64 (a + 16)
      detail).hostWr64 (a + 24) (s.ev.rseq + gen * 2 ^ 32)
    let wr' := (s.ev.wr + 1) % 2 ^ 32
    let e := { e with wr := wr', rseq := (s.ev.rseq + 1) % 2 ^ 32, gap := false, losing := false }
    let wb := s.rd (evr + Off.EVENTS_EVR_WB_LO) + s.rd (evr + Off.EVENTS_EVR_WB_HI) * 2 ^ 32
    { s with ev := if s.bit (evr + Off.EVENTS_EVR_CTRL) 0 then e.hostWr wb wr' else e }

/-- Is the source enabled? -/
def State.evEn (s : State) (pg bit : Nat) : Bool :=
  if bit < 32 then s.bit (pg + Off.PG_EVT_EN_LO) bit else s.bit (pg + Off.PG_EVT_EN_HI) (bit - 32)

/-- A joined worker sends its records of a kind up its tenon: HIER_CTRL.EVT_UP or STREAM_UP is 1 (R357). -/
def State.sendsUp (s : State) (bit : Nat) : Bool :=
  let c := pkgp 5 + Off.HIER_HIER_CTRL
  let st := pkgp 5 + Off.HIER_HIER_STAT
  s.bit c 0 && s.bit c bit && s.bit st 4 && s.bit st 5

/-- The PT_GEN of an event: one raised before the election carries that of its step 5 (R430). -/
def State.genNow (s : State) : Nat := if s.tree.elected then s.ptGen else (s.ptGen + 1) % 2 ^ 32

/-- Raise an event source (R370): RAW sets, and an enabled source writes a record, which a worker also sends up (R377), and then
fires the page's vector. -/
def State.raiseAt (s : State) (pg bit pt detail : Nat) (forced : Bool) : State :=
  let s1 := { s with ev := { s.ev with
    raw := setPut s.ev.raw (pg * 64 + bit) true
    up := s.ev.up + b2n (s.evEn pg bit && s.sendsUp 3) } }
  if s.evEn pg bit then
    let w1 := sourceId pg bit * 2 ^ 16 + s.pkgNum * 2 ^ 32 + b2n forced * 2 ^ 40 + s.health pg * 2 ^ 48
    let s2 := s1.record pt w1 detail s.genNow
    if s.bit (vecReg pg) 16 then s2 else s2.fire (s.fld (vecReg pg) 0 11)
  else s1

/-- Raise an event at the present instant with no detail. -/
def State.raise (s : State) (pg bit : Nat) : State := s.raiseAt pg bit s.now 0 false

/-- Set or clear a standing health code; a page of a bent that takes one raises HEALTH_ANY (R408). -/
def State.standing (s : State) (pg code : Nat) (on : Bool) : State :=
  let s1 := { s with ev := { s.ev with standing := setPut s.ev.standing (pg * 256 + code) on } }
  if on && !s.stands pg code && !isPkg pg then s1.raise (bp (bentOf pg) 0) 5 else s1

/-- Set or clear a FAULT_N category for a bent (R379). -/
def State.category (s : State) (cat b : Nat) (on : Bool) : State :=
  { s with ev := { s.ev with cats := setPut s.ev.cats (cat * 64 + b) on } }

/-- Does a standing code stand on any page of a range of page numbers of a bent? -/
def EvSt.standsOn (e : EvSt) (lo hi code : Nat) : Bool :=
  e.standing.any fun k => k.1 % 256 == code && !isPkg (k.1 / 256) && decide (lo ≤ pageNo (k.1 / 256)) &&
    decide (pageNo (k.1 / 256) ≤ hi)

/-- Does a FAULT_N category stand (R379)? -/
def State.catStands (s : State) (c : Nat) : Bool :=
  if c = 0 then s.ev.standsOn 4 7 0x41 || s.ev.standsOn 8 0xE 0x73 || s.ev.standsOn 0x10 0x13 0x84
  else if c = 1 then !s.poison.isEmpty
  else if c = 5 then s.ev.standsOn 0x16 0x17 0xC1 || s.ev.standsOn 0x16 0x17 0xC4
  else s.ev.cats.any fun k => k.1 / 64 == c

/-- The categories that stand, as FAULT_STAT [6:0] shows them. -/
def State.cats (s : State) : Nat := (List.range 7).foldl (fun m c => m + b2n (s.catStands c) * 2 ^ c) 0

/-- FAULT_N as R379 asks for it: released until the foreman has evaluated the categories. -/
def State.wantFault (s : State) : Bool :=
  s.ev.faultOn && (s.bit (evr + Off.EVENTS_FAULT_CTRL) 8 ||
    (List.range 7).any fun c => s.catStands c && s.bit (evr + Off.EVENTS_FAULT_CTRL) c)

/-- FAULT_N follows its categories, and a change fires vector 0 (R378, R379). -/
def State.settle (s : State) : State :=
  if s.wantFault == s.ev.faultN then s
  else { s with ev := { s.ev.fire 0 s.now (s.holdK 0) with faultN := s.wantFault } }

/-! ### How a command runs -/

/-- What a command cannot change: the queue, the variant, PT and the lattice as the command finds them, the ridge, and the
memories of BAR2. -/
def State.keep (s s' : State) : State :=
  { s' with pending := s.pending, variant := s.variant, clk := s.clk, ridge := s.ridge, mem := s.mem }

/-- What a command that reaches the memories cannot change: the queue, the variant, PT and the lattice, and the ridge. -/
def State.keepMem (s s' : State) : State :=
  { s' with pending := s.pending, variant := s.variant, clk := s.clk, ridge := s.ridge }

/-- A command's outcome. -/
abbrev Out := Host.Outcome State Fault Refusal

/-- Run an effect at the command's instant. -/
def runAt (t : PT) (s : State) (f : State → State) : Out :=
  .next ((s.arrive t).keep (f (s.arrive t)).settle)

/-- Run an effect that may write a memory of BAR2. -/
def runMem (t : PT) (s : State) (f : State → State) : Out :=
  .next ((s.arrive t).keepMem (f (s.arrive t)).settle)

/-- Set PT and the lattice, and run an effect that may write a memory of BAR2. -/
def runClk (t : PT) (s : State) (c : State → Clk) (f : State → State) : Out :=
  let s1 := { s.arrive t with clk := c (s.arrive t) }
  .next (s1.keepMem (f s1).settle)

/-- Set PT, the lattice and the ridge, and run an effect that may write a memory of BAR2. -/
def runRidge (t : PT) (s : State) (c : State → Clk) (r : State → Nat) (f : State → State) : Out :=
  let s1 := { s.arrive t with clk := c (s.arrive t) }
  let s2 := { s1 with ridge := r (s.arrive t) }
  .next (s2.keepMem (f s1).settle)

/-- Do `f` under a condition, else nothing. -/
def State.onlyIf (s : State) (c : Bool) (f : State → State) : State := if c then f s else s

/-- A command written to a page: ignored with health code 0x04 while the page is locked (R399). -/
def State.command (s : State) (pg : Nat) (f : State → State) : State :=
  if s.locked pg then s.latchHealth pg 0x04 else f s

/-- A command that starts work: refused with health code 0x05 while the page is fenced (R371). -/
def State.startCmd (s : State) (pg : Nat) (f : State → State) : State :=
  s.command pg fun s => if s.fenced pg then s.latchHealth pg 0x05 else f s

/-! ### Memories (R17, R368) -/

/-- The memories of a bent window: base offset, size, and the code POISON_ADDR gives (R17, R312). -/
def memories : List (Nat × Nat × Nat) :=
  [(0x0, 0x200000, 0), (0x1000000, 0x800000, 1), (0x2000000, 0x1000000, 2), (0x4000000, 0x800000, 3),
   (0x6000000, 0x100000, 4)]

/-- The memory that holds an offset of a bent window. -/
def memAt? (off : Nat) : Option (Nat × Nat × Nat) :=
  memories.find? fun m => decide (m.1 ≤ off) && decide (off < m.1 + m.2.1)

/-- The BAR2 offset of an offset in a bent's window. -/
abbrev mb (b off : Nat) : Nat := b * 0x80000000 + off

/-- Is the BAR2 offset populated (R368)? -/
def State.memHas (s : State) (a : Nat) : Bool := s.has (a / 0x80000000) && (memAt? (a % 0x80000000)).isSome

/-- What a byte no write has reached reads as (log entry 5). -/
def memReset (_ : Nat) : Byte := 0

/-- A byte of BAR2. -/
def State.memByte (s : State) (a : Nat) : Byte := mapGet memReset s.mem a

/-- Write a byte of BAR2; offsets beyond the memories ignore writes (R368). -/
def State.setByte (s : State) (a : Nat) (v : Byte) : State :=
  if s.memHas a then { s with mem := mapSet memReset s.mem a v } else s

/-- Read `n` bytes of BAR2, little-endian. -/
def State.memRd (s : State) (a n : Nat) : Nat := leNat ((List.range n).map fun i => s.memByte (a + i))

/-- Write bytes of BAR2. -/
def State.memWr (s : State) (a : Nat) : List Byte → State
  | [] => s
  | v :: r => (s.setByte a v).memWr (a + 1) r

/-- Is any ECC word of a range poisoned (R18)? -/
def State.poisoned (s : State) (a n : Nat) : Bool :=
  s.poison.any fun e => decide (a / 8 ≤ e.1) && decide (e.1 ≤ (a + n - 1) / 8)

/-- The form the memories and registers keep: canonical maps. -/
def Memory.wf (m : SMap Byte) : Bool := mapWf memReset m

/-- A read of a BAR2 word finds what `ecc` says: a corrected error is counted, an uncorrectable one poisons the word
(R17, R18, R312). -/
def State.eccRead (s : State) (a : Nat) (ecc : Ecc) : State :=
  let pg := bp (a / 0x80000000) 0x18
  match ecc with
  | .good => s
  | .corrected => (s.bump (pg + Off.CONTINUITY_ECC_CORR_COUNT)).raise pg 0
  | .uncorrectable =>
    let off := a % 0x80000000 / 8 * 8
    let code := match memAt? off with
      | some m => m.2.2
      | none => 0
    let s1 := { s with poison := setPut s.poison (a / 8) true }
    let s2 := (s1.bump (pg + Off.CONTINUITY_ECC_UNCORR_COUNT)).wr (pg + Off.CONTINUITY_POISON_ADDR)
      (off % 2 ^ 28 + code * 2 ^ 28)
    (s2.standing pg 0xD0 true).raise pg 1

/-- Clear the poison mark of a word; the page's standing code goes with the bent's last mark. -/
def State.clearPoison (s : State) (w : Nat) : State :=
  let s1 := { s with poison := setPut s.poison w false }
  let b := w * 8 / 0x80000000
  if s1.poison.any (fun e => e.1 * 8 / 0x80000000 == b) then s1 else s1.standing (bp b 0x18) 0xD0 false

/-! ### Free values -/

/-- A value the spec leaves open (log entry 1), and the state that will give a fresh one next. -/
def State.fresh1 (s : State) : Nat × State := (Config.freeValue s.free, { s with free := s.free + 1 })

end Sys2Proof.Machine
end

