-- ==== Sys2Proof/Machine/LatticeOps.lean ====
section
/-!
DEFINITION. Machine/LatticeOps.lean: the lattice as every other part sees it: the source in force and the active sill of a
bent, coasts and warm-up as conditions (R60, R76, R77), and the moves that shift the lattice on purpose: discipline,
steering, fine phase steps and the removal of a coast's phase error (R57, R63, R69, R79, R83).
-/

namespace Sys2Proof.Machine

/-! ### Pages and sills -/

/-- The TIMEBASE page. -/
abbrev tbPg : Nat := pkgp 1

/-- SRC_STAT. -/
abbrev srcStat : Nat := tbPg + Off.TIMEBASE_SRC_STAT

/-- The SILLA or SILLB page of a bent. -/
abbrev sillPg (b k : Nat) : Nat := bp b (1 + k)

/-- SILL_STAT of a sill. -/
abbrev sillStat (b k : Nat) : Nat := sillPg b k + Off.SILL_SILL_STAT

/-- A sill's state: `k` is 0 for A, 1 for B. -/
def State.sill (s : State) (b k : Nat) : Sill := mapGet (fun _ => Sill.init) s.sills (b * 2 + k)

/-- Put a sill's state. -/
def State.setSill (s : State) (b k : Nat) (x : Sill) : State :=
  { s with sills := mapSet (fun _ => Sill.init) s.sills (b * 2 + k) x }

/-- MIRROR of a bent: sill B runs the settings of sill A (R91). -/
def State.mirror (s : State) (b : Nat) : Bool := s.bit (sillPg b 1 + Off.SILL_SILL_CTRL) 7

/-- The page whose settings a sill runs (R91). -/
def State.sillCfg (s : State) (b k : Nat) : Nat := if k = 1 ∧ s.mirror b then sillPg b 0 else sillPg b k

/-- The source in force: 0 REFIN, 1 OCXO, 2 crystal, 3 none (SRC_STAT.IN_FORCE). -/
def State.srcNow (s : State) : Nat := s.fld srcStat 0 2

/-- The active sill of a bent: 0 for A, 1 for B; A while neither drives the outputs. -/
def State.activeSill (s : State) (b : Nat) : Nat := if s.bit (sillStat b 1) 1 then 1 else 0

/-- A bent has a sill that drives its outputs. -/
def State.hasActive (s : State) (b : Nat) : Bool := s.bit (sillStat b 0) 1 || s.bit (sillStat b 1) 1

/-- Is the worker joined, so that its own selection of sources is not used (R348)? -/
def State.joined (s : State) : Bool := s.bit (pkgp 5 + Off.HIER_HIER_STAT) 4

/-! ### Conditions (R60, R76–R78) -/

/-- The bent's lattice coasts: its active sill does, or the ridge it follows (R76, R77). -/
def State.coasting (s : State) (b : Nat) : Bool :=
  s.bit (sillStat b (s.activeSill b)) 3 || s.bit (sillStat b (s.activeSill b)) 9

/-- The start of the coast that a bent's lattice is in (R77). -/
def State.coastFrom (s : State) (b : Nat) : Nat :=
  if s.bit (sillStat b (s.activeSill b)) 3 then s.rd80 (sillPg b (s.activeSill b) + Off.SILL_COAST_PT_LO)
  else s.rd80 (sillPg s.ridge (s.activeSill s.ridge) + Off.SILL_COAST_PT_LO)

/-- An interval that has begun and whose end is `x` or later than the present overlaps the coast of its bent (R77). -/
def State.coasted (s : State) (b start end_ : Nat) : Bool :=
  s.coasting b && decide (start ≤ s.now) && decide (s.coastFrom b ≤ end_)

/-- WARMING (R60). -/
def State.warming (s : State) : Bool := s.bit srcStat 4

/-- A coast of a bent's own sill has reached HOLD_LIMIT under PARK, and no UNPARK has ended that policy (R78). -/
def State.parksOwn (s : State) (b : Nat) : Bool :=
  let k := s.activeSill b
  s.bit (sillStat b k) 3 && s.bit (sillStat b k) 4 && s.bit (s.sillCfg b k + Off.SILL_SILL_CTRL) 3 && !(s.sill b k).goOn

/-- The sequencers of a bent start no further shot (R78). -/
def State.parking (s : State) (b : Nat) : Bool := s.parksOwn b || s.parksOwn s.ridge

/-- Outputs are held by a relock: HOLD_ON_RELOCK was 1 at its acceptance (R89). -/
def State.relockHeld (s : State) : Bool := s.tb.relock.isSome && s.tb.relockHold

/-! ### Moves (R63, R69) -/

/-- A value on its way to a target at a rate per second of PT, `d` kerfs after it started. -/
def rampAt (start target : Int) (rate d : Nat) : Int :=
  let m : Int := (rate * d / secK : Nat)
  start + clampI (-m) m (target - start)

/-- The sum of such a value over its first `d` kerfs. -/
def rampSum (start target : Int) (rate d : Nat) : Int :=
  let x := (target - start).natAbs
  let up : Int := if start ≤ target then 1 else -1
  if rate * d < x * secK then start * d + up * ((rate * d * d / (2 * secK) : Nat) : Int)
  else target * d - up * ((x * x * secK / (2 * rate) : Nat) : Int)

/-- SLEW_MAX as parts in 10^15 per second. -/
def State.slew (s : State) : Nat := s.fld (tbPg + Off.TIMEBASE_SLEW_MAX) 0 16 * 1000000

/-- The discipline correction in force: it moves to its target at SLEW_MAX (R63, log entry 165). -/
def State.discNow (s : State) : Int := rampAt s.tb.discFrom s.tb.discTo s.slew (s.now - s.tb.offAt)

/-- STEER_FREQ: the offset of a switch that remains, in parts in 10^12, removed at SLEW_MAX (R57, log entry 165). -/
def State.steerNow (s : State) : Int := rampAt s.tb.steer 0 (s.slew / 1000) (s.now - s.tb.offAt)

/-- What the corrections have shifted the expected instant of an update by at a PT, in 10^−15 kerf (R69): a crystal that runs
fast by c brings its edges early, a lattice that discipline speeds up finds them late, and a source that is fast by what is
left to steer brings them early. -/
def State.offsetAt (s : State) (p : Nat) : Int :=
  let d := p - s.tb.offAt
  let age : Int := if s.srcNow = 2 then toSigned 32 (s.rd (tbPg + Off.TIMEBASE_AGE_CORR)) else 0
  s.tb.offAcc - age * d + rampSum s.tb.discFrom s.tb.discTo s.slew d - 1000 * rampSum s.tb.steer 0 (s.slew / 1000) d

/-- The moves as they stand now become their own starting points, before what drives them changes. -/
def State.rebase (s : State) : State :=
  { s with tb := { s.tb with
    offAcc := s.offsetAt s.now, offAt := s.now, discFrom := s.discNow, steer := s.steerNow } }

/-- The sum and the anchor of the discipline reset, and the correction already applied stays in force (R63). -/
def State.discReset (s : State) : State :=
  { s.rebase with tb := { s.rebase.tb with anchor := none, sumE := 0, discTo := s.discNow } }

/-! ### Fine phase steps and pulls (R79, R83) -/

/-- PHASE_RATE of the ridge in kerfs per second. -/
def State.phaseRate (s : State) : Nat :=
  s.fld (s.sillCfg s.ridge (s.activeSill s.ridge) + Off.SILL_PHASE_RATE) 0 7 * 1000000

/-- PHASE_LEFT of a sill at a PT (R83, log entry 165): it goes to 0 at PHASE_RATE from the last write. -/
def State.phaseLeftAt (s : State) (b k p : Nat) : Int :=
  rampAt (toSigned 32 (s.rd (sillPg b k + Off.SILL_PHASE_LEFT))) 0 s.phaseRate (p - (s.sill b k).phaseAt)

/-- The profile of a pull of `x` kerfs at SLEW_MAX `slew` (R79): the whole time it takes, 2√(φ/a), in kerfs. -/
def pullTime (x slew : Nat) : Nat := 2 * isqrt (x * secK * 10 ^ 15 / slew)

/-- What is left of `x` kerfs, `d` kerfs into that profile: the frequency rises at `slew` to the middle and falls back. -/
def pullLeft (x slew d : Nat) : Nat :=
  let t := pullTime x slew
  let gone (u : Nat) : Nat := slew * u * u / (2 * secK * 10 ^ 15)
  if 2 * d ≤ t then x - gone d else min x (gone (t - d))

/-- PULL_LEFT of a sill at a PT (R79). Under PULL_AT_IDLE it is a free value between what PHASE_RATE could have left and the
whole (log entry 166). -/
def State.pullLeftAt (s : State) (b k p : Nat) : Int :=
  let v := toSigned 32 (s.rd (sillPg b k + Off.SILL_PULL_LEFT))
  match (s.sill b k).pull with
  | none => v
  | some q =>
    let d := p - q.at_
    let left :=
      if q.idle then
        let least := v.natAbs - q.rate * d / usK
        least + Config.freeRead s.free p (sillPg b k + Off.SILL_PULL_LEFT) % (v.natAbs - least + 1)
      else pullLeft v.natAbs q.slew d
    if v < 0 then -(left : Int) else left

/-- What is left of the ridge's fine phase step: on the page of its active sill. -/
def State.phaseNow (s : State) : Int := s.phaseLeftAt s.ridge (s.activeSill s.ridge) s.now

/-- What is left of a bent's pull. -/
def State.pullNow (s : State) (b : Nat) : Int := s.pullLeftAt b (s.activeSill b) s.now

/-- STEERING as R252 defines it. -/
def State.steering (s : State) : Bool := s.bit srcStat 2 || s.pullNow s.ridge != 0 || s.phaseNow != 0

/-- Power-up calibration of a bent is complete (R269). -/
def State.pwrup (s : State) (b : Nat) : Bool := s.bit (bp b 0x16 + Off.CAL_CAL_STAT) 1

/-! ### Sill outputs (R84), in quarter kerfs -/

/-- An output's state. -/
def State.sout (s : State) (b n : Nat) : SillOut := mapGet (fun _ => SillOut.init) s.souts (b * 16 + n)

/-- Put an output's state. -/
def State.setSout (s : State) (b n : Nat) (x : SillOut) : State :=
  { s with souts := mapSet (fun _ => SillOut.init) s.souts (b * 16 + n) x }

/-- SOn_CFG in force for a bent: on the page whose settings its active sill runs (R91). -/
def State.soCfg (s : State) (b n : Nat) : Nat := s.sillCfg b (s.activeSill b) + Off.SILL_SO_CFG n

/-- D of a DIV field: 0 encodes 1024 (R84). -/
def divOf (w : Nat) : Nat := if bits w 0 10 = 0 then 1024 else bits w 0 10

/-- D of an output at a PT: a committed change waits for its instant (R84, R85). -/
def State.soDiv (s : State) (b n p : Nat) : Nat :=
  if 4 * p < (s.sout b n).divAt then (s.sout b n).oldDiv else divOf (s.rd (s.soCfg b n))

/-- The period of an output, D·N/2 kerfs (R84, R85). -/
def State.soPeriod (s : State) (b n p : Nat) : Nat := 2 * s.soDiv b n p * s.clk.n

/-- The first instant of a sequence of period `per` from `base` at or after a PT. -/
def nextEdge (base per p : Nat) : Nat := base + ceilDiv (4 * p - base) per * per

end Sys2Proof.Machine
end

