-- ==== Sys2Proof/Machine/EdgeOps.lean ====
section
/-!
DEFINITION. Machine/EdgeOps.lean: the edge engine: its channel blocks, its effects and the level they give a pin, cutting an
effect short (R116), and arming (R107).
-/

namespace Sys2Proof.Machine

/-- The EDGE page of a pin (R96). -/
abbrev edgePg (b ch : Nat) : Nat := bp b (4 + ch / 8)

/-- A register of the channel block of a pin. -/
abbrev chStat (b ch : Nat) : Nat := edgePg b ch + Off.EDGE_CH_STAT (ch % 8)

/-- The control register of a pin's channel. -/
abbrev chCtrl (b ch : Nat) : Nat := edgePg b ch + Off.EDGE_CH_CTRL (ch % 8)

/-- An edge channel's state. -/
def State.edge (s : State) (b ch : Nat) : EdgeSt := mapGet (fun _ => EdgeSt.init) s.edges (b * 32 + ch)

/-- Put an edge channel's state. -/
def State.setEdge (s : State) (b ch : Nat) (e : EdgeSt) : State :=
  { s with edges := mapSet (fun _ => EdgeSt.init) s.edges (b * 32 + ch) e }

/-- MODE of a channel: 0 OFF, 1 OUTPUT, 2 TRIGGERED, 3 VECTOR, 4 RECEIVE (R125). -/
def State.chMode (s : State) (b ch : Nat) : Nat := s.fld (chCtrl b ch) 0 3

/-- The channel is live (R113). -/
def State.chLive (s : State) (b ch : Nat) : Bool := s.bit (chStat b ch) 0

/-- The rest level in use (R114). -/
def State.chRest (s : State) (b ch : Nat) : Bool := s.bit (chStat b ch) 6

/-- The last transition of an effect, if something ends it (R100). -/
def EdgeEff.end_ (f : EdgeEff) : Option Nat :=
  f.count.map fun k => if k = 0 then f.start else f.start + (k - 1) * f.period + f.width

/-- Is the pin away from its base level at `p` (R100)? -/
def EdgeEff.away (f : EdgeEff) (p : Nat) : Bool :=
  decide (f.start ≤ p) && decide ((p - f.start) % f.period < f.width) &&
    (match f.count with
     | none => true
     | some k => decide ((p - f.start) / f.period < k))

/-- The last transition of an effect at or before `p`, given one has happened. -/
def EdgeEff.lastBy (f : EdgeEff) (p : Nat) : Nat :=
  let m := (p - f.start) / f.period
  let m := match f.count with
    | none => m
    | some k => min m (k - 1)
  if (p - f.start) < m * f.period + f.width then f.start + m * f.period else f.start + m * f.period + f.width

/-- The effect with no pulse after those begun by `x` (R116 step 2). -/
def EdgeEff.cut (f : EdgeEff) (x : Nat) : EdgeEff :=
  let k := if x < f.start then 0 else (x - f.start) / f.period + 1
  { f with count := some (match f.count with
    | none => k
    | some c => min c k) }

/-- A clock stopped at its first back transition at or after `q` (R103). -/
def EdgeEff.stopClock (f : EdgeEff) (q : Nat) : EdgeEff :=
  { f with count := some (ceilDiv (q - (f.start + f.width)) f.period + 1) }

/-- The channel at `p`: an effect that has ended leaves its last transition behind, and a driver due at rest is there. -/
def EdgeSt.upto (e : EdgeSt) (rest : Bool) (p : Nat) : EdgeSt :=
  let e := match e.eff with
    | none => e
    | some f =>
      match f.end_ with
      | none => e
      | some q => if q ≤ p then { e with eff := none, lastTrans := some q } else e
  match e.restAt with
  | none => e
  | some r => if r ≤ p then { e with restAt := none, base := rest, lastTrans := some r } else e

/-- The level at the pin at `p`. -/
def EdgeSt.level (e : EdgeSt) (rest : Bool) (p : Nat) : Bool :=
  match e.restAt with
  | some r => if r ≤ p then rest else
      match e.eff with
      | none => e.base
      | some f => e.base != f.away p
  | none =>
      match e.eff with
      | none => e.base
      | some f => e.base != f.away p

/-- The level at a pin at the present instant (CHc_STAT.LEVEL). -/
def State.chLevel (s : State) (b ch : Nat) : Bool := (s.edge b ch).level (s.chRest b ch) s.now

/-- The instant of the last transition at or before `p`, none if the pin has made none. -/
def EdgeSt.lastBy (e : EdgeSt) (p : Nat) : Option Nat :=
  match e.eff with
  | none => e.lastTrans
  | some f => if f.start ≤ p then some (f.lastBy p) else e.lastTrans

/-- The lane address of a lane (R38). -/
abbrev laneAddr (b kind idx : Nat) : Nat := b * 0x1000 + kind * 0x100 + idx

/-- A lane's queue, in PT order (R41). -/
def State.queue (s : State) (lane : Nat) : List Peg := mapGet (fun _ => []) s.queues lane

/-- The instants at which lanes last ceased to hold or play something (R325), one of them now if `c`. -/
def State.touchedIf (s : State) (lane : Nat) (c : Bool) : SMap Nat :=
  if c then mapSet (fun _ => 0) s.touched lane s.now else s.touched

/-- Put a lane's queue. -/
def State.setQueue (s : State) (lane : Nat) (q : List Peg) : State :=
  { s with
    queues := mapSet (fun _ => []) s.queues lane q
    touched := s.touchedIf lane (!(s.queue lane).isEmpty && q.isEmpty) }

/-- A peg in its place by PT. -/
def insertPeg (q : List Peg) (p : Peg) : List Peg :=
  match q with
  | [] => [p]
  | x :: r => if p.pt < x.pt then p :: x :: r else x :: insertPeg r p

/-- A running effect is cut as an immediate disable cuts it (R46 step 3, R116 step 2). -/
def State.edgeCut (s : State) (b ch : Nat) : State :=
  let e := (s.edge b ch).upto (s.chRest b ch) s.now
  match e.eff with
  | none => s.setEdge b ch e
  | some f => s.setEdge b ch { e with eff := some (f.cut s.now) }

/-- The triggered outputs of a lane that it has not accepted yet are discarded and counted. -/
def State.dropTrig (s : State) (lane count : Nat) : State :=
  let q := mapGet (fun _ => []) s.flight lane
  { s.count count (q.filter fun p => p.trig).length with
    flight := mapSet (fun _ => []) s.flight lane (q.filter fun p => !p.trig) }

/-- The channel is armed from `x` (R107). -/
def State.edgeArm (s : State) (b ch x : Nat) : State :=
  (s.setEdge b ch { s.edge b ch with armAt := x }).setBit (chStat b ch) 3 true

/-- The channel is disarmed from `x` (R107). -/
def State.edgeDisarm (s : State) (b ch x : Nat) : State :=
  if s.bit (chStat b ch) 3 then
    (s.setEdge b ch { s.edge b ch with disarmAt := x }).setBit (chStat b ch) 3 false
  else s

/-- The channel senses, and will be live at the end. -/
def State.chSensing (s : State) (b ch : Nat) : Bool := (s.edge b ch).senseEnd.isSome && (s.edge b ch).senseLive

/-- Does the driver drive at `p`: on, from its instant on, and until the instant a mode change gave it (R118)? -/
def EdgeSt.driverOn (e : EdgeSt) (p : Nat) : Bool :=
  e.driving && decide (e.onAt ≤ p) && (match e.offAt with
    | none => true
    | some x => decide (p < x))

/-- What the spec leaves open at a read of a register at this moment (log entry 1). -/
def State.openRead (s : State) (a : Nat) : Nat := Config.freeRead s.free s.now a

/-- The level the board sets at a pin whose driver is off (R115): open (log entry 1). -/
def State.offLevel (s : State) (b ch : Nat) : Bool := s.openRead (chStat b ch) % 2 == 1

end Sys2Proof.Machine
end

