-- ==== Sys2Proof/Machine/ToneOps.lean ====
section
/-!
DEFINITION. Machine/ToneOps.lean: tone and flux lanes (kinds 1–3): their registers, their pulse, its taper, and the
immediate disable (R174, R189, R190).
-/

namespace Sys2Proof.Machine

/-- The bent, kind and index of a lane address (R38). -/
abbrev laneBent (lane : Nat) : Nat := lane / 0x1000

/-- The kind of a lane address (R38). -/
abbrev laneKind (lane : Nat) : Nat := lane / 0x100 % 16

/-- The index of a lane address (R38). -/
abbrev laneIdx (lane : Nat) : Nat := lane % 0x100

/-- The page of a tone or flux lane (R174). -/
def tonePg (lane : Nat) : Nat :=
  let b := laneBent lane
  let i := laneIdx lane
  if laneKind lane = 1 then bp b (8 + i / 16) else if laneKind lane = 2 then bp b 0xC else bp b (0xD + i / 8)

/-- The tone block of a lane on its page. -/
def toneNo (lane : Nat) : Nat := if laneKind lane = 1 then laneIdx lane % 16 else laneIdx lane

/-- The DAC block of a tone lane on its page (R174). -/
def toneDac (lane : Nat) : Nat := if laneKind lane = 1 then laneIdx lane / 4 % 4 else laneIdx lane / 16

/-- The lane is a flux lane. -/
abbrev isFlux (lane : Nat) : Bool := laneKind lane == 3

/-- The control register of a lane. -/
def toneCtrl (lane : Nat) : Nat :=
  if isFlux lane then tonePg lane + Off.FLUX_FLX_CTRL (laneIdx lane % 8)
  else tonePg lane + Off.TONE_TONE_CTRL (toneNo lane)

/-- The status register of a lane. -/
def toneStat (lane : Nat) : Nat :=
  if isFlux lane then tonePg lane + Off.FLUX_FLX_STAT (laneIdx lane % 8)
  else tonePg lane + Off.TONE_TONE_STAT (toneNo lane)

/-- The late count of a lane. -/
def toneLate (lane : Nat) : Nat :=
  if isFlux lane then tonePg lane + Off.FLUX_FLX_LATE_COUNT (laneIdx lane % 8)
  else tonePg lane + Off.TONE_TONE_LATE_COUNT (toneNo lane)

/-- The discard count of a lane: its DAC's, or its flux channel's. -/
def toneDiscard (lane : Nat) : Nat :=
  if isFlux lane then tonePg lane + Off.FLUX_FLX_DISCARD_COUNT (laneIdx lane % 8)
  else tonePg lane + Off.TONE_DAC_DISCARD_COUNT (toneDac lane)

/-- The flags of a lane: its DAC's, or its flux channel's. -/
def toneFlags (lane : Nat) : Nat :=
  if isFlux lane then tonePg lane + Off.FLUX_FLX_FLAGS (laneIdx lane % 8)
  else tonePg lane + Off.TONE_DAC_FLAGS (toneDac lane)

/-- The DAC of a lane, as a key: bent × 64 + DRV 0–15, PRB 16–19, FLX 32–47. -/
def dacKey (lane : Nat) : Nat :=
  let b := laneBent lane * 64
  let i := laneIdx lane
  if laneKind lane = 1 then b + i / 4 else if laneKind lane = 2 then b + 16 + i / 16 else b + 32 + i

/-- The output stage of the lane has failed (R193). -/
def State.outFault (s : State) (lane : Nat) : Bool :=
  if isFlux lane then s.bit (toneStat lane) 6
  else s.bit (tonePg lane + Off.TONE_DAC_STAT (toneDac lane)) 4

/-- A tone or flux lane's state. -/
def State.tone (s : State) (lane : Nat) : ToneSt := mapGet (fun _ => ToneSt.init) s.tones lane

/-- Put a tone or flux lane's state. -/
def State.setTone (s : State) (lane : Nat) (x : ToneSt) : State :=
  { s with tones := mapSet (fun _ => ToneSt.init) s.tones lane x }

/-- The enables of a lane are 1 (R174). -/
def State.toneOn (s : State) (lane : Nat) : Bool :=
  s.bit (toneCtrl lane) 0 && s.enabled (tonePg lane) &&
    (isFlux lane || s.bit (tonePg lane + Off.TONE_DAC_CTRL (toneDac lane)) 0)

/-- The taper length T (R189). -/
def taperK : Nat := 128000

/-- The end of a pulse: its natural end, or its taper's if that comes first (R185). -/
def Pulse.end_ (p : Pulse) : Nat :=
  match p.taper with
  | none => p.stop
  | some a => min p.stop (a + taperK)

/-- The lane at `x`: a pulse that has ended is gone. -/
def ToneSt.upto (x : ToneSt) (p : Nat) : ToneSt :=
  match x.pulse with
  | none => x
  | some q => if q.end_ ≤ p then { x with pulse := none } else x

/-- The sample period of a lane (R29). -/
def State.samplePeriod (s : State) (lane : Nat) : Nat := if isFlux lane then 5 * s.clk.n else s.clk.n

/-- The first sample instant after a PT, for a sample period. -/
def State.sampleAfter (s : State) (period p : Nat) : Nat :=
  if p < s.clk.o then s.clk.o else s.clk.o + ((p - s.clk.o) / period + 1) * period

/-- Set a flag of a lane; the page's event is raised when the flag changes from 0 to 1 (R199). -/
def State.toneFlag (s : State) (lane bit : Nat) : State :=
  let a := toneFlags lane
  if s.bit a bit then s
  else
    let s1 := s.setBit a bit true
    if isFlux lane then (if bit ≤ 2 then s1.raise (tonePg lane) (laneIdx lane % 8) else s1)
    else if bit ≤ 1 then s1.raise (tonePg lane) (toneDac lane)
    else if bit = 2 then s1.raise (tonePg lane) (4 + toneDac lane)
    else s1

/-- The pulse that runs at `p` tapers from `a`. A taper that runs already runs on; one that has not begun gives way to an earlier
one (R189, R195). -/
def State.toneTaperAt (s : State) (lane p a : Nat) : State :=
  match ((s.tone lane).upto p).pulse with
  | none => s
  | some q =>
    let c := match q.taper with
      | none => a
      | some c => if c ≤ p then c else min a c
    let s1 := s.setTone lane { s.tone lane with pulse := some { q with taper := some c } }
    if c < q.stop then s1.toneFlag lane 3 else s1

/-- The pulse that runs now tapers from `a`. -/
def State.toneTaper (s : State) (lane a : Nat) : State := s.toneTaperAt lane s.now a

/-- A request tapers a lane from the first sample after it (R189, third row), and the lane's queue is discarded and
counted (R190 steps 1 and 2). -/
def State.toneStop (s : State) (lane : Nat) : State :=
  let s1 := (s.count (toneDiscard lane) (s.queue lane).length).setQueue lane []
  s1.toneTaper lane (s.sampleAfter (s.samplePeriod lane) s.now)

/-- The DAC of a lane holds zero for 16 ticks after the last taper ends, and is then disabled (R190 step 3). -/
def State.toneHold (s : State) (lane : Nat) : State :=
  let endAt := match (s.tone lane).pulse with
    | none => s.now
    | some q => max s.now q.end_
  let cur := (mapGet (fun _ => none) s.dacHold (dacKey lane)).getD 0
  { s with dacHold := mapSet (fun _ => none) s.dacHold (dacKey lane) (some (max cur (endAt + 16 * s.clk.n))) }

/-- Immediate disable of a lane whose enable is cleared (R190). -/
def State.toneDisable (s : State) (lane : Nat) : State :=
  let s1 := (s.toneStop lane).toneHold lane
  s1.setTone lane { s1.tone lane with drainAt := none }

/-- The tone and flux lanes of a page: (first index, count) of each kind. -/
def pageTones (b p : Nat) : List Nat :=
  if 8 ≤ p ∧ p < 0xC then (List.range 16).map fun i => laneAddr b 1 ((p - 8) * 16 + i)
  else if p = 0xC then (List.range 64).map fun i => laneAddr b 2 i
  else if p = 0xD ∨ p = 0xE then (List.range 8).map fun i => laneAddr b 3 ((p - 0xD) * 8 + i)
  else []

end Sys2Proof.Machine
end

