-- ==== Sys2Proof/Machine/StreamOps.lean ====
section
/-!
DEFINITION. Machine/StreamOps.lean: segment streams: their registers, flags and segment descriptors (R155), where the data of a
granule stand, and the vectors of a stream (R164).
-/

namespace Sys2Proof.Machine

/-- The SEGMENT page of a bent. -/
abbrev segPg (b : Nat) : Nat := bp b 0xF

/-- A stream's state. -/
def State.stream (s : State) (b n : Nat) : StreamSt := mapGet (fun _ => StreamSt.init) s.streams (b * 16 + n)

/-- Put a stream's state. -/
def State.setStream (s : State) (b n : Nat) (x : StreamSt) : State :=
  { s with
    streams := mapSet (fun _ => StreamSt.init) s.streams (b * 16 + n) x
    touched := s.touchedIf (laneAddr b 5 n) ((s.stream b n).seg.isSome && x.seg.isNone) }

/-- KIND of a stream: 0 off, 1 envelope, 2 flux, 3 vector (R154). -/
def State.strKind (s : State) (b n : Nat) : Nat := s.fld (segPg b + Off.SEGMENT_STR_CFG n) 0 2

/-- TARGET of a stream: a lane address (R154). -/
def State.strTarget (s : State) (b n : Nat) : Nat := s.fld (segPg b + Off.SEGMENT_STR_CFG n) 16 15

/-- Bytes of one granule of a kind (R154). -/
def kindBytes (k : Nat) : Nat := if k = 1 then 80 else if k = 2 then 64 else if k = 3 then 384 else 0

/-- The stream drives a tone or flux lane. -/
def State.strDrives (s : State) (b n : Nat) : Bool := s.strKind b n == 1 || s.strKind b n == 2

/-- Is a lane held by a playing stream (R159)? The stream that holds it. -/
def State.holder (s : State) (lane : Nat) : Option Nat :=
  (List.range 16).find? fun n =>
    (s.stream (laneBent lane) n).seg.isSome && s.strDrives (laneBent lane) n && s.strTarget (laneBent lane) n == lane

/-- Set a stream's flag; the page's event is raised when it changes from 0 to 1 (R172). -/
def State.strFlag (s : State) (b n bit : Nat) : State :=
  let a := segPg b + Off.SEGMENT_STR_FLAGS n
  if s.bit a bit then s else (s.setBit a bit true).raiseAt (segPg b) bit s.now n false

/-! The fields of a segment descriptor (R155). -/

/-- LEN in granules; 0 encodes 2^24. -/
def descLen (d : Nat) : Nat := if bits d 0 24 = 0 then 2 ^ 24 else bits d 0 24

/-- LAST. -/
def descLast (d : Nat) : Bool := bitAt d 24

/-- RING. -/
def descRing (d : Nat) : Bool := bitAt d 25

/-- The BAR2 address of a descriptor. -/
def State.descAddr (s : State) (b i : Nat) : Nat :=
  mb b (0x2000000 + s.fld (segPg b + Off.SEGMENT_SEG_TABLE_BASE) 0 24 + 16 * i)

/-- Read a descriptor for a stream: its words, or the cause of a stream fault (R156). -/
def State.readDesc (s : State) (b n i : Nat) : Nat ⊕ Nat :=
  let a := s.descAddr b i
  let d := s.memRd a 16
  if s.rd (segPg b + Off.SEGMENT_SEG_TABLE_COUNT) ≤ i then .inr 1
  else if 0x1000000 < s.fld (segPg b + Off.SEGMENT_SEG_TABLE_BASE) 0 24 + 16 * i + 16 then .inr 2
  else if s.poisoned a 16 then .inr 5
  else if descLen d < 4 ∨ bits d 28 4 ≠ 0 ∨ bits d 116 12 ≠ 0 then .inr 3
  else if !descRing d && 0x1000000 < bits d 96 20 * 16 + descLen d * kindBytes (s.strKind b n) then .inr 2
  else .inl d

/-- RING_WR − RING_RD: the ring's fill level (R166). -/
def State.ringLevel (s : State) (b n : Nat) : Nat :=
  (s.rd (segPg b + Off.SEGMENT_STR_RING_WR n) + 2 ^ 32 - s.rd (segPg b + Off.SEGMENT_STR_RING_RD n)) % 2 ^ 32

/-- The level of the ring against WMARK: WATERMARK is raised when it falls there, once until it has risen above (R166). -/
def State.water (s : State) (b n : Nat) : State :=
  let x := s.stream b n
  if s.ringLevel b n ≤ s.fld (segPg b + Off.SEGMENT_STR_WMARK n) 0 24 then
    (if x.wmArmed then (s.setStream b n { x with wmArmed := false }).strFlag b n 1 else s)
  else s.setStream b n { x with wmArmed := true }

/-- Fill granules begun by `p`. -/
def State.fillBegun (s : State) (f : Fill) (p : Nat) : Nat := if p < f.from_ then 0 else (p - f.from_) / s.gK + 1

/-- The boundary at which a stream resumes its ring data, given the instant its missing granule was written (R168). -/
def State.resumeAt (s : State) (f : Fill) (a : Nat) : Nat :=
  f.from_ + max 1 (ceilDiv (a + 2 * s.gK - f.from_) s.gK) * s.gK

/-! ### Where the data of a granule stand (R154, R155, R166) -/

/-- The BAR2 address of granule `k` of the data that a non-ring descriptor names. -/
def State.dataAddr (s : State) (b n d k : Nat) : Nat :=
  mb b (0x2000000 + bits d 96 20 * 16 + k * kindBytes (s.strKind b n))

/-- The BAR2 address of the slot of ring granule `j`. -/
def State.slotAddr (s : State) (b n j : Nat) : Nat :=
  mb b (0x2000000 + s.fld (segPg b + Off.SEGMENT_STR_RING_BASE n) 0 24 +
    j % 2 ^ 32 % max 1 (s.fld (segPg b + Off.SEGMENT_STR_RING_SIZE n) 0 24) * kindBytes (s.strKind b n))

/-- The first poisoned word of a range. -/
def State.firstPoison (s : State) (a n : Nat) : Option Nat :=
  (s.poison.find? fun e => decide (a / 8 ≤ e.1) && decide (e.1 ≤ (a + n - 1) / 8)).map fun e => e.1

/-- RING_RD. -/
def State.ringRd (s : State) (b n : Nat) : Nat := s.rd (segPg b + Off.SEGMENT_STR_RING_RD n)

/-- The address of the granule that starts at a boundary after the segment that plays, once its successor is committed; a ring
successor goes on with the ring data after `taken` more granules. -/
def State.nextAddr (s : State) (b n : Nat) (x : StreamSt) (p taken : Nat) : Option Nat :=
  match x.succ with
  | some (some (_, d, _)) =>
    let k := (p - x.endPt) / s.gK
    if descRing d then some (s.slotAddr b n (s.ringRd b n + taken + k))
    else if k < descLen d then some (s.dataAddr b n d k) else none
  | _ => none

/-- The address of the granule that starts at boundary `p` of the segment that plays or of what follows it. -/
def State.playAddr (s : State) (b n : Nat) (x : StreamSt) (p : Nat) : Option Nat :=
  if !descRing x.desc then
    (if p < x.endPt then (if x.segStart ≤ p then some (s.dataAddr b n x.desc ((p - x.segStart) / s.gK)) else none)
     else s.nextAddr b n x p 0)
  else
    match x.fill with
    | some f =>
      let resume := f.avail.map fun a => s.resumeAt f a
      if p < f.from_ then none
      else
        match f.jumpAt, resume with
        | some j, _ =>
          if p < j then some (s.dataAddr b n f.desc ((p - f.from_) / s.gK % descLen f.desc))
          else
            (match x.succ with
             | some (some (_, d, _)) =>
               if descRing d then some (s.slotAddr b n (s.ringRd b n + (p - j) / s.gK))
               else some (s.dataAddr b n d ((p - j) / s.gK))
             | _ => none)
        | none, some r =>
          if p < r then some (s.dataAddr b n f.desc ((p - f.from_) / s.gK % descLen f.desc))
          else some (s.slotAddr b n (s.ringRd b n + (p - r) / s.gK))
        | none, none => some (s.dataAddr b n f.desc ((p - f.from_) / s.gK % descLen f.desc))
    | none =>
      let left := descLen x.desc - x.taken
      if p < x.endPt - left * s.gK then none
      else if p < x.endPt then some (s.slotAddr b n (s.ringRd b n + (left - (x.endPt - p) / s.gK)))
      else s.nextAddr b n x p left

/-- Does the stream play a fill granule at boundary `p` (R168)? -/
def State.fillsAt (s : State) (x : StreamSt) (p : Nat) : Bool :=
  x.seg.isSome && (match x.fill with
    | none => false
    | some f => decide (f.from_ ≤ p) && (match f.jumpAt, f.avail with
      | some j, _ => decide (p < j)
      | none, some a => decide (p < s.resumeAt f a)
      | none, none => true))

/-- The BAR2 address of the granule that starts at a boundary: one that has played, one of what plays, or one of what is
committed to follow. -/
def State.granAt (s : State) (b n p : Nat) : Option Nat :=
  let x := s.stream b n
  match x.recent.find? fun g => g.1 == p with
  | some g => some g.2
  | none => if x.seg.isSome then s.playAddr b n x p else none

/-- A granule that has played, put with the latest ones. -/
def StreamSt.push (x : StreamSt) (p a : Nat) : StreamSt :=
  { x with recent := (p, a) :: (x.recent.filter fun g => g.1 != p).take 3 }

/-- The stream with the granule that starts at a boundary put with the latest ones. -/
def State.pushGran (s : State) (b n : Nat) (x : StreamSt) (p : Nat) : StreamSt :=
  match s.granAt b n p with
  | some a => x.push p a
  | none => x

/-- The start of the granule that holds an instant. -/
def State.granFloor (s : State) (p : Nat) : Nat := s.clk.o + (p - s.clk.o) / s.gK * s.gK

/-- The ring data of an unowned stream are released as each granule finishes (R167): up to the granule that plays. -/
def State.ringRel (s : State) (b n : Nat) : Nat :=
  let x := s.stream b n
  if x.seg.isSome && x.owner.isNone && decide (0 < x.taken) && decide (x.tookAt + s.gK ≤ s.now) then s.ringRd b n
  else s.rd (segPg b + Off.SEGMENT_STR_RING_REL n)

/-! ### Vectors (R109, R164) -/

/-- The code of slot `i` in vector `m` of a stream, on a channel with a grid offset: none between segments, in a fill and after
an early stop. A granule with a poisoned word plays zeros (R18). -/
def State.vecCode (s : State) (b n off m i : Nat) : Option Nat :=
  let x := s.stream b n
  let p := s.clk.o + m / 32 * s.gK
  let cut := match x.cutAt with
    | none => false
    | some c => decide (c ≤ s.clk.o + m * (5 * s.clk.n) + off)
  if cut || s.fillsAt x p then none
  else
    match s.granAt b n p with
    | none => none
    | some a => if s.poisoned a 384 then some 0 else some (bits (s.memRd (a + m % 32 * 12) 12) (3 * i) 3)

/-- The last D0 or D1 among `c` vectors up to vector `m`, back to the first that the stream still shows (R164). -/
def State.vecScan (s : State) (b n off i : Nat) (m : Nat) : Nat → Option Bool
  | 0 => none
  | c + 1 =>
    match s.vecCode b n off m i with
    | some 0 => some false
    | some 1 => some true
    | none => none
    | some _ => s.vecScan b n off i (m - 1) c

/-- The last vector of a channel whose instant is before `p` (R109). -/
def State.vecBefore (s : State) (off p : Nat) : Nat := (p - 1 - s.clk.o - off) / (5 * s.clk.n)

/-- VEC_CTRL of a channel. -/
def State.vecCtrl (s : State) (b ch : Nat) : Nat := s.rd (edgePg b ch + Off.EDGE_CH_VEC_CTRL (ch % 8))

/-- The channels that follow a vector stream take in the last D0 or D1 of the `c` vectors before an instant. -/
def State.noteDrive (s : State) (b n p c : Nat) : State :=
  (List.range 32).foldl (fun s ch =>
    let vc := s.vecCtrl b ch
    if s.strKind b n = 3 && s.chMode b ch = 3 && s.chLive b ch && bits vc 0 4 == n then
      match s.vecScan b n (bits vc 16 14) (bits vc 4 5) (s.vecBefore (bits vc 16 14) p) c with
      | none => s
      | some l => s.setEdge b ch { s.edge b ch with dk := some l }
    else s) s

/-- Every vector that the stream still shows is noted before `p`. -/
def State.noteAll (s : State) (b n p : Nat) : State :=
  s.noteDrive b n p (32 * (5 + descLen (s.stream b n).desc))

/-- The level that a channel drives in a vector, none while its driver is off: D0 and D1 drive, DK drives the last of them or
the rest level, and every other code, or no vector at all, drives nothing (R109, R164). -/
def State.vecDrive (s : State) (b ch m : Nat) : Option Bool :=
  let vc := s.vecCtrl b ch
  let n := bits vc 0 4
  let off := bits vc 16 14
  let i := bits vc 4 5
  if s.strKind b n ≠ 3 then none
  else
    match s.vecCode b n off m i with
    | some 0 => some false
    | some 1 => some true
    | some 5 =>
      (match s.vecScan b n off i m (m + 1) with
       | some l => some l
       | none => some ((s.edge b ch).dk.getD (s.chRest b ch)))
    | _ => none

/-- The vector that holds an instant on a channel's grid. -/
def State.vecAt (s : State) (b ch p : Nat) : Nat := (p - s.clk.o - bits (s.vecCtrl b ch) 16 14) / (5 * s.clk.n)

/-- The end of the vector that holds an instant on a channel's grid. -/
def State.vecEnd (s : State) (b ch p : Nat) : Nat :=
  s.clk.o + bits (s.vecCtrl b ch) 16 14 + (s.vecAt b ch p + 1) * (5 * s.clk.n)

end Sys2Proof.Machine
end

