-- ==== Sys2Proof/Machine/CapOps.lean ====
section
/-!
DEFINITION. Machine/CapOps.lean: capture inputs: their registers, flags, the truncation of windows and the immediate
disable (R220).
-/

namespace Sys2Proof.Machine

/-- The CAP page of an input (R201). -/
abbrev capPg (b i : Nat) : Nat := bp b (0x10 + i)

/-- A capture input's state. -/
def State.cap (s : State) (b i : Nat) : CapSt := mapGet (fun _ => CapSt.init) s.caps (b * 4 + i)

/-- A window, a continuous capture or an injection runs, or a result waits for its rotation. -/
def CapSt.busy (c : CapSt) : Bool := !c.wins.isEmpty || c.cont.isSome || c.inj.isSome || !c.held.isEmpty

/-- Put a capture input's state. -/
def State.setCap (s : State) (b i : Nat) (x : CapSt) : State :=
  { s with
    caps := mapSet (fun _ => CapSt.init) s.caps (b * 4 + i) x
    touched := s.touchedIf (laneAddr b 4 i) ((s.cap b i).busy && !x.busy) }

/-- CAP_CTRL.EN and PAGE_CTRL.ENABLE are 1 (R447). -/
def State.capOn (s : State) (b i : Nat) : Bool :=
  s.enabled (capPg b i) && s.bit (capPg b i + Off.CAP_CAP_CTRL) 0

/-- The input is out of service (R222). -/
def State.capFault (s : State) (b i : Nat) : Bool := s.bit (capPg b i + Off.CAP_CAP_STAT) 11

/-- Set a flag of an input; events 0–7 are raised when the flag of that number sets (R227). -/
def State.capFlag (s : State) (b i bit : Nat) : State :=
  let a := capPg b i + Off.CAP_CAP_FLAGS
  if s.bit a bit then s
  else if bit < 8 then (s.setBit a bit true).raise (capPg b i) bit else s.setBit a bit true

/-- The PT of a window's last sample (R208). -/
def State.winEnd (s : State) (w : Window) : Nat := w.first + (w.len - 1) * s.clk.n

/-- The window cut so that its last sample is the last one at or before `x` (R220). -/
def State.winCut (s : State) (w : Window) (x : Nat) : Window :=
  let k := if x < w.first then 0 else (x - w.first) / s.clk.n + 1
  if w.len ≤ k then w else { w with len := k, trunc := true }

/-- The first sample instant at or after a PT (R208). -/
def State.sampleCeil (s : State) (p : Nat) : Nat := s.clk.o + ceilDiv (p - s.clk.o) s.clk.n * s.clk.n

/-- Windows of an input that meet a condition are truncated after the sample at or before `x` (R209, R211, R220); one that
has not begun by then is discarded and counted. -/
def State.capTrunc (s : State) (b i : Nat) (x : Nat) (p : Window → Bool) : State :=
  let c := s.cap b i
  let hit := c.wins.any fun w => p w && decide (w.first ≤ x) && decide (x < s.winEnd w)
  let gone := c.wins.filter fun w => p w && decide (x < w.first)
  let left := c.wins.filter fun w => !(p w && decide (x < w.first))
  let s0 := s.count (capPg b i + Off.CAP_DISCARD_COUNT) gone.length
  let s1 := s0.setCap b i { c with wins := left.map fun w => if p w then s.winCut w x else w }
  if hit then s1.capFlag b i 2 else s1

/-- Continuous capture stops after the sample that is being taken at `x` (R220). -/
def State.contCutAt (s : State) (b i x : Nat) : State :=
  let c := s.cap b i
  let e := s.sampleCeil (x + 1)
  s.setCap b i { c with
    cont := c.cont.map fun k => if e < k.stop.getD (e + 1) then { k with stop := some e, cut := true } else k }

/-- Continuous capture stops after the sample that is being taken (R220). -/
def State.contCut (s : State) (b i : Nat) : State := s.contCutAt b i s.now

/-- Immediate disable of an input (R220). -/
def State.capDisable (s : State) (b i : Nat) : State :=
  let lane := laneAddr b 4 i
  let c := s.cap b i
  let n := (s.queue lane).length + c.held.length + (if c.inj.isSome then 1 else 0)
  let s1 := (s.count (capPg b i + Off.CAP_DISCARD_COUNT) n).setQueue lane []
  let s2 := (s1.setCap b i { c with held := [], inj := none, drainAt := none }).contCut b i
  s2.capTrunc b i s.now fun _ => true

end Sys2Proof.Machine
end

