-- ==== Sys2Proof/Machine/DmaOps.lean ====
section
/-!
DEFINITION. Machine/DmaOps.lean: DMA engines as the record writers see them: which engine serves a source (R380) and how
a record is placed in its buffers (R382).
-/

namespace Sys2Proof.Machine

/-- The EVENTS page of a bent. -/
abbrev evPg (b : Nat) : Nat := bp b 0x1C

/-- A DMA engine's state. -/
def State.dma (s : State) (b e : Nat) : DmaSt := mapGet (fun _ => DmaSt.init) s.dmas (b * 16 + e)

/-- Put a DMA engine's state. -/
def State.setDma (s : State) (b e : Nat) (x : DmaSt) : State :=
  { s with dmas := mapSet (fun _ => DmaSt.init) s.dmas (b * 16 + e) x }

/-- HOST_ADDR of a descriptor. -/
def Desc.host (d : Desc) : Nat := d.w0

/-- LEN of a descriptor. -/
def Desc.len (d : Desc) : Nat := bits d.w1 0 24

/-- Is the descriptor a bad one: a reserved bit, a misalignment, a length out of range (R381)? -/
def Desc.bad (d : Desc) (toHost : Bool) : Bool :=
  d.w0 % 4 != 0 || d.len % 4 != 0 || d.len == 0 || bits d.w1 30 2 != 0 || bits d.w2 24 40 != 0 ||
    bits d.w1 32 32 % 4 != 0 || (toHost && bits d.w1 32 32 != 0)

/-- The engine is enabled, not halted, and its page runs (R384). -/
def State.dmaRuns (s : State) (b e : Nat) : Bool :=
  s.bit (evPg b + Off.EVENTS_DMA_CTRL e) 0 && !s.bit (evPg b + Off.EVENTS_DMA_STAT e) 2 && s.enabled (evPg b) &&
    !s.fenced (evPg b)

/-- An engine halts on an error (R383): STAT.ERROR with its cause, 0x31, and the engine's vector. -/
def State.dmaHalt (s : State) (b e cause : Nat) : State :=
  let a := evPg b + Off.EVENTS_DMA_STAT e
  let s1 := (s.setBit a 2 true).setFld a 4 4 cause
  ((s1.bump (evPg b + Off.EVENTS_DMA_ERR_COUNT e)).standing (evPg b) 0x31 true).fire (1024 + 16 * b + e)

/-- The side port of a bent goes down (R363, R364, R383): its link is lost, and the engines that select it halt with
cause 3. -/
def State.sideDown (s : State) (b : Nat) : State :=
  if !s.bit (evPg b + Off.EVENTS_SIDE_STAT) 0 then s
  else
    let s1 := (s.wr (evPg b + Off.EVENTS_SIDE_STAT) 0).latchHealth (evPg b) 0x33
    (List.range 16).foldl (fun s e =>
      if s.bit (evPg b + Off.EVENTS_DMA_CTRL e) 6 && s.dmaRuns b e then s.dmaHalt b e 3 else s) s1

/-- The engine that serves a source on a bent (R380). -/
def State.dmaFor (s : State) (b src : Nat) : Option Nat :=
  (List.range 16).find? fun e => s.dmaRuns b e && s.fld (evPg b + Off.EVENTS_DMA_CTRL e) 2 4 == src

/-- The space left in the buffers of an engine (R382). -/
def DmaSt.room (x : DmaSt) : Nat := x.descs.foldl (fun n d => n + (d.len - d.filled)) 0

/-- Place bytes in the first buffers with space; `first` marks the record's first byte, and the buffer that takes its
last byte takes EOR. -/
def placeBytes (ds : List Desc) (l : List Byte) (first poison gap : Bool) : List (Nat × List Byte) × List Desc :=
  match ds with
  | [] => ([], [])
  | d :: r =>
    if d.len ≤ d.filled then
      let (w, r') := placeBytes r l first poison gap
      (w, d :: r')
    else
      let k := min (d.len - d.filled) l.length
      let d' := { d with
        filled := d.filled + k, sor := d.sor || first, eor := d.eor || decide (l.length ≤ k),
        poison := d.poison || poison, gap := d.gap || (first && gap && !d.sor) }
      let put := (d.host + d.filled, l.take k)
      if l.length ≤ k then ([put], d' :: r)
      else
        let (w, r') := placeBytes r (l.drop k) false poison gap
        (put :: w, d' :: r')

/-- Send a record to a bent's host stream (R380, R382): the state with the record placed, or none where no engine serves
the source or the buffers have no room for it; a full engine counts the drop. -/
def State.hostPut (s0 : State) (b src : Nat) (l : List Byte) (poison : Bool) : State × Bool :=
  let s := { s0 with ev := { s0.ev with upBulk := s0.ev.upBulk + b2n (s0.sendsUp 4) } }
  if s.ev.perstLow then (s, false)
  else
    match s.dmaFor b src with
    | none => (s, false)
    | some e =>
      let x := s.dma b e
      let good := x.descs.takeWhile fun d => !d.bad true
      if DmaSt.room { x with descs := good } < l.length then
        ((s.bump (evPg b + Off.EVENTS_DMA_DROP_COUNT e)).setDma b e { x with gap := true }, false)
      else
        let (ws, ds) := placeBytes good l true poison x.gap
        let ev := ws.foldl (fun ev w => ev.hostBytes w.1 w.2) s.ev
        let a := evPg b + Off.EVENTS_DMA_BYTES_LO e
        let s1 := ({ s with ev := ev }).wr64 a ((s.rd64 a + l.length) % 2 ^ 64)
        (s1.setDma b e { descs := ds ++ x.descs.drop good.length, lastRec := s.now, gap := false }, true)

end Sys2Proof.Machine
end

