-- ==== Sys2Proof/Machine/StampOps.lean ====
section
/-!
DEFINITION. Machine/StampOps.lean: the timebase conditions a measurement reports (R252), measurement records (R253–R256),
and the start and end of interval series and gates (R244, R248, R249).
-/

namespace Sys2Proof.Machine

/-- The STAMP page of a bent. -/
abbrev stampPg (b : Nat) : Nat := bp b 0x14

/-- The FREQ page of a bent. -/
abbrev freqPg (b : Nat) : Nat := bp b 0x15

/-- The conditions of the moment, in the places of FREe_TB (R252). -/
def State.tbBits (s : State) (b : Nat) : Nat :=
  b2n (s.coasting b) * 16 + b2n s.warming * 32 + b2n s.steering * 64 +
    b2n (s.bit (pkgp 1 + Off.TIMEBASE_PPS_DISC) 0) * 256

/-- FREe_TB at an interval's start. -/
def State.tbStart (s : State) (b : Nat) : Nat := s.srcNow + s.tbBits b

/-- FREe_TB brought up to the present. -/
def State.tbUpto (s : State) (b w : Nat) : Nat := putBits (w ||| s.tbBits b) 2 2 s.srcNow

/-- An interval unit's state. -/
def State.tiu (s : State) (b u : Nat) : Tiu := mapGet (fun _ => Tiu.init) s.tius (b * 4 + u)

/-- Put an interval unit's state. -/
def State.setTiu (s : State) (b u : Nat) (x : Tiu) : State :=
  { s with
    tius := mapSet (fun _ => Tiu.init) s.tius (b * 4 + u) x
    touched := s.touchedIf (laneAddr b 6 u) ((s.tiu b u).armed && !x.armed) }

/-- A frequency engine's state. -/
def State.fre (s : State) (b e : Nat) : Fre := mapGet (fun _ => Fre.init) s.fres (b * 2 + e)

/-- Put a frequency engine's state. -/
def State.setFre (s : State) (b e : Nat) (x : Fre) : State :=
  { s with
    fres := mapSet (fun _ => Fre.init) s.fres (b * 2 + e) x
    touched := s.touchedIf (laneAddr b 6 (4 + e)) ((s.fre b e).gate.isSome && x.gate.isNone) }

/-- The conditions of every open gate and running series take in the present, and a change during a gate raises
TB_CHANGE (R252, R261). `extra` is or-ed in: 0x80 at a source switch. -/
def State.tbGather (s0 s : State) (extra : Nat) : State :=
  (List.range s.variant.bents).foldl (fun s b =>
    let s := (List.range 4).foldl (fun s u =>
      let x := s.tiu b u
      if x.armed then s.setTiu b u { x with tb := x.tb ||| s.tbBits b ||| extra } else s) s
    let changed := s0.tbBits b != s.tbBits b || s0.srcNow != s.srcNow || extra != 0
    let open_ := (List.range 2).any fun e => (s.fre b e).gate.isSome
    let s := (List.range 2).foldl (fun s e =>
      let x := s.fre b e
      s.setFre b e { x with gate := x.gate.map fun g => { g with tb := g.tb ||| s.tbBits b ||| extra } }) s
    if changed && open_ then s.raise (freqPg b) 3 else s) s

/-- Write bytes into a ring of capture memory, modulo its size (R219). -/
def State.ringWrite (s : State) (base size wr : Nat) : List Byte → State
  | [] => s
  | v :: r => (s.setByte (base + wr % size) v).ringWrite base size (wr + 1) r

/-- Write a finished measurement record to its destination, or drop it (R253). -/
def State.writeRec (s : State) (b : Nat) (l : List Byte) : State :=
  let pg := stampPg b
  let dest := s.fld (pg + Off.STAMP_REC_CTRL) 0 2
  let drop (s : State) : State :=
    (({ s with recGap := setPut s.recGap b true }).bump (pg + Off.STAMP_REC_DROP_COUNT)).raise pg 7
  if dest = 1 then
    let size := s.rd (pg + Off.STAMP_REC_SIZE)
    let wr := s.rd (pg + Off.STAMP_REC_WR)
    let used := (wr + 2 ^ 32 - s.rd (pg + Off.STAMP_REC_RD)) % 2 ^ 32
    if size < used + l.length then drop s
    else
      (s.ringWrite (mb b (0x4000000 + s.fld (pg + Off.STAMP_REC_BASE) 0 23)) size wr l).wr (pg + Off.STAMP_REC_WR)
        ((wr + l.length) % 2 ^ 32)
  else if dest = 2 then
    let (s1, ok) := s.hostPut b 5 l false
    if ok then s1 else drop s1
  else s

/-- The words of a record as little-endian bytes. -/
def wordsBytes (l : List Nat) : List Byte := l.flatMap fun w => leBytes w 8

/-- Make a measurement record (R254): number it, and write it, or queue it for its signature (R256). `kind` is 5 or 6. -/
def State.makeRec (s : State) (b kind unit start tb : Nat) (owner : Option Owner) (sign : Bool) (payload : List Nat) :
    State :=
  let pg := stampPg b
  if s.fld (pg + Off.STAMP_REC_CTRL) 0 2 = 0 then s
  else
    let queue := (s.signQ.filter fun q => q.1 == b).length
    let signed := sign && decide (queue < 64)
    let seq := s.rd (pg + Off.STAMP_REC_SEQ)
    let (oseq, oshot) := match owner with
      | none => (0, 0)
      | some o => (o.seq % 16, o.shot % 2 ^ 32)
    let w1 := bits start 64 16 + kind * 2 ^ 16 + b * 2 ^ 20 + unit * 2 ^ 23 + b2n signed * 2 ^ 26 +
      bits tb 0 8 * 2 ^ 27 + bits tb 8 1 * 2 ^ 35 + b2n (setHas s.recGap b) * 2 ^ 36 + b2n owner.isSome * 2 ^ 37 +
      oseq * 2 ^ 38
    let t := bp b 3
    let hdr := [bits start 0 64, w1, seq + oshot * 2 ^ 32, s.ptGen + (if signed then 15 else 7) * 2 ^ 32,
      s.rd64 (t + Off.TIME_EPOCH_TAI_LO), s.rd64 (t + Off.TIME_EPOCH_FRAC_LO)]
    let l := wordsBytes (hdr ++ payload)
    let s1 := ({ s with recGap := setPut s.recGap b false }).wr (pg + Off.STAMP_REC_SEQ) ((seq + 1) % 2 ^ 32)
    if signed then { s1 with signQ := s1.signQ ++ [(b, l)] }
    else if sign then ((s1.bump (pg + Off.STAMP_SIGN_SKIP_COUNT)).latchHealth pg 0x94).writeRec b l
    else s1.writeRec b l

/-- The source named by a START_SRC, STOP_SRC or FREe_SRC register, as a stamp carries it: type, index, and polarity
(0 for markers and PPS, R243). -/
def srcKey (w : Nat) : Nat × Nat × Nat :=
  (bits w 0 2, bits w 2 6, if bits w 0 2 < 2 then bits w 8 1 else 0)

/-- Is a source usable on a bent (R237, R243)? -/
def State.srcUsable (s : State) (b : Nat) (k : Nat × Nat × Nat) : Bool :=
  if k.1 = 0 then
    decide (k.2.1 < 8) && s.pwrup b && s.enabled (stampPg b) && !s.fenced (stampPg b) &&
      s.bit (stampPg b + Off.STAMP_IN_CFG k.2.1) 0 && s.bit (stampPg b + Off.STAMP_IN_CFG k.2.1) (1 + k.2.2)
  else if k.1 = 1 then decide (k.2.1 < 32) && s.chMode b k.2.1 == 4 && s.chLive b k.2.1 && s.pwrup b
  else if k.1 = 2 then true
  else k.2.1 == 0 && s.bit (bp s.ridge 3 + Off.TIME_PPS_CTRL) 0

/-- A number that a field of `w` bits holds, or a value the spec leaves open where it does not fit (log entry 1). -/
def State.fit (s : State) (ok : Bool) (w v : Nat) : Nat × State :=
  if ok then (v % 2 ^ w, s) else (s.fresh1.1 % 2 ^ w, s.fresh1.2)

/-- Does a signed number fit 64 bits? -/
def fits64 (x : Int) : Bool := decide (-(2 ^ 63 : Int) ≤ x) && decide (x < (2 ^ 63 : Int))

/-- The least of a list of numbers. -/
def least : List Nat → Option Nat
  | [] => none
  | a :: r =>
    match least r with
    | none => some a
    | some m => some (min a m)

/-- The two stamps of a unit's measurement, as far as they have been taken (R244, R245). -/
def State.tiuPick (s : State) (b u : Nat) : Option Nat × Option Nat :=
  let x := s.tiu b u
  let pg := stampPg b
  let same := srcKey (s.rd (pg + Off.STAMP_TIU_START_SRC u)) == srcKey (s.rd (pg + Off.STAMP_TIU_STOP_SRC u))
  let after := s.bit (pg + Off.STAMP_TIU_CTRL u) 0
  match least (x.starts.filter fun p => decide (x.arm ≤ p)) with
  | none => (none, if after || same then none else least (x.stops.filter fun p => decide (x.arm ≤ p)))
  | some a =>
    let from_ := if after then max (a + s.rd (pg + Off.STAMP_TIU_HOLDOFF u)) (if same then a + 1 else a)
      else if same then a + 1 else x.arm
    (some a, least (x.stops.filter fun p => decide (from_ ≤ p)))

/-- A measurement of two stamps completes, and the results of the series follow (R246, R247). -/
def State.tiuTake (s : State) (b u start stop : Nat) : State :=
  let x := s.tiu b u
  let pg := stampPg b
  let raw : Int := (stop : Int) - (start : Int)
  let v := raw - toSigned 64 (s.rd64 (pg + Off.STAMP_TIU_ZERO_LO u))
  let c := x.count + 1
  let sum := x.sum + v
  let sq := x.sumSq + v * v
  let lo := if x.count = 0 then v else min x.least v
  let hi := if x.count = 0 then v else max x.most v
  let mean := roundDiv (16 * sum) c
  let rms := (isqrt (1024 * ((c : Int) * sq - sum * sum).toNat) + c) / (2 * c)
  let order := decide (raw < 0)
  let near := decide (raw.natAbs < 64)
  let (w0, s0) := s.fit (fits64 v) 64 (ofSigned 64 v)
  let (w1, s1) := s0.fit (fits64 mean) 64 (ofSigned 64 mean)
  let (w2, s2) := s1.fit (decide (rms < 2 ^ 32)) 32 rms
  let (w3, s3) := s2.fit (fits64 lo) 64 (ofSigned 64 lo)
  let (w4, s4) := s3.fit (fits64 hi) 64 (ofSigned 64 hi)
  let st := s4.rd (pg + Off.STAMP_TIU_STAT u)
  let st := putBits (putBits (putBits (putBits st 1 1 0) 4 1 (b2n order)) 5 1 (b2n near)) 16 16 c
  let s5 := (((((((s4.wr64 (pg + Off.STAMP_TIU_LAST_LO u) w0).wr64 (pg + Off.STAMP_TIU_MEAN_LO u) w1).wr
    (pg + Off.STAMP_TIU_RMS u) w2).wr64 (pg + Off.STAMP_TIU_MIN_LO u) w3).wr64 (pg + Off.STAMP_TIU_MAX_LO u) w4).wr
    (pg + Off.STAMP_TIU_STAT u) st).wr80 (pg + Off.STAMP_TIU_START_PT_LO u) start)
  let s6 := if order then s5.bump (pg + Off.STAMP_TIU_ORDER_COUNT u) else s5
  let s7 := if near then s6.bump (pg + Off.STAMP_TIU_NEAR_COUNT u) else s6
  let next := max start stop + 1
  s7.setTiu b u { x with
    arm := next, starts := x.starts.filter fun p => decide (next ≤ p),
    stops := x.stops.filter fun p => decide (next ≤ p), sum := sum, sumSq := sq, least := lo, most := hi, count := c,
    firstStart := some (x.firstStart.getD start) }

/-- A measurement with both its stamps completes, if there is one (R248). -/
def State.tiuComplete (s : State) (b u : Nat) : State :=
  match s.tiuPick b u with
  | (some a, some z) => if (s.tiu b u).armed then s.tiuTake b u a z else s
  | _ => s

/-- A series has made its measurements (R247). -/
def State.tiuFull (s : State) (b u : Nat) : Bool :=
  decide (s.fld (stampPg b + Off.STAMP_TIU_CTRL u) 16 16 ≤ (s.tiu b u).count)

/-- A series of an interval unit ends (R248). -/
def State.tiuEnd (s0 : State) (b u : Nat) (cut timeout : Bool) : State :=
  let s := if cut then s0.tiuComplete b u else s0
  let trunc := cut && !(decide ((s0.tiu b u).count < (s.tiu b u).count) && s.tiuFull b u)
  let x := s.tiu b u
  if !x.armed then s
  else
    let pg := stampPg b
    let a := pg + Off.STAMP_TIU_STAT u
    let st := putBits (putBits (putBits (putBits (putBits (s.rd a) 0 1 0) 1 1 0) 2 1 1) 3 1 (b2n timeout)) 8 1 (b2n trunc)
    let s1 := (s.wr a st).setTiu b u { x with armed := false, draining := false }
    let s2 := s1.raise pg u
    let s3 := if timeout then s2.raise pg 4 else s2
    let s4 := if x.draining && (List.range 4).all (fun v => !(s3.tiu b v).armed) then s3.setDrained pg true else s3
    let c := pg + Off.STAMP_TIU_CTRL u
    if s4.bit c 4 && x.count != 0 then
      let rd64 (o : Nat) := s4.rd64 (pg + o)
      let flags := bits st 3 1 + bits st 4 1 * 2 + bits st 5 1 * 4 + bits st 8 1 * 8 + bits (s4.rd c) 0 1 * 16 +
        bits st 7 1 * 32
      s4.makeRec b 5 u (x.firstStart.getD 0) (s4.tbUpto b x.tb) x.owner (s4.bit c 3)
        [rd64 (Off.STAMP_TIU_LAST_LO u), rd64 (Off.STAMP_TIU_MEAN_LO u),
         s4.rd (pg + Off.STAMP_TIU_RMS u) + x.count * 2 ^ 32, rd64 (Off.STAMP_TIU_MIN_LO u),
         rd64 (Off.STAMP_TIU_MAX_LO u),
         s4.rd (pg + Off.STAMP_TIU_ORDER_COUNT u) + s4.rd (pg + Off.STAMP_TIU_NEAR_COUNT u) * 2 ^ 32, flags, 0]
    else s4

/-- Arm an interval unit at `A` (R244): a running series is truncated first. -/
def State.tiuArm (s : State) (b u A : Nat) (owner : Option Owner) (late : Bool) : State :=
  let s := s.tiuEnd b u true false
  let pg := stampPg b
  let usable := s.srcUsable b (srcKey (s.rd (pg + Off.STAMP_TIU_START_SRC u))) &&
    s.srcUsable b (srcKey (s.rd (pg + Off.STAMP_TIU_STOP_SRC u)))
  let s := if usable then s else s.latchHealth pg 0x92
  let st := 1 + b2n owner.isSome * 64 + b2n late * 128
  let s := ((s.wr (pg + Off.STAMP_TIU_STAT u) st).wr (pg + Off.STAMP_TIU_ORDER_COUNT u) 0).wr
    (pg + Off.STAMP_TIU_NEAR_COUNT u) 0
  s.setTiu b u { Tiu.init with armed := true, arm := A, owner := owner, tb := s.tbStart b }

/-- P_0 of an engine (R250). -/
def State.gateP0 (s : State) (b e : Nat) : Nat :=
  let nom := s.rd64 (freqPg b + Off.FREQ_FRE_NOMINAL_LO e)
  (roundDiv ((secK * 2 ^ 32 : Nat) : Int) nom).toNat

/-- Open a gate at `g` (R249). -/
def State.gateOpen (s : State) (b e g : Nat) (owner : Option Owner) (late : Bool) : State :=
  let pg := freqPg b
  let s := if s.srcUsable b (srcKey (s.rd (pg + Off.FREQ_FRE_SRC e))) then s else s.latchHealth pg 0xA0
  let len := s.rd64 (pg + Off.FREQ_FRE_GATE_LO e)
  let gate : Gate :=
    { start := g, stop := g + len, p0 := s.gateP0 b e, decim := s.fld (pg + Off.FREQ_FRE_CTRL e) 16 5, t0 := none,
      tPrev := 0, nPrev := 0, nFirst := 0, nLast := 0, m := 0, sn := 0, snn := 0, sr := 0, snr := 0, srr := 0,
      range := false, limit := false, trunc := false, gapped := false, late := late, owner := owner,
      tb := s.tbStart b }
  let a := pg + Off.FREQ_FRE_STAT e
  let st := putBits (putBits (putBits (s.rd a) 0 1 1) 7 1 (b2n owner.isSome)) 8 1 (b2n late)
  (s.wr a st).setFre b e { s.fre b e with gate := some gate }

/-- A gate ends at `x`; under CONT the next opens at its end instant (R249). -/
def State.gateClose (s : State) (b e x : Nat) (trunc : Bool) : State :=
  let f := s.fre b e
  match f.gate with
  | none => s
  | some g =>
    let g' := { g with stop := x, trunc := trunc, tb := s.tbUpto b g.tb }
    let s1 := (s.setFre b e { f with gate := none, done := f.done ++ [g'] }).setBit
      (freqPg b + Off.FREQ_FRE_STAT e) 0 false
    if !trunc && !f.draining && s.bit (freqPg b + Off.FREQ_FRE_CTRL e) 0 then s1.gateOpen b e x g.owner false
    else if f.draining && (List.range 2).all (fun v => (s1.fre b v).gate.isNone) then s1.setDrained (freqPg b) true
    else s1

end Sys2Proof.Machine
end

