-- ==== Sys2Proof/Machine/CalOps.lean ====
section
/-!
DEFINITION. Machine/CalOps.lean: calibration items (R262), shim interpolation (R278), the value in force (R263), and the
acceptance or rejection of a measurement (R264, R265).

Elements are whole numbers: 1/16 kerf for time items, and the units of ITEM_DELTA for the others (1/16 LSB, 0.1 mV, 10^−6).
-/

namespace Sys2Proof.Machine

/-- The CAL page of a bent. -/
abbrev calPg (b : Nat) : Nat := bp b 0x16

/-- The SHIMSTORE page of a bent. -/
abbrev shimPg (b : Nat) : Nat := bp b 0x17

/-- The foreman of a bent runs (FM_STAT.UP). -/
def State.foremanRuns (s : State) (b : Nat) : Bool := s.bit (bp b 0x1D + Off.FOREMAN_FM_STAT) 0

/-- A bent's calibration. -/
def State.cal (s : State) (b : Nat) : CalSt := mapGet (fun _ => CalSt.init) s.cals b

/-- Put a bent's calibration. -/
def State.setCal (s : State) (b : Nat) (x : CalSt) : State :=
  { s with cals := mapSet (fun _ => CalSt.init) s.cals b x }

/-- The key of an instance within its bent. -/
abbrev instKey (item inst : Nat) : Nat := item * 256 + inst

/-- A calibrated instance. -/
def State.calInst (s : State) (b item inst : Nat) : CalInst :=
  mapGet (fun _ => CalInst.init) s.calInsts (b * 65536 + instKey item inst)

/-- Put a calibrated instance. -/
def State.setInst (s : State) (b item inst : Nat) (x : CalInst) : State :=
  { s with calInsts := mapSet (fun _ => CalInst.init) s.calInsts (b * 65536 + instKey item inst) x }

/-! ### Items (R262) -/

/-- The number of instances of an item on a bent; the purlin skew stands only on a follower. -/
def State.instances (s : State) (b item : Nat) : Nat :=
  if item = 0 ∨ 0x13 < item then 0
  else if item ≤ 4 then 36 else if item = 5 then 32 else if item = 6 then 8 else if item ≤ 0xB then 12
  else if item ≤ 0xD then 20 else if item ≤ 0xF then 16 else if item ≤ 0x12 then 2
  else if b = s.ridge then 0 else 1

/-- Does an instance exist? -/
def State.instExists (s : State) (b item inst : Nat) : Bool := decide (inst < s.instances b item)

/-- Is an item measured at power-up (P)? -/
def itemP (item : Nat) : Bool := decide (1 ≤ item) && decide (item ≤ 0x13) && !([0xA, 0xD, 0xF, 0x11].contains item)

/-- Is an item measured again after a relock (N)? -/
def itemN (item : Nat) : Bool := [1, 2, 5, 9, 0x12].contains item

/-- Does an item need live activity (L)? -/
def itemL (item : Nat) : Bool := [0xA, 0xD, 0xF].contains item

/-- The boundary class of an item: 0 EDGE, 1 STAMP, 2 CAPTURE, 3 DAC, 4 FLUX, 5 SILL. -/
def itemClass (item : Nat) : Nat :=
  if item ≤ 4 then 0 else if item ≤ 6 then 1 else if item ≤ 0xB then 2 else if item ≤ 0xD then 3
  else if item ≤ 0xF then 4 else 5

/-- The boundary kind a class's corrections wait for: CAL_BOUNDARY, or 0 where the class has no field (R266). -/
def State.calKind (s : State) (b cls : Nat) : Nat :=
  if cls < 5 then s.fld (calPg b + Off.CAL_CAL_BOUNDARY) (4 * cls) 3 else 0

/-- Does a correction wait for a boundary of a kind (R266)? -/
def State.calWaits (s : State) (kind : Nat) : Bool :=
  s.calInsts.any fun e => e.2.pend.isSome && s.calKind (e.1 / 65536) (itemClass (e.1 % 65536 / 256)) == kind

/-! ### Interpolation (R278) -/

/-- An element of a point. -/
def ShimPoint.elem (p : ShimPoint) (b key j : Nat) : Int :=
  if p.factory then Config.factoryTrim b p.temp key j else (mapGet (fun _ => []) p.vals key).getD j 0

/-- S between two points, rounded to the element's LSB. -/
def between (t0 t1 v0 v1 tc : Int) : Int := v0 + roundDiv ((v1 - v0) * (tc - t0)) (t1 - t0).toNat

/-- S at a temperature over points sorted by temperature. -/
def shimAt (b key j : Nat) (tc : Int) : List ShimPoint → Int
  | [] => Config.nominalTrim key j
  | [p] => p.elem b key j
  | p :: q :: r =>
    if tc ≤ p.temp then p.elem b key j
    else if tc < q.temp then between p.temp q.temp (p.elem b key j) (q.elem b key j) tc
    else shimAt b key j tc (q :: r)

/-- The signed TEMP_NOW of a bent. -/
def State.tempNow (s : State) (b : Nat) : Int := toSigned 32 (s.rd (calPg b + Off.CAL_TEMP_NOW))

/-- The signed TEMP_INTERP of a bent. -/
def State.tempInterp (s : State) (b : Nat) : Int := toSigned 32 (s.rd (calPg b + Off.CAL_TEMP_INTERP))

/-- The value in force of an element at a temperature (R263). -/
def State.inForce (s : State) (b item inst j : Nat) (tc : Int) : Int :=
  shimAt b (instKey item inst) j tc (s.cal b).work + (s.calInst b item inst).delta.getD j 0

/-- The number of elements of an instance of an item (R262): its taps, its vernier steps, the outputs of a sill, skew or offset with
gain, or the one value. -/
def itemElems (item : Nat) : Nat :=
  if item = 1 then 136 else if item = 2 then 16 else if item = 5 then 160 else if item = 0xA ∨ item = 0xE then 2
  else if item = 0xC ∨ item = 0xD then Config.elemCount item else if item = 0x12 then 16 else 1

/-- The values in force of an instance's elements at TEMP_INTERP. -/
def State.values (s : State) (b item inst : Nat) : List Int :=
  (List.range (itemElems item)).map fun j => s.inForce b item inst j (s.tempInterp b)

/-- The trim that an element works with: the value in force, or, while a correction waits for its boundary, the value before it
(R266). -/
def State.trim (s : State) (b item inst j : Nat) : Int :=
  match (s.calInst b item inst).applied with
  | some l => l.getD j 0
  | none => s.inForce b item inst j (s.tempInterp b)

/-- TEMP_INTERP moves to `tc`, and CLAMPED follows it (R278). -/
def State.setInterp (s : State) (b : Nat) (tc : Int) : State :=
  let ps := (s.cal b).work
  let out := match ps with
    | [] => false
    | [_] => false
    | p :: r => decide (tc < p.temp) || decide ((r.getLastD p).temp < tc)
  let was := s.bit (calPg b + Off.CAL_CAL_STAT) 6
  let s1 := ((s.wr (calPg b + Off.CAL_TEMP_INTERP) (ofSigned 32 tc)).setBit (calPg b + Off.CAL_CAL_STAT) 6 out).standing
    (calPg b) 0xB2 out
  if out && !was then s1.raise (calPg b) 5 else s1

/-! ### Acceptance (R264) -/

/-- The absolute limits of an item (R262), each element between two bounds; those given about the factory value are
counted from it. -/
def absLimit (item j : Nat) : Int × Int :=
  if item = 1 then (103, 460) else if item = 2 then (6, 28) else if item = 3 then (-5120, 5120)
  else if item = 4 then (-500, 500) else if item = 5 then (77, 409) else if item = 6 then (-5120, 5120)
  else if item = 7 then (-1024, 1024) else if item = 8 then (-50000, 50000) else if item = 9 then (-2560, 2560)
  else if item = 0xA then (if j = 0 then (-512, 512) else (-5000, 5000))
  else if item = 0xB then (-500000, 500000) else if item = 0xC then (-30000, 30000)
  else if item = 0xD then (-5120, 5120) else if item = 0xE then (if j = 0 then (-20, 20) else (-30000, 30000))
  else if item = 0xF then (-5120, 5120) else if item = 0x10 then (-100000, 100000)
  else if item = 0x11 then (-40, -10) else if item = 0x12 then (-12800, 12800) else (-25600, 25600)

/-- Are an item's absolute limits counted from the factory value? -/
def aboutFactory (item : Nat) : Bool := [3, 6, 0xD, 0xF].contains item

/-- The change limit of an item's element. -/
def changeLimit (item j : Nat) : Nat :=
  if item = 1 then 512 else if item = 2 then 6 else if item = 3 then 512 else if item = 4 then 50
  else if item = 5 then 512 else if item = 6 then 512 else if item = 7 then 64 else if item = 8 then 2000
  else if item = 9 then 128 else if item = 0xA then (if j = 0 then 64 else 500) else if item = 0xB then 100000
  else if item = 0xC then 1000 else if item = 0xD then 512 else if item = 0xE then (if j = 0 then 2 else 1000)
  else if item = 0xF then 512 else if item = 0x10 then 5000 else if item = 0x11 then 1 else if item = 0x12 then 512
  else 256

/-- The elements of a measurement with their places. -/
def placed (m : List Int) : List (Nat × Int) := (List.range m.length).zip m

/-- Does a measurement keep the absolute limits (R264)? The taps of an edge line also cover N kerfs (R262). -/
def State.withinAbs (s : State) (b item inst : Nat) (m : List Int) : Bool :=
  (placed m).all (fun e =>
    let v := if aboutFactory item then e.2 - shimAt b (instKey item inst) e.1 (s.tempNow b) factoryPoints else e.2
    decide ((absLimit item e.1).1 ≤ v) && decide (v ≤ (absLimit item e.1).2)) &&
  (item != 1 || decide (((16 * s.clk.n : Nat) : Int) ≤ m.foldl (fun (a : Int) d => a + d) 0))

/-- Twice the change at each place of a line, given the changes of its taps: at the end of the tap (item 1) or at its
middle (item 5). -/
def lineChange (middle : Bool) (acc : Int) : List Int → List Int
  | [] => []
  | d :: r => (if middle then 2 * acc + d else 2 * (acc + d)) :: lineChange middle (acc + d) r

/-- Does a measurement keep the change limits (R264)? -/
def State.withinChange (s : State) (b item inst : Nat) (m : List Int) : Bool :=
  let d := (placed m).map fun e => e.2 - s.inForce b item inst e.1 (s.tempNow b)
  if item = 1 ∨ item = 5 then (lineChange (item == 5) 0 d).all fun c => decide (c.natAbs ≤ 2 * changeLimit item 0)
  else (placed d).all fun e => decide (e.2.natAbs ≤ changeLimit item e.1)

/-- A map of items follows its instances: some instance of the item has the mark. -/
def State.itemMap (s : State) (b item off bit code : Nat) (p : CalInst → Bool) : State :=
  let any_ := (List.range (s.instances b item)).any fun i => p (s.calInst b item i)
  let s1 := s.setBit (calPg b + off) item any_
  let all_ := s1.rd (calPg b + off) != 0
  let s2 := s1.setBit (calPg b + Off.CAL_CAL_STAT) bit all_
  if code = 0 then s2 else s2.standing (calPg b) code all_

/-- STALE_MAP follows the instances of an item (R277). -/
def State.staleMap (s : State) (b item : Nat) : State := s.itemMap b item Off.CAL_STALE_MAP 4 0xB0 CalInst.stale

/-- LOWCONF_MAP follows the instances of an item (R276). -/
def State.lowconfMap (s : State) (b item : Nat) : State := s.itemMap b item Off.CAL_LOWCONF_MAP 5 0 CalInst.lowconf

/-- A correction of an instance is submitted, whose elements worked with `was` so far: one out of service takes it at once (R268), any
other works with what it has until its boundary (R266). -/
def State.calSubmit (s : State) (b item inst : Nat) (was : List Int) (out : Bool) : State :=
  let x := s.calInst b item inst
  s.setInst b item inst (if out then { x with pend := none, applied := none, wasDelta := none }
    else { x with pend := some (x.pend.getD s.now), applied := some (x.applied.getD was) })

/-- An accepted measurement sets δ and is submitted as a correction (R263, R264); while a store runs it is held (R283). -/
def State.calAccept (s : State) (b item inst : Nat) (m : List Int) (out : Bool) : State :=
  if s.bit (shimPg b + Off.SHIMSTORE_SHIM_STAT) 0 then
    (s.setInst b item inst { s.calInst b item inst with held := some m }).setBit (calPg b + Off.CAL_CAL_STAT) 7 true
  else
    let tm := s.tempNow b
    let delta := (placed m).map fun e => e.2 - shimAt b (instKey item inst) e.1 tm (s.cal b).work
    let x := s.calInst b item inst
    let s1 := s.setInst b item inst { x with
      rejects := 0, lowconf := false, stale := false, acc := some s.now, temp := some tm, since := s.now, delta := delta,
      wasDelta := some (x.wasDelta.getD x.delta) }
    let s2 := (s1.bump (calPg b + Off.CAL_COUNT)).wr80 (calPg b + Off.CAL_LAST_PT_LO) s.now
    let s3 := (s2.calSubmit b item inst (s.values b item inst) out).standing (calPg b) 0xB1 false
    (s3.staleMap b item).lowconfMap b item

/-- Raise an event of the CAL page with its item and instance (R375). -/
def State.calRaise (s : State) (b bit item inst : Nat) : State :=
  s.raiseAt (calPg b) bit s.now (item + inst * 256) false

/-- A rejected measurement (R264), and the instance that reaches REJECT_LIMIT (R265). -/
def State.calReject (s : State) (b item inst cause : Nat) : State :=
  let x := s.calInst b item inst
  let n := x.rejects + 1
  let full := !x.faulty && decide (s.fld (calPg b + Off.CAL_REJECT_LIMIT) 0 4 ≤ n)
  let s1 := s.setInst b item inst { x with rejects := min n 15, faulty := x.faulty || full }
  let s2 := ((s1.bump (calPg b + Off.CAL_FAIL_COUNT)).wr (calPg b + Off.CAL_REJECT_INFO)
    (item + inst * 256 + cause * 65536)).standing (calPg b) 0xB1 true
  let s3 := s2.calRaise b 1 item inst
  if full then (s3.standing (calPg b) 0xB3 true).calRaise b 7 item inst else s3

/-- A measurement of an instance ends (R264, R276): `m` is what it found, none if it could not complete; `active` is
whether an item L had its activity; `out` is whether the resource is out of service. -/
def State.calMeasure (s : State) (b item inst : Nat) (m : Option (List Int)) (active out : Bool) : State :=
  if itemL item && !active then
    ((s.setInst b item inst { s.calInst b item inst with lowconf := true }).lowconfMap b item).calRaise b 3 item inst
  else
    match m with
    | none => s.calReject b item inst 3
    | some l =>
      if !s.withinAbs b item inst l then s.calReject b item inst 1
      else if !s.bit (shimPg b + Off.SHIMSTORE_SHIM_STAT) 7 && !s.withinChange b item inst l then s.calReject b item inst 2
      else s.calAccept b item inst l out

/-- An instance has been judged faulty just now. -/
def turnedFaulty (s s' : State) (b item inst : Nat) : Bool :=
  !(s.calInst b item inst).faulty && (s'.calInst b item inst).faulty

/-- Background calibration runs on a bent (R270): not drained, fenced or disabled, and the foreman is there. -/
def State.bgRuns (s : State) (b : Nat) : Bool :=
  s.has b && s.enabled (calPg b) && !s.draining (calPg b) && !s.fenced (calPg b) &&
    s.bit (calPg b + Off.CAL_CAL_CTRL) 0 && s.foremanRuns b

end Sys2Proof.Machine
end

