-- ==== Sys2Proof/Machine/Demod.lean ====
section
/-!
DEFINITION. Machine/Demod.lean: the arithmetic of a demodulator (R212): the rounded carriers, the accumulators, and the
discriminator (R214), and the raw sample formats (R217).
-/

namespace Sys2Proof.Machine

/-- The scale of the fixed-point carriers. -/
abbrev trigScale : Nat := 2 ^ 100

/-- π / 2 at that scale. -/
def halfPi : Nat := 1991220906497848681844175556976

/-- The terms of cos x (from 1) or sin x (from x), alternating, from the term that precedes the k-th. -/
def trigTerms (x : Nat) : Nat → Nat → Nat → Int
  | 0, _, _ => 0
  | f + 1, k, t => (t : Int) - trigTerms x f (k + 2) (t * x / trigScale * x / trigScale / ((k + 1) * (k + 2)))

/-- cos of an angle of the first quadrant, at the scale. -/
def cosFix (x : Nat) : Int := trigTerms x 24 0 trigScale

/-- sin of an angle of the first quadrant, at the scale. -/
def sinFix (x : Nat) : Int := trigTerms x 24 1 x

/-- round(32767 cos 2πφ) and round(32767 sin 2πφ) of a phase in units of 2^-48 turn (R212). -/
def carrier (ph : Nat) : Int × Int :=
  let q := ph / 2 ^ 46 % 4
  let x := halfPi * (ph % 2 ^ 46) / 2 ^ 46
  let c := roundDiv (32767 * cosFix x) trigScale
  let s := roundDiv (32767 * sinFix x) trigScale
  if q = 0 then (c, s) else if q = 1 then (-s, c) else if q = 2 then (-c, -s) else (s, -c)

/-- The phase of a demodulator at sample number `m` of the lattice (R212). -/
def demodPhase (freq phase m : Nat) : Nat := (freq * m + phase * 2 ^ 32) % 2 ^ 48

/-- The accumulators after the samples from number `m` on; `j` is the index within the window. -/
def accumulate (freq phase : Nat) (weight : Nat → Int × Int) : List Int → Nat → Nat → Int × Int → Int × Int
  | [], _, _, a => a
  | x :: r, m, j, (ai, aq) =>
    let (c, s) := carrier (demodPhase freq phase m)
    let (wi, wq) := weight (j / 8)
    accumulate freq phase weight r (m + 1) (j + 1) (ai + x * (wi * c + wq * s), aq + x * (wq * c - wi * s))

/-- An accumulator scaled and saturated to 32 bits, and whether it saturated. -/
def scaleAcc (a : Int) (shift : Nat) : Int × Bool :=
  let v := roundDiv a (2 ^ shift)
  (clampI (-(2 ^ 31)) (2 ^ 31 - 1) v, decide (v < -(2 ^ 31)) || decide (2 ^ 31 - 1 < v))

/-- A boundary's L (R214). -/
def boundary (bnd c : Nat) (i q : Int) : Int :=
  (toSigned 16 (bits bnd 0 16) * i + toSigned 16 (bits bnd 16 16) * q) / 2 ^ 15 + toSigned 32 c

/-- The state, and whether a boundary named for it is nearer than CONF (R214). -/
def discriminate (disc bnd0 c0 bnd1 c1 conf : Nat) (i q : Int) : Nat × Bool :=
  let l0 := boundary bnd0 c0 i q
  let l1 := boundary bnd1 c1 i q
  let near (l : Int) : Bool := decide (l.natAbs < conf)
  if disc = 1 then (if l0 < 0 then 0 else 1, near l0)
  else if l0 < 0 then (0, near l0)
  else if l1 < 0 then (1, near l0 || near l1)
  else (2, near l1)

/-- A raw sample in the format in force (R217). -/
def rawSample (compat align : Bool) (corr : Nat) (x : Int) : Nat :=
  if compat then
    (clampI 0 4095 (roundDiv (x * (bits corr 16 16 : Nat)) 16384 + 2048 + toSigned 12 (bits corr 0 12))).toNat
  else if align then ofSigned 12 x * 16
  else ofSigned 16 x

end Sys2Proof.Machine
end

