-- ==== Sys2Proof/Machine/Wave.lean ====
section
/-!
DEFINITION. Machine/Wave.lean: what the drive, probe and flux converters emit: the interpolation kernel (R183), carrier phase
(R177), shape samples (R154, R181), tapers (R189), the codes (R186, R188) and the count of those that clip.

Instants at the ball are in 1/16 kerf here, the unit of the path delays.
-/

namespace Sys2Proof.Machine

/-! ### The kernel (R183) -/

/-- The scale of the kernel's coefficients (log entry 178). -/
abbrev kernelScale : Nat := 2 ^ 64

/-- The terms of I0(8√(1 − (x/6)²)) at x = j/1024, from the k-th, which is `t`. -/
def besselTerms (j : Nat) : Nat → Nat → Nat → Nat
  | 0, _, _ => 0
  | f + 1, k, t => t + besselTerms j f (k + 1) (t * 16 * (37748736 - j * j) / (37748736 * ((k + 1) * (k + 1))))

/-- I0(8√(1 − (x/6)²)) at x = j/1024, at the scale of the trigonometric functions. -/
def bessel (j : Nat) : Nat := besselTerms j 40 0 trigScale

/-- sin(π m/1024) for m ≤ 1024. -/
def sinHalf (m : Nat) : Nat := (sinFix (halfPi * (if m ≤ 512 then m else 1024 - m) / 512)).toNat

/-- The tabulated coefficient h(j/1024): a sinc of 12 taps under a Kaiser window with β = 8. -/
def kernelPoint (j : Nat) : Int :=
  if 6144 ≤ j then 0
  else if j = 0 then kernelScale
  else if j % 1024 = 0 then 0
  else
    let v : Int := (sinHalf (j % 1024) * 512 * bessel j * kernelScale / (halfPi * j * bessel 0) : Nat)
    if j / 1024 % 2 = 0 then v else -v

/-- h(num/den), interpolated linearly between the tabulated coefficients. -/
def kernel (num den : Nat) : Int :=
  let j := num * 1024 / den
  let r := num * 1024 % den
  (kernelPoint j * ((den - r : Nat) : Int) + kernelPoint (j + 1) * (r : Int)) / (den : Int)

/-! ### Carriers -/

/-- cos 2π num/den and sin 2π num/den, at the scale of the trigonometric functions. -/
def turn (num : Int) (den : Nat) : Int × Int :=
  let m := (num % (den : Int)).toNat
  let x := halfPi * (4 * m % den) / den
  let q := 4 * m / den
  let c := cosFix x
  let s := sinFix x
  if q = 0 then (c, s) else if q = 1 then (-s, c) else if q = 2 then (-c, -s) else (s, -c)

/-- F: the frequency word of a tone (R177). -/
def State.toneFreq (s : State) (lane : Nat) : Nat :=
  let a := tonePg lane + Off.TONE_TONE_FREQ_LO (toneNo lane)
  s.rd a + s.fld (tonePg lane + Off.TONE_TONE_FREQ_HI (toneNo lane)) 0 16 * 2 ^ 32

/-- F_o of a pulse: its FOFS in units of f_L/2^48 (R177). -/
def State.freqOfs (s : State) (payload : Nat) : Int :=
  roundDiv (toSigned 16 (bits payload 16 16) * ((1000 * 2 ^ 48 * s.clk.n : Nat) : Int)) secK

/-- φ of a tone at a ball instant, as a numerator over 16 N 2^48 (R177): `payload` is the pulse's, 0 outside a pulse. -/
def State.tonePhase (s : State) (lane payload : Nat) (t : Int) : Int :=
  let f := ((s.toneFreq lane : Int) + s.freqOfs payload) % (2 ^ 48 : Int)
  let theta : Int := (((s.tone lane).theta + bits payload 32 16) % 65536 : Nat)
  (f * (t - 16 * (s.clk.o : Int)) + theta * ((16 * s.clk.n * 2 ^ 32 : Nat) : Int)) % ((16 * s.clk.n * 2 ^ 48 : Nat) : Int)

/-! ### Delays and pulses -/

/-- The instance of its calibration items that a lane's converter is (R262). -/
def convInst (lane : Nat) : Nat := if isFlux lane then laneIdx lane else dacKey lane % 64

/-- d_c of a lane in 1/16 kerf: its flux channel's, or its DAC's at the tone's frequency (R177, R262). -/
def State.convDelay (s : State) (lane : Nat) : Int :=
  let b := laneBent lane
  if isFlux lane then s.trim b 0xF (convInst lane) 0
  else s.trim b 0xD (convInst lane) (Config.delayPoint (s.toneFreq lane))

/-- The period of a shape's samples (R183). -/
def State.shapePeriod (s : State) (lane : Nat) : Nat := if isFlux lane then 5 * s.clk.n else 8 * s.clk.n

/-- The place of a shape's first poisoned data word, counted from 1, in the payload of an accepted PLAY; 0 for none (R18). -/
abbrev playPoison (payload : Nat) : Nat := bits payload 128 22

/-- Data word `i` of the shape that an accepted PLAY has read (R182, log entry 177). -/
abbrev playWord (payload i : Nat) : Nat := bits payload (160 + 32 * i) 32

/-- The instant of the start of the granule that holds the first sample of data word `i` of a shape played at `p` (R18). -/
def State.wordGran (s : State) (lane p i : Nat) : Nat :=
  s.granFloor (p + i * (if isFlux lane then 2 else 1) * s.shapePeriod lane)

/-- I and Q of sample `i` of a pulse, a flux value being all I; 0 beyond its ends (R154, R181, R183). A granule of a stream with a
poisoned word plays zero (R18). -/
def State.pulseSample (s : State) (lane : Nat) (q : Pulse) (i : Int) : Int × Int :=
  let k := i.toNat
  let word : Nat :=
    match q.stream with
    | none => playWord q.payload (if isFlux lane then k / 2 else k)
    | some n =>
      let b := laneBent lane
      let per := if isFlux lane then 32 else 20
      match s.granAt b n (q.start + k / per * s.gK) with
      | none => 0
      | some a =>
        if s.poisoned a (kindBytes (s.strKind b n)) then 0
        else s.memRd (a + 4 * (if isFlux lane then k % per / 2 else k % per)) 4
  if i < 0 ∨ q.stop ≤ q.start + k * s.shapePeriod lane then (0, 0)
  else if isFlux lane then (toSigned 16 (bits word (16 * (k % 2)) 16), 0)
  else (toSigned 16 (bits word 0 16), toSigned 16 (bits word 16 16))

/-- E at a ball instant of a pulse, in units of 2^−79 (R183); a flux channel in hold mode holds each sample (R188). -/
def State.envelope (s : State) (lane : Nat) (q : Pulse) (t : Int) : Int × Int :=
  let u := t - 16 * (q.start : Int)
  let p := 16 * s.shapePeriod lane
  let i0 := u / (p : Int)
  if isFlux lane && s.bit (toneCtrl lane) 3 then ((s.pulseSample lane q i0).1 * kernelScale, 0)
  else
    (List.range 12).foldl (fun (a : Int × Int) k =>
      let i := i0 + (k : Int) - 5
      let v := s.pulseSample lane q i
      let h := kernel (u - i * (p : Int)).natAbs p
      (a.1 + v.1 * h, a.2 + v.2 * h)) (0, 0)

/-- w at a ball instant: what a taper multiplies a contribution by, over 2 trigScale (R189). -/
def Pulse.taperAt (q : Pulse) (t : Int) : Int :=
  match q.taper with
  | none => 2 * trigScale
  | some a =>
    if t < 16 * (a : Int) then 2 * trigScale
    else if 16 * ((a + taperK : Nat) : Int) ≤ t then 0
    else trigScale + (turn (t - 16 * (a : Int)) (32 * taperK)).1

/-- The pulse of a lane that plays at a ball instant (R183, R185). -/
def State.pulseAt (s : State) (lane : Nat) (t : Int) : Option Pulse :=
  match (s.tone lane).pulse with
  | none => none
  | some q => if 16 * (q.start : Int) ≤ t ∧ t < 16 * (q.end_ : Int) then some q else none

/-- y of a tone or AMP × E of a flux lane at a ball instant (R183, R189), in units of 1 over 2^95 trigScale². -/
def State.contribution (s : State) (lane : Nat) (t : Int) : Int :=
  match s.pulseAt lane t with
  | none => 0
  | some q =>
    let amp := if q.stream.isSome then 0x7FFF else toSigned 16 (bits q.payload 48 16)
    let e := s.envelope lane q t
    let re := if isFlux lane then e.1 * trigScale
      else
        let c := turn (s.tonePhase lane q.payload t) (16 * s.clk.n * 2 ^ 48)
        e.1 * c.1 - e.2 * c.2
    amp * re * q.taperAt t

/-- The lanes of a kind that share a lane's DAC (R174). -/
def dacLanes (lane : Nat) : List Nat :=
  (List.range 64).filterMap fun i =>
    let l := laneAddr (laneBent lane) (laneKind lane) i
    if dacKey l = dacKey lane then some l else none

/-- The control register of a lane's converter, which holds its GAIN. -/
def convCtrl (lane : Nat) : Nat :=
  if isFlux lane then toneCtrl lane else tonePg lane + Off.TONE_DAC_CTRL (toneDac lane)

/-- BIAS of a flux channel (R188). -/
def State.fluxBias (s : State) (lane : Nat) : Int :=
  toSigned 16 (s.fld (tonePg lane + Off.FLUX_FLX_BIAS (laneIdx lane % 8)) 0 16)

/-- The code of a lane's converter at sample instant `e` before the clamp (R186, R188). -/
def State.rawCode (s : State) (lane e : Nat) : Int :=
  let sum := (dacLanes lane).foldl (fun (a : Int) l => a + s.contribution l (16 * (e : Int) + s.convDelay l)) 0
  let scale := 2 ^ 110 * trigScale * trigScale
  let gain : Int := (s.fld (convCtrl lane) 16 16 : Nat)
  if isFlux lane then s.fluxBias lane + roundDiv (32767 * gain * sum) scale
  else roundDiv (8191 * gain * sum) scale

/-- The limit of a converter's codes (R186, R188). -/
def codeLimit (lane : Nat) : Nat := if isFlux lane then 32767 else 8191

/-! ### Resource groups (R14, R324–R326) -/

/-- The resource group whose islands serve a lane; a stream's is its target's, and marker lanes have none. -/
def State.laneGroup (s : State) (lane : Nat) : Option Nat :=
  let i := laneIdx lane
  let k := laneKind lane
  if k = 0 then some 11 else if k = 1 then some (i / 16) else if k = 2 then some 4 else if k = 3 then some (5 + i / 8)
  else if k = 4 then some (7 + i)
  else if k = 5 then
    (if s.strKind (laneBent lane) i = 3 then some 11
     else
       let l := s.strTarget (laneBent lane) i
       if laneKind l = 1 then some (laneIdx l / 16) else if laneKind l = 2 then some 4
       else some (5 + laneIdx l / 8))
  else if k = 6 then some 12
  else none

/-- GRPg_STAT of a group. -/
abbrev grpStat (b g : Nat) : Nat := bp b 0x19 + Off.ENERGY_GRP_STAT g

/-- The clock of the group that serves a lane runs (R323). -/
def State.clocked (s : State) (lane : Nat) : Bool :=
  match s.laneGroup lane with
  | none => true
  | some g => decide (s.fld (grpStat (laneBent lane) g) 0 2 < 2)

/-- BENT_STAT of a bent. -/
abbrev bentStat (b : Nat) : Nat := bp b 0x19 + Off.ENERGY_BENT_STAT

/-- The lane's group runs in S0, where converters convert, in a bent that is not in S3 or S4 (R323, R327). -/
def State.awake (s : State) (lane : Nat) : Bool :=
  match s.laneGroup lane with
  | none => true
  | some g => decide (s.fld (grpStat (laneBent lane) g) 0 2 = 0) && decide (s.fld (bentStat (laneBent lane)) 0 3 < 3)

/-- The converter of a lane is enabled, or holds after a disable (R174, R190). -/
def State.convOn (s : State) (lane : Nat) : Bool :=
  (s.bit (convCtrl lane) 0 && s.enabled (tonePg lane) && !s.fenced (tonePg lane)) ||
    (mapGet (fun _ => none) s.dacHold (dacKey lane)).isSome

/-- The converter emits what its lanes play: enabled, awake, not failed, and not held by a relock (R89, R174, R193,
R323). -/
def State.emits (s : State) (lane : Nat) : Bool :=
  s.clk.running && !s.relockHeld && !s.outFault lane && s.convOn lane && s.awake lane

/-- A flux channel that a relock or its sleeping group holds at zero emits BIAS, which is zero for it (R89, R188, R324). -/
def State.holdsBias (s : State) (lane : Nat) : Bool :=
  isFlux lane && s.clk.running && !s.outFault lane && s.convOn lane && !s.emits lane &&
    decide (s.fld (bentStat (laneBent lane)) 0 3 < 3)

/-- The code a converter emits at sample instant `e` (R186, R188): clamped, and zero, or BIAS for a flux channel that is held,
while it emits nothing that its lanes play. -/
def State.dacCode (s : State) (lane e : Nat) : Int :=
  let top : Int := codeLimit lane
  if s.emits lane then clampI (-top) top (s.rawCode lane e)
  else if s.holdsBias lane then clampI (-top) top (s.fluxBias lane) else 0

/-! ### Clipping (R186, R188) -/

/-- Set a flag of a lane at an instant; the page's event is raised when the flag changes from 0 to 1 (R199). -/
def State.clipFlag (s : State) (lane pt : Nat) : State :=
  let a := toneFlags lane
  if s.bit a 2 then s
  else (s.setBit a 2 true).raiseAt (tonePg lane) (if isFlux lane then laneIdx lane % 8 else 4 + toneDac lane) pt 0 false

/-- What a run of samples clipped: the count, the largest magnitude before the clamp, and the first sample clamped. -/
structure Clips where
  n : Nat
  peak : Nat
  first : Option Nat
  deriving DecidableEq, Repr

/-- `k` samples of a converter from sample instant `e` on. -/
def State.scan (s : State) (lane period : Nat) : Nat → Nat → Clips → Clips
  | 0, _, c => c
  | k + 1, e, c =>
    let v := (s.rawCode lane e).natAbs
    let hit := decide (codeLimit lane < v)
    s.scan lane period k (e + period)
      { n := c.n + b2n hit, peak := max c.peak v, first := if hit && c.first.isNone then some e else c.first }

/-- `k` samples of an idle converter from sample instant `e` on: a tone converter emits 0, a flux channel BIAS. -/
def State.idleRun (s : State) (lane k e : Nat) (c : Clips) : Clips :=
  if isFlux lane && decide (codeLimit lane < (s.fluxBias lane).natAbs) && k != 0 then
    { c with n := c.n + k, first := some (c.first.getD e) }
  else c

/-- The clamped samples of a run are counted, flagged and leave their peak. -/
def State.putClips (s : State) (lane : Nat) (c : Clips) : State :=
  let count := if isFlux lane then tonePg lane + Off.FLUX_FLX_CLIP_COUNT (laneIdx lane % 8)
    else tonePg lane + Off.TONE_DAC_CLIP_COUNT (toneDac lane)
  let a := tonePg lane + Off.TONE_DAC_PEAK (toneDac lane)
  let s1 := if isFlux lane then s else s.wr a (max (s.rd a) (min c.peak 0x3FFF))
  match c.first with
  | none => s1
  | some e => (s1.count count c.n).clipFlag lane e

/-- The interval of sample instants in which some lane of a converter plays, each lane at its own path delay. -/
def State.playSpan (s : State) (lane : Nat) : Option (Nat × Nat) :=
  (dacLanes lane).foldl (fun (a : Option (Nat × Nat)) l =>
    match (s.tone l).pulse with
    | none => a
    | some q =>
      let d := s.convDelay l / 16
      let x := ((q.start : Int) - d - 1).toNat
      let z := ((q.end_ : Int) - d + 1).toNat
      match a with
      | none => some (x, z)
      | some r => some (min x r.1, max z r.2)) none

/-- The samples of a lane's converter whose ball instant on that lane is before `x` are accounted for, as the state gives them:
what clips is counted by the time the state changes what the converter emits, or a register shows it (log entry 176). -/
def State.dacSync (s : State) (lane x : Nat) : State :=
  let period := s.samplePeriod lane
  let o := s.clk.o
  let d := s.convDelay lane
  let k0 := ceilDiv (mapGet (fun _ => 0) s.dacAt (dacKey lane) - o) period
  let k1 := ceilDiv (16 * ((x : Int) - (o : Int)) - d).toNat (16 * period)
  if k1 ≤ k0 then s
  else
    let s1 := { s with dacAt := mapSet (fun _ => 0) s.dacAt (dacKey lane) (o + k1 * period) }
    if !s.emits lane then
      if s.holdsBias lane then
        s1.putClips lane (s.idleRun lane (k1 - k0) (o + k0 * period) { n := 0, peak := 0, first := none })
      else s1
    else
      match s.playSpan lane with
      | none => s1.putClips lane (s.idleRun lane (k1 - k0) (o + k0 * period) { n := 0, peak := 0, first := none })
      | some (a, z) =>
        let ka := clampN k0 k1 ((a - o) / period - 1)
        let kz := clampN ka k1 ((z - o) / period + 2)
        let c1 := s.idleRun lane (ka - k0) (o + k0 * period) { n := 0, peak := 0, first := none }
        let c2 := s.scan lane period (kz - ka) (o + ka * period) c1
        s1.putClips lane (s.idleRun lane (k1 - kz) (o + kz * period) c2)

/-- One lane of each converter of a page (R174). -/
def pageConvs (b p : Nat) : List Nat :=
  if 8 ≤ p ∧ p < 0xC then (List.range 4).map fun i => laneAddr b 1 ((p - 8) * 16 + 4 * i)
  else if p = 0xC then (List.range 4).map fun i => laneAddr b 2 (16 * i)
  else if p = 0xD ∨ p = 0xE then (List.range 8).map fun i => laneAddr b 3 ((p - 0xD) * 8 + i)
  else []

/-- The samples up to an instant of every converter of a page are accounted for. -/
def State.syncPage (s : State) (b p x : Nat) : State := (pageConvs b p).foldl (fun s l => s.dacSync l x) s

/-- The samples up to an instant of every converter of a bent are accounted for. -/
def State.syncBent (s : State) (b x : Nat) : State := (List.range 7).foldl (fun s i => s.syncPage b (8 + i) x) s

/-- The samples up to an instant of every converter of the package are accounted for. -/
def State.syncAll (s : State) (x : Nat) : State := (List.range s.variant.bents).foldl (fun s b => s.syncBent b x) s

end Sys2Proof.Machine
end

