-- ==== Sys2Proof/Machine/Stops.lean ====
section
/-!
DEFINITION. Machine/Stops.lean: the immediate stop of a segment stream (R169), the stream fault (R156), and the release of ring
data (R167).
-/

namespace Sys2Proof.Machine

/-! ### Stopping -/

/-- Configuration held while the stream played applies (R170). -/
def State.applyHeld (s : State) (b n : Nat) (w : List Nat) : State :=
  let pg := segPg b
  ((((s.wr (pg + Off.SEGMENT_STR_CFG n) (w.getD 0 0)).wr (pg + Off.SEGMENT_STR_RING_BASE n) (w.getD 1 0)).wr
    (pg + Off.SEGMENT_STR_RING_SIZE n) (w.getD 2 0)).wr (pg + Off.SEGMENT_STR_FILL_SEG n) (w.getD 3 0)).wr
    (pg + Off.SEGMENT_STR_VEC_STROBE n) (w.getD 4 0)

/-- The chain is over at `p`: the stream is idle, configuration committed meanwhile applies (R170), ring data an owned chain
took waits for its shot, and those of an unowned one are released (R167). The granule in play and the one committed after it
serve the taper of an early stop, while vectors from then on hold X (R169). -/
def State.strIdleAt (s : State) (b n p : Nat) (early : Bool) : State :=
  let x := s.stream b n
  let rd := s.ringRd b n
  let use := match x.owner with
    | none => x.ringUse
    | some o => if rd = x.ringStart then x.ringUse else x.ringUse ++ [(o, x.ringStart, rd)]
  let s0 := if x.owner.isNone && rd != x.ringStart then s.wr (segPg b + Off.SEGMENT_STR_RING_REL n) rd else s
  let s0 := match x.fill with
    | none => s0
    | some f => s0.count (segPg b + Off.SEGMENT_STR_FILL_COUNT n) (s.fillBegun f p)
  let g := s.granFloor p
  let y := if early then s.pushGran b n (s.pushGran b n x g) (g + s.gK) else x
  let s1 := s0.setStream b n { StreamSt.init with
    ringUse := use, wmArmed := x.wmArmed, recent := y.recent, cutAt := if early then some p else none }
  match x.heldCfg with
  | none => s1
  | some w => s1.applyHeld b n w

/-- An immediate stop of a stream at `p` (R169): its target ends as an immediate disable does, and the chain is over. -/
def State.strStopAt (s : State) (b n p : Nat) : State :=
  if (s.stream b n).seg.isNone then s
  else
    let lane := s.strTarget b n
    let s1 := if s.strDrives b n then (s.dacSync lane p).toneTaper lane (s.sampleAfter (s.samplePeriod lane) p)
      else s.noteAll b n p
    s1.strIdleAt b n p true

/-- An immediate stop of a stream now. -/
def State.strStop (s : State) (b n : Nat) : State := s.strStopAt b n s.now

/-- The stream faults (R156): the cause is kept, the event raised, and the stream stops. -/
def State.strFault (s : State) (b n cause : Nat) : State :=
  let s1 := s.setFld (segPg b + Off.SEGMENT_STR_STAT n) 24 4 cause
  ((s1.latchHealth (segPg b) 0x60).strFlag b n 5).strStop b n

/-- Release ring data up to a count (R167). -/
def State.ringRelease (s : State) (b n upto : Nat) : State := s.wr (segPg b + Off.SEGMENT_STR_RING_REL n) upto

/-- A shot of the stream's owner is done: without void its ring data are released, after a void RING_RD goes back to
where the chain began (R167). -/
def State.ringResolve (s : State) (b n : Nat) (o : Owner) (void : Bool) : State :=
  let x := s.stream b n
  match x.ringUse.find? (fun u => u.1 == o) with
  | none => s
  | some u =>
    let s1 := s.setStream b n { x with ringUse := x.ringUse.filter fun v => v.1 != o }
    if void then (s1.wr (segPg b + Off.SEGMENT_STR_RING_RD n) u.2.1).water b n
    else
      let last := (x.ringUse.filter fun v => v.1 == o).foldl (fun _ v => v.2.2) u.2.2
      s1.ringRelease b n last

end Sys2Proof.Machine
end

