-- ==== Sys2Proof/Machine/Shots.lean ====
section
/-!
DEFINITION. Machine/Shots.lean: sequencers and their shots as the lanes see them: the flags of a tally entry, the instants
that decide when it is written, and the void of a shot (R46, R148, R299).
-/

namespace Sys2Proof.Machine

/-- The SEQ page of a sequencer, numbered bent × 16 + s (R128). -/
abbrev seqPg (k : Nat) : Nat := bp (k / 16) (0x20 + k % 16)

/-- A sequencer's state. -/
def State.seq (s : State) (k : Nat) : SeqSt := mapGet (fun _ => SeqSt.init) s.seqs k

/-- Put a sequencer's state. -/
def State.setSeq (s : State) (k : Nat) (x : SeqSt) : State :=
  { s with seqs := mapSet (fun _ => SeqSt.init) s.seqs k x }

/-- Change the shot of a number among a sequencer's running and unresolved shots. -/
def SeqSt.onShot (x : SeqSt) (num : Nat) (f : Shot → Shot) : SeqSt :=
  let g (h : Shot) : Shot := if h.num = num then f h else h
  { x with shot := x.shot.map g, tail := x.tail.map g }

/-- A shot that has no entry yet. -/
def State.shotOf (s : State) (o : Owner) : Option Shot :=
  let x := s.seq o.seq
  (x.shot.toList ++ x.tail).find? fun h => h.num == o.shot

/-- Change a shot that has no entry yet. -/
def State.updShot (s : State) (o : Option Owner) (f : Shot → Shot) : State :=
  match o with
  | none => s
  | some w => if (s.shotOf w).isSome then s.setSeq w.seq ((s.seq w.seq).onShot w.shot f) else s

/-- The shot with a tally flag set. -/
def Shot.flag (h : Shot) (i : Nat) : Shot := { h with flags := h.flags ||| 2 ^ i }

/-- Set a tally flag (R297) of a shot. -/
def State.flagShot (s : State) (o : Option Owner) (i : Nat) : State := s.updShot o fun h => h.flag i

/-- An effect of a shot lasts to `e` (R299). -/
def State.noteEff (s : State) (o : Option Owner) (e : Nat) : State :=
  s.updShot o fun h => { h with effEnd := max h.effEnd e }

/-- The count of a lane's discarded pegs (R447); internal marker lanes have none. -/
def laneDiscard (lane : Nat) : Option Nat :=
  let b := laneBent lane
  let i := laneIdx lane
  if laneKind lane = 0 then some (edgePg b i + Off.EDGE_CH_DISCARD_COUNT (i % 8))
  else if laneKind lane ≤ 3 then some (toneDiscard lane)
  else if laneKind lane = 4 then some (capPg b i + Off.CAP_DISCARD_COUNT)
  else if laneKind lane = 5 then some (segPg b + Off.SEGMENT_STR_DISCARD_COUNT i)
  else if laneKind lane = 6 then some (stampPg b + Off.STAMP_ARM_DISCARD_COUNT)
  else none

/-- Count discards of a lane. -/
def State.countDiscard (s : State) (lane n : Nat) : State :=
  match laneDiscard lane with
  | none => s
  | some a => s.count a n

/-- The pegs of a lane that have not been accepted yet, oldest first. -/
def State.inFlight (s : State) (lane : Nat) : List Peg := mapGet (fun _ => []) s.flight lane

/-- Put the pegs of a lane that have not been accepted yet. -/
def State.setFlight (s : State) (lane : Nat) (q : List Peg) : State :=
  { s with flight := mapSet (fun _ => []) s.flight lane q }

/-- Is the peg one of a shot's, with its PT at or after an instant? -/
def Peg.mine (p : Peg) (o : Owner) (x : Nat) : Bool := p.owner == some o && decide (x ≤ p.pt)

/-- Withdraw a shot's pegs from `x` on (R46 step 2); `count` counts the queued ones at their lanes (R148). -/
def State.withdraw (s : State) (o : Owner) (x : Nat) (count : Bool) : State :=
  let s1 := s.queues.foldl (fun s e =>
    let n := (e.2.filter fun p => p.mine o x).length
    let s := s.setQueue e.1 (e.2.filter fun p => !p.mine o x)
    if count then s.countDiscard e.1 n else s) s
  s1.flight.foldl (fun s e => s.setFlight e.1 (e.2.filter fun p => !p.mine o x)) s1

/-- The void PT from which a shot's pegs and effects have been ended (R46). -/
def State.voidOf (s : State) (o : Option Owner) : Option Nat :=
  match o with
  | none => none
  | some w =>
    match s.shotOf w with
    | none => none
    | some h => h.cutPt

/-- The instant at which a stream or continuous capture that a shot's peg starts ends with the shot: the void PT, or the first
granule boundary at or after the C_end of a shot that has ended (R46, R158). -/
def State.ownedEnd (s : State) (o : Option Owner) : Option Nat :=
  match o with
  | none => none
  | some w =>
    match (s.seq w.seq).tail.find? fun h => h.num == w.shot with
    | none => s.voidOf o
    | some h =>
      if h.voidPt.isNone || h.fillOnly then some (min (s.granCeil h.cEnd) (h.cutPt.getD (s.granCeil h.cEnd))) else h.cutPt

/-- A gate that runs ends at `x`, now if that has passed (R249, R46 step 3). -/
def State.gateCut (s : State) (b e x : Nat) : State :=
  let f := s.fre b e
  match f.gate with
  | none => s
  | some g =>
    if g.stop ≤ x then s
    else if x ≤ s.now then s.gateClose b e s.now true
    else s.setFre b e { f with gate := some { g with stop := x, trunc := true } }

/-- Effects of a shot in progress end as an immediate disable ends them, from `x` (R46 step 3). An effect that begins
before `x` is not ended before it (log entry 10). -/
def State.cutEffects (s : State) (o : Owner) (x : Nat) : State :=
  let y := max x s.now
  let z := if s.now < x then x - 1 else s.now
  let s := s.edges.foldl (fun s e =>
    match e.2.eff with
    | none => s
    | some f =>
      if f.owner == some o then { s with edges := mapSet (fun _ => EdgeSt.init) s.edges e.1 { e.2 with
        eff := some (f.cut y) } } else s) s
  let s := s.streams.foldl (fun s e =>
    if e.2.seg.isSome && e.2.owner == some o then
      (if s.now < x then s.setStream (e.1 / 16) (e.1 % 16) { e.2 with endAt := some (min x (e.2.endAt.getD x)) }
       else s.strStop (e.1 / 16) (e.1 % 16))
    else s) s
  let s := s.tones.foldl (fun s e =>
    match e.2.pulse with
    | none => s
    | some p =>
      if p.owner == some o && p.stream.isNone then
        s.toneTaper e.1 (max x (s.sampleAfter (s.samplePeriod e.1) s.now))
      else s) s
  let s := s.caps.foldl (fun s e =>
    let b := e.1 / 4
    let i := e.1 % 4
    let c := s.cap b i
    let mine (w : Window) : Bool := w.owner == some o
    let n := (c.wins.filter fun w => mine w && decide (y < w.first)).length +
      (c.held.filter fun w => w.owner == some o && decide (x ≤ w.p)).length
    let cont := match c.cont with
      | none => false
      | some k => k.owner == some o
    let s := s.setCap b i { c with
      wins := c.wins.filter fun w => !(mine w && decide (y < w.first)),
      held := c.held.filter fun w => !(w.owner == some o && decide (x ≤ w.p)) }
    let s := (s.count (capPg b i + Off.CAP_DISCARD_COUNT) n).capTrunc b i z mine
    if cont then s.contCutAt b i z else s) s
  let s := s.fres.foldl (fun s e =>
    match e.2.gate with
    | none => s
    | some g => if g.owner == some o then s.gateCut (e.1 / 2) (e.1 % 2) x else s) s
  s.tius.foldl (fun s e =>
    if e.2.armed && e.2.owner == some o then s.tiuEnd (e.1 / 4) (e.1 % 4) true false else s) s

/-- The end of the last of a shot's effects in progress. -/
def State.effectsEnd (s : State) (o : Owner) : Nat :=
  let a := s.edges.foldl (fun m e =>
    match e.2.eff with
    | none => m
    | some f => if f.owner == some o then max m (f.end_.getD m) else m) 0
  let b := s.tones.foldl (fun m e =>
    match e.2.pulse with
    | none => m
    | some p => if p.owner == some o then max m p.end_ else m) a
  s.caps.foldl (fun m e => e.2.wins.foldl (fun m w => if w.owner == some o then max m (s.winEnd w) else m) m) b

/-- A shot's pegs from `x` on are withdrawn, its effects in progress end, and the end of its last effect is as they leave
it. -/
def State.cutShot (s : State) (o : Owner) (x : Nat) (count : Bool) : State :=
  let s1 := (s.withdraw o x count).cutEffects o x
  let e := s1.effectsEnd o
  s1.updShot (some o) fun h => { h with
    effEnd := max (min h.effEnd s1.now) e, cutPt := some (min x (h.cutPt.getD x)) }

/-- The sequencer whose running shot was voided executes no further step of it (R299): the shot waits for its entry. In
FREE mode its replay takes REPLAY_GAP (R300). -/
def State.stopIssuing (s : State) (o : Owner) : State :=
  let x := s.seq o.seq
  match x.shot with
  | none =>
    let mode := s.fld (seqPg o.seq + Off.SEQ_SHOT_START) 0 2
    if (x.phase == .planned && mode != 2 || x.phase == .trigWait) && x.owed.isEmpty then
      s.setSeq o.seq { x with
        phase := .voidWait, next := none, gap := s.fld (bp (o.seq / 16) 0x18 + Off.CONTINUITY_CONT_CTRL) 16 16 }
    else s
  | some h =>
    if h.num = o.shot then
      s.setSeq o.seq { x with
        shot := none, tail := x.tail ++ [h], phase := .voidWait, cur := none, stack := [], awaitWait := false,
        syncWait := false, runAheadWait := false, next := none,
        gap := s.fld (bp (o.seq / 16) 0x18 + Off.CONTINUITY_CONT_CTRL) 16 16 }
    else s

/-- A shot is voided from `x` (R46). A second cause moves the void PT only if it is earlier; `noReplay` says that the
cause forbids the replay (R298), and `poison` names the word whose rewriting the replay awaits (R18). -/
def State.voidShot (s : State) (o : Option Owner) (x : Nat) (noReplay : Bool) (poison : Option Nat) : State :=
  match o with
  | none => s
  | some w =>
    match s.shotOf w with
    | none => s
    | some h =>
      let first := h.voidPt.isNone
      let s1 := s.updShot o fun h => { h.flag 2 with
        voidPt := some (match h.voidPt with
          | none => x
          | some y => min x y),
        noReplay := h.noReplay || noReplay, fillOnly := false,
        poison := match h.poison with
          | none => poison
          | some a => some a }
      let s2 := if first then s1.bump (seqPg w.seq + Off.SEQ_VOID_COUNT) else s1
      let cuts := match h.voidPt with
        | none => true
        | some y => decide (x < y)
      (if cuts then s2.cutShot w x false else s2).stopIssuing w

/-- A shot is marked void by a FILL underrun at `x` (R168): nothing is withdrawn and its steps run on. -/
def State.markVoid (s : State) (o : Option Owner) (x : Nat) : State :=
  match o with
  | none => s
  | some w =>
    match s.shotOf w with
    | none => s
    | some h =>
      let s1 := s.updShot o fun h => { h.flag 2 with
        voidPt := some (match h.voidPt with
          | none => x
          | some y => min x y),
        fillOnly := h.voidPt.isNone || h.fillOnly }
      if h.voidPt.isNone then s1.bump (seqPg w.seq + Off.SEQ_VOID_COUNT) else s1

end Sys2Proof.Machine
end

