-- ==== Sys2Proof/Machine/Lanes.lean ====
section
/-!
DEFINITION. Machine/Lanes.lean: the lane kinds (R38, R39), what makes a lane enabled and live (R447, R448), late pegs
(R45), collisions (R42), and the acceptance of a peg (R43, R44) with the checks of each kind's chapter.
-/

namespace Sys2Proof.Machine

/-- The number of lanes of a kind (R39); reserved kinds have none. -/
def kindCount (k : Nat) : Nat :=
  if k = 0 then 32 else if k = 1 ∨ k = 2 then 64 else if k = 3 then 16 else if k = 4 then 4 else if k = 5 then 16
  else if k = 6 then 8 else if k = 7 then 64 else 0

/-- Does a lane address name a lane of the package (R38, R40)? -/
def State.laneValid (s : State) (lane : Nat) : Bool :=
  s.has (laneBent lane) && decide (laneIdx lane < kindCount (laneKind lane))

/-- Queue depth (R39). -/
def laneDepth (lane : Nat) : Nat :=
  let k := laneKind lane
  if k = 0 then 64 else if k ≤ 3 then 32 else 16

/-- Minimum lead in ticks (R39). -/
def laneLead (lane : Nat) : Nat :=
  let k := laneKind lane
  if k = 0 then 240 else if k = 1 ∨ k = 2 then 400 else if k = 3 then 480 else if k = 4 then 160
  else if k = 5 then 480 else if k = 6 then 160 else 80

/-- The page that governs a lane. -/
def lanePg (lane : Nat) : Nat :=
  let b := laneBent lane
  let i := laneIdx lane
  let k := laneKind lane
  if k = 0 then edgePg b i else if k ≤ 3 then tonePg lane else if k = 4 then capPg b i else if k = 5 then segPg b
  else if k = 6 then (if i < 4 then stampPg b else freqPg b) else bp b 3

/-- LATE_POLICY of a lane: 0 DROP, 1 SLIP, 2 VOID (R45). -/
def State.latePolicy (s : State) (lane : Nat) : Nat :=
  let b := laneBent lane
  let i := laneIdx lane
  let k := laneKind lane
  if k = 0 then s.fld (chCtrl b i) 4 2
  else if k ≤ 3 then s.fld (toneCtrl lane) 1 2
  else if k = 4 then s.fld (capPg b i + Off.CAP_CAP_CTRL) 1 2
  else if k = 5 then s.fld (segPg b + Off.SEGMENT_STR_CFG i) 2 2
  else if k = 6 then
    (if i < 4 then s.fld (stampPg b + Off.STAMP_TIU_CTRL i) 1 2 else s.fld (freqPg b + Off.FREQ_FRE_CTRL (i - 4)) 1 2)
  else s.fld (bp b 3 + Off.TIME_MARK_CTRL) 0 2

/-- The lane's resource is out of service (R120, R193, R222). -/
def State.laneFault (s : State) (lane : Nat) : Bool :=
  let b := laneBent lane
  let i := laneIdx lane
  let k := laneKind lane
  if k = 0 then s.bit (chStat b i) 13 else if k ≤ 3 then s.outFault lane else if k = 4 then s.capFault b i else false

/-- The lane is enabled (R447), its page's FENCE aside. -/
def State.laneEnabled (s : State) (lane : Nat) : Bool :=
  let b := laneBent lane
  let i := laneIdx lane
  let k := laneKind lane
  if k = 0 then s.chLive b i || s.chSensing b i
  else if k ≤ 3 then s.toneOn lane
  else if k = 4 then s.capOn b i
  else if k = 5 then s.enabled (segPg b) && s.strKind b i != 0
  else if k = 6 then s.enabled (lanePg lane)
  else true

/-! ### Drains -/

/-- The key of a lane's drain instant. -/
abbrev drainLane (lane : Nat) : Nat := 2 * lane

/-- The key of a page's drain instant. -/
abbrev drainPage (pg : Nat) : Nat := 2 * pg + 1

/-- The instant a drain was written, while it lasts. -/
def State.drainAt (s : State) (key : Nat) : Option Nat := mapGet (fun _ => none) s.drainPt key

/-- Put or clear a drain instant. -/
def State.setDrain (s : State) (key : Nat) (x : Option Nat) : State :=
  { s with drainPt := mapSet (fun _ => none) s.drainPt key x }

/-- Was a peg's shot admitted before an instant? A shot that has its entry counts as admitted long before; a peg of no
shot, unless a trigger issued it, counts as later work. -/
def State.admittedBefore (s : State) (p : Peg) (x : Nat) : Bool :=
  match p.owner with
  | none => p.trig
  | some o =>
    match s.shotOf o with
    | none => true
    | some h => decide (h.admitAt < x)

/-- Does a drain of the lane or of its page refuse the peg (R117, R191, R221)? -/
def State.drainRefuses (s : State) (lane : Nat) (p : Peg) : Bool :=
  (match s.drainAt (drainLane lane) with
   | none => false
   | some x => !s.admittedBefore p x) ||
  (match s.drainAt (drainPage (lanePg lane)) with
   | none => false
   | some x => !s.admittedBefore p x)

/-- A channel in VECTOR mode has drained: it follows its stream no more (R117). -/
def State.vecStopped (s : State) (b ch : Nat) : Bool :=
  ((s.drainAt (drainLane (laneAddr b 0 ch))).isSome || (s.drainAt (drainPage (edgePg b ch))).isSome) &&
    !s.bit (chStat b ch) 5

/-! ### Resource groups (R14, R324–R326) -/

/-- The end of a group's exit to S0, while it wakes. -/
def State.wakeAt (s : State) (b g : Nat) : Option Nat := mapGet (fun _ => none) s.wakes (b * 16 + g)

/-- Exit times of R323 in kerfs. -/
def exitTime (st : Nat) : Nat :=
  if st = 0 then 0 else if st = 1 then 1600000 else if st = 2 then usK else if st = 3 then 10 * usK else 100 * usK

/-- A group below S0 starts to wake (R326). -/
def State.groupWake (s : State) (b g : Nat) : State :=
  if s.fld (grpStat b g) 0 2 = 0 then s
  else if (s.wakeAt b g).isSome then s
  else
    let x := s.now + exitTime (s.fld (grpStat b g) 0 2)
    let s1 := { s with wakes := mapSet (fun _ => none) s.wakes (b * 16 + g) (some x) }
    s1.setFld (grpStat b g) 2 1 1

/-- WAKE_LATE (R326). -/
def State.wakeLate (s : State) (b : Nat) : State :=
  (s.bump (bp b 0x19 + Off.ENERGY_WAKE_LATE_COUNT)).raise (bp b 0x19) 1

/-- t_live of a lane that is enabled but not live (R448), 0 for a live one. `calLive` is the instant of the bent's
PWRUP_DONE, used only before it. -/
def State.liveAt (s : State) (lane calLive : Nat) : Nat :=
  let b := laneBent lane
  let x := if s.pwrup b then 0 else calLive
  let y := if laneKind lane = 0 then (if s.chLive b (laneIdx lane) then 0 else ((s.edge b (laneIdx lane)).senseEnd.getD 0))
    else 0
  let z := match s.laneGroup lane with
    | none => 0
    | some g => max ((s.wakeAt b g).getD 0) ((s.wakeAt b 13).getD 0)
  max x (max y z)

/-! ### Late pegs and collisions (R42, R45) -/

/-- The lane page's records of a late peg: its late count, its event and its late cause (0 lead, 1 blocked). -/
def State.laneLate (s : State) (lane cause : Nat) : State :=
  let b := laneBent lane
  let i := laneIdx lane
  let k := laneKind lane
  if k = 0 then
    (((s.bump (edgePg b i + Off.EDGE_CH_LATE_COUNT (i % 8))).setFld (chStat b i) 12 1 cause).raise (edgePg b i) (i % 8))
  else if k ≤ 3 then ((s.bump (toneLate lane)).setFld (toneStat lane) 5 1 cause).toneFlag lane cause
  else if k = 4 then (s.bump (capPg b i + Off.CAP_LATE_COUNT)).capFlag b i 0
  else if k = 5 then (s.bump (segPg b + Off.SEGMENT_STR_LATE_COUNT i)).strFlag b i 6
  else s

/-- Records that every late peg leaves, whatever its policy (R45). -/
def State.lateRecords (s : State) (lane : Nat) (p : Peg) (cause timeCount : Nat) : State :=
  let b := laneBent lane
  (((s.laneLate lane cause).bump (bp b 3 + timeCount)).raise (bp b 3) 4).flagShot p.owner 1

/-- Is a peg of a tone or flux lane a PLAY with a poisoned data word (R18)? -/
def Peg.poisoned (p : Peg) (lane : Nat) : Bool :=
  decide (1 ≤ laneKind lane) && decide (laneKind lane ≤ 3) && bits p.payload 0 4 == 1 && playPoison p.payload != 0

/-- A PLAY whose shape has a poisoned word voids its shot from the start of that word's granule, and the replay awaits the word
(R18). -/
def State.voidPlay (s : State) (lane : Nat) (p : Peg) : State :=
  let i := playPoison p.payload - 1
  let w := (mb (laneBent lane) (0x1000000 + 4 * bits p.payload 64 21) + 4 * i) / 8
  (s.flagShot p.owner 9).voidShot p.owner (s.wordGran lane p.pt i) false (some w)

/-- Put a peg into a lane's queue, or discard it if a queued peg has its PT (R42). -/
def State.enqueue (s : State) (lane : Nat) (p : Peg) : State :=
  let b := laneBent lane
  if (s.queue lane).any (fun q => q.pt == p.pt) then
    ((s.bump (bp b 3 + Off.TIME_COLLIDE_COUNT)).raise (bp b 3) 5).flagShot p.owner 1
  else
    let s1 := s.setQueue lane (insertPeg (s.queue lane) p)
    if p.poisoned lane then s1.voidPlay lane p else s1

/-- A peg that its lane moved: a WINDOW or an arm keeps the mark. -/
def Peg.slipTo (p : Peg) (lane x : Nat) : Peg :=
  { p with pt := x, payload := if laneKind lane = 4 ∨ laneKind lane = 6 then p.payload ||| 2 ^ 64 else p.payload }

/-- Was the peg moved by SLIP? -/
def Peg.slipped (p : Peg) : Bool := p.payload.testBit 64

/-- Handle a late or blocked peg by its lane's policy (R45, R102, R185). `slip` is where SLIP moves it; none drops it. A
peg of no shot takes DROP for VOID (R104, R210). -/
def State.late (s : State) (lane : Nat) (p : Peg) (cause : Nat) (slip : Option Nat) : State :=
  let pol := s.latePolicy lane
  if pol = 1 then
    match slip with
    | some x => (s.lateRecords lane p cause Off.TIME_LATE_SLIP_COUNT).enqueue lane (p.slipTo lane x)
    | none => s.lateRecords lane p cause Off.TIME_LATE_DROP_COUNT
  else if pol = 2 && p.owner.isSome then
    (s.lateRecords lane p cause Off.TIME_LATE_VOID_COUNT).voidShot p.owner p.pt false none
  else s.lateRecords lane p cause Off.TIME_LATE_DROP_COUNT

/-- Discard a peg with the lane's discard count and the issuing shot's late flag (R447). -/
def State.discardPeg (s : State) (lane : Nat) (p : Peg) : State := (s.countDiscard lane 1).flagShot p.owner 1

/-! ### The checks of each kind on a payload -/

/-- ACTION of a peg. -/
abbrev Peg.action (p : Peg) : Nat := bits p.payload 0 4

/-- Is an edge peg one that the channel's mode and R99 accept (R100)? The mode's own triggered outputs are. -/
def State.edgePegOk (s : State) (b ch : Nat) (p : Peg) : Bool :=
  let a := p.action
  let m := s.chMode b ch
  bits p.payload 48 16 == 0 &&
    (if p.trig then m == 2 && (a == 2 || a == 3)
     else (m == 1 && decide (1 ≤ a) && decide (a ≤ 6)) || (m == 2 && (a == 7 || a == 8))) &&
    (a != 2 || decide (1600 ≤ bits p.payload 8 40))

/-- Is the action code of an edge peg reserved? -/
def edgeReserved (a : Nat) : Bool := a == 0 || decide (9 ≤ a)

/-- The shape table entry of an index (R181), on a bent. -/
abbrev shapeAddr (b i : Nat) : Nat := mb b (0x1000000 + 8 * i)

/-- LEN of a shape descriptor. -/
abbrev shapeLen (d : Nat) : Nat := bits d 32 21

/-- BASE of a shape descriptor. -/
abbrev shapeBase (d : Nat) : Nat := bits d 0 21

/-- The data words of a shape for a lane (R181). -/
def shapeWords (flux : Bool) (d : Nat) : Nat := if flux then (shapeLen d + 1) / 2 else shapeLen d

/-- Is a shape descriptor valid for a lane (R181)? Flux data pack two samples in a word. -/
def shapeOk (flux : Bool) (d : Nat) : Bool :=
  bits d 21 11 == 0 && bits d 53 11 == 0 && shapeLen d != 0 &&
    decide (shapeBase d + shapeWords flux d ≤ 0x200000)

/-- A PLAY with what its lane reads as it accepts it: above the payload its shape descriptor, the place of the first poisoned data
word, and the data words (R181, R182, log entry 177). -/
def State.playRead (s : State) (lane d : Nat) (p : Peg) : Peg :=
  let a := mb (laneBent lane) (0x1000000 + 4 * shapeBase d)
  let n := 4 * shapeWords (isFlux lane) d
  let bad := match s.firstPoison a n with
    | none => 0
    | some w => (w * 8 - a) / 4 + 1
  { p with payload := bits p.payload 0 64 + d * 2 ^ 64 + bad * 2 ^ 128 + s.memRd a n * 2 ^ 160 }

/-- The first data word, from the `i`-th on, of a PLAY at `p` whose granule starts at least 240 ticks after the present, so that
its lane may still have to read it (R182). -/
def State.unread (s : State) (lane p i : Nat) : Nat :=
  let step := (if isFlux lane then 2 else 1) * s.shapePeriod lane
  max i (ceilDiv (s.granCeil (s.now + 240 * s.clk.n) - p) step)

/-- A PLAY whose data words from the `i`-th on are read only as it applies (R182). -/
def State.playAgain (s : State) (lane i : Nat) (p : Peg) : Peg :=
  let d := bits p.payload 64 64
  let n := shapeWords (isFlux lane) d
  if n ≤ i then p
  else
    let a := mb (laneBent lane) (0x1000000 + 4 * (shapeBase d + i))
    let was := playPoison p.payload
    let bad := match s.firstPoison a (4 * (n - i)) with
      | none => was
      | some w =>
        let j := (w * 8 - a) / 4 + i + 1
        if was = 0 then j else min was j
    { p with payload := bits p.payload 0 128 + bad * 2 ^ 128 + bits p.payload 160 (32 * i) * 2 ^ 160 +
        s.memRd a (4 * (n - i)) * 2 ^ (160 + 32 * i) }

/-- A tone or flux peg is checked as it is accepted, and a PLAY reads its shape (R176, R181, R182); none if it is discarded. -/
def State.tonePeg (s : State) (lane : Nat) (p : Peg) : State ⊕ Peg :=
  let a := p.action
  let pg := tonePg lane
  if a = 0 ∨ 4 < a ∨ (isFlux lane ∧ (a = 2 ∨ a = 3)) then
    .inl (((s.countDiscard lane 1).toneFlag lane 6).latchHealth pg 0x70)
  else if a = 1 then
    let sa := shapeAddr (laneBent lane) (bits p.payload 4 12)
    let d := s.memRd sa 8
    if s.poisoned sa 8 || !shapeOk (isFlux lane) d then
      .inl (((s.countDiscard lane 1).toneFlag lane 5).latchHealth pg 0x71)
    else .inr (s.playRead lane d p)
  else .inr p

/-- A capture peg is checked, and WIN_DELAY is added to a WINDOW's PT (R207, R208), which keeps it above its payload, with its
place in the order of acceptance. A window of a pulse-width event has no WIN_DELAY (R210). -/
def State.capPeg (s : State) (b i : Nat) (p : Peg) : State ⊕ Peg :=
  let a := p.action
  if a = 0 ∨ 3 < a ∨ 3 < bits p.payload 4 4 ∨ bits p.payload 8 24 = 0 then
    .inl (((s.countDiscard (laneAddr b 4 i) 1).capFlag b i 9).latchHealth (capPg b i) 0x80)
  else if a = 1 then
    let d := if p.trig then 0 else s.fld (capPg b i + Off.CAP_WIN_DELAY) 0 24
    .inr { p with pt := ptAdd p.pt d, payload := bits p.payload 0 64 + d * 2 ^ 72 + (s.cap b i).seqNo * 2 ^ 96 }
  else .inr p

/-- Is a stamp arm peg one its instrument takes (R242)? -/
def armOk (i a : Nat) : Bool :=
  (decide (i < 4) && (a == 1 || a == 2)) || ((i == 4 || i == 5) && (a == 3 || a == 4))

/-- Check a peg at its lane: discarded (the state that leaves), or as the lane queues it. A stream's peg takes effect at a
granule boundary: the first at or after its PT (R28, R157, log entry 180). -/
def State.checkPeg (s : State) (lane : Nat) (p : Peg) : State ⊕ Peg :=
  let b := laneBent lane
  let i := laneIdx lane
  let k := laneKind lane
  if k = 0 then
    (if s.edgePegOk b i p then .inr p
     else
       let s1 := s.countDiscard lane 1
       .inl (if edgeReserved p.action then s1.latchHealth (edgePg b i) 0x43 else s1))
  else if k ≤ 3 then s.tonePeg lane p
  else if k = 4 then s.capPeg b i p
  else if k = 5 then
    (if bits p.payload 16 48 = 0 then .inr { p with pt := s.granCeil p.pt } else .inl (s.discardPeg lane p))
  else if k = 6 then
    (if armOk i p.action then .inr p else .inl ((s.countDiscard lane 1).latchHealth (stampPg b) 0x91))
  else .inr p

/-! ### Acceptance -/

/-- Where SLIP moves a peg found late at acceptance: the first tick k ≥ k_a + L, at or after t_live, with the peg's own
offset; on a stream lane the first granule boundary (R45, R157, R448). -/
def State.slipPt (s : State) (lane pt live : Nat) : Nat :=
  let k := s.tick s.now + laneLead lane
  if laneKind lane = 5 then s.granCeil (max (s.ptOf k) live)
  else
    let o := s.ofs pt
    s.ptOf (max k (ceilDiv (live - s.clk.o - o) s.clk.n)) + o

/-- The lead test of R44 and R448 on a peg that its lane takes. -/
def State.leadTest (s : State) (lane : Nat) (p : Peg) (calLive : Nat) : State :=
  let live := s.liveAt lane calLive
  let waking := match s.laneGroup lane with
    | none => 0
    | some g => max ((s.wakeAt (laneBent lane) g).getD 0) ((s.wakeAt (laneBent lane) 13).getD 0)
  let s1 := if p.pt < waking then s.wakeLate (laneBent lane) else s
  if s.clk.o + (s.tick s.now + laneLead lane) * s.clk.n ≤ p.pt && decide (live ≤ p.pt) then s1.enqueue lane p
  else s1.late lane p 0 (some (s.slipPt lane p.pt live))

/-- A capture lane counts what it accepts. -/
def State.accepted (s : State) (lane : Nat) : State :=
  if laneKind lane = 4 then
    let b := laneBent lane
    let i := laneIdx lane
    s.setCap b i { s.cap b i with seqNo := (s.cap b i).seqNo + 1 }
  else s

/-- A lane below S0 that a peg does not wake: its group without AUTOWAKE, or in a bent in S3 or S4 (R326, R327, log entry 193). -/
def State.unwoken (s : State) (lane : Nat) : Bool :=
  let b := laneBent lane
  match s.laneGroup lane with
  | none => false
  | some g =>
    (decide (3 ≤ s.fld (bentStat b) 0 3) && (s.wakeAt b 13).isNone) ||
      (s.fld (grpStat b g) 0 2 != 0 && (s.wakeAt b g).isNone && !s.bit (bp b 0x19 + Off.ENERGY_GRP_CTRL g) 2)

/-- A peg reaches its lane with the queue open: enabled, drained, awake, valid and distinct, it passes the lead test. -/
def State.takePeg (s : State) (lane : Nat) (p : Peg) (calLive : Nat) : State :=
  let b := laneBent lane
  if s.fenced (lanePg lane) && laneKind lane != 7 then s.discardPeg lane p
  else if !s.laneEnabled lane then s.discardPeg lane p
  else if s.laneFault lane then s.countDiscard lane 1
  else if s.drainRefuses lane p then s.discardPeg lane p
  else
    match s.checkPeg lane p with
    | .inl s1 => s1
    | .inr q =>
      if s.unwoken lane then
        (s.lateRecords lane q 0 Off.TIME_LATE_DROP_COUNT).wakeLate b
      else
        let s0 := s.accepted lane
        let s1 := match s0.laneGroup lane with
          | none => s0
          | some g => s0.groupWake b g
        if (s1.queue lane).any (fun x => x.pt == q.pt) then s1.enqueue lane q else s1.leadTest lane q calLive

/-- Has the lane no room for a peg it would queue (R43)? -/
def State.laneFull (s : State) (lane : Nat) : Bool :=
  decide (laneDepth lane ≤ (s.queue lane).length) && s.laneEnabled lane && !s.fenced (lanePg lane)

/-- The bent that issued a peg; a command's peg is issued by the lane's own bent. -/
def Peg.fromBent (p : Peg) (lane : Nat) : Nat :=
  match p.owner with
  | none => laneBent lane
  | some o => o.seq / 16

/-- Peg payloads offered to a lane go out in order of issue. -/
def State.offer (s : State) (lane : Nat) (p : Peg) : State := s.setFlight lane (s.inFlight lane ++ [p])

/-- The check of the shape memory word `word` that a lane reads as it accepts a PLAY (R17, R18). -/
def State.shapeCheck (s : State) (lane : Nat) (p : Peg) (ecc : Ecc) (word : Nat) : State :=
  if 1 ≤ laneKind lane && laneKind lane ≤ 3 && p.action == 1 then s.eccRead (mb (laneBent lane) (0x1000000 + 8 * word)) ecc
  else s

/-- The first peg on its way to a lane reaches it (R38–R46, R304, R344, R447, R448). -/
def State.acceptPeg (s : State) (lane : Nat) (parity : Bool) (calLive : Nat) (ecc : Ecc) (word : Nat) : State :=
  match s.inFlight lane with
  | [] => s
  | p :: r =>
    let b := laneBent lane
    let crosses := p.fromBent lane != b
    let s1 := s.setFlight lane r
    if crosses && s.bit (bp b 0x18 + Off.CONTINUITY_CONT_STAT) 0 then
      (s1.bump (bp (p.fromBent lane) 0x18 + Off.CONTINUITY_FENCED_PEG_COUNT)).flagShot p.owner 1
    else if crosses && parity then
      (((s1.bump (pkgp 5 + Off.HIER_FABRIC_PARITY_COUNT)).raise (pkgp 5) 5).voidShot p.owner p.pt false none)
    else if s.laneFull lane then s
    else (s1.shapeCheck lane p ecc word).takePeg lane p calLive

/-- The queue's head, if it is due and carries one of the actions; the lane without it. -/
def State.popPeg (s : State) (lane : Nat) (ok : Peg → Bool) : Option (Peg × State) :=
  match s.queue lane with
  | [] => none
  | p :: r => if p.pt ≤ s.now && ok p then some (p, s.setQueue lane r) else none

end Sys2Proof.Machine
end

