-- ==== Sys2Proof/Machine/Edge.lean ====
section
/-!
DEFINITION. Machine/Edge.lean: edge channels: where the engine places a transition (R97), the level at a pin (R115, R121),
stopping a channel (R116, R118) and sensing it (R113, R114), the meaning of each edge peg at its PT (R100–R103), triggered
outputs (R104–R107), the channel commands (R113, R116, R117), pin faults (R120) and the adaptive threshold (R111).
-/

namespace Sys2Proof.Machine

/-! ### Placement (R97) -/

/-- The engine that serves a channel, as the instance of its calibration items: its own, or the group's trestle (R98, R262). -/
def State.engineOf (s : State) (b ch : Nat) : Nat := if s.bit (chStat b ch) 4 then 32 + ch / 8 else ch

/-- d_c of a channel in 1/16 kerf: the trim in force of the engine that serves it, with what its driver settings in force add
(R97, R112). -/
def State.pathDelay (s : State) (b ch : Nat) : Int :=
  let d := s.rd (edgePg b ch + Off.EDGE_CH_DRV_CFG (ch % 8))
  s.trim b 3 (s.engineOf b ch) 0 +
    Config.driverDelay b ch (bits d 0 7) (bits d 8 7) (s.bit (chCtrl b ch) 10)

/-- Where an engine places a transition (R97): the coarse tick, the fine offset in kerfs, the tap and the vernier step. -/
structure Placement where
  tick : Int
  ofs : Nat
  tap : Nat
  vern : Nat
  deriving DecidableEq, Repr

/-- The placement of a transition at PT `p` (R97); d_c is taken to the nearest kerf. -/
def State.place (s : State) (b ch p : Nat) : Placement :=
  let t : Int := p - roundDiv (s.pathDelay b ch) 16 - s.clk.o
  let o := (t % (s.clk.n : Int)).toNat
  { tick := t / (s.clk.n : Int), ofs := o, tap := o / 16, vern := o % 16 }

/-! ### The level at a pin (R115, R120, R121) -/

/-- The bent has locked since reset, so that its drivers may drive (R86, R115). -/
def State.hasLock (s : State) (b : Nat) : Bool := (s.cal b).lockAt.isSome

/-- The channel is live: its sensing is over, and so is the bent's power-up calibration (R22, R113, R269). -/
def State.chOn (s : State) (b ch : Nat) : Bool := s.chLive b ch && s.pwrup b

/-- A channel follows its vector stream: in VECTOR mode, live, and not drained. -/
def State.vecOn (s : State) (b ch : Nat) : Bool := s.chMode b ch == 3 && s.chOn b ch && !s.vecStopped b ch

/-- CHc_STAT.LEVEL: the level at the pin (R115, R125). A driver that is out of service, or of a bent that has not locked, is
high-impedance; a self-test holds every pin at its rest level; a channel that a drain has stopped drives its rest level. -/
def State.pinLevel (s : State) (b ch : Nat) : Bool :=
  if s.bit (chStat b ch) 13 || !s.hasLock b then s.offLevel b ch
  else if s.bit (edgePg b ch + Off.PG_PAGE_STAT) 3 then s.chRest b ch
  else if (s.edge b ch).driverOn s.now then s.chLevel b ch
  else if s.vecOn b ch then (s.vecDrive b ch (s.vecAt b ch s.now)).getD (s.offLevel b ch)
  else if s.chMode b ch == 3 && s.chOn b ch then s.chRest b ch
  else s.offLevel b ch

/-! ### Stopping a channel (R116, R118) -/

/-- A channel whose vector stream it follows no more: the vector in progress holds to its end, and the driver then drives (R116
step 2). While the vector drives nothing the pin holds `off`. -/
def State.vecFreeze (s : State) (b ch : Nat) (off : Bool) : EdgeSt :=
  let e := s.edge b ch
  let x := s.vecEnd b ch s.now
  match s.vecDrive b ch (s.vecAt b ch s.now) with
  | some l => { e with base := l, eff := none, driving := true, onAt := 0, offAt := none, lastTrans := some (x - 5 * s.clk.n) }
  | none => { e with base := off, eff := none, driving := true, onAt := x, offAt := none }

/-- The channel with the effect in progress cut as R116 step 2 says, and the instant that effect ends. `v` is the state whose
settings its vector follows; `off` is what the pin holds with its driver off. -/
def State.stopEffect (s v : State) (b ch : Nat) (off : Bool) : EdgeSt × Nat :=
  if v.vecOn b ch && !(s.edge b ch).driverOn s.now then (v.vecFreeze b ch off, v.vecEnd b ch s.now)
  else
    let e := (s.edge b ch).upto (s.chRest b ch) s.now
    match e.eff with
    | none => (e, s.now)
    | some f => ({ e with eff := some (f.cut s.now) }, max s.now (((f.cut s.now).end_).getD s.now))

/-- Immediate disable of a channel (R116): queued pegs and pending outputs are discarded and counted, the effect in
progress ends without a runt, the driver goes to rest and holds there for 16 ticks, and the channel is no longer live. `v` is
the state before a commit that took its mode. -/
def State.edgeDisableFrom (s v : State) (b ch : Nat) : State :=
  let lane := laneAddr b 0 ch
  let s0 := s.dropTrig lane (edgePg b ch + Off.EDGE_CH_DISCARD_COUNT (ch % 8))
  let s1 := (s0.count (edgePg b ch + Off.EDGE_CH_DISCARD_COUNT (ch % 8)) (s.queue lane).length).setQueue lane []
  let s2 := s1.edgeDisarm b ch s.now
  let (f, endAt) := s2.stopEffect v b ch (s.chRest b ch)
  let e := { f with armAt := (s2.edge b ch).armAt, disarmAt := (s2.edge b ch).disarmAt }
  let lastT := match e.eff with
    | none => e.lastTrans.getD endAt
    | some g => g.end_.getD endAt
  let restAt := if e.base == s.chRest b ch then none else some (max endAt (lastT + 1600))
  let holdEnd := if e.driving && e.offAt.isNone then some (restAt.getD endAt + 16 * s.clk.n) else none
  let e' := { e with restAt := restAt, holdEnd := holdEnd, senseEnd := none, drainAt := none, dk := none }
  let st := s2.rd (chStat b ch)
  ((s2.setEdge b ch e').wr (chStat b ch) (putBits (putBits (putBits st 0 1 0) 3 1 0) 5 1 0))

/-- Immediate disable of a channel in the mode it is in. -/
def State.edgeDisable (s : State) (b ch : Nat) : State := s.edgeDisableFrom s b ch

/-- A committed change between two modes other than OFF (R118): the effect in progress completes, queued pegs that the new mode
does not accept are discarded, and the channel goes on from the level the pin holds. `v` is the state before the commit. -/
def State.modeChange (s v : State) (b ch : Nat) : State :=
  let lane := laneAddr b 0 ch
  let held := v.pinLevel b ch
  let s1 := s.edgeDisarm b ch s.now
  let (f, endAt) := s1.stopEffect v b ch held
  let keep := (s1.queue lane).filter fun p => s1.edgePegOk b ch p
  let s2 := (s1.countDiscard lane ((s1.queue lane).length - keep.length)).setQueue lane keep
  let m := s2.chMode b ch
  let out := m == 1 || m == 2
  let on := f.driverOn s.now || decide (s.now < f.onAt)
  let e := { f with
    base := if f.eff.isSome || decide (s.now < f.onAt) then f.base else held, dk := none,
    armAt := (s1.edge b ch).armAt, disarmAt := (s1.edge b ch).disarmAt,
    driving := s2.chLive b ch && !s2.bit (chStat b ch) 13 && (out || on),
    offAt := if out then none else some endAt }
  s2.setEdge b ch e

/-! ### Sensing (R113, R114) -/

/-- REST_CLASS of 64 samples in mV and the shift in mV that the probe current makes (R114). -/
def restClass (single : Bool) (samples : List Int) (shift : Nat) : Nat :=
  let lo : Int := if single then 400 else -50
  let hi : Int := if single then 800 else 50
  let low (x : Int) : Bool := decide (x < lo)
  let high (x : Int) : Bool := decide (hi < x)
  if samples.any fun x => !low x && !high x then 3
  else if samples.any low && samples.any high then 4
  else if shift < 10 then 5
  else if samples.any low then 1 else 2

/-- The pin leaves sensing: classified (0: not sensed), its rest level chosen, and live if sensing was for a mode (R114). -/
def State.edgeGoLive (s : State) (b ch : Nat) (cls : Nat) (level : Bool) (live : Bool) : State :=
  let e := s.edge b ch
  let mode := s.chMode b ch
  let flag := decide (3 ≤ cls)
  let rest := if cls = 1 then false else if cls = 2 then true else level
  let st := s.rd (chStat b ch)
  let st := putBits (putBits (putBits st 6 1 (b2n rest)) 7 1 (b2n flag)) 8 3 cls
  let st := if live then putBits st 0 1 1 else st
  let pg := edgePg b ch
  let s1 := (s.wr (chStat b ch) st).setBit (pg + Off.EDGE_GRP_STAT) (24 + ch % 8) flag
  let anyFlag := s1.fld (pg + Off.EDGE_GRP_STAT) 24 8 != 0
  let s2 := s1.standing pg 0x40 anyFlag
  s2.setEdge b ch { e with
    senseEnd := none, base := rest, eff := none, restAt := none, holdEnd := none, onAt := 0, offAt := none,
    driving := live && (mode == 1 || mode == 2), dk := none, thrAt := if live then s.now else e.thrAt }

/-- Rest-level sensing starts (R113), or is skipped under REST_FORCE (R114). `live`: it will make the channel live. -/
def State.edgeSense (s : State) (b ch : Nat) (live : Bool) : State :=
  if s.bit (chCtrl b ch) 8 then s.edgeGoLive b ch 0 (s.bit (chCtrl b ch) 9) live
  else
    s.setEdge b ch { s.edge b ch with
      senseEnd := some (s.now + 2 * usK), senseLive := live, driving := false, holdEnd := none }

/-- Sensing starts on a channel that is not OFF, not live and not sensing to be live, of an enabled page (R113). -/
def State.edgeSenseIf (s : State) (b ch : Nat) : State :=
  if s.chMode b ch != 0 && !s.chLive b ch && !s.chSensing b ch && !s.bit (chStat b ch) 13 &&
      s.enabled (edgePg b ch) && !s.fenced (edgePg b ch)
  then s.edgeSense b ch true else s

/-! ### Edge pegs (R100–R103) -/

/-- A peg of a lane of kind 0, as its effect finds it (R102). -/
inductive EdgeBlock where
  | free
  | blocked (slip : Option Nat)
  deriving DecidableEq, Repr

/-- Is a peg applied at `p` blocked (R102)? `moves` says that it makes a first transition at `p`, `overClock` that a
running clock never blocks it. -/
def EdgeSt.blocks (e : EdgeSt) (p : Nat) (moves overClock : Bool) : EdgeBlock :=
  let spacing : EdgeBlock := match e.lastTrans with
    | none => .free
    | some l => if moves && decide (p < l + 1600) then .blocked (some (l + 1600)) else .free
  match e.eff with
  | none => spacing
  | some f =>
    if f.clock && overClock then .free
    else if f.clock && f.count.isNone then .blocked none
    else
      match f.end_ with
      | none => .blocked none
      | some q => if p < q then (if f.clock then .blocked none else .blocked (some (q + 1600))) else spacing

/-- Apply the head of an edge lane that carries an action, unless it is blocked (R100, R102); the shot's effects last at
least to its PT. -/
def State.edgeApply (s : State) (b ch : Nat) (a : Nat) (moves : EdgeSt → Peg → Bool) (overClock : Bool)
    (f : State → Peg → EdgeSt → State) : State :=
  let lane := laneAddr b 0 ch
  match s.popPeg lane (fun p => p.action == a) with
  | none => s
  | some (p, s1) =>
    if s1.laneFault lane then s1.countDiscard lane 1
    else
      let e := (s1.edge b ch).upto (s1.chRest b ch) p.pt
      match e.blocks p.pt (moves e p) overClock with
      | .blocked slip => s1.late lane p 1 slip
      | .free =>
        let s2 := (f s1 p e).noteEff p.owner p.pt
        s2.setEdge b ch { s2.edge b ch with drv := p.owner.map fun (o : Owner) => o.seq }

/-- A level change of the pin at `p`. -/
def EdgeSt.drive (e : EdgeSt) (p : Nat) (l : Bool) : EdgeSt :=
  if e.base == l then e else { e with base := l, lastTrans := some p }

/-- SET (R100). -/
def execSet (t : PT) (b : Fin 8) (ch : Fin 32) (s : State) : Out :=
  runAt t s fun s => s.edgeApply b ch 1 (fun e p => e.base != bitAt p.payload 4) false fun s p e =>
    s.setEdge b ch (e.drive p.pt (bitAt p.payload 4))

/-- An effect of a voided shot that begins before the void PT ends there as an immediate disable ends it (R46 step 3). -/
def State.voided (s : State) (o : Option Owner) (f : EdgeEff) : EdgeEff :=
  match s.voidOf o with
  | none => f
  | some x => f.cut x

/-- A finite effect begins and its shot lasts to its end. -/
def State.edgeStart (s : State) (b ch : Nat) (p : Peg) (e : EdgeSt) (f : EdgeEff) : State :=
  let g := s.voided p.owner f
  (s.setEdge b ch { e with eff := some g }).noteEff p.owner (g.end_.getD p.pt)

/-- PULSE (R100). -/
def execPulse (t : PT) (b : Fin 8) (ch : Fin 32) (s : State) : Out :=
  runAt t s fun s => s.edgeApply b ch 2 (fun _ _ => true) false fun s p e =>
    let w := bits p.payload 8 40
    s.edgeStart b ch p e
      { start := p.pt, period := w + 1600, width := w, count := some 1, clock := false, owner := p.owner, trig := p.trig }

/-- PERIOD, WIDTH and COUNT of the pattern that a peg names (R101). -/
def State.pattern (s : State) (b ch : Nat) (i : Nat) : Nat × Nat × Nat :=
  let pg := edgePg b ch
  (s.rd (pg + Off.EDGE_PAT_PERIOD_LO i) + s.fld (pg + Off.EDGE_PAT_PERIOD_HI i) 0 8 * 2 ^ 32,
    s.rd (pg + Off.EDGE_PAT_WIDTH i), s.rd (pg + Off.EDGE_PAT_COUNT i))

/-- BURST (R100). -/
def execBurst (t : PT) (b : Fin 8) (ch : Fin 32) (s : State) : Out :=
  runAt t s fun s => s.edgeApply b ch 3 (fun _ _ => true) false fun s p e =>
    let (per, w, n) := s.pattern b ch (bits p.payload 5 3)
    s.edgeStart b ch p e
      { start := p.pt, period := per, width := w, count := some n, clock := false, owner := p.owner, trig := p.trig }

/-- CLOCK_START (R100); on a period that is no multiple of N it is a reserved action (R101). -/
def execClockStart (t : PT) (b : Fin 8) (ch : Fin 32) (s : State) : Out :=
  runAt t s fun s =>
    let lane := laneAddr b 0 ch
    match s.popPeg lane (fun p => p.action == 4) with
    | none => s
    | some (p, s1) =>
      if (s.pattern b ch (bits p.payload 5 3)).1 % s.clk.n ≠ 0 then
        (s1.countDiscard lane 1).latchHealth (edgePg b ch) 0x43
      else
        s.edgeApply b ch 4 (fun _ _ => true) false fun s p e =>
          let (per, w, _) := s.pattern b ch (bits p.payload 5 3)
          let f : EdgeEff :=
            { start := p.pt, period := per, width := w, count := none, clock := true, owner := p.owner, trig := false }
          s.setEdge b ch { e with eff := some (s.voided p.owner f) }

/-- A running clock stops at its first back transition at or after `p`, and its shot lasts until then (R103). -/
def State.clockStop (s : State) (b ch : Nat) (e : EdgeSt) (p : Nat) : State :=
  match e.eff with
  | some f =>
    if f.clock && f.count.isNone then
      let g := f.stopClock p
      (s.setEdge b ch { e with eff := some g }).noteEff f.owner (g.end_.getD p)
    else s.setEdge b ch e
  | none => s.setEdge b ch e

/-- CLOCK_STOP (R103). -/
def execClockStop (t : PT) (b : Fin 8) (ch : Fin 32) (s : State) : Out :=
  runAt t s fun s => s.edgeApply b ch 5 (fun _ _ => false) true fun s p e => s.clockStop b ch e p.pt

/-- REST (R100, R103): a running clock ends first, and the rest level follows 1 600 kerfs after its last transition. -/
def execRest (t : PT) (b : Fin 8) (ch : Fin 32) (s : State) : Out :=
  runAt t s fun s =>
    let rest := s.chRest b ch
    s.edgeApply b ch 6 (fun e _ => e.eff.isNone && e.base != rest) true fun s p e =>
      match e.eff with
      | none => s.setEdge b ch (e.drive p.pt rest)
      | some _ =>
        let s1 := s.clockStop b ch e p.pt
        let e1 := s1.edge b ch
        let q := (match e1.eff with
          | none => none
          | some f => f.end_).getD p.pt
        if e.base == rest then s1
        else (s1.setEdge b ch { e1 with restAt := some (q + 1600) }).noteEff p.owner (q + 1600)

/-- TRIG_SRC of a channel. -/
def State.trigSrc (s : State) (b ch : Nat) : Nat := s.rd (edgePg b ch + Off.EDGE_CH_TRIG_SRC (ch % 8))

/-- The source index names an edge pin that is not in RECEIVE mode, or the channel itself (R107). -/
def State.trigBad (s : State) (b ch : Nat) : Bool :=
  let w := s.trigSrc b ch
  bitAt w 0 && (bits w 1 5 == ch || s.chMode b (bits w 1 5) != 4)

/-- Does an edge of a polarity at the trigger source reach a channel (R104, R107): the polarity is the one TRIG_SRC names, and
the source stamps such edges? -/
def State.trigUsable (s : State) (b ch : Nat) (falling : Bool) : Bool :=
  let w := s.trigSrc b ch
  falling == bitAt w 6 && !s.trigBad b ch && s.srcUsable b (bits w 0 1, bits w 1 5, bits w 6 1)

/-- Advice on the trigger source of an armed channel that is not usable (R107). -/
def State.trigAdvise (s : State) (b ch : Nat) : State :=
  if s.bit (chStat b ch) 3 && s.trigBad b ch then s.latchHealth (edgePg b ch) 0x42 else s

/-- Arm a channel from `x`, with advice on a source that is not usable (R107). -/
def State.armFrom (s : State) (b ch x : Nat) : State := (s.edgeArm b ch x).trigAdvise b ch

/-- An ARM or DISARM peg at its PT; neither is ever blocked (R102, R107). -/
def State.armPeg (s : State) (b ch a : Nat) (f : State → Peg → State) : State :=
  let lane := laneAddr b 0 ch
  match s.popPeg lane (fun p => p.action == a) with
  | none => s
  | some (p, s1) => if s1.laneFault lane then s1.countDiscard lane 1 else (f s1 p).noteEff p.owner p.pt

/-- ARM (R107). -/
def execArm (t : PT) (b : Fin 8) (ch : Fin 32) (s : State) : Out :=
  runAt t s fun s => s.armPeg b ch 7 fun s p => s.armFrom b ch p.pt

/-- DISARM (R107). -/
def execDisarm (t : PT) (b : Fin 8) (ch : Fin 32) (s : State) : Out :=
  runAt t s fun s => s.armPeg b ch 8 fun s p => s.edgeDisarm b ch p.pt

/-- The triggered outputs of a channel that are pending at the present: on their way, queued or running (R106). -/
def State.trigPending (s : State) (b ch : Nat) : Nat :=
  let lane := laneAddr b 0 ch
  let run := match ((s.edge b ch).upto (s.chRest b ch) s.now).eff with
    | none => 0
    | some f => b2n f.trig
  ((s.inFlight lane ++ s.queue lane).filter fun p => p.trig).length + run

/-- Does a stamp fall within the channel's armed interval (R107)? -/
def State.armedAt (s : State) (b ch x : Nat) : Bool :=
  let e := s.edge b ch
  decide (e.armAt ≤ x) && (s.bit (chStat b ch) 3 || decide (x < e.disarmAt))

/-- The output of a trigger stamped `x` goes to the channel's own lane (R104). -/
def State.trigIssue (s : State) (b ch x : Nat) : State :=
  let pg := edgePg b ch
  let c := ch % 8
  let src := s.rd (pg + Off.EDGE_CH_TRIG_SRC c)
  let delay := s.rd (pg + Off.EDGE_CH_TRIG_DELAY_LO c) + s.fld (pg + Off.EDGE_CH_TRIG_DELAY_HI c) 0 22 * 2 ^ 32
  let width := s.rd (pg + Off.EDGE_CH_TRIG_WIDTH_LO c) + s.fld (pg + Off.EDGE_CH_TRIG_WIDTH_HI c) 0 8 * 2 ^ 32
  let payload := if bits src 8 2 = 0 then 2 + width * 2 ^ 8 else 3 + bits src 10 3 * 2 ^ 5
  s.offer (laneAddr b 0 ch) { pt := ptAdd x delay, payload := payload, owner := none, trig := true }

/-- RESTART withdraws the pending outputs that have not begun and ends a burst after its pulse in progress (R106). -/
def State.trigRestart (s : State) (b ch : Nat) : State :=
  let lane := laneAddr b 0 ch
  let count := edgePg b ch + Off.EDGE_CH_DISCARD_COUNT (ch % 8)
  let s1 := s.dropTrig lane count
  let s2 := (s1.count count ((s1.queue lane).filter fun p => p.trig).length).setQueue lane
    ((s1.queue lane).filter fun p => !p.trig)
  let e := (s2.edge b ch).upto (s2.chRest b ch) s2.now
  match e.eff with
  | none => s2
  | some f => if f.trig then s2.edgeCut b ch else s2

/-- TRIGGER: an edge at the trigger source of a channel (R104–R107). -/
def execTrigger (t : PT) (b : Fin 8) (ch : Fin 32) (edge : PinEdge) (s : State) : Out :=
  runAt t s fun s =>
    let pg := edgePg b ch
    let c := ch.val % 8
    let x := edge.stamp.toNat
    if s.chMode b ch = 2 && s.chOn b ch && s.trigUsable b ch edge.falling && s.armedAt b ch x && !s.laneFault (laneAddr b 0 ch) then
      let n := s.trigPending b ch
      let pol := s.fld (chCtrl b ch) 6 2
      let s1 := s.bump (pg + Off.EDGE_CH_TRIG_COUNT c)
      let s2 :=
        if (pol = 0 ∧ 0 < n) ∨ (pol = 1 ∧ 4 ≤ n) then s1.bump (pg + Off.EDGE_CH_TRIG_MISSED c)
        else (if pol = 2 then s1.trigRestart b ch else s1).trigIssue b ch x
      if s.bit (pg + Off.EDGE_CH_TRIG_SRC c) 7 then s2.edgeDisarm b ch x else s2
    else s

/-- CHc_CMD.STOP (R116). -/
def execChStop (t : PT) (b : Fin 8) (ch : Fin 32) (s : State) : Out :=
  runAt t s fun s => s.onlyIf (s.has b) fun s => s.command (edgePg b ch) fun s =>
    if s.chLive b ch || s.chSensing b ch then s.edgeDisable b ch else s

/-- A channel drains (R117): it disarms, and later pegs are refused. -/
def State.edgeDrain (s : State) (b ch : Nat) : State :=
  if s.chLive b ch || s.chSensing b ch then
    let s1 := (s.edgeDisarm b ch s.now).setBit (chStat b ch) 5 true
    s1.setEdge b ch { s1.edge b ch with drainAt := some s.now }
  else s

/-- CHc_CMD.DRAIN (R117). -/
def execChDrain (t : PT) (b : Fin 8) (ch : Fin 32) (s : State) : Out :=
  runAt t s fun s => s.onlyIf (s.has b) fun s => s.command (edgePg b ch) fun s =>
    (s.edgeDrain b ch).setDrain (drainLane (laneAddr b 0 ch)) (some s.now)

/-- CHc_CMD.RESENSE (R113). -/
def execChResense (t : PT) (b : Fin 8) (ch : Fin 32) (s : State) : Out :=
  runAt t s fun s => s.onlyIf (s.has b) fun s => s.startCmd (edgePg b ch) fun s =>
    if s.chLive b ch || (s.edge b ch).senseEnd.isSome || s.bit (chStat b ch) 13 then s
    else if s.chMode b ch = 0 then s.edgeSense b ch false
    else (s.edgeSenseIf b ch).setDrain (drainLane (laneAddr b 0 ch)) none

/-- CHc_CMD.ARM (R107). -/
def execChArm (t : PT) (b : Fin 8) (ch : Fin 32) (s : State) : Out :=
  runAt t s fun s => s.onlyIf (s.has b) fun s => s.startCmd (edgePg b ch) fun s =>
    if s.chMode b ch = 2 then s.armFrom b ch s.now else s

/-- CHc_CMD.DISARM (R107). -/
def execChDisarm (t : PT) (b : Fin 8) (ch : Fin 32) (s : State) : Out :=
  runAt t s fun s => s.onlyIf (s.has b) fun s => s.command (edgePg b ch) fun s => s.edgeDisarm b ch s.now

/-- SENSING_DONE: the 2 µs of sensing are over, with the 64 samples of the receiver in mV and the shift that the probe current
made (R113, R114). -/
def execSensingDone (t : PT) (b : Fin 8) (ch : Fin 32) (sensed : Sensed) (s : State) : Out :=
  runAt t s fun s =>
    let e := s.edge b ch
    match e.senseEnd with
    | none => s
    | some x =>
      if x ≤ s.now then
        s.edgeGoLive b ch (restClass (s.bit (chCtrl b ch) 10) sensed.samples sensed.shift) (s.bit (chCtrl b ch) 9) e.senseLive
      else s

/-- The DAC of a lane leaves its hold (R190 step 3). -/
def State.dacHoldEnd (s : State) (lane : Nat) : State :=
  match mapGet (fun _ => none) s.dacHold (dacKey lane) with
  | none => s
  | some x =>
    if x ≤ s.now then
      let s1 := s.dacSync lane x
      { s1 with dacHold := mapSet (fun _ => none) s1.dacHold (dacKey lane) none }
    else s

/-- DISABLE_HOLD_END: the hold of 16 ticks is over, and the driver (kind 0) or the converter of the lane (kinds 1–3)
goes to its disabled state (R116, R190). -/
def execDisableHoldEnd (t : PT) (b : Fin 8) (kind : Fin 4) (idx : Fin 64) (s : State) : Out :=
  runAt t s fun s =>
    if kind.val = 0 then
      let e := s.edge b idx
      match e.holdEnd with
      | none => s
      | some x =>
        if x ≤ s.now ∧ idx.val < 32 then
          s.setEdge b idx { e.upto (s.chRest b idx) s.now with holdEnd := none, driving := false }
        else s
    else s.dacHoldEnd (laneAddr b kind idx)

/-- PIN_FAULT: the driver of a live channel disagrees with its intended level (R120). -/
def execPinFault (t : PT) (b : Fin 8) (ch : Fin 32) (s : State) : Out :=
  runAt t s fun s =>
    let lane := laneAddr b 0 ch
    if s.chLive b ch && !s.laneFault lane then
      let pg := edgePg b ch
      let count := pg + Off.EDGE_CH_DISCARD_COUNT (ch.val % 8)
      let e := (s.edge b ch).upto (s.chRest b ch) s.now
      let s1 := s.setEdge b ch { e with eff := none, restAt := none, driving := false }
      let s2 := (s1.count count (s1.queue lane).length).setQueue lane []
      ((((s2.setBit (chStat b ch) 13 true).setBit (pg + Off.EDGE_GRP_STAT) (16 + ch.val % 8) true).standing pg 0x41
        true)).edgeDisarm b ch s.now
    else s

/-- Is the present a tick at which the trestle and an engine can change places (R98, R271): no effect runs, and no peg
has its PT within 480 ticks? -/
def State.clearTick (s : State) (b ch : Nat) : Bool :=
  let e := (s.edge b ch).upto (s.chRest b ch) s.now
  e.eff.isNone && e.restAt.isNone && (s.queue (laneAddr b 0 ch)).all fun p => decide (s.now + 480 * s.clk.n ≤ p.pt)

/-- The threshold in force in mV (R111, R112): THR_MANUAL, which counts from 600 mV on a single-ended pin, or the adaptive one
within the range of the pin. -/
def State.threshold (s : State) (b ch : Nat) : Int :=
  let cfg := s.rd (edgePg b ch + Off.EDGE_CH_RCV_CFG (ch % 8))
  let single := s.bit (chCtrl b ch) 10
  let x := if bitAt cfg 0 then toSigned 12 (bits cfg 4 12) + (if single then 600 else 0)
    else toSigned 12 (s.rd (edgePg b ch + Off.EDGE_CH_RCV_THR (ch % 8)))
  if single then clampI 100 1100 x else clampI (-500) 500 x

/-- RCV_THR: the threshold in force and the amplitude measured (R111, R124). -/
def State.thrRead (s : State) (b ch : Nat) : Nat :=
  putBits (s.rd (edgePg b ch + Off.EDGE_CH_RCV_THR (ch % 8))) 0 12 (ofSigned 12 (s.threshold b ch))

/-- THR_WINDOW: an adaptive threshold window of 2^THR_TC µs ends, with the transitions it saw and the lowest and highest level in
mV (R111). The threshold moves some way toward the midpoint, which the spec does not put in figures: a free value between
the two (log entry 1). -/
def execThrWindow (t : PT) (b : Fin 8) (ch : Fin 32) (transitions : Nat) (low high : Int) (s : State) : Out :=
  runAt t s fun s =>
    let pg := edgePg b ch
    let cfg := pg + Off.EDGE_CH_RCV_CFG (ch.val % 8)
    let thr := pg + Off.EDGE_CH_RCV_THR (ch.val % 8)
    let e := s.edge b ch
    if s.chLive b ch && !s.bit cfg 0 && decide (e.thrAt + 2 ^ s.fld cfg 20 4 * usK ≤ s.now) then
      let s0 := s.setEdge b ch { e with thrAt := s.now }
      if transitions < 16 then s0.setBit (chStat b ch) 11 true
      else
        let old := s0.threshold b ch
        let mid := (low + high) / 2
        let lo := min old mid
        let (v, s1) := s0.fresh1
        let new := lo + ((v % ((old - mid).natAbs + 1) : Nat) : Int)
        let kept := if s.bit (chCtrl b ch) 10 then clampI 100 1100 new else clampI (-500) 500 new
        let amp := min (high - low).toNat 0xFFF
        (s1.setBit (chStat b ch) 11 false).wr thr (ofSigned 12 kept + amp * 2 ^ 16)
    else s

end Sys2Proof.Machine
end

