-- ==== Sys2Proof/Machine/Operands.lean ====
section
/-!
DEFINITION. Machine/Operands.lean: the fields of a step (R129–R131), which steps are reserved, and the payloads that the
timed steps build (R157, R175, R207).
-/

namespace Sys2Proof.Machine

/-- A parameter register of a sequencer. -/
abbrev seqP (k i : Nat) : Nat := seqPg k + Off.SEQ_P i

/-- Opcode of a step (R129). -/
abbrev stOp (w : Nat) : Nat := bits w 120 8

/-- LANE of a timed step (R130). -/
abbrev stLane (w : Nat) : Nat := bits w 105 15

/-- OFS of a timed step (R130). -/
abbrev stOfs (w : Nat) : Nat := bits w 80 24

/-- The bits that a step of an opcode may set (R130, R131). -/
def stMask (op : Nat) : Nat :=
  let timed := (2 ^ 15 - 1) * 2 ^ 105 + (2 ^ 24 - 1) * 2 ^ 80
  let m :=
    if op = 1 then timed + (2 ^ 64 - 1)
    else if op = 2 then timed + (2 ^ 48 - 1) * 2 ^ 32 + (2 ^ 12 - 1) * 2 ^ 16 + 15
    else if op = 3 then timed + (2 ^ 16 - 1) * 2 ^ 64
    else if op = 4 then timed + (2 ^ 44 - 1) * 2 ^ 36
    else if op = 5 then (2 ^ 8 - 1) * 2 ^ 112 + (2 ^ 48 - 1)
    else if op = 6 then (2 ^ 14 - 1) * 2 ^ 106 + (2 ^ 6 - 1) * 2 ^ 99 + (2 ^ 24 - 1) * 2 ^ 40 + (2 ^ 17 - 1)
    else if op = 7 then (2 ^ 5 - 1) * 2 ^ 115 + (2 ^ 24 - 1) * 2 ^ 88 + (2 ^ 17 - 1)
    else if op = 8 then 2 ^ 17 - 1
    else if op = 10 then (2 ^ 14 - 1) * 2 ^ 106 + (2 ^ 32 - 1) * 2 ^ 24
    else if op = 11 then (2 ^ 12 - 1) * 2 ^ 108 + (2 ^ 64 - 1)
    else if op = 12 then 2 ^ 119 + (2 ^ 32 - 1)
    else if op = 14 then (2 ^ 11 - 1) * 2 ^ 109 + (2 ^ 80 - 1) * 2 ^ 24 + (2 ^ 17 - 1)
    else 0
  m + 255 * 2 ^ 120

/-- Is a step reserved (R129): its opcode, a nonzero reserved bit, or a reserved field value? -/
def stReserved (w : Nat) : Bool :=
  let op := stOp w
  op == 0 || decide (14 < op) || (w &&& stMask op) != w % 2 ^ 128 ||
    (op == 4 && (decide (3 < bits w 36 4) || bits w 40 24 == 0)) ||
    (op == 5 && decide (2 < bits w 116 4)) ||
    (op == 6 && bits w 103 2 == 3) ||
    (op == 7 && !bitAt w 119 && bits w 88 24 == 0) ||
    (op == 10 && (decide (bits w 106 8 < 2) || decide (128 < bits w 106 8))) ||
    (op == 11 && decide (3 < bits w 112 4)) ||
    (op == 14 && (decide (1 < bits w 118 2) ||
      (bits w 118 2 == 0 && (bits w 109 2 != 0 || (!bitAt w 117 && decide (7 < bits w 112 5))))))

/-- The payload of a PLAY step, after P register substitution (R131, R175). -/
def State.playPayload (s : State) (k w : Nat) : Nat :=
  let sub (flag lo : Nat) : Nat :=
    if bitAt w flag then s.rd (seqP k (bits w lo 4)) % 2 ^ 16 else bits w lo 16
  let shape := if bitAt w 3 then s.rd (seqP k (bits w 16 4)) % 2 ^ 12 else bits w 16 12
  1 + shape * 2 ^ 4 + sub 2 32 * 2 ^ 16 + sub 1 48 * 2 ^ 32 + sub 0 64 * 2 ^ 48

/-- The payload of a CAPTURE step (R207). -/
def capturePayload (w : Nat) : Nat := 1 + bits w 36 4 * 2 ^ 4 + bits w 40 24 * 2 ^ 8 + bits w 64 16 * 2 ^ 32

/-- The address of a step of a bent's step memory. -/
abbrev stepAddrOf (k a : Nat) : Nat := mb (k / 16) (16 * a)

/-- The number of set bits of a 16-bit mask. -/
def popcount16 (x : Nat) : Nat := (List.range 16).foldl (fun n i => n + b2n (bitAt x i)) 0

end Sys2Proof.Machine
end

