-- ==== Sys2Proof/Machine/SeqOps.lean ====
section
/-!
DEFINITION. Machine/SeqOps.lean: what the sequencer commands share: the energy walk (R147, R321), the next shot's start
(R134, R300), admission (R319), faults (R148), stops, and the tally entry (R296–R302).
-/

namespace Sys2Proof.Machine

/-! ### The energy walk (R147, R321) -/

/-- The valid shape of an index on a bent, as its LEN; 0 for an invalid one. -/
def State.lenOfShape (s : State) (b : Nat) (flux : Bool) (i : Nat) : Nat :=
  let d := s.memRd (shapeAddr b i) 8
  if shapeOk flux d && !s.poisoned (shapeAddr b i) 8 then shapeLen d else 0

/-- The longest valid shape of a bent (R321, SHAPE_P = 1). -/
def State.longestShape (s : State) (b : Nat) (flux : Bool) : Nat :=
  (List.range 4096).foldl (fun m i => max m (s.lenOfShape b flux i)) 0

/-- The coefficient of a lane kind on the ENERGY page of a bent (R321, R331). -/
def State.coef (s : State) (b kind : Nat) : Nat :=
  let pg := bp b 0x19
  if kind = 1 then s.rd (pg + Off.ENERGY_COEF_DRV) else if kind = 2 then s.rd (pg + Off.ENERGY_COEF_PRB)
  else if kind = 3 then s.rd (pg + Off.ENERGY_COEF_FLX) else 0

/-- The price of a PLAY step in pJ. -/
def State.pricePlay (s : State) (b w : Nat) : Nat :=
  let lane := stLane w
  let k := laneKind lane
  if 1 ≤ k ∧ k ≤ 3 then
    let flux := k == 3
    let len := if bitAt w 3 then s.longestShape (laneBent lane) flux else s.lenOfShape (laneBent lane) flux (bits w 16 12)
    ceilDiv (len * (if flux then 5 else 8)) 160 * s.coef b k
  else 0

/-- The price of a CAPTURE step in pJ. -/
def State.priceCapture (s : State) (b w : Nat) : Nat :=
  ceilDiv (bits w 40 24) 160 * s.rd (bp b 0x19 + Off.ENERGY_COEF_CAP) * popcount16 (bits w 64 16)

/-- The granules a chain plays from a segment until it ends, or until segment `stop` closes a loop pass; none if it does
not end (R161, R321). A chain that a bad descriptor ends counts up to there. -/
def State.chainLen (s : State) (b n : Nat) (stop : Option Nat) : Nat → Nat → Option Nat
  | 0, _ => none
  | f + 1, i =>
    match s.readDesc b n i with
    | .inr _ => some 0
    | .inl d =>
      if stop = some i then some (descLen d)
      else
        let c := bits d 64 16
        let loop := if c < 2 then some 0 else (s.chainLen b n (some i) f (bits d 48 16)).map fun x => (c - 1) * x
        let rest := if descLast d then some 0 else s.chainLen b n stop f (bits d 32 16)
        match loop, rest with
        | some x, some y => some (descLen d + x + y)
        | _, _ => none

/-- The price of a SEGMENT step in pJ; none where its chain does not end. -/
def State.priceSegment (s : State) (b w : Nat) : Option Nat :=
  let lane := stLane w
  if laneKind lane = 5 then
    let lb := laneBent lane
    let n := laneIdx lane
    let kind := s.strKind lb n
    let c := if kind = 3 then s.rd (bp b 0x19 + Off.ENERGY_COEF_VEC) else s.coef b (laneKind (s.strTarget lb n))
    if kind = 0 then some 0 else (s.chainLen lb n none 0x80000 (bits w 64 16)).map fun g => g * c
  else some 0

/-- What a walk finds: the costliest path that ends the shot and the costliest that comes back to its caller. -/
structure Walk where
  ends : Option Nat
  back : Option Nat
  deriving DecidableEq, Repr

/-- The costlier of two paths. -/
def maxOpt (a b : Option Nat) : Option Nat :=
  match a, b with
  | some x, some y => some (max x y)
  | some x, none => some x
  | none, y => y

/-- Both arms of a branch. -/
def Walk.or (a b : Walk) : Walk := { ends := maxOpt a.ends b.ends, back := maxOpt a.back b.back }

/-- A walk after a cost. -/
def Walk.after (c : Nat) (a : Walk) : Walk := { ends := a.ends.map (c + ·), back := a.back.map (c + ·) }

/-- A walk that goes on where another comes back. -/
def Walk.then (a b : Walk) : Walk :=
  match a.back with
  | none => { ends := a.ends, back := none }
  | some c => { ends := maxOpt a.ends (b.ends.map (c + ·)), back := b.back.map (c + ·) }

/-- A loop body's further passes. -/
def Walk.times (a : Walk) (n : Nat) : Walk :=
  if n = 0 then { ends := none, back := some 0 }
  else
    match a.back with
    | none => a
    | some c => { ends := a.ends.map ((n - 1) * c + ·), back := some (n * c) }

/-- A walk that ends the shot here. -/
def Walk.stop : Walk := { ends := some 0, back := none }

/-- The static walk from a step (R147): none if it is unbounded. `top` is the LOOP whose pass is being priced and `deep` the frames
open; a CALL or LOOP on a full stack faults, which ends the path (R142). Within a frame a bounded walk goes to higher addresses
only, so the fuel of `estimate` is enough. -/
def State.walk (s : State) (k : Nat) (top : Option Nat) (deep : Nat) : Nat → Nat → Option Walk
  | 0, _ => none
  | f + 1, a =>
    if top = some a then some { ends := none, back := some 0 }
    else if 131072 ≤ a then some Walk.stop
    else
      let b := k / 16
      let w := s.memRd (stepAddrOf k a) 16
      let op := stOp w
      let next := s.walk k top deep f (a + 1)
      let target := bits w 0 17
      if stReserved w then some Walk.stop
      else if op = 2 then next.map (Walk.after (s.pricePlay b w))
      else if op = 3 then
        match s.priceSegment b w, next with
        | some c, some x => some (x.after c)
        | _, _ => none
      else if op = 4 then next.map (Walk.after (s.priceCapture b w))
      else if op = 6 then
        if target ≤ a then none
        else if bits w 103 2 = 1 then s.walk k top deep f target
        else
          match next, s.walk k top deep f target with
          | some x, some y => some (x.or y)
          | _, _ => none
      else if op = 7 then
        if bitAt w 119 then none
        else if 16 ≤ deep then some Walk.stop
        else
          match s.walk k (some a) (deep + 1) f target, next with
          | some body, some x => some ((body.times (bits w 88 24 - 1)).then x)
          | _, _ => none
      else if op = 8 then
        if 16 ≤ deep then some Walk.stop
        else
          match s.walk k none (deep + 1) f target, next with
          | some x, some y => some (x.then y)
          | _, _ => none
      else if op = 9 then some { ends := none, back := some 0 }
      else if op = 12 ∨ op = 13 then some Walk.stop
      else next

/-- The estimate of a program in µJ (R321): none if it is unbounded. -/
def State.estimate (s : State) (k : Nat) : Option Nat :=
  (s.walk k none 0 0x400000 (s.seq k).entry).map fun w =>
    max 1 (ceilDiv ((maxOpt w.ends w.back).getD 0) 1000000)

/-! ### Registers -/

/-- The LEAD_MAX of a sequencer, in kerfs. -/
def State.leadMax (s : State) (k : Nat) : Nat := s.fld (seqPg k + Off.SEQ_LEAD_MAX) 0 13 * s.gK

/-- SHOT_START.MODE: 0 FREE, 1 GRID, 2 TRIGGERED. -/
def State.shotMode (s : State) (k : Nat) : Nat := s.fld (seqPg k + Off.SEQ_SHOT_START) 0 2

/-- TRIG_DELAY as it applies (R134). -/
def State.trigDelay (s : State) (k : Nat) : Nat := max (s.rd (seqPg k + Off.SEQ_TRIG_DELAY)) s.gK

/-- The CONTINUITY page of a sequencer's bent. -/
abbrev contPg (k : Nat) : Nat := bp (k / 16) 0x18

/-- A sequencer is running until it has halted and written its last entry. -/
def SeqSt.running (x : SeqSt) : Bool := x.phase != .halted || !x.tail.isEmpty || !x.owed.isEmpty

/-- Raise an event of a SEQ page with its shot number (R375); FAULT carries the cause too. -/
def State.seqRaise (s : State) (k bit num cause : Nat) : State :=
  s.raiseAt (seqPg k) bit s.now (num % 2 ^ 48 + cause * 2 ^ 52) false

/-! ### The next shot -/

/-- The sequencer has nothing left to do: it is halted and drained (R148). -/
def State.seqFinish (s : State) (k : Nat) : State :=
  let x := s.seq k
  if x.tail.isEmpty && x.owed.isEmpty then
    (s.setSeq k { x with
      phase := .halted, drained := true, next := none, cur := none, haltReq := false, parkReq := false,
      shot := none, stack := [], trigQ := [] }).setDrained (seqPg k) true
  else s.setSeq k { x with phase := .halting, next := none, cur := none }

/-- Does the sequencer owe a replay that waits for a poisoned word (R18)? -/
def State.poisonWait (s : State) (x : SeqSt) : Bool :=
  match x.owed with
  | [] => false
  | h :: _ =>
    match h.poison with
    | none => false
    | some w => setHas s.poison w

/-- The grid point FIRST_PT + j × SHOT_PERIOD × G at or after an instant: its j (R134). -/
def State.gridIndex (s : State) (k x : Nat) : Nat :=
  let per := s.rd (seqPg k + Off.SEQ_SHOT_PERIOD) * s.gK
  ceilDiv (x - (s.seq k).firstPt) per

/-- The grid point of an index. -/
def State.gridPt (s : State) (k j : Nat) : Nat :=
  (s.seq k).firstPt + j * (s.rd (seqPg k + Off.SEQ_SHOT_PERIOD) * s.gK)

/-- The sequencer takes `start` for its next shot, to be admitted (R134, R136). -/
def State.planAt (s : State) (k start : Nat) (moved : Bool) : State :=
  s.setSeq k { s.seq k with phase := .planned, next := some start, orig := start, deferred := false, moved := moved }

/-- Plan the next shot at the first S that R134 allows at or after `floor`; a replay that is owed comes first (R300). -/
def State.planStart (s : State) (k floor : Nat) : State :=
  let x := s.seq k
  let mode := s.shotMode k
  if mode = 0 then
    let base := s.granCeil (x.cEnd + x.gap * s.gK)
    let start := if x.first && decide (x.cEnd ≤ x.firstPt) then x.firstPt else base
    s.planAt k (max start floor) false
  else if mode = 1 then
    let j := s.gridIndex k (max x.cEnd floor)
    let from_ := max (match x.last with
      | none => x.cEnd
      | some l => l + 1) x.skipTo
    let s1 := (s.count (seqPg k + Off.SEQ_SKIP_COUNT) (s.gridIndex k x.cEnd - s.gridIndex k from_)).setSeq k { x with
      skipTo := max x.cEnd x.skipTo }
    s1.planAt k (s.gridPt k j) false
  else
    match x.trigQ with
    | [] => s.setSeq k { x with phase := .trigWait, next := none }
    | t :: r =>
      let want := ptAdd t (s.trigDelay k)
      let least := max (if t < x.cEnd then x.cEnd else want) floor
      (s.setSeq k { x with trigQ := r }).planAt k (max want least) (decide (want < least))

/-- The edge pins that a parked sequencer drove last go to their rest levels (R78). -/
def State.parkPins (s : State) (k : Nat) : State :=
  s.edges.foldl (fun s e =>
    let b := e.1 / 32
    let ch := e.1 % 32
    let s1 := s.edgeCut b ch
    let x := s1.edge b ch
    if e.2.drv == some k && s.chLive b ch && x.base != s.chRest b ch && x.restAt.isNone then
      let q := match x.eff with
        | none => x.lastTrans.getD 0
        | some f => f.end_.getD s.now
      s1.setEdge b ch { x with restAt := some (max s.now (q + 1600)) }
    else s) s

/-- A sequencer parks; its pins follow once no shot of it is unresolved (R78). -/
def State.park (s : State) (k : Nat) : State :=
  let s1 := s.setSeq k { s.seq k with phase := .parked, next := none }
  if (s.seq k).tail.isEmpty then s1.parkPins k else s1

/-- Nothing is left for the sequencer to run: it halts, and owes no replay (R148). A fault halts it as a drain would. -/
def State.seqEnds (s : State) (k : Nat) : Bool :=
  let x := s.seq k
  let limit := s.rd (seqPg k + Off.SEQ_SHOT_LIMIT_LO) + s.fld (seqPg k + Off.SEQ_SHOT_LIMIT_HI) 0 16 * 2 ^ 32
  x.owed.isEmpty && (x.haltReq || s.draining (seqPg k) || s.fenced (seqPg k) ||
    (limit != 0 && decide (limit ≤ x.shotsRun)))

/-- What a sequencer does between shots, a move aside: wait for a void's end, halt, park, or plan its next shot (R134, R148,
R299–R301). -/
def State.planHere (s : State) (k floor : Nat) : State :=
  let x := s.seq k
  if x.tail.any (fun h => h.voidPt.isSome) then s.setSeq k { x with phase := .voidWait, next := none }
  else if s.seqEnds k then s.seqFinish k
  else if x.parkReq || s.parking (k / 16) then s.park k
  else if s.poisonWait x then s.setSeq k { x with phase := .voidWait, next := none }
  else s.planStart k floor

/-- The CRC-32 of a range of steps of a bent. -/
def State.progCrc (s : State) (b lo hi : Nat) : Nat :=
  Config.crc32 ((List.range (16 * (hi + 1 - lo))).map fun i => s.memByte (mb b (16 * lo + i)))

/-- MOVE_TARGET as a sequencer number. -/
def State.moveTarget (s : State) (k : Nat) : Nat :=
  s.fld (seqPg k + Off.SEQ_MOVE_TARGET) 4 3 * 16 + s.fld (seqPg k + Off.SEQ_MOVE_TARGET) 0 4

/-- May the sequencer move to its target (R149)? -/
def State.moveOk (s : State) (k : Nat) : Bool :=
  let j := s.moveTarget k
  let y := s.seq j
  let x := s.seq k
  s.has (j / 16) && j != k && !y.running && s.drained (seqPg j) &&
    (j / 16 == k / 16 || s.progCrc (k / 16) x.progBase x.progEnd == s.progCrc (j / 16) x.progBase x.progEnd)

/-- The move at a shot boundary: the source's state passes to the target, which starts the next shot at the S that the
source would have used, and the source halts, once the entries of its last shots are written; or the move is refused and the
source runs on (R149). A snapshot stays in the step memory it was written to, so the target goes on with its own (log entry 188). -/
def State.doMove (s : State) (k floor : Nat) : State :=
  let s1 := s.setSeq k { s.seq k with moveReq := false }
  if s1.moveOk k then
    let j := s1.moveTarget k
    let s2 := s1.planHere k floor
    let x := s2.seq k
    let y := s2.seq j
    let s3 := (List.range 16).foldl (fun s i => s.setReg (seqP j i) (s.reg (seqP k i))) s2
    let s4 := s3.wr (seqPg j + Off.SEQ_FRAME_NUM) (s3.rd (seqPg k + Off.SEQ_FRAME_NUM))
    let s5 := (s4.setSeq j { x with
      tail := [], lastNum := max x.lastNum y.lastNum, arrivals := y.arrivals, heard := y.heard, drained := false,
      snapCfg := s.rd (seqPg j + Off.SEQ_SNAP_CFG), snapSlot := y.snapSlot, snapP := y.snapP }).standing (seqPg j) 0x55 false
    let s6 := s5.setDrained (seqPg j) false
    if x.tail.isEmpty then
      (s6.setSeq k { SeqSt.init with
        lastNum := x.lastNum, arrivals := x.arrivals, drained := true, snapCfg := x.snapCfg, snapSlot := x.snapSlot,
        snapP := x.snapP }).setDrained (seqPg k) true
    else s6.setSeq k { x with phase := .halting, next := none, haltReq := true, trigQ := [] }
  else (s1.latchHealth (seqPg k) 0x52).planHere k floor

/-- What a sequencer does between shots: a move that is asked for takes place, unless a replay is owed (R149). -/
def State.planNext (s : State) (k floor : Nat) : State :=
  let x := s.seq k
  if x.moveReq && x.owed.isEmpty && !(x.tail.any fun h => h.voidPt.isSome) && !s.seqEnds k then
    s.doMove k floor
  else s.planHere k floor

/-- Is a commit pending, or does a correction wait (R266), that holds a sequencer at an END_SHOT (R138)? -/
def State.gatePending (s : State) (frameEnd : Bool) : Bool :=
  s.commits.any (fun c => c.kind == 3 || (c.kind == 4 && frameEnd)) || s.calWaits 3 || (frameEnd && s.calWaits 4)

/-- SEQ_CTRL.GATE of a sequencer. -/
def State.gates (s : State) (k : Nat) : Bool := s.bit (seqPg k + Off.SEQ_SEQ_CTRL) 2

/-- The commit boundary of a shot that has ended: held, or on to the next (R138). -/
def State.shotBoundary (s : State) (k : Nat) (frameEnd : Bool) : State :=
  if s.gates k && s.gatePending frameEnd && !s.seqEnds k then
    s.setSeq k { s.seq k with phase := .gateHold, next := none }
  else s.planNext k 0

/-! ### The account (R319) -/

/-- The committed total K. -/
def State.committed (s : State) : Nat := s.rd64 (pkgp 3 + Off.LEDGER_COMMITTED_LO)

/-- Put the committed total. -/
def State.setCommitted (s : State) (v : Nat) : State := s.wr64 (pkgp 3 + Off.LEDGER_COMMITTED_LO) v

/-- The credit C in µJ. -/
def State.credit (s : State) : Int := toSigned 64 (s.rd64 (pkgp 3 + Off.LEDGER_CREDIT_LO))

/-- The spare margin M (R322). -/
def State.margin (s : State) : Int :=
  s.credit - (s.committed : Int) - (s.rd (pkgp 3 + Off.LEDGER_BG_RESERVE) : Int)

/-! ### The tally (R296, R297, R302) -/

/-- TALLYs_WR of a sequencer. -/
abbrev tallyWr (k : Nat) : Nat := contPg k + Off.CONTINUITY_TALLY_WR (k % 16)

/-- Entries in a tally ring that the host has not consumed. -/
def State.tallyFill (s : State) (k : Nat) : Nat :=
  (s.rd (tallyWr k) + 2 ^ 32 - s.rd (contPg k + Off.CONTINUITY_TALLY_RD (k % 16))) % 2 ^ 32

/-- The ring is full and TALLY_FULL is HOLD (R302). -/
def State.tallyHold (s : State) (k : Nat) : Bool :=
  decide (1024 ≤ s.tallyFill k) && s.bit (contPg k + Off.CONTINUITY_CONT_CTRL) 4

/-- A microjoule, in the meters' unit of nJ / 2^16 (R315). -/
abbrev ujU : Nat := 65536000

/-- The eight words of a tally entry but for its CRC (R297); the energy is in whole µJ (log entry 192). -/
def State.tallyWords (s : State) (k : Nat) (h : Shot) : List Nat :=
  let ofs := match h.voidPt with
    | none => 0
    | some v => min ((v - h.start) / s.clk.n) 0xFFFFFFFF
  [h.num % 2 ^ 48 + k % 16 * 2 ^ 48 + k / 16 * 2 ^ 52 + b2n h.frameEnd * 2 ^ 55 + h.replays % 16 * 2 ^ 56,
   bits h.start 0 64,
   bits h.start 64 16 + h.entry * 2 ^ 16 + bits h.flags 0 12 * 2 ^ 48,
   bits h.seed 0 64,
   h.snap % 256 + min h.stretchG 0xFFFF * 2 ^ 16 + ofs * 2 ^ 32,
   bits h.branchPath 0 48 + min h.branchCount 255 * 2 ^ 48 + min h.lateVerdicts 255 * 2 ^ 56,
   bits h.states 0 32 + min h.verdicts 255 * 2 ^ 32,
   min (h.energy / ujU) 0xFFFFFFFF]

/-- The bytes of a tally entry. -/
def tallyBytes (words : List Nat) : List Byte :=
  let l := wordsBytes words
  let body := l.take 60
  body ++ leBytes (Config.crc32 body) 4

/-- Write an entry into its ring, count it, stream it, and release its estimate (R296, R302, R319). -/
def State.writeEntry (s : State) (k : Nat) (h : Shot) : State :=
  let b := k / 16
  let pg := contPg k
  let wr := s.rd (tallyWr k)
  let l := tallyBytes (s.tallyWords k h)
  let s1 := if 1024 ≤ s.tallyFill k then
      ((s.bump (pg + Off.CONTINUITY_TALLY_LOST_COUNT)).latchHealth pg 0xD4).raise pg 4
    else s
  let a := mb b (0x6000000 + k % 16 * 0x10000 + wr % 1024 * 64)
  let s2 := (s1.memWr a l).wr (tallyWr k) ((wr + 1) % 2 ^ 32)
  let s3 := if s2.bit (pg + Off.CONTINUITY_CONT_CTRL) 5 then (s2.hostPut b 6 l (s2.poisoned a 64)).1 else s2
  let s4 := s3.setCommitted (s3.committed - h.est)
  let final := h.voidPt.isNone || bitAt h.flags 8
  let s5 := if final then
      (s4.wr (seqPg k + Off.SEQ_SHOT_NUM_LO) (bits h.num 0 32)).wr (seqPg k + Off.SEQ_SHOT_NUM_HI) (bits h.num 32 16)
    else s4
  let s6 := if h.voidPt.isNone && 0 < h.replays then s5.bump (seqPg k + Off.SEQ_REPLAY_COUNT) else s5
  let exceeds := 4 * h.energy > (5 * h.est + 4) * ujU
  let s7 := if exceeds then (s6.bump (bp b 0x19 + Off.ENERGY_EST_EXCEED_COUNT)).raise (bp b 0x19) 3 else s6
  s7.seqRaise k 0 h.num 0

/-- The entry of a replay that will not be run: final, void and abandoned, and holding nothing of a run (R298). -/
def Shot.abandoned (h : Shot) : Shot :=
  { (h.flag 2).flag 8 with est := 0, voidPt := some (h.voidPt.getD h.start) }

/-! ### Faults and stops (R148) -/

/-- A fault of a sequencer at its step: the void PT, FAULT_INFO and the event; causes 1–6 halt it. -/
def State.seqFault (s : State) (k cause : Nat) : State :=
  let x := s.seq k
  let num := match x.shot with
    | none => 0
    | some h => h.num
  let v := if x.cursor < s.now then s.nowTick else x.cursor
  let s1 := s.wr (seqPg k + Off.SEQ_FAULT_INFO) (x.curAddr % 2 ^ 17 + cause * 2 ^ 20)
  let s2 := if cause = 7 then s1
    else (s1.standing (seqPg k) 0x55 true).setSeq k { x with faulted := true, haltReq := true }
  let s3 := s2.seqRaise k 3 num cause
  match x.shot with
  | none => s3
  | some h => s3.voidShot (some { seq := k, shot := h.num }) v (cause != 7) none

/-- A sequencer leaves every barrier it waits at. -/
def State.leaveBarriers (s : State) (k : Nat) : State :=
  s.barriers.foldl (fun s e =>
    match e.2 with
    | none => s
    | some br =>
      let w := br.waiting.filter fun p => p.1 != k
      let v := if w.isEmpty then none else some { br with waiting := w }
      { s with barriers := mapSet (fun _ => none) s.barriers e.1 v }) s

/-- Stop at once (R148): the running shot is voided without replay and its pegs are counted by their lanes, a replay that
is owed is dropped with its final entry, and the sequencer is halted. -/
def State.seqStop (s : State) (k : Nat) : State :=
  let x := s.seq k
  if x.phase == .halted && x.owed.isEmpty then s
  else
    let s1 := match x.shot with
      | none => s
      | some h =>
        let o : Owner := { seq := k, shot := h.num }
        (s.withdraw o s.now true).voidShot (some o) s.now true none
    let s2 := x.owed.foldl (fun s h => s.writeEntry k h.abandoned) s1
    let y := s2.seq k
    let s3 := (s2.leaveBarriers k).setSeq k { y with
      phase := .halted, owed := [], shot := none, next := none, cur := none, stack := [], haltReq := false,
      moveReq := false, parkReq := false, trigQ := [], awaitWait := false, syncWait := false, runAheadWait := false,
      admitWait := false, drained := y.tail.isEmpty,
      tail := y.tail.map fun h => if h.voidPt.isSome then { h with noReplay := true } else h }
    if y.tail.isEmpty then s3.setDrained (seqPg k) true else s3

/-- HALT and DRAIN: the sequencer ends after its running shot and any replay it owes (R148). -/
def State.seqHalt (s : State) (k : Nat) : State :=
  let x := s.seq k
  if !x.running then s
  else
    let s1 := s.setSeq k { x with haltReq := true }
    if x.shot.isSome || x.phase == .voidWait || !x.owed.isEmpty then s1
    else s1.seqFinish k

/-- Every sequencer that waits for a poisoned word to be rewritten and need wait no longer plans its replay (R18). -/
def State.poisonCleared (s : State) : State :=
  s.seqs.foldl (fun s e =>
    let x := s.seq e.1
    if x.phase == .voidWait && !x.owed.isEmpty && x.tail.isEmpty && !s.poisonWait x then
      s.planNext e.1 (s.granCeil s.now)
    else s) s

end Sys2Proof.Machine
end

