-- ==== Sys2Proof/Machine/Segments.lean ====
section
/-!
DEFINITION. Machine/Segments.lean: segment streams: chains, jumps, the commit horizon, rings and fills (R154–R169), and
the vector fails (R164, R165).
-/

namespace Sys2Proof.Machine

/-- A stream faults, and a shot that owns it is voided without replay (R156). -/
def State.segFault (s : State) (b n cause : Nat) : State :=
  let o := (s.stream b n).owner
  (s.strFault b n cause).voidShot o s.now true none

/-- The trigger of a segment's start at `e`, if its descriptor asks for one (R161). An edge pin of 32 or more does not exist, and
no trigger is raised (log entry 182). -/
def State.segTrig (s : State) (b d e : Nat) (o : Option Owner) : State :=
  let i := bits d 80 6
  if !bitAt d 26 then s
  else if bitAt d 27 then s.offer (laneAddr b 7 i) { pt := e, payload := 0, owner := o, trig := false }
  else if i < 32 then
    s.offer (laneAddr b 0 i) { pt := e, payload := 2 + bits d 86 10 * s.clk.n * 2 ^ 8, owner := o, trig := false }
  else s

/-- What follows the segment that plays, jumps aside (R161 steps 2–5): the segment (none: the chain ends) and the loop
stack from then on; none at all where the stack is full. -/
def StreamSt.follow (x : StreamSt) : Option (Option Nat × List (Nat × Nat)) :=
  let i := x.seg.getD 0
  let c := bits x.desc 64 16
  let target := bits x.desc 48 16
  let after (st : List (Nat × Nat)) : Option (Option Nat × List (Nat × Nat)) :=
    if descLast x.desc then some (none, st) else some (some (bits x.desc 32 16), st)
  let push : Option (Option Nat × List (Nat × Nat)) :=
    if c < 2 then after x.stack
    else if 4 ≤ x.stack.length then none
    else some (some target, (i, c - 1) :: x.stack)
  match x.stack with
  | (j, m) :: r => if j = i then (if m ≤ 1 then after r else some (some target, (j, m - 1) :: r)) else push
  | [] => push

/-- A stream's target lane ends with the stream, and a shot that owns the stream lasts to the end of the taper. -/
def State.strEnd (s : State) (b n p : Nat) : State :=
  let o := (s.stream b n).owner
  let lane := s.strTarget b n
  let s1 := s.strStopAt b n p
  let e := match (s1.tone lane).pulse with
    | none => p
    | some q => q.end_
  s1.noteEff o (if s.strDrives b n then e else p)

/-! ### Poisoned data words (R18, R156) -/

/-- A granule with a poisoned word plays zero, and a shot that owns the stream is voided from its start and waits for the
word before its replay (R18, R156, R189). -/
def State.poisonGran (s : State) (b n w p : Nat) : State :=
  match (s.stream b n).owner with
  | none => s
  | some o =>
    let lane := s.strTarget b n
    let s1 := if s.strDrives b n then (s.dacSync lane (p - taperK)).toneTaper lane (p - taperK) else s
    (s1.flagShot (some o) 9).voidShot (some o) p false (some w)

/-- `k` granules that play from boundary `p` on, with their data from address `a` on, are looked through. -/
def State.lookData (s : State) (b n a k p : Nat) : State :=
  let bytes := kindBytes (s.strKind b n)
  if k = 0 || bytes = 0 then s
  else
    match s.firstPoison a (k * bytes) with
    | none => s
    | some w => s.poisonGran b n w (p + (w * 8 - a) / bytes * s.gK)

/-- The granules that a non-ring segment has reached and that have not been looked through yet are (log entry 179). -/
def State.lookGran (s : State) (b n : Nat) : State :=
  let x := s.stream b n
  if x.seg.isNone || descRing x.desc || decide (s.now < x.segStart) then s
  else
    let k := min (descLen x.desc) ((s.now - x.segStart) / s.gK + 1)
    (s.setStream b n { x with seen := max k x.seen }).lookData b n (s.dataAddr b n x.desc x.seen) (k - x.seen)
      (x.segStart + x.seen * s.gK)

/-- The granules that a fill has played by its end at `p` are looked through. -/
def State.lookFill (s : State) (b n : Nat) (f : Fill) (p : Nat) : State :=
  s.lookData b n (s.dataAddr b n f.desc 0) (min (descLen f.desc) ((p - f.from_) / s.gK)) f.from_

/-! ### Chains (R157–R161) -/

/-- A segment starts at `p`: its samples follow on. -/
def State.segBegin (s : State) (b n i d p : Nat) (stack : List (Nat × Nat)) : State :=
  let x := s.stream b n
  s.setStream b n { x with
    seg := some i, desc := d, segStart := p, endPt := p + descLen d * s.gK, taken := 0, stack := stack, succ := none,
    fill := none, seen := 0 }

/-- What a boundary at `p` leaves behind: the samples before it are accounted for, a vector stream's last drive is noted, and the
granule before it stays known. -/
def State.passBoundary (s : State) (b n p : Nat) : State :=
  let s1 := if s.strDrives b n then s.dacSync (s.strTarget b n) p else s.noteAll b n p
  s1.setStream b n (s1.pushGran b n (s1.stream b n) (p - s.gK))

/-- A chain starts on an idle stream at `p` (R157–R159); one of a shot that ends is to end with it (R46, R158). -/
def State.chainStart (s : State) (b n i d p : Nat) (o : Option Owner) : State :=
  let x := s.stream b n
  let lane := s.strTarget b n
  let s1 := s.setStream b n { x with
    owner := o, ringStart := s.rd (segPg b + Off.SEGMENT_STR_RING_RD n), jump := none, endAt := s.ownedEnd o, drain := false,
    cutAt := none }
  let s2 := s1.setFld (segPg b + Off.SEGMENT_STR_STAT n) 24 4 0
  let s3 := if s.strDrives b n then
      let s3 := s2.dacSync lane p
      s3.setTone lane { s3.tone lane with
        pulse := some { start := p, stop := 2 ^ 81, taper := none, payload := 0, owner := o, stream := some n } }
    else s2
  s3.segBegin b n i d p []

/-- The chain ends at its segment's end boundary (R161 step 4): the destination is idle again. -/
def State.chainEnd (s : State) (b n : Nat) : State :=
  let o := (s.stream b n).owner
  let e := (s.stream b n).endPt
  let lane := s.strTarget b n
  let s0 := s.lookGran b n
  if (s0.stream b n).seg.isNone then s0
  else
    let s1 := if s.strDrives b n then
        s0.setTone lane { s0.tone lane with pulse := (s0.tone lane).pulse.map fun q => { q with stop := e } }
      else s0
    (((s1.passBoundary b n e).strFlag b n 4).strIdleAt b n e false).noteEff o e

/-- The boundary at which a fill's jump applies (R168): the first granule boundary of the fill at or after P + 3 G; one that was
due when the fill began applies a granule into it (log entry 181). -/
def State.fillJumpAt (s : State) (f : Fill) (p : Nat) : Nat := max (s.granCeil (p + 3 * s.gK)) (f.from_ + s.gK)

/-- By how much the fills that have begun move the end of the segment, once that is known. -/
def State.fillShift (s : State) (f : Fill) : Option Nat :=
  match f.avail, f.next with
  | none, _ => none
  | some a, none => some (s.resumeAt f a - f.from_)
  | some a, some (from_, _, a', _) =>
    a'.map fun c => s.resumeAt f a - f.from_ + (s.resumeAt { f with from_ := from_ } c - from_)

/-- The end boundary of the segment that plays, once it is known: not while a fill waits for its data. -/
def State.segEnd (s : State) (x : StreamSt) : Option Nat :=
  match x.fill with
  | none => some x.endPt
  | some f => (s.fillShift f).map fun d => x.endPt + d

/-- A segment is committed to follow at `e` (R156, R160): its descriptor is read and its trigger issued. `fill`: it ends a fill. -/
def State.commitNext (s : State) (b n i e : Nat) (jump fill : Bool) : State :=
  let x := s.stream b n
  match s.readDesc b n i with
  | .inr c => s.segFault b n c
  | .inl d =>
    let s1 := s.setStream b n { x with
      succ := some (some (i, d, jump)), jump := if jump then none else x.jump,
      fill := if fill then x.fill.map fun f => { f with jumpAt := some e } else x.fill }
    s1.segTrig b d e x.owner

/-- The commit of what follows the segment that plays, which ends at `e` (R160, R161): a jump that is due, the loop, the
end, or NEXT. -/
def State.segCommit (s : State) (b n e : Nat) : State :=
  let x := s.stream b n
  let chain : State :=
    match x.follow with
    | none => s.segFault b n 4
    | some (none, _) => s.setStream b n { x with succ := some none }
    | some (some i, _) => s.commitNext b n i e false false
  if x.drain then s.setStream b n { x with succ := some none }
  else
    match x.jump with
    | some (p, i) => if p + 3 * s.gK ≤ e then s.commitNext b n i e true false else chain
    | none => chain

/-- The commit of a jump that ends a fill, 3 G before its boundary (R160, R168): unless the ring data resume before that. Data that
arrive after the commit do not resume (log entry 181). -/
def State.fillCommit (s : State) (b n : Nat) (f : Fill) : State :=
  match (s.stream b n).jump with
  | none => s
  | some (p, i) =>
    let e := s.fillJumpAt f p
    let first := match f.avail with
      | none => true
      | some a => decide (e ≤ s.resumeAt f a)
    if f.jumpAt.isNone && first && decide (e ≤ s.now + 3 * s.gK) then s.commitNext b n i e true true else s

/-- SEGMENT_COMMIT: the commit horizon, 3 G before an end boundary, before a jump's boundary in a fill, or before a chain's first
boundary (R160). -/
def execSegmentCommit (t : PT) (b : Fin 8) (n : Fin 16) (s : State) : Out :=
  runAt t s fun s =>
    let s := s.lookGran b n
    let x := s.stream b n
    match x.seg with
    | some _ =>
      let s1 := match x.fill with
        | none => s
        | some f => s.fillCommit b n f
      let y := s1.stream b n
      (match s1.segEnd y with
       | some e => if y.seg.isSome && y.succ.isNone && decide (e ≤ s1.now + 3 * s1.gK) then s1.segCommit b n e else s1
       | none => s1)
    | none =>
      let lane := laneAddr b 5 n
      match s.queue lane with
      | [] => s
      | p :: r =>
        if p.pt ≤ s.now + 3 * s.gK && s.strKind b n != 0 && (x.succ.isNone || x.segStart != p.pt) then
          match s.readDesc b n (bits p.payload 0 16) with
          | .inr c => (((s.setQueue lane r).strFault b n c)).voidShot p.owner s.now true none
          | .inl d =>
            (s.setStream b n { x with succ := some (some (bits p.payload 0 16, d, false)), segStart := p.pt }).segTrig b d
              p.pt p.owner
        else s

/-- The ring data of an unowned stream are released as its ring segment finishes (R167). -/
def State.ringFinish (s : State) (b n : Nat) : State :=
  let x := s.stream b n
  if descRing x.desc && x.owner.isNone then s.ringRelease b n (s.ringRd b n) else s

/-- The segment that follows takes over at the end boundary (R160, R161), and a request that has to wait for the next
boundary is deferred (R162). -/
def State.segTurn (s : State) (b n : Nat) : State :=
  let s := if (s.stream b n).succ.isNone then s.segCommit b n (s.stream b n).endPt else s
  let x := s.stream b n
  let e := x.endPt
  match x.seg, x.succ with
  | none, _ => s
  | _, none => s
  | _, some none => s.chainEnd b n
  | _, some (some (i, d, jump)) =>
    let stack := match x.follow with
      | some (_, st) => if jump then [] else st
      | none => []
    let s1 := (s.ringFinish b n).passBoundary b n e
    let s2 := if jump then s1.bump (segPg b + Off.SEGMENT_STR_JUMP_COUNT n) else s1
    let s3 := match x.jump with
      | some (p, _) => if p < e then (s2.bump (segPg b + Off.SEGMENT_STR_DEFER_COUNT n)).strFlag b n 2 else s2
      | none => s2
    s3.segBegin b n i d e stack

/-- A committed jump ends the fill and the ring segment at its boundary (R168). -/
def State.fillJump (s : State) (b n : Nat) (f : Fill) (p : Nat) : State :=
  let s := s.lookFill b n f p
  let x := s.stream b n
  match x.seg, x.succ with
  | some _, some (some (i, d, _)) =>
    let s0 := (s.ringFinish b n).passBoundary b n p
    let s1 := s0.count (segPg b + Off.SEGMENT_STR_FILL_COUNT n) ((p - f.from_) / s.gK)
    (s1.bump (segPg b + Off.SEGMENT_STR_JUMP_COUNT n)).segBegin b n i d p []
  | _, _ => s

/-- SEGMENT_BOUNDARY: a segment's end boundary, the boundary at which a jump ends a fill, or the end of a stream that an
underrun aborts (R161, R168). `word` is the segment memory word whose check finds `ecc` (R18). -/
def execSegmentBoundary (t : PT) (b : Fin 8) (n : Fin 16) (ecc : Ecc) (word : Fin 0x200000) (s : State) : Out :=
  runMem t s fun s =>
    let s := if s.has b && (s.stream b n).seg.isSome then s.eccRead (mb b (0x2000000 + 8 * word.val)) ecc else s
    let s := s.lookGran b n
    let x := s.stream b n
    match x.seg with
    | none => s
    | some _ =>
      let stopped (p : Nat) : Bool := match x.endAt with
        | none => false
        | some e => decide (e ≤ p)
      let stop (s : State) : State :=
        if x.owner.isNone && stopped s.now then s.strEnd b n (x.endAt.getD s.now) else s
      match x.fill with
      | some f =>
        (match f.jumpAt with
         | some e => if e ≤ s.now && !stopped e then s.fillJump b n f e else stop s
         | none => stop s)
      | none =>
        let own := match x.endAt with
          | none => true
          | some e => decide (x.endPt < e) || (x.endPt == e && x.succ == some none)
        if x.endPt ≤ s.now && own then s.segTurn b n else stop s

/-- OWNED_STREAM_END: a stream that its shot's end or a cause of void ends early (R158, R168, R169). -/
def execOwnedStreamEnd (t : PT) (b : Fin 8) (n : Fin 16) (s : State) : Out :=
  runAt t s fun s =>
    let s := s.lookGran b n
    let x := s.stream b n
    match x.endAt with
    | none => s
    | some e => if x.seg.isSome && x.owner.isSome && decide (e ≤ s.now) then s.strEnd b n e else s

/-- A start whose descriptor has not been committed ahead. -/
def State.startFresh (s : State) (b n i : Nat) (p : Peg) : State :=
  match s.readDesc b n i with
  | .inr c => (s.strFault b n c).voidShot p.owner s.now true none
  | .inl d => (s.segTrig b d p.pt p.owner).chainStart b n i d p.pt p.owner

/-- SEGMENT_PEG: the head of a stream lane applies at its PT (R157–R159, R162, R163). A start at or after the end of its shot plays
nothing (R158). -/
def execSegmentPeg (t : PT) (b : Fin 8) (n : Fin 16) (s : State) : Out :=
  runAt t s fun s =>
    let lane := laneAddr b 5 n
    match s.popPeg lane fun _ => true with
    | none => s
    | some (p, s1) =>
      let ended := (s1.stream b n).seg.isSome && (s1.stream b n).succ == some none && decide ((s1.stream b n).endPt ≤ p.pt)
      let s2 := if ended then s1.chainEnd b n else s1
      let x := s2.stream b n
      let i := bits p.payload 0 16
      let target := s2.strTarget b n
      let late := match s2.ownedEnd p.owner with
        | none => false
        | some e => decide (e ≤ p.pt)
      if s2.strKind b n = 0 then s2.discardPeg lane p
      else if x.seg.isSome then s2.setStream b n { x with jump := some (p.pt, i) }
      else if late then s2.setStream b n { x with succ := none }
      else
        let busy := s2.strDrives b n && ((((s2.tone target).upto p.pt).pulse).isSome || (s2.holder target).isSome)
        if busy then
          (((s2.setStream b n { x with succ := none }).bump (segPg b + Off.SEGMENT_STR_CONFLICT_COUNT n)).toneFlag target
            4).flagShot p.owner 1
        else
          match x.succ with
          | some (some (j, d, _)) =>
            if x.segStart = p.pt && j = i then s2.chainStart b n i d p.pt p.owner
            else s2.startFresh b n i p
          | _ => s2.startFresh b n i p

/-- STRn_CMD.START (R157). -/
def execStrStart (t : PT) (b : Fin 8) (n : Fin 16) (s : State) : Out :=
  runAt t s fun s => s.onlyIf (s.has b) fun s => s.startCmd (segPg b) fun s =>
    s.offer (laneAddr b 5 n)
      { pt := s.granCeil (s.rd80 (segPg b + Off.SEGMENT_STR_START_PT_LO n)),
        payload := s.fld (segPg b + Off.SEGMENT_STR_OPER n) 0 16, owner := none, trig := false }

/-- A stream is stopped at once, and an owning shot is flagged truncated (R169). -/
def State.strCut (s : State) (b n : Nat) : State :=
  let x := s.stream b n
  if x.seg.isSome then (s.flagShot x.owner 6).strEnd b n s.now else s

/-- STRn_CMD.STOP (R169). -/
def execStrStop (t : PT) (b : Fin 8) (n : Fin 16) (s : State) : Out :=
  runAt t s fun s => s.onlyIf (s.has b) fun s => s.command (segPg b) fun s => s.strCut b n

/-- A stream drains (R169). -/
def State.strDrain (s : State) (b n : Nat) : State :=
  let x := s.stream b n
  if x.seg.isSome then
    s.setStream b n { x with drain := true, jump := none, stack := [], succ := x.succ.map fun _ => none }
  else s

/-- STRn_CMD.DRAIN (R169). -/
def execStrDrain (t : PT) (b : Fin 8) (n : Fin 16) (s : State) : Out :=
  runAt t s fun s => s.onlyIf (s.has b) fun s => s.command (segPg b) fun s => s.strDrain b n

/-- STRn_CMD.JUMP (R162): a request of now, or, on an idle stream, a start 3 G later. -/
def execStrJump (t : PT) (b : Fin 8) (n : Fin 16) (s : State) : Out :=
  runAt t s fun s => s.onlyIf (s.has b) fun s => s.startCmd (segPg b) fun s =>
    let x := s.stream b n
    let i := s.fld (segPg b + Off.SEGMENT_STR_OPER n) 0 16
    if x.seg.isSome then s.setStream b n { x with jump := some (s.now, i) }
    else
      s.offer (laneAddr b 5 n) { pt := s.granCeil (s.now + 3 * s.gK), payload := i, owner := none, trig := false }

/-- STRn_CMD.RING_RESET (R171). -/
def execRingReset (t : PT) (b : Fin 8) (n : Fin 16) (s : State) : Out :=
  runAt t s fun s => s.onlyIf (s.has b) fun s => s.command (segPg b) fun s =>
    let x := s.stream b n
    if x.seg.isSome then s
    else
      (s.zero [segPg b + Off.SEGMENT_STR_RING_WR n, segPg b + Off.SEGMENT_STR_RING_RD n,
        segPg b + Off.SEGMENT_STR_RING_REL n]).setStream b n { x with ringUse := [], wmArmed := false }

/-- An advance of RING_WR to `v` (R166): within its window it takes effect, and a fill may learn of its granule. -/
def State.ringAdvance (s : State) (b n v : Nat) : State :=
  let wr := segPg b + Off.SEGMENT_STR_RING_WR n
  let old := s.rd wr
  let size := s.fld (segPg b + Off.SEGMENT_STR_RING_SIZE n) 0 24
  let held := (old + 2 ^ 32 - s.ringRel b n) % 2 ^ 32
  let delta := (v + 2 ^ 32 - old) % 2 ^ 32
  if held + delta ≤ size || delta = 0 then
    let x := s.stream b n
    let came (j : Nat) (a : Option Nat) : Option Nat :=
      if a.isNone && decide ((j + 2 ^ 32 - old) % 2 ^ 32 < delta) then some s.now else a
    let fill := x.fill.map fun f => { f with
      avail := came f.j f.avail, next := f.next.map fun g => (g.1, g.2.1, came g.2.1 g.2.2.1, g.2.2.2) }
    ((s.wr wr v).setStream b n { x with fill := fill }).water b n
  else s.latchHealth (segPg b) 0x61

/-- RING_WR_WRITE: the host, or the last descriptor of a DMA transfer, advances RING_WR (R166). -/
def execRingWrWrite (t : PT) (b : Fin 8) (n : Fin 16) (v : Word) (s : State) : Out :=
  runAt t s fun s => s.onlyIf (s.has b) fun s => s.ringAdvance b n v.toNat

/-- The boundary at which granule `k` of the segment that plays is due, fills after it aside. -/
def State.dueAt (s : State) (x : StreamSt) (k : Nat) : Nat := x.endPt - (descLen x.desc - k) * s.gK

/-- RING_GRANULE_TAKEN: the next ring granule is taken at its boundary (R166, R167). `ecc` is what its read finds at its
word `word` (R18). -/
def execRingGranuleTaken (t : PT) (b : Fin 8) (n : Fin 16) (ecc : Ecc) (word : Fin 48) (s : State) : Out :=
  runMem t s fun s =>
    let x := s.stream b n
    let due := s.dueAt x x.taken
    let rdA := segPg b + Off.SEGMENT_STR_RING_RD n
    let rd := s.rd rdA
    let missing := match x.fill with
      | none => false
      | some f => f.j == rd
    let live := match x.endAt with
      | none => true
      | some e => decide (due < e)
    if x.seg.isSome && descRing x.desc && decide (x.taken < descLen x.desc) && decide (due ≤ s.now) &&
        s.ringLevel b n != 0 && !missing && live then
      let a := s.slotAddr b n rd
      let s0 := if s.strDrives b n then s.dacSync (s.strTarget b n) due else s.noteDrive b n due 64
      let s1 := (s0.wr rdA ((rd + 1) % 2 ^ 32)).setStream b n { (x.push due a) with taken := x.taken + 1, tookAt := due }
      let s2 := (if x.owner.isNone then s1.ringRelease b n rd else s1).water b n
      let bytes := kindBytes (s.strKind b n)
      let s3 := s2.eccRead (a / 8 * 8 + 8 * (word.val % (bytes / 8))) ecc
      s3.lookData b n a 1 due
    else s

/-- The ring is full of data that a running shot has not released (R168, RING_FULL): the stream ends at the next granule
boundary, the shot is voided without replay, and its ring data are released. -/
def State.abortStream (s : State) (b n : Nat) (full : Bool) : State :=
  let x := s.stream b n
  let lane := s.strTarget b n
  let stop := s.granCeil (s.now + 1)
  let y : StreamSt := { x with
    endAt := some (min stop (x.endAt.getD stop)), jump := none,
    ringStart := if full then s.rd (segPg b + Off.SEGMENT_STR_RING_RD n) else x.ringStart,
    ringUse := if full then x.ringUse.filter fun u => x.owner != some u.1 else x.ringUse }
  let pulse := (s.tone lane).pulse
  let hide (s : State) : State :=
    (if s.strDrives b n then
      s.setTone lane { s.tone lane with pulse := pulse.map fun q => { q with owner := none } }
     else s).setStream b n { y with owner := none }
  let show_ (s : State) : State :=
    (if s.strDrives b n then
      s.setTone lane { s.tone lane with pulse := (s.tone lane).pulse.map fun q => { q with owner := x.owner } }
     else s).setStream b n { s.stream b n with owner := x.owner }
  let s1 := show_ ((hide s).voidShot x.owner s.now full none)
  if full then
    ((s1.ringRelease b n (s1.rd (segPg b + Off.SEGMENT_STR_RING_RD n))).setFld (segPg b + Off.SEGMENT_STR_STAT n) 24 4
      6).latchHealth (segPg b) 0x62 |>.strFlag b n 5
  else s1

/-- The boundary of the first ring granule that is not in the ring yet, fills included, and whether a fill already waits for it: none
where it is past the segment that plays or the fill before it has not found its data (R168). -/
def State.missingAt (s : State) (b n : Nat) (x : StreamSt) : Option Nat :=
  let k := x.taken + s.ringLevel b n
  if x.seg.isNone || !descRing x.desc || decide (descLen x.desc ≤ k) then none
  else
    match x.fill with
    | none => some (s.dueAt x k)
    | some f =>
      match f.avail with
      | none => none
      | some a => if f.next.isSome || f.jumpAt.isSome then none else some (s.dueAt x k + (s.resumeAt f a - f.from_))

/-- UNDERRUN: a ring granule is not available 2 G before its boundary (R167, R168). -/
def execUnderrun (t : PT) (b : Fin 8) (n : Fin 16) (s : State) : Out :=
  runMem t s fun s =>
    let x := s.stream b n
    let pg := segPg b
    match s.missingAt b n x with
    | none => s
    | some due =>
      let live := match x.endAt with
        | none => true
        | some e => decide (due < e)
      if live && decide (due ≤ s.now + 2 * s.gK) then
        let s1 := (s.bump (pg + Off.SEGMENT_STR_UNDERRUN_COUNT n)).strFlag b n 0
        let s2 := match x.owner with
          | none => s1
          | some o => s1.seqRaise o.seq 1 o.shot 0
        let rel := (s2.rd (pg + Off.SEGMENT_STR_RING_WR n) + 2 ^ 32 - s2.rd (pg + Off.SEGMENT_STR_RING_REL n)) % 2 ^ 32
        if x.owner.isSome && decide (s2.fld (pg + Off.SEGMENT_STR_RING_SIZE n) 0 24 ≤ rel) then s2.abortStream b n true
        else if s2.bit (pg + Off.SEGMENT_STR_CFG n) 4 then s2.abortStream b n false
        else
          let s3 := s2.markVoid x.owner due
          let j := s3.rd (pg + Off.SEGMENT_STR_RING_WR n)
          match s3.readDesc b n (s3.fld (pg + Off.SEGMENT_STR_FILL_SEG n) 0 16) with
          | .inr _ => s3.segFault b n 3
          | .inl d =>
            if descRing d then s3.segFault b n 3
            else
              s3.setStream b n { s3.stream b n with
                fill := some (match x.fill with
                  | none => { from_ := due, j := j, avail := none, desc := d, jumpAt := none, next := none }
                  | some f => { f with next := some (due, j, none, d) }) }
      else s

/-- FILL_END: the first granule boundary at which the missing granule has been available for 2 G (R168). -/
def execFillEnd (t : PT) (b : Fin 8) (n : Fin 16) (s : State) : Out :=
  runAt t s fun s =>
    let x := s.stream b n
    match x.fill with
    | none => s
    | some f =>
      match f.avail, f.jumpAt with
      | some a, none =>
        let r := s.resumeAt f a
        let live := match x.endAt with
          | none => true
          | some e => decide (r < e)
        if r ≤ s.now && live then
          let s1 := (s.lookFill b n f r).count (segPg b + Off.SEGMENT_STR_FILL_COUNT n) ((r - f.from_) / s.gK)
          if (s1.stream b n).seg.isNone then s1
          else
            let s2 := (s1.ringFinish b n).passBoundary b n r
            let y := s2.stream b n
            (s2.setStream b n { y with
              endPt := y.endPt + (r - f.from_),
              fill := f.next.map fun g =>
                { from_ := g.1, j := g.2.1, avail := g.2.2.1, desc := g.2.2.2, jumpAt := none, next := none } }).strFlag b n 3
        else s
      | _, _ => s

/-- SEG_CMD.CLR_FAIL (R165). -/
def execClrFail (t : PT) (b : Fin 8) (s : State) : Out :=
  runAt t s fun s => s.onlyIf (s.has b) fun s => s.command (segPg b) fun s =>
    { s.zero [segPg b + Off.SEGMENT_FAIL_COUNT, segPg b + Off.SEGMENT_FAIL_LOG_FILL] with
      failLog := mapSet (fun _ => []) s.failLog b [] }

/-- VECTOR_FAIL: the receiver of a channel shows `seen` at the strobe of vector `m`, against what the vector expects
(R164, R165). -/
def execVectorFail (t : PT) (b : Fin 8) (ch : Fin 32) (m : Nat) (seen : Bool) (s : State) : Out :=
  runAt t s fun s =>
    let vc := s.vecCtrl b ch
    let n := bits vc 0 4
    let strobe := s.clk.o + m * 5 * s.clk.n + bits vc 16 14 + s.fld (segPg b + Off.SEGMENT_STR_VEC_STROBE n) 0 14
    if s.vecOn b ch && s.strKind b n = 3 && decide (strobe ≤ s.now) then
      match s.vecCode b n (bits vc 16 14) m (bits vc 4 5) with
      | none => s
      | some c =>
        let want := decide (c = 3)
        if (c = 2 ∨ c = 3) ∧ want ≠ seen then
          let pg := segPg b
          let s1 := s.raise (edgePg b ch) (8 + ch.val % 8)
          let full := s1.rd (pg + Off.SEGMENT_FAIL_LOG_FILL)
          let first := s1.rd (pg + Off.SEGMENT_FAIL_COUNT) == 256
          let s2 := s1.bump (pg + Off.SEGMENT_FAIL_COUNT)
          if full < 256 then
            let e := m % 2 ^ 48 + ch.val * 2 ^ 48 + b2n want * 2 ^ 53 + b2n seen * 2 ^ 54 + n * 2 ^ 56
            { s2.wr (pg + Off.SEGMENT_FAIL_LOG_FILL) (full + 1) with
              failLog := mapSet (fun _ => []) s2.failLog b (mapGet (fun _ => []) s2.failLog b ++ [BitVec.ofNat 64 e]) }
          else if first then s2.raise pg 7 else s2
        else s
    else s

end Sys2Proof.Machine
end

