-- ==== Sys2Proof/Machine/Sequencer.lean ====
section
/-!
DEFINITION. Machine/Sequencer.lean: the sequencers: starting and stopping (R147–R149), admission (R136, R137, R319), every
step (R129–R146), verdicts and triggers as they reach a sequencer (R135, R139–R141, R230), and the end of a shot (R137,
R297–R302).
-/

namespace Sys2Proof.Machine

/-- The number of a sequencer: bent × 16 + s. -/
abbrev seqNo (b : Fin 8) (q : Fin 16) : Nat := b.val * 16 + q.val

/-! ### Starting -/

/-- SEQ_CMD.START (R147, R153): what the sequencer reads at START, and the start of the static walk. A frame that is open ends
(R138). The snapshot written last stays in force while SNAP_CFG is as it was (R145, log entry 188). -/
def execSeqStart (t : PT) (b : Fin 8) (q : Fin 16) (s : State) : Out :=
  runAt t s fun s => s.onlyIf (s.has b) fun s =>
    let k := seqNo b q
    let pg := seqPg k
    s.command pg fun s =>
      let x := s.seq k
      if !s.enabled pg || s.fenced pg || x.running then s.latchHealth pg 0x50
      else
        let seed := s.rd64 (pg + Off.SEQ_SEED_INIT_LO)
        let same := x.snapCfg == s.rd (pg + Off.SEQ_SNAP_CFG)
        let s1 := s.setSeq k { SeqSt.init with
          phase := .estimating, drained := x.drained, snapSlot := if same then x.snapSlot else 0,
          snapP := if same then x.snapP else none, entry := s.fld (pg + Off.SEQ_ENTRY) 0 17, firstPt := s.rd80 (pg + Off.SEQ_FIRST_PT_LO),
          seedInit := seed, chain := seed, snapCfg := s.rd (pg + Off.SEQ_SNAP_CFG),
          progBase := s.fld (pg + Off.SEQ_PROG_BASE) 0 17, progEnd := s.fld (pg + Off.SEQ_PROG_END) 0 17,
          cEnd := s.granCeil (s.now + s.leadMax k), first := true, lastNum := x.lastNum, prng := x.prng,
          cursor := x.cursor, stepAddr := x.stepAddr, arrivals := x.arrivals, est := x.est }
        let s2 := if x.frameOpen then s1.wr (pg + Off.SEQ_FRAME_NUM) ((s1.rd (pg + Off.SEQ_FRAME_NUM) + 1) % 2 ^ 32) else s1
        s2.standing pg 0x55 false

/-- ESTIMATE_DONE: the static walk of R147 ends; EST_ENERGY shows 0 after an unbounded one (log entry 187). -/
def execEstimateDone (t : PT) (b : Fin 8) (q : Fin 16) (s : State) : Out :=
  runAt t s fun s =>
    let k := seqNo b q
    let pg := seqPg k
    let x := s.seq k
    if x.phase == .estimating then
      let e := s.estimate k
      let sum := min (e.getD 0) 0xFFFFFFFF
      let forced := s.rd (pg + Off.SEQ_EST_OVERRIDE)
      let s1 := s.wr (pg + Off.SEQ_EST_ENERGY) sum
      if e.isNone && forced == 0 then
        (s1.setSeq k { x with phase := .halted, unbounded := true }).latchHealth pg 0x51
      else
        ((s1.setSeq k { x with
          unbounded := e.isNone, drained := false, est := if forced = 0 then sum else forced }).setDrained pg false).planNext
          k 0
    else s

/-! ### Stopping -/

/-- SEQ_CMD.HALT (R148). -/
def execSeqHalt (t : PT) (b : Fin 8) (q : Fin 16) (s : State) : Out :=
  runAt t s fun s => s.onlyIf (s.has b) fun s => s.command (seqPg (seqNo b q)) fun s => s.seqHalt (seqNo b q)

/-- SEQ_CMD.STOP (R148). -/
def execSeqStop (t : PT) (b : Fin 8) (q : Fin 16) (s : State) : Out :=
  runMem t s fun s => s.onlyIf (s.has b) fun s => s.command (seqPg (seqNo b q)) fun s => s.seqStop (seqNo b q)

/-! ### Moving (R149) -/

/-- SEQ_CMD.MOVE (R149). -/
def execSeqMove (t : PT) (b : Fin 8) (q : Fin 16) (s : State) : Out :=
  runAt t s fun s => s.onlyIf (s.has b) fun s =>
    let k := seqNo b q
    s.startCmd (seqPg k) fun s =>
      let x := s.seq k
      if x.running && x.phase != .halting && s.moveOk k then s.setSeq k { x with moveReq := true }
      else s.latchHealth (seqPg k) 0x52

/-! ### Admission (R136, R137, R319) -/

/-- The seed chain's next value (R146). -/
def chainNext (c : Nat) : Nat := (c * 6364136223846793005 + 1442695040888963407) % 2 ^ 64

/-- The slot of step memory that holds snapshot `i` (R145). -/
def State.snapAddr (s : State) (k i : Nat) : Nat := stepAddrOf k (bits (s.seq k).snapCfg 0 17 + 4 * i)

/-- P0–P15 in force. -/
def State.params (s : State) (k : Nat) : List Word := (List.range 16).map fun i => s.reg (seqP k i)

/-- Take a snapshot of P0–P15 if they differ from the last one written (R145). -/
def State.snapshot (s : State) (k : Nat) : State :=
  let x := s.seq k
  let p := s.params k
  if x.snapP = some p then s
  else
    let depth := max 1 (bits x.snapCfg 24 8)
    let slot := if x.snapP.isNone then 0 else (x.snapSlot + 1) % depth
    (s.memWr (s.snapAddr k slot) (p.flatMap fun w => leBytes w.toNat 4)).setSeq k { x with
      snapP := some p, snapSlot := slot }

/-- A replay restores P0–P15 from its snapshot (R145); a poisoned word of it gives a free value (log entry 1). -/
def State.restoreParams (s : State) (k slot : Nat) : State :=
  (List.range 16).foldl (fun s i =>
    let a := s.snapAddr k slot + 4 * i
    if s.poisoned a 4 then
      let (v, s1) := s.fresh1
      s1.wr (seqP k i) v
    else s.wr (seqP k i) (s.memRd a 4)) s

/-- Open a shot at the planned S: its number, its seed, its snapshot and its first flags (R137, R145, R146). -/
def State.openShot (s : State) (k start : Nat) (warn : Bool) : State :=
  let x := s.seq k
  let pg := seqPg k
  let base : Nat := b2n x.moved * 2 + b2n s.warming * 2 ^ 5 + b2n warn * 2 ^ 7 + b2n x.deferred * 2 ^ 10
  let common : Shot :=
    { num := 0, start := start, admitAt := s.now, entry := x.entry, seed := 0, snap := 0, flags := base, est := x.est,
      replays := 0, frameEnd := false, stretchG := 0, branchPath := 0, branchCount := 0, lateVerdicts := 0, states := 0,
      verdicts := 0, timedOut := false, voidPt := none, noReplay := false, fillOnly := false, cutPt := none, poison := none, cEnd := 0,
      effEnd := start, energy := 0 }
  let run (s : State) (h : Shot) (y : SeqSt) : State :=
    s.setSeq k { y with
      phase := .inShot, stepAddr := x.entry, cursor := start, stack := [], prng := h.seed, cur := none, shot := some h,
      next := none, last := some start, first := false, frameOpen := true, admitWait := false, deferred := false,
      moved := false }
  match x.owed with
  | h :: r =>
    let s1 := s.restoreParams k h.snap
    run s1 { common with
      num := h.num, seed := h.seed, snap := h.snap, flags := base + 8, replays := h.replays, timedOut := h.timedOut }
      { s1.seq k with owed := r }
  | [] =>
    let chain := chainNext x.chain
    let fixed := s.bit (pg + Off.SEQ_SEQ_CTRL) 3
    let raw := if fixed then x.seedInit else chain
    let seed := if raw = 0 then 1 else raw
    let num := (x.lastNum + 1) % 2 ^ 48
    let s1 := s.snapshot k
    let y := s1.seq k
    run s1 { common with num := num, seed := seed, snap := y.snapSlot }
      { y with chain := chain, lastNum := num, shotsRun := x.shotsRun + 1 }

/-- Is a sequencer's admission request due: S at most LEAD_MAX granules ahead of PT (R319)? -/
def State.admitDue (s : State) (k : Nat) : Bool :=
  match (s.seq k).phase, (s.seq k).next with
  | .planned, some v => decide (v ≤ s.now + s.leadMax k)
  | _, _ => false

/-- Does one request come before another in the ridge's order (R319)? -/
def State.before (s : State) (j k : Nat) : Bool :=
  decide ((s.seq j).orig < (s.seq k).orig) || ((s.seq j).orig == (s.seq k).orig && decide (j < k))

/-- The estimates of deferred requests that keep their place ahead of one (R319). -/
def State.reserved (s : State) (k : Nat) : Nat :=
  s.seqs.foldl (fun n e =>
    if e.2.phase == .planned && e.2.deferred && e.1 != k && s.before e.1 k then n + e.2.est else n) 0

/-- S moves by a granule, or by a grid point in GRID mode (R136). -/
def State.deferTo (s : State) (k v : Nat) : Nat :=
  if s.shotMode k = 1 then s.gridPt k (s.gridIndex k (v + 1)) else v + s.gK

/-- ADMIT_REQUEST (R136, R137, R319): granted, deferred or admitted under WARN. -/
def execAdmitRequest (t : PT) (b : Fin 8) (q : Fin 16) (s : State) : Out :=
  runMem t s fun s =>
    let k := seqNo b q
    let x := s.seq k
    let lp := pkgp 3
    match x.next with
    | none => s
    | some v =>
      if !s.admitDue k || s.seqs.any (fun e => s.admitDue e.1 && s.before e.1 k) then s
      else if s.seqEnds k then s.seqFinish k
      else if s.tallyHold k then s.setSeq k { x with next := some (s.deferTo k v), admitWait := true }
      else
        let avail : Int := s.credit - (s.committed : Int) - (s.reserved k : Int)
        let on := s.bit (lp + Off.LEDGER_LEDGER_CTRL) 0
        let huge := on && decide (s.rd (lp + Off.LEDGER_RESERVOIR) < x.est)
        let covered := !on || decide ((x.est : Int) ≤ avail)
        let warn := huge || (!covered && s.bit (seqPg k + Off.SEQ_SEQ_CTRL) 1)
        if covered && !huge then
          ((s.setCommitted (s.committed + x.est)).bump (lp + Off.LEDGER_ADMIT_COUNT)).openShot k v false
        else if warn then
          let s1 := ((s.setCommitted (s.committed + x.est)).bump (lp + Off.LEDGER_ADMIT_COUNT)).bump
            (lp + Off.LEDGER_WARN_COUNT)
          let s2 := if huge then s1.latchHealth lp 0xE2 else s1
          (s2.raise lp 1).openShot k v true
        else
          (((s.setSeq k { x with next := some (s.deferTo k v), deferred := true, admitWait := true }).bump
            (seqPg k + Off.SEQ_DEFER_COUNT)).bump (lp + Off.LEDGER_DEFER_COUNT)).raise lp 0

/-! ### Steps -/

/-- Does a peg of the sequencer wait at a full lane (R43)? -/
def State.pegWaits (s : State) (k : Nat) : Bool :=
  s.flight.any fun e => s.laneFull e.1 &&
    e.2.any fun p => match p.owner with
      | none => false
      | some o => o.seq == k

/-- STEP_FETCH (R129, R18): the next step is read, and a reserved or poisoned one is a fault. FAULT_INFO cannot hold the
address of a fetch past 131 071: it shows 0 there (log entry 185). -/
def execStepFetch (t : PT) (b : Fin 8) (q : Fin 16) (ecc : Ecc) (s : State) : Out :=
  runMem t s fun s =>
    let k := seqNo b q
    let x := s.seq k
    if x.phase == .inShot && x.cur.isNone && !s.pegWaits k then
      let a := x.stepAddr
      if 131072 ≤ a then (s.setSeq k { x with curAddr := 0 }).seqFault k 1
      else
        let s1 := s.eccRead (stepAddrOf k a) ecc
        let w := s1.memRd (stepAddrOf k a) 16
        let y := { x with curAddr := a, stepAddr := a + 1 }
        if s1.poisoned (stepAddrOf k a) 16 then
          (((s1.setSeq k y).updShot ((x.shot).map fun h => { seq := k, shot := h.num }) fun h => h.flag 9)).seqFault k 4
        else if stReserved w then (s1.setSeq k y).seqFault k 1
        else s1.setSeq k { y with cur := some w }
    else s

/-- Run a fetched step of one opcode. -/
def State.onStep (s : State) (k op : Nat) (f : State → SeqSt → Nat → State) : State :=
  let x := s.seq k
  match x.cur with
  | none => s
  | some w => if x.phase == .inShot && stOp w == op then f s x w else s

/-- The step is done. -/
def State.stepDone (s : State) (k : Nat) (x : SeqSt) : State := s.setSeq k { x with cur := none, runAheadWait := false }

/-- The owner of the pegs a sequencer issues. -/
def SeqSt.owner (x : SeqSt) (k : Nat) : Option Owner := x.shot.map fun h => { seq := k, shot := h.num }

/-- A timed step: its lane is checked, and its peg goes out once within LEAD_MAX (R40, R130, R133). -/
def State.timedStep (s : State) (k op : Nat) (round : Bool) (payload : State → Nat → Nat) : State :=
  s.onStep k op fun s x w =>
    let lane := stLane w
    let pt0 := ptAdd x.cursor (stOfs w)
    let pt := if round then s.granCeil pt0 else pt0
    if !s.laneValid lane then s.seqFault k 2
    else if s.now + s.leadMax k < pt then s.setSeq k { x with runAheadWait := true }
    else (s.offer lane { pt := pt, payload := payload s w, owner := x.owner k, trig := false }).stepDone k x

/-- PEG (R130). -/
def execPegStep (t : PT) (b : Fin 8) (q : Fin 16) (s : State) : Out :=
  runMem t s fun s => s.timedStep (seqNo b q) 1 false fun _ w => bits w 0 64

/-- PLAY (R130, R175). -/
def execPlayStep (t : PT) (b : Fin 8) (q : Fin 16) (s : State) : Out :=
  runMem t s fun s => s.timedStep (seqNo b q) 2 false fun s w => s.playPayload (seqNo b q) w

/-- SEGMENT (R130, R157). -/
def execSegmentStep (t : PT) (b : Fin 8) (q : Fin 16) (s : State) : Out :=
  runMem t s fun s => s.timedStep (seqNo b q) 3 true fun _ w => bits w 64 16

/-- CAPTURE (R130, R207). -/
def execCaptureStep (t : PT) (b : Fin 8) (q : Fin 16) (s : State) : Out :=
  runMem t s fun s => s.timedStep (seqNo b q) 4 false fun _ w => capturePayload w

/-- WAIT (R131, R132). -/
def execWaitStep (t : PT) (b : Fin 8) (q : Fin 16) (s : State) : Out :=
  runAt t s fun s =>
    let k := seqNo b q
    s.onStep k 5 fun s x w =>
      let m := bits w 116 4
      let c := if m = 0 then ptAdd x.cursor (bits w 0 48)
        else if m = 1 then ptAdd x.cursor (s.rd (seqP k (bits w 112 4)))
        else ptAdd (s.granCeil x.cursor) (bits w 0 48)
      s.stepDone k { x with cursor := c }

/-- The fresh verdicts of a VID that have reached a sequencer, oldest arrival first (R139). -/
def SeqSt.fresh (x : SeqSt) (vid limit : Nat) : List Arrival :=
  x.arrivals.filter fun a => a.rec_.vid == vid && decide (limit ≤ a.rec_.endTick)

/-- Among verdicts, the one whose window ended last. -/
def latest : List Arrival → Option Arrival
  | [] => none
  | a :: r =>
    match latest r with
    | none => some a
    | some c => if c.rec_.endTick < a.rec_.endTick then some a else some c

/-- The shot's record of a branch taken or not (R297). -/
def Shot.branch (h : Shot) (taken : Bool) : Shot :=
  { h with
    branchPath := if h.branchCount < 48 then h.branchPath + b2n taken * 2 ^ h.branchCount else h.branchPath,
    branchCount := min (h.branchCount + 1) 255 }

/-- The shot's record of a verdict decided on (R297). -/
def Shot.decide (h : Shot) (st : Nat) : Shot :=
  { h with
    states := if h.verdicts < 16 then h.states + st * 4 ^ h.verdicts else h.states,
    verdicts := min (h.verdicts + 1) 255 }

/-- Change the running shot of a sequencer. -/
def SeqSt.updRun (x : SeqSt) (f : Shot → Shot) : SeqSt := { x with shot := x.shot.map f }

/-- A branch decided on a verdict byte (R140). -/
def State.branchOn (s : State) (k w byte : Nat) : State :=
  let x := s.seq k
  let st := bits byte 0 2
  let taken := bitAt w (107 + st) && !(bitAt w 106 && bitAt byte 2)
  let y := x.updRun fun h => (h.decide st).branch taken
  s.stepDone k { y with stepAddr := if taken then bits w 0 17 else x.stepAddr }

/-- The records of a late verdict (R140). -/
def State.lateVerdict (s : State) (k : Nat) : State :=
  let x := s.seq k
  let num := match x.shot with
    | none => 0
    | some h => h.num
  let s1 := (s.setSeq k (x.updRun fun h => { h with lateVerdicts := min (h.lateVerdicts + 1) 255 })).bump
    (seqPg k + Off.SEQ_LATE_VERDICT_COUNT)
  s1.seqRaise k 2 num 0

/-- A peg as its sequencer would issue it again, `d` kerfs later (R140). -/
def Peg.again (p : Peg) (lane d : Nat) : Peg :=
  let delay := if laneKind lane = 4 && p.action == 1 then bits p.payload 72 24 else 0
  { p with pt := p.pt - delay + d, payload := bits p.payload 0 64 }

/-- Every queued peg of a shot from `x` on is withdrawn and issued again `d` kerfs later (R140). -/
def State.stretchPegs (s : State) (o : Owner) (x d : Nat) : State :=
  let s1 := s.flight.foldl (fun s e =>
    s.setFlight e.1 ((s.inFlight e.1).map fun p => if p.mine o x then { p with pt := p.pt + d } else p)) s
  s1.queues.foldl (fun s e =>
    let q := s.queue e.1
    let out := (q.filter fun p => p.mine o x).map fun p => p.again e.1 d
    if out.isEmpty then s
    else (s.setQueue e.1 (q.filter fun p => !p.mine o x)).setFlight e.1 (s.inFlight e.1 ++ out)) s1

/-- STRETCH by the lateness of a verdict that arrived at tick `a` (R140). -/
def State.stretch (s : State) (k a d : Nat) : State :=
  let x := s.seq k
  let g := ceilDiv (a - d) 160
  let delta := g * s.gK
  match x.shot with
  | none => s
  | some h =>
    let s1 := (s.stretchPegs { seq := k, shot := h.num } x.cursor delta).bump (seqPg k + Off.SEQ_STRETCH_COUNT)
    s1.setSeq k { x with
      cursor := x.cursor + delta, shot := some { h.flag 4 with stretchG := min (h.stretchG + g) 0xFFFF } }

/-- The deadline D of a BRANCH (R140), as a tick. -/
def State.deadline (s : State) (k : Nat) : Nat :=
  s.tick (s.seq k).cursor - s.fld (seqPg k + Off.SEQ_DECIDE_LEAD) 0 14

/-- VERDICT_TIMEOUT of a sequencer, in ticks. -/
def State.verdictTimeout (s : State) (k : Nat) : Nat := s.fld (seqPg k + Off.SEQ_VERDICT_TIMEOUT) 0 16 * 160

/-- The verdict that decides a BRANCH, if one can decide it yet, and whether it is late (R139, R140). -/
def State.deciding (s : State) (k w : Nat) : Option (Arrival × Bool) :=
  let x := s.seq k
  let d := s.deadline k
  let fresh := x.fresh (bits w 111 9) (s.tick x.cursor - bits w 40 24)
  match latest (fresh.filter fun a => decide (a.tick ≤ d)) with
  | some a => if d ≤ s.tick s.now then some (a, false) else none
  | none =>
    match fresh.find? (fun a => decide (d < a.tick)) with
    | some a => if a.tick ≤ d + s.verdictTimeout k then some (a, true) else none
    | none => none

/-- BRANCH (R140). -/
def execBranch (t : PT) (b : Fin 8) (q : Fin 16) (s : State) : Out :=
  runMem t s fun s =>
    let k := seqNo b q
    s.onStep k 6 fun s x w =>
      let target := bits w 0 17
      let kind := bits w 103 2
      if kind = 1 then s.stepDone k { x with stepAddr := target }
      else if kind = 2 then
        let taken := s.rd (seqP k (bits w 99 4)) != 0
        s.stepDone k { x.updRun (fun h => h.branch taken) with stepAddr := if taken then target else x.stepAddr }
      else
        match s.deciding k w with
        | none => s
        | some (a, false) => s.branchOn k w a.rec_.byte
        | some (a, true) =>
          let s1 := s.lateVerdict k
          if s.bit (seqPg k + Off.SEQ_SEQ_CTRL) 0 then (s1.stretch k a.tick (s.deadline k)).branchOn k w a.rec_.byte
          else s1.voidShot (x.owner k) x.cursor false none

/-- VERDICT_TIMEOUT: a BRANCH has no fresh verdict by its last instant (R140). -/
def execVerdictTimeout (t : PT) (b : Fin 8) (q : Fin 16) (s : State) : Out :=
  runMem t s fun s =>
    let k := seqNo b q
    s.onStep k 6 fun s x w =>
      if bits w 103 2 = 0 && (s.deciding k w).isNone && decide (s.deadline k + s.verdictTimeout k ≤ s.tick s.now) then
        let again := match x.shot with
          | none => false
          | some h => h.timedOut
        let s1 := s.lateVerdict k
        if again then s1.seqFault k 6
        else
          let y := s1.seq k
          (s1.setSeq k (y.updRun fun h => { h with timedOut := true })).voidShot (x.owner k) x.cursor false none
      else s

/-- LOOP (R142). -/
def execLoopStep (t : PT) (b : Fin 8) (q : Fin 16) (s : State) : Out :=
  runMem t s fun s =>
    let k := seqNo b q
    s.onStep k 7 fun s x w =>
      let target := bits w 0 17
      let pass (left : Nat) (rest : List Frame) : State :=
        if left = 0 then s.stepDone k { x with stack := rest }
        else s.stepDone k { x with stack := .loop x.curAddr (left - 1) :: rest, stepAddr := target }
      let count := if bitAt w 119 then max 1 (s.rd (seqP k (bits w 115 4))) else bits w 88 24
      match x.stack with
      | .loop a left :: r =>
        if a = x.curAddr then pass left r
        else if 16 ≤ x.stack.length then s.seqFault k 3 else pass (count - 1) x.stack
      | st => if 16 ≤ st.length then s.seqFault k 3 else pass (count - 1) st

/-- CALL (R142). -/
def execCallStep (t : PT) (b : Fin 8) (q : Fin 16) (s : State) : Out :=
  runMem t s fun s =>
    let k := seqNo b q
    s.onStep k 8 fun s x w =>
      if 16 ≤ x.stack.length then s.seqFault k 3
      else s.stepDone k { x with stack := .call x.stepAddr :: x.stack, stepAddr := bits w 0 17 }

/-- RETURN (R142). -/
def execReturnStep (t : PT) (b : Fin 8) (q : Fin 16) (s : State) : Out :=
  runMem t s fun s =>
    let k := seqNo b q
    s.onStep k 9 fun s x _ =>
      match x.stack with
      | .call a :: r => s.stepDone k { x with stack := r, stepAddr := a }
      | _ => s.seqFault k 3

/-- A barrier of the package. -/
def State.barrier (s : State) (i : Nat) : Option Barrier := mapGet (fun _ => none) s.barriers i

/-- Put a barrier. -/
def State.setBarrier (s : State) (i : Nat) (v : Option Barrier) : State :=
  { s with barriers := mapSet (fun _ => none) s.barriers i v }

/-- A barrier fails: it is reset, and every sequencer that waits at it takes a fault of cause 5 (R143). -/
def State.barrierFault (s : State) (i : Nat) (ks : List Nat) : State :=
  ks.foldl (fun s k =>
    if (s.seq k).syncWait then (s.setSeq k { s.seq k with syncWait := false }).seqFault k 5 else s) (s.setBarrier i none)

/-- SYNC (R143): an arrival joins the barrier, and the last one releases all. A sequencer whose shot was voided or restarted
while it waited has arrived still, so that it faults if it comes a second time. -/
def execSyncStep (t : PT) (b : Fin 8) (q : Fin 16) (s : State) : Out :=
  runMem t s fun s =>
    let k := seqNo b q
    s.onStep k 10 fun s x w =>
      let i := bits w 114 6
      let n := bits w 106 8
      let out := bits w 24 32
      let me := (k, x.cursor, if out = 0 then 0 else x.cursor + out * s.gK)
      if x.syncWait then s
      else
        let waiting := match s.barrier i with
          | none => []
          | some br => br.waiting
        let count := match s.barrier i with
          | none => n
          | some br => br.count
        let all := waiting ++ [me]
        if count ≠ n ∨ (waiting.any fun p => p.1 == k) then
          (s.setSeq k { x with syncWait := true }).barrierFault i (all.map fun p => p.1)
        else if all.length < n then
          (s.setBarrier i (some { count := n, waiting := all })).setSeq k { x with syncWait := true }
        else
          let c := s.granCeil (all.foldl (fun m p => max m p.2.1) 0)
          all.foldl (fun s p =>
            if (s.seq p.1).syncWait || p.1 == k then s.stepDone p.1 { s.seq p.1 with cursor := c, syncWait := false } else s)
            (s.setBarrier i none)

/-- SYNC_TIMEOUT: PT has passed a waiting participant's limit (R143). -/
def execSyncTimeout (t : PT) (i : Fin 64) (s : State) : Out :=
  runMem t s fun s =>
    match s.barrier i with
    | none => s
    | some br =>
      if br.waiting.any fun p => (s.seq p.1).syncWait && p.2.2 != 0 && decide (p.2.2 < s.now) then s.barrierFault i (br.waiting.map fun p => p.1)
      else s

/-- One draw of the generator (R146): the new state and its upper half. -/
def prngDraw (p : Nat) : Nat × Nat :=
  let a := p ^^^ (p * 2 ^ 13 % 2 ^ 64)
  let c := a ^^^ (a / 2 ^ 7)
  let d := c ^^^ (c * 2 ^ 17 % 2 ^ 64)
  (d, d / 2 ^ 32)

/-- SET (R131, R146). -/
def execSetStep (t : PT) (b : Fin 8) (q : Fin 16) (s : State) : Out :=
  runAt t s fun s =>
    let k := seqNo b q
    s.onStep k 11 fun s x w =>
      let d := seqP k (bits w 116 4)
      let imm := bits w 32 32
      let op := bits w 112 4
      let (prng, u) := prngDraw x.prng
      let range := if bits w 0 32 = 0 then 2 ^ 32 else bits w 0 32
      let v := if op = 0 then imm else if op = 1 then s.rd d + imm
        else if op = 2 then s.rd d + s.rd (seqP k (bits w 108 4)) else imm + u * range / 2 ^ 32
      (s.wr d v).stepDone k { x with prng := if op = 3 then prng else x.prng }

/-! ### The end of a shot -/

/-- The streams a shot owns end at the first granule boundary at or after its C_end; one that learns of it less than 1 G
before that ends 1 G after the END_SHOT, and its shot is late then, unless its chain is over by itself (R158). -/
def State.endStreams (s : State) (o : Owner) (cEnd : Nat) : State :=
  let edge := s.granCeil cEnd
  s.streams.foldl (fun s e =>
    if e.2.seg.isSome && e.2.owner == some o then
      let b := e.1 / 16
      let n := e.1 % 16
      let x := s.stream b n
      let ends := x.succ == some none && decide (x.endPt ≤ edge)
      let slow := decide (edge < s.now + s.gK)
      let at_ := if slow then s.granCeil (s.now + s.gK) else edge
      let s1 := s.setStream b n { x with endAt := some (min at_ (x.endAt.getD at_)) }
      if slow && !ends then s1.flagShot (some o) 1 else s1
    else s) s

/-- A shot's steps are over at its cursor (R137, R142). -/
def State.endShot (s : State) (k gap : Nat) (frameEnd halt : Bool) : State :=
  let x := s.seq k
  match x.shot with
  | none => s
  | some h =>
    if !x.stack.isEmpty then s.seqFault k 3
    else
      let c := x.cursor
      let h' := { h with cEnd := c, frameEnd := frameEnd || halt }
      let fr := seqPg k + Off.SEQ_FRAME_NUM
      let s1 := if frameEnd || halt then s.wr fr ((s.rd fr + 1) % 2 ^ 32) else s
      let back := x.owed.foldl (fun m o => max m o.cEnd) c
      let s2 := s1.setSeq k { x with
        shot := none, tail := x.tail ++ [h'], cur := none, cEnd := back, gap := gap, haltReq := x.haltReq || halt,
        frameOpen := !(frameEnd || halt), phase := .planned, next := none }
      (s2.endStreams { seq := k, shot := h.num } c).shotBoundary k (frameEnd || halt)

/-- END_SHOT (R137). -/
def execEndShot (t : PT) (b : Fin 8) (q : Fin 16) (s : State) : Out :=
  runMem t s fun s => s.onStep (seqNo b q) 12 fun s _ w => s.endShot (seqNo b q) (bits w 0 32) (bitAt w 119) false

/-- HALT (R131, R138): END_SHOT with GAP 0, and the sequencer stops. -/
def execHaltStep (t : PT) (b : Fin 8) (q : Fin 16) (s : State) : Out :=
  runMem t s fun s => s.onStep (seqNo b q) 13 fun s _ _ => s.endShot (seqNo b q) 0 false true

/-! ### AWAIT, triggers and verdicts -/

/-- The instant after which an AWAIT's event comes too late, if it has one (R141). -/
def State.awaitLimit (s : State) (x : SeqSt) (w : Nat) : Option Nat :=
  if bits w 24 32 = 0 then none else some (x.cursor + bits w 24 32 * s.gK)

/-- An AWAIT of KIND 1 takes the first fresh verdict that has reached the sequencer (R141). -/
def State.awaitVerdict (s : State) (k w : Nat) : State :=
  let x := s.seq k
  match (x.fresh (bits w 109 9) (s.tick x.cursor - bits w 56 24)).head? with
  | none => s
  | some a =>
    let ok := match s.awaitLimit x w with
      | none => true
      | some l => decide (s.ptOf a.tick ≤ l)
    if ok then
      let c := s.ptOf (a.tick + s.fld (seqPg k + Off.SEQ_DECIDE_LEAD) 0 14)
      let y := if x.cursor < c then x.updRun (fun h => h.flag 11) else x
      s.stepDone k { y with cursor := max x.cursor c, awaitWait := false }
    else s

/-- A trigger source and polarity as one number: an edge pin or a stamp input, its index, and rising or falling. -/
def trigKey (pin : Bool) (index : Nat) (falling : Bool) : Nat := b2n pin * 64 + index * 2 + b2n falling

/-- The source and polarity that an AWAIT of KIND 0 names (R131). -/
def awaitKey (w : Nat) : Nat := trigKey (bitAt w 117) (bits w 112 5) (bitAt w 111)

/-- May an AWAIT of KIND 0 take an edge: stamped at or after its cursor, and not after its limit (R141)? -/
def State.awaitTakes (s : State) (x : SeqSt) (w stamp : Nat) : Bool :=
  decide (x.cursor ≤ stamp) && (match s.awaitLimit x w with
    | none => true
    | some l => decide (stamp ≤ l))

/-- An AWAIT of KIND 0 takes a trigger edge stamped at or after its cursor (R141). -/
def State.awaitTrigger (s : State) (k w stamp : Nat) : State :=
  let x := s.seq k
  if s.awaitTakes x w stamp then
    let c := ptAdd stamp (stOfs w)
    let y := if c < x.cursor then x.updRun (fun h => h.flag 1) else x
    s.stepDone k { y with cursor := max x.cursor c, awaitWait := false }
  else s

/-- An AWAIT of KIND 0 takes the first edge it may take among those that have reached the sequencer already (R141). -/
def State.awaitHeard (s : State) (k w : Nat) : State :=
  let x := s.seq k
  match x.heard.find? fun e => e.1 == awaitKey w && s.awaitTakes x w e.2 with
  | none => s
  | some e => s.awaitTrigger k w e.2

/-- AWAIT (R141): the shot is suspended, and a verdict or an edge that has already arrived ends the wait at once. -/
def execAwait (t : PT) (b : Fin 8) (q : Fin 16) (s : State) : Out :=
  runAt t s fun s =>
    let k := seqNo b q
    s.onStep k 14 fun s x w =>
      let s1 := s.setSeq k { x with awaitWait := true }
      if bits w 118 2 = 1 then s1.awaitVerdict k w else s1.awaitHeard k w

/-- AWAIT_TIMEOUT: the event has not occurred by C + TIMEOUT × G; KIND 0 waits 60 ticks more for stamps (R141). -/
def execAwaitTimeout (t : PT) (b : Fin 8) (q : Fin 16) (s : State) : Out :=
  runAt t s fun s =>
    let k := seqNo b q
    s.onStep k 14 fun s x w =>
      match s.awaitLimit x w with
      | none => s
      | some l =>
        let due := if bits w 118 2 = 0 then l + 60 * s.clk.n else l
        if x.awaitWait && decide (due ≤ s.now) then
          s.stepDone k { x with cursor := l, stepAddr := bits w 0 17, awaitWait := false }
        else s

/-- The end of the previous shot as the sequencer knows it (R135): C_end, or C_void of a voided shot. -/
def State.knownEnd (s : State) (x : SeqSt) : Nat :=
  x.tail.foldl (fun m h =>
    match h.voidPt with
    | none => m
    | some v => max m (s.granCeil (max v h.effEnd))) x.cEnd

/-- A stamped trigger held for a later shot (R135, QUEUE). -/
def State.queueTrigger (s : State) (k stamp : Nat) : State :=
  let x := s.seq k
  if 4 ≤ x.trigQ.length then s.bump (seqPg k + Off.SEQ_TRIG_MISSED)
  else s.setSeq k { x with trigQ := x.trigQ ++ [stamp] }

/-- RESTART (R135): the running shot is cut at the first granule boundary at or after the trigger and ends truncated, and
the new shot starts at the trigger plus TRIG_DELAY. -/
def State.restartShot (s : State) (k stamp : Nat) : State :=
  let edge := s.granCeil stamp
  let x := s.seq k
  let cut (s : State) (h : Shot) : State :=
    let o : Owner := { seq := k, shot := h.num }
    (s.updShot (some o) fun h => h.flag 6).cutShot o edge false
  let s1 := match x.shot with
    | some h =>
      let s1 := cut s h
      let y := s1.seq k
      let done : List Shot := (y.shot.map fun (h : Shot) => ({ h with cEnd := edge } : Shot)).toList
      s1.setSeq k { y with
        shot := none, cur := none, stack := [], awaitWait := false, syncWait := false, runAheadWait := false,
        tail := y.tail ++ done, cEnd := edge }
    | none =>
      match x.tail.getLast? with
      | none => s
      | some h => if stamp < h.cEnd || h.voidPt.isSome then cut s h else s
  let p := (s1.seq k).phase
  if p == .voidWait || p == .gateHold || p == .estimating then s1.setSeq k { s1.seq k with trigQ := [stamp] }
  else if s1.seqEnds k then s1.planNext k 0
  else s1.planAt k (ptAdd stamp (s1.trigDelay k)) false

/-- A trigger of a TRIGGERED sequencer (R134, R135). -/
def State.shotTrigger (s : State) (k stamp : Nat) : State :=
  let x := s.seq k
  let pol := s.fld (seqPg k + Off.SEQ_SHOT_START) 9 2
  let after := decide (s.knownEnd x ≤ stamp)
  if x.phase == .trigWait && after then s.planAt k (ptAdd stamp (s.trigDelay k)) false
  else if (x.phase == .voidWait || x.phase == .gateHold || x.phase == .estimating) && after && x.trigQ.isEmpty then
    s.setSeq k { x with trigQ := [stamp] }
  else if pol = 0 then s.bump (seqPg k + Off.SEQ_TRIG_MISSED)
  else if pol = 1 then
    let s1 := s.queueTrigger k stamp
    if x.phase == .trigWait then s1.planStart k 0 else s1
  else s.restartShot k stamp

/-- SHOT_TRIGGER: an edge of a stamp input (`pin` false) or of an edge pin in RECEIVE, of one polarity, with its stamp,
reaches a sequencer: an AWAIT that waits for it takes it, and in MODE TRIGGERED it starts, restarts or queues a shot (R134,
R135, R141). -/
def execShotTrigger (t : PT) (b : Fin 8) (q : Fin 16) (pin : Bool) (index : Fin 32) (falling : Bool) (stamp : PT)
    (s : State) : Out :=
  runMem t s fun s =>
    let k := seqNo b q
    let x := s.seq k
    let ss := s.rd (seqPg k + Off.SEQ_SHOT_START)
    let key := trigKey pin index falling
    let s1 := s.setSeq k { x with heard := x.heard ++ [(key, stamp.toNat)] }
    let s2 := match x.cur with
      | none => s1
      | some w =>
        if x.awaitWait && bits w 118 2 == 0 && awaitKey w == key then s1.awaitTrigger k w stamp.toNat else s1
    let active := x.phase == .trigWait || x.phase == .planned || x.phase == .inShot || x.phase == .voidWait ||
      x.phase == .gateHold || x.phase == .estimating
    if active && s.shotMode k = 2 && bitAt ss 2 == pin && bits ss 3 5 == index.val && bitAt ss 8 == falling then
      s2.shotTrigger k stamp.toNat
    else s2

/-- A verdict reaches a sequencer: an AWAIT on its VID may end (R141, R230). -/
def State.deliver (s : State) (k : Nat) (v : VRec) : State :=
  let x := s.seq k
  let s1 := s.setSeq k { x with arrivals := x.arrivals ++ [{ rec_ := v, tick := s.tick s.now }] }
  match x.cur with
  | none => s1
  | some w => if x.awaitWait && stOp w == 14 && bits w 118 2 == 1 then s1.awaitVerdict k w else s1

/-- PARITY_FAULT: a handshake parity fault in a sequencer voids and replays its shot (R148). -/
def execParityFault (t : PT) (b : Fin 8) (q : Fin 16) (s : State) : Out :=
  runMem t s fun s =>
    let k := seqNo b q
    if (s.seq k).shot.isSome then s.seqFault k 7 else s

/-! ### SHOT_DONE -/

/-- Is every peg of an ended shot resolved, and every stream and held window of it over (R137, R158)? -/
def State.pegsResolved (s : State) (o : Owner) : Bool :=
  let none_ (l : List Peg) : Bool := l.all fun p => p.owner != some o
  (s.queues.all fun e => none_ e.2) && (s.flight.all fun e => none_ e.2) &&
    (s.streams.all fun e => !(e.2.seg.isSome && e.2.owner == some o)) &&
    (s.caps.all fun e => e.2.held.all fun w => w.owner != some o)

/-- C_void of a voided shot (R299, R168). -/
def State.cVoid (s : State) (h : Shot) : Nat :=
  s.granCeil (max (if h.fillOnly then h.cEnd else h.voidPt.getD 0) h.effEnd)

/-- The flags that the end of a shot settles (R77, R60). -/
def State.endFlags (s : State) (b : Nat) (h : Shot) (last : Nat) : Shot :=
  let h1 := if s.coasted b h.start last then h.flag 0 else h
  if s.warming then h1.flag 5 else h1

/-- The stream ring data of a shot are released or given back (R167). -/
def State.ringDone (s : State) (o : Owner) (void : Bool) : State :=
  s.streams.foldl (fun s e => s.ringResolve (e.1 / 16) (e.1 % 16) o void) s

/-- What the sequencer does once an entry is written. -/
def State.afterEntry (s : State) (k end_ : Nat) (void : Bool) : State :=
  let x := s.seq k
  match x.phase with
  | .voidWait =>
    if x.tail.any fun h => h.voidPt.isSome then s
    else
      let c := x.owed.foldl (fun m o => max m o.cEnd) (if x.tail.isEmpty then end_ else max x.cEnd end_)
      (s.setSeq k { x with cEnd := if void then c else x.cEnd }).shotBoundary k false
  | .gateHold => s.setSeq k { x with cEnd := max x.cEnd end_ }
  | .trigWait => if void then s.setSeq k { x with cEnd := max x.cEnd end_ } else s
  | .halting =>
    if !x.owed.isEmpty then (s.setSeq k { x with cEnd := max x.cEnd end_ }).planNext k 0
    else if x.tail.isEmpty then s.seqFinish k else s
  | .parked => if x.tail.isEmpty then s.parkPins k else s
  | .halted =>
    if x.tail.isEmpty then (s.setSeq k { x with drained := true }).setDrained (seqPg k) true else s
  | _ => s

/-- SHOT_DONE: the oldest ended shot of a sequencer is resolved, and its entry written with the energy that its bent
attributes to it, `energy` of it not yet shared by an update of the account (R137, R297–R302, R317). -/
def execShotDone (t : PT) (b : Fin 8) (q : Fin 16) (energy : Nat) (s : State) : Out :=
  runMem t s fun s =>
    let k := seqNo b q
    let x := s.seq k
    match x.tail with
    | [] => s
    | h :: r =>
      let o : Owner := { seq := k, shot := h.num }
      let void := h.voidPt.isSome
      let end_ := if void then s.cVoid h else h.cEnd
      if !s.pegsResolved o || (void && decide (s.now < end_)) || s.tallyHold k then s
      else
        let h0 := s.endFlags b h end_
        let h1 : Shot := { h0 with energy := h0.energy + energy }
        let most := s.fld (contPg k + Off.CONTINUITY_CONT_CTRL) 0 4
        let spent := void && !h.noReplay && decide (most ≤ h.replays)
        let h2 := if void && (h.noReplay || spent) then h1.flag 8 else h1
        let owe := void && !h.noReplay && !spent
        let h3 : Shot := { h2 with replays := h.replays + 1, cEnd := end_ }
        let owed := if owe then x.owed ++ [h3] else x.owed
        let y : SeqSt := { x with tail := r, owed := owed }
        let s1 := (s.setSeq k y).ringDone o void
        let s2 := s1.writeEntry k h2
        let s3 := if spent then (s2.bump (contPg k + Off.CONTINUITY_ABANDON_COUNT)).raise (contPg k) 3 else s2
        s3.afterEntry k end_ void

end Sys2Proof.Machine
end

