-- ==== Sys2Proof/Machine/Capture.lean ====
section
/-!
DEFINITION. Machine/Capture.lean: capture inputs: windows and what conflicts with them (R208–R211), the end of a window
(R212–R218), continuous capture (R219), stops and drains (R220, R221), slices (R202–R206), and the delivery of verdicts
(R216, R230–R232).
-/

namespace Sys2Proof.Machine

/-! ### Windows -/

/-- The demodulators that take part in a window, as it latches them at its first sample (R212, R213). -/
def State.latchDemods (s : State) (b i mask : Nat) : List Demod :=
  (List.range 16).filterMap fun d =>
    let r (o : Nat) : Nat := s.rd (capPg b i + o)
    let w := r (Off.CAP_DEM_WEIGHT d)
    let a := shapeAddr b (bits w 0 12)
    let x := s.memRd a 8
    let ok := shapeOk false x && decide (shapeLen x ≤ 4096) && !s.poisoned a 8
    if bitAt mask d && bitAt (r (Off.CAP_DEM_CTRL d)) 0 then
      some
        { d := d, ctrl := r (Off.CAP_DEM_CTRL d),
          freq := r (Off.CAP_DEM_FREQ_LO d) + bits (r (Off.CAP_DEM_FREQ_HI d)) 0 16 * 2 ^ 32,
          phase := bits (r (Off.CAP_DEM_PHASE d)) 0 16, weight := w, bnd0 := r (Off.CAP_DEM_BND0 d),
          bnd0c := r (Off.CAP_DEM_BND0_C d), bnd1 := r (Off.CAP_DEM_BND1 d), bnd1c := r (Off.CAP_DEM_BND1_C d),
          conf := r (Off.CAP_DEM_CONF d), shape := if ok then some x else none }
    else none

/-- SLICE_STAT.SUSPECT of an input. -/
def State.suspect (s : State) (b i : Nat) : Bool := s.bit (capPg b i + Off.CAP_SLICE_STAT) 12

/-- A window starts with its first sample at `f`; the void PT of its shot cuts it (R46, R220). -/
def State.startWin (s : State) (b i f len mask store : Nat) (late counted injected : Bool) (peg : Nat)
    (owner : Option Owner) : State :=
  let c := s.cap b i
  let ds := s.latchDemods b i mask
  let w : Window :=
    { first := f, len := len, mask := mask, store := store, demods := ds, late := late, injected := injected,
      trunc := false, ovr := false, suspect := s.suspect b i, coasted := false, warming := s.warming, peg := peg, owner := owner }
  let w := match s.voidOf owner with
    | none => w
    | some x => s.winCut w (x - 1)
  let s1 := s.setCap b i { c with wins := c.wins ++ [w] }
  let s2 := if ds.any fun d => d.shape.isNone then (s1.capFlag b i 8).latchHealth (capPg b i) 0x81 else s1
  let s3 := if late && !counted then (s2.bump (capPg b i + Off.CAP_LATE_COUNT)).capFlag b i 0 else s2
  s3.noteEff owner (s.winEnd w)

/-- Two requests share a demodulator or the raw-sample writer (R209). -/
def clash (mask store mask' store' : Nat) : Bool := (mask &&& mask') != 0 || (decide (2 ≤ store) && decide (2 ≤ store'))

/-- A request conflicts with a window by mask or STORE. -/
def Window.clashes (w : Window) (mask store : Nat) : Bool := clash mask store w.mask w.store

/-- Continuous capture uses a demodulator of a mask at `f` (R209, R219). -/
def CapSt.contUses (c : CapSt) (mask f : Nat) : Bool :=
  match c.cont with
  | none => false
  | some k => k.src == 1 && bitAt mask k.demod && (match k.stop with
    | none => true
    | some e => decide (f < e))

/-- The template's DEMOD_MASK, STORE and LEN (R210, R211). -/
def State.template (s : State) (b i : Nat) : Nat × Nat × Nat :=
  let m := s.rd (capPg b i + Off.CAP_TMPL_MASK)
  (bits m 0 16, bits m 16 4, s.fld (capPg b i + Off.CAP_TMPL_LEN) 0 24)

/-- A pending injected conversion whose instant has come starts, and running windows it conflicts with end before it
(R211). -/
def State.capSync (s : State) (b i : Nat) : State :=
  let c := s.cap b i
  match c.inj with
  | none => s
  | some q =>
    if q ≤ s.now then
      let (mask, store, len) := s.template b i
      let s1 := s.setCap b i { c with inj := none, seqNo := c.seqNo + 1 }
      (s1.capTrunc b i (q - 1) fun w => w.clashes mask store).startWin b i q len mask store false false true c.seqNo none
    else s

/-- The first sample after an injected conversion that a window [f, f + len) conflicts with and overlaps, if any. -/
def State.injBlock (s : State) (b i mask store f len : Nat) : Option Nat :=
  let c := s.cap b i
  let n := s.clk.n
  let pend : Option Nat := match c.inj with
    | none => none
    | some q =>
      let (m, st, l) := s.template b i
      let e := q + l * n
      if clash mask store m st && decide (f < e) && decide (q < f + len * n) then some e else none
  match c.wins.find? fun w => w.injected && w.clashes mask store && decide (f ≤ s.winEnd w) with
  | some w => some (s.winEnd w + n)
  | none => pend

/-- A held window in its place by p. -/
def insertHeld (l : List HeldWin) (h : HeldWin) : List HeldWin :=
  match l with
  | [] => [h]
  | x :: r => if h.p < x.p then h :: x :: r else x :: insertHeld r h

/-- Hold a window. -/
def State.holdWin (s : State) (b i : Nat) (h : HeldWin) : State :=
  let c := s.cap b i
  s.setCap b i { c with held := insertHeld c.held h }

/-- The windows, injected conversions aside, that still run at `f`. -/
def State.runningAt (s : State) (b i f : Nat) : List Window :=
  (s.cap b i).wins.filter fun w => !w.injected && decide (f ≤ s.winEnd w)

/-- The first held window that can start now, with its first sample (R209, R211): it conflicts with nothing that runs and
with no window held before it. -/
def State.findHeld (s : State) (b i : Nat) : List HeldWin → List HeldWin → Option (HeldWin × Nat)
  | [], _ => none
  | h :: r, before =>
    let f := max h.from_ (s.sampleCeil h.p)
    let run := s.runningAt b i f
    if f ≤ s.now && run.length < 4 && run.all (fun w => !w.clashes h.mask h.store) &&
        !(s.cap b i).contUses h.mask f && (s.injBlock b i h.mask h.store f h.len).isNone &&
        before.all (fun g => !clash h.mask h.store g.mask g.store)
    then some (h, f) else s.findHeld b i r (before ++ [h])

/-- A held window that can start does. -/
def State.heldStart (s : State) (b i : Nat) : State :=
  let c := s.cap b i
  match s.findHeld b i c.held [] with
  | none => s
  | some (h, f) =>
    (s.setCap b i { c with held := c.held.erase h }).startWin b i f h.len h.mask h.store
      (h.late || f != s.sampleCeil h.p) h.counted false h.peg h.owner

/-- The window of a list whose first sample is earliest, and among those the one accepted first (R209). -/
def firstWin : List Window → Option Window
  | [] => none
  | w :: r =>
    match firstWin r with
    | none => some w
    | some v => if w.first < v.first ∨ (w.first = v.first ∧ w.peg < v.peg) then some w else some v

/-- RETRIG 1, QUEUE (R209). -/
def State.retrigQueue (s : State) (b i : Nat) (h : HeldWin) : State :=
  if ((s.cap b i).held.filter fun g => g.queued).length < 4 then s.holdWin b i { h with queued := true }
  else (s.bump (capPg b i + Off.CAP_TRIG_MISSED)).capFlag b i 1

/-- RETRIG 2, RESTART (R209): what conflicts ends at the granule boundary B ≥ p, and the new window starts there. -/
def State.retrigRestart (s : State) (b i f : Nat) (h : HeldWin) : State :=
  let bnd := s.granCeil h.p
  let s1 := s.capTrunc b i (bnd - 1) fun w => !w.injected && w.clashes h.mask h.store
  let c := s1.cap b i
  let cont := if c.contUses h.mask f then
      c.cont.map fun k => { k with stop := some (min bnd (k.stop.getD bnd)) }
    else c.cont
  let same (g : HeldWin) : Bool := !g.queued && g.from_ == bnd && clash h.mask h.store g.mask g.store
  let s2 := (s1.count (capPg b i + Off.CAP_DISCARD_COUNT) (c.held.filter same).length).setCap b i { c with
    cont := cont, held := c.held.filter fun g => !same g }
  let left := s2.runningAt b i bnd
  let placed := ((s2.cap b i).held.filter fun g => !g.queued && g.from_ == bnd).length
  let s3 := if 4 ≤ left.length + placed then
      (match firstWin left with
       | none => s2
       | some v => s2.capTrunc b i (bnd - 1) fun w => w == v)
    else s2
  (s3.holdWin b i { h with p := bnd, from_ := bnd, late := h.late || bnd != f }).heldStart b i

/-- A WINDOW at its requested instant (R208, R209, R211). -/
def State.windowAt (s : State) (b i : Nat) (p : Peg) : State :=
  let f := s.sampleCeil p.pt
  let len := bits p.payload 8 24
  let mask := bits p.payload 32 16
  let store := bits p.payload 4 4
  let slip := p.slipped
  let h : HeldWin :=
    { p := p.pt, from_ := f, len := len, mask := mask, store := store, peg := p.payload / 2 ^ 96, owner := p.owner,
      late := slip, counted := slip, queued := false }
  match s.injBlock b i mask store f len with
  | some e => s.holdWin b i { h with from_ := e }
  | none =>
    let run := s.runningAt b i f
    if run.length < 4 && run.all (fun w => !w.clashes mask store) && !(s.cap b i).contUses mask f then
      s.startWin b i f len mask store slip slip false h.peg p.owner
    else
      let pol := s.fld (capPg b i + Off.CAP_CAP_CTRL) 3 2
      if pol = 1 then s.retrigQueue b i h
      else if pol = 2 then s.retrigRestart b i f h
      else (s.bump (capPg b i + Off.CAP_TRIG_MISSED)).capFlag b i 1

/-- WINDOW: a WINDOW peg applies (R208). -/
def execWindow (t : PT) (b : Fin 8) (i : Fin 4) (s : State) : Out :=
  runAt t s fun s =>
    let lane := laneAddr b 4 i
    match s.popPeg lane fun p => p.action == 1 with
    | none => s
    | some (p, s1) =>
      if s1.laneFault lane then s1.countDiscard lane 1 else (s1.capSync b i).windowAt b i p

/-- HELD_WINDOW_START (R209, R211): a window that QUEUE, RESTART or an injection holds starts, or the injected conversion
itself. -/
def execHeldWindowStart (t : PT) (b : Fin 8) (i : Fin 4) (s : State) : Out :=
  runAt t s fun s => (s.capSync b i).heldStart b i

/-! ### The end of a window -/

/-- Does an active entry of the import map name the VID (R232)? -/
def State.vidImported (s : State) (vid : Nat) : Bool := s.bit (bp (vid / 64) 0x1B + Off.FLIUD_IMP (vid % 64)) 0

/-- What a demodulator gives for a window: I, Q, its verdict byte, whether it saturated, and whether it read a poisoned
word. -/
structure DemRes where
  d : Nat
  i : Int
  q : Int
  byte : Option Nat
  sat : Bool
  poison : Bool
  deriving DecidableEq, Repr

/-- The weight of an index (R212): a shape sample, or 0. -/
def State.weightOf (s : State) (b shape j : Nat) : Int × Int :=
  if shapeLen shape ≤ j then (0, 0)
  else
    let w := s.memRd (mb b (0x1000000 + 4 * (shapeBase shape + j))) 4
    (toSigned 16 (bits w 0 16), toSigned 16 (bits w 16 16))

/-- The result of a demodulator over a window's samples (R212–R215). With no valid weights the spec gives I and Q no
value: they are free (log entry 1). -/
def State.demodResult (s : State) (b : Nat) (w : Window) (xs : List Int) (d : Demod) : State × DemRes :=
  let m := s.tick w.first
  let shift := bits d.weight 16 6
  let disc := bits d.ctrl 1 2
  let mk (i q : Int) (sat bad poison : Bool) : DemRes :=
    let (st0, near) := discriminate disc d.bnd0 d.bnd0c d.bnd1 d.bnd1c d.conf i q
    let invalid := sat || bad || poison || w.trunc
    let st := if invalid then 3 else st0
    let low := (!invalid && near) || w.ovr || w.suspect
    let byte := st + b2n low * 4 + b2n w.late * 8
    { d := d.d, i := i, q := q, byte := if disc = 0 then none else some byte, sat := sat, poison := poison }
  match d.shape with
  | none =>
    let (u, s1) := s.fresh1
    let (v, s2) := s1.fresh1
    (s2, mk (toSigned 32 u) (toSigned 32 v) false true false)
  | some sh =>
    let used := min (shapeLen sh) ((w.len + 7) / 8)
    let bad := used != 0 && s.poisoned (mb b (0x1000000 + 4 * shapeBase sh)) (4 * used)
    if bad then
      let (u, s1) := s.fresh1
      let (v, s2) := s1.fresh1
      (s2, mk (toSigned 32 u) (toSigned 32 v) false false true)
    else
      let (ai, aq) := accumulate d.freq d.phase (s.weightOf b sh) xs m 0 (0, 0)
      let (i, si) := scaleAcc ai shift
      let (q, sq) := scaleAcc aq shift
      (s, mk i q (si || sq) false false)

/-- The results of all of a window's demodulators, in order. -/
def State.demodAll (s : State) (b : Nat) (w : Window) (xs : List Int) : List Demod → State × List DemRes
  | [] => (s, [])
  | d :: r =>
    let (s1, x) := s.demodResult b w xs d
    let (s2, l) := s1.demodAll b w xs r
    (s2, x :: l)

/-- A demodulator's result registers, its verdict file entry, and the verdict offered to the fabric (R215, R216, R232). -/
def State.putResult (s : State) (b i W : Nat) (r : DemRes) : State :=
  let pg := capPg b i
  let s1 := (s.wr (pg + Off.CAP_DEM_RES_I r.d) (ofSigned 32 r.i)).wr (pg + Off.CAP_DEM_RES_Q r.d) (ofSigned 32 r.q)
  let s2 := s1.wr80 (pg + Off.CAP_DEM_END_LO r.d) W
  let s3 := if r.sat then s2.capFlag b i 3 else s2
  let vid := b * 64 + 16 * i + r.d
  match r.byte with
  | none => s3
  | some v =>
    if s.vidImported vid then s3
    else
      let a := pg + Off.CAP_DEM_VERDICT r.d
      let s4 := s3.wr a (v + (s3.fld a 8 24 + 1) % 2 ^ 24 * 2 ^ 8)
      { s4 with
        verdicts := s4.verdicts ++ [{ vid := vid, byte := v, endTick := s.tick W, serial := s4.serial }],
        serial := s4.serial + 1 }

/-- The length of a shadow block in kerfs (R203). -/
def State.shadowK (s : State) : Nat := 8192 * s.clk.n

/-- The place of a record of an input whose last sample is at `e`: its ring, or the host stream (R219), where a poisoned word
that was read is flagged (R18). -/
def State.capWrite (s : State) (b i e : Nat) (host poison : Bool) (l : List Byte) : State :=
  let pg := capPg b i
  let gap (s : State) (v : Bool) : State := s.setCap b i { s.cap b i with gap := v }
  let drop (s : State) : State := ((gap s true).bump (pg + Off.CAP_DROP_COUNT)).capFlag b i 6
  if host then
    let (s1, ok) := s.hostPut b (1 + i) l poison
    if ok then gap s1 false else drop s1
  else
    let size := s.rd (pg + Off.CAP_RING_SIZE)
    let wr := s.rd (pg + Off.CAP_RING_WR)
    let used := (wr + 2 ^ 32 - s.rd (pg + Off.CAP_RING_RD)) % 2 ^ 32
    let c := s.cap b i
    let put (s : State) : State := s.setCap b i { c with recs := c.recs.filter (fun r => decide (s.now < r.1 + s.shadowK)) ++ [(e, wr)] }
    if size < used + l.length then drop s
    else
      gap (((put s).ringWrite (mb b (0x4000000 + s.fld (pg + Off.CAP_RING_BASE) 0 23)) size wr l).wr (pg + Off.CAP_RING_WR)
        ((wr + l.length) % 2 ^ 32)) false

/-- What the header of a capture record says beside its number (R218). -/
structure CapHdr where
  first : Nat
  last : Nat
  kind : Nat
  injected : Bool
  trunc : Bool
  coasted : Bool
  warming : Bool
  late : Bool
  poison : Bool
  mask : Nat
  suspect : Bool
  ovr : Bool
  owner : Option Owner
  count : Nat
  deriving DecidableEq, Repr

/-- A record of an input: numbered, and written or dropped (R218, R219). -/
def State.capRecord (s : State) (b i : Nat) (h : CapHdr) (host : Bool) (payload : List Byte) : State :=
  let pg := capPg b i
  let seq := s.rd (pg + Off.CAP_REC_SEQ)
  let ctrl := s.rd (pg + Off.CAP_CAP_CTRL)
  let fmt := if bitAt ctrl 6 then 2 else b2n (bitAt ctrl 5)
  let (oseq, oshot) := match h.owner with
    | none => (0, 0)
    | some o => (o.seq % 16, o.shot % 2 ^ 32)
  let body := payload ++ List.replicate (ceilDiv payload.length 16 * 16 - payload.length) 0
  let w1 := bits h.first 64 16 + h.kind * 2 ^ 16 + i * 2 ^ 20 + b * 2 ^ 22 + b2n h.injected * 2 ^ 25 +
    b2n h.trunc * 2 ^ 26 + b2n h.coasted * 2 ^ 27 + b2n h.warming * 2 ^ 28 + b2n h.late * 2 ^ 29 +
    b2n h.poison * 2 ^ 30 + b2n (s.cap b i).gap * 2 ^ 31 + h.mask * 2 ^ 32 + b2n h.suspect * 2 ^ 48 +
    b2n h.ovr * 2 ^ 49 + fmt * 2 ^ 50 + oseq * 2 ^ 52 + b2n h.owner.isSome * 2 ^ 56
  let hdr := [bits h.first 0 64, w1, seq + oshot * 2 ^ 32, h.count % 2 ^ 24 + body.length / 16 * 2 ^ 32]
  (s.wr (pg + Off.CAP_REC_SEQ) ((seq + 1) % 2 ^ 32)).capWrite b i h.last host h.poison
    (wordsBytes hdr ++ body)

/-- Raw samples as the format in force spells them (R217). -/
def State.rawBytes (s : State) (b i : Nat) (xs : List Int) : List Byte :=
  let ctrl := s.rd (capPg b i + Off.CAP_CAP_CTRL)
  let corr := s.rd (capPg b i + Off.CAP_COMPAT_CORR)
  xs.flatMap fun x => leBytes (rawSample (bitAt ctrl 6) (bitAt ctrl 5) corr x) 2

/-- The 16-byte I/Q entry of a demodulator (R218). -/
def DemRes.bytes (r : DemRes) : List Byte :=
  leBytes (ofSigned 32 r.i) 4 ++ leBytes (ofSigned 32 r.q) 4 ++
    leBytes (r.byte.getD 0 + b2n r.byte.isSome * 2 ^ 8) 8

/-- `n` samples as the stream has them, clamped (R202). -/
def streamSamples (xs : List Int) (n : Nat) : List Int :=
  let l := (xs.take n).map (clampI (-2047) 2047)
  l ++ List.replicate (n - l.length) 0

/-- The window whose last sample is earliest and past. -/
def State.endedWin (s : State) (b i : Nat) : Option Window :=
  ((s.cap b i).wins.filter fun w => decide (s.winEnd w ≤ s.now)).foldl (fun m w =>
    match m with
    | none => some w
    | some v => if s.winEnd w < s.winEnd v ∨ (s.winEnd w = s.winEnd v ∧ w.peg < v.peg) then some w else some v) none

/-- Ring geometry that a commit changed takes effect once no window and no block is open (R224). -/
def State.capGeometry (s : State) (b i : Nat) : State :=
  let c := s.cap b i
  match c.ringHeld with
  | none => s
  | some (base, size) =>
    if c.wins.isEmpty && c.cont.isNone then
      ((s.wr (capPg b i + Off.CAP_RING_BASE) base).wr (capPg b i + Off.CAP_RING_SIZE) size).setCap b i
        { c with ringHeld := none }
    else s

/-- WINDOW_END: a window's last sample is integrated, with the samples the slices gave it (R212–R219). -/
def execWindowEnd (t : PT) (b : Fin 8) (i : Fin 4) (samples : List Int) (s : State) : Out :=
  runMem t s fun s0 =>
    let s := s0.capSync b i
    match s.endedWin b i with
    | none => s
    | some w =>
      let pg := capPg b i
      let e := s.winEnd w
      let xs := streamSamples samples w.len
      let c := s.cap b i
      let held := c.held.map fun h =>
        if w.clashes h.mask h.store || 4 ≤ (s.runningAt b i h.from_).length then
          { h with from_ := max h.from_ (e + s.clk.n) } else h
      let rot := if w.injected then c.rot.map fun r => { r with ready := max r.ready (e + 1) } else c.rot
      let s1 := s.setCap b i { c with wins := c.wins.erase w, held := held, rot := rot }
      let (s2, rs) := s1.demodAll b w xs w.demods
      let s3 := (rs.foldl (fun s r => s.putResult b i e r) s2).bump (pg + Off.CAP_WIN_COUNT)
      let hdr : CapHdr :=
        { first := w.first, last := e, kind := if w.store = 1 then 1 else 2, injected := w.injected, trunc := w.trunc,
          coasted := w.coasted || s.coasted b w.first e, warming := w.warming || s.warming, late := w.late,
          poison := rs.any fun r => r.poison, mask := rs.foldl (fun m r => m + 2 ^ r.d) 0, suspect := w.suspect,
          ovr := w.ovr, owner := w.owner, count := w.len }
      let iq := rs.flatMap DemRes.bytes
      let s4 := if w.store = 0 then s3
        else s3.capRecord b i hdr (w.store == 3) (if w.store = 1 then iq else iq ++ s3.rawBytes b i xs)
      let s5 := if w.injected then (s4.bump (pg + Off.CAP_INJ_COUNT)).capFlag b i 7 else s4
      s5.capGeometry b i

/-- OVERRANGE_SAMPLE: a stream sample is clamped (R202), and the windows and the block that take it are marked. -/
def execOverrangeSample (t : PT) (b : Fin 8) (i : Fin 4) (s : State) : Out :=
  runAt t s fun s0 =>
    if s0.has b && s0.fld (grpStat b (7 + i.val)) 0 2 == 0 && !s0.relockHeld then
      let s := s0.capSync b i
      let c := s.cap b i
      let wins := c.wins.map fun w =>
        if w.first ≤ s.now ∧ s.now < s.winEnd w + s.clk.n then { w with ovr := true } else w
      let cont := c.cont.map fun k => if k.next ≤ s.now then { k with ovr := true } else k
      ((s.setCap b i { c with wins := wins, cont := cont }).bump (capPg b i + Off.CAP_OVR_COUNT)).capFlag b i 3
    else s0

/-! ### Continuous capture (R219) -/

/-- Continuous capture starts from the first granule boundary at or after `p`; what its shot's void cuts, it cuts too (R46). -/
def State.contStart (s : State) (b i p : Nat) (o : Option Owner) : State :=
  let c := s.cap b i
  let cfg := s.rd (capPg b i + Off.CAP_CONT_CFG)
  let k : Cont :=
    { next := s.granCeil p, src := bits cfg 0 1, demod := bits cfg 1 4, dest := bits cfg 5 1, dec := bits cfg 16 16,
      stop := none, cut := false, ovr := false, suspect := s.suspect b i, coasted := false, warming := s.warming, owner := o }
  if c.cont.isNone then
    let s1 := s.setCap b i { c with cont := some k }
    match s.voidOf o with
    | none => s1
    | some x => s1.contCutAt b i (x - 1)
  else s

/-- Continuous capture stops at the first granule boundary at or after `p`. -/
def State.contStop (s : State) (b i p : Nat) : State :=
  let c := s.cap b i
  let e := s.granCeil p
  s.setCap b i { c with cont := c.cont.map fun k => { k with stop := some (min e (k.stop.getD e)) } }

/-- A capture peg other than a WINDOW, at its PT. -/
def State.contPeg (s : State) (b i a : Nat) (f : State → Peg → State) : State :=
  let lane := laneAddr b 4 i
  match s.popPeg lane fun p => p.action == a with
  | none => s
  | some (p, s1) => if s1.laneFault lane then s1.countDiscard lane 1 else (f (s1.capSync b i) p).noteEff p.owner p.pt

/-- CONT_START (R219). -/
def execContStart (t : PT) (b : Fin 8) (i : Fin 4) (s : State) : Out :=
  runAt t s fun s => s.contPeg b i 2 fun s p => s.contStart b i p.pt p.owner

/-- CONT_STOP (R219). -/
def execContStop (t : PT) (b : Fin 8) (i : Fin 4) (s : State) : Out :=
  runAt t s fun s => s.contPeg b i 3 fun s p => s.contStop b i p.pt

/-- CAP_CMD.CONT_START (R219). -/
def execCapContStart (t : PT) (b : Fin 8) (i : Fin 4) (s : State) : Out :=
  runAt t s fun s => s.onlyIf (s.has b) fun s => s.startCmd (capPg b i) fun s =>
    if s.capOn b i && !s.capFault b i then s.contStart b i (s.now + 160 * s.clk.n) none else s

/-- CAP_CMD.CONT_STOP (R219). -/
def execCapContStop (t : PT) (b : Fin 8) (i : Fin 4) (s : State) : Out :=
  runAt t s fun s => s.onlyIf (s.has b) fun s => s.command (capPg b i) fun s =>
    s.contStop b i (s.now + 160 * s.clk.n)

/-- The samples of one block. -/
def Cont.blockLen (k : Cont) : Nat := if k.src = 0 then 160 else 32 * k.dec

/-- The I/Q outputs of a block: each the sum of `dec` samples with unit weights, from sample number `m` on; a last one
may hold fewer. -/
def iqOutputs (freq phase shift dec : Nat) : Nat → List Int → Nat → List (Int × Int)
  | 0, _, _ => []
  | f + 1, xs, m =>
    if xs.isEmpty then []
    else
      let (ai, aq) := accumulate freq phase (fun _ => (1, 0)) (xs.take dec) m 0 (0, 0)
      ((scaleAcc ai shift).1, (scaleAcc aq shift).1) :: iqOutputs freq phase shift dec f (xs.drop dec) (m + dec)

/-- CONT_BLOCK: a block of continuous capture ends, with its samples (R219, R220). -/
def execContBlock (t : PT) (b : Fin 8) (i : Fin 4) (samples : List Int) (s : State) : Out :=
  runMem t s fun s0 =>
    let s := s0.capSync b i
    let c := s.cap b i
    match c.cont with
    | none => s
    | some k =>
      let pg := capPg b i
      let full := k.next + k.blockLen * s.clk.n
      let e := min full (k.stop.getD full)
      if s.now < e then s
      else
        let n := (e - k.next) / s.clk.n
        let xs := streamSamples samples n
        let ends := match k.stop with
          | none => false
          | some x => decide (x ≤ e)
        let k' : Cont := { k with
          next := e, ovr := false, suspect := s.suspect b i, coasted := false, warming := s.warming }
        let held := if ends then c.held.map fun h =>
            if k.src == 1 && bitAt h.mask k.demod then { h with from_ := max h.from_ e } else h
          else c.held
        let s1 := s.setCap b i { c with cont := if ends then none else some k', held := held }
        let r (o : Nat) : Nat := s.rd (pg + o)
        let out := if k.src = 0 then []
          else iqOutputs (r (Off.CAP_DEM_FREQ_LO k.demod) + bits (r (Off.CAP_DEM_FREQ_HI k.demod)) 0 16 * 2 ^ 32)
            (bits (r (Off.CAP_DEM_PHASE k.demod)) 0 16) (bits (r (Off.CAP_DEM_WEIGHT k.demod)) 16 6) (max 1 k.dec) 32 xs
            (s.tick k.next)
        let body := if k.src = 0 then s.rawBytes b i xs
          else out.flatMap fun y => leBytes (ofSigned 32 y.1) 4 ++ leBytes (ofSigned 32 y.2) 4
        let hdr : CapHdr :=
          { first := k.next, last := e - s.clk.n, kind := if k.src = 0 then 3 else 4, injected := false, trunc := k.cut && decide (e < full),
            coasted := k.coasted || s.coasted b k.next (e - s.clk.n), warming := k.warming || s.warming, late := false, poison := false,
            mask := if k.src = 0 then 0 else 2 ^ k.demod, suspect := k.suspect, ovr := k.ovr, owner := none,
            count := if k.src = 0 then n else out.length }
        (if n = 0 then s1 else s1.capRecord b i hdr (k.dest == 1) body).capGeometry b i

/-! ### Injection, pulse-width events, verdicts -/

/-- An injected conversion is requested at the present instant (R211). -/
def State.inject (s0 : State) (b i : Nat) : State :=
  let s := s0.capSync b i
  let pg := capPg b i
  let c := s.cap b i
  if !s.capOn b i || s.fenced pg || s.capFault b i then s.bump (pg + Off.CAP_DISCARD_COUNT)
  else if c.inj.isSome || c.wins.any (fun w => w.injected) then (s.bump (pg + Off.CAP_TRIG_MISSED)).capFlag b i 1
  else
    s.setCap b i { c with inj := some (s.granCeil (s.now + 160 * s.clk.n + s.fld (pg + Off.CAP_INJ_DELAY) 0 24)) }

/-- CAP_CMD.INJECT (R211). -/
def execInject (t : PT) (b : Fin 8) (i : Fin 4) (s : State) : Out :=
  runAt t s fun s => s.onlyIf (s.has b) fun s => s.command (capPg b i) fun s => s.inject b i

/-- PULSE_WIDTH_EVENT: the watched stamp input has stamped the leading and trailing edges of a pulse, low-going where
`lead` falls (R210); its window goes to the input's own lane. Both edges must be among those that the input stamps (R237). -/
def execPulseWidthEvent (t : PT) (b : Fin 8) (i : Fin 4) (lead : PinEdge) (trail : PT) (s : State) : Out :=
  runAt t s fun s =>
    let pg := capPg b i
    let ctl := s.rd (pg + Off.CAP_PWE_CTRL)
    let w := trail.toNat - lead.stamp.toNat
    if bitAt ctl 0 && s.capOn b i && !s.fenced pg && (s.cap b i).drainAt.isNone && !s.draining pg then
      let k := bits ctl 1 3
      if !(s.enabled (stampPg b) && !s.fenced (stampPg b) && s.bit (stampPg b + Off.STAMP_IN_CFG k) 0) then
        s.latchHealth pg 0x86
      else if lead.falling != bitAt ctl 4 || !s.srcUsable b (0, k, 0) || !s.srcUsable b (0, k, 1) then s
      else if s.rd (pg + Off.CAP_PWE_MIN) * 16 ≤ w ∧ w ≤ s.rd (pg + Off.CAP_PWE_MAX) * 16 then
        let (mask, store, len) := s.template b i
        s.offer (laneAddr b 4 i)
          { pt := ptAdd trail.toNat (s.rd (pg + Off.CAP_PWE_DELAY)),
            payload := 1 + store * 2 ^ 4 + len * 2 ^ 8 + mask * 2 ^ 32, owner := none, trig := true }
      else s
    else s

/-- Where a verdict goes: a sequencer (0–127) or an input (128 on), as the fabric's order of delivery keeps them. -/
abbrev seenKey (dest vid : Nat) : Nat := dest * 512 + vid

/-- The oldest verdict of a VID that has not reached a destination yet (R230: in order of W). -/
def State.nextVerdict (s : State) (dest vid : Nat) : Option VRec :=
  s.verdicts.find? fun v => v.vid == vid && decide (mapGet (fun _ => 0) s.vseen (seenKey dest vid) ≤ v.serial)

/-- A verdict has reached, or been lost on its way to, a destination. -/
def State.seen (s : State) (dest : Nat) (v : VRec) : State :=
  { s with vseen := mapSet (fun _ => 0) s.vseen (seenKey dest v.vid) (v.serial + 1) }

/-- Verdict injection at an input (R211); a drain disarms it (R221). -/
def State.verdictInject (s : State) (b i : Nat) (v : VRec) : State :=
  let ctl := s.rd (capPg b i + Off.CAP_INJ_CTRL)
  if bitAt ctl 0 && bits ctl 1 9 == v.vid && bitAt ctl (10 + v.byte % 4) && (s.cap b i).drainAt.isNone &&
      !s.draining (capPg b i)
  then s.inject b i else s

/-- VERDICT_DELIVERY: the next verdict of a VID reaches sequencer `idx`, or input `idx` mod 4, of a bent (R230), unless it
is lost on its way (R235) or its crossing of the package fabric fails parity (R344). -/
def execVerdictDelivery (t : PT) (b : Fin 8) (toInput : Bool) (idx : Fin 16) (vid : Fin 512) (lost parity : Bool)
    (s : State) : Out :=
  runAt t s fun s =>
    let i := idx.val % 4
    let dest := if toInput then 128 + b.val * 4 + i else b.val * 16 + idx.val
    match s.nextVerdict dest vid with
    | none => s
    | some v =>
      let src := vid.val / 64
      let crosses := src != b.val
      let s1 := s.seen dest v
      if !s.has b then s
      else if lost || s.bit (bp b 0x18 + Off.CONTINUITY_CONT_STAT) 0 ||
          (crosses && s.bit (bp src 0x18 + Off.CONTINUITY_CONT_STAT) 0) then s1
      else if crosses && parity then (s1.bump (pkgp 5 + Off.HIER_FABRIC_PARITY_COUNT)).raise (pkgp 5) 5
      else if toInput then s1.verdictInject b i v
      else s1.deliver (b.val * 16 + idx.val) v

/-! ### Stops, drains, faults -/

/-- CAP_CMD.STOP (R220). -/
def execCapStop (t : PT) (b : Fin 8) (i : Fin 4) (s : State) : Out :=
  runAt t s fun s => s.onlyIf (s.has b) fun s => s.command (capPg b i) fun s => (s.capSync b i).capDisable b i

/-- An input drains (R221): continuous capture stops at the next granule boundary, and event injection is disarmed. -/
def State.capDrain (s : State) (b i : Nat) : State :=
  let s1 := (s.contStop b i s.now).setDrain (drainLane (laneAddr b 4 i)) (some s.now)
  s1.setCap b i { s1.cap b i with drainAt := some s.now }

/-- CAP_CMD.DRAIN (R221). -/
def execCapDrain (t : PT) (b : Fin 8) (i : Fin 4) (s : State) : Out :=
  runAt t s fun s => s.onlyIf (s.has b) fun s => s.command (capPg b i) fun s => s.capDrain b i

/-- IN_FAULT: the front end fails its monitor (R222). -/
def execInFault (t : PT) (b : Fin 8) (i : Fin 4) (s : State) : Out :=
  runAt t s fun s => s.onlyIf (s.has b) fun s =>
    if s.capFault b i then s
    else
      (((s.capSync b i).capDisable b i).setBit (capPg b i + Off.CAP_CAP_STAT) 11 true).standing (capPg b i) 0x84 true

/-! ### Slices (R202–R206) -/

/-- The role of a slice. -/
def State.sliceRole (s : State) (b i k : Nat) : Nat := s.fld (capPg b i + Off.CAP_SLICE_STAT) (2 * k) 2

/-- A slice has failed. -/
def State.sliceFailed (s : State) (b i k : Nat) : Bool := s.bit (capPg b i + Off.CAP_SLICE_STAT) (6 + k)

/-- Any slice has failed: the input has no spare (R204). -/
def State.noSpare (s : State) (b i : Nat) : Bool := s.fld (capPg b i + Off.CAP_SLICE_STAT) 6 3 != 0

/-- The slice that holds a role. -/
def State.sliceOf (s : State) (b i role : Nat) : Option Nat :=
  (List.range 3).find? fun k => s.sliceRole b i k == role

/-- Put a slice into a role. -/
def State.setRole (s : State) (b i k role : Nat) : State := s.setFld (capPg b i + Off.CAP_SLICE_STAT) (2 * k) 2 role

/-- The cost of a slice rotation in µJ (R322). -/
abbrev rotationCost : Nat := 6000

/-- Is a slice calibrated and healthy: measured at power-up, and no item of it faulty (R205, R262, R265)? -/
def State.sliceFit (s : State) (b i k : Nat) : Bool :=
  s.pwrup b && ([7, 8, 9, 0xB].all fun it => !(s.calInst b it (3 * i + k)).faulty)

/-- May a rotation start (R205)? The foreman runs, rotations are enabled, no vote is pending, the spare is in place,
calibrated and healthy, and the ledger has the margin. -/
def State.rotOk (s : State) (b i : Nat) : Bool :=
  let st := capPg b i + Off.CAP_SLICE_STAT
  s.fld (grpStat b (7 + i)) 0 2 == 0 && s.bit (capPg b i + Off.CAP_ROT_CTRL) 16 && !s.bit st 10 && (s.cap b i).rot.isNone && !s.noSpare b i &&
    s.foremanRuns b && (match s.sliceOf b i 2 with
      | none => false
      | some k => s.sliceFit b i k) && decide ((rotationCost : Int) ≤ s.margin)

/-- Step 1 of a rotation: the spare shadows the slice that will leave. -/
def State.rotStart (s : State) (b i : Nat) : State :=
  let c := s.cap b i
  let role := 1 - c.lastRole
  let st := capPg b i + Off.CAP_SLICE_STAT
  let s1 := s.setCap b i { c with
    rot := some { role := role, blocks := 0, swapped := false, spared := false, ready := 0 }, rotReq := false }
  (((s1.setBit st 9 true).setFld st 11 1 role)).setCommitted (s1.committed + rotationCost)

/-- CAP_CMD.ROTATE (R205): a rotation starts, or waits until it may. -/
def execRotate (t : PT) (b : Fin 8) (i : Fin 4) (s : State) : Out :=
  runAt t s fun s => s.onlyIf (s.has b) fun s => s.command (capPg b i) fun s =>
    if s.rotOk b i then s.rotStart b i else s.setCap b i { s.cap b i with rotReq := true }

/-- ROTATION: the foreman starts a rotation that is asked for or due by ROT_PERIOD (R205). -/
def execRotation (t : PT) (b : Fin 8) (i : Fin 4) (s : State) : Out :=
  runAt t s fun s => s.onlyIf (s.has b) fun s =>
    let c := s.cap b i
    let due := decide (c.lastRot + s.fld (capPg b i + Off.CAP_ROT_CTRL) 0 16 * 1000 * usK ≤ s.now)
    if s.rotOk b i && (c.rotReq || (due && s.bgRuns b)) then s.rotStart b i else s

/-- SLICE_SWAP: the spare takes the role of the slice that leaves, from the first granule boundary after two blocks, or after
the last sample of an injected conversion that was about at that boundary (R205 step 3, R206, R204). -/
def execSliceSwap (t : PT) (b : Fin 8) (i : Fin 4) (s : State) : Out :=
  runAt t s fun s0 =>
    let s := s0.capSync b i
    let c := s.cap b i
    match c.rot, s.sliceOf b i 2 with
    | some r, some k =>
      let clear := c.inj.isNone && c.wins.all fun w => !w.injected
      if 2 ≤ r.blocks ∧ !r.swapped ∧ clear ∧ s.granCeil r.ready ≤ s.now then
        match s.sliceOf b i r.role with
        | none => s
        | some x =>
          let s1 := ((s.setRole b i x 3).setRole b i k r.role).bump (capPg b i + Off.CAP_ROT_COUNT)
          let s1 := s1.calRaise b 4 0x0A (3 * i.val + k)
          if r.spared then
            ((s1.setCap b i { c with rot := none }).setBit (capPg b i + Off.CAP_SLICE_STAT) 9 false).capFlag b i 5
          else s1.setCap b i { c with rot := some { r with swapped := true }, lastRole := r.role }
      else s
    | _, _ => s

/-- SLICE_CAL_DONE: the slice in CAL is calibrated and becomes the spare (R205 steps 4 and 5). -/
def execSliceCalDone (t : PT) (b : Fin 8) (i : Fin 4) (s : State) : Out :=
  runAt t s fun s =>
    let c := s.cap b i
    match c.rot, s.sliceOf b i 3 with
    | some r, some k =>
      if r.swapped && !s.sliceFailed b i k then
        let s1 := (s.setRole b i k 2).setBit (capPg b i + Off.CAP_SLICE_STAT) 9 false
        (s1.setCap b i { c with rot := none, lastRot := s.now }).setCommitted (s1.committed - rotationCost)
      else s
    | _, _ => s

/-- The vote ends (R204): `even` and `odd` say whether the spare agreed with each. -/
def State.voteEnd (s : State) (b i : Nat) (even odd : Bool) : State :=
  let st := capPg b i + Off.CAP_SLICE_STAT
  let s1 := (s.setBit st 10 false).setBit st 12 false
  let s2 := s1.setCap b i { s1.cap b i with vote := none }
  let fail (s : State) (role : Nat) : State :=
    match s.sliceOf b i role with
    | none => s
    | some k => (s.setBit st (6 + k) true).standing (capPg b i) 0x82 true
  if even && odd then s2
  else if !even && !odd then fail s2 2
  else
    let role := if even then 1 else 0
    let s3 := fail s2 role
    if s.bit (capPg b i + Off.CAP_ROT_CTRL) 17 then
      (s3.setCap b i { s3.cap b i with
        rot := some { role := role, blocks := 2, swapped := false, spared := true, ready := s3.now } }).setBit st 9 true
    else s3

/-- What a block that fails has already given out (R203): records of windows and blocks that ended within it take SUSPECT where
they stand in the ring, and verdicts of such windows that have not been delivered, with the file entry of each, take low
confidence (log entry 190). -/
def State.doubt (s : State) (b i : Nat) : State :=
  let pg := capPg b i
  let from_ := s.now - s.shadowK
  let size := max 1 (s.rd (pg + Off.CAP_RING_SIZE))
  let s1 := (s.cap b i).recs.foldl (fun s r =>
    if from_ ≤ r.1 then
      let a := mb b (0x4000000 + s.fld (pg + Off.CAP_RING_BASE) 0 23) + (r.2 + 14) % size
      s.setByte a (s.memByte a ||| 1)
    else s) s
  let mine (v : VRec) : Bool := v.vid / 16 == b * 4 + i && decide (s.tick from_ ≤ v.endTick)
  let s2 := { s1 with verdicts := s1.verdicts.map fun v => if mine v then { v with byte := v.byte ||| 4 } else v }
  (List.range 16).foldl (fun s d =>
    let a := pg + Off.CAP_DEM_VERDICT d
    if from_ ≤ s.rd80 (pg + Off.CAP_DEM_END_LO d) && s.fld a 8 24 != 0 then s.setBit a 2 true else s) s2

/-- SHADOW_BLOCK: a block of 4 096 shadowed samples ends, with those of the SPARE slice and of the slice it shadows (R203,
R204). -/
def execShadowBlock (t : PT) (b : Fin 8) (i : Fin 4) (spare other : List Int) (s : State) : Out :=
  runMem t s fun s => s.onlyIf (s.has b) fun s =>
    let pg := capPg b i
    let st := pg + Off.CAP_SLICE_STAT
    let c := s.cap b i
    if (s.sliceOf b i 2).isNone || s.noSpare b i || s.fld (grpStat b (7 + i.val)) 0 2 != 0 || s.relockHeld then s
    else
      let role := s.fld st 11 1
      let tol := s.fld (pg + Off.CAP_PLAUS_TOL) 0 8
      let ds := List.zipWith (fun x y => x - y) spare other
      let sum := (ds.take 4096).foldl (fun (a : Int) d => a + d) 0
      let sq := (ds.take 4096).foldl (fun (a : Nat) d => a + d.natAbs * d.natAbs) 0
      let bad := decide (4096 * tol < sum.natAbs) || decide (4096 * tol * tol < sq)
      let mean := roundDiv sum 256
      let rms := (isqrt (4 * sq / 16) + 1) / 2
      let s1 := s.wr (pg + Off.CAP_MISMATCH) (ofSigned 16 (clampI (-32768) 32767 mean) + min rms 0xFFFF * 2 ^ 16)
      let s2 := if bad then (s1.bump (pg + Off.CAP_MISMATCH_COUNT)).capFlag b i 4 else s1
      let flip (s : State) : State := s.setFld st 11 1 (1 - role)
      match c.vote with
      | some (e, o) =>
        let e' := if role = 0 then some (!bad) else e
        let o' := if role = 1 then some (!bad) else o
        let s3 := flip (s2.setCap b i { s2.cap b i with vote := some (e', o') })
        (match e', o' with
         | some x, some y => s3.voteEnd b i x y
         | _, _ => s3)
      | none =>
        if bad then
          let c2 := s2.cap b i
          let rotating := match c2.rot with
            | some r => !r.swapped
            | none => false
          let c3 : CapSt := { c2 with
            vote := some (none, none), wins := c2.wins.map fun w => { w with suspect := true },
            cont := c2.cont.map fun k => { k with suspect := true },
            rot := if rotating then none else c2.rot, rotReq := c2.rotReq || rotating }
          let s3 := (((s2.doubt b i).setCap b i c3).setBit st 10 true).setBit st 12 true
          let s4 := if rotating then (s3.setBit st 9 false).setCommitted (s3.committed - rotationCost) else s3
          flip s4
        else
          match c.rot with
          | some r =>
            if r.swapped then flip s2
            else s2.setCap b i { s2.cap b i with rot := some { r with blocks := r.blocks + 1, ready := s.now } }
          | none => flip s2

end Sys2Proof.Machine
end

