-- ==== Sys2Proof/Machine/Tones.lean ====
section
/-!
DEFINITION. Machine/Tones.lean: tone and flux lanes: the meaning of each peg at its PT (R176–R189), the stop and drain
commands (R190, R191), and an output stage that fails (R193).
-/

namespace Sys2Proof.Machine

/-- The lane of a tone or flux command, if it is one. -/
def State.toneLane? (s : State) (b : Fin 8) (kind : Fin 4) (idx : Fin 64) : Option Nat :=
  let lane := laneAddr b kind idx
  if kind.val ≠ 0 ∧ s.laneValid lane then some lane else none

/-- The stream that holds a lane at `p`; one whose chain is over by then lets go of it first (R159). -/
def State.heldAt (s : State) (lane p : Nat) : State × Option Nat :=
  match s.holder lane with
  | none => (s, none)
  | some n =>
    let x := s.stream (laneBent lane) n
    if x.succ == some none && x.endPt ≤ p then (s.chainEnd (laneBent lane) n, none) else (s, some n)

/-- A request on a lane that a stream holds is refused (R159). -/
def State.conflict (s : State) (lane n : Nat) (o : Option Owner) : State :=
  ((s.bump (segPg (laneBent lane) + Off.SEGMENT_STR_CONFLICT_COUNT n)).toneFlag lane 4).flagShot o 1

/-- A PLAY that is not refused or blocked starts its pulse (R183). One with a poisoned word tapers to zero at the start of that
word's granule (R18, R189), and one of a shot voided ahead of it from the void PT on (R46). -/
def State.playPulse (s : State) (lane : Nat) (p : Peg) : State :=
  let d := bits p.payload 64 64
  let s0 := s.dacSync lane p.pt
  let q : Pulse :=
    { start := p.pt, stop := p.pt + shapeLen d * s.shapePeriod lane, taper := none, payload := p.payload, owner := p.owner,
      stream := none }
  let s1 := s0.setTone lane { s0.tone lane with pulse := some q }
  let s2 := if p.poisoned lane then s1.toneTaperAt lane p.pt (s.wordGran lane p.pt (playPoison p.payload - 1) - taperK) else s1
  let s3 := match s2.voidOf p.owner with
    | none => s2
    | some x => s2.toneTaperAt lane p.pt x
  s3.noteEff p.owner (match (s3.tone lane).pulse with
    | none => q.stop
    | some r => r.end_)

/-- A PLAY starts, with its data words from the `i`-th on read now (R17, R18, R182). -/
def State.playLate (s : State) (lane : Nat) (p : Peg) (i : Nat) (ecc : Ecc) (word : Nat) : State :=
  let s1 := if shapeWords (isFlux lane) (bits p.payload 64 64) ≤ i then s
    else s.eccRead (mb (laneBent lane) (0x1000000 + 8 * word)) ecc
  let q := s1.playAgain lane i p
  (if playPoison q.payload = playPoison p.payload then s1 else s1.voidPlay lane q).playPulse lane q

/-- PLAY_PEG: a PLAY applies at its PT (R183–R188). Data words from the `from_`-th on that R182 still lets its lane read are read
only now, and the check of word `word` of shape memory finds `ecc`; a poisoned one voids the shot from its granule (R18). -/
def execPlayPeg (t : PT) (b : Fin 8) (kind : Fin 4) (idx : Fin 64) (from_ : Nat) (ecc : Ecc) (word : Fin 0x100000)
    (s : State) : Out :=
  runMem t s fun s =>
    match s.toneLane? b kind idx with
    | none => s
    | some lane =>
      match s.popPeg lane fun p => p.action == 1 with
      | none => s
      | some (p, s1) =>
        if s1.laneFault lane then s1.countDiscard lane 1
        else
          match s1.heldAt lane p.pt with
          | (s2, some n) => s2.conflict lane n p.owner
          | (s2, none) =>
            match ((s2.tone lane).upto p.pt).pulse with
            | some q => s2.late lane p 1 (some q.end_)
            | none => s2.playLate lane p (s2.unread lane p.pt from_) ecc word

/-- A frame peg at its PT: never blocked (R180, R185, R195). -/
def State.framePeg (s : State) (b : Fin 8) (kind : Fin 4) (idx : Fin 64) (a : Nat) (f : Nat → Nat → Nat) : State :=
  match s.toneLane? b kind idx with
  | none => s
  | some lane =>
    match s.popPeg lane fun p => p.action == a with
    | none => s
    | some (p, s1) =>
      if s1.laneFault lane then s1.countDiscard lane 1
      else
        let s1 := s1.dacSync lane p.pt
        let x := s1.tone lane
        (s1.setTone lane { x with theta := f x.theta (bits p.payload 32 16) % 65536 }).noteEff p.owner p.pt

/-- FRAME_ADD (R180). -/
def execFrameAdd (t : PT) (b : Fin 8) (kind : Fin 4) (idx : Fin 64) (s : State) : Out :=
  runAt t s fun s => s.framePeg b kind idx 2 fun th v => th + v

/-- FRAME_SET (R180). -/
def execFrameSet (t : PT) (b : Fin 8) (kind : Fin 4) (idx : Fin 64) (s : State) : Out :=
  runAt t s fun s => s.framePeg b kind idx 3 fun _ v => v

/-- STOP_PEG: the running pulse tapers from the peg's PT, or the peg is refused on a lane that a stream holds (R176, R189,
R159). -/
def execStopPeg (t : PT) (b : Fin 8) (kind : Fin 4) (idx : Fin 64) (s : State) : Out :=
  runAt t s fun s =>
    match s.toneLane? b kind idx with
    | none => s
    | some lane =>
      match s.popPeg lane fun p => p.action == 4 with
      | none => s
      | some (p, s1) =>
        if s1.laneFault lane then s1.countDiscard lane 1
        else
          match s1.heldAt lane p.pt with
          | (s2, some n) => s2.conflict lane n p.owner
          | (s2, none) =>
            let s3 := (s2.toneTaperAt lane p.pt p.pt).noteEff p.owner p.pt
            match (s3.tone lane).pulse with
            | none => s3
            | some q => s3.noteEff p.owner q.end_

/-- TONEt_CMD.STOP (R190). -/
def execToneStop (t : PT) (b : Fin 8) (kind : Fin 4) (idx : Fin 64) (s : State) : Out :=
  runAt t s fun s =>
    match s.toneLane? b kind idx with
    | none => s
    | some lane => if isFlux lane then s else s.command (tonePg lane) fun s => s.toneStop lane

/-- A tone or flux lane drains (R191). -/
def State.toneDrain (s : State) (lane : Nat) : State :=
  (s.setTone lane { s.tone lane with drainAt := some s.now }).setDrain (drainLane lane) (some s.now)

/-- TONEt_CMD.DRAIN (R191). -/
def execToneDrain (t : PT) (b : Fin 8) (kind : Fin 4) (idx : Fin 64) (s : State) : Out :=
  runAt t s fun s =>
    match s.toneLane? b kind idx with
    | none => s
    | some lane => if isFlux lane then s else s.command (tonePg lane) fun s => s.toneDrain lane

/-- FLXc_CMD.STOP (R190). -/
def execFlxStop (t : PT) (b : Fin 8) (idx : Fin 16) (s : State) : Out :=
  runAt t s fun s => s.onlyIf (s.has b) fun s =>
    let lane := laneAddr b 3 idx
    s.command (tonePg lane) fun s => s.toneStop lane

/-- FLXc_CMD.DRAIN (R191). -/
def execFlxDrain (t : PT) (b : Fin 8) (idx : Fin 16) (s : State) : Out :=
  runAt t s fun s => s.onlyIf (s.has b) fun s =>
    let lane := laneAddr b 3 idx
    s.command (tonePg lane) fun s => s.toneDrain lane

/-- OUT_FAULT: the output stage of a lane's DAC, or of a flux channel, fails its monitor (R193): disabled at once, with
whatever played there. -/
def execOutFault (t : PT) (b : Fin 8) (kind : Fin 4) (idx : Fin 64) (s : State) : Out :=
  runAt t s fun s =>
    match s.toneLane? b kind idx with
    | none => s
    | some lane =>
      if s.outFault lane then s
      else
        let s1 := (dacLanes lane).foldl (fun s l => s.setTone l { s.tone l with pulse := none }) (s.dacSync lane s.now)
        let s2 := { s1 with dacHold := mapSet (fun _ => none) s1.dacHold (dacKey lane) none }
        let s3 := if isFlux lane then s2.setBit (toneStat lane) 6 true
          else s2.setBit (tonePg lane + Off.TONE_DAC_STAT (toneDac lane)) 4 true
        s3.standing (tonePg lane) 0x73 true

end Sys2Proof.Machine
end

