-- ==== Sys2Proof/Machine/Stamps.lean ====
section
/-!
DEFINITION. Machine/Stamps.lean: stamp inputs and laths (R237–R240, R273), time-interval units (R243–R248), frequency
engines (R249–R251), and the signatures of records (R256, R395).
-/

namespace Sys2Proof.Machine

/-! ### Stamps offered to the instruments -/

/-- An interval unit takes a stamp of a source it names (R243, R244). -/
def State.offerTiu (s : State) (b u : Nat) (key : Nat × Nat × Nat) (x : Nat) : State :=
  let y := s.tiu b u
  let pg := stampPg b
  let k0 := srcKey (s.rd (pg + Off.STAMP_TIU_START_SRC u))
  let k1 := srcKey (s.rd (pg + Off.STAMP_TIU_STOP_SRC u))
  if y.armed && (k0 == key || k1 == key) && s.srcUsable b key then
    let y1 := { y with
      starts := if k0 == key then y.starts ++ [x] else y.starts,
      stops := if k1 == key then y.stops ++ [x] else y.stops }
    let s1 := s.setTiu b u y1
    s1.setBit (pg + Off.STAMP_TIU_STAT u) 1 (s1.tiuPick b u).1.isSome
  else s

/-- A gate numbers and accumulates a stamp that belongs to it (R250, R251). -/
def Gate.take (g : Gate) (x : Nat) : Gate :=
  if x < g.start ∨ g.stop ≤ x then g
  else
    match g.t0 with
    | none => { g with t0 := some x, tPrev := x, m := 1 }
    | some t0 =>
      let step := roundDiv ((x : Int) - (g.tPrev : Int)) g.p0
      let n := g.nPrev + step
      let r : Int := (x : Int) - (t0 : Int) - n * (g.p0 : Int)
      let g1 := { g with
        tPrev := x, nPrev := n, gapped := g.gapped || decide (1 < step),
        range := g.range || decide (step ≤ 0) || decide (2 ^ 47 < r.natAbs) }
      if n % (2 ^ g.decim : Nat) != 0 then g1
      else if 2 ^ 32 ≤ g.m then { g1 with limit := true }
      else
        { g1 with
          nLast := n, m := g.m + 1, sn := g.sn + n, snn := g.snn + n * n, sr := g.sr + r, snr := g.snr + n * r,
          srr := g.srr + r * r }

/-- A frequency engine takes a stamp of its source (R249); a marker is no source of it. -/
def State.offerFre (s : State) (b e : Nat) (key : Nat × Nat × Nat) (x : Nat) : State :=
  let f := s.fre b e
  let k := srcKey (s.rd (freqPg b + Off.FREQ_FRE_SRC e))
  if k == key && k.1 != 2 && s.srcUsable b key then
    s.setFre b e { f with gate := f.gate.map fun (g : Gate) => g.take x, done := f.done.map fun (g : Gate) => g.take x }
  else s

/-- A stamp is offered to the interval units and the frequency engines of a bent (R237). -/
def State.offerStamp (s : State) (b : Nat) (key : Nat × Nat × Nat) (x : Nat) : State :=
  let s1 := (List.range 4).foldl (fun s u => s.offerTiu b u key x) s
  (List.range 2).foldl (fun s e => s.offerFre b e key x) s1

/-! ### Stamp inputs and laths -/

/-- A stamp input's state. -/
def State.stampIn (s : State) (b i : Nat) : StampIn := mapGet (fun _ => StampIn.init) s.stampIns (b * 8 + i)

/-- Put a stamp input's state. -/
def State.setStampIn (s : State) (b i : Nat) (x : StampIn) : State :=
  { s with stampIns := mapSet (fun _ => StampIn.init) s.stampIns (b * 8 + i) x }

/-- An edge is lost to dead time (R240). -/
def State.stampMissed (s : State) (b i : Nat) : State :=
  (s.bump (stampPg b + Off.STAMP_IN_MISS i)).raise (stampPg b) 5

/-- Put a number in its place in a rising list. -/
def insertNat (l : List Int) (x : Int) : List Int :=
  match l with
  | [] => [x]
  | a :: r => if x ≤ a then x :: a :: r else a :: insertNat r x

/-- Twice the median of a list of numbers. -/
def median2 (l : List Int) : Int :=
  let q := l.foldl insertNat []
  let n := q.length
  q.getD ((n - 1) / 2) 0 + q.getD (n / 2) 0

/-! Readings of laths are in 1/32 kerf: path delays and tap widths are in 1/16 kerf, and a reading takes the middle of its tap. -/

/-- d of a stamp input (R238, R262). -/
def State.stampDelay (s : State) (b i : Nat) : Int := s.trim b 6 i 0

/-- The width of tap `k` of lath `l` of an input (R262). -/
def State.tapWidth (s : State) (b i l k : Nat) : Int := s.trim b 5 (i * 4 + l) k

/-- τ_l(k), to the middle of tap `k` (R238). -/
def State.tau (s : State) (b i l k : Nat) : Int :=
  2 * (List.range k).foldl (fun (a : Int) j => a + s.tapWidth b i l j) 0 + s.tapWidth b i l k

/-- T for an edge at the ball at `p`: the first rising SO12 edge after it enters the laths (R238). -/
def State.lathEdge (s : State) (b i p : Nat) : Int :=
  let x := 32 * ((p : Int) - (s.clk.o : Int)) + 2 * s.stampDelay b i
  let per : Int := (8 * s.soPeriod b 12 p : Nat)
  32 * (s.clk.o : Int) + (x / per + 1) * per

/-- s_l of the laths for an edge at the ball at `p`, their thermometer codes being `ks` (R238). -/
def State.readings (s : State) (b i p : Nat) (ks : List Nat) : List Int :=
  (List.range 4).map fun l => s.lathEdge b i p - s.tau b i l (ks.getD l 0) - 2 * s.stampDelay b i

/-- The laths of a stamp whose readings count: every one in service but those beyond LATH_TOL of the median (R239). -/
def State.lathsKept (s : State) (b i : Nat) (l : List Int) : List Nat :=
  let inSvc := (List.range 4).filter fun k => s.bit (stampPg b + Off.STAMP_IN_STAT i) (1 + k)
  if inSvc.length < 3 then inSvc
  else
    let tol : Int := (s.fld (stampPg b + Off.STAMP_LATH_CTRL) 8 8 * 16 * 32 : Nat)
    let med := median2 (inSvc.map fun k => l.getD k 0)
    inSvc.filter fun k => decide ((2 * l.getD k 0 - med).natAbs ≤ (2 * tol).toNat)

/-- A lath is retired (R239, R265). -/
def State.lathRetire (s : State) (b i k : Nat) : State :=
  let a := stampPg b + Off.STAMP_IN_STAT i
  if s.bit a (5 + k) then s
  else (((s.setBit a (5 + k) true).setBit a (1 + k) false).raise (stampPg b) 6).standing (stampPg b) 0x90 true

/-- The exclusions of a stamp count against their laths: more than 16 of any 1 024 consecutive stamps retire one
(R239). -/
def State.lathExclude (s : State) (b i : Nat) (out : List Nat) : State :=
  let x := s.stampIn b i
  let n := x.num + 1
  let ex := (x.excl ++ out.map fun k => (n, k)).filter fun e => decide (n < e.1 + 1024)
  let s1 := s.setStampIn b i { x with num := n, excl := ex }
  let s2 := if out.isEmpty then s1 else s1.bump (stampPg b + Off.STAMP_IN_EXCL i)
  out.foldl (fun s k => if 16 < (ex.filter fun e => e.2 == k).length then s.lathRetire b i k else s) s2

/-- An edge at the ball of an enabled stamp input at `t0`, whose laths hold the codes `ks` (R237–R240). -/
def State.stampEdge (s : State) (b i t0 : Nat) (falling : Bool) (ks : List Nat) : State :=
  let l := s.readings b i t0 ks
  let pg := stampPg b
  let x := s.stampIn b i
  let dead := match x.last with
    | none => false
    | some y => decide (t0 < y + 40000)
  if dead || s.fld (grpStat b 12) 0 2 != 0 then s.stampMissed b i
  else
    let kept := s.lathsKept b i l
    let out := (List.range 4).filter fun k => s.bit (pg + Off.STAMP_IN_STAT i) (1 + k) && !kept.contains k
    let mean := roundDiv (kept.foldl (fun m k => m + l.getD k 0) 0) (32 * kept.length)
    let (v, s0) := if kept.isEmpty then (s.fresh1.1 % 2 ^ 80, s.fresh1.2) else (ofSigned 80 mean, s)
    let s1 := s0.setStampIn b i { x with last := some t0 }
    let s2 := (s1.wr (pg + Off.STAMP_IN_COUNT i) ((s1.rd (pg + Off.STAMP_IN_COUNT i) + 1) % 2 ^ 32)).wr80
      (pg + Off.STAMP_IN_LAST_LO i) v
    (s2.lathExclude b i out).offerStamp b (0, i, b2n falling) v

/-- STAMP: an edge at the ball of a stamp input, whose laths' taps hold the codes `k0` to `k3` at the SO12 edge (R238), or of an edge
pin in RECEIVE mode (`pin`), whose own stamper stamps it (R110). -/
def execStamp (t : PT) (b : Fin 8) (pin : Bool) (idx : Fin 32) (edge : PinEdge) (k0 k1 k2 k3 : Fin 160)
    (s : State) : Out :=
  runAt t s fun s =>
    if pin then
      let key := b.val * 32 + idx.val
      let dead := match mapGet (fun _ => none) s.edgeStamp key with
        | none => false
        | some y => decide (t.toNat < y + 80000)
      if s.chMode b idx = 4 && s.chOn b idx && !dead then
        ({ s with edgeStamp := mapSet (fun _ => none) s.edgeStamp key (some t.toNat) }).offerStamp b
          (1, idx, b2n edge.falling) edge.stamp.toNat
      else s
    else if idx.val < 8 && s.srcUsable b (0, idx, b2n edge.falling) then
      s.stampEdge b idx t.toNat edge.falling [k0.val, k1.val, k2.val, k3.val]
    else s

/-- Background work of a cost may start (R322). -/
def State.marginFor (s : State) (cost : Nat) : Bool := decide ((cost : Int) ≤ s.margin)

/-- Background work takes its cost from the margin. -/
def State.marginTake (s : State) (cost : Nat) : State := s.setCommitted (s.committed + cost)

/-- Background work gives its cost back. -/
def State.marginGive (s : State) (cost : Nat) : State := s.setCommitted (s.committed - cost)

/-- LATH_WITHDRAWAL: the foreman takes lath `k` of an input out for calibration (R239, R270, R322). -/
def execLathWithdrawal (t : PT) (b i : Fin 8) (k : Fin 4) (s : State) : Out :=
  runAt t s fun s =>
    let a := stampPg b + Off.STAMP_IN_STAT i
    if s.bgRuns b && s.bit (stampPg b + Off.STAMP_LATH_CTRL) 0 && s.fld a 1 4 == 0xF && s.fld a 5 4 == 0 &&
        s.marginFor 500 then
      let s1 := ((s.marginTake 500).setBit a (1 + k) false).setBit a 9 true
      s1.setStampIn b i { s1.stampIn b i with withdrawn := some (k, s.now) }
    else s

/-- The tap widths in 1/16 kerf that hit counts give: P h_k / H; a tap with no hits keeps its width (R273). -/
def State.codeDensity (s : State) (b i l : Nat) (hits : List Nat) : List Int :=
  let h := hits.foldl (fun a x => a + x) 0
  (List.range 160).map fun k =>
    let n := hits.getD k 0
    if n = 0 then s.tapWidth b i l k else roundDiv ((4 * s.soPeriod b 12 s.now * n : Nat) : Int) h

/-- LATH_RETURN: a withdrawn lath comes back with its hits: at least 2^20 of them within 10 ms, `complete`, make a measurement of its taps,
which is judged (R239, R264, R265, R273). -/
def execLathReturn (t : PT) (b i : Fin 8) (hits : List Nat) (complete : Bool) (s : State) : Out :=
  runAt t s fun s =>
    let x := s.stampIn b i
    let a := stampPg b + Off.STAMP_IN_STAT i
    match x.withdrawn with
    | none => s
    | some (k, since) =>
      let done := complete && decide (2 ^ 20 ≤ hits.foldl (fun a x => a + x) 0) && decide (s.now ≤ since + 10000 * usK)
      let s1 := s.calMeasure b 5 (i.val * 4 + k) (if done then some (s.codeDensity b i k hits) else none) true true
      let s2 := ((s1.setStampIn b i { x with withdrawn := none }).marginGive 500).setBit a 9 false
      if turnedFaulty s s1 b 5 (i.val * 4 + k) then s2.lathRetire b i k
      else if s2.bit a (5 + k) then s2 else s2.setBit a (1 + k) true

/-! ### Time-interval units -/

/-- The lane of an interval unit or (from 4) of a frequency engine (R242). -/
abbrev armLane (b i : Nat) : Nat := laneAddr b 6 i

/-- TIU_ARM_PEG (R244). -/
def execTiuArmPeg (t : PT) (b : Fin 8) (u : Fin 4) (s : State) : Out :=
  runMem t s fun s =>
    match s.popPeg (armLane b u) (fun p => p.action == 1) with
    | none => s
    | some (p, s1) => (s1.tiuArm b u p.pt p.owner p.slipped).noteEff p.owner p.pt

/-- TIU_DISARM_PEG: the series ends at the peg's PT; stamps after it are not its own (R248). -/
def execTiuDisarmPeg (t : PT) (b : Fin 8) (u : Fin 4) (s : State) : Out :=
  runMem t s fun s =>
    match s.popPeg (armLane b u) (fun p => p.action == 2) with
    | none => s
    | some (p, s1) =>
      let x := s1.tiu b u
      let s2 := if x.armed then s1.setTiu b u { x with
        starts := x.starts.filter fun v => decide (v ≤ p.pt), stops := x.stops.filter fun v => decide (v ≤ p.pt) } else s1
      (s2.tiuEnd b u true false).noteEff p.owner p.pt

/-- TIU_ARM: TIUu_CMD.ARM (R244). -/
def execTiuArm (t : PT) (b : Fin 8) (u : Fin 4) (s : State) : Out :=
  runMem t s fun s => s.onlyIf (s.has b) fun s => s.startCmd (stampPg b) fun s =>
    s.onlyIf (s.enabled (stampPg b)) fun s => s.tiuArm b u s.now none false

/-- TIU_DISARM: TIUu_CMD.DISARM (R248). -/
def execTiuDisarm (t : PT) (b : Fin 8) (u : Fin 4) (s : State) : Out :=
  runMem t s fun s => s.onlyIf (s.has b) fun s => s.command (stampPg b) fun s => s.tiuEnd b u true false

/-- TIU_CLR: TIUu_CMD.CLR clears the unit's results. -/
def execTiuClr (t : PT) (b : Fin 8) (u : Fin 4) (s : State) : Out :=
  runAt t s fun s => s.onlyIf (s.has b) fun s => s.command (stampPg b) fun s =>
    s.zero ((List.range 14).map fun k => stampPg b + Off.STAMP_TIU_LAST_LO u + 4 * k)

/-- TIU_MEASUREMENT: a measurement with both its stamps completes; the series ends after REPEAT, and at the end of the
measurement in progress when the page drains (R247, R248, R257). -/
def execTiuMeasurement (t : PT) (b : Fin 8) (u : Fin 4) (s : State) : Out :=
  runMem t s fun s =>
    let s1 := s.tiuComplete b u
    if (s.tiu b u).count < (s1.tiu b u).count && (s1.tiuFull b u || (s1.tiu b u).draining) then s1.tiuEnd b u false false
    else s1

/-- TIU_TIMEOUT: a measurement is not complete TIMEOUT microseconds after its arming instant (R248). -/
def execTiuTimeout (t : PT) (b : Fin 8) (u : Fin 4) (s : State) : Out :=
  runMem t s fun s =>
    let x := s.tiu b u
    let lim := s.rd (stampPg b + Off.STAMP_TIU_TIMEOUT u) * usK
    let from_ := if x.count = 0 then x.arm else x.arm - 1
    let inTime := match s.tiuPick b u with
      | (some a, some z) => decide (max a z ≤ from_ + lim)
      | _ => false
    if x.armed && lim != 0 && decide (from_ + lim ≤ s.now) && !inTime then s.tiuEnd b u false true else s

/-! ### Frequency engines -/

/-- GATE: a GATE peg opens a gate at its PT; a running one ends there (R249). -/
def execGate (t : PT) (b : Fin 8) (e : Fin 2) (s : State) : Out :=
  runAt t s fun s =>
    match s.popPeg (armLane b (4 + e)) (fun p => p.action == 3) with
    | none => s
    | some (p, s1) =>
      ((s1.gateClose b e p.pt true).gateOpen b e p.pt p.owner p.slipped).noteEff p.owner p.pt

/-- FRE_STOP_PEG: a STOP peg ends a running gate at its PT (R249). -/
def execFreStopPeg (t : PT) (b : Fin 8) (e : Fin 2) (s : State) : Out :=
  runAt t s fun s =>
    match s.popPeg (armLane b (4 + e)) (fun p => p.action == 4) with
    | none => s
    | some (p, s1) => (s1.gateClose b e p.pt true).noteEff p.owner p.pt

/-- FRE_GATE: FREe_CMD.GATE issues a GATE peg for FREe_START_PT (R249). -/
def execFreGate (t : PT) (b : Fin 8) (e : Fin 2) (s : State) : Out :=
  runAt t s fun s => s.onlyIf (s.has b) fun s => s.startCmd (freqPg b) fun s =>
    s.offer (armLane b (4 + e))
      { pt := s.rd80 (freqPg b + Off.FREQ_FRE_START_PT_LO e), payload := 3, owner := none, trig := false }

/-- FRE_STOP: FREe_CMD.STOP ends a running gate as it arrives (R249). -/
def execFreStop (t : PT) (b : Fin 8) (e : Fin 2) (s : State) : Out :=
  runAt t s fun s => s.onlyIf (s.has b) fun s => s.command (freqPg b) fun s => s.gateClose b e s.now true

/-- FRE_CLR: FREe_CMD.CLR puts the engine's result registers at their reset values. -/
def execFreClr (t : PT) (b : Fin 8) (e : Fin 2) (s : State) : Out :=
  runAt t s fun s => s.onlyIf (s.has b) fun s => s.command (freqPg b) fun s =>
    (s.zero ((List.range 13).map fun k => freqPg b + Off.FREQ_FRE_FREQ_LO e + 4 * k)).wr (freqPg b + Off.FREQ_FRE_TB e) 0xF

/-- GATE_END: a gate reaches its end (R249). -/
def execGateEnd (t : PT) (b : Fin 8) (e : Fin 2) (s : State) : Out :=
  runAt t s fun s =>
    match (s.fre b e).gate with
    | none => s
    | some g => if g.stop ≤ s.now then s.gateClose b e g.stop g.trunc else s

/-- What a gate's regression gives (R250): FREQ, DEV and RESID, exact before rounding. -/
def gateFit (g : Gate) (nom : Nat) : Int × Int × Nat :=
  let m : Int := g.m
  let cn := m * g.snr - g.sn * g.sr
  let cd := m * g.snn - g.sn * g.sn
  let bd := (g.p0 : Int) * cd + cn
  let k : Int := (secK * 2 ^ 32 : Nat)
  let freq := roundDiv (k * cd) bd.toNat
  let dev := roundDiv (10 ^ 18 * (k * cd - (nom : Int) * bd)) ((nom : Int) * bd).toNat
  let w := (m * g.srr - g.sr * g.sr) * cd - cn * cn
  (freq, dev, (isqrt (1024 * w.toNat / (m * m * cd).toNat) + 1) / 2)

/-- GATE_DONE: the result of the first gate that has ended is ready (R250, R251). -/
def execGateDone (t : PT) (b : Fin 8) (e : Fin 2) (s : State) : Out :=
  runMem t s fun s =>
    let f := s.fre b e
    match f.done with
    | [] => s
    | g :: rest =>
      let pg := freqPg b
      let bad := g.range || decide (g.m < 3)
      let (freq, dev, resid) := gateFit g (s.rd64 (pg + Off.FREQ_FRE_NOMINAL_LO e))
      let (w0, s0) := if bad then (0, s) else s.fit (decide (0 ≤ freq) && decide (freq < 2 ^ 64)) 64 freq.toNat
      let (w1, s1) := if bad then (0, s0) else s0.fit (fits64 dev) 64 (ofSigned 64 dev)
      let (w2, s2) := if bad then (0, s1) else s1.fit (decide (resid < 2 ^ 32)) 32 resid
      let (w3, s3) := s2.fit (decide (g.m < 2 ^ 32)) 32 g.m
      let span := ofSigned 64 (g.nLast - g.nFirst)
      let s4 := (s3.setFre b e { f with done := rest }).wr64 (pg + Off.FREQ_FRE_FREQ_LO e) w0
      let s5 := ((((s4.wr64 (pg + Off.FREQ_FRE_DEV_LO e) w1).wr (pg + Off.FREQ_FRE_RESID e) w2).wr
        (pg + Off.FREQ_FRE_COUNT e) w3).wr64 (pg + Off.FREQ_FRE_SPAN_LO e) span).wr (pg + Off.FREQ_FRE_TB e) g.tb
      let s6 := (s5.bump (pg + Off.FREQ_FRE_GATE_COUNT e)).wr80 (pg + Off.FREQ_FRE_END_PT_LO e) g.stop
      let flags := b2n bad + b2n g.range * 2 + b2n g.limit * 4 + b2n g.trunc * 8 + b2n g.gapped * 16
      let s7 := s6.setFld (pg + Off.FREQ_FRE_STAT e) 1 6 (1 + flags * 2)
      let s8 := s7.raise pg e
      let s9 := if bad then (s8.raise pg 2).latchHealth pg 0xA2 else s8
      let c := pg + Off.FREQ_FRE_CTRL e
      if s9.bit c 4 then
        s9.makeRec b 6 e g.start g.tb g.owner (s9.bit c 3)
          [w0, w1, w2 + w3 * 2 ^ 32, span, g.stop - g.start,
           s9.rd (pkgp 1 + Off.TIMEBASE_AGE_CORR) + ofSigned 32 s9.discNow * 2 ^ 32,
           flags + b2n g.late * 32, 0]
      else s9

/-! ### Signatures -/

/-- The KEY_ID of a bent, as the IDENT registers give it for its certificate (R389). -/
def keyId (b : Nat) : List Byte := (Config.sha384 (Config.publicKey b)).take 8

/-- Ring geometry that a commit changed takes effect once no record is pending (R253). -/
def State.recGeometry (s : State) (b : Nat) : State :=
  match mapGet (fun _ => none) s.recHeld b with
  | none => s
  | some g =>
    if s.signQ.any fun q => q.1 == b then s
    else
      ({ s with recHeld := mapSet (fun _ => none) s.recHeld b none }.wr (stampPg b + Off.STAMP_REC_BASE) g.1).wr
        (stampPg b + Off.STAMP_REC_SIZE) g.2

/-- SIGN_DONE: the signature of a bent's oldest queued record is complete, and the record is written (R256, R395). -/
def execSignDone (t : PT) (b : Fin 8) (s : State) : Out :=
  runMem t s fun s =>
    match s.signQ.find? fun q => q.1 == b.val with
    | none => s
    | some q =>
      let l := q.2
      let n := mapGet (fun _ => 0) s.signSeq b + 1
      let sig := Config.ecdsaSign b (Config.sha384 l)
      let pad (l : List Byte) (k : Nat) : List Byte := (l ++ List.replicate k 0).take k
      let blk := pad sig 96 ++ pad (keyId b) 8 ++ leBytes n 4 ++ [BitVec.ofNat 8 b.val, 1] ++ List.replicate 18 0
      (({ s with signQ := s.signQ.erase q, signSeq := mapSet (fun _ => 0) s.signSeq b n }).writeRec b (l ++ blk)).recGeometry b

end Sys2Proof.Machine
end

