-- ==== Sys2Proof/Machine/Time.lean ====
section
/-!
DEFINITION. Machine/Time.lean: the TIME page: internal markers (R243), the alarm (R49), and PPS edges with the discipline
of the lattice (R36, R37, R63).
-/

namespace Sys2Proof.Machine

/-- The TIME page of a bent. -/
abbrev timePg (b : Nat) : Nat := bp b 3

/-- MARKER: an internal marker peg applies and is a stamp at its PT (R243). -/
def execMarker (t : PT) (b : Fin 8) (idx : Fin 64) (s : State) : Out :=
  runAt t s fun s =>
    match s.popPeg (laneAddr b 7 idx) (fun _ => true) with
    | none => s
    | some (p, s1) => (s1.offerStamp b (2, idx, 0) p.pt).noteEff p.owner p.pt

/-! ### The alarm (R49) -/

/-- The alarm is armed for ALARM_PT: its marker peg waits, or, within the marker lead, ALARM is raised at once. -/
def State.alarmArm (s : State) (b : Nat) : State :=
  let c := timePg b + Off.TIME_ALARM_CTRL
  if s.ptOf (s.tick s.now + 80) ≤ s.rd80 (timePg b + Off.TIME_ALARM_PT_LO) then s.wr c 1
  else (s.wr c 2).raiseAt (timePg b) 3 s.nowTick 0 false

/-- ALARM_ARM: 1 is written to ALARM_CTRL.ARMED. -/
def execAlarmArm (t : PT) (b : Fin 8) (s : State) : Out :=
  runAt t s fun s => s.onlyIf (s.has b) fun s => s.command (timePg b) fun s => s.alarmArm b

/-- ALARM_DISARM: 0 is written to ALARM_CTRL.ARMED. -/
def execAlarmDisarm (t : PT) (b : Fin 8) (s : State) : Out :=
  runAt t s fun s => s.onlyIf (s.has b) fun s => s.command (timePg b) fun s =>
    s.setBit (timePg b + Off.TIME_ALARM_CTRL) 0 false

/-- ALARM: the alarm's lane reaches ALARM_PT. -/
def execAlarm (t : PT) (b : Fin 8) (s : State) : Out :=
  runAt t s fun s =>
    let c := timePg b + Off.TIME_ALARM_CTRL
    let p := s.rd80 (timePg b + Off.TIME_ALARM_PT_LO)
    if s.bit c 0 && decide (p ≤ s.now) then (s.setBit c 0 false).raiseAt (timePg b) 3 p 0 false else s

/-- COUNT_CLR: clears the late and collision counts of a bent (R47). -/
def execCountClr (t : PT) (b : Fin 8) (s : State) : Out :=
  runAt t s fun s => s.onlyIf (s.has b) fun s => s.command (timePg b) fun s =>
    s.zero ([Off.TIME_LATE_DROP_COUNT, Off.TIME_LATE_SLIP_COUNT, Off.TIME_LATE_VOID_COUNT, Off.TIME_COLLIDE_COUNT].map
      fun o => timePg b + o)

/-! ### PPS (R36, R37, R63) -/

/-- PPS capture is enabled on the ridge. -/
def State.ppsOn (s : State) : Bool := s.bit (timePg s.ridge + Off.TIME_PPS_CTRL) 0

/-- The half-width of the acceptance window in kerfs. -/
def State.ppsWindow (s : State) : Nat := s.fld (timePg s.ridge + Off.TIME_PPS_CTRL) 8 16 * 160000

/-- The discipline takes an edge inside the window (R63): the correction it asks for, in parts in 10^15, rounded to the nearest
(log entry 163). -/
def State.disciplineEdge (s : State) (p : Nat) : State :=
  let x := s.tb
  if !s.bit (tbPg + Off.TIMEBASE_PPS_DISC) 0 then s
  else
    match x.anchor with
    | none => { s with tb := { x with anchor := some p, sumE := 0 } }
    | some a =>
      let half := secK / 2
      let e : Int := (((p : Int) - (a : Int) + (half : Int)) % (secK : Int)) - (half : Int)
      let sum := x.sumE + e
      let tau : Nat := 2 ^ s.fld (tbPg + Off.TIMEBASE_PPS_DISC) 1 5
      let y := roundDiv (-(10 ^ 15 * (4 * (tau : Int) * e + sum))) (4 * tau * tau * secK)
      let lim : Int := (s.fld (tbPg + Off.TIMEBASE_PPS_DISC) 16 16 * 1000000 : Nat)
      let s0 := s.rebase
      let s1 := { s0 with tb := { s0.tb with sumE := sum, discTo := clampI (-lim) lim y } }
      if y < -lim ∨ lim < y then s1.raise tbPg 7 else s1

/-- PPS_EDGE: an edge at PPSIN, stamped by the ridge's lath if it has the polarity that PPS_CTRL names. -/
def execPpsEdge (t : PT) (edge : PinEdge) (s : State) : Out :=
  runAt t s fun s =>
    if s.ppsOn && s.clk.running && edge.falling == s.bit (timePg s.ridge + Off.TIME_PPS_CTRL) 1 then
      let p := edge.stamp.toNat
      let pg := timePg s.ridge
      let out := match s.tb.ppsNext with
        | none => false
        | some e => decide (p + s.ppsWindow < e) || decide (e + s.ppsWindow < p)
      let s1 := (s.wr80 (timePg 0 + Off.TIME_PPS_PT_LO) p).bump (timePg 0 + Off.TIME_PPS_COUNT)
      let s2 := ({ s1 with tb := { s1.tb with ppsNext := some (p + secK) } }).raise pg 0
      let s3 := if out then s2.raise pg 2 else s2.disciplineEdge p
      (List.range s3.variant.bents).foldl (fun s b => s.offerStamp b (3, 0, 0) p) s3
    else s

/-- PPS_MISSING: no edge has arrived by the expected instant plus the window. -/
def execPpsMissing (t : PT) (s : State) : Out :=
  runAt t s fun s =>
    match s.tb.ppsNext with
    | none => s
    | some e =>
      if s.ppsOn && decide (e + s.ppsWindow < s.now) then
        ({ s.bump (timePg 0 + Off.TIME_PPS_MISS_COUNT) with tb := { s.tb with ppsNext := some (e + secK) } }).raise
          (timePg s.ridge) 1
      else s

end Sys2Proof.Machine
end

