-- ==== Sys2Proof/Machine/SillOps.lean ====
section
/-!
DEFINITION. Machine/SillOps.lean: the loop of a sill (R67–R73), coasts (R76, R77, R79), the choice of a source and the start of
a switch (R54–R57), faults of a sill and takeover (R74, R80, R81), and the DCO words of a lattice (R67, R88).
-/

namespace Sys2Proof.Machine

/-! ### Sources -/

/-- A source is qualified. -/
def State.qualified (s : State) (c : Nat) : Bool := decide (c < 3) && s.bit srcStat (8 + c)

/-- A source passes its activity test; the crystal's is its amplitude (R51, R52). -/
def State.active (s : State) (c : Nat) : Bool := decide (c < 3) && s.bit srcStat (12 + c)

/-- A source passes its activity and source-specific tests (R52). -/
def State.sourceOk (s : State) (c : Nat) : Bool :=
  s.active c && (c != 1 || s.bit srcStat 11 || s.bit (tbPg + Off.TIMEBASE_WARM_CTRL) 0)

/-- The order of the sources (SRC_PRIO). -/
def State.srcOrder (s : State) : List Nat :=
  let w := s.rd (tbPg + Off.TIMEBASE_SRC_PRIO)
  [bits w 0 2, bits w 2 2, bits w 4 2].filter fun c => decide (c < 3)

/-- The first qualified source of the order (R54). -/
def State.bestSource (s : State) : Option Nat := s.srcOrder.find? fun c => s.qualified c

/-- Does one source stand before another in the order? -/
def State.srcBefore (s : State) (a b : Nat) : Bool :=
  let i := s.srcOrder.idxOf a
  decide (i < s.srcOrder.idxOf b) && decide (i < s.srcOrder.length)

/-- The nominal frequency of a source in Hz (R51). -/
def State.srcFreq (s : State) (c : Nat) : Nat :=
  s.rd (tbPg + (if c = 0 then Off.TIMEBASE_REFIN_FREQ else if c = 1 then Off.TIMEBASE_OCXO_FREQ
    else Off.TIMEBASE_XTAL_FREQ))

/-- The source in force, if there is one. -/
def State.inForce? (s : State) : Option Nat := if s.srcNow < 3 then some s.srcNow else none

/-- The source the ridge locks to: the one in force, or, before the first lock, the forced one (log entry 164) or the first in
order that passes its activity and source-specific tests (R429). -/
def State.lockSource (s : State) : Option Nat :=
  s.inForce?.orElse fun _ => (s.tb.switchTo.filter fun c => s.sourceOk c).orElse fun _ => s.srcOrder.find? fun c => s.sourceOk c

/-- The bents of the package but one. -/
def State.others (s : State) (b : Nat) : List Nat := (List.range s.variant.bents).filter fun c => c != b

/-! ### The DCO (R67, R88) -/

/-- The control word for a frequency in Hz given as a fraction, rounded up or down. -/
def dcoWord (num den : Nat) (up : Bool) : Nat :=
  let x := num - 14000000000 * den
  min (if up then ceilDiv x (32 * den) else x / (32 * den)) 0x0FA56EA0

/-- The target word of a lattice N. -/
def targetWord (n : Nat) : Nat := (roundDiv ((32000000000000 - 14000000000 * n : Nat) : Int) (32 * n)).toNat

/-- A control word of a sill held within its clamp (R88). -/
def State.clampWord (s : State) (b k w : Nat) : Nat :=
  let cfg := s.sillCfg b k
  clampN (s.rd (cfg + Off.SILL_DCO_FLOOR)) (s.rd (cfg + Off.SILL_DCO_CEIL)) w

/-- The clamp follows the target at every lock and relock, unless CLAMP_MANUAL is set (R88). -/
def State.autoClamp (s : State) (b n : Nat) : State :=
  [0, 1].foldl (fun s k =>
    let pg := sillPg b k
    if s.bit (s.sillCfg b k + Off.SILL_SILL_CTRL) 6 then s
    else
      (s.wr (pg + Off.SILL_DCO_FLOOR) (dcoWord (32000000000000 * 995) (1000 * n) true)).wr (pg + Off.SILL_DCO_CEIL)
        (dcoWord (32000000000000 * 1005) (1000 * n) false)) s

/-- The lattice a sill locks to: in a relock the active sills go to the new N first, and the shadows stay on the old one until
the ridge has locked (R89, R90). -/
def State.sillN (s : State) (b k : Nat) : Nat :=
  match s.tb.relock with
  | some (n, none) => if s.bit (sillStat b k) 1 then n else s.clk.n
  | _ => s.clk.n

/-! ### The loop (R67–R71) -/

/-- The update period of a sill as a fraction, in kerfs: of the ridge the period of its source behind the pre-scaler (R68), of a
joined worker 80 ticks (R348), and of a follower 160 (R341). -/
def State.period (s : State) (b k : Nat) : Nat × Nat :=
  if b != s.ridge then (160 * s.sillN b k, 1)
  else if s.joined then (80 * s.sillN b k, 1)
  else
    let f := s.srcFreq (s.lockSource.getD 0)
    let pre := s.fld (s.sillCfg b k + Off.SILL_SILL_CTRL) 0 2
    if pre = 1 then (secK / 2, f) else if pre = 2 then (2 * secK, f) else (secK, f)

/-- The offset of time transfer in the worker's expected phase at a PT, in kerfs: it moves at 100 kerfs/µs (R354, log entry
165). -/
def State.treeNow (s : State) (p : Nat) : Int := rampAt s.tb.treeFrom s.tb.treeTo 100000000 (p - s.tb.treeAt)

/-- What the offsets applied on purpose have shifted the expected instant of an update of a bent by, in 10^−15 kerf (R69). -/
def State.updOffset (s : State) (b p : Nat) : Int :=
  let k := s.activeSill b
  let left := 1000000000000000 * (s.pullLeftAt b k p + s.phaseLeftAt b k p)
  if b != s.ridge then left
  else left + (if s.joined then s.tb.offAcc + 1000000000000000 * s.treeNow p else s.offsetAt p)

/-- ωn in 2^−32 rad/s, from B in Hz and ζ in 1/256 (R71). -/
def loopWn (bw zeta : Nat) : Nat :=
  let a := 65536 + 2 * zeta * zeta
  let m2 := a * 2 ^ 32 + isqrt ((a * a + 2 ^ 32) * 2 ^ 64)
  6283185307179586 * bw * 2 ^ 64 / (10 ^ 15 * isqrt (m2 * 2 ^ 16))

/-- The phase error that the loop carries while its reference ramps by `r` parts in 10^15 per second, r / ωn², in attoseconds
(R72). -/
def rampLag (bw zeta : Nat) (r : Int) : Int := r * 1000 * 2 ^ 64 / (loopWn bw zeta * loopWn bw zeta : Nat)

/-- The ramp of its reference that a filter follows while it measures `e` kerfs at every update, in parts in 10^15 per second (R72):
K_i moves the word by it f_u times a second. -/
def rampOf (n : Nat) (per : Nat × Nat) (ki : Nat) (e : Int) : Int :=
  e * (ki * n * 1000 * (secK * per.2) : Nat) / (per.1 * 2 ^ 32 : Nat)

/-- K_p and K_i in 2^−32 of a word step, from B in Hz, ζ in 1/256, N, and the update period as a fraction (R71). -/
def loopGains (bw zeta n : Nat) (per : Nat × Nat) : Nat × Nat :=
  let wn := loopWn bw zeta
  (zeta * wn / (2048 * n), wn * wn * per.1 / (2 ^ 36 * n * per.2 * secK))

/-- What a filter runs by: the update period, the preset word, the gains, the clamp, and whether it runs at all. -/
structure Loop where
  per : Nat × Nat
  w0 : Nat
  kp : Nat
  ki : Nat
  lo : Nat
  hi : Nat
  track : Bool
  deriving DecidableEq, Repr

/-- Is a sill's word frozen: in a coast, and at the ridge also in a switch (R57, R76)? -/
def State.frozen (s : State) (b k : Nat) : Bool :=
  s.bit (sillStat b k) 3 || (b == s.ridge && s.tb.switchTo.isSome && s.clk.running)

/-- ACQ_STATE of a sill. -/
def State.acqState (s : State) (b k : Nat) : Nat := s.fld (sillStat b k) 16 3

/-- The loop of a sill. -/
def State.loop (s : State) (b k : Nat) : Loop :=
  let cfg := s.sillCfg b k
  let per := s.period b k
  let g := loopGains (s.fld (cfg + Off.SILL_LOOP_BW) 0 21) (s.fld (cfg + Off.SILL_LOOP_ZETA) 0 10) (s.sillN b k) per
  { per := per, w0 := targetWord (s.sillN b k), kp := g.1, ki := g.2, lo := s.rd (cfg + Off.SILL_DCO_FLOOR),
    hi := s.rd (cfg + Off.SILL_DCO_CEIL), track := !s.frozen b k && decide (3 ≤ s.acqState b k) && s.acqState b k != 6 }

/-- The phase error of an update at `p`, where the offset `off` applies, in kerfs (R69); the first update after a restart of
the phase measures 0. -/
def Sill.error (x : Sill) (l : Loop) (p : Nat) (off : Int) : Int :=
  match x.ref with
  | none => 0
  | some r =>
    let d : Int := (((p : Int) - r.inst) * 1000000000000000 - (off - r.off)) * l.per.2
    clampI (-(2 ^ 31)) (2 ^ 31 - 1)
      (roundDiv (d - 1000000000000000 * ((r.count + 1) * l.per.1 : Nat)) (1000000000000000 * l.per.2))

/-- One update: the phase detector and the PI filter (R69, R70). A positive error lowers the word (log entry 167). -/
def Sill.update (x : Sill) (l : Loop) (p : Nat) (off : Int) : Sill :=
  let e := x.error l p off
  let y := { x with
    ref := some (match x.ref with
      | none => { inst := p, count := 0, off := off }
      | some r => { r with count := r.count + 1 })
    lastUpd := some (p, off) }
  if l.track then
    let i := x.integ + l.ki * e
    let w := roundDiv (l.w0 * 2 ^ 32 - i - l.kp * e) (2 ^ 32)
    let c := clampI l.lo l.hi w
    { y with integ := if c = w then i else x.integ, words := c.toNat :: x.words }
  else y

/-- The updates of HOLD_AVG (R76). -/
def State.holdUpdates (s : State) (b k : Nat) : Nat :=
  let per := s.period b k
  s.fld (s.sillCfg b k + Off.SILL_HOLD_AVG) 0 14 * 1000 * usK * per.2 / per.1

/-- The updates of a sill at the instants `edges` run through its loop; a filter that runs leaves its word in DCO_WORD, and no
more words are kept than a coast can ask for (R67, R76). -/
def State.updates (s : State) (b k : Nat) (edges : List Nat) : State :=
  let l := s.loop b k
  let x := edges.foldl (fun x p => x.update l p (s.updOffset b p)) (s.sill b k)
  let s1 := s.setSill b k { x with words := x.words.take (s.holdUpdates b k + 8) }
  match l.track, x.words with
  | true, w :: _ => s1.wr (sillPg b k + Off.SILL_DCO_WORD) w
  | _, _ => s1

/-- The loop of a sill takes up its phase anew, from the word in force: the next update measures no error (R57, R68, R79). -/
def State.restartPhase (s : State) (b k : Nat) : State :=
  let w : Int := s.rd (sillPg b k + Off.SILL_DCO_WORD)
  s.setSill b k { s.sill b k with
    ref := none, lastUpd := none, good := 0, bad := 0, fired := false, words := []
    integ := (targetWord (s.sillN b k) - w) * 2 ^ 32 }

/-- The next update of a sill measures no error, and its filter goes on from where it is (R68, R339). -/
def State.newPhase (s : State) (b k : Nat) : State :=
  s.setSill b k { s.sill b k with ref := none, lastUpd := none, good := 0, bad := 0 }

/-- Update edges reach the sills of a bent: its source is active, the tenon is there, or the ridge drives the purlin. -/
def State.refOk (s : State) (b : Nat) : Bool :=
  if b != s.ridge then s.clk.running
  else if s.joined then s.bit (pkgp 5 + Off.HIER_HIER_STAT) 5
  else match s.lockSource with
    | some c => s.active c
    | none => false

/-- A sill starts to acquire: its word is preset to its target within the clamp (R86, R89), ACQ_STATE 1, and 2 once update
edges reach it. -/
def State.acqStart (s : State) (b k : Nat) : State :=
  let s1 := (s.wr (sillPg b k + Off.SILL_DCO_WORD) (s.clampWord b k (targetWord (s.sillN b k)))).setFld (sillStat b k) 16 3
    (if s.refOk b then 2 else 1)
  s1.setSill b k { s1.sill b k with
    good := 0, bad := 0, lastOk := false, fired := false, ref := none, integ := 0, words := [], lastUpd := none,
    goodUpd := none, trim := 0 }

/-! ### Coasts -/

/-- The bents whose lattice coasts with a bent's active sill: all of them with the ridge's (R77). -/
def State.coastsWith (s : State) (b : Nat) : List Nat := if b = s.ridge then List.range s.variant.bents else [b]

/-- Windows and continuous captures of a bent that have begun, and end at `x` or later, take the coasted flag (R58, R77). -/
def State.coastCaps (s : State) (b x : Nat) : State :=
  (List.range 4).foldl (fun s i =>
    let c := s.cap b i
    s.setCap b i { c with
      wins := c.wins.map fun (w : Window) =>
        if w.first ≤ s.now ∧ x ≤ s.winEnd w then { w with coasted := true } else w
      cont := c.cont.map fun (k : Cont) => if k.next ≤ s.now then { k with coasted := true } else k }) s

/-- Shots of a bent that have no entry yet, have begun, and last to `x` or beyond take the coasted flag (R58, R77). -/
def State.coastShots (s : State) (b x : Nat) : State :=
  (List.range 16).foldl (fun s q =>
    let k := b * 16 + q
    let y := s.seq k
    if y.shot.isSome || !y.tail.isEmpty then
      s.setSeq k { y with
        shot := y.shot.map fun (h : Shot) => if h.start ≤ s.now then h.flag 0 else h
        tail := y.tail.map fun (h : Shot) => if h.start ≤ s.now ∧ x ≤ max h.cEnd h.effEnd then h.flag 0 else h }
    else s) s

/-- RIDGE_COAST of every follower. -/
def State.ridgeCoast (s : State) (on : Bool) : State :=
  (s.others s.ridge).foldl (fun s b => (s.setBit (sillStat b 0) 9 on).setBit (sillStat b 1) 9 on) s

/-- The sum of a list. -/
def sumNat (l : List Nat) : Nat := l.foldl (fun a x => a + x) 0

/-- The word is frozen at the mean of the words of the last HOLD_AVG, without the last 8 updates (R76); with no such update the
word in force stays. -/
def State.freezeWord (s : State) (b k : Nat) : State :=
  let l := ((s.sill b k).words.drop 8).take (s.holdUpdates b k)
  let s1 := s.setSill b k { s.sill b k with coastTemp := toSigned 32 (s.rd (bp b 0 + Off.BENT_DIE_TEMP)) }
  if l.isEmpty then s1 else s1.wr (sillPg b k + Off.SILL_DCO_WORD) (roundDiv (sumNat l) l.length).toNat

/-- The last good update of a bent's active sill, as far as its windows tell, or the present (R76, log entry 168). -/
def State.lastGood (s : State) (b : Nat) : Nat := (s.sill b (s.activeSill b)).goodUpd.getD s.now

/-- The active sill of a bent coasts, with `last` the PT of its last good update (R76, R77). -/
def State.coastStart (s : State) (b cause last : Nat) : State :=
  let k := s.activeSill b
  let pg := sillPg b k
  if s.bit (sillStat b k) 3 then s
  else
    let st := putBits (putBits (putBits (s.rd (sillStat b k)) 3 1 1) 12 3 cause) 16 3 5
    let s1 := ((s.wr (sillStat b k) st).wr80 (pg + Off.SILL_COAST_PT_LO) last).wr (pg + Off.SILL_COAST_TIME) 0
    let s2 := (s1.bump (pg + Off.SILL_COAST_COUNT)).setSill b k { s1.sill b k with coastAt := s1.now, goOn := false }
    let s3 := (s2.freezeWord b k).raise pg 3
    let s4 := if b = s.ridge then (s3.setBit srcStat 3 true).ridgeCoast true else s3
    let s5 := if cause = 4 then
        ((s4.bump (pkgp 2 + Off.PURLIN_LOSS_COUNT)).setBit (pkgp 2 + Off.PURLIN_PURLIN_STAT) (16 + b) true).raise (pkgp 2) 0
      else s4
    (s5.coastsWith b).foldl (fun s c => s.coastCaps c last) s5

/-- A relock is under way at a bent's active sill: it has not locked to the new lattice yet. -/
def State.relocking (s : State) (b k : Nat) : Bool :=
  s.bit (sillStat b k) 5 && s.bit (sillStat b k) 1 && !s.bit (sillStat b k) 0

/-- A coast ends: tracking resumes from the frozen word, with the phase error built up to be removed by the settings in force
(R79); a relock that waited resumes (R90). -/
def State.coastEnd (s : State) (b : Nat) (phase : Int) : State :=
  let k := s.activeSill b
  let pg := sillPg b k
  if !s.bit (sillStat b k) 3 then s
  else
    let last := s.rd80 (pg + Off.SILL_COAST_PT_LO)
    let s0 := (s.coastsWith b).foldl (fun s c => (s.coastShots c last).coastCaps c last) s
    let ms := min ((s.now - (s.sill b k).coastAt) / (1000 * usK)) 0xFFFFFFFF
    let st := putBits (putBits (putBits (s0.rd (sillStat b k)) 3 1 0) 4 1 0) 16 3 3
    let s1 := ((s0.wr (sillStat b k) st).wr (pg + Off.SILL_COAST_TIME) ms).wr (pg + Off.SILL_PULL_LEFT) (ofSigned 32 phase)
    let cfg := s1.sillCfg b k
    let pull : Pull :=
      { at_ := s1.now, slew := s1.slew, idle := s1.bit (cfg + Off.SILL_SILL_CTRL) 4
        rate := s1.fld (cfg + Off.SILL_PHASE_RATE) 0 7 }
    let s2 := (s1.raise pg 4).setSill b k { s1.sill b k with
      goOn := false, pull := if phase = 0 then none else some pull }
    let s3 := (s2.restartPhase b 0).restartPhase b 1
    let s4 := if s3.relocking b k then s3.acqStart b k else s3
    let s5 := s4.setBit (pkgp 2 + Off.PURLIN_PURLIN_STAT) (16 + b) false
    if b = s.ridge then ((s5.setBit srcStat 3 false).ridgeCoast false).category 2 9 false else s5

/-! ### Loss and choice of a source -/

/-- NO_SOURCE stands or clears: its health code, its category of FAULT_N and, as it comes, its event (R56, R65, R66, R429). -/
def State.noSourceIs (s : State) (on : Bool) : State :=
  let s1 := (s.standing tbPg 0x4F on).category 2 8 on
  if on && !s.stands tbPg 0x4F then s1.raise tbPg 3 else s1

/-- No source is qualified (R56): `c` is the one whose phase the lattice still carries. -/
def State.noSource (s : State) (c : Option Nat) : State :=
  let s0 := s.rebase
  let s1 := { s0.setFld srcStat 0 2 3 with tb := { s0.tb with switchTo := none, lost := c } }
  ((s1.setBit srcStat 4 false).noSourceIs true).coastStart s.ridge 0 (s.lastGood s.ridge)

/-- A switch to a source starts (R57 step 1): the ridge's sills coast, the ramp of an earlier switch ends (R59), and the
discipline holds its correction (R63). -/
def State.switchStart (s : State) (c : Nat) : State :=
  let s1 := (s.noSourceIs false).discReset.setBit srcStat 2 false
  { s1 with tb := { s1.tb with switchTo := some c, steer := 0 } }.coastStart s.ridge 3 (s.lastGood s.ridge)

/-- Put the instant since which a source passes its activity and specific tests. -/
def State.setSince (s : State) (c : Nat) (x : Option Nat) : State :=
  { s with tb := { s.tb with since := mapSet (fun _ => none) s.tb.since c x } }

/-- The Gyash falls back to the next qualified source, or coasts without one (R54, R56). -/
def State.nextSource (s : State) (lost : Option Nat) : State :=
  match s.bestSource with
  | some d => s.switchStart d
  | none => s.noSource lost

/-- A source loses its qualification, or, in force since the first lock, fails before it has qualified (R52–R56, R59,
R429). -/
def State.srcLose (s : State) (c : Nat) : State :=
  let s1 := (s.setBit srcStat (8 + c) false).setSince c (some s.now)
  let free := s1.setBit srcStat 5 false
  if !s.clk.running then
    (if s.tb.switchTo = some c then { free with tb := { free.tb with switchTo := none } } else s1)
  else if s.joined then s1
  else if s.inForce? = some c then
    (if s.tb.switchTo.isSome then (if s.qualified c then s1.raise tbPg 1 else s1)
     else (free.raise tbPg 1).nextSource (some c))
  else if s.tb.switchTo = some c then free.nextSource (s.inForce?.orElse fun _ => s.tb.lost)
  else s1

/-- An earlier source of the order is taken under REVERT, unless a source is forced; with none in force the first qualified
one is (R54, R56). -/
def State.srcReconsider (s : State) : State :=
  if s.joined || s.tb.switchTo.isSome || s.bit srcStat 5 || !s.clk.running then s
  else
    match s.inForce?, s.bestSource with
    | some c, some d => if s.srcBefore d c && s.bit (tbPg + Off.TIMEBASE_SRC_PRIO) 8 then s.switchStart d else s
    | none, some d => s.switchStart d
    | _, none => s

/-- The OCXO has been taken in force: WARM_START unless it has settled (R60, R65). -/
def State.warmStart (s : State) : State :=
  if s.inForce? == some 1 && !s.tb.settled then s.raise tbPg 4 else s

/-- WARMING follows the source in force and the OCXO's settling (R60). -/
def State.warmUpdate (s : State) : State := s.setBit srcStat 4 (s.inForce? == some 1 && !s.tb.settled)

/-! ### Lock, fault, takeover -/

/-- LOCKED clears; a relock raises no UNLOCKED (R94). -/
def State.unlock (s : State) (b k : Nat) (relock : Bool) : State :=
  if s.bit (sillStat b k) 0 then
    let s1 := s.setBit (sillStat b k) 0 false
    let s2 := s1.setSill b k { s1.sill b k with good := 0, bad := 0 }
    let s3 := if b = s.ridge then s2 else s2.setBit (pkgp 2 + Off.PURLIN_PURLIN_STAT) (8 + b)
      (s2.bit (sillStat b (1 - k)) 0 && s2.bit (sillStat b (1 - k)) 1)
    if relock then s3 else s3.raise (sillPg b k) 1
  else s

/-- A sill is reset and reacquires lock as the shadow (R81). -/
def State.sillReset (s : State) (b k : Nat) : State :=
  let s1 := (s.unlock b k false).acqStart b k
  s1.setSill b k { s1.sill b k with acq := some s1.now }

/-- The skew of a bent's sills is within TWIN_TOL (R75, R80). -/
def State.skewOk (s : State) (b : Nat) : Bool :=
  let w := toSigned 16 (s.rd (sillPg b (s.activeSill b) + Off.SILL_TWIN_SKEW))
  decide (w.natAbs ≤ 16 * s.fld (s.sillCfg b (s.activeSill b) + Off.SILL_TWIN_TOL) 0 8)

/-- A sill stands in shadow and may take over but for its skew: the twin mirrors, it is LOCKED and does not drive the outputs,
and no calibration of it runs (R80, R91, R266). -/
def State.inShadow (s : State) (b k : Nat) : Bool :=
  s.mirror b && s.hasActive b && s.bit (sillStat b k) 0 && !s.bit (sillStat b k) 1 &&
    !(s.cal b).ops.any fun o => o.item == 0x10 && o.inst == k

/-- SILL_STAT.SHADOW: locked in shadow and eligible for takeover (R93). -/
def State.shadowBit (s : State) (b k : Nat) : Bool := s.inShadow b k && s.skewOk b

/-- Is a bent's shadow sill eligible for a takeover (R80)? None is decided during a coast (R82), and a decision of the twin
watch does not ask for the skew that it has just found too large (log entry 61). -/
def State.shadowOk (s : State) (b : Nat) (twin : Bool) : Bool :=
  s.inShadow b (1 - s.activeSill b) && !s.bit (sillStat b (s.activeSill b)) 3 && (twin || s.skewOk b)

/-- The first tick boundary at least two ticks after the present (R80). -/
def State.takeoverAt (s : State) : Nat := s.ptOf (ceilDiv (s.now - s.clk.o) s.clk.n + 2)

/-- Put or clear a takeover that is decided: its instant, and whether a fault decided it. -/
def State.setTakeover (s : State) (b : Nat) (x : Option (Nat × Bool)) : State :=
  { s with takeovers := mapSet (fun _ => none) s.takeovers b x }

/-- A takeover that is decided. -/
def State.takeover (s : State) (b : Nat) : Option (Nat × Bool) := mapGet (fun _ => none) s.takeovers b

/-- What belongs to the outputs moves with them to the sill that takes over: the rest of a fine phase step and of a pull (R82),
each put at what is left now. -/
def State.moveLeft (s : State) (b k : Nat) : State :=
  let j := 1 - k
  let s1 := (s.wr (sillPg b j + Off.SILL_PHASE_LEFT) (ofSigned 32 (s.phaseLeftAt b k s.now))).wr
    (sillPg b k + Off.SILL_PHASE_LEFT) 0
  let s2 := (s1.wr (sillPg b j + Off.SILL_PULL_LEFT) (s.rd (sillPg b k + Off.SILL_PULL_LEFT))).wr
    (sillPg b k + Off.SILL_PULL_LEFT) 0
  let s3 := s2.setSill b j { s2.sill b j with phaseAt := s.now, pull := (s.sill b k).pull }
  s3.setSill b k { s3.sill b k with pull := none }

/-- The outputs of a bent move to the other sill (R80): ACTIVE, the count, TAKEOVER, and what belongs to the outputs. -/
def State.switchOutputs (s : State) (b : Nat) : State :=
  let k := s.activeSill b
  let j := 1 - k
  let s1 := (s.setBit (sillStat b k) 1 false).setBit (sillStat b j) 1 true
  ((s1.bump (sillPg b j + Off.SILL_TAKEOVER_COUNT)).raise (sillPg b j) 6).moveLeft b k

/-- A fault of the active sill in a relock (R90): the relock restarts on a shadow that is LOCKED to the old lattice; else it
goes on with the reset of the faulted sill. -/
def State.relockFault (s : State) (b k : Nat) : State :=
  let j := 1 - k
  if s.mirror b && s.bit (sillStat b j) 0 then
    (((s.switchOutputs b).raise (sillPg b k) 7).unlock b j true).acqStart b j |>.sillReset b k
  else (s.raise (sillPg b k) 7).sillReset b k

/-- The fault of a sill is decided (R74, R80): the active one hands over, or coasts with cause 2; the shadow reacquires. -/
def State.sillFault (s : State) (b k : Nat) (twin : Bool) : State :=
  let s1 := s.wr80 (sillPg b k + Off.SILL_FAULT_PT_LO) s.now
  if k = s.activeSill b then
    if s.relocking b k then s1.relockFault b k
    else if s.bit (s.sillCfg b k + Off.SILL_SILL_CTRL) 8 && s.shadowOk b twin then
      s1.setTakeover b (some (s.takeoverAt, true))
    else (s1.raise (sillPg b k) 7).coastStart b 2 (s.lastGood b)
  else (s1.raise (sillPg b k) 7).sillReset b k

/-- Both sills of a bent are FAULTED. -/
def State.bothFaulted (s : State) (b : Nat) : Bool := s.bit (sillStat b 0) 7 && s.bit (sillStat b 1) 7

/-- The conditions that measurements report, gathered at the end of a command that may change them (R252). -/
def State.gathered (s : State) (f : State → State) : State := State.tbGather s (f s) 0

end Sys2Proof.Machine
end

