-- ==== Sys2Proof/Machine/Outputs.lean ====
section
/-!
DEFINITION. Machine/Outputs.lean: the sixteen outputs of a bent's sills (R84–R86, R89): dividers, the edges of CLKOUT0 and
CLKOUT1 with their enables, delays and idle levels, and the hold of a relock. Instants within an output are in quarter
kerfs, so that half a DCO period is a whole number of them.
-/

namespace Sys2Proof.Machine

/-- Is an output one of the CLKOUTs? -/
def isClkout (n : Nat) : Bool := n == 13 || n == 14

/-- The delay that SOn_DLY asks of a CLKOUT: COARSE·N/4 + FINE kerfs (R85). -/
def State.soDelay (s : State) (b n : Nat) : Nat :=
  let w := s.rd (s.soCfg b n + 4)
  bits w 0 11 * s.clk.n + 4 * bits w 16 9

/-- The delay of a CLKOUT at a PT: a change is applied at 100 kerfs/µs (R85). -/
def State.soDelayAt (s : State) (b n p : Nat) : Nat :=
  (rampAt (s.sout b n).dlyFrom (s.soDelay b n) 400000000 (p - (s.sout b n).dlyAt)).toNat

/-- The edge a CLKOUT's sequence counts from: O and the delay (R85). -/
def State.soBase (s : State) (b n p : Nat) : Nat := 4 * s.clk.o + s.soDelayAt b n p

/-- The first rising edge of an output at or after a PT. -/
def State.soNext (s : State) (b n p : Nat) : Nat := nextEdge (s.soBase b n p) (s.soPeriod b n p) p

/-- Does an output toggle at a PT: it has started and neither a disable nor a relock has stopped it (R85, R89)? -/
def State.soRuns (s : State) (b n p : Nat) : Bool :=
  let x := s.sout b n
  let before (y : Option Nat) : Bool := match y with
    | none => true
    | some a => decide (4 * p < a)
  s.hasActive b && before x.stopAt && before x.heldAt && (match x.startAt with
    | none => !isClkout n
    | some a => decide (a ≤ 4 * p))

/-- The level of CLKOUT_P at a PT (R85, R86): high for the first half of each period while it runs, IDLE_LEVEL while it does
not, and low before the first lock. -/
def State.clkLevel (s : State) (b n p : Nat) : Bool :=
  if !s.hasActive b then false
  else if s.soRuns b n p then
    decide ((((4 * p : Nat) : Int) - (s.soBase b n p : Int)) % (s.soPeriod b n p : Int) < (s.soDiv b n p * s.clk.n : Nat))
  else s.bit (s.soCfg b n) 17

/-- An enabled CLKOUT starts at its next edge (R85, R89). -/
def State.soStart (s : State) (b n : Nat) : State :=
  s.setSout b n { s.sout b n with
    startAt := if s.bit (s.soCfg b n) 16 then some (s.soNext b n s.now) else none, stopAt := none, heldAt := none }

/-- The outputs of a bent start: at its first lock, and after a relock (R86, R89). -/
def State.startOutputs (s : State) (b : Nat) : State :=
  (List.range 16).foldl (fun s n =>
    if isClkout n then s.soStart b n else s.setSout b n { s.sout b n with heldAt := none }) s

/-- HOLD_ON_RELOCK: every output but SO15 stops at its next divider boundary (R89). -/
def State.holdOutputs (s : State) : State :=
  (List.range s.variant.bents).foldl (fun s b =>
    (List.range 15).foldl (fun s n => s.setSout b n { s.sout b n with heldAt := some (s.soNext b n s.now) }) s) s

/-- A relock completes: the outputs restart at O and whole multiples of their periods (R89). -/
def State.releaseOutputs (s : State) : State :=
  (List.range s.variant.bents).foldl (fun s b => if s.hasActive b then s.startOutputs b else s) s

/-- A committed change of a CLKOUT (R85): a change of D at the first edge that both sequences have, a change of delay as a ramp
while it runs, an enable at its next edge, a disable after the falling edge that follows the next one. -/
def State.clkCommit (s old : State) (b n : Nat) : State :=
  let p := s.now
  let was := old.soRuns b n p
  let x := old.sout b n
  let d := old.soDiv b n p
  let d' := divOf (s.rd (s.soCfg b n))
  let dly : SillOut :=
    if old.soDelay b n = s.soDelay b n then x
    else { x with dlyFrom := if was then old.soDelayAt b n p else s.soDelay b n, dlyAt := p }
  let div : SillOut :=
    if d = d' then dly
    else { dly with
      oldDiv := d, divAt := if was then nextEdge (old.soBase b n p) (2 * Nat.lcm d d' * s.clk.n) p else 0 }
  let s1 := s.setSout b n div
  let on := s.bit (s.soCfg b n) 16
  let on' := old.bit (old.soCfg b n) 16
  if on && !on' then s1.soStart b n
  else if on' && !on then
    s1.setSout b n { div with
      startAt := if was then x.startAt else none
      stopAt := if was then some (old.soNext b n p + d * s.clk.n) else none }
  else s1

/-- Committed changes of a bent's outputs: an island's new divider from the first granule boundary (R84), and the CLKOUTs. -/
def State.outputsCommit (s old : State) (b : Nat) : State :=
  if !s.hasActive b then s
  else
    (List.range 16).foldl (fun s n =>
      if isClkout n then s.clkCommit old b n
      else if old.soDiv b n s.now = divOf (s.rd (s.soCfg b n)) then s
      else s.setSout b n { s.sout b n with oldDiv := old.soDiv b n s.now, divAt := 4 * s.granCeil s.now }) s

end Sys2Proof.Machine
end

