-- ==== Sys2Proof/Machine/TreeOps.lean ====
section
/-!
DEFINITION. Machine/TreeOps.lean: candidates for the ridge (R335), the start of a migration (R338), and the ports of the
tree: which is the tenon (R345, R347), a port that goes down (R353) and loss of the tenon (R348).
-/

namespace Sys2Proof.Machine

/-- The HIER page. -/
abbrev hierPg : Nat := pkgp 5

/-- HIER_STAT. -/
abbrev hierStat : Nat := hierPg + Off.HIER_HIER_STAT

/-- HIER_CTRL. -/
abbrev hierCtrl : Nat := hierPg + Off.HIER_HIER_CTRL

/-- The PURLIN page. -/
abbrev purlinPg : Nat := pkgp 2

/-- The FLIUD page of a bent. -/
abbrev fliudPg (b : Nat) : Nat := bp b 0x1B

/-- PORTk_STAT of a bent. -/
abbrev portStat (b k : Nat) : Nat := fliudPg b + Off.FLIUD_PORT_STAT k

/-- A port's state. -/
def State.port (s : State) (b k : Nat) : Port := mapGet (fun _ => Port.init) s.ports (b * 2 + k)

/-- Put a port's state. -/
def State.setPort (s : State) (b k : Nat) (x : Port) : State :=
  { s with ports := mapSet (fun _ => Port.init) s.ports (b * 2 + k) x }

/-- The package is a worker (HIER_CTRL.WORKER). -/
def State.worker (s : State) : Bool := s.bit hierCtrl 0

/-- Is a bent fenced by R304 (CONT_STAT.BENT_FENCED)? -/
def State.bentFenced (s : State) (b : Nat) : Bool := s.bit (bp b 0x18 + Off.CONTINUITY_CONT_STAT) 0

/-! ### Candidates (R335) -/

/-- The package sees its timebase: a source, or, on a worker, a trained tenon. -/
def State.seesTimebase (s : State) : Bool :=
  if s.worker then s.bit hierStat 5 else (List.range 3).any s.sourceOk

/-- Is a bent a candidate? -/
def State.candidate (s : State) (b : Nat) : Bool := s.bit (hierPg + Off.HIER_CAND) b

/-- NO_SOURCE stands before the first lock while no source is active (R429). -/
def State.noSourceBefore (s : State) : State :=
  if s.boot.up && !s.clk.running && !s.worker then s.noSourceIs (!s.seesTimebase) else s

/-- HIER.CAND and BENT_ROLE.CANDIDATE follow what makes a candidate. -/
def State.candUpdate (s0 : State) : State :=
  let s := s0.noSourceBefore
  let a := hierPg + Off.HIER_CAND
  let seen := s.seesTimebase
  (List.range s.variant.bents).foldl (fun s b =>
    let s1 := s.setBit a (16 + b) seen
    let on := s.bit a (8 + b) && seen && !s.bentFenced b
    if on == s.candidate b then s1
    else
      let s2 := ((s1.setBit a b on).setBit (bp b 0 + Off.BENT_BENT_ROLE) 1 on).raise (bp b 0) 0
      ({ s2 with tree := { s2.tree with seen := s2.tree.seen || on } }).raise hierPg 1) s

/-- May a sill of a bent lock: the ridge's when it is elected and has a source, a follower's once PT runs (R336, R429), and a
shadow once the bent has an active sill (R86)? -/
def State.mayLock (s : State) (b k : Nat) : Bool :=
  s.tree.elected && (if b = s.ridge then s.clk.running || s.seesTimebase else s.clk.running) &&
    !s.bit (sillStat b k) 7 && (s.hasActive b || k == 0)

/-- Every sill that may lock and has not started to acquire starts now (R86, R89). -/
def State.acquire (s : State) : State :=
  (List.range s.variant.bents).foldl (fun s b => [0, 1].foldl (fun s k =>
    if s.mayLock b k && !s.bit (sillStat b k) 0 && !s.bit (sillStat b k) 3 &&
        (s.acqState b k == 0 || (s.acqState b k == 1 && s.refOk b)) then s.acqStart b k
    else s) s) s

/-- The lowest-numbered candidate but one bent. -/
def State.nextCand (s : State) (b : Nat) : Option Nat := (s.others b).find? fun c => s.candidate c

/-- PKG_STAT.READY follows its condition: every unfenced bent has PWRUP_DONE, and no relock is in progress (R409). -/
def State.readyUpdate (s : State) : State :=
  let a := pkgp 0 + Off.PKG_PKG_STAT
  let bs := (List.range s.variant.bents).filter fun b => !s.bentFenced b
  let on := !bs.isEmpty && bs.all s.pwrup && !s.readyOff
  if on == s.bit a 24 then s
  else
    let s1 := s.setBit a 24 on
    if on then s1.raise (pkgp 0) 3 else s1

/-! ### Migration (R338–R340) -/

/-- A migration starts: planned, or by loss of the ridge; then every other bent loses the purlin and coasts with cause 4. -/
def State.migStart (s : State) (target : Nat) (loss fence : Bool) : State :=
  let s1 := { s with tree := { s.tree with mig := some { target := target, loss := loss, fence := fence, since := s.now } } }
  if loss then
    (s.others s.ridge).foldl (fun s b =>
      if s.bentFenced b then s
      else ((s.unlock b (s.activeSill b) false).raise (sillPg b (s.activeSill b)) 2).coastStart b 4 (s.lastGood b)) s1
  else s1

/-! ### Ports (R345–R353) -/

/-- The port number of the package of a bent's port (R345). -/
abbrev pkgPort (b k : Nat) : Nat := 2 * b + k

/-- TENON_PORT. -/
def State.tenonPort (s : State) : Nat := s.fld hierCtrl 8 4

/-- The standby tenon, if one is in use (R347). -/
def State.altPort (s : State) : Option Nat := if s.bit hierCtrl 16 then some (s.fld hierCtrl 12 4) else none

/-- The port that is the tenon now. -/
def State.tenonNow (s : State) : Nat := if s.bit hierStat 6 then s.altPort.getD s.tenonPort else s.tenonPort

/-- Is a package port a tenon, in use or standby? -/
def State.isTenon (s : State) (p : Nat) : Bool := s.worker && (p == s.tenonPort || s.altPort == some p)

/-- A port is in service. -/
def State.portUp (s : State) (b k : Nat) : Bool := s.bit (portStat b k) 0

/-- The lanes in service of a port. -/
def State.portLanes (s : State) (b k : Nat) : Nat := s.fld (portStat b k) 2 4

/-- The number of lanes of a mask. -/
def laneCount (m : Nat) : Nat := (List.range 4).foldl (fun n i => n + bits m i 1) 0

/-- The lowest lane of a mask. -/
def lowLane (m : Nat) : Nat := ((List.range 4).find? fun i => bitAt m i).getD 0

/-- The ridge takes a new reference with its phase as captured (R57 step 3): a switch without a coast. -/
def State.takeReference (s : State) : State :=
  ((s.bump (tbPg + Off.TIMEBASE_SWITCH_COUNT)).wr80 (tbPg + Off.TIMEBASE_LAST_SWITCH_PT_LO) s.now).raise tbPg 0

/-- The worker leaves the tree: JOINED clears, and tree settings that a commit changed meanwhile apply (R360). -/
def State.unjoin (s : State) : State :=
  let s1 := s.setBit hierStat 4 false
  match s1.tree.heldCtrl with
  | none => s1
  | some w => ({ s1 with tree := { s1.tree with heldCtrl := none } }.wr hierCtrl w).candUpdate

/-- The worker leaves the tree for its own sources (R348, R349). -/
def State.fallBack (s : State) : State :=
  let s1 := s.unjoin.setBit hierStat 7 true
  let s2 := s1.raise hierPg 3
  match s2.bestSource with
  | some c => s2.switchStart c
  | none => s2.noSource none

/-- The port that stands by for the tenon: TENON_ALT, or TENON_PORT while ON_ALT is set, if it is up. -/
def State.standby (s : State) : Option Nat :=
  match s.altPort with
  | none => none
  | some q =>
    let p := if s.bit hierStat 6 then s.tenonPort else q
    if s.portUp (p / 2) (p % 2) then some p else none

/-- Loss of the tenon: the standby is taken, or the ridge coasts or falls back (R347, R348). -/
def State.tenonLost (s : State) : State :=
  match s.standby with
  | some p =>
    let s1 := s.setBit hierStat 6 (!s.bit hierStat 6)
    let s2 := if s1.joined then s1.takeReference else s1
    if p / 2 != s2.ridge && s2.candidate (p / 2) then s2.migStart (p / 2) false false else s2
  | none =>
    if !s.bit hierStat 5 then s
    else
      let s1 := (s.setBit hierStat 5 false).candUpdate
      if !s1.joined then s1
      else if s1.bit hierCtrl 2 then s1.fallBack
      else (s1.unlock s1.ridge (s1.activeSill s1.ridge) false).coastStart s1.ridge 0 (s1.lastGood s1.ridge)

/-- 0xF2 stands while an enabled port of a bent that has been in service is down. -/
def State.portHealth (s : State) (b k : Nat) (down : Bool) : State :=
  s.standing (fliudPg b) 0xF2 (down || (s.stands (fliudPg b) 0xF2 && !s.portUp b (1 - k) &&
    s.bit (fliudPg b + Off.FLIUD_PORT_CTRL (1 - k)) 0))

/-- A port goes down (R353): `fault` says that a fault, and not its own enable, took it down. -/
def State.portDown (s : State) (b k : Nat) (fault : Bool) : State :=
  let a := portStat b k
  let was := s.portUp b k
  let w := s.rd a
  let s1 := (s.wr a (putBits (putBits (putBits w 0 1 0) 2 4 0) 12 2 0)).setPort b k { Port.init with frames := (s.port b k).frames }
  let s2 := if was || fault then s1.raiseAt (fliudPg b) 0 s1.now k false else s1
  let s3 := s2.portHealth b k fault
  if was && s3.worker && s3.tenonNow == pkgPort b k then s3.tenonLost else s3

end Sys2Proof.Machine
end

