-- ==== Sys2Proof/Machine/PageOps.lean ====
section
/-!
DEFINITION. Machine/PageOps.lean: what clearing ENABLE, DRAIN and FENCE do on each kind of page (R403 names the chapters),
and the fence of a bent (R304).
-/

namespace Sys2Proof.Machine

/-- A list of numbers folded over the state. -/
def State.each (s : State) (l : List Nat) (f : State → Nat → State) : State := l.foldl f s

/-- Queued pegs of a lane are discarded and counted, and on a stream lane their shots carry the late flag (R169). -/
def State.dropQueue (s : State) (lane : Nat) : State :=
  let s1 := (s.countDiscard lane (s.queue lane).length).setQueue lane []
  if laneKind lane = 5 then (s.queue lane).foldl (fun s p => s.flagShot p.owner 1) s1 else s1

/-- What clearing ENABLE does on page `p` of bent `b` (R116, R190, R220, R169, R257, R148, R403). -/
def State.pageStop (s : State) (b p : Nat) : State :=
  if 4 ≤ p ∧ p < 8 then
    s.each ((List.range 8).map fun c => (p - 4) * 8 + c) fun s ch =>
      if s.chLive b ch || s.chSensing b ch then s.edgeDisable b ch else s
  else if 8 ≤ p ∧ p < 0xF then
    s.each (pageTones b p) fun s l => if s.bit (convCtrl l) 0 then s.toneDisable l else s.toneStop l
  else if p = 0xF then s.each (List.range 16) fun s n => (s.dropQueue (laneAddr b 5 n)).strCut b n
  else if 0x10 ≤ p ∧ p < 0x14 then (s.capSync b (p - 0x10)).capDisable b (p - 0x10)
  else if p = 0x14 then s.each (List.range 4) fun s u => (s.dropQueue (laneAddr b 6 u)).tiuEnd b u true false
  else if p = 0x15 then s.each [0, 1] fun s e => (s.dropQueue (laneAddr b 6 (4 + e))).gateClose b e s.now true
  else if p = 0x1B then s.each [0, 1] fun s k => s.portDown b k false
  else if 0x20 ≤ p then s.seqStop (b * 16 + (p - 0x20))
  else s

/-- What DRAIN does on a page (R117, R191, R169, R221, R257, R148, R289). -/
def State.pageDrain (s : State) (b p : Nat) : State :=
  let s0 := s.setDrain (drainPage (bp b p)) (some s.now)
  if 4 ≤ p ∧ p < 8 then s0.each ((List.range 8).map fun c => (p - 4) * 8 + c) fun s ch => s.edgeDrain b ch
  else if 8 ≤ p ∧ p < 0xF then
    s0.each (pageTones b p) fun s l => s.setTone l { s.tone l with drainAt := some s.now }
  else if p = 0xF then s0.each (List.range 16) fun s n => s.strDrain b n
  else if 0x10 ≤ p ∧ p < 0x14 then
    let s1 := s0.contStop b (p - 0x10) s.now
    s1.setCap b (p - 0x10) { s1.cap b (p - 0x10) with drainAt := some s.now }
  else if p = 0x14 then
    s0.each (List.range 4) fun s u =>
      let x := s.tiu b u
      if x.armed then s.setTiu b u { x with draining := true } else s
  else if p = 0x15 then
    s0.each [0, 1] fun s e =>
      let f := s.fre b e
      if f.gate.isSome then s.setFre b e { f with draining := true } else s
  else if 0x20 ≤ p then s0.seqHalt (b * 16 + (p - 0x20))
  else s0

/-- FENCE is set on a page: it stops as its chapter says, and BENT.PAGE_FENCED is raised. -/
def State.pageFence (s : State) (b p : Nat) : State :=
  let a := bp b p + Off.PG_PAGE_CTRL
  if s.bit a 2 then s
  else
    let off := decide (p = 0x16 ∨ p = 0x17 ∨ p = 0x1C) || (decide (8 ≤ p ∧ p < 0xF) && !s.enabled (bp b p))
    let s1 := (if off then s.syncPage b p s.now else (s.syncPage b p s.now).pageStop b p)
    (s1.setBit a 2 true).raise (bp b 0) 6

/-- The pages of a bent that can be fenced (R304). -/
def fencePages : List Nat :=
  (List.range 48).filter fun p =>
    match bentPage p with
    | none => false
    | some r => r.fence

/-- Steps 2 and 3 of R304: every page that can be fenced is fenced, and the fabric discards what is sent to the bent. -/
def State.fenceBent (s : State) (b : Nat) : State :=
  if s.bentFenced b then s
  else
    let s1 := s.each fencePages fun s p => s.pageFence b p
    ((s1.setBit (bp b 0x18 + Off.CONTINUITY_CONT_STAT) 0 true).raise (pkgp 0) 1).candUpdate.readyUpdate

/-- Loss of the ridge (R338, R340): the role goes to the next candidate and the old ridge is fenced. With no candidate
nothing takes the role. `fabric` says that its heartbeat is lost, and not that its sills are faulted. -/
def State.ridgeLost (s : State) (fabric : Bool) : State :=
  match s.nextCand s.ridge with
  | none => s
  | some c =>
    let r := s.ridge
    let s1 := (s.migStart c true false).fenceBent r
    if fabric then (s1.category 4 r true).raise (pkgp 0) 0 else s1

/-- The resources of a page that a drain waits for are idle (R117, R169, R191, R221, R257, R289): nothing of an admitted
shot is queued or runs. -/
def State.pageIdle (s : State) (b p : Nat) : Bool :=
  let free (lane : Nat) : Bool := (s.queue lane).isEmpty
  if 4 ≤ p ∧ p < 8 then
    (List.range 8).all fun c =>
      let ch := (p - 4) * 8 + c
      free (laneAddr b 0 ch) && (match (s.edge b ch).eff with
        | none => true
        | some f => (match f.end_ with
          | none => false
          | some e => decide (e ≤ s.now)))
  else if 8 ≤ p ∧ p < 0xF then
    (pageTones b p).all fun l => free l && (match (s.tone l).pulse with
      | none => true
      | some q => decide (q.end_ ≤ s.now))
  else if p = 0xF then (List.range 16).all fun n => free (laneAddr b 5 n) && (s.stream b n).seg.isNone
  else if 0x10 ≤ p ∧ p < 0x14 then
    let c := s.cap b (p - 0x10)
    free (laneAddr b 4 (p - 0x10)) && c.wins.isEmpty && c.held.isEmpty && c.inj.isNone && c.cont.isNone
  else if p = 0x14 then (List.range 4).all fun u => !(s.tiu b u).armed
  else if p = 0x15 then [0, 1].all fun e => (s.fre b e).gate.isNone
  else if p = 0x16 then (s.cal b).ops.isEmpty
  else if p = 0x17 then !s.bit (shimPg b + Off.SHIMSTORE_SHIM_STAT) 0
  else if 0x20 ≤ p then
    let x := s.seq (b * 16 + (p - 0x20))
    x.phase == .halted && x.tail.isEmpty && x.owed.isEmpty
  else true

end Sys2Proof.Machine
end

