-- ==== Sys2Proof/Machine/Timebase.lean ====
section
/-!
DEFINITION. Machine/Timebase.lean: the timebase sources: qualification and loss (R52–R54, R56), switching (R55, R57–R59),
OCXO warm-up (R60) and crystal ageing (R61).
-/

namespace Sys2Proof.Machine

/-- The number of a source (R51). -/
def srcNo : Source → Nat
  | .refin => 0
  | .ocxo => 1
  | .xtal => 2

/-! ### The tests of a source (R52, R53) -/

/-- QUAL.FREQ_TOL in parts in 10^7. -/
def State.freqTol (s : State) : Nat := s.fld (tbPg + Off.TIMEBASE_QUAL) 0 16

/-- The nominal frequency of a source in 10^−15 Hz, the crystal's with its ageing correction (R52, R61). -/
def State.nominal (s : State) (c : Nat) : Int :=
  (s.srcFreq c : Int) *
    (1000000000000000 + (if c = 2 then toSigned 32 (s.rd (tbPg + Off.TIMEBASE_AGE_CORR)) else 0))

/-- A frequency in µHz, measured against the lattice, is within FREQ_TOL of the source's nominal one (R52). -/
def State.freqOk (s : State) (c f : Nat) : Bool :=
  decide ((10000000 * (1000000000 * (f : Int) - s.nominal c)).natAbs ≤ s.freqTol * (s.nominal c).natAbs)

/-- Two sources measured at frequencies in µHz agree within FREQ_TOL, each taken from its own nominal one (R53). -/
def State.freqAgree (s : State) (c d f g : Nat) : Bool :=
  decide ((10000000 * (f * s.nominal d - g * s.nominal c)).natAbs * 1000000000 ≤
    s.freqTol * (s.nominal c * s.nominal d).natAbs)

/-- The source in force is voted lost (R53): both others are qualified, agree with each other, and each differ from it. -/
def State.votedOut (s : State) (c : Nat) (f : Nat → Nat) : Bool :=
  let o := [0, 1, 2].filter fun d => d != c
  match o with
  | [a, b] => s.qualified a && s.qualified b && s.freqAgree a b (f a) (f b) && !s.freqAgree c a (f c) (f a) &&
      !s.freqAgree c b (f c) (f b)
  | _ => false

/-- May a source be qualified: it passes its activity test, and the OCXO its warm-up policy (R52, R60)? -/
def State.mayQualify (s : State) (c : Nat) : Bool :=
  s.active c && (c != 1 || s.bit (tbPg + Off.TIMEBASE_WARM_CTRL) 0 || s.tb.settled)

/-- The tests of a source have passed for RETURN_QUAL (R52); before PT runs the sender of SOURCE_QUALIFIED measures that time
(log entry 169). -/
def State.passedLong (s : State) (c : Nat) : Bool :=
  match mapGet (fun _ => none) s.tb.since c with
  | none => !s.clk.running
  | some x => !s.clk.running || decide (x + s.fld (tbPg + Off.TIMEBASE_QUAL) 16 16 * 10000 * usK ≤ s.now)

/-- The frequency test applies to a source: PT runs and the source is not in force (R52, R53). -/
def State.freqTested (s : State) (c : Nat) : Bool := s.clk.running && !(s.inForce? == some c && !s.joined)

/-- The lost source of a coast without a source is back (R56, R79). -/
def State.sourceBack (s : State) (c : Nat) (phase : Int) : State :=
  let s1 := ({ s.rebase.setFld srcStat 0 2 c with tb := { s.rebase.tb with lost := none } }).noSourceIs false
  (s1.coastEnd s.ridge phase).warmStart.warmUpdate

/-- A source in force is good, with no switch from it: a coast of the ridge on it ends (R79, log entry 40). -/
def State.forceGood (s : State) (c : Nat) (phase : Int) : State :=
  if s.inForce? == some c && s.tb.switchTo.isNone then s.coastEnd s.ridge phase else s

/-- A source has become qualified: the one that was lost ends the coast, another that the order lists is switched to, and with
one in force the order decides (R54, R56, R59). -/
def State.nowQualified (s : State) (c : Nat) (phase : Int) : State :=
  if s.tb.switchTo.isSome then s
  else if s.srcNow == 3 then
    (if !s.srcOrder.contains c then s
     else if s.tb.lost == some c then s.sourceBack c phase else s.switchStart c)
  else (s.forceGood c phase).srcReconsider

/-- SOURCE_QUALIFIED: a source has passed every test for RETURN_QUAL, with what the tests found (R52, R54, R56, R79). -/
def execSourceQualified (t : PT) (src : Source) (test : SrcTest) (s : State) : Out :=
  runAt t s fun s =>
    let c := srcNo src
    if !s.mayQualify c || !s.passedLong c || (s.freqTested c && !(s.freqOk c test.lo && s.freqOk c test.hi)) then s
    else if s.qualified c then s.gathered fun s => s.forceGood c test.phase
    else
      let s1 := (s.setBit srcStat (8 + c) true).raise tbPg 2
      if !s1.clk.running || s1.joined then s1 else s1.gathered fun s => s.nowQualified c test.phase

/-- A source fails: its activity or specific test, its frequency test or the vote against it, on frequencies measured in µHz
(R52, R53). -/
def State.srcFails (s : State) (c : Nat) (f : Nat → Nat) : Bool :=
  !s.mayQualify c && (s.qualified c || !s.sourceOk c) ||
    (if s.freqTested c then !s.freqOk c (f c) else s.clk.running && s.votedOut c f)

/-- SRC_LOST: the frequencies of the three are measured, and one fails a test or the vote of the others (R52–R54). -/
def execSrcLost (t : PT) (m : SrcFreqs) (s : State) : Out :=
  runAt t s fun s =>
    let c := srcNo m.src
    if s.srcFails c (fun d => [m.f0, m.f1, m.f2].getD d 0) then s.gathered fun s => s.srcLose c else s

/-! ### Switching (R55, R57) -/

/-- SWITCH_CMD with GO (R55). Before the first lock it selects the source that the ridge will take (log entry 164). -/
def execSwitchCmd (t : PT) (src : Fin 4) (s : State) : Out :=
  runAt t s fun s => s.command tbPg fun s =>
    if !s.qualified src then s.latchHealth tbPg 0x4E
    else if s.joined then s
    else
      s.gathered fun s =>
        let s1 := s.setBit srcStat 5 true
        if !s1.clk.running then { s1 with tb := { s1.tb with switchTo := some src.val } }
        else if s1.inForce? == some src.val && s1.tb.switchTo.isNone then s1
        else s1.switchStart src

/-- Step 3 of R57: tracking resumes on source `c`, `freq` parts in 10^12 off the frozen word. -/
def State.switchDone (s : State) (c : Nat) (freq : BitVec 32) : State :=
  let s1 := s.discReset
  let s2 := (({ s1 with tb := { s1.tb with switchTo := none, lost := none, steer := freq.toInt } }).coastEnd s.ridge 0).setFld
    srcStat 0 2 c
  let s3 := (s2.setBit srcStat 2 (freq != 0)).noSourceIs false
  s3.takeReference.warmStart.warmUpdate.srcReconsider

/-- SWITCHED: tracking resumes on the new source; `freq` is its frequency offset in parts in 10^12 (R57 step 3). -/
def execSwitched (t : PT) (freq : BitVec 32) (s : State) : Out :=
  runAt t s fun s =>
    match s.tb.switchTo with
    | none => s
    | some c => if s.qualified c && s.clk.running then State.tbGather s (s.switchDone c freq) 0x80 else s

/-- STEERING_DONE: the frequency offset has been steered out (R57 step 5). -/
def execSteeringDone (t : PT) (s : State) : Out :=
  runAt t s fun s =>
    s.onlyIf (s.bit srcStat 2 && s.steerNow == 0) fun s => s.gathered fun s => s.rebase.setBit srcStat 2 false

/-! ### OCXO warm-up (R60) -/

/-- OCXO_READY_CHANGE: the level of the OCXO_READY pin changes (R60). -/
def execOcxoReadyChange (t : PT) (level : Bool) (s : State) : Out :=
  runAt t s fun s =>
    let s1 := (s.setBit srcStat 11 level).candUpdate.acquire
    s1.gathered fun s =>
      if level then { s with tb := { s.tb with ready := s.tb.ready.orElse fun _ => some s.now } }
      else
        let s2 := { s with tb := { s.tb with ready := none, settled := false } }
        let s3 := if s2.bit (tbPg + Off.TIMEBASE_WARM_CTRL) 0 then s2 else s2.srcLose 1
        s3.warmUpdate

/-- WARM_SETTLED: OCXO_READY has been high for WARM_SETTLE (R60); under WARM_HOLD it passes its specific test from now on. -/
def execWarmSettled (t : PT) (s : State) : Out :=
  runAt t s fun s =>
    match s.tb.ready with
    | none => s
    | some x =>
      if s.tb.settled || decide (s.now < x + s.rd (tbPg + Off.TIMEBASE_WARM_SETTLE) * (1000 * usK)) then s
      else
        s.gathered fun s =>
          let s1 := ({ s with tb := { s.tb with settled := true } }).raise tbPg 5
          (if s1.bit (tbPg + Off.TIMEBASE_WARM_CTRL) 0 || !s1.active 1 then s1 else s1.setSince 1 (some s1.now)).warmUpdate

/-! ### Crystal ageing (R61) -/

/-- Kerfs in a day. -/
def dayK : Nat := 1382400000000000000

/-- The ageing correction at a PT, before its clamp (R61). -/
def State.ageing (s : State) (p : Nat) : Int :=
  toSigned 32 (s.rd (tbPg + Off.TIMEBASE_AGE_BASE)) +
    Int.tdiv (toSigned 32 (s.rd (tbPg + Off.TIMEBASE_AGE_RATE)) * 1000 *
      ((p : Int) - (s.rd80 (tbPg + Off.TIMEBASE_AGE_EPOCH_LO) : Int))) (dayK : Int)

/-- AGE_UPDATE: once per second of PT (R61). -/
def execAgeUpdate (t : PT) (s : State) : Out :=
  runAt t s fun s =>
    let c := s.ageing s.now
    let y := clampI (-2000000000) 2000000000 c
    let s1 := s.rebase.wr (tbPg + Off.TIMEBASE_AGE_CORR) (ofSigned 32 y)
    if y = c then s1 else s1.raise tbPg 6

end Sys2Proof.Machine
end

