-- ==== Sys2Proof/Machine/Sills.lean ====
section
/-!
DEFINITION. Machine/Sills.lean: lock detection (R73, R74), reference loss, the twin watch and takeover (R75, R80–R82), the
hold policy (R78), the end of a pull (R79), fine phase steps (R83) and relock (R87–R90).
-/

namespace Sys2Proof.Machine

/-! ### Lock (R73, R74, R86) -/

/-- The first lock of a bent: its sill drives the outputs, power-up calibration begins, and on the ridge PT starts at 0 with
the first source in order that passes its tests (R30, R86, R269, R429); `start` says that this lock starts PT. -/
def State.firstLock (s : State) (b k : Nat) (start : Bool) : State :=
  let s1 := if start then
      let c := s.lockSource.getD 3
      let s0 := (s.setFld srcStat 0 2 c).noSourceIs false
      ({ s0 with tb := { s0.tb with switchTo := none } }).warmStart.warmUpdate
    else s
  let s2 := (s1.setBit (sillStat b k) 1 true).startOutputs b
  (s2.setCal b { s2.cal b with lockAt := some s2.now }).setBit (calPg b + Off.CAL_CAL_STAT) 0 true

/-- The ridge's active sill has locked to the new lattice of a relock: the items N run, and the shadows follow to it (R89). -/
def State.relockLocked (s : State) (n : Nat) : State :=
  let s1 := { s with tb := { s.tb with relock := some (n, some s.now) } }
  let s2 := s1.each (List.range s1.variant.bents) fun s c => s.setCal c { s.cal c with relock := true }
  s2.each (List.range s2.variant.bents) fun s c =>
    let j := 1 - s.activeSill c
    if s.bit (sillStat c j) 7 || !s.hasActive c then s else (s.unlock c j true).acqStart c j

/-- LOCKED becomes 1 (R73, R86). The update edge of the lock is the one a lattice that begins with it counts from (R27, R30,
R89). -/
def State.lockSill (s : State) (b k : Nat) (start : Bool) : State :=
  let s0 := if s.hasActive b then s else s.firstLock b k start
  let act := s0.bit (sillStat b k) 1
  let anew := !s.hasActive b || s0.relocking b k
  let n := s0.sillN b k
  let s1 := (s0.setBit (sillStat b k) 0 true).setFld (sillStat b k) 16 3 4
  let x := { s1.sill b k with acq := none }
  let y := { x with
    ref := some { inst := s1.now, count := 0, off := s1.updOffset b s1.now }
    lastUpd := some (s1.now, s1.updOffset b s1.now), goodUpd := some s1.now }
  let s2 := ((s1.setSill b k (if anew then y else x)).autoClamp b n).raise (sillPg b k) 0
  let s3 := if b != s2.ridge && act then s2.setBit (purlinPg + Off.PURLIN_PURLIN_STAT) (8 + b) true else s2
  let s4 := match s3.tb.relock with
    | some (m, none) => if b = s3.ridge && act then s3.relockLocked m else s3
    | _ => s3
  s4.acquire

/-- A lock window of a sill (R73): C − E and E, in 2^−16 count, for the update edges of the window by the phase of the sill's
DCO in kerfs, of which the first opens it if the sill has had no update before. None if they are no whole window: 2^K
periods, or 2^12 while the sill acquires the frequency (R86). -/
def State.window (s : State) (b k : Nat) (edges : List Nat) : Option (Int × Nat) :=
  let prev := (s.sill b k).lastUpd.orElse fun _ => edges.head?.map fun p => (p, s.updOffset b p)
  let n := edges.length - b2n (s.sill b k).lastUpd.isNone
  let exp := if s.acqState b k < 3 ∧ !s.bit (sillStat b k) 0 then 12 else s.fld (s.sillCfg b k + Off.SILL_LOCK_WIN) 0 5
  match prev, edges.getLast? with
  | some (p, off), some q =>
    if n = 2 ^ exp then
      let per := s.period b k
      let cyc := 32 * s.sillN b k
      let shift := s.updOffset b q - off
      let e := (roundDiv (65536 * (1000000000000000 * (n * per.1 : Nat) + shift * per.2))
        (1000000000000000 * per.2 * cyc)).toNat
      some (65536 * (((q / cyc : Nat) : Int) - (p / cyc : Nat)) - e, e)
    else none
  | _, _ => none

/-- A tolerance in ppb as counts, in units of 2^−16 count, for an E in those units (R73). -/
def tolCounts (e ppb : Nat) : Nat := 65536 * max 1 (ceilDiv (ppb * e) (1000000000 * 65536))

/-- Is a window within LOCK_TOL (R73)? -/
def State.windowOk (s : State) (b k : Nat) (w : Int × Nat) : Bool :=
  decide (w.1.natAbs ≤ tolCounts w.2 (s.fld (s.sillCfg b k + Off.SILL_LOCK_TOL) 0 24))

/-- Is a window beyond UNLOCK_TOL (R73)? -/
def State.windowFar (s : State) (b k : Nat) (w : Int × Nat) : Bool :=
  decide (tolCounts w.2 (s.fld (s.sillCfg b k + Off.SILL_UNLOCK_TOL) 0 24) < w.1.natAbs)

/-- Does a window count towards LOCKED: a sill that is past frequency acquisition and does not coast (R73, R86)? -/
def State.windowCounts (s : State) (b k : Nat) : Bool :=
  s.has b && s.mayLock b k && !s.bit (sillStat b k) 3 && !s.bit (sillStat b k) 0 && decide (3 ≤ s.acqState b k)

/-- Is a window the last of LOCK_COUNT good ones of a sill that is not locked (R73)? -/
def State.windowLocks (s : State) (b k : Nat) (edges : List Nat) : Bool :=
  match s.window b k edges with
  | none => false
  | some w => s.windowCounts b k && s.windowOk b k w &&
      decide (s.fld (s.sillCfg b k + Off.SILL_LOCK_WIN) 8 8 ≤ (s.sill b k).good + 1)

/-- Does a window start PT: the first lock of the ridge (R30)? -/
def State.windowStarts (s : State) (b k : Nat) (edges : List Nat) : Bool :=
  s.windowLocks b k edges && b == s.ridge && !s.clk.running && !s.hasActive b

/-- Does a window lock the ridge's active sill to the new lattice of a relock (R89)? -/
def State.windowRelocks (s : State) (b k : Nat) (edges : List Nat) : Bool :=
  s.windowLocks b k edges && b == s.ridge && s.bit (sillStat b k) 1 && (match s.tb.relock with
    | some (_, none) => true
    | _ => false)

/-- PT and the lattice after a lock window: the lock that starts PT, and the lock of a relock, whose first tick is the origin
of the new lattice (R27, R30, R89). -/
def State.windowClk (s : State) (b k : Nat) (edges : List Nat) : Clk :=
  if s.windowStarts b k edges then s.clk.start
  else if s.windowRelocks b k edges then (match s.tb.relock with
    | some (n, _) => { s.clk with n := n, o := s.now }
    | none => s.clk)
  else s.clk

/-- What the converters have emitted on the old lattice is counted before a relock takes the new one (log entry 176). -/
def State.beforeRelock (s : State) (t : PT) (b k : Nat) (edges : List Nat) : State :=
  if (s.arrive t).windowRelocks b k edges then (s.arrive t).syncAll (s.arrive t).now else s

/-- The comparator fires in a locked sill (R74): the other one's last window within LOCK_TOL convicts it; the other's comparator
fired too, or neither (log entry 170), and the active sill coasts; a LOCKED twin is heard first. -/
def State.comparator (s : State) (b k : Nat) : State :=
  let j := 1 - k
  let x := s.sill b j
  let s1 := s.unlock b k false
  if s1.bit (sillStat b (s1.activeSill b)) 3 then s1
  else if x.fired then
    (s1.setSill b j { s1.sill b j with fired := false }).coastStart b 1 (s1.lastGood b)
  else if x.lastOk then s1.sillFault b k false
  else if s1.bit (sillStat b j) 0 then s1.setSill b k { s1.sill b k with fired := true }
  else s1.coastStart b 1 (s1.lastGood b)

/-- A comparator that waits for its twin's next window hears it (R74). -/
def State.twinHeard (s : State) (b k : Nat) (ok : Bool) : State :=
  let j := 1 - k
  if !(s.sill b j).fired then s
  else
    let s1 := s.setSill b j { s.sill b j with fired := false }
    if s1.bit (sillStat b (s1.activeSill b)) 3 then s1
    else if ok then s1.sillFault b j false
    else s1.coastStart b 1 (s1.lastGood b)

/-- A window of frequency acquisition (R86 step 2): within one count the filter takes over from the word in force, else the
search goes on to a word the spec does not give (log entry 1). -/
def State.acquireWindow (s : State) (b k : Nat) (w : Int × Nat) : State :=
  if w.1.natAbs ≤ 65536 then
    ((s.restartPhase b k).setFld (sillStat b k) 16 3 3)
  else
    let (v, s1) := s.fresh1
    (s1.wr (sillPg b k + Off.SILL_DCO_WORD) (s1.clampWord b k (v % 2 ^ 28))).setFld (sillStat b k) 16 3 2

/-- What a whole window does: LOCK_ERR, the counts of windows within and beyond tolerance, and lock or its loss (R73, R74). -/
def State.judgeWindow (s : State) (b k : Nat) (w : Int × Nat) (start : Bool) (last : Nat) : State :=
  let ok := s.windowOk b k w
  let far := s.windowFar b k w
  let x := s.sill b k
  let y := { x with
    good := if ok && 3 ≤ s.acqState b k then x.good + 1 else 0, bad := if far then x.bad + 1 else 0, lastOk := ok
    goodUpd := if ok && !s.bit (sillStat b k) 3 then some last else x.goodUpd }
  let s1 := (s.setSill b k y).wr (sillPg b k + Off.SILL_LOCK_ERR) (ofSigned 32 (roundDiv (w.1 * 1000000000) w.2))
  if s1.bit (sillStat b k) 0 then (if 2 ≤ y.bad then s1.comparator b k else s1.twinHeard b k ok)
  else if s1.bit (sillStat b k) 3 then s1
  else if s1.acqState b k < 3 then s1.acquireWindow b k w
  else if s1.fld (s1.sillCfg b k + Off.SILL_LOCK_WIN) 8 8 ≤ y.good then s1.lockSill b k start
  else s1.twinHeard b k ok

/-- LOCK_WINDOW: a lock-detector window of a sill ends with the update at `last`, after those at `before`: instants by the
phase of the sill's DCO, in kerfs of PT, or, before PT starts and in a relock, in kerfs of the lattice it locks to (R67–R74,
log entry 168). -/
def execLockWindow (t : PT) (b : Fin 8) (k : Fin 2) (before : List Nat) (last : Nat) (s : State) : Out :=
  let edges := before ++ [last]
  let w := (s.arrive t).window b k edges
  let start := (s.arrive t).windowStarts b k edges
  runClk t (s.beforeRelock t b k edges) (fun _ => (s.arrive t).windowClk b k edges) fun s =>
    if !s.has b || !s.mayLock b k then s
    else
      s.gathered fun s =>
        let s1 := s.updates b k edges
        match w, edges.getLast? with
        | some w, some q => s1.judgeWindow b k w start q
        | _, _ => s1

/-- REF_LOS: no update edge has reached the sills of a bent for 3 reference periods (R73, R74, R77). A relock waits on its
preset word (R90). -/
def execRefLos (t : PT) (b : Fin 8) (ref : LostRef) (s : State) : Out :=
  runAt t s fun s =>
    if !s.has b || !s.clk.running || !s.hasActive b then s
    else
      s.gathered fun s =>
        let k := s.activeSill b
        let s0 := s.each [0, 1] fun s j => if s.bit (sillStat b j) 7 then s else s.updates b j ref.edges
        let s1 := s0.each [0, 1] fun s j =>
          if s.bit (sillStat b j) 7 then s else (s.unlock b j false).raise (sillPg b j) 2
        let s2 := s1.coastStart b (if b.val = s.ridge then 0 else 4) ref.last.toNat
        if s.relocking b k then
          (s2.wr (sillPg b k + Off.SILL_DCO_WORD) (s2.clampWord b k (targetWord (s2.sillN b k)))).setFld (sillStat b k) 16 3 6
        else s2

/-! ### Twin watch and takeover (R75, R80–R82) -/

/-- One update of the trim that nulls the shadow's output towards the active sill (R75): a first-order loop of 1 kHz, within 8
kerfs; trim in 2^−32 of 1/16 kerf. -/
def trimStep (per : Nat × Nat) (trim skew : Int) : Int :=
  clampI (-(128 * 2 ^ 32)) (128 * 2 ^ 32)
    (trim + (skew * 2 ^ 32 - trim) * ((6283185307 * per.1 : Nat) : Int) / ((1000000 * per.2 * secK : Nat) : Int))

/-- The skews of a run of updates as the trim leaves them, in 1/16 kerf, and the trim after it. -/
def trimmed (per : Nat × Nat) (trim : Int) (l : List Int) : List Int × Int :=
  l.foldl (fun x k => (x.1 ++ [roundDiv (k * 2 ^ 32 - x.2) (2 ^ 32)], trimStep per x.2 k)) ([], trim)

/-- The sum of the magnitudes of a list. -/
def sumAbs (l : List Int) : Nat := l.foldl (fun a x => a + x.natAbs) 0

/-- TWIN_WATCH: 64 updates of the twin watch: the skew of the active sill to the shadow at each, in 1/16 kerf and before the
shadow's trim, and e[n] of sills A and B at each. -/
def execTwinWatch (t : PT) (b : Fin 8) (skews errA errB : List Int) (s : State) : Out :=
  runAt t s fun s =>
    let k := s.activeSill b
    let j := 1 - k
    if !s.has b || !s.hasActive b || s.bit (sillStat b j) 7 || s.acqState b j == 0 then s
    else
      let x := trimmed (s.period b j) (s.sill b j).trim skews
      let skew := clampI (-32767) 32767 (x.1.getLast?.getD 0)
      let tol := 16 * s.fld (s.sillCfg b k + Off.SILL_TWIN_TOL) 0 8
      let s1 := (s.wr (sillPg b k + Off.SILL_TWIN_SKEW) (ofSigned 16 skew)).wr (sillPg b j + Off.SILL_TWIN_SKEW)
        (ofSigned 16 (-skew))
      let s2 := s1.setSill b j { s1.sill b j with trim := x.2 }
      if x.1.isEmpty || x.1.any (fun v => decide (v.natAbs ≤ tol)) || (s2.takeover b).isSome then s2
      else if s2.bit (sillStat b k) 3 then (s2.latchHealth (sillPg b k) 0x4C).raise (sillPg b k) 7
      else if sumAbs errA = sumAbs errB then s2
      else s2.gathered fun s => s.sillFault b (if sumAbs errB < sumAbs errA then 0 else 1) true

/-- TAKEOVER: the output switch at the tick boundary chosen by the decision (R80, R81). -/
def execTakeover (t : PT) (b : Fin 8) (s : State) : Out :=
  runAt t s fun s =>
    match s.takeover b with
    | none => s
    | some (x, fault) =>
      if s.now < x then s
      else
        s.gathered fun s =>
          let k := s.activeSill b
          let s1 := (s.setTakeover b none).switchOutputs b
          if fault then (s1.raise (sillPg b k) 7).sillReset b k else s1

/-- SILL_REACQUIRE_TIMEOUT: a sill that was reset has not locked within 1 s (R81); the ridge is lost with its second. -/
def execSillReacquireTimeout (t : PT) (b : Fin 8) (k : Fin 2) (s : State) : Out :=
  runMem t s fun s =>
    match (s.sill b k).acq with
    | none => s
    | some x =>
      if s.now < x + secK then s
      else
        let s1 := ((s.setBit (sillStat b k) 7 true).setFld (sillStat b k) 16 3 0).standing (sillPg b k) 0x4D true
        let s2 := (s1.setSill b k Sill.init).category 2 b (s1.bothFaulted b)
        if s2.bothFaulted b && b.val == s2.ridge then s2.gathered fun s => s.ridgeLost false else s2

/-- A SILL_CMD bit is accepted on the SILLA page only (R91). -/
def State.sillCmd (s : State) (b k : Nat) (f : State → State) : State :=
  s.onlyIf (s.has b) fun s => s.command (sillPg b k) fun s => if k = 1 then s.latchHealth (sillPg b 1) 0x4A else f s

/-- SILL_CMD.SWAP (R81). -/
def execSwap (t : PT) (b : Fin 8) (k : Fin 2) (s : State) : Out :=
  runAt t s fun s => s.sillCmd b k fun s =>
    if s.hasActive b && s.shadowOk b false then s.setTakeover b (some (s.takeoverAt, false))
    else s.latchHealth (sillPg b 0) 0x4B

/-- SILL_CMD.RESTART (R81). -/
def execRestart (t : PT) (b : Fin 8) (k : Fin 2) (s : State) : Out :=
  runAt t s fun s => s.sillCmd b k fun s =>
    (s.each [0, 1] fun s j =>
      if s.bit (sillStat b j) 7 then
        ((s.setBit (sillStat b j) 7 false).standing (sillPg b j) 0x4D false).sillReset b j
      else s).category 2 b false

/-! ### The hold policy and pulls (R78, R79) -/

/-- The sequencers that a coast of a bent concerns (R78). -/
def State.holdSeqs (s : State) (b : Nat) : List Nat := (s.coastsWith b).flatMap fun c => (List.range 16).map fun q => c * 16 + q

/-- PARK acts on a sequencer: at once where no shot runs (R82), else at its shot boundary. -/
def State.parkAt (s : State) (k : Nat) : State :=
  let x := s.seq k
  if x.phase == .planned || x.phase == .trigWait || x.phase == .gateHold || x.phase == .estimating then
    (s.setSeq k { x with parkReq := true }).park k
  else if x.phase == .halted || x.phase == .parked then s
  else s.setSeq k { x with parkReq := true }

/-- HOLD_LIMIT: a coast has lasted HOLD_LIMIT seconds (R78). -/
def execHoldLimit (t : PT) (b : Fin 8) (s : State) : Out :=
  runAt t s fun s =>
    let k := s.activeSill b
    let cfg := s.sillCfg b k
    let lim := s.rd (cfg + Off.SILL_HOLD_LIMIT)
    if s.has b && s.bit (sillStat b k) 3 && !s.bit (sillStat b k) 4 && lim != 0 &&
        decide ((s.sill b k).coastAt + lim * secK ≤ s.now) then
      let s1 := (s.setBit (sillStat b k) 4 true).raise (sillPg b k) 5
      let s2 := if b.val = s1.ridge then s1.category 2 9 true else s1
      if s2.bit (cfg + Off.SILL_SILL_CTRL) 3 && !(s2.sill b k).goOn then s2.each (s2.holdSeqs b) fun s q => s.parkAt q else s2
    else s

/-- SILL_CMD.UNPARK (R78). -/
def execUnpark (t : PT) (b : Fin 8) (k : Fin 2) (s : State) : Out :=
  runAt t s fun s => s.sillCmd b k fun s =>
    let j := s.activeSill b
    let s1 := if s.bit (sillStat b j) 3 then s.setSill b j { s.sill b j with goOn := true } else s
    s1.each (s1.holdSeqs b) fun s q =>
      let x := s.seq q
      if x.phase == .parked then (s.setSeq q { x with parkReq := false }).planNext q (s.granCeil s.now)
      else if x.parkReq then s.setSeq q { x with parkReq := false }
      else s

/-- No lane of the package has a peg due within 1 µs, and no shot is admitted (R79). -/
def State.pullIdle (s : State) : Bool :=
  let due (p : Peg) : Bool := decide (p.pt ≤ s.now + usK)
  !(s.queues.any fun e => e.2.any due) && !(s.flight.any fun e => e.2.any due) &&
    !(s.seqs.any fun e => e.2.shot.isSome || !e.2.tail.isEmpty)

/-- A pull can be over: its profile has run, or, under PULL_AT_IDLE, PHASE_RATE has had the time and the package is idle
(R79). -/
def State.pullOver (s : State) (b : Nat) : Bool :=
  let k := s.activeSill b
  let v := toSigned 32 (s.rd (sillPg b k + Off.SILL_PULL_LEFT))
  match (s.sill b k).pull with
  | none => true
  | some q => if q.idle then s.pullIdle && decide (v.natAbs * usK ≤ q.rate * (s.now - q.at_))
    else pullLeft v.natAbs q.slew (s.now - q.at_) == 0

/-- What an offset that jumps back to nothing leaves behind, so that the expected instants do not move (R69). -/
def State.settleOffset (s0 s : State) : State :=
  let r := s.ridge
  { s with tb := { s.tb with offAcc := s.tb.offAcc + (s0.updOffset r s0.now - s.updOffset r s.now) } }

/-- PULL_DONE: the phase error of a coast is removed (R79). -/
def execPullDone (t : PT) (b : Fin 8) (s : State) : Out :=
  runAt t s fun s =>
    let k := s.activeSill b
    let a := sillPg b k + Off.SILL_PULL_LEFT
    s.onlyIf (s.rd a != 0 && s.pullOver b) fun s => s.gathered fun s =>
      (s.wr a 0).setSill b k { s.sill b k with pull := none }

/-! ### Fine phase steps (R83) -/

/-- PHASE_LEFT of the bent's outputs: on the page of its active sill. -/
def State.phaseLeft (s : State) (b : Nat) : Nat := sillPg b (s.activeSill b) + Off.SILL_PHASE_LEFT

/-- Put PHASE_LEFT as it stands from now on. -/
def State.setPhaseLeft (s : State) (b w : Nat) : State :=
  let k := s.activeSill b
  (s.wr (s.phaseLeft b) w).setSill b k { s.sill b k with phaseAt := s.now }

/-- PHASE_STEP: a signed count of kerfs is written to PHASE_STEP. -/
def execPhaseStep (t : PT) (b : Fin 8) (k : Fin 2) (v : BitVec 24) (s : State) : Out :=
  runAt t s fun s =>
    s.onlyIf (s.has b) fun s => s.command (sillPg b k) fun s =>
      if k = 1 || b.val != s.ridge || s.bit (sillStat b (s.activeSill b)) 5 then s.latchHealth (sillPg b k) 0x4A
      else
        s.gathered fun s =>
          let was := s.phaseNow
          let sum := was + v.toInt
          let (w, s1) := s.fit (decide (-(2 ^ 31 : Int) ≤ sum) && decide (sum < (2 ^ 31 : Int))) 32 (ofSigned 32 sum)
          let s2 := s.settleOffset (s1.setPhaseLeft b w)
          if sum = 0 && was != 0 then s2.raise (sillPg b (s.activeSill b)) 9 else s2

/-- PHASE_DONE: a fine phase step is complete. -/
def execPhaseDone (t : PT) (s : State) : Out :=
  runAt t s fun s =>
    let b := s.ridge
    s.onlyIf (s.rd (s.phaseLeft b) != 0 && s.phaseNow == 0) fun s => s.gathered fun s =>
      (s.setPhaseLeft b 0).raise (sillPg b (s.activeSill b)) 9

/-! ### Relock (R87–R90) -/

/-- The health code of a refused RELOCK: the first condition of R87 that fails. -/
def State.relockBar (s : State) (b : Nat) : Option Nat :=
  let k := s.activeSill b
  if b != s.ridge || s.worker then some 0x46
  else if !s.bit (sillStat b k) 0 || s.bit (sillStat b k) 3 then some 0x47
  else if s.phaseNow != 0 || s.pullNow b != 0 then some 0x48
  else if (s.seqs.any fun e => e.2.shot.isSome || !e.2.tail.isEmpty) || (s.queues.any fun e => !e.2.isEmpty) ||
      (s.flight.any fun e => !e.2.isEmpty) then some 0x49
  else none

/-- A relock to N = `n` begins on every bent (R87–R89): the active sills go to the new lattice, measurements that run end
truncated, corrections that wait are dropped (log entry 191), READY clears, and HOLD_ON_RELOCK of the ridge says whether
outputs hold. -/
def State.relockStart (s : State) (n : Nat) : State :=
  let s := s.syncAll s.now
  let insts := s.calInsts.foldl (fun m e =>
    let x : CalInst := { e.2 with pend := none, delta := e.2.wasDelta.getD e.2.delta, wasDelta := none }
    mapSet (fun _ => CalInst.init) m e.1 x) s.calInsts
  let hold := s.bit (s.sillCfg s.ridge (s.activeSill s.ridge) + Off.SILL_SILL_CTRL) 5
  let tb := { s.tb with relock := some (n, none), relockHold := hold, relockAt := s.now }
  let s1 := { s with tb := tb, readyOff := true, calInsts := insts }
  let s2 := s1.each (List.range s.variant.bents) fun s b =>
    let s3 := s.each [0, 1] fun s k => if s.bit (sillStat b k) 7 then s else s.setBit (sillStat b k) 5 true
    let k := s3.activeSill b
    let s4 := if s3.hasActive b then ((s3.unlock b k true).autoClamp b n).acqStart b k else s3
    let s5 := s4.each (List.range 4) fun s u => s.tiuEnd b u true false
    s5.each [0, 1] fun s e => s.gateClose b e s.now true
  (if hold then s2.holdOutputs else s2).readyUpdate

/-- RELOCK: NEXT_N is written with GO on a SILLA or SILLB page, or, on a joined worker, a relock comes down the tree. -/
def execRelock (t : PT) (b : Fin 8) (k : Fin 2) (n : BitVec 11) (tree : Bool) (s : State) : Out :=
  runMem t s fun s =>
    if tree then
      s.onlyIf (s.joined && decide (1456 ≤ n.toNat) && decide (n.toNat ≤ 2000) && s.tb.relock.isNone) fun s =>
        s.gathered fun s => s.relockStart n.toNat
    else
      s.sillCmd b k fun s =>
        if n.toNat < 1456 ∨ 2000 < n.toNat then s.latchHealth (sillPg b 0) 0x01
        else
          match s.relockBar b with
          | some c => s.latchHealth (sillPg b 0) c
          | none => s.gathered fun s => s.relockStart n.toNat

/-- RELOCK_DONE: the items N have run and the outputs restart (R89); the event stands on the page of each active sill (log entry
171). -/
def execRelockDone (t : PT) (s : State) : Out :=
  runAt t s fun s =>
    match s.tb.relock with
    | some (_, some _) =>
      s.gathered fun s =>
        let s1 := { s with tb := { s.tb with relock := none }, readyOff := false }
        let s2 := s1.each (List.range s1.variant.bents) fun s b =>
          let s3 := s.each [0, 1] fun s k => s.setBit (sillStat b k) 5 false
          (s3.setCal b { s3.cal b with relock := false }).raise (sillPg b (s3.activeSill b)) 8
        s2.releaseOutputs.readyUpdate
    | _ => s

end Sys2Proof.Machine
end

