-- ==== Sys2Proof/Machine/Calibration.lean ====
section
/-!
DEFINITION. Machine/Calibration.lean: power-up and background calibration (R269–R277), corrections and re-interpolation
(R266, R267, R279), and the trim store (R280–R285, R290).
-/

namespace Sys2Proof.Machine

/-- CAL_STAT of a bent. -/
abbrev calStat (b : Nat) : Nat := calPg b + Off.CAL_CAL_STAT

/-- SHIM_STAT of a bent. -/
abbrev shimStat (b : Nat) : Nat := shimPg b + Off.SHIMSTORE_SHIM_STAT

/-- Every instance of a bent: (item, instance). -/
def State.allInsts (s : State) (b : Nat) : List (Nat × Nat) :=
  (List.range 0x14).flatMap fun item => (List.range (s.instances b item)).map fun i => (item, i)

/-! ### The choice of an operation (R270) -/

/-- The cost of an operation in µJ (R322). -/
def bgCost (cls item : Nat) : Nat :=
  if cls = 0 then 20 else if item = 0xC then 200 else if item = 0xE then 200 else if item = 0x10 then 150 else 50

/-- 32 × CAL_MAX_AGE × the score of an instance (R270), with times in kerfs. -/
def State.calScore (s : State) (b item inst : Nat) : Nat :=
  let x := s.calInst b item inst
  let dt := (s.tempNow b - x.temp.getD 0).natAbs
  32 * (s.now - x.since) + dt * (s.rd (calPg b + Off.CAL_CAL_MAX_AGE) * secK)

/-- The resource group of an item's instance (R324); none for the sills and the purlin. -/
def itemGroup (item inst : Nat) : Option Nat :=
  if item ≤ 4 then some 11 else if item ≤ 6 then some 12 else if item ≤ 0xB then some (7 + inst / 3)
  else if item ≤ 0xD then some (inst / 4) else if item ≤ 0xF then some (5 + inst / 8) else none

/-- May the background measure an instance now: its page is not in self-test, its group is at S0, and it is none of those
that stay as they are once faulty (R265, R286, R324)? -/
def State.calFree (s : State) (b item inst : Nat) : Bool :=
  let awake := match itemGroup item inst with
    | none => true
    | some g => s.fld (grpStat b g) 0 2 == 0
  let pg := if item ≤ 4 then edgePg b (inst % 32) else if item ≤ 6 then stampPg b
    else if item ≤ 0xD then (if inst < 16 then bp b (8 + inst / 4) else bp b 0xC)
    else if item ≤ 0xF then bp b (0xD + inst / 8) else sillPg b (inst % 2)
  awake && !s.bit (pg + Off.PG_PAGE_STAT) 3 && !(decide (0xC ≤ item) && (s.calInst b item inst).faulty)

/-- May channel `ch`'s engine go to the trestle: ROTATE_EN, and the trestle not spared, failed or busy (R271 step 1)? -/
def State.engineFree (s : State) (b ch : Nat) : Bool :=
  let pg := edgePg b ch
  let st := pg + Off.EDGE_GRP_STAT
  s.bit (pg + Off.EDGE_GRP_CTRL) 0 && !s.bit st 3 && !s.bit st 4 && s.fld st 8 8 == 0 && s.calFree b 1 ch &&
    !s.bit (chStat b ch) 13

/-- What an operation of a class may be run on: (item, instance), item 0 for a whole edge engine. -/
def State.bgChoices (s : State) (b cls : Nat) : List (Nat × Nat) :=
  let coast := s.bit (sillStat b (s.activeSill b)) 3
  if cls = 0 then ((List.range 32).filter fun c => s.engineFree b c).map fun c => (0, c)
  else (s.allInsts b).filter fun e =>
    itemClass e.1 == cls && cls != 2 && e.1 != 5 && s.calFree b e.1 e.2 &&
      (e.1 != 0x10 || (!coast && s.activeSill b != e.2 && s.bit (sillStat b e.2) 0)) &&
      (e.1 != 0x11 || (!coast && s.bit (sillStat b e.2) 0))

/-- The rank of a choice: named by RUN_ITEM, not yet measured since RUN_PASS, and its score; an engine takes its highest
item's. -/
def State.bgRank (s : State) (b : Nat) (e : Nat × Nat) : Nat × Nat × Nat :=
  let x := s.cal b
  let items := if e.1 = 0 then [1, 2, 3, 4] else [e.1]
  let named := match x.next with
    | none => false
    | some n => items.contains n.1 && n.2 == e.2
  let due := x.passAt != 0 && items.any fun i => decide ((s.calInst b i e.2).ran < x.passAt)
  (b2n named, b2n due, items.foldl (fun m i => max m (s.calScore b i e.2)) 0)

/-- Does one rank stand above another? -/
def rankAbove (a b : Nat × Nat × Nat) : Bool :=
  decide (b.1 < a.1) || (a.1 == b.1 && (decide (b.2.1 < a.2.1) || (a.2.1 == b.2.1 && decide (b.2.2 < a.2.2))))

/-- The highest-ranked choice of a class; ties go to the earlier one. -/
def State.bgPick (s : State) (b cls : Nat) : Option (Nat × Nat) :=
  (s.bgChoices b cls).foldl (fun m e =>
    match m with
    | none => some e
    | some y => if rankAbove (s.bgRank b e) (s.bgRank b y) then some e else m) none

/-- Take an operation off a bent's list, with its cost (R322). -/
def State.bgEnd (s : State) (b : Nat) (op : BgOp) : State :=
  (s.setCal b { s.cal b with ops := (s.cal b).ops.filter fun o => o != op }).marginGive op.cost

/-- Put an operation in another's place. -/
def State.bgPut (s : State) (b : Nat) (op op' : BgOp) : State :=
  s.setCal b { s.cal b with ops := (s.cal b).ops.map fun o => if o = op then op' else o }

/-- The operation of a class that runs. -/
def State.bgOp (s : State) (b cls : Nat) : Option BgOp := (s.cal b).ops.find? fun o => o.cls == cls

/-- CAL_START: the foreman starts the highest-scoring operation of a class (R270). -/
def execCalStart (t : PT) (b : Fin 8) (cls : Fin 6) (s : State) : Out :=
  runAt t s fun s =>
    if !s.bgRuns b || !s.pwrup b || (s.bgOp b cls).isSome then s
    else
      match s.bgPick b cls with
      | none => s
      | some (item, inst) =>
        let cost := bgCost cls item
        if !s.marginFor cost then s
        else
          let x := s.cal b
          let named := x.next == some (item, inst) || (item == 0 && x.next.any fun n => n.2 == inst && decide (n.1 ≤ 4))
          let op : BgOp := { cls := cls, item := item, inst := inst, step := 1, since := s.now, done := [], cost := cost }
          (s.marginTake cost).setCal b { x with ops := x.ops ++ [op], next := if named then none else x.next }

/-! ### Measurements (R264, R265, R269, R271) -/

/-- What R265 does with a resource that has just been judged faulty. -/
def State.judgeFaulty (s : State) (b item inst : Nat) : State :=
  if item ≤ 4 ∧ 32 ≤ inst then
    let pg := bp b (4 + (inst - 32))
    (s.setBit (pg + Off.EDGE_GRP_STAT) 4 true).standing pg 0x45 true
  else if item = 5 then s.lathRetire b (inst / 4) (inst % 4)
  else if 7 ≤ item ∧ item ≤ 0xB then
    (s.setBit (capPg b (inst / 3) + Off.CAP_SLICE_STAT) (6 + inst % 3) true).standing (capPg b (inst / 3)) 0x82 true
  else if 0x10 ≤ item ∧ item ≤ 0x12 ∧ s.activeSill b ≠ inst then
    let s1 := (s.setBit (sillStat b inst) 7 true).standing (sillPg b inst) 0x4D true
    s1.category 2 b (s1.bothFaulted b)
  else s

/-- A measurement ends, with the outcome of R265 (R264, R276); `ran` notes the pass. -/
def State.calTake (s : State) (b item inst : Nat) (m : Option (List Int)) (active out : Bool) : State :=
  let s1 := s.calMeasure b item inst m active out
  let s2 := s1.setInst b item inst { s1.calInst b item inst with ran := s.now }
  if turnedFaulty s s2 b item inst then s2.judgeFaulty b item inst else s2

/-- Was the last measurement of an instance not rejected: accepted, or held by a store? -/
def State.accepted? (s : State) (b item inst : Nat) : Bool :=
  (s.calInst b item inst).rejects == 0 || (s.calInst b item inst).held.isSome

/-- A measurement belongs to an engine calibration: step 1 measures the trestle, step 3 the engine (R271 steps 2, 4). -/
def State.engineTake (s : State) (b : Nat) (op : BgOp) (item inst : Nat) (m : Option (List Int)) : State :=
  let g := op.inst / 8
  if op.step = 1 ∧ inst = 32 + g ∧ [1, 2, 4].contains item then
    let s1 := s.calTake b item inst m true true
    if !s1.accepted? b item inst then s1.bgEnd b op
    else
      let d := item :: op.done
      let all_ := [1, 2, 4].all d.contains
      s1.bgPut b op (if all_ then { op with step := 2, since := s.now, done := [] } else { op with done := d })
  else if op.step = 3 ∧ inst = op.inst ∧ [1, 2, 3, 4].contains item then
    let s1 := s.calTake b item inst m true true
    let pg := edgePg b op.inst
    if turnedFaulty s s1 b item inst && s1.bit (pg + Off.EDGE_GRP_CTRL) 1 then
      (s1.setBit (pg + Off.EDGE_GRP_STAT) (8 + op.inst % 8) true).bgEnd b op
    else
      let d := item :: op.done
      let all_ := [1, 2, 3, 4].all d.contains
      s1.bgPut b op (if all_ then { op with step := 4, since := s.now, done := [] } else { op with done := d })
  else s

/-- Is a slice measured inside the rotation that runs (R272): 0x0A of the spare in step 2, the others of the slice in CAL? -/
def State.sliceTakes (s : State) (b item inst : Nat) : Bool :=
  let i := inst / 3
  match (s.cap b i).rot with
  | none => false
  | some r => if item = 0xA then !r.swapped && s.sliceRole b i (inst % 3) == 2
    else r.swapped && s.sliceRole b i (inst % 3) == 3

/-- CAL_MEASUREMENT: a measurement of an instance ends: at power-up, after a relock, in a slice rotation or in a background
operation (R264, R269, R271, R272, R276). A complete one has every element of the instance. -/
def execCalMeasurement (t : PT) (b : Fin 8) (item : Fin 32) (inst : Fin 64) (m : List Int) (complete active : Bool)
    (s : State) : Out :=
  runAt t s fun s =>
    let r := if complete then some m else none
    if !s.has b || !s.instExists b item inst || (complete && m.length != itemElems item) then s
    else if (s.bit (calStat b) 0 && itemP item) || ((s.cal b).relock && itemN item) then s.calTake b item inst r active true
    else if decide (7 ≤ item.val) && decide (item.val ≤ 0xB) then
      (if s.sliceTakes b item inst then s.calTake b item inst r active true else s)
    else
      match s.bgOp b (itemClass item) with
      | none => s
      | some op =>
        if op.cls = 0 then s.engineTake b op item inst r
        else if op.item = item ∧ op.inst = inst then
          let out := item.val = 0xC || item.val = 0x10 || (item.val = 0x12 && s.activeSill b != inst.val)
          (s.calTake b item inst r active out).bgEnd b op
        else s

/-- TRESTLE_TAKEOVER: at a clear tick the trestle takes the engine's place (R271 step 3). -/
def execTrestleTakeover (t : PT) (b : Fin 8) (g : Fin 4) (s : State) : Out :=
  runAt t s fun s =>
    match s.bgOp b 0 with
    | none => s
    | some op =>
      let st := edgePg b op.inst + Off.EDGE_GRP_STAT
      if op.step = 2 ∧ op.inst / 8 = g ∧ s.clearTick b op.inst ∧ s.fld st 3 2 = 0 ∧ s.fld st 8 8 = 0 then
        let s1 := ((s.setFld st 0 3 (op.inst % 8)).setBit st 3 true).setBit (chStat b op.inst) 4 true
        (s1.bgPut b op { op with step := 3, since := s.now, done := [] }).calRaise b 4 1 op.inst
      else s

/-- TRESTLE_RETURN: the engine takes its state back (R271 step 5). -/
def execTrestleReturn (t : PT) (b : Fin 8) (g : Fin 4) (s : State) : Out :=
  runAt t s fun s =>
    match s.bgOp b 0 with
    | none => s
    | some op =>
      if op.step = 4 ∧ op.inst / 8 = g ∧ s.clearTick b op.inst ∧ s.foremanRuns b then
        let st := edgePg b op.inst + Off.EDGE_GRP_STAT
        (((s.setFld st 0 3 0).setBit st 3 false).setBit (chStat b op.inst) 4 false).bgEnd b op
      else s

/-- SPARE_TAKEOVER: under AUTO_SPARE the trestle takes the place of an engine that has failed its loopback checks, for good, at a clear
tick (R98, R265). A calibration of the group that has the trestle on loopback ends. -/
def execSpareTakeover (t : PT) (b : Fin 8) (ch : Fin 32) (s : State) : Out :=
  runAt t s fun s =>
    let pg := edgePg b ch
    let c := ch.val % 8
    let st := pg + Off.EDGE_GRP_STAT
    let failed := [1, 2, 3, 4].any fun i => (s.calInst b i ch).faulty
    if s.has b && failed && s.bit (pg + Off.EDGE_GRP_CTRL) 1 && s.fld st 3 2 == 0 && s.fld st 8 8 == 0 && s.clearTick b ch then
      let s1 := match s.bgOp b 0 with
        | none => s
        | some op => if op.inst / 8 = ch.val / 8 then s.bgEnd b op else s
      (((s1.setFld st 0 3 c).setBit st 3 true).setBit st (8 + c) true).setBit (chStat b ch) 4 true
    else s

/-- CAL_WAIT_MAX in kerfs. -/
def State.calWaitMax (s : State) (b : Nat) : Nat := s.rd (calPg b + Off.CAL_CAL_WAIT_MAX) * (1000 * usK)

/-- TAKEOVER_ABANDON: no takeover tick within CAL_WAIT_MAX (R271). -/
def execTakeoverAbandon (t : PT) (b : Fin 8) (g : Fin 4) (s : State) : Out :=
  runAt t s fun s =>
    match s.bgOp b 0 with
    | none => s
    | some op =>
      if op.step = 2 ∧ op.inst / 8 = g ∧ op.since + s.calWaitMax b ≤ s.now then s.bgEnd b op else s

/-! ### Corrections (R266, R267, R279) -/

/-- The sequencers held for a boundary: every sequencer that runs and gates is at its end of shot (of frame, for a frame
boundary) (R138). -/
def State.allGated (s : State) (frame : Bool) : Bool :=
  s.seqs.all fun e => !(s.gates e.1) || e.2.phase == .halted || e.2.phase == .parked ||
    (e.2.phase == .gateHold && (!frame || !e.2.frameOpen))

/-- The boundary of a shot or frame commit, once every gating sequencer is held: the first granule boundary at or after
the latest C_end, or, with none held, after the request (R138). -/
def State.gateBoundary (s : State) (asked : Nat) : Nat :=
  let held := s.seqs.filter fun e => e.2.phase == .gateHold
  if held.isEmpty then s.granCeil asked else s.granCeil (held.foldl (fun m e => max m e.2.cEnd) 0)

/-- Sequencers that nothing holds any more plan their next shots from a boundary (R138). -/
def State.releaseHeld (s : State) (x : Nat) : State :=
  s.seqs.foldl (fun s e =>
    let y := s.seq e.1
    if y.phase == .gateHold && !s.gatePending (!y.frameOpen) then s.planNext e.1 x else s) s

/-- The lane that an instance's correction waits for (R266 IDLE): an edge channel, a tone lane of a DAC, a flux channel or a
capture input. -/
def itemLanes (b item inst : Nat) : List Nat :=
  if item ≤ 4 then (if inst < 32 then [laneAddr b 0 inst] else [])
  else if 7 ≤ item ∧ item ≤ 0xB then [laneAddr b 4 (inst / 3)]
  else if 0xC ≤ item ∧ item ≤ 0xD then
    (if inst < 16 then (List.range 4).map fun k => laneAddr b 1 (4 * inst + k)
     else (List.range 16).map fun k => laneAddr b 2 (16 * (inst - 16) + k))
  else if 0xE ≤ item ∧ item ≤ 0xF then [laneAddr b 3 inst]
  else []

/-- Is a lane idle: no effect or window runs, and no peg has a PT within the next 1 µs (R266)? -/
def State.laneIdle (s : State) (lane : Nat) : Bool :=
  let b := laneBent lane
  let i := laneIdx lane
  ((s.queue lane).all fun p => decide (s.now + usK < p.pt)) &&
    (if laneKind lane = 0 then ((s.edge b i).upto (s.chRest b i) s.now).eff.isNone
     else if laneKind lane = 4 then (s.cap b i).wins.isEmpty && (s.cap b i).cont.isNone
     else if laneKind lane ≤ 3 then (match (s.tone lane).pulse with
       | none => true
       | some q => decide (q.end_ ≤ s.now))
     else true)

/-- Has a correction reached its boundary (R266)? A stamp input is idle once it has stamped no edge for 1 µs. -/
def State.calBoundary (s : State) (b item inst : Nat) (asked : Nat) : Bool :=
  let kind := s.calKind b (itemClass item)
  if kind = 1 then
    (if item = 5 ∨ item = 6 then
       (match (s.stampIn b (if item = 5 then inst / 4 else inst)).last with
        | none => true
        | some x => decide (x + usK ≤ s.now))
     else (itemLanes b item inst).all s.laneIdle)
  else if kind = 2 then decide (s.granCeil asked ≤ s.now)
  else if kind = 3 ∨ kind = 4 then s.allGated (kind == 4) && decide (s.gateBoundary asked ≤ s.now)
  else true

/-- A purlin skew applies: it reads in SKEWb, and what it changes is removed as a fine phase step of the follower (R266, R341). -/
def State.skewMove (s : State) (b : Nat) (was : Int) : State :=
  let now := s.trim b 0x13 0 0
  let k := s.activeSill b
  let left := clampI (-(2 ^ 31)) (2 ^ 31 - 1) (s.phaseLeftAt b k s.now + roundDiv (now - was) 16)
  ((s.wr (purlinPg + Off.PURLIN_SKEW b) (ofSigned 32 now)).wr (sillPg b k + Off.SILL_PHASE_LEFT) (ofSigned 32 left)).setSill b k
    { s.sill b k with phaseAt := s.now }

/-- A correction applies (R266): all elements of the instance work with the values in force. -/
def State.correct (s : State) (b item inst : Nat) : State :=
  let s0 := s.syncBent b s.now
  let s1 := s0.setInst b item inst { s0.calInst b item inst with pend := none, applied := none, wasDelta := none }
  if item = 0x13 then s1.skewMove b (s0.trim b item inst 0) else s1

/-- CORRECTION_APPLY: a correction reaches its boundary (R266). -/
def execCorrectionApply (t : PT) (b : Fin 8) (item : Fin 32) (inst : Fin 64) (s : State) : Out :=
  runAt t s fun s =>
    match (s.calInst b item inst).pend with
    | none => s
    | some x =>
      if s.calBoundary b item inst x then
        let kind := s.calKind b (itemClass item)
        let y := s.gateBoundary x
        let s1 := s.correct b item inst
        if kind = 3 ∨ kind = 4 then s1.releaseHeld y else s1
      else s

/-- FORCED_APPLY: a correction has waited CAL_WAIT_MAX and applies at the next granule boundary (R267). -/
def execForcedApply (t : PT) (b : Fin 8) (item : Fin 32) (inst : Fin 64) (s : State) : Out :=
  runAt t s fun s =>
    match (s.calInst b item inst).pend with
    | none => s
    | some x =>
      if s.granCeil (x + s.calWaitMax b) ≤ s.now then
        let s1 := (s.correct b item inst).bump (calPg b + Off.CAL_FORCED_COUNT)
        (s1.calRaise b 6 item inst).releaseHeld (s.granCeil s.now)
      else s

/-- Is an instance out of service, so that a correction takes effect in it at once (R268): an engine on loopback, a slice in the CAL
role, a withdrawn lath, or the shadow sill? -/
def State.outOf (s : State) (b item inst : Nat) : Bool :=
  if item ≤ 4 then (if inst < 32 then s.bit (chStat b inst) 4
    else !s.bit (bp b (4 + (inst - 32)) + Off.EDGE_GRP_STAT) 3)
  else if item = 5 then (match (s.stampIn b (inst / 4)).withdrawn with
    | none => false
    | some w => w.1 == inst % 4)
  else if 7 ≤ item ∧ item ≤ 0xB then s.sliceRole b (inst / 3) (inst % 3) == 3
  else 0x10 ≤ item && item ≤ 0x12 && s.activeSill b != inst

/-- Instances whose values have changed since the state `old` are submitted as corrections (R279). -/
def State.resubmit (s old : State) (b : Nat) : State :=
  (s.allInsts b).foldl (fun s e =>
    let was := old.values b e.1 e.2
    if s.values b e.1 e.2 = was then s else s.calSubmit b e.1 e.2 was (s.outOf b e.1 e.2)) s

/-- REINTERPOLATE: TEMP_NOW has departed from TEMP_INTERP by TEMP_STEP (R279). -/
def execReinterpolate (t : PT) (b : Fin 8) (s : State) : Out :=
  runAt t s fun s =>
    if s.has b && s.foremanRuns b && s.bit (calPg b + Off.CAL_CAL_CTRL) 1 && !s.fenced (calPg b) &&
        decide (s.fld (calPg b + Off.CAL_TEMP_STEP) 0 6 ≤ (s.tempNow b - s.tempInterp b).natAbs) then
      (s.setInterp b (s.tempNow b)).resubmit s b
    else s

/-- CAL_STALE: an instance has had no accepted measurement for CAL_MAX_AGE (R277). -/
def execCalStale (t : PT) (b : Fin 8) (item : Fin 32) (inst : Fin 64) (s : State) : Out :=
  runAt t s fun s =>
    let x := s.calInst b item inst
    if s.has b && s.instExists b item inst && s.pwrup b && !x.stale &&
        decide (x.since + s.rd (calPg b + Off.CAL_CAL_MAX_AGE) * secK ≤ s.now) then
      ((s.setInst b item inst { x with stale := true }).staleMap b item).calRaise b 2 item inst
    else s

/-! ### Power-up (R269, R433) -/

/-- Every instance of every item P has been measured since the foreman began, accepted or not (R269). -/
def State.allMeasured (s : State) (b : Nat) : Bool :=
  (s.allInsts b).all fun e => !itemP e.1 || (s.calInst b e.1 e.2).acc.isSome || (s.calInst b e.1 e.2).rejects != 0

/-- PWRUP_DONE: power-up calibration of a bent completes. Ages of instances with no acceptance count from here, every group
is at S0, and a store that waits for it, or that AUTO_STORE asks for, is due (R269, R280, R325). -/
def execPwrupDone (t : PT) (b : Fin 8) (s : State) : Out :=
  runAt t s fun s =>
    if s.bit (calStat b) 0 && s.foremanRuns b && s.allMeasured b then
      let s1 := (((s.setBit (calStat b) 0 false).setBit (calStat b) 1 true).standing (calPg b) 0xB4 false).raise (calPg b) 0
      let s2 := (s1.allInsts b).foldl (fun s e =>
        let x := s.calInst b e.1 e.2
        if x.acc.isNone then s.setInst b e.1 e.2 { x with since := s.now } else s) s1
      let s3 := s2.each (List.range 13) fun s g => s.setFld (grpStat b g) 0 2 0
      let s4 := (s3.setBit (shimStat b) 7 false).standing (shimPg b) 0xC4 false
      (s4.setCal b { s4.cal b with autoAt := some s4.now }).readyUpdate
    else s

/-- PWRUP_TIMEOUT: power-up calibration is not done 400 ms after the first lock (R433). -/
def execPwrupTimeout (t : PT) (b : Fin 8) (s : State) : Out :=
  runAt t s fun s =>
    match (s.cal b).lockAt with
    | none => s
    | some x =>
      if s.bit (calStat b) 0 && decide (x + 400 * 1000 * usK ≤ s.now) then s.standing (calPg b) 0xB4 true else s

/-- CAL_CMD.RUN_PASS (R287). -/
def execRunPass (t : PT) (b : Fin 8) (s : State) : Out :=
  runAt t s fun s => s.onlyIf (s.has b) fun s => s.startCmd (calPg b) fun s => s.setCal b { s.cal b with passAt := s.now }

/-- CAL_CMD.RUN_ITEM (R287). -/
def execRunItem (t : PT) (b : Fin 8) (s : State) : Out :=
  runAt t s fun s => s.onlyIf (s.has b) fun s => s.startCmd (calPg b) fun s =>
    let w := s.rd (calPg b + Off.CAL_CAL_SEL)
    if !s.instExists b (bits w 0 8) (bits w 8 8) || (s.calInst b (bits w 0 8) (bits w 8 8)).faulty then
      s.latchHealth (calPg b) 0xB5
    else s.setCal b { s.cal b with next := some (bits w 0 8, bits w 8 8) }

/-! ### The trim store (R280–R285) -/

/-- The points of the copy in force (R282). -/
def State.copyPoints (s : State) (b : Nat) : List ShimPoint :=
  let x := s.cal b
  if s.bit (shimStat b) 7 then []
  else if s.bit (shimStat b) 6 then factoryPoints
  else if s.bit (shimStat b) 3 then x.copyB.points else x.copyA.points

/-- The working set of a bent, with POINTS. -/
def State.setWork (s : State) (b : Nat) (l : List ShimPoint) : State :=
  (s.setCal b { s.cal b with work := l }).setFld (shimStat b) 8 4 l.length

/-- Place a point by temperature. -/
def insertPoint (l : List ShimPoint) (p : ShimPoint) : List ShimPoint :=
  match l with
  | [] => [p]
  | q :: r => if p.temp ≤ q.temp then p :: q :: r else q :: insertPoint r p

/-- The point of a list nearest a temperature. -/
def nearestPoint (tc : Int) (l : List ShimPoint) : Option ShimPoint :=
  l.foldl (fun m p =>
    match m with
    | none => some p
    | some q => if (p.temp - tc).natAbs < (q.temp - tc).natAbs then some p else m) none

/-- The points with a new one: in place of one within MERGE_BAND, added, or in place of the nearest that was not written at
manufacture (R280). -/
def mergePoint (l : List ShimPoint) (p : ShimPoint) (band : Nat) : List ShimPoint :=
  let out := match nearestPoint p.temp l with
    | none => none
    | some q => if (q.temp - p.temp).natAbs ≤ band then some q
      else if l.length < 8 then none else nearestPoint p.temp (l.filter fun q => !q.factory)
  match out with
  | none => insertPoint l p
  | some q => insertPoint (l.filter fun x => x.temp != q.temp) p

/-- The point a STORE writes: every value in force at TEMP_NOW (R280). -/
def State.storePoint (s : State) (b : Nat) : ShimPoint :=
  let tc := s.tempNow b
  let vals := (s.allInsts b).foldl (fun m e =>
    let key := instKey e.1 e.2
    mapSet (fun _ => []) m key ((List.range (itemElems e.1)).map fun j => s.inForce b e.1 e.2 j tc)) []
  { temp := tc, pt := s.now, gen := s.ptGen, factory := false, vals := vals }

/-- The level of PWR_FAIL_N. -/
def State.pwrGood (s : State) : Bool := s.bit (pkgp 0 + Off.PKG_PWR_STAT) 0

/-- VHOLD_MEAS and VHOLD_LOW (R410). -/
def State.vholdMeas (s : State) (mv : Nat) : State :=
  let low := decide (mv < 2800)
  let was := s.bit (pkgp 0 + Off.PKG_PWR_STAT) 1
  let s1 := ((s.wr (pkgp 0 + Off.PKG_VHOLD_MEAS) mv).setBit (pkgp 0 + Off.PKG_PWR_STAT) 1 low).standing (pkgp 0) 0xAD low
  if low && !was then s1.raise (pkgp 0) 6 else s1

/-- The hold-up check (R283 steps 2 and 3) with VHOLD at `v` µV before the discharge step and a drop of `drop` µV: HOLD_CAP
and HOLD_ENERGY, and whether twice the need is there and PWR_FAIL_N is high. A drop of 0 leaves the two values open. -/
def State.holdUp (s : State) (b v drop need : Nat) : State × Bool :=
  let num := v * v - 6250000000000
  let den := 200000 * drop
  let (c, s1) := s.fit (drop != 0) 32 (roundDiv 10000000 drop).toNat
  let (e, s2) := s1.fit (drop != 0) 32 (roundDiv (num : Int) den).toNat
  let s3 := ((s2.wr (shimPg b + Off.SHIMSTORE_HOLD_CAP) c).wr (shimPg b + Off.SHIMSTORE_HOLD_ENERGY) e).vholdMeas (v / 1000)
  (s3.wr (shimPg b + Off.SHIMSTORE_STORE_NEED) need, decide (2 * need * den ≤ num) && s.pwrGood)

/-- Another bent is storing. -/
def State.otherStores (s : State) (b : Nat) : Bool := (s.others b).any fun c => s.bit (shimStat c) 0

/-- The deferral of a store (R283 step 3). -/
def State.storeDefer (s : State) (b : Nat) : State :=
  let s1 := ((s.setBit (shimStat b) 1 true).setBit (shimStat b) 2 false).bump (shimPg b + Off.SHIMSTORE_DEFER_COUNT)
  ((s1.standing (shimPg b) 0xC2 true).raise (shimPg b) 1).setCal b { s1.cal b with storeReq := true, storeAt := s1.now }

/-- A store that may start makes its hold-up check, and writes the copy not in force (R283 steps 1–4). -/
def State.storeTry (s : State) (b v drop : Nat) : State :=
  if s.bit (shimStat b) 0 then s
  else if !s.pwrup b then s.setCal b { s.cal b with storeReq := true }
  else if s.otherStores b then (s.setBit (shimStat b) 2 true).setCal b { s.cal b with storeReq := true }
  else
    let (s1, ok) := s.holdUp b v drop 300
    if !ok then s1.storeDefer b
    else
      let x := s1.cal b
      let cur := if s1.bit (shimStat b) 3 then x.copyB.seq else x.copyA.seq
      let seq := if s1.bit (shimStat b) 6 || s1.bit (shimStat b) 7 then 0 else cur
      let pts := mergePoint x.work (s1.storePoint b) (s1.fld (shimPg b + Off.SHIMSTORE_MERGE_BAND) 0 8)
      let copy : TrimCopy := { valid := true, seq := (seq + 1) % 2 ^ 32, points := pts }
      let toA := s1.bit (shimStat b) 3
      let y := { x with prep := some copy, storeReq := false, storeAt := s1.now }
      let y := if toA then { y with copyA := { y.copyA with valid := false } } else { y with copyB := { y.copyB with valid := false } }
      let st := putBits (putBits (putBits (s1.rd (shimStat b)) 0 1 1) 1 2 0) (if toA then 4 else 5) 1 0
      ((s1.setCal b y).wr (shimStat b) st).standing (shimPg b) 0xC2 false

/-- SHIM_CMD.STORE (R283): `v` and `drop` are what the hold-up check measures, in µV. -/
def execStore (t : PT) (b : Fin 8) (v drop : Word) (s : State) : Out :=
  runAt t s fun s => s.onlyIf (s.has b) fun s => s.startCmd (shimPg b) fun s =>
    s.onlyIf (s.enabled (shimPg b) && !s.draining (shimPg b)) fun s => s.storeTry b v.toNat drop.toNat

/-- May the foreman start a store of its own: it runs, and the SHIMSTORE page works? -/
def State.storeRuns (s : State) (b : Nat) : Bool :=
  s.has b && s.foremanRuns b && s.enabled (shimPg b) && !s.draining (shimPg b) && !s.fenced (shimPg b)

/-- AUTO_STORE: at PWRUP_DONE and every AUTO_PERIOD hours (R280). -/
def execAutoStore (t : PT) (b : Fin 8) (v drop : Word) (s : State) : Out :=
  runAt t s fun s =>
    match (s.cal b).autoAt with
    | none => s
    | some x =>
      if s.storeRuns b && s.bit (shimPg b + Off.SHIMSTORE_SHIM_CTRL) 0 && decide (x ≤ s.now) then
        let h := s.fld (shimPg b + Off.SHIMSTORE_SHIM_CTRL) 8 8
        (s.setCal b { s.cal b with autoAt := if h = 0 then none else some (x + h * 3600 * secK) }).storeTry b v.toNat drop.toNat
      else s

/-- STORE_RETRY: a store that waits, or was deferred RETRY_MS ago, tries again, in bent order (R283). -/
def execStoreRetry (t : PT) (b : Fin 8) (v drop : Word) (s : State) : Out :=
  runAt t s fun s =>
    let x := s.cal b
    let due := !s.bit (shimStat b) 1 ||
      decide (x.storeAt + s.rd (shimPg b + Off.SHIMSTORE_RETRY_MS) * (1000 * usK) ≤ s.now)
    let first := (List.range b.val).all fun c => !s.bit (shimStat c) 2
    if x.storeReq && s.storeRuns b && due && first && s.pwrup b then s.storeTry b v.toNat drop.toNat else s

/-- Every δ of a bent becomes 0 (R263, R280). -/
def State.clearDeltas (s : State) (b : Nat) : State :=
  (s.allInsts b).foldl (fun s e => s.setInst b e.1 e.2 { s.calInst b e.1 e.2 with delta := [], wasDelta := none }) s

/-- Measurements held by a store are taken against the set then in force (R283). -/
def State.heldTake (s : State) (b : Nat) : State :=
  ((s.allInsts b).foldl (fun s e =>
    let x := s.calInst b e.1 e.2
    match x.held with
    | none => s
    | some m => (s.setInst b e.1 e.2 { x with held := none }).calAccept b e.1 e.2 m false) s).setBit (calStat b) 7 false

/-- STORE_DONE: the copy is written and read back, and is the copy in force (R280, R283 step 5). -/
def execStoreDone (t : PT) (b : Fin 8) (s : State) : Out :=
  runAt t s fun s =>
    match (s.cal b).prep with
    | none => s
    | some c =>
      if !s.bit (shimStat b) 0 then s
      else
        let toA := s.bit (shimStat b) 3
        let x := { s.cal b with prep := none }
        let y := if toA then { x with copyA := c } else { x with copyB := c }
        let st := putBits (putBits (putBits (putBits (s.rd (shimStat b)) 0 1 0) 3 1 (b2n !toA)) (if toA then 4 else 5) 1 1) 6 2 0
        let s1 := (((s.setCal b y).wr (shimStat b) st).standing (shimPg b) 0xC1 false).standing (shimPg b) 0xC4 false
        let s2 := (s1.setWork b c.points).clearDeltas b
        let s2 := ((s2.setInterp b (s2.tempInterp b)).resubmit s b).bump (shimPg b + Off.SHIMSTORE_STORE_COUNT)
        (s2.raise (shimPg b) 0).heldTake b

/-- A store stops part-way: the partial copy stays invalid (R284). -/
def State.storeAbort (s : State) (b : Nat) : State :=
  if !s.bit (shimStat b) 0 then s
  else
    let s1 := (s.setCal b { s.cal b with prep := none }).setBit (shimStat b) 0 false
    (((s1.latchHealth (shimPg b) 0xC3).bump (shimPg b + Off.SHIMSTORE_ABORT_COUNT)).raise (shimPg b) 2).heldTake b

/-- STORE_STALL: an MRAM write has stalled for 100 ms (R284). -/
def execStoreStall (t : PT) (b : Fin 8) (s : State) : Out :=
  runAt t s fun s => if (s.cal b).storeAt + 100 * 1000 * usK ≤ s.now then s.storeAbort b else s

/-- SHIM_CMD.CANCEL (R283). -/
def execShimCancel (t : PT) (b : Fin 8) (s : State) : Out :=
  runAt t s fun s => s.onlyIf (s.has b) fun s => s.command (shimPg b) fun s =>
    if s.bit (shimStat b) 1 then
      ((s.setBit (shimStat b) 1 false).standing (shimPg b) 0xC2 false).setCal b { s.cal b with storeReq := false }
    else s

/-- SHIM_CMD.DELETE (R280). -/
def execDelete (t : PT) (b : Fin 8) (s : State) : Out :=
  runAt t s fun s => s.onlyIf (s.has b) fun s => s.command (shimPg b) fun s =>
    let i := s.fld (shimPg b + Off.SHIMSTORE_SHIM_SEL) 0 3
    let w := (s.cal b).work
    if w.length ≤ i then s
    else if w.length < 3 then s.latchHealth (shimPg b) 0xC5
    else
      let s1 := s.setWork b (w.eraseIdx i)
      (s1.setInterp b (s1.tempInterp b)).resubmit s b

/-- SHIM_CMD.RELOAD (R290). -/
def execReload (t : PT) (b : Fin 8) (s : State) : Out :=
  runAt t s fun s => s.onlyIf (s.has b) fun s => s.command (shimPg b) fun s =>
    let s1 := (s.setWork b (s.copyPoints b)).clearDeltas b
    (s1.setInterp b (s1.tempInterp b)).resubmit s b

end Sys2Proof.Machine
end

