-- ==== Sys2Proof/Machine/Energy.lean ====
section
/-!
DEFINITION. Machine/Energy.lean: the meters and the account (R315–R322), the power ladder (R323–R328) and the pace loop
(R329, R330).
-/

namespace Sys2Proof.Machine

/-- The ENERGY page of a bent. -/
abbrev energyPg (b : Nat) : Nat := bp b 0x19

/-- The PACE page of a bent. -/
abbrev pacePg (b : Nat) : Nat := bp b 0x1A

/-- The LEDGER page. -/
abbrev ledgerPg : Nat := pkgp 3

/-- A bent's meters. -/
def State.meter (s : State) (b : Nat) : Meter := mapGet (fun _ => Meter.init) s.meters b

/-- Put a bent's meters. -/
def State.setMeter (s : State) (b : Nat) (x : Meter) : State :=
  { s with meters := mapSet (fun _ => Meter.init) s.meters b x }

/-! ### Measuring and the account (R315–R322) -/

/-- The four rail energies of a bent in a report that lists all bents in order. -/
def railsOf (l : List Nat) (b : Nat) : List Nat := (List.range 4).map fun r => l.getD (4 * b + r) 0

/-- Numbers added place by place. -/
def addLists (a b : List Nat) : List Nat := (a.zip b).map fun e => e.1 + e.2

/-- The sum of a list. -/
def total (l : List Nat) : Nat := l.foldl (fun a x => a + x) 0

/-- The credit C in µJ. -/
def State.setCredit (s : State) (c : Int) : State := s.wr64 (ledgerPg + Off.LEDGER_CREDIT_LO) (ofSigned 64 c)

/-- C with its fraction, in nJ / 2^16. -/
def State.creditU (s : State) : Int := s.credit * ujU + (s.account.frac : Int)

/-- Put C, in nJ / 2^16. -/
def State.setCreditU (s : State) (x : Int) : State :=
  { s.setCredit (x / ujU) with account := { s.account with frac := (x % ujU).toNat } }

/-- A rail's energy in nJ / 2^16 from its monitor's reading in nJ, with the gain correction in force (R316). -/
def corrected (g : Int) (raw : Nat) : Nat := ((raw : Int) * (65536 + g)).toNat

/-- What each rail of a bent has used, from its monitors' readings. -/
def State.railUse (s : State) (b : Nat) (raw : List Nat) : List Nat :=
  (List.range 4).map fun r => corrected ((s.meter b).gain.getD r 0) (raw.getD r 0)

/-- The mean power in mW of a millisecond's energy. -/
def meanPower (acc : Nat) : Nat := acc / ujU

/-- A millisecond's mean power in a pair of registers: now and, if larger, peak. -/
def State.power (s : State) (b acc : Nat) : State :=
  let mw := meanPower acc
  let pk := energyPg b + Off.ENERGY_P_PEAK
  (s.wr (energyPg b + Off.ENERGY_P_NOW) mw).wr pk (max (s.rd pk) mw)

/-- A microsecond of a bent's energy is counted; `full` says that it ends a millisecond. -/
def State.meterTake (s : State) (b : Nat) (rails : List Nat) (full : Bool) : State :=
  let m := s.meter b
  let acc := m.acc + total rails
  let s1 := s.setMeter b { m with rails := addLists m.rails rails, acc := if full then 0 else acc }
  if full then s1.power b acc else s1

/-- The package's own counts take a microsecond's energy. -/
def State.pkgTake (s : State) (used : Nat) (full : Bool) : State :=
  let a := s.account
  let acc := a.acc + used
  let s1 := if full then s.wr (ledgerPg + Off.LEDGER_P_PKG) (meanPower acc) else s
  { s1 with account := { a with used := a.used + used, acc := if full then 0 else acc, us := if full then 0 else a.us + 1 } }

/-- RESERVOIR in nJ / 2^16. -/
def State.reservoirU (s : State) : Int := ((s.rd (ledgerPg + Off.LEDGER_RESERVOIR) * ujU : Nat) : Int)

/-- C after a microsecond in which the package has used `used` nJ / 2^16: each mW of CAP earns 1 nJ (R318). -/
def State.nextCredit (s : State) (used : Nat) : Int :=
  min (s.creditU + ((s.rd (ledgerPg + Off.LEDGER_CAP) * 65536 : Nat) : Int) - (used : Int)) s.reservoirU

/-- A shot that runs during the microsecond that ends now (R317); the end of a shot that still executes is not known. -/
def State.shotRuns (s : State) (executing : Bool) (h : Shot) : Bool :=
  decide (h.start < s.now) &&
    (executing || decide (s.now < (if h.voidPt.isSome then s.cVoid h else h.cEnd) + usK))

/-- The shots of a sequencer that run during the microsecond that ends now. -/
def State.runningShots (s : State) (k : Nat) : List Shot :=
  (s.seq k).shot.toList.filter (s.shotRuns true) ++ (s.seq k).tail.filter (s.shotRuns false)

/-- The converter energy `e` of a microsecond is shared among the bent's running shots in proportion to their estimates (R317,
log entry 192). -/
def State.shareEnergy (s : State) (b e : Nat) : State :=
  let tot := total ((List.range 16).map fun q => total ((s.runningShots (b * 16 + q)).map fun h => h.est))
  let give := fun (executing : Bool) (h : Shot) =>
    if s.shotRuns executing h then { h with energy := h.energy + e * h.est / tot } else h
  s.each (List.range 16) fun s q =>
    let k := b * 16 + q
    if (s.runningShots k).isEmpty then s
    else s.setSeq k { s.seq k with shot := (s.seq k).shot.map (give true), tail := (s.seq k).tail.map (give false) }

/-- C < 0 is counted, and raised when it begins (R320). -/
def State.overdraw (s : State) (was : Int) : State :=
  let short := decide (s.credit < 0)
  let s1 := if short && decide (0 ≤ was) then s.raise ledgerPg 2 else s
  let u := s1.account.overUs + b2n short
  let s2 := { s1 with account := { s1.account with overUs := u % 1000 } }
  if u < 1000 then s2 else s2.bump (ledgerPg + Off.LEDGER_OVERDRAW_TIME)

/-- The instant from which M has stayed below 0 (R322). -/
def State.lowWatch (s : State) : State :=
  if s.margin < 0 then { s with account := { s.account with lowAt := some (s.account.lowAt.getD s.now) } }
  else { s with account := { s.account with lowAt := none, lowDone := false } }

/-- CREDIT_UPDATE: a microsecond of PT passes: `rails` holds what the monitors of each bent read on VCORE, VDAC, VANA and VIO in
it, bent after bent, and `aux` the package's VAUX and VHOLD energy, in nJ (R315–R318, R320, R331). Each microsecond of PT counts
once; while PT does not run yet, the meters alone count. -/
def execCreditUpdate (t : PT) (rails : List Nat) (aux : Nat) (s : State) : Out :=
  runAt t s fun s =>
    let us := s.now / usK
    if s.clk.running && us == s.account.upd then s
    else
      let bs := List.range s.variant.bents
      let use := fun b => s.railUse b (railsOf rails b)
      let used := total (bs.map fun b => total (use b)) + aux * 65536
      let full := decide (999 ≤ s.account.us)
      let s1 := (s.each bs fun s b => s.meterTake b (use b) full).pkgTake used full
      if !s.clk.running then s1
      else
        let s2 := s1.each bs fun s b => s.shareEnergy b ((use b).getD 1 0 + (use b).getD 2 0)
        let s3 := ((s2.setCreditU (s2.nextCredit used)).overdraw s2.credit).lowWatch
        { s3 with account := { s3.account with upd := us } }

/-- LOW_MARGIN: M has stayed below 0 for 1 s (R322). -/
def execLowMargin (t : PT) (s : State) : Out :=
  runAt t s fun s =>
    match s.account.lowAt with
    | none => s
    | some x =>
      if !s.account.lowDone && decide (s.margin < 0) && decide (x + secK ≤ s.now) then
        ({ s with account := { s.account with lowDone := true } }).raise ledgerPg 3
      else s

/-- A gain correction moves toward the one wanted by at most 1 % (R316). -/
def gainStep (have_ want : Int) : Int := have_ + clampI (-655) 655 (want - have_)

/-- PERIOD of a bent's telemetry, in ms. -/
def State.telemMs (s : State) (b : Nat) : Nat := s.fld (energyPg b + Off.ENERGY_TELEM_CTRL) 8 8

/-- A telemetry read of a bent is due: PERIOD has passed since the last one (R316). -/
def State.telemDue (s : State) (b : Nat) : Bool :=
  match (s.meter b).read with
  | none => true
  | some r => !s.clk.running || decide (r.1 + s.telemMs b * 1000 * usK ≤ s.now) || decide (s.now < r.1)

/-- The gain correction of a rail after a read of V mV and I mA: the energy V · I · PERIOD that they imply against what the rail
has counted since the last read, with the correction `g` in force (R316, log entry 194). -/
def gainAfter (g : Int) (counted ms v i : Nat) : Int :=
  if counted = 0 then g
  else clampI (-0x7FFF) 0x7FFF (gainStep g (((v * i * ms * 65536 : Nat) : Int) * (65536 + g) / (counted : Int) - 65536))

/-- TELEM_READ: a PMBus read of READ_VOUT in mV and READ_IOUT in mA of each of a bent's four rails ends, and of the package's VAUX in mV
(R316, R409). -/
def execTelemRead (t : PT) (b : Fin 8) (ok : Bool) (rails : List (Nat × Nat)) (vaux : BitVec 16) (s : State) : Out :=
  runAt t s fun s =>
    let pg := energyPg b
    if !s.has b || !s.bit (pg + Off.ENERGY_TELEM_CTRL) 0 || !s.telemDue b then s
    else
      let m0 := s.meter b
      let m := { m0 with read := some (s.now, m0.rails) }
      if ok then
        let since := fun r => match m0.read with
          | none => 0
          | some x => m0.rails.getD r 0 - x.2.getD r 0
        let s1 := s.setMeter b { m with
          gain := (List.range 4).map fun r =>
            gainAfter (m.gain.getD r 0) (since r) (s.telemMs b) (rails.getD r (0, 0)).1 (rails.getD r (0, 0)).2
          fails := 0 }
        let s2 := (s1.setBit (pg + Off.ENERGY_TELEM_STAT) 0 true).standing pg 0xE0 false
        if b.val = s2.ridge then s2.wr (pkgp 0 + Off.PKG_VAUX_MEAS) vaux.toNat else s2
      else
        let s1 := (s.setMeter b { m with fails := min (m.fails + 1) 3 }).setBit (pg + Off.ENERGY_TELEM_STAT) 0 false
        if m.fails = 2 then (s1.standing pg 0xE0 true).raise pg 2 else s1

/-- ENERGY_CMD.CLR_PEAK. -/
def execClrPeak (t : PT) (b : Fin 8) (s : State) : Out :=
  runAt t s fun s => s.onlyIf (s.has b) fun s => s.command (energyPg b) fun s => s.wr (energyPg b + Off.ENERGY_P_PEAK) 0

/-- The account after a commit on the LEDGER page: EN going to 1 starts C at RESERVOIR, and a RESERVOIR below C clamps it
(R318). -/
def State.ledgerCommit (s : State) (start : Bool) : State :=
  s.setCreditU (if start then s.reservoirU else min s.creditU s.reservoirU)

/-! ### Groups (R324–R326) -/

/-- The lanes of a bent that a group's islands serve, its streams aside. -/
def groupLanes (b g : Nat) : List Nat :=
  if g < 4 then (List.range 16).map fun i => laneAddr b 1 (16 * g + i)
  else if g = 4 then (List.range 64).map fun i => laneAddr b 2 i
  else if g < 7 then (List.range 8).map fun i => laneAddr b 3 (8 * (g - 5) + i)
  else if g < 11 then [laneAddr b 4 (g - 7)]
  else if g = 11 then (List.range 32).map fun i => laneAddr b 0 i
  else (List.range 6).map fun i => laneAddr b 6 i

/-- Is a group idle (R325)? -/
def State.groupIdle (s : State) (b g : Nat) : Bool :=
  ((groupLanes b g).all fun l => (s.queue l).isEmpty && s.laneIdle l) &&
  ((List.range 16).all fun n => s.laneGroup (laneAddr b 5 n) != some g ||
    ((s.stream b n).seg.isNone && (s.queue (laneAddr b 5 n)).isEmpty)) &&
  (if 7 ≤ g ∧ g < 11 then
     let c := s.cap b (g - 7)
     c.held.isEmpty && c.inj.isNone && !s.bit (capPg b (g - 7) + Off.CAP_PWE_CTRL) 0 &&
       !s.bit (capPg b (g - 7) + Off.CAP_INJ_CTRL) 0
   else if g = 12 then
     ((List.range 8).all fun i => !s.bit (stampPg b + Off.STAMP_IN_CFG i) 0) &&
       ((List.range 4).all fun u => !(s.tiu b u).armed) && ([0, 1].all fun e => (s.fre b e).gate.isNone)
   else true)

/-- The state requested for a bent. -/
def State.bentWant (s : State) (b : Nat) : Nat := s.fld (energyPg b + Off.ENERGY_BENT_STATE) 0 3

/-- The state in force of a bent. -/
def State.bentNow (s : State) (b : Nat) : Nat := s.fld (bentStat b) 0 3

/-- The state an idle group goes to: FORCE_STATE under FORCE, the state requested for its bent, or IDLE_STATE (R325, R327). -/
def State.groupTarget (s : State) (b g : Nat) : Nat :=
  let w := s.rd (energyPg b + Off.ENERGY_GRP_CTRL g)
  if bitAt w 3 then bits w 4 2 else if s.bentWant b = 1 ∨ s.bentWant b = 2 then s.bentWant b else bits w 0 2

/-- The end of the last pulse or transition of a lane that holds no peg, or the instant it last ceased to hold or play
something. -/
def State.quietFrom (s : State) (lane : Nat) : Nat :=
  let b := laneBent lane
  let i := laneIdx lane
  let x := mapGet (fun _ => 0) s.touched lane
  if laneKind lane = 0 then max x ((((s.edge b i).upto (s.chRest b i) s.now).lastTrans).getD 0)
  else match (s.tone lane).pulse with
    | none => x
    | some q => max x q.end_

/-- The instant since which an idle group has been idle (R325): the end of all that its lanes did, and of the settings that kept
it busy. -/
def State.idleFrom (s : State) (b g : Nat) : Nat :=
  let own := (groupLanes b g).map s.quietFrom
  let strs := (List.range 16).map fun n =>
    if s.laneGroup (laneAddr b 5 n) == some g then mapGet (fun _ => 0) s.touched (laneAddr b 5 n) else 0
  (own ++ strs).foldl max (mapGet (fun _ => 0) s.touched (laneAddr b 15 g))

/-- IDLE_TIME of a group has passed since it fell idle (R325). -/
def State.idleLong (s : State) (b g : Nat) : Bool :=
  decide (s.idleFrom b g + s.fld (energyPg b + Off.ENERGY_GRP_CTRL g) 16 16 * usK ≤ s.now)

/-- The samples of a group's converters up to now are accounted for, before its state changes what they emit. -/
def State.syncGroup (s : State) (b g : Nat) : State :=
  if g < 4 then s.syncPage b (8 + g) s.now else if g = 4 then s.syncPage b 0xC s.now
  else if g < 7 then s.syncPage b (8 + g) s.now else s

/-- BENT_STAT follows the groups while S0, S1 or S2 is requested (R327). -/
def State.bentFollow (s : State) (b : Nat) : State :=
  let w := s.bentWant b
  if w ≤ 2 ∧ s.bentNow b ≤ 2 ∧ s.bentNow b ≠ w ∧ (List.range 13).all (fun g => s.fld (grpStat b g) 0 2 == w) then
    (s.setFld (bentStat b) 0 4 w).raise (energyPg b) 0
  else s

/-- GROUP_IDLE: a group has been idle for IDLE_TIME, or is idle under FORCE, and enters its lower state (R325). -/
def execGroupIdle (t : PT) (b : Fin 8) (g : Fin 13) (s : State) : Out :=
  runAt t s fun s =>
    let w := s.groupTarget b g
    let now := s.fld (grpStat b g) 0 2
    let forced := s.bit (energyPg b + Off.ENERGY_GRP_CTRL g) 3 || decide (s.bentWant b ≠ 0)
    if s.has b && s.pwrup b && decide (s.bentNow b < 3) && w != 0 && (decide (now < w) || (forced && now != w)) &&
        (s.wakeAt b g).isNone && s.groupIdle b g && (forced || s.idleLong b g) then
      (((s.syncGroup b g).wr (grpStat b g) w).raise (energyPg b) 0).bentFollow b
    else s

/-- GROUP_WAKE: a group whose FORCE has been cleared, or whose bent is back at S0, starts to wake; a peg accepted under
AUTOWAKE wakes its group as it is accepted (R326). -/
def execGroupWake (t : PT) (b : Fin 8) (g : Fin 13) (s : State) : Out :=
  runAt t s fun s =>
    let w := s.rd (energyPg b + Off.ENERGY_GRP_CTRL g)
    let ask := bitAt (s.meter b).unforced g || (bitAt w 3 && bits w 4 2 == 0)
    if s.has b && decide (s.bentNow b < 3) && ask && s.fld (grpStat b g) 0 2 != 0 then s.groupWake b g else s

/-- A wake is over. -/
def State.wakeEnd (s : State) (b g : Nat) : State :=
  let m := s.meter b
  ({ s with wakes := mapSet (fun _ => none) s.wakes (b * 16 + g) none }).setMeter b
    { m with unforced := putBits m.unforced g 1 0 }

/-- The pages that must be drained before S3 or S4 (R327). -/
def dozePages : List Nat := (List.range 48).filter fun p =>
  (bentPage p).isSome && !([0, 1, 2, 3, 0x18, 0x19, 0x1A, 0x1D].contains p)

/-- A bent leaves S3 or S4: its outputs run again and its edge channels sense (R327). -/
def State.bentLive (s : State) (b : Nat) : State :=
  let s1 := ((s.syncBent b s.now).wakeEnd b 13).wr (bentStat b) 0
  let s2 := s1.each (List.range 13) fun s g => s.setBit (grpStat b g) 3 (s.fld (grpStat b g) 0 2 == 0)
  let s3 := s2.each (List.range 32) fun s ch => s.edgeSenseIf b ch
  let s4 := if s3.bit (pacePg b + Off.PACE_PACE_CTRL) 0 then s3
    else s3.wr (pacePg b + Off.PACE_VCORE_SET) (s3.rd (pacePg b + Off.PACE_VMAX))
  s4.raise (energyPg b) 0

/-- PKG_STAT of the LEDGER page follows its bents (R328). -/
def State.pkgFollow (s : State) : State :=
  let w := s.fld (ledgerPg + Off.LEDGER_PKG_STATE) 0 3
  if (List.range s.variant.bents).all (fun b => s.bentNow b == w) then s.wr (ledgerPg + Off.LEDGER_PKG_STAT) w else s

/-- WAKE_DONE: the exit time of a group (13: of the bent) has passed, and its lanes are live (R326, R327). -/
def execWakeDone (t : PT) (b : Fin 8) (g : Fin 14) (s : State) : Out :=
  runAt t s fun s =>
    match s.wakeAt b g with
    | none => s
    | some x =>
      if s.now < x then s
      else if g.val = 13 then (s.bentLive b).pkgFollow
      else ((((s.syncGroup b g).wakeEnd b g).wr (grpStat b g) 8).raise (energyPg b) 0).bentFollow b

/-- FORCE as a commit leaves it: a set one waits for idle, a cleared one wakes the group (R325, R326). -/
def State.forceCommit (s : State) (b g old : Nat) : State :=
  let w := s.rd (energyPg b + Off.ENERGY_GRP_CTRL g)
  let now := s.fld (grpStat b g) 0 2
  if bitAt w 3 then s.setBit (grpStat b g) 2 (now != bits w 4 2)
  else if bitAt old 3 then
    let m := s.meter b
    (s.setBit (grpStat b g) 2 false).setMeter b { m with unforced := putBits m.unforced g 1 (b2n (now != 0)) }
  else s

/-! ### Bent and package states (R327, R328) -/

/-- May a bent go to S3 or S4, its being the ridge aside (R327)? -/
def State.mayDoze (s : State) (b : Nat) : Bool :=
  ((List.range 16).all fun q => (s.seq (b * 16 + q)).phase == .halted) && dozePages.all fun p => s.drained (bp b p)

/-- A bent enters S3 or S4 (R327): its edge drivers go high-impedance and nothing of it is live; at S4 VCORE is at VMIN. -/
def State.bentDoze (s : State) (b st : Nat) : State :=
  let s1 := (s.syncBent b s.now).each (List.range 32) fun s ch =>
    if s.chLive b ch then
      let e := s.edge b ch
      (s.setEdge b ch { e with driving := false, eff := none, restAt := none, holdEnd := none }).setBit (chStat b ch) 0 false
    else s
  let s2 := s1.each (List.range 13) fun s g => s.setBit (grpStat b g) 3 false
  let s3 := if st = 4 then s2.wr (pacePg b + Off.PACE_VCORE_SET) (s2.rd (pacePg b + Off.PACE_VMIN)) else s2
  (s3.wr (bentStat b) st).raise (energyPg b) 0

/-- A bent starts to leave S3 or S4; it is live after the exit time (R323, R327). -/
def State.bentWake (s : State) (b : Nat) : State :=
  let x := s.now + exitTime (s.bentNow b)
  ({ s with wakes := mapSet (fun _ => none) s.wakes (b * 16 + 13) (some x) }).setBit (bentStat b) 3 true

/-- BENT_STATE as a commit asks for it (R327): a request for S3 or S4 that is refused leaves the register as it was. -/
def State.bentCommit (s : State) (b old : Nat) : State :=
  let w := s.bentWant b
  let now := s.bentNow b
  if 3 ≤ w then
    if now = w then s
    else if b != s.ridge && s.mayDoze b then s.bentDoze b w
    else (s.wr (energyPg b + Off.ENERGY_BENT_STATE) old).latchHealth (energyPg b) 0xE1
  else if 3 ≤ now then s.bentWake b
  else if w = 0 then
    let m := s.meter b
    let mask := (List.range 13).foldl (fun n g => n + b2n (s.fld (grpStat b g) 0 2 != 0) * 2 ^ g) 0
    (if bits old 0 3 = 0 then s else s.setMeter b { m with unforced := m.unforced ||| mask }).setBit (bentStat b) 3
      (now != 0)
  else
    (s.each (List.range 13) fun s g =>
      if s.fld (grpStat b g) 0 2 = w then s else s.setBit (grpStat b g) 2 true).setBit (bentStat b) 3 (now != w)

/-- Is the package part of a tree: joined, or with a joined child? -/
def State.inTree (s : State) : Bool := s.joined || s.rd (hierPg + Off.HIER_CHILDREN) != 0

/-- PKG_STATE as a commit asks for it (R328): the ridge enters last and leaves first, and the Fliud ports stop. -/
def State.pkgCommit (s : State) (old : Nat) : State :=
  let w := s.fld (ledgerPg + Off.LEDGER_PKG_STATE) 0 3
  let bs := s.others s.ridge
  if 3 ≤ w then
    if s.inTree || !(bs.all fun b => s.mayDoze b) then
      (s.wr (ledgerPg + Off.LEDGER_PKG_STATE) old).latchHealth ledgerPg 0xE1
    else
      let s1 := s.each (bs ++ [s.ridge]) fun s b => if s.bentNow b = w then s else s.bentDoze b w
      let s2 := s1.each (List.range s1.variant.bents) fun s b => (s.portDown b 0 false).portDown b 1 false
      s2.wr (ledgerPg + Off.LEDGER_PKG_STAT) w
  else if s.fld (ledgerPg + Off.LEDGER_PKG_STAT) 0 3 = 0 then s
  else
    let s1 := s.each (s.ridge :: bs) fun s b => if 3 ≤ s.bentNow b then s.bentWake b else s
    s1.setBit (ledgerPg + Off.LEDGER_PKG_STAT) 3 true

/-! ### The pace loop (R329, R330) -/

/-- 100 times the target T of the pace loop. -/
def State.paceTarget (s : State) (b : Nat) : Nat :=
  s.rd (pacePg b + Off.PACE_PACE_MIN) * (100 + s.fld (pacePg b + Off.PACE_PACE_CTRL) 8 8)

/-- The loop of a bent acts: EN, and its first lock is behind it (R329). -/
def State.paceLoop (s : State) (b : Nat) : Bool :=
  s.has b && s.bit (pacePg b + Off.PACE_PACE_CTRL) 0 && s.hasActive b && decide (s.bentNow b < 3)

/-- PACE_SAMPLE: a microsecond's counts of the eight sensors of a bent, whether AVSBus answers, and the VCORE it reads back
(R329, R330). -/
def execPaceSample (t : PT) (b : Fin 8) (counts : List (BitVec 16)) (avs : Bool) (mv : BitVec 16) (s : State) : Out :=
  runAt t s fun s =>
    let pg := pacePg b
    let us := s.now / usK
    let cs := (List.range 8).map fun i => (counts.getD i 0).toNat
    let low := (cs.foldl min 0xFFFF)
    let was := s.bit (pg + Off.PACE_PACE_STAT) 0
    let ok := avs && decide (s.rd (pg + Off.PACE_PACE_MIN) ≤ low)
    if !s.has b || (s.clk.running && us == (s.meter b).paced) then s
    else
      let st := putBits (putBits (putBits (s.rd (pg + Off.PACE_PACE_STAT)) 0 1 (b2n ok)) 3 1 (b2n avs)) 8 3 (cs.idxOf low)
      let s1 := (s.wr (pg + Off.PACE_PACE_STAT) st).wr (pg + Off.PACE_PACE_NOW) low
      let s2 := if avs then (s1.wr (pg + Off.PACE_VCORE_MEAS) mv.toNat).standing pg 0xE4 false else s1
      let m := s2.meter b
      let above := if s2.paceTarget b * 105 < low * 10000 then some (m.above.getD s2.now) else none
      let s3 := s2.setMeter b { m with above := above, paced := us }
      let s4 := if ok then s3 else s3.bump (pg + Off.PACE_SHORT_TIME)
      let s5 := (s4.standing pg 0xE3 (!ok)).category 3 b (!ok)
      if was && !ok then (s5.bump (pg + Off.PACE_SHORT_COUNT)).raise pg 0 else s5

/-- PACE_RAISE: pace is below its target, 10 µs after the last raise (R329). -/
def execPaceRaise (t : PT) (b : Fin 8) (s : State) : Out :=
  runAt t s fun s =>
    let pg := pacePg b
    let m := s.meter b
    let due := match m.raised with
      | none => true
      | some x => decide (x + 10 * usK ≤ s.now)
    if s.paceLoop b && due && decide (100 * s.rd (pg + Off.PACE_PACE_NOW) < s.paceTarget b) then
      (s.setMeter b { m with raised := some s.now }).wr (pg + Off.PACE_VCORE_SET)
        (min (s.rd (pg + Off.PACE_VMAX)) (s.rd (pg + Off.PACE_VCORE_SET) + 10))
    else s

/-- PACE_LOWER: the slowest count has been above 1.05 T for 1 ms (R329). -/
def execPaceLower (t : PT) (b : Fin 8) (s : State) : Out :=
  runAt t s fun s =>
    let pg := pacePg b
    let m := s.meter b
    match m.above with
    | none => s
    | some x =>
      if s.paceLoop b && decide (x + 1000 * usK ≤ s.now) then
        (s.setMeter b { m with above := some s.now }).wr (pg + Off.PACE_VCORE_SET)
          (max (s.rd (pg + Off.PACE_VMIN)) (s.rd (pg + Off.PACE_VCORE_SET) - 5))
      else s

/-- AVS_FAULT: an AVSBus command has not been acknowledged within 100 µs (R330). -/
def execAvsFault (t : PT) (b : Fin 8) (s : State) : Out :=
  runAt t s fun s =>
    let pg := pacePg b
    if !s.has b then s
    else
      let was := s.bit (pg + Off.PACE_PACE_STAT) 0
      let s1 := ((s.setFld (pg + Off.PACE_PACE_STAT) 0 1 0).setBit (pg + Off.PACE_PACE_STAT) 3 false).standing pg 0xE4 true
      let s2 := ((s1.raise pg 1).standing pg 0xE3 true).category 3 b true
      if was then (s2.bump (pg + Off.PACE_SHORT_COUNT)).raise pg 0 else s2

/-- VCORE after a commit on the PACE page: within VMIN–VMAX, and at VMAX while the loop is off (R329); at VMIN in S4
(R323). -/
def State.paceCommit (s : State) (b : Nat) : State :=
  let pg := pacePg b
  let a := pg + Off.PACE_VCORE_SET
  if s.bentNow b = 4 then s.wr a (s.rd (pg + Off.PACE_VMIN))
  else if s.bit (pg + Off.PACE_PACE_CTRL) 0 then
    s.wr a (clampN (s.rd (pg + Off.PACE_VMIN)) (s.rd (pg + Off.PACE_VMAX)) (s.rd a))
  else s.wr a (s.rd (pg + Off.PACE_VMAX))

end Sys2Proof.Machine
end

