-- ==== Sys2Proof/Machine/Flags.lean ====
section
/-!
DEFINITION. Machine/Flags.lean: what a read of a register returns (R5, R25): the status bits that the rules compute from
other state, and the latched words of multi-word registers.
-/

namespace Sys2Proof.Machine

/-- The index of a block that a register offset falls on: `count` registers from `base`, `stride` bytes apart. -/
def blk (off base stride count : Nat) : Option Nat :=
  if base ≤ off ∧ off < base + stride * count ∧ (off - base) % stride = 0 then some ((off - base) / stride) else none

/-- The word of a number at a register of a `_LO`, `_MID`, `_HI` group that starts at `lo`, for any register of it. -/
def part (off lo words v : Nat) : Option Nat :=
  if lo ≤ off ∧ off < lo + 4 * words ∧ off % 4 = lo % 4 then some (bits v (8 * (off - lo)) 32) else none

/-- The first answer of two. -/
def orOpt (a b : Option Nat) : Option Nat :=
  match a with
  | some x => some x
  | none => b

/-- A mask of the indices below `n` that meet a condition. -/
def maskOf (n : Nat) (p : Nat → Bool) : Nat := (List.range n).foldl (fun m i => m + b2n (p i) * 2 ^ i) 0

/-! ### The page header (R369–R371) -/

/-- A spare serves a resource of the page (PAGE_STAT.TRESTLED): sill B drives the outputs (R80), or a trestle serves a
channel (R98, R271). -/
def State.trestled (s : State) (pg : Nat) : Bool :=
  let b := bentOf pg
  if isPkg pg then false
  else if pageNo pg = 1 ∨ pageNo pg = 2 then s.activeSill b == 1
  else if 4 ≤ pageNo pg ∧ pageNo pg < 8 then s.bit (pg + Off.EDGE_GRP_STAT) 3 || s.fld (pg + Off.EDGE_GRP_STAT) 8 8 != 0
  else false

/-- PAGE_STAT of a page. -/
def State.pageStat (s : State) (pg : Nat) : Nat :=
  let w := s.rd (pg + Off.PG_PAGE_STAT)
  let lattice := if isPkg pg then s.coasting s.ridge else s.coasting (bentOf pg)
  b2n (s.enabled pg && !s.fenced pg) + b2n (bitAt w 1) * 2 + b2n (s.fenced pg) * 4 + b2n (bitAt w 3) * 8 +
    b2n (bitAt w 4) * 16 + b2n (s.trestled pg) * 32 + b2n lattice * 64 + s.health pg * 256 +
    b2n (s.dirty.any fun e => pageOf e.1 == pg) * 2 ^ 16 + (s.commits.filter fun c => c.page == pg).length * 2 ^ 17

/-- EVT_RAW of a page, from a bit on. -/
def State.evRaw (s : State) (pg from_ : Nat) : Nat := maskOf 32 fun i => setHas s.ev.raw (pg * 64 + from_ + i)

/-- The header registers that the rules compute. -/
def State.headRead (s : State) (pg off : Nat) : Option Nat :=
  if off = Off.PG_PAGE_STAT then some (s.pageStat pg)
  else if off = Off.PG_EVT_RAW_LO then some (s.evRaw pg 0)
  else if off = Off.PG_EVT_RAW_HI then some (s.evRaw pg 32)
  else if off = Off.PG_EVT_PEND_LO then some (s.evRaw pg 0 &&& s.rd (pg + Off.PG_EVT_EN_LO))
  else if off = Off.PG_EVT_PEND_HI then some (s.evRaw pg 32 &&& s.rd (pg + Off.PG_EVT_EN_HI))
  else none

/-! ### Bents and sills -/

/-- BENT page (R407). -/
def State.bentRead (s : State) (b off : Nat) : Option Nat :=
  if off = Off.BENT_BENT_ROLE then
    some (b2n (s.tree.elected && s.ridge == b) + b2n (s.candidate b) * 2 +
      b2n (s.bit (purlinPg + Off.PURLIN_PURLIN_STAT) (8 + b)) * 4 + b2n (s.bentFenced b) * 8 +
      b2n (s.bit (hierPg + Off.HIER_CAND) (8 + b)) * 16)
  else if off = Off.BENT_LOCKED_PAGES then
    some ((List.range 48).filter fun p => (bentPage p).isSome && s.locked (bp b p)).length
  else none

/-- EN of an island output: the sill drives the outputs, and the group's clock runs (S0 and S1), or for SO15 the bent is
above S3 (R84, R323). -/
def State.islandOn (s : State) (b k n : Nat) : Bool :=
  s.bit (sillStat b k) 1 && decide (s.bentNow b < 3) && (n == 15 || decide (s.fld (grpStat b n) 0 2 < 2))

/-- The tempco trim of a sill, item 0x11, in ppm/°C (R76, R262). -/
def State.tempco (s : State) (b k : Nat) : Int := s.trim b 0x11 k 0

/-- DCO_WORD: in a coast under TC_COAST the frozen word is corrected by the tempco trim times the change of die temperature
since the freeze (R76, log entry 172). -/
def State.dcoRead (s : State) (b k : Nat) : Nat :=
  let w := s.rd (sillPg b k + Off.SILL_DCO_WORD)
  if s.bit (sillStat b k) 3 && s.bit (s.sillCfg b k + Off.SILL_SILL_CTRL) 2 then
    let d := toSigned 32 (s.rd (bp b 0 + Off.BENT_DIE_TEMP)) - (s.sill b k).coastTemp
    let x : Int := w - roundDiv (s.tempco b k * d * (14000000000 + 32 * w)) (16 * 1000000 * 32)
    s.clampWord b k x.toNat
  else w

/-- SILL_STAT: SHADOW, PHASE_BUSY and PULL_PENDING follow eligibility and what is left of the moves (R80, R93). -/
def State.sillStatRead (s : State) (b k : Nat) : Nat :=
  let w := s.rd (sillStat b k)
  putBits (putBits (putBits w 2 1 (b2n (s.shadowBit b k))) 6 1 (b2n (s.phaseLeftAt b k s.now != 0))) 8 1
    (b2n (s.pullLeftAt b k s.now != 0))

/-- SILLA and SILLB pages (R91, R93). A divider reads as last staged, on the page whose settings the sill runs. -/
def State.sillRead (s : State) (b k off : Nat) : Option Nat :=
  let pg := sillPg b k
  if off = Off.SILL_SILL_STAT then some (s.sillStatRead b k)
  else if off = Off.SILL_PHASE_LEFT then some (ofSigned 32 (s.phaseLeftAt b k s.now))
  else if off = Off.SILL_PULL_LEFT then some (ofSigned 32 (s.pullLeftAt b k s.now))
  else if off = Off.SILL_DCO_WORD then some (s.dcoRead b k)
  else if off = Off.SILL_COAST_TIME ∧ s.bit (sillStat b k) 3 then
    some (min ((s.now - (s.sill b k).coastAt) / (1000 * usK)) 0xFFFFFFFF)
  else
    match blk off 0x100 8 16 with
    | some n => if n = 13 ∨ n = 14 then none else some (putBits (s.staged (s.sillCfg b k + off)).toNat 16 1 (b2n (s.islandOn b k n)))
    | none =>
      match blk off 0x104 8 16 with
      | some n => if n = 13 ∨ n = 14 then none else some (s.openRead (pg + off) % 2 ^ 32 &&& 0x01FF07FF)
      | none => none

/-- What a bent's own copy of PT is off by: a copy that the purlin has found wrong, until it is replaced (R31, R34, R342). -/
def State.ptCopy (s : State) (b : Nat) : Int := mapGet (fun _ => 0) s.ptOff b

/-- TIME page (R48): NOW is the bent's own copy of PT. -/
def State.timeRead (s : State) (b off : Nat) : Option Nat :=
  orOpt (part off Off.TIME_NOW_LO 3 (((s.nowTick : Int) + s.ptCopy b) % (2 ^ 80 : Int)).toNat)
    (orOpt (part off Off.TIME_LAT_ORIGIN_LO 3 s.clk.o)
      (if off = Off.TIME_LATTICE_N then some s.clk.n else if off = Off.TIME_PT_GEN then some s.ptGen else none))

/-- TIMEBASE page (R64). -/
def State.tbRead (s : State) (off : Nat) : Option Nat :=
  if off = Off.TIMEBASE_DISC_CORR then some (ofSigned 32 s.discNow)
  else if off = Off.TIMEBASE_STEER_FREQ then some (ofSigned 32 s.steerNow)
  else none

/-! ### Lanes -/

/-- CHc_STAT of a channel (R106, R125). -/
def State.chRead (s : State) (b ch : Nat) : Nat :=
  let e := (s.edge b ch).upto (s.chRest b ch) s.now
  let w := putBits (putBits (s.rd (chStat b ch)) 0 1 (b2n (s.chOn b ch))) 1 1 (b2n (s.pinLevel b ch))
  putBits (putBits (putBits w 2 1 (b2n e.eff.isSome)) 16 7 (s.queue (laneAddr b 0 ch)).length) 24 3 (s.trigPending b ch)

/-- An EDGE page: the state of its channels, and their thresholds (R111, R125). -/
def State.edgePage (s : State) (b p off : Nat) : Option Nat :=
  orOpt ((blk off (Off.EDGE_CH_STAT 0) 0x40 8).map fun c => s.chRead b ((p - 4) * 8 + c))
    ((blk off (Off.EDGE_CH_RCV_THR 0) 0x40 8).map fun c => s.thrRead b ((p - 4) * 8 + c))

/-- A lane takes pegs and plays them: enabled, not fenced, awake, in service, and past power-up calibration (R174, R448). -/
def State.toneLive (s : State) (lane : Nat) : Bool :=
  s.toneOn lane && s.pwrup (laneBent lane) && !s.outFault lane && !s.fenced (tonePg lane) && s.awake lane

/-- TONEt_STAT or FLXc_STAT of a lane (R196, R197). -/
def State.toneRead (s : State) (lane : Nat) : Nat :=
  let x := (s.tone lane).upto s.now
  let w := s.rd (toneStat lane)
  let taper := match x.pulse with
    | none => false
    | some q => (match q.taper with
      | none => false
      | some a => decide (a ≤ s.now))
  let held := (s.holder lane).isSome
  b2n (s.toneLive lane) + b2n (x.pulse.isSome || held) * 2 + b2n taper * 4 +
    b2n x.drainAt.isSome * 8 + b2n held * 16 + b2n (bitAt w 5) * 32 + b2n (bitAt w 6) * 64 +
    (s.queue lane).length * 2 ^ 16

/-- The tone lanes of a DAC of a page. -/
def pageDac (b p d : Nat) : List Nat :=
  if p = 0xC then (List.range 16).map fun k => laneAddr b 2 (16 * d + k)
  else (List.range 4).map fun k => laneAddr b 1 ((p - 8) * 16 + 4 * d + k)

/-- DACd_STAT of a DAC (R196). -/
def State.dacRead (s : State) (b p d : Nat) : Nat :=
  let pg := bp b p
  let ls := pageDac b p d
  let st := ls.map s.toneRead
  let any_ (i : Nat) : Bool := st.any fun w => bitAt w i
  let w := s.rd (pg + Off.TONE_DAC_STAT d)
  let on := s.enabled pg && !s.fenced pg && s.bit (pg + Off.TONE_DAC_CTRL d) 0 && s.hasActive b && s.clocked (ls.headD 0)
  b2n (on && !bitAt w 4) + b2n (any_ 1) * 2 + b2n (any_ 2) * 4 + b2n (any_ 3) * 8 + b2n (bitAt w 4) * 16 +
    maskOf ls.length (fun i => bitAt (st.getD i 0) 1) * 2 ^ 16

/-- A register of a converter that its samples change, as it reads with those up to the present accounted for (R186, R188, log
entry 176). -/
def State.clipRead (s : State) (lane a : Nat) : Nat := (s.dacSync lane s.now).rd a

/-- A DRIVE or PROBE page: tones from 0x200 and DACs from 0x100, 32 bytes apart (R196). -/
def State.tonePage (s : State) (b p off : Nat) : Option Nat :=
  let lanes := pageTones b p
  let dac (base : Nat) : Option Nat := (blk off base 0x20 4).map fun d => s.clipRead ((pageDac b p d).headD 0) (bp b p + off)
  match blk off (Off.TONE_DAC_STAT 0) 0x20 4 with
  | some d => some (s.dacRead b p d)
  | none =>
    match blk off (Off.TONE_TONE_STAT 0) 0x20 lanes.length with
    | some i => some (s.toneRead (lanes.getD i 0))
    | none =>
      match blk off (Off.TONE_TONE_FRAME_NOW 0) 0x20 lanes.length with
      | some i => some ((s.tone (lanes.getD i 0)).theta % 2 ^ 16)
      | none => orOpt (dac (Off.TONE_DAC_FLAGS 0)) (orOpt (dac (Off.TONE_DAC_CLIP_COUNT 0)) (dac (Off.TONE_DAC_PEAK 0)))

/-- A FLUX page (R197). -/
def State.fluxPage (s : State) (b p off : Nat) : Option Nat :=
  let lane (i : Nat) : Nat := (pageTones b p).getD i 0
  let clip (base : Nat) : Option Nat := (blk off base 0x20 8).map fun i => s.clipRead (lane i) (bp b p + off)
  orOpt ((blk off (Off.FLUX_FLX_STAT 0) 0x20 8).map fun i => s.toneRead (lane i))
    (orOpt (clip (Off.FLUX_FLX_FLAGS 0)) (clip (Off.FLUX_FLX_CLIP_COUNT 0)))

/-- The granules of its segment that a stream has played: fill granules are none of them (R168, R171). -/
def State.segGran (s : State) (b n : Nat) : Nat :=
  let x := s.stream b n
  if !descRing x.desc then (s.now - x.segStart) / s.gK
  else
    match x.fill with
    | none => descLen x.desc - ceilDiv (x.endPt - s.now) s.gK
    | some f =>
      if s.now < f.from_ then x.taken - 1
      else
        match f.avail with
        | some a => x.taken + (s.now - s.resumeAt f a) / s.gK
        | none => x.taken

/-- SEGMENT page (R171). An idle stream's SEG_NOW reads 0 (log entry 52). -/
def State.segPage (s : State) (b off : Nat) : Option Nat :=
  if off = Off.SEGMENT_SEG_STAT then
    some (maskOf 16 (fun n => (s.stream b n).seg.isSome) + maskOf 16 (fun n => (s.stream b n).fill.isSome) * 2 ^ 16)
  else if 0x800 ≤ off then
    let e := ((mapGet (fun _ => []) s.failLog b).getD ((off - 0x800) / 8) 0).toNat
    some (bits e (off % 8 * 8) 32)
  else
    match blk off (Off.SEGMENT_STR_STAT 0) 0x40 16 with
    | some n =>
      let x := s.stream b n
      let own := x.owner.getD { seq := 0, shot := 0 }
      some (b2n x.seg.isSome + b2n x.fill.isSome * 2 + b2n x.jump.isSome * 4 + b2n x.drain * 8 + b2n x.owner.isSome * 16 +
        x.stack.length * 2 ^ 8 + own.seq % 16 * 2 ^ 16 + own.seq / 16 * 2 ^ 20 +
        bits (s.rd (segPg b + off)) 24 4 * 2 ^ 24)
    | none =>
      match blk off (Off.SEGMENT_STR_SEG_NOW 0) 0x40 16 with
      | some n =>
        let x := s.stream b n
        (match x.seg with
         | none => some 0
         | some i => some (i % 2 ^ 16 + min (s.segGran b n) 0xFFFF * 2 ^ 16))
      | none =>
        match blk off (Off.SEGMENT_STR_FILL_COUNT 0) 0x20 16 with
        | some n =>
          let begun := match (s.stream b n).fill with
            | none => 0
            | some f => s.fillBegun f s.now
          some (satAdd (s.rd (segPg b + off)) begun)
        | none => (blk off (Off.SEGMENT_STR_RING_REL 0) 0x40 16).map fun n => s.ringRel b n

/-- CAP_STAT (R224). -/
def State.capRead (s : State) (b i : Nat) : Nat :=
  let c := s.cap b i
  let inj := c.wins.any fun w => w.injected && decide (w.first ≤ s.now)
  b2n (s.capOn b i && s.pwrup b && !s.capFault b i && !s.fenced (capPg b i)) +
    (c.wins.filter fun w => !w.injected && decide (w.first ≤ s.now)).length % 8 * 2 + c.held.length % 8 * 16 +
    b2n c.cont.isSome * 2 ^ 7 + b2n c.inj.isSome * 2 ^ 8 + b2n inj * 2 ^ 9 + b2n c.drainAt.isSome * 2 ^ 10 +
    b2n (s.capFault b i) * 2 ^ 11 + (s.queue (laneAddr b 4 i)).length * 2 ^ 16

/-- INn_STAT (R258): stamping, and activity in the last 1 ms. -/
def State.inRead (s : State) (b n : Nat) : Nat :=
  let w := s.rd (stampPg b + Off.STAMP_IN_STAT n)
  let on := s.enabled (stampPg b) && !s.fenced (stampPg b) && s.bit (stampPg b + Off.STAMP_IN_CFG n) 0 && s.pwrup b &&
    s.fld (grpStat b 12) 0 2 == 0
  let act := match (s.stampIn b n).last with
    | none => false
    | some x => decide (s.now < x + 1000 * usK)
  putBits (putBits w 0 1 (b2n on)) 10 1 (b2n act)

/-! ### Calibration and the trim store -/

/-- Is an instance out of service for calibration (ITEM_STAT.OUT)? -/
def State.instOut (s : State) (b item inst : Nat) : Bool :=
  if item ≤ 4 then
    (if inst < 32 then s.bit (chStat b inst) 4
     else (s.cal b).ops.any fun o => o.cls == 0 && o.step == 1 && 32 + o.inst / 8 == inst)
  else if item = 5 then (match (s.stampIn b (inst / 4)).withdrawn with
    | none => false
    | some w => w.1 == inst % 4)
  else if 7 ≤ item ∧ item ≤ 0xB then s.sliceRole b (inst / 3) (inst % 3) == 3
  else (s.cal b).ops.any fun o => o.item == item && o.inst == inst

/-- δ of largest magnitude. -/
def largest (l : List Int) : Int := l.foldl (fun m x => if m.natAbs < x.natAbs then x else m) 0

/-- CAL page (R287). -/
def State.calPage (s : State) (b off : Nat) : Option Nat :=
  let sel := s.rd (calPg b + Off.CAL_CAL_SEL)
  let item := bits sel 0 8
  let inst := bits sel 8 8
  let x := s.calInst b item inst
  let ok := s.instExists b item inst
  if off = Off.CAL_CAL_STAT then
    let ops := (s.cal b).ops
    let op := ops.head?
    let paused := !s.foremanRuns b || !s.enabled (calPg b) || s.draining (calPg b) || s.fenced (calPg b)
    some (putBits (putBits (putBits (putBits (s.rd (calStat b)) 2 1 (b2n op.isSome)) 3 1 (b2n paused)) 8 8
      (match op with
       | none => 0
       | some o => o.item)) 16 8 (match op with
       | none => 0
       | some o => o.inst))
  else if off = Off.CAL_ITEM_STAT then
    some (if ok then 1 + b2n x.lowconf * 2 + b2n x.stale * 4 + b2n x.faulty * 8 + x.rejects % 16 * 16 +
      b2n x.pend.isSome * 2 ^ 8 + b2n (s.instOut b item inst) * 2 ^ 9 else 0)
  else if off = Off.CAL_ITEM_AGE then some (if ok then min ((s.now - x.since) / secK) 0xFFFFFFFF else 0)
  else if off = Off.CAL_ITEM_TEMP then some (if ok then ofSigned 32 (x.temp.getD 0) else 0)
  else if off = Off.CAL_ITEM_DELTA then some (if ok then ofSigned 32 (largest x.delta) else 0)
  else part off Off.CAL_ITEM_PT_LO 3 (if ok then x.acc.getD 0 else 0)

/-- SHIMSTORE page (R290). -/
def State.shimPage (s : State) (b off : Nat) : Option Nat :=
  let x := s.cal b
  let p := x.work[s.fld (shimPg b + Off.SHIMSTORE_SHIM_SEL) 0 3]?
  if off = Off.SHIMSTORE_POINT_TEMP then
    some (match p with
      | none => 0
      | some q => ofSigned 16 q.temp + 2 ^ 16 + b2n q.factory * 2 ^ 17)
  else if off = Off.SHIMSTORE_POINT_GEN then
    some (match p with
      | none => 0
      | some q => q.gen)
  else if off = Off.SHIMSTORE_SEQ_A then some (if x.copyA.valid then x.copyA.seq else 0)
  else if off = Off.SHIMSTORE_SEQ_B then some (if x.copyB.valid then x.copyB.seq else 0)
  else part off Off.SHIMSTORE_POINT_PT_LO 3 (match p with
    | none => 0
    | some q => q.pt)

/-! ### Sequencers -/

/-- SEQ_STAT (R151). -/
def State.seqStat (s : State) (k : Nat) : Nat :=
  let x := s.seq k
  let replay := match x.shot with
    | none => false
    | some h => decide (0 < h.replays)
  b2n x.running + b2n (!x.running) * 2 + b2n x.shot.isSome * 4 + b2n x.admitWait * 8 + b2n x.syncWait * 16 +
    b2n x.awaitWait * 32 + b2n x.runAheadWait * 64 + b2n (x.phase == .estimating) * 128 + b2n x.unbounded * 256 +
    b2n x.faulted * 512 + b2n replay * 1024 + b2n (x.phase == .parked) * 2048 + x.stack.length % 32 * 2 ^ 12 +
    x.trigQ.length % 8 * 2 ^ 17

/-- SEQ page (R151). -/
def State.seqPage (s : State) (k off : Nat) : Option Nat :=
  if off = Off.SEQ_SEQ_STAT then some (s.seqStat k) else part off Off.SEQ_CURSOR_LO 3 (s.seq k).cursor

/-! ### Continuity, energy, ports -/

/-- CONTINUITY page (R312). -/
def State.contPage (s : State) (b off : Nat) : Option Nat :=
  if off = Off.CONTINUITY_CONT_STAT then
    let owed := (List.range 16).any fun q => !(s.seq (b * 16 + q)).owed.isEmpty
    some (putBits (putBits (s.rd (bp b 0x18 + off)) 2 1 (b2n (fencePages.all fun p => s.drained (bp b p)))) 5 1 (b2n owed))
  else none

/-- ENERGY page (R315, R331). -/
def State.energyPage (s : State) (b off : Nat) : Option Nat :=
  let m := s.meter b
  let r := s.fld (energyPg b + Off.ENERGY_RAIL_SEL) 0 2
  if off = Off.ENERGY_TELEM_STAT then
    some (putBits (s.rd (energyPg b + off)) 16 16 (ofSigned 16 (m.gain.getD r 0)))
  else orOpt (part off Off.ENERGY_E_BENT_LO 2 (total m.rails / ujU)) (part off Off.ENERGY_RAIL_E_LO 2 (m.rails.getD r 0 / ujU))

/-- PACE page (R332). -/
def State.pacePage (s : State) (b off : Nat) : Option Nat :=
  let v := s.rd (pacePg b + Off.PACE_VCORE_SET)
  if off = Off.PACE_PACE_STAT then
    some (putBits (putBits (s.rd (pacePg b + off)) 1 1 (b2n (v == s.rd (pacePg b + Off.PACE_VMAX)))) 2 1
      (b2n (v == s.rd (pacePg b + Off.PACE_VMIN))))
  else none

/-- LEDGER page (R333). -/
def State.ledgerPage (s : State) (off : Nat) : Option Nat :=
  orOpt (part off Off.LEDGER_MARGIN_LO 2 (ofSigned 64 s.margin)) (part off Off.LEDGER_E_PKG_LO 2 (s.account.used / ujU))

/-- FLIUD page (R358): whether a port is a tenon. -/
def State.fliudPage (s : State) (b off : Nat) : Option Nat :=
  (blk off (Off.FLIUD_PORT_STAT 0) 0x80 2).map fun k => putBits (s.rd (fliudPg b + off)) 1 1 (b2n (s.isTenon (pkgPort b k)))

/-! ### Host interface -/

/-- EVENTS page (R385). -/
def State.eventsPage (s : State) (b off : Nat) : Option Nat :=
  if off = Off.EVENTS_EVR_WR then some s.ev.wr
  else if off = Off.EVENTS_EVR_LOST then some s.ev.lost
  else if off = Off.EVENTS_FAULT_STAT then some (s.cats + b2n s.ev.faultN * 256)
  else
    (blk off (Off.EVENTS_DMA_STAT 0) 0x40 16).map fun e =>
      let run := s.dmaRuns b e
      let dry := run && (s.dma b e).descs.isEmpty
      putBits (putBits (s.rd (evPg b + off)) 0 1 (b2n run)) 1 1 (b2n dry)

/-- FOREMAN page (R386). -/
def State.foremanPage (s : State) (b off : Nat) : Option Nat :=
  if off = Off.FOREMAN_FM_UPTIME then
    some (if s.foremanRuns b then min ((s.now - mapGet (fun _ => 0) s.boot.startAt b) / secK) 0xFFFFFFFF else 0)
  else none

/-- A certificate as the IDENT registers select it (R391). -/
def State.certificate (s : State) : List Byte :=
  let w := s.rd (pkgp 4 + Off.IDENT_CERT_SEL)
  if s.has (bits w 0 3) then Config.certificate (bits w 0 3) (bits w 8 1) else []

/-- The pages locked of a bent, or of the package (8), as a map (R400). -/
def State.lockMapOf (s : State) (k : Nat) : Nat :=
  if k = 8 then maskOf 6 fun q => s.locked (pkgp q)
  else if s.has k then maskOf 48 fun p => (bentPage p).isSome && s.locked (bp k p)
  else 0

/-- IDENT page (R400). -/
def State.identPage (s : State) (off : Nat) : Option Nat :=
  let b := s.fld (pkgp 4 + Off.IDENT_CERT_SEL) 0 3
  if off = Off.IDENT_ID_STAT then
    let banks := (List.range s.variant.bents).map fun c => s.fld (bp c 0x1D + Off.FOREMAN_FM_STAT) 1 1
    some (b2n (setHas s.boot.ownerOn s.ridge) + b2n s.boot.clear * 2 + b2n (banks.any fun x => x != banks.headD 0) * 4)
  else if off = Off.IDENT_CERT_LEN then some (s.certificate.length % 2 ^ 12)
  else if 0x800 ≤ off then some (leNat ((s.certificate.drop (off - 0x800)).take 4))
  else if off = Off.IDENT_KEY_ID_LO then some (if s.has b then leNat ((keyId b).take 4) else 0)
  else if off = Off.IDENT_KEY_ID_HI then some (if s.has b then leNat (((keyId b).drop 4).take 4) else 0)
  else if off = Off.IDENT_SIGN_SEQ then some (mapGet (fun _ => 0) s.signSeq b % 2 ^ 32)
  else
    match s.boot.owner, orOpt (part off Off.IDENT_LOCK_MAP_LO 2 (s.lockMapOf (s.fld (pkgp 4 + Off.IDENT_LOCK_SEL) 0 4))) none, blk off (Off.IDENT_OWNER_HASH 0) 4 12 with
    | _, some x, _ => some x
    | some l, _, some w => if setHas s.boot.ownerOn s.ridge then some (l.getD w 0).toNat else none
    | _, _, _ => none

/-- HIER page (R360). -/
def State.hierPage (s : State) (off : Nat) : Option Nat :=
  if off = Off.HIER_HIER_STAT then
    some (putBits (putBits (putBits (s.rd hierStat) 0 3 s.ridge) 3 1 (b2n (!s.worker))) 8 8 s.pkgNum)
  else none

/-- PKG page (R409). -/
def State.pkgRead (s : State) (off : Nat) : Option Nat :=
  if off = Off.PKG_PKG_STAT then
    some (s.fld (hierPg + Off.HIER_CAND) 8 8 + maskOf 8 (fun b => s.has b && s.bentFenced b) * 2 ^ 8 + s.ridge * 2 ^ 16 +
      b2n (s.bit (pkgp 0 + off) 24) * 2 ^ 24)
  else part off Off.PKG_SERIAL_LO 2 Config.serial

/-- PURLIN page (R359). -/
def State.purlinPage (s : State) (off : Nat) : Option Nat :=
  if off = Off.PURLIN_PURLIN_STAT then some (putBits (s.rd (purlinPg + off)) 0 3 s.ridge) else none

/-! ### Reads -/

/-- The registers that the rules compute, by page. -/
def State.derived (s : State) (pr : PageRow) (a : Nat) : Option Nat :=
  let off := a % 0x1000
  let b := bentOf a
  let p := pageNo a
  if off < 0x40 then s.headRead (pageOf a) off
  else
    match pr.kind with
    | .bent => s.bentRead b off
    | .sill => s.sillRead b (p - 1) off
    | .time => s.timeRead b off
    | .edge => s.edgePage b p off
    | .tone => s.tonePage b p off
    | .probe => s.tonePage b p off
    | .flux => s.fluxPage b p off
    | .segment => s.segPage b off
    | .cap => if off = Off.CAP_CAP_STAT then some (s.capRead b (p - 0x10)) else none
    | .stamp => (blk off (Off.STAMP_IN_STAT 0) 0x20 8).map fun n => s.inRead b n
    | .freq => none
    | .cal => s.calPage b off
    | .shimstore => s.shimPage b off
    | .continuity => s.contPage b off
    | .energy => s.energyPage b off
    | .pace => s.pacePage b off
    | .fliud => s.fliudPage b off
    | .events => s.eventsPage b off
    | .foreman => s.foremanPage b off
    | .seq => s.seqPage (b * 16 + (p - 0x20)) off
    | .pkg => s.pkgRead off
    | .timebase => s.tbRead off
    | .purlin => s.purlinPage off
    | .ledger => s.ledgerPage off
    | .ident => s.identPage off
    | .hier => s.hierPage off

/-- Sill B's settings while MIRROR is 1 are those of the SILLA page (R91). -/
def State.mirrored (s : State) (a : Nat) : Bool :=
  !isPkg a && pageNo a == 2 && s.mirror (bentOf a) && decide (0x40 ≤ a % 0x1000) && a % 0x1000 != Off.SILL_SILL_CTRL

/-- The value of a register at this moment, latches aside (R5): 0 at an unpopulated or reserved offset (R6, R367). -/
def State.value (s : State) (a : Nat) : Nat :=
  match pageRow? s.variant a with
  | none => 0
  | some pr =>
    match s.derived pr a, regRow? s.variant a with
    | some x, _ => x
    | none, none => 0
    | none, some r =>
      match r.acc with
      | .rw => s.rd (canon a)
      | .rs =>
        if s.mirrored a then s.rd (a - 0x1000)
        else if pr.kind == .sill && pageNo a == 2 && s.mirror (bentOf a) && a % 0x1000 == Off.SILL_SILL_CTRL then
          putBits (s.rd (a - 0x1000)) 7 1 (bits (s.staged a).toNat 7 1)
        else (s.staged a).toNat
      | .ro => s.rd (canon a)
      | .w1c => s.rd a
      | .w1s => 0
      | .wo => 0

/-- The register whose read latches a register's value (R25), if one does. -/
def latchOf (v : Variant) (a : Nat) : Option Nat :=
  ((List.range 13).find? fun i =>
    decide (4 * (i + 1) ≤ a % 0x1000) && (match regRow? v (a - 4 * (i + 1)) with
      | none => false
      | some r => decide (i + 1 ≤ r.latches))).map fun i => a - 4 * (i + 1)

/-- The key of a reader's latch, or a writer's hold word, at a register: the host and the foreman have their own (R25). -/
def ownKey (w : Writer) (a : Nat) : Nat :=
  2 * a + (match w with
    | .host => 0
    | .foreman => 1)

/-- What a read of a register returns (R5, R25). -/
def State.read (s : State) (w : Writer) (a : Nat) : Nat :=
  match latchOf s.variant a with
  | none => s.value a
  | some _ => (mapGet (fun _ => 0) s.latch (ownKey w a)).toNat

end Sys2Proof.Machine
end

