-- ==== Sys2Proof/Machine/Pages.lean ====
section
/-!
DEFINITION. Machine/Pages.lean: the page header: PAGE_CTRL and its tests (R369, R399), the event registers (R370), HCLR
(R371), the counts of a page, holdoffs (R378), the scrubber (R17), and the acceptance of a peg (R44).
-/

namespace Sys2Proof.Machine

/-- Run an effect on a page that exists (R367). -/
def State.onPage (s : State) (pg : Page) (f : State → PageRow → State) : State :=
  match pageRow? s.variant (pageBase pg) with
  | none => s
  | some r => f s r

/-! ### PAGE_CTRL -/

/-- The lanes a page governs. -/
def pageLanes (b p : Nat) : List Nat :=
  if 4 ≤ p ∧ p < 8 then (List.range 8).map fun c => laneAddr b 0 ((p - 4) * 8 + c)
  else if 8 ≤ p ∧ p < 0xF then pageTones b p
  else if p = 0xF then (List.range 16).map fun n => laneAddr b 5 n
  else if 0x10 ≤ p ∧ p < 0x14 then [laneAddr b 4 (p - 0x10)]
  else if p = 0x14 then (List.range 4).map fun u => laneAddr b 6 u
  else if p = 0x15 then [laneAddr b 6 4, laneAddr b 6 5]
  else []

/-- What setting ENABLE starts on a page: rest-level sensing on edge channels (R113); a DAC that still holds zero after a
disable is driven again (R174). -/
def State.pageStart (s : State) (b p : Nat) : State :=
  if 4 ≤ p ∧ p < 8 then s.each ((List.range 8).map fun c => (p - 4) * 8 + c) fun s ch => s.edgeSenseIf b ch
  else if 8 ≤ p ∧ p < 0xF then
    s.each (pageTones b p) fun s l => { s with dacHold := mapSet (fun _ => none) s.dacHold (dacKey l) none }
  else if (p = 0x16 ∨ p = 0x17) ∧ !s.draining (bp b p) then s.setDrained (bp b p) false
  else s

/-- What the converters of a page have emitted until now is accounted for (log entry 176). -/
def State.pageSync (s : State) (pg : Nat) : State := if isPkg pg then s else s.syncPage (bentOf pg) (pageNo pg) s.now

/-- ENABLE is written 1; refused with 0x05 while the page is fenced. -/
def State.pageEnable (s : State) (pg : Nat) (r : PageRow) : State :=
  s.startCmd pg fun s =>
    if r.fixed then s else ((s.pageSync pg).setBit (pg + Off.PG_PAGE_CTRL) 0 true).pageStart (bentOf pg) (pageNo pg)

/-- ENABLE is written 0, an immediate disable; a fixed ENABLE ignores it (R403). -/
def State.pageDisable (s : State) (pg : Nat) (r : PageRow) : State :=
  s.command pg fun s =>
    if r.fixed || !s.enabled pg then s
    else ((s.pageSync pg).setBit (pg + Off.PG_PAGE_CTRL) 0 false).pageStop (bentOf pg) (pageNo pg)

/-- DRAIN is written 1. -/
def State.pageDrainSet (s : State) (pg : Nat) : State :=
  s.command pg fun s =>
    if s.draining pg then s
    else
      let s1 := s.setBit (pg + Off.PG_PAGE_CTRL) 1 true
      if isPkg pg then s1 else s1.pageDrain (bentOf pg) (pageNo pg)

/-- FENCE is written 1, on a page that can be fenced. -/
def State.pageFenceSet (s : State) (pg : Nat) (r : PageRow) : State :=
  s.command pg fun s => if r.fence then s.pageFence (bentOf pg) (pageNo pg) else s

/-- PAGE_ENABLE. -/
def execPageEnable (t : PT) (pg : Page) (s : State) : Out :=
  runAt t s fun s => s.onPage pg fun s r => s.pageEnable (pageBase pg) r

/-- PAGE_DISABLE. -/
def execPageDisable (t : PT) (pg : Page) (s : State) : Out :=
  runMem t s fun s => s.onPage pg fun s r => s.pageDisable (pageBase pg) r

/-- PAGE_DRAIN. -/
def execPageDrain (t : PT) (pg : Page) (s : State) : Out :=
  runMem t s fun s => s.onPage pg fun s _ => s.pageDrainSet (pageBase pg)

/-- PAGE_FENCE. -/
def execPageFence (t : PT) (pg : Page) (s : State) : Out :=
  runMem t s fun s => s.onPage pg fun s r => s.pageFenceSet (pageBase pg) r

/-- LOCK is set on a page until POR (R399); a page of a bent raises BENT.PAGE_LOCKED (R408). -/
def State.lockPage (s : State) (pg : Nat) : State :=
  s.command pg fun s =>
    let s1 := s.setBit (pg + Off.PG_PAGE_CTRL) 8 true
    if isPkg pg then s1 else s1.raise (bp (bentOf pg) 0) 7

/-- PAGE_LOCK: LOCK set until POR (R399). -/
def execPageLock (t : PT) (pg : Page) (s : State) : Out :=
  runAt t s fun s => s.onPage pg fun s _ => s.lockPage (pageBase pg)

/-- Every latched health code of a page is cleared, locked or not (R371, R399). -/
def State.hclr (s : State) (pg : Nat) : State :=
  { s with ev := { s.ev with latched := s.ev.latched.filter fun e => e.1 / 256 != pg } }

/-- HCLR. -/
def execHclr (t : PT) (pg : Page) (s : State) : Out :=
  runAt t s fun s => s.onPage pg fun s _ => s.hclr (pageBase pg)

/-- The code that refuses a page's self-test, if its terms are not met (R121, R150, R170, R194, R223, R257, R289, R314,
R358). -/
def State.testRefused (s : State) (pg : Nat) (k : PageKind) : Option Nat :=
  let b := bentOf pg
  let dr := s.drained pg
  let need (c : Bool) (code : Nat) : Option Nat := if c then none else some code
  match k with
  | .edge => need dr 0x44
  | .seq => need (dr && (s.seq (b * 16 + (pageNo pg - 0x20))).phase == .halted) 0x53
  | .segment => need dr 0x63
  | .tone => need dr 0x72
  | .probe => need dr 0x72
  | .flux => need dr 0x72
  | .cap => need dr 0x83
  | .stamp => need (dr && (List.range 8).all fun n => !s.bit (pg + Off.STAMP_IN_CFG n) 0) 0x93
  | .freq => need dr 0xA1
  | .cal => need dr 0xB6
  | .shimstore => need (dr && !s.bit (pg + Off.SHIMSTORE_SHIM_STAT) 0) 0xC6
  | .continuity => need (fencePages.all fun p => s.drained (bp b p)) 0xD5
  | .fliud => need ([0, 1].all fun q => !s.bit (pg + Off.FLIUD_PORT_CTRL q) 0) 0xF6
  | .bent => none
  | .sill => none
  | .time => none
  | .energy => none
  | .pace => none
  | .events => none
  | .foreman => none
  | .pkg => none
  | .timebase => none
  | .purlin => none
  | .ledger => none
  | .ident => none
  | .hier => none

/-- SELFTEST is written 1: the test starts, or is refused with the page's code. -/
def State.selftest (s : State) (pg : Nat) (r : PageRow) : State :=
  s.startCmd pg fun s =>
    match s.testRefused pg r.kind with
    | some c => s.latchHealth pg c
    | none => (s.setBit (pg + Off.PG_PAGE_CTRL) 3 true).setBit (pg + Off.PG_PAGE_STAT) 3 true

/-- PAGE_SELFTEST. -/
def execPageSelftest (t : PT) (pg : Page) (s : State) : Out :=
  runAt t s fun s => s.onPage pg fun s r => s.selftest (pageBase pg) r

/-- SELFTEST_DONE: a running test ends with a result. -/
def execSelftestDone (t : PT) (pg : Page) (pass : Bool) (s : State) : Out :=
  runAt t s fun s => s.onPage pg fun s _ =>
    let a := pageBase pg
    if s.bit (a + Off.PG_PAGE_STAT) 3 then
      (((s.setBit (a + Off.PG_PAGE_CTRL) 3 false).setBit (a + Off.PG_PAGE_STAT) 3 false).setBit
        (a + Off.PG_PAGE_STAT) 4 (!pass)).standing a 0x06 (!pass)
    else s

/-! ### The end of a drain -/

/-- Is anything of an admitted shot queued at a lane or on its way to it? -/
def State.laneOwed (s : State) (lane : Nat) : Bool :=
  !(s.queue lane).isEmpty || (s.inFlight lane).any fun p => !s.drainRefuses lane p

/-- The vector stream of a draining channel stands at a segment boundary after the drain was written, or is idle. -/
def State.vecBoundary (s : State) (b ch x : Nat) : Bool :=
  let y := s.stream b (s.fld (edgePg b ch + Off.EDGE_CH_VEC_CTRL (ch % 8)) 0 4)
  y.seg.isNone || decide (x ≤ y.segStart)

/-- The move of a stopped channel to its rest level (R117): one that waits already stands; else it comes at `x`, and no sooner than
1 600 kerfs after the last transition (R102). -/
def EdgeSt.restMove (e : EdgeSt) (rest : Bool) (x : Nat) : EdgeSt :=
  if e.restAt.isSome || e.base == rest then e
  else
    { e with restAt := some (match e.lastTrans with
      | none => x
      | some l => max x (l + 1600)) }

/-- A draining edge channel goes on (R117): a clock stops under R103 once nothing of an admitted shot is left, a channel that
follows a vector stream leaves it at a segment boundary, and an idle channel drives its rest level and then clears DRAINING. -/
def State.edgeDrained (s : State) (b ch : Nat) : State :=
  let lane := laneAddr b 0 ch
  match (s.edge b ch).drainAt with
  | none => s
  | some x =>
    let e := (s.edge b ch).upto (s.chRest b ch) s.now
    let follows := s.vecOn b ch && !(s.edge b ch).driverOn s.now
    if s.laneOwed lane then s
    else
      match e.eff with
      | some f => if f.count.isNone then s.setEdge b ch { e with eff := some (f.stopClock s.now) } else s
      | none =>
        if follows && !s.vecBoundary b ch x then s
        else
          let (f, endAt) := if follows then s.stopEffect s b ch (s.offLevel b ch) else (e, s.now)
          let g := (f.restMove (s.chRest b ch) endAt).upto (s.chRest b ch) s.now
          if g.restAt.isSome || decide (s.now < g.onAt) then s.setEdge b ch g
          else (s.setEdge b ch { g with drainAt := none, dk := none }).setBit (chStat b ch) 5 false

/-- A draining tone or flux lane with nothing queued or playing clears DRAINING (R191). -/
def State.toneDrained (s : State) (lane : Nat) : State :=
  let x := (s.tone lane).upto s.now
  if s.laneOwed lane || x.pulse.isSome then s else s.setTone lane { x with drainAt := none }

/-- A draining capture input with nothing left clears DRAINING (R221). -/
def State.capDrained (s : State) (b i : Nat) : State :=
  let c := s.cap b i
  if s.laneOwed (laneAddr b 4 i) || !c.wins.isEmpty || !c.held.isEmpty || c.inj.isSome || c.cont.isSome then s
  else s.setCap b i { c with drainAt := none }

/-- Is a page asked to drain: by DRAIN, by a drain of each of its lanes, or as R289 counts ENABLE and FENCE? -/
def State.drainAsked (s : State) (b p : Nat) : Bool :=
  let pg := bp b p
  s.draining pg || ((p = 0x16 || p = 0x17) && (s.fenced pg || !s.enabled pg)) ||
    (!(pageLanes b p).isEmpty && (pageLanes b p).all fun l => (s.drainAt (drainLane l)).isSome)

/-- DRAIN_DONE: the lanes of a page that have drained stop, and with the last of them DRAINED sets. -/
def State.drainDone (s : State) (b p : Nat) : State :=
  let s1 :=
    if 4 ≤ p ∧ p < 8 then s.each ((List.range 8).map fun c => (p - 4) * 8 + c) fun s ch => s.edgeDrained b ch
    else if 8 ≤ p ∧ p < 0xF then s.each (pageTones b p) fun s l => s.toneDrained l
    else if 0x10 ≤ p ∧ p < 0x14 then s.capDrained b (p - 0x10)
    else s
  let lanesDone := (pageLanes b p).all fun l =>
    !s1.laneOwed l && (laneKind l != 0 || (s1.edge b (laneIdx l)).drainAt.isNone)
  if s1.drainAsked b p && s1.pageIdle b p && lanesDone then s1.setDrained (bp b p) true else s1

/-- DRAIN_DONE. A package page has no lanes: it is drained at once. -/
def execDrainDone (t : PT) (pg : Page) (s : State) : Out :=
  runAt t s fun s => s.onPage pg fun s _ =>
    match pg with
    | .bent b p => s.drainDone b p
    | .pkg _ => if s.draining (pageBase pg) then s.setDrained (pageBase pg) true else s

/-- DRAIN is written 0: the page and its lanes take work again, and a channel in VECTOR mode follows its stream again. -/
def State.undrain (s : State) (b p : Nat) : State :=
  let s1 := ((s.setBit (bp b p + Off.PG_PAGE_CTRL) 1 false).setDrained (bp b p) false).setDrain (drainPage (bp b p)) none
  s1.each (pageLanes b p) fun s l =>
    let s := s.setDrain (drainLane l) none
    let k := laneKind l
    let i := laneIdx l
    if k = 0 then
      let e := s.edge b i
      (s.setEdge b i { e with drainAt := none, driving := e.driving && s.chMode b i != 3 }).setBit (chStat b i) 5 false
    else if k ≤ 3 then s.setTone l { s.tone l with drainAt := none }
    else if k = 4 then s.setCap b i { s.cap b i with drainAt := none }
    else s

/-! ### Event registers (R370) -/

/-- The event bits of a page that a word of a `_LO` or `_HI` register names, least first. -/
def eventBits (r : PageRow) (hi : Bool) (v : Word) : List Nat :=
  ((List.range 32).filter fun i => bitAt v.toNat i).map (· + 32 * b2n hi) |>.filter fun i => decide (i < r.events)

/-- EVT_PEND is written: clears RAW, and with it PEND, locked or not (R399). -/
def State.pendClear (s : State) (pg : Nat) (r : PageRow) (hi : Bool) (v : Word) : State :=
  s.each (eventBits r hi v) fun s i => { s with ev := { s.ev with raw := setPut s.ev.raw (pg * 64 + i) false } }

/-- EVT_FORCE is written: raises each source with its FORCED flag. -/
def State.force (s : State) (pg : Nat) (r : PageRow) (hi : Bool) (v : Word) : State :=
  s.command pg fun s => s.each (eventBits r hi v) fun s i => s.raiseAt pg i s.now 0 true

/-- EVT_EN is written: sets the enables; bits above the page's source count are reserved. -/
def State.evtEnable (s : State) (pg : Nat) (r : PageRow) (hi : Bool) (v : Word) : State :=
  s.command pg fun s =>
    let a := pg + (if hi then Off.PG_EVT_EN_HI else Off.PG_EVT_EN_LO)
    s.wr a ((eventBits r hi v).foldl (fun m i => m + 2 ^ (i % 32)) 0)

/-- EVT_PEND_CLEAR. -/
def execEvtPendClear (t : PT) (pg : Page) (hi : Bool) (v : Word) (s : State) : Out :=
  runAt t s fun s => s.onPage pg fun s r => s.pendClear (pageBase pg) r hi v

/-- EVT_FORCE. -/
def execEvtForce (t : PT) (pg : Page) (hi : Bool) (v : Word) (s : State) : Out :=
  runAt t s fun s => s.onPage pg fun s r => s.force (pageBase pg) r hi v

/-- EVT_EN_WRITE. -/
def execEvtEnWrite (t : PT) (pg : Page) (hi : Bool) (v : Word) (s : State) : Out :=
  runAt t s fun s => s.onPage pg fun s r => s.evtEnable (pageBase pg) r hi v

/-- HOLDOFF_EXPIRY: the end of a vector's holdoff fires the message of the triggers that fell within it (R378). -/
def execHoldoffExpiry (t : PT) (v : Fin 1152) (s : State) : Out :=
  runAt t s fun s =>
    match mapGet (fun _ => none) s.ev.holdoff v with
    | none => s
    | some h =>
      if h.until_ ≤ s.now then
        let s1 := { s with ev := { s.ev with holdoff := mapSet (fun _ => none) s.ev.holdoff v none } }
        if h.again then s1.fire v else s1
      else s

/-! ### Counts -/

/-- The counts that a CLR_COUNTS of the page, or of its engine or port `u`, clears. -/
def countRegs (k : PageKind) (u : Option Nat) : List Nat :=
  match k, u with
  | .edge, none => (List.range 8).flatMap fun c =>
      [Off.EDGE_CH_LATE_COUNT c, Off.EDGE_CH_DISCARD_COUNT c, Off.EDGE_CH_TRIG_COUNT c, Off.EDGE_CH_TRIG_MISSED c]
  | .seq, none => [Off.SEQ_VOID_COUNT, Off.SEQ_REPLAY_COUNT, Off.SEQ_STRETCH_COUNT, Off.SEQ_LATE_VERDICT_COUNT,
      Off.SEQ_TRIG_MISSED, Off.SEQ_DEFER_COUNT, Off.SEQ_SKIP_COUNT]
  | .segment, none => (List.range 16).flatMap fun n =>
      [Off.SEGMENT_STR_DISCARD_COUNT n, Off.SEGMENT_STR_UNDERRUN_COUNT n, Off.SEGMENT_STR_FILL_COUNT n,
       Off.SEGMENT_STR_JUMP_COUNT n, Off.SEGMENT_STR_DEFER_COUNT n, Off.SEGMENT_STR_LATE_COUNT n,
       Off.SEGMENT_STR_CONFLICT_COUNT n]
  | .tone, none => ((List.range 4).flatMap fun d =>
      [Off.TONE_DAC_CLIP_COUNT d, Off.TONE_DAC_DISCARD_COUNT d, Off.TONE_DAC_PEAK d]) ++
      (List.range 16).map fun i => Off.TONE_TONE_LATE_COUNT i
  | .probe, none => ((List.range 4).flatMap fun d =>
      [Off.TONE_DAC_CLIP_COUNT d, Off.TONE_DAC_DISCARD_COUNT d, Off.TONE_DAC_PEAK d]) ++
      (List.range 64).map fun i => Off.TONE_TONE_LATE_COUNT i
  | .flux, none => (List.range 8).flatMap fun c =>
      [Off.FLUX_FLX_LATE_COUNT c, Off.FLUX_FLX_DISCARD_COUNT c, Off.FLUX_FLX_CLIP_COUNT c]
  | .cap, none => [Off.CAP_WIN_COUNT, Off.CAP_LATE_COUNT, Off.CAP_DISCARD_COUNT, Off.CAP_DROP_COUNT, Off.CAP_INJ_COUNT,
      Off.CAP_MISMATCH_COUNT, Off.CAP_ROT_COUNT, Off.CAP_OVR_COUNT]
  | .stamp, none => [Off.STAMP_REC_DROP_COUNT, Off.STAMP_SIGN_SKIP_COUNT, Off.STAMP_ARM_DISCARD_COUNT] ++
      (List.range 8).flatMap fun n => [Off.STAMP_IN_COUNT n, Off.STAMP_IN_MISS n, Off.STAMP_IN_EXCL n]
  | .freq, none => [Off.FREQ_FRE_GATE_COUNT 0, Off.FREQ_FRE_GATE_COUNT 1]
  | .cal, none => [Off.CAL_FAIL_COUNT, Off.CAL_FORCED_COUNT]
  | .continuity, none => [Off.CONTINUITY_ECC_CORR_COUNT, Off.CONTINUITY_ECC_UNCORR_COUNT, Off.CONTINUITY_FOREMAN_RESTARTS,
      Off.CONTINUITY_RESET_GLITCH_COUNT, Off.CONTINUITY_PERST_COUNT, Off.CONTINUITY_FENCED_PEG_COUNT,
      Off.CONTINUITY_TUNNEL_DUP_COUNT, Off.CONTINUITY_ABANDON_COUNT, Off.CONTINUITY_TALLY_LOST_COUNT]
  | .energy, none => [Off.ENERGY_WAKE_LATE_COUNT, Off.ENERGY_EST_EXCEED_COUNT]
  | .pace, none => [Off.PACE_SHORT_COUNT, Off.PACE_SHORT_TIME]
  | .fliud, none => [Off.FLIUD_IMPORT_MISS_COUNT]
  | .fliud, some q => if q < 2 then [Off.FLIUD_PORT_CRC_COUNT q, Off.FLIUD_PORT_RETX_COUNT q, Off.FLIUD_PORT_VDROP_COUNT q,
      Off.FLIUD_PORT_RETRAIN_COUNT q] else []
  | .purlin, none => [Off.PURLIN_MISMATCH_COUNT, Off.PURLIN_LOSS_COUNT]
  | .hier, none => [Off.HIER_MIG_COUNT, Off.HIER_FABRIC_PARITY_COUNT]
  | .events, some e => if e < 16 then [Off.EVENTS_DMA_DROP_COUNT e, Off.EVENTS_DMA_ERR_COUNT e] else []
  | _, _ => []

/-- CLR_COUNTS of a page, or of one of its DMA engines or ports. EVENTS_CMD clears EVR_LOST. -/
def execClrCounts (t : PT) (pg : Page) (part_ : Option (Fin 16)) (s : State) : Out :=
  runAt t s fun s => s.onPage pg fun s r => s.command (pageBase pg) fun s =>
    let s1 := (s.pageSync (pageBase pg)).zero ((countRegs r.kind (part_.map fun u => u.val)).map fun o => pageBase pg + o)
    if r.kind == .events && part_.isNone then { s1 with ev := { s1.ev with lost := 0 } } else s1

/-! ### Memories and lanes -/

/-- SCRUB: the scrubber reads the word of an SRAM that holds a byte of the bent's window (R17, R18). -/
def execScrub (t : PT) (b : Fin 8) (addr : Fin 0x80000000) (ecc : Ecc) (s : State) : Out :=
  runAt t s fun s =>
    if s.memHas (mb b addr) && !s.poisoned (mb b addr) 1 then s.eccRead (mb b addr) ecc else s

/-- PEG_ACCEPT: the oldest peg on its way to a lane reaches it. `read` says whether it arrived over the fabric
with a parity error (R344), or what the check of a word of shape memory finds as the lane reads a PLAY's shape (R17); `calLive` is
the instant at which the bent's PWRUP_DONE will make the lane live (R448). -/
def execPegAccept (t : PT) (b : Fin 8) (kind : Fin 8) (idx : Fin 256) (read : PegRead) (calLive : PT)
    (s : State) : Out :=
  runMem t s fun s =>
    let lane := laneAddr b kind idx
    if s.laneValid lane then
      (match read with
       | .parity => s.acceptPeg lane true calLive.toNat .good 0
       | .whole ecc word => s.acceptPeg lane false calLive.toNat ecc word)
    else s

end Sys2Proof.Machine
end

