-- ==== Sys2Proof/Machine/Commits.lean ====
section
/-!
DEFINITION. Machine/Commits.lean: staged fields and commits (R5, R6, R21, R372, R373): the request and its snapshot, the
tests of each field and of the fields that are judged together, the boundaries, and what an apply does on each page.
-/

namespace Sys2Proof.Machine

/-! ### Tests of a field (R6) -/

/-- Is a field value of a width one the check allows? -/
def Chk.ok (c : Chk) (width v : Nat) : Bool :=
  match c with
  | .rng rs => rs.any fun r => decide (r.1 ≤ v) && decide (v ≤ r.2)
  | .sgn lo hi => decide (lo ≤ toSigned width v) && decide (toSigned width v ≤ hi)
  | .mult m lo hi => v % m == 0 && decide (lo ≤ v) && decide (v ≤ hi)

/-- A word as it takes effect: the bits a write reaches, with each field that fails its test at the value in force, and
whether one failed. -/
def RegRow.take (r : RegRow) (old v : Nat) : Nat × Bool :=
  r.checks.foldl (fun x c =>
    if c.chk.ok c.width (bits x.1 c.lo c.width) then x
    else (putBits x.1 c.lo c.width (bits old c.lo c.width), true))
    ((v &&& r.wmask) + (old &&& (0xFFFFFFFF ^^^ r.wmask)), false)

/-- Fields that a rule judges: as they stood if the test fails, with health code 0x01. A field is its register, its lowest
bit and its width. -/
def State.judge (s old : State) (pg : Nat) (fs : List (Nat × Nat × Nat)) (ok : Bool) : State :=
  if ok then s
  else (fs.foldl (fun s f => s.setFld f.1 f.2.1 f.2.2 (old.fld f.1 f.2.1 f.2.2)) s).latchHealth pg 0x01

/-- Whole registers as fields. -/
def whole (l : List Nat) : List (Nat × Nat × Nat) := l.map fun a => (a, 0, 32)

/-! ### Snapshots (R372) -/

/-- The staged registers of a page. -/
def stagedRegs (pg : Nat) (k : PageKind) : List Nat :=
  (k.rows.filter fun r => r.acc == .rs && r.wmask != 0).flatMap fun r =>
    (List.range r.count).map fun i => pg + r.base + r.stride * i

/-- Registers that the device itself moves, so that only a write staged since the last request applies: P registers
(R144), measured asymmetries (R355), and, while CLAMP_MANUAL is staged 0, the DCO clamp (R88). -/
def State.onlyWritten (s : State) (k : PageKind) (a : Nat) : Bool :=
  let off := a % 0x1000
  match k with
  | .seq => decide (Off.SEQ_P 0 ≤ off)
  | .fliud => off % 0x80 ≥ 0x24 && off % 0x80 < 0x34 && off ≥ 0x100 && off < 0x200
  | .sill => (off == Off.SILL_DCO_FLOOR || off == Off.SILL_DCO_CEIL) &&
      !bitAt (s.staged (pageOf a + Off.SILL_SILL_CTRL)).toNat 6
  | _ => false

/-- The snapshot of a page: every staged field that was written since the last request, or that is not in force. -/
def State.pageSnap (s : State) (pg : Nat) (k : PageKind) : List Staged :=
  ((stagedRegs pg k).map fun a => { addr := a, val := s.staged a, dirty := setHas s.dirty a }).filter fun e =>
    e.dirty || (e.val != s.reg e.addr && !s.onlyWritten k e.addr)

/-- The snapshot has taken the page's staged writes. -/
def State.taken (s : State) (pg : Nat) : State := { s with dirty := s.dirty.filter fun e => pageOf e.1 != pg }

/-- Would an immediate commit change a timing-affecting field (R373)? -/
def State.changesTiming (s : State) (l : List Staged) : Bool :=
  l.any fun e =>
    match regRow? s.variant e.addr with
    | none => false
    | some r => (e.val.toNat ^^^ s.rd e.addr) &&& r.timing != 0

/-- Does the snapshot stage a P register (R144)? -/
def stagesP (k : PageKind) (l : List Staged) : Bool :=
  k == .seq && l.any fun e => e.dirty && decide (Off.SEQ_P 0 ≤ e.addr % 0x1000)

/-- Has the bent of a page, or the package of a package page, locked since reset? Before that, every commit applies at
arrival. -/
def State.hasLocked (s : State) (pg : Nat) : Bool :=
  if isPkg pg then s.clk.running else (s.cal (bentOf pg)).lockAt.isSome

/-! ### What an apply does on each page -/

/-- TIME: the epoch (R35). -/
def State.timeApply (s old : State) (pg : Nat) : State :=
  let lo := pg + Off.TIME_EPOCH_FRAC_LO
  let s1 := s.judge old pg (whole [lo, lo + 4]) (decide (s.rd lo + s.fld (lo + 4) 0 12 * 2 ^ 32 < 16000000000000))
  let regs := [pg + Off.TIME_EPOCH_TAI_LO, pg + Off.TIME_EPOCH_TAI_HI, lo, lo + 4]
  s1.onlyIf (regs.any fun a => s1.reg a != old.reg a) fun s => s.bump (pg + Off.TIME_EPOCH_COUNT)

/-- The frequency range of a source in hertz (R51). -/
def srcRange (c : Nat) : Nat × Nat :=
  if c = 0 then (5000000, 250000000) else if c = 1 then (5000000, 100000000) else (40000000, 100000000)

/-- SRC_PRIO names no source twice (R64). -/
def prioOk (w : Nat) : Bool :=
  let a := bits w 0 2
  let b := bits w 2 2
  let c := bits w 4 2
  (a == 3 || (a != b && a != c)) && (b == 3 || b != c)

/-- TIMEBASE: source frequencies, the order, the warm-up policy and the discipline (R51, R55, R60, R63). -/
def State.timebaseApply (s old : State) (prio : Bool) : State :=
  let freq (c : Nat) : Nat := tbPg + Off.TIMEBASE_REFIN_FREQ + 4 * c
  let s1 := s.each [0, 1, 2] fun s c =>
    s.judge old tbPg (whole [freq c]) (decide ((srcRange c).1 ≤ s.rd (freq c)) && decide (s.rd (freq c) ≤ (srcRange c).2) &&
      (s.srcNow != c || s.reg (freq c) == old.reg (freq c)))
  let a := tbPg + Off.TIMEBASE_SRC_PRIO
  let s2 := s1.judge old tbPg [(a, 0, 6)] (prioOk (s1.rd a))
  let s2 := { s2 with tb := old.rebase.tb }
  let s3 := s2.onlyIf (old.bit (tbPg + Off.TIMEBASE_PPS_DISC) 0 && !s2.bit (tbPg + Off.TIMEBASE_PPS_DISC) 0) fun s =>
    { s with tb := old.discReset.tb }
  let s3 := s3.onlyIf (!old.bit (tbPg + Off.TIMEBASE_WARM_CTRL) 0 && s3.bit (tbPg + Off.TIMEBASE_WARM_CTRL) 0 && s3.active 1)
    fun s => s.setSince 1 (some s.now)
  let s4 := s3.onlyIf (old.bit (tbPg + Off.TIMEBASE_WARM_CTRL) 0 && !s3.bit (tbPg + Off.TIMEBASE_WARM_CTRL) 0 &&
    !s3.tb.settled && s3.qualified 1) fun s => s.srcLose 1
  (s4.onlyIf prio fun s => (s.setBit srcStat 5 false).srcReconsider).candUpdate

/-- f_u of a PRESCALE code, doubled (R68). -/
def twiceUpdate (code f : Nat) : Nat := if code = 1 then 4 * f else if code = 2 then f else 2 * f

/-- A PRESCALE code suits a source (R68): the range of f_u, and for ×2 the range of f_ref and the duty cycle. -/
def State.prescaleOk (s : State) (code c : Nat) : Bool :=
  let f := s.srcFreq c
  let duty := mapGet (fun _ => 50) s.tb.duty c
  decide (5000000 ≤ twiceUpdate code f) && decide (twiceUpdate code f ≤ 500000000) &&
    (code != 1 || (decide (f ≤ 125000000) && decide (45 ≤ duty) && decide (duty ≤ 55)))

/-- The update rate of a bent's sills is known: a follower's always, the ridge's with a source to lock to (R68, R341). -/
def State.rateKnown (s : State) (b : Nat) : Bool := b != s.ridge || s.joined || s.lockSource.isSome

/-- SILLA and SILLB: the pre-scaler, the bandwidth, the lock tolerances and the manual clamp (R68, R71, R88, R93), and what a
change of the pre-scaler, of PHASE_RATE and of the outputs does (R68, R83–R85). -/
def State.sillApply (s old : State) (pg : Nat) : State :=
  let b := bentOf pg
  let k := pageNo pg - 1
  let ctl := pg + Off.SILL_SILL_CTRL
  let c := s.fld ctl 0 2
  let ridge := b == s.ridge && !s.joined
  let s1 := s.judge old pg [(ctl, 0, 2)] (c != 3 && (!ridge || (match s.lockSource with
    | none => true
    | some src => s.prescaleOk c src)))
  let bw := pg + Off.SILL_LOOP_BW
  let per := s1.period b k
  let s2 := s1.judge old pg (whole [bw]) (!s1.rateKnown b || decide (50 * s1.fld bw 0 21 * per.1 ≤ secK * per.2))
  let lt := pg + Off.SILL_LOCK_TOL
  let ut := pg + Off.SILL_UNLOCK_TOL
  let s3 := s2.judge old pg (whole [lt, ut]) (decide (s2.fld lt 0 24 < s2.fld ut 0 24))
  let lo := pg + Off.SILL_DCO_FLOOR
  let hi := pg + Off.SILL_DCO_CEIL
  let w := targetWord (s3.sillN b (s3.activeSill b))
  let s4 := if s3.bit ctl 6 then
      s3.judge old pg (whole [lo, hi]) (decide (s3.fld lo 0 28 < w) && decide (w < s3.fld hi 0 28) &&
        decide (s3.fld hi 0 28 ≤ 0x0FA56EA0))
    else (s3.wr lo (old.rd lo)).wr hi (old.rd hi)
  let s5 := s4.onlyIf (old.fld ctl 0 2 != s4.fld ctl 0 2) fun s => s.each [0, 1] fun s j =>
    if s.sillCfg b j == pg then s.newPhase b j else s
  let s6 := s5.onlyIf (b == s5.ridge && s5.phaseRate != old.phaseRate && old.phaseNow != 0) fun s =>
    s.setPhaseLeft b (ofSigned 32 old.phaseNow)
  if s6.sillCfg b (s6.activeSill b) == pg then s6.outputsCommit old b else s6

/-- EDGE: patterns, trigger delays and widths, trigger and vector sources, and modes (R101, R105, R107, R109, R113, R116, R118,
R124). A channel that a commit gives another stream has seen no D0 or D1 of it (R164). -/
def State.edgeCommit (s old : State) (pg : Nat) : State :=
  let b := bentOf pg
  let s1 := s.each (List.range 8) fun s p =>
    let lo := pg + Off.EDGE_PAT_PERIOD_LO p
    let period := s.rd lo + s.fld (lo + 4) 0 8 * 2 ^ 32
    let width := s.rd (lo + 8)
    s.judge old pg (whole [lo, lo + 4, lo + 8, lo + 12]) (decide (3200 ≤ period) && decide (1600 ≤ width) &&
      decide (width + 1600 ≤ period) && decide (1 ≤ s.rd (lo + 12)))
  let s2 := s1.each (List.range 8) fun s c =>
    let d := pg + Off.EDGE_CH_TRIG_DELAY_LO c
    let w := pg + Off.EDGE_CH_TRIG_WIDTH_LO c
    let q := pg + Off.EDGE_CH_TRIG_SRC c
    let v := pg + Off.EDGE_CH_VEC_CTRL c
    let s := s.judge old pg (whole [d, d + 4]) (decide (s.rd d + s.fld (d + 4) 0 22 * 2 ^ 32 ≤ 16000000000000000))
    let s := s.judge old pg (whole [w, w + 4]) (decide (1600 ≤ s.rd w + s.fld (w + 4) 0 8 * 2 ^ 32))
    let s := s.judge old pg [(q, 0, 6)] (s.bit q 0 || decide (s.fld q 1 5 < 8))
    s.judge old pg [(v, 16, 14)] (decide (s.fld v 16 14 < 5 * s.clk.n))
  let s3 := s2.each ((List.range 8).map fun c => (pageNo pg - 4) * 8 + c) fun s ch =>
    let s := if bits (s.vecCtrl b ch) 0 4 = bits (old.vecCtrl b ch) 0 4 then s
      else s.setEdge b ch { s.edge b ch with dk := none }
    let m := s.chMode b ch
    let m' := old.chMode b ch
    if m = m' then s
    else if m = 0 then s.edgeDisableFrom old b ch
    else if m' = 0 then s.edgeSenseIf b ch
    else s.modeChange old b ch
  s3.each (List.range 32) fun s ch => s.trigAdvise b ch

/-- A source field: TYPE, INDEX and what a type allows of it (R104, R134, R243, R260). -/
def srcOk (type idx : Nat) (marker : Bool) : Bool :=
  if type = 0 then decide (idx < 8) else if type = 1 then decide (idx < 32) else if type = 2 then marker else idx == 0

/-- SEQ: the trigger source is one that exists (R151), and a held sequencer that no longer gates goes on (R138). -/
def State.seqApply (s old : State) (pg : Nat) : State :=
  let k := bentOf pg * 16 + (pageNo pg - 0x20)
  let a := pg + Off.SEQ_SHOT_START
  let s := s.judge old pg [(a, 2, 6)] (srcOk (s.fld a 2 1) (s.fld a 3 5) false)
  if (s.seq k).phase == .gateHold && !s.gates k then s.planNext k (s.granCeil s.now) else s

/-- KIND and TARGET of a stream agree (R154). -/
def targetOk (b cfg : Nat) : Bool :=
  let k := bits cfg 0 2
  let l := bits cfg 16 15
  if k = 0 then true
  else if k = 3 then l == 0
  else laneBent l == b && (if k = 1 then laneKind l == 1 || laneKind l == 2 else laneKind l == 3) &&
    decide (laneIdx l < kindCount (laneKind l))

/-- SEGMENT: streams and their rings, held while a stream plays; a later commit replaces what is held (R154, R166, R170). -/
def State.segApply (s old : State) (pg : Nat) : State :=
  let b := bentOf pg
  s.each (List.range 16) fun s n =>
    let c := pg + Off.SEGMENT_STR_CFG n
    let rb := pg + Off.SEGMENT_STR_RING_BASE n
    let rs := pg + Off.SEGMENT_STR_RING_SIZE n
    let v := pg + Off.SEGMENT_STR_VEC_STROBE n
    let s := s.judge old pg [(v, 0, 14)] (decide (s.fld v 0 14 < 5 * s.clk.n))
    let s := s.judge old pg [(c, 0, 2), (c, 16, 15)] (targetOk b (s.rd c))
    let s := s.judge old pg (whole [c, rb, rs]) (s.fld rb 0 24 % 16 == 0 && decide (8 ≤ s.fld rs 0 24) &&
      decide (s.fld rb 0 24 + s.fld rs 0 24 * kindBytes (s.fld c 0 2) ≤ 0x1000000))
    let x := s.stream b n
    let regs := [c, rb, rs, pg + Off.SEGMENT_STR_FILL_SEG n, v]
    if x.seg.isNone then s
    else
      (regs.foldl (fun s a => s.wr a (old.rd a)) s).setStream b n { x with
        heldCfg := if regs.map s.rd = regs.map old.rd then none else some (regs.map s.rd) }

/-- A tone that is enabled lies outside the band of its DAC's MODE (R187). -/
def State.bandBad (s : State) (l : Nat) : Bool :=
  let band : Nat × Nat := if s.bit (tonePg l + Off.TONE_DAC_CTRL (toneDac l)) 1 then (40, 90) else (2, 45)
  let f := 100 * s.toneFreq l
  s.bit (toneCtrl l) 0 && (decide (f < band.1 * 2 ^ 48) || decide (band.2 * 2 ^ 48 < f))

/-- DRIVE, PROBE and FLUX: enables cleared disable their lanes, a staged frame sets Θ, and 0x74 stands while an enabled tone lies
outside its DAC's band (R174, R180, R187, R190). -/
def State.toneApply (s old : State) (pg : Nat) (frames : List Nat) : State :=
  let lanes := pageTones (bentOf pg) (pageNo pg)
  let s1 := s.each lanes fun s l =>
    let dac := tonePg l + (if isFlux l then Off.FLUX_FLX_CTRL (laneIdx l % 8) else Off.TONE_DAC_CTRL (toneDac l))
    let s := if frames.contains (pg + Off.TONE_TONE_FRAME (toneNo l)) && !isFlux l then
        s.setTone l { s.tone l with theta := s.fld (pg + Off.TONE_TONE_FRAME (toneNo l)) 0 16 }
      else s
    if old.bit dac 0 && !s.bit dac 0 then s.toneDisable l
    else if !old.bit dac 0 && s.bit dac 0 then
      { s with dacHold := mapSet (fun _ => none) s.dacHold (dacKey l) none }
    else if old.bit (toneCtrl l) 0 && !s.bit (toneCtrl l) 0 then
      let s := s.toneStop l
      s.setTone l { s.tone l with drainAt := none }
    else s
  s1.standing pg 0x74 (lanes.any fun l => !isFlux l && s1.bandBad l)

/-- CAP: EN cleared is an immediate disable (R220), and ring geometry waits for windows and blocks (R224). -/
def State.capApply (s old : State) (pg : Nat) : State :=
  let b := bentOf pg
  let i := pageNo pg - 0x10
  let rb := pg + Off.CAP_RING_BASE
  let rs := pg + Off.CAP_RING_SIZE
  let s0 := s.capSync b i
  let c := s0.cap b i
  let s1 :=
    if (c.wins.isEmpty && c.cont.isNone) || (s0.reg rb == old.reg rb && s0.reg rs == old.reg rs) then s0
    else
      ((s0.wr rb (old.rd rb)).wr rs (old.rd rs)).setCap b i { c with ringHeld := some (s0.rd rb, s0.rd rs) }
  if old.bit (pg + Off.CAP_CAP_CTRL) 0 && !s1.bit (pg + Off.CAP_CAP_CTRL) 0 then s1.capDisable b i else s1

/-- STAMP: sources of the interval units (R258), and ring geometry waits while a record is pending (R253). -/
def State.stampApply (s0 old : State) (pg : Nat) : State :=
  let b := bentOf pg
  let s := s0.each (List.range 8) fun s i =>
    let a := if i < 4 then pg + Off.STAMP_TIU_START_SRC i else pg + Off.STAMP_TIU_STOP_SRC (i - 4)
    s.judge old pg [(a, 0, 8)] (srcOk (s.fld a 0 2) (s.fld a 2 6) true)
  let rb := pg + Off.STAMP_REC_BASE
  let rs := pg + Off.STAMP_REC_SIZE
  if (s.reg rb == old.reg rb && s.reg rs == old.reg rs) || !s.signQ.any (fun q => q.1 == b) then s
  else
    ({ s with recHeld := mapSet (fun _ => none) s.recHeld b (some (s.rd rb, s.rd rs)) }.wr rb (old.rd rb)).wr rs (old.rd rs)

/-- FREQ: gate lengths, nominal frequencies and sources (R249, R260). -/
def State.freqApply (s old : State) (pg : Nat) : State :=
  s.each [0, 1] fun s e =>
    let g := pg + Off.FREQ_FRE_GATE_LO e
    let n := pg + Off.FREQ_FRE_NOMINAL_LO e
    let v := s.rd g + s.fld (g + 4) 0 22 * 2 ^ 32
    let s := s.judge old pg (whole [g, g + 4]) (decide (16000000000 ≤ v) && decide (v ≤ 16000000000000000))
    let s := s.judge old pg (whole [n, n + 4]) (s.rd (n + 4) != 0)
    let c := pg + Off.FREQ_FRE_SRC e
    s.judge old pg [(c, 0, 8)] (srcOk (s.fld c 0 2) (s.fld c 2 6) false)

/-- ENERGY: FORCE of the groups and the bent's state (R325–R327). -/
def State.energyApply (s old : State) (pg : Nat) : State :=
  let b := bentOf pg
  let s1 := s.each (List.range 13) fun s g =>
    let a := pg + Off.ENERGY_GRP_CTRL g
    if s.reg a == old.reg a then s else s.forceCommit b g (old.rd a)
  let a := pg + Off.ENERGY_BENT_STATE
  if s1.reg a == old.reg a then s1 else s1.bentCommit b (old.rd a)

/-- PACE: VMIN and VMAX (R329, R332). -/
def State.paceApply (s old : State) (pg : Nat) : State :=
  let hi := pg + Off.PACE_VMAX
  let lo := pg + Off.PACE_VMIN
  let s1 := s.judge old pg (whole [hi, lo]) (decide (550 ≤ s.rd lo) && decide (s.rd lo ≤ s.rd hi) && decide (s.rd hi ≤ 800))
  s1.paceCommit (bentOf pg)

/-- LEDGER: the cap, the account and the package's state (R318, R328, R333). -/
def State.ledgerApply (s old : State) (pg : Nat) : State :=
  let c := pg + Off.LEDGER_CAP
  let s1 := s.judge old pg (whole [c]) (decide (1000 ≤ s.rd c) && decide (s.rd c ≤ maxPower s.variant))
  let en := pg + Off.LEDGER_LEDGER_CTRL
  let s2 := s1.ledgerCommit (s1.bit en 0 && !old.bit en 0)
  let p := pg + Off.LEDGER_PKG_STATE
  if s2.reg p == old.reg p then s2 else s2.pkgCommit (old.rd p)

/-- FLIUD: a port whose EN clears goes down (R353). -/
def State.fliudApply (s old : State) (pg : Nat) : State :=
  s.each [0, 1] fun s k =>
    let a := pg + Off.FLIUD_PORT_CTRL k
    if old.bit a 0 && !s.bit a 0 then s.portDown (bentOf pg) k false else s

/-- HIER: the tree's ports, held while JOINED is 1 (R345, R347, R360). -/
def State.hierApply (s old : State) : State :=
  let ports := 2 * s.variant.bents
  let tenon := s.fld hierCtrl 8 4
  let alt := s.fld hierCtrl 12 4
  let s1 := s.judge old hierPg [(hierCtrl, 8, 4)] (decide (tenon < ports))
  let s2 := s1.judge old hierPg [(hierCtrl, 12, 4)] (decide (alt < ports))
  let s3 := s2.judge old hierPg [(hierCtrl, 16, 1)] (!s2.bit hierCtrl 16 || s2.fld hierCtrl 8 4 / 2 != s2.fld hierCtrl 12 4 / 2)
  if s3.joined then
    let w := s3.rd hierCtrl
    let o := old.rd hierCtrl
    let keep := putBits (putBits (putBits w 0 1 (bits o 0 1)) 8 8 (bits o 8 8)) 16 1 (bits o 16 1)
    { s3 with tree := { s3.tree with heldCtrl := some w } }.wr hierCtrl keep
  else s3.candUpdate

/-- What an apply does beside the registers' new values, on each page. `written` are the registers staged since the
request before. -/
def State.applyPage (s old : State) (pg : Nat) (k : PageKind) (written : List Nat) : State :=
  match k with
  | .time => s.timeApply old pg
  | .timebase => s.gathered fun s => s.timebaseApply old (written.contains (tbPg + Off.TIMEBASE_SRC_PRIO))
  | .sill => s.sillApply old pg
  | .edge => s.edgeCommit old pg
  | .seq => s.seqApply old pg
  | .segment => s.segApply old pg
  | .tone => s.toneApply old pg written
  | .probe => s.toneApply old pg written
  | .flux => s.toneApply old pg written
  | .cap => s.capApply old pg
  | .stamp => s.stampApply old pg
  | .freq => s.freqApply old pg
  | .energy => s.energyApply old pg
  | .pace => s.paceApply old pg
  | .ledger => s.ledgerApply old pg
  | .fliud => s.fliudApply old pg
  | .hier => s.hierApply old
  | .cal => s
  | .shimstore => s
  | .continuity => s
  | .purlin => s
  | .bent => s
  | .events => s
  | .foreman => s
  | .ident => s
  | .pkg => s

/-- One staged register takes effect, with the tests of its fields. -/
def State.applyReg (s : State) (pg : Nat) (e : Staged) : State :=
  match regRow? s.variant e.addr with
  | none => s
  | some r =>
    let x := r.take (s.rd e.addr) e.val.toNat
    let s1 := s.wr e.addr x.1
    if x.2 then s1.latchHealth pg 0x01 else s1

/-- A commit on a capture or stamp page whose settings let the page's group fall idle starts its IDLE_TIME (R325). -/
def State.idleEdge (s old : State) (pg : Nat) (kind : PageKind) : State :=
  let b := bentOf pg
  let g := if kind = .stamp then 12 else 7 + (pageNo pg - 0x10)
  if (kind = .stamp || kind = .cap) && !old.groupIdle b g && s.groupIdle b g then
    { s with touched := mapSet (fun _ => 0) s.touched (laneAddr b 15 g) s.now }
  else s

/-- A snapshot applies at an instant (R372); what converters of the page have emitted until now is counted first. -/
def State.applySnap (s : State) (pg : Nat) (snap : List Staged) (x : Nat) : State :=
  match pageRow? s.variant pg with
  | none => s
  | some pr =>
    let s := if isPkg pg then s else s.syncPage (bentOf pg) (pageNo pg) s.now
    let s1 := snap.foldl (fun s e => s.applyReg pg e) s
    let s2 := (s1.wr (pg + Off.PG_PAGE_SEQ) (s1.rd (pg + Off.PG_PAGE_SEQ) + 1)).wr (pg + Off.PG_COMMIT_STAT) (x % 2 ^ 32)
    (s2.applyPage s pg pr.kind ((snap.filter fun e => e.dirty).map fun e => e.addr)).idleEdge s pg pr.kind

/-! ### Requests and boundaries -/

/-- The commits of a page that are pending, oldest first. -/
def State.pendingOf (s : State) (pg : Nat) : List Commit := s.commits.filter fun c => c.page == pg

/-- COMMIT with CANCEL 0: a request of a kind. -/
def State.commitRequest (s : State) (pg : Nat) (pr : PageRow) (kind : Nat) : State :=
  if 4 < kind then s.latchHealth pg 0x01
  else
    let snap := s.pageSnap pg pr.kind
    if !s.hasLocked pg then (s.taken pg).applySnap pg snap 0
    else if stagesP pr.kind snap && kind != 3 && kind != 4 then s.latchHealth pg 0x54
    else if kind = 0 && s.changesTiming snap then s.latchHealth pg 0x02
    else if 4 ≤ (s.pendingOf pg).length then s.latchHealth pg 0x03
    else if kind = 0 && (s.pendingOf pg).isEmpty then (s.taken pg).applySnap pg snap s.now
    else
      { s.taken pg with
        commits := s.commits ++ [{ page := pg, kind := kind, at_ := s.now, from_ := 0, snap := snap }] }

/-- COMMIT: a commit request (R372). -/
def execCommit (t : PT) (pg : Page) (kind : Fin 16) (s : State) : Out :=
  runMem t s fun s => s.onPage pg fun s pr => s.command (pageBase pg) fun s => s.commitRequest (pageBase pg) pr kind

/-- The staged writes that the pending commits of a page had taken. -/
def State.heldWrites (s : State) (pg : Nat) : List Nat :=
  ((s.pendingOf pg).flatMap fun c => c.snap.filter fun e => e.dirty).map fun e => e.addr

/-- The pending commits of a page are discarded, and what they staged belongs to the next (R180, R372). A sequencer that only they
held goes on. -/
def State.commitCancel (s : State) (pg : Nat) : State :=
  { s with
    commits := s.commits.filter fun c => c.page != pg
    dirty := (s.heldWrites pg).foldl (fun l a => setPut l a true) s.dirty }.releaseHeld (s.granCeil s.now)

/-- COMMIT with CANCEL 1. -/
def execCommitCancel (t : PT) (pg : Page) (s : State) : Out :=
  runAt t s fun s => s.onPage pg fun s _ => s.command (pageBase pg) fun s => s.commitCancel (pageBase pg)

/-- Is a page with lanes quiet (R372, kind 1): no effect, window or stream runs and no queued peg has a PT within 1 µs? -/
def State.pageQuiet (s : State) (b p : Nat) : Bool :=
  let lanes := if p = 3 then (List.range 64).map fun i => laneAddr b 7 i else pageLanes b p
  (lanes.all fun l => s.laneIdle l) &&
    (if p = 0xF then (List.range 16).all fun n => (s.stream b n).seg.isNone
     else if p = 0x14 then (List.range 4).all fun u => !(s.tiu b u).armed
     else if p = 0x15 then [0, 1].all fun e => (s.fre b e).gate.isNone
     else true)

/-- Has a page lanes (R39)? -/
def hasLanes (pg : Nat) : Bool := !isPkg pg && (pageNo pg == 3 || !(pageLanes (bentOf pg) (pageNo pg)).isEmpty)

/-- The boundary of a pending commit, if it is reached. -/
def State.boundaryOf (s : State) (c : Commit) : Option Nat :=
  let gran := s.granCeil (c.at_ + s.gK)
  let x :=
    if c.kind = 0 then some s.now
    else if c.kind = 1 ∧ hasLanes c.page then
      (if s.pageQuiet (bentOf c.page) (pageNo c.page) then some s.nowTick else none)
    else if c.kind ≤ 2 then (if gran ≤ s.now then some gran else none)
    else if s.allGated (c.kind == 4) && decide (s.gateBoundary c.at_ ≤ s.now) then some (s.gateBoundary c.at_)
    else none
  x.map fun y => max y c.from_

/-- COMMIT_APPLY: the oldest pending commit of a page applies at its boundary, and never before an earlier one. -/
def State.commitApply (s : State) (pg : Nat) : State :=
  match s.pendingOf pg with
  | [] => s
  | c :: _ =>
    match s.boundaryOf c with
    | none => s
    | some x =>
      let rest := (s.commits.erase c).map fun d => if d.page = pg then { d with from_ := x } else d
      let s1 := { s with commits := rest }.applySnap pg c.snap x
      if c.kind = 3 ∨ c.kind = 4 then s1.releaseHeld x else s1

/-- COMMIT_APPLY. -/
def execCommitApply (t : PT) (pg : Page) (s : State) : Out :=
  runMem t s fun s => s.onPage pg fun s _ => s.commitApply (pageBase pg)

end Sys2Proof.Machine
end

