-- ==== Sys2Proof/Machine/Flash.lean ====
section
/-!
DEFINITION. Machine/Flash.lean: the boot flash (R426), firmware images and their check (R396, R397), configuration copies
(R427), the running bank of a foreman (R386), and the mailbox beside its commands (R386–R388).
-/

namespace Sys2Proof.Machine

/-- The FOREMAN page of a bent. -/
abbrev fmPg (b : Nat) : Nat := bp b 0x1D

/-- The CONTINUITY page of a bent. -/
abbrev conPg (b : Nat) : Nat := bp b 0x18

/-- The IDENT page. -/
abbrev identPg : Nat := pkgp 4

/-! ### The flash -/

/-- The flash offset of a firmware bank. -/
def bankBase (k : Nat) : Nat := 0x100000 + k * 0x800000

/-- The flash offset of a configuration copy: 0 is A, 1 is B. -/
def copyBase (c : Nat) : Nat := 0x1100000 + c * 0x100000

/-- The bytes of a bank. -/
def bankSize : Nat := 0x800000

/-- The bytes kept for a configuration copy. -/
def copySize : Nat := 0x100000

/-- A byte of the boot flash: as written by the part, 0xFF in an erased bank, else as the board left it. -/
def State.flashByte (s : State) (a : Nat) : Byte :=
  match mapGet (fun _ => none) s.boot.flash a with
  | some v => v
  | none => if a < copyBase 0 && setHas s.boot.erased ((a - bankBase 0) / bankSize) then 0xFF else Config.flashImage a

/-- Bytes of the boot flash. -/
def State.flashRd (s : State) (a n : Nat) : List Byte := (List.range n).map fun i => s.flashByte (a + i)

/-- Write bytes of the boot flash. -/
def State.flashWr (s : State) (a : Nat) (l : List Byte) : State :=
  { s with boot := { s.boot with
    flash := (List.range l.length).foldl (fun m i => mapSet (fun _ => none) m (a + i) (some (l.getD i 0))) s.boot.flash } }

/-- The little-endian bytes of a 32-bit word. -/
def wordLE (v : Nat) : List Byte := (List.range 4).map fun i => BitVec.ofNat 8 (bits v (8 * i) 8)

/-- The big-endian bytes of a 32-bit word. -/
def wordBE (v : Nat) : List Byte := (wordLE v).reverse

/-! ### Firmware images (R396, R397) -/

/-- The length of the image in a bank. -/
def State.imageLen (s : State) (k : Nat) : Nat :=
  match mapGet (fun _ => none) s.boot.lens k with
  | some n => n
  | none => Config.imageLength k

/-- The image in a bank: its body and its trailer. -/
def State.image (s : State) (k : Nat) : List Byte := s.flashRd (bankBase k) (s.imageLen k)

/-- The trailer of an image. -/
def trailer (l : List Byte) : List Byte := l.drop (l.length - 384)

/-- What both signatures sign: the digest of the body and the first 16 bytes of the trailer. -/
def imageDigest (l : List Byte) : List Byte := Config.sha384 (l.take (l.length - 384 + 16))

/-- Does an image verify, with the owner key hash in force? -/
def imageOk (l : List Byte) (owner : Option (List Word)) : Bool :=
  let tr := trailer l
  let key := (tr.drop 208).take 120
  decide (384 ≤ l.length) && Config.ecdsaVerify Config.valaneKey (imageDigest l) ((tr.drop 16).take 96) &&
  match owner with
  | none => true
  | some h =>
    Config.sha384 key == h.flatMap (fun w => wordBE w.toNat) &&
      Config.ecdsaVerify key (imageDigest l) ((tr.drop 112).take 96)

/-- Does the image in a bank verify? One left part-written does not (R388). -/
def State.bankOk (s : State) (k : Nat) (owner : Option (List Word)) : Bool :=
  !setHas s.boot.bad k && decide (s.imageLen k ≤ bankSize) && imageOk (s.image k) owner

/-- The firmware version of the image in a bank. -/
def State.version (s : State) (k : Nat) : Nat := Config.versionOf ((trailer (s.image k)).take 16) % 2 ^ 16

/-- An image failed its check: VERIFY_FAIL and 0xF9 (R397, R401). -/
def State.verifyFail (s : State) : State := (s.raise identPg 1).latchHealth identPg 0xF9

/-- The bank the foreman of a bent runs. -/
def State.bankOf (s : State) (b : Nat) : Nat := s.fld (fmPg b + Off.FOREMAN_FM_STAT) 1 1

/-- The owner key hash in force on a bent (R398). -/
def State.ownerHash (s : State) (b : Nat) : Option (List Word) := if setHas s.boot.ownerOn b then s.boot.owner else none

/-- The foreman of a bent is up on a bank (R386, R312). -/
def State.foremanUp (s : State) (b k : Nat) : State :=
  let v := s.version k
  let s1 := s.wr (fmPg b + Off.FOREMAN_FM_STAT) (1 + 2 * k + v * 2 ^ 16)
  let a := conPg b + Off.CONTINUITY_CONT_STAT
  let s2 := (s1.setBit a 1 true).setBit a 3 (k == 1)
  let f := conPg b + Off.CONTINUITY_FW_STAT
  let s3 := s2.wr f (putBits (putBits (s2.rd f) 0 1 k) 16 16 v)
  { s3 with boot := { s3.boot with
    banks := mapSet (fun _ => 0) s3.boot.banks b k
    startAt := mapSet (fun _ => 0) s3.boot.startAt b s.now
    downAt := mapSet (fun _ => none) s3.boot.downAt b none
    ownerOn := setPut s3.boot.ownerOn b s3.boot.owner.isSome } }

/-! ### Configuration copies (R427) -/

/-- The bytes of a configuration copy, if it is valid. -/
def State.cfgCopy (s : State) (c : Nat) : Option (List Byte) :=
  let n := leNat (s.flashRd (copyBase c + 4) 4)
  let l := s.flashRd (copyBase c) n
  let p := leNat ((l.drop 0x5C).take 4)
  if !setHas s.boot.bad (2 + c) && decide (0x64 ≤ n) && decide (n ≤ copySize) && leNat (l.take 4) == 0x47434647 &&
      decide (p ≤ 65536) && decide (0x64 + 8 * p ≤ n) && leNat (l.drop (n - 4)) == Config.crc32 (l.take (n - 4)) then some l
  else none

/-- The sequence number of a copy. -/
def cfgSeq (l : List Byte) : Nat := leNat ((l.drop 8).take 4)

/-- The preloads of a copy: BAR0 offset and value, in order. -/
def cfgPreloads (l : List Byte) : List (Nat × Word) :=
  (List.range (leNat ((l.drop 0x5C).take 4))).map fun i =>
    (leNat ((l.drop (0x60 + 8 * i)).take 4), BitVec.ofNat 32 (leNat ((l.drop (0x64 + 8 * i)).take 4)))

/-- The copy that a start-up chooses: the valid one with the higher sequence number. -/
def State.cfgPick (s : State) : Option (Nat × List Byte) :=
  match s.cfgCopy 0, s.cfgCopy 1 with
  | some a, some b => if cfgSeq b ≤ cfgSeq a then some (0, a) else some (1, b)
  | some a, none => some (0, a)
  | none, some b => some (1, b)
  | none, none => none

/-- The configuration copy in force: 0 is A, 1 is B (CONT_STAT.CFG_COPY). -/
def State.cfgInForce (s : State) : Nat := s.fld (conPg s.ridge + Off.CONTINUITY_CONT_STAT) 4 1

/-! ### The mailbox (R386–R388) -/

/-- MBX_STAT of a bent. -/
abbrev mbxStat (b : Nat) : Nat := fmPg b + Off.FOREMAN_MBX_STAT

/-- A mailbox command runs. -/
def State.mbxBusy (s : State) (b : Nat) : Bool := s.bit (mbxStat b) 0

/-- The command that runs on a bent's mailbox. -/
def State.mbx (s : State) (b : Nat) : Option Mbx := mapGet (fun _ => none) s.boot.mbx b

/-- Put or end the command that runs. -/
def State.setMbx (s : State) (b : Nat) (x : Option Mbx) : State :=
  { s with boot := { s.boot with mbx := mapSet (fun _ => none) s.boot.mbx b x } }

/-- The data window: its first `n` bytes. -/
def State.mbxData (s : State) (b n : Nat) : List Byte :=
  (List.range n).map fun i => BitVec.ofNat 8 (s.fld (fmPg b + 0x800 + i / 4 * 4) (8 * (i % 4)) 8)

/-- The data window takes bytes from its start on. -/
def State.setMbxData (s : State) (b : Nat) (l : List Byte) : State :=
  (List.range l.length).foldl (fun s i =>
    s.setFld (fmPg b + 0x800 + i / 4 * 4) (8 * (i % 4)) 8 (l.getD i 0).toNat) s

/-- A command ends with a status: DONE, MBX_DONE, and 0x39 unless the status is 0. -/
def State.mbxEnd (s : State) (b status : Nat) : State :=
  let s1 := (s.setMbx b none).wr (mbxStat b) (2 + status * 256)
  let s2 := if status = 0 then s1 else s1.latchHealth (fmPg b) 0x39
  s2.raise (fmPg b) 0

/-- A flash operation is under way elsewhere: a firmware switch, a store, or a mailbox command on the flash (status 1). -/
def State.flashBusy (s : State) : Bool :=
  s.boot.switch.isSome || (List.range s.variant.bents).any fun b =>
    s.bit (shimStat b) 0 || (match s.mbx b with
      | none => false
      | some m => m.op != 1)

/-- A command is issued (R387): ignored while one runs, ended at once with the status that `check` answers, else it runs.
While the foreman is away nothing answers it. -/
def State.mbxIssue (s : State) (b op : Nat) (check : State → State × Nat) : State :=
  s.command (fmPg b) fun s =>
    if s.mbxBusy b then s.latchHealth (fmPg b) 0x38
    else
      let arg0 := s.rd (fmPg b + Off.FOREMAN_MBX_ARG0)
      let n := s.fld (fmPg b + Off.FOREMAN_MBX_LEN) 0 12
      let m : Mbx := { op := op, arg0 := arg0, arg1 := s.rd (fmPg b + Off.FOREMAN_MBX_ARG1), len := n, data := s.mbxData b n }
      let (s1, st) := if s.foremanRuns b then check s else (s, 0)
      if st != 0 then s1.mbxEnd b st else (s1.setMbx b (some m)).wr (mbxStat b) 1

/-- The statuses of a flash command before its own tests: only on the ridge's page, and not beside another operation. -/
def State.flashCheck (s : State) (b : Nat) : Nat :=
  if b ≠ s.ridge then 7 else if s.flashBusy then 1 else 0

/-- The OPs of R387. -/
def mbxOps : List Nat := [0x01, 0x10, 0x11, 0x12, 0x20, 0x21, 0x22, 0x30]

/-- MBX_CMD written with a reserved OP: status 2. -/
def State.mbxReserved (s : State) (b v : Nat) : State :=
  if s.mbxBusy b then s.latchHealth (fmPg b) 0x38
  else if bitAt v 31 && !mbxOps.contains (bits v 0 8) then s.mbxEnd b 2
  else s

/-- Does an operation write the flash? -/
def mbxWrites (op : Nat) : Bool := [0x10, 0x11, 0x20, 0x21, 0x22].contains op

/-- The bank or copy that a running write leaves part-written is invalid (R388). -/
def State.mbxSpoil (s : State) (b : Nat) : State :=
  match s.mbx b with
  | none => s
  | some m =>
    if !mbxWrites m.op then s
    else
      let k := if m.op < 0x20 then 1 - s.bankOf b else 2 + (1 - s.cfgInForce)
      { s with boot := { s.boot with bad := setPut s.boot.bad k true } }

end Sys2Proof.Machine
end

