-- ==== Sys2Proof/Machine/Bus.lean ====
section
/-!
DEFINITION. Machine/Bus.lean: register writes by access code (R5, R6, R367, R399), the hold registers and latches of
PT-valued registers (R25), the MSI-X table (R378), and BAR2 (R368).
-/

namespace Sys2Proof.Machine

/-! ### Writable PT registers (R25) -/

/-- The `_LO` offset of the writable PT register that an offset belongs to, and which of its words it is. -/
def ptWord (k : PageKind) (off : Nat) : Option (Nat × Nat) :=
  let at_ (lo : Nat) : Option (Nat × Nat) := (blk off lo 4 3).map fun i => (lo, i)
  match k with
  | .time => at_ Off.TIME_ALARM_PT_LO
  | .timebase => at_ Off.TIMEBASE_AGE_EPOCH_LO
  | .seq => at_ Off.SEQ_FIRST_PT_LO
  | .segment => (List.range 16).findSome? fun n => at_ (Off.SEGMENT_STR_START_PT_LO n)
  | .freq => [0, 1].findSome? fun e => at_ (Off.FREQ_FRE_START_PT_LO e)
  | _ => none

/-- The held word of a writer. -/
def State.held (s : State) (w : Writer) (a : Nat) : Nat := (mapGet (fun _ => 0) s.hold (ownKey w a)).toNat

/-- PT_HOLD_WRITE: a write of `_MID` or `_HI` is kept in the writer's hold register. -/
def execPtHoldWrite (t : PT) (w : Writer) (addr : Fin 0x4000000) (v : Word) (s : State) : Out :=
  runAt t s fun s =>
    let a := addr.val / 4 * 4
    match pageRow? s.variant a with
    | none => s
    | some pr =>
      match ptWord pr.kind (a % 0x1000) with
      | none => s
      | some (_, i) =>
        if i = 0 then s
        else s.command (pageOf a) fun s =>
          { s with hold := mapSet (fun _ => 0) s.hold (ownKey w a) (BitVec.ofNat 32 (v.toNat % (if i = 2 then 2 ^ 16 else 2 ^ 32))) }

/-- PT_LO_WRITE: a write of `_LO` takes the held words with it; a staged register takes the value into its shadow, and
an armed alarm is armed again at its new PT (R49). -/
def execPtLoWrite (t : PT) (w : Writer) (addr : Fin 0x4000000) (v : Word) (s : State) : Out :=
  runAt t s fun s =>
    let a := addr.val / 4 * 4
    match pageRow? s.variant a, regRow? s.variant a with
    | some pr, some r =>
      match ptWord pr.kind (a % 0x1000) with
      | some (_, 0) => s.command (pageOf a) fun s =>
        let mid := s.held w (a + 4)
        let hi := s.held w (a + 8)
        if r.acc == .rs then
          ((s.setStaged a v).setStaged (a + 4) (BitVec.ofNat 32 mid)).setStaged (a + 8) (BitVec.ofNat 32 hi)
        else
          let s1 := ((s.setReg a v).wr (a + 4) mid).wr (a + 8) hi
          if pr.kind == .time && s1.bit (pageOf a + Off.TIME_ALARM_CTRL) 0 then s1.alarmArm (bentOf a) else s1
      | _ => s
    | _, _ => s

/-- A read of a latching register latches the words that follow it for the reader. -/
def State.latchRead (s : State) (w : Writer) (a : Nat) : State :=
  match regRow? s.variant a with
  | none => s
  | some r =>
    s.each ((List.range r.latches).map fun i => a + 4 * (i + 1)) fun x y =>
      { x with latch := mapSet (fun _ => 0) x.latch (ownKey w y) (BitVec.ofNat 32 (s.value y)) }

/-- READ_LATCH: a read of a register. -/
def execReadLatch (t : PT) (w : Writer) (addr : Fin 0x4000000) (s : State) : Out :=
  runAt t s fun s => s.latchRead w (addr.val / 4 * 4)

/-! ### Register writes -/

/-- Registers a locked page still takes (R399). -/
def lockFree (k : PageKind) (off : Nat) : Bool :=
  match k with
  | .cap => off == Off.CAP_RING_RD
  | .stamp => off == Off.STAMP_REC_RD
  | .events => off == Off.EVENTS_EVR_RD
  | .continuity => ((List.range 16).any fun q => off == Off.CONTINUITY_TALLY_RD q)
  | _ => false

/-- DMAe_CTRL (R380, R385): while EN is 1 only EN can change; the direction and the source are tested. -/
def State.dmaCtrl (s : State) (b e v : Nat) : State :=
  let a := evPg b + Off.EVENTS_DMA_CTRL e
  let old := s.rd a
  if bitAt old 0 then s.wr a (putBits old 0 1 (bits v 0 1))
  else
    let src := bits v 2 4
    let served := src != 0 && (List.range 16).any fun q =>
      q != e && s.bit (evPg b + Off.EVENTS_DMA_CTRL q) 0 && s.fld (evPg b + Off.EVENTS_DMA_CTRL q) 2 4 == src
    let bad := decide (8 < src) || (src != 0 && bitAt v 1 != (src == 8))
    let keep := putBits v 1 5 (bits old 1 5)
    if served then
      ((s.wr a (putBits keep 0 1 (if bits old 2 4 = src then 0 else bits v 0 1))).latchHealth (evPg b) 0x01).latchHealth
        (evPg b) 0x32
    else if bad then (s.wr a keep).latchHealth (evPg b) 0x01
    else s.wr a v

/-- PPS_CTRL (R36, R37, R48): clearing EN forgets the expected instant and the discipline's grid; setting it starts the
count anew. -/
def State.ppsCtrl (s : State) (a v : Nat) : State :=
  let was := s.bit a 0
  let s1 := s.wr a v
  if bentOf a != s.ridge then s1
  else if was && !bitAt v 0 then { s1.discReset with tb := { s1.discReset.tb with ppsNext := none } }
  else if !was && bitAt v 0 then s1.wr (canon (pageOf a + Off.TIME_PPS_COUNT)) 0
  else s1

/-- An RW register takes a tested word. -/
def State.rwTake (s : State) (pr : PageRow) (a v : Nat) : State :=
  let off := a % 0x1000
  let pg := pageOf a
  match pr.kind with
  | .events =>
    match blk off (Off.EVENTS_DMA_CTRL 0) 0x40 16 with
    | some e => s.dmaCtrl (bentOf a) e v
    | none => s.wr (canon a) v
  | .time => if off = Off.TIME_PPS_CTRL then s.ppsCtrl a v else s.wr (canon a) v
  | .continuity =>
    match (List.range 16).find? fun q => off == Off.CONTINUITY_TALLY_RD q with
    | none => s.wr a v
    | some q =>
      let old := s.rd a
      let top := s.rd (pg + Off.CONTINUITY_TALLY_WR q)
      if (v + 2 ^ 32 - old) % 2 ^ 32 ≤ (top + 2 ^ 32 - old) % 2 ^ 32 then s.wr a v else s.latchHealth pg 0x01
  | .foreman =>
    if s.bit (pg + Off.FOREMAN_MBX_STAT) 0 then s.latchHealth pg 0x38 else s.wr a v
  | _ => s.wr a v

/-- A word staged in a register (R5): while sill B mirrors sill A, the SILLB settings ignore it but for MIRROR, which the
SILLA page has not (R91). -/
def State.stage (s : State) (pr : PageRow) (r : RegRow) (a v : Nat) : State :=
  let sill := pr.kind == .sill && a % 0x1000 == Off.SILL_SILL_CTRL
  let m := r.wmask
  let m := if sill && pageNo a == 1 then putBits m 7 1 0
    else if sill && s.mirror (bentOf a) then 2 ^ 7 else m
  if s.mirrored a then s
  else s.setStaged a (BitVec.ofNat 32 ((v &&& m) + ((s.staged a).toNat &&& (0xFFFFFFFF ^^^ m))))

/-- PAGE_CTRL written: what it clears where it is written 0 (R369); what it sets has rows of its own. -/
def State.pageCtrl (s : State) (pr : PageRow) (pg v : Nat) : State :=
  let s1 :=
    if s.draining pg && !bitAt v 1 then
      (if isPkg pg then (s.setBit (pg + Off.PG_PAGE_CTRL) 1 false).setDrained pg false
       else s.undrain (bentOf pg) (pageNo pg))
    else s
  if pr.fence && !bitAt v 2 then s1.setBit (pg + Off.PG_PAGE_CTRL) 2 false else s1

/-- A register of a page is written by its access code; one whose row is a command of its own is not this row's, but for
what it clears. -/
def State.regTake (s : State) (pr : PageRow) (r : RegRow) (a v : Nat) : State :=
  let off := a % 0x1000
  let pg := pageOf a
  if off = Off.PG_PAGE_CTRL then s.pageCtrl pr pg v
  else if pr.kind == .events && off == Off.EVENTS_SIDE_CTRL then (if bitAt v 0 then s else (s.setBit a 0 false).sideDown (bentOf a))
  else if pr.kind == .foreman && off == Off.FOREMAN_MBX_CMD then s.mbxReserved (bentOf a) v
  else if r.own then s
  else
    match r.acc with
    | .rw =>
      let x := r.take (s.rd (canon a)) v
      let s1 := if x.2 then s.latchHealth pg 0x01 else s
      s1.rwTake pr a x.1
    | .rs => s.stage pr r a v
    | .w1c =>
      let s := if pr.kind == .tone || pr.kind == .probe || pr.kind == .flux then s.syncPage (bentOf a) (pageNo a) s.now else s
      s.wr a (s.rd a &&& (0xFFFFFFFF ^^^ v))
    | .ro => s
    | .w1s => s
    | .wo => s

/-- A word of the MSI-X table is written; unmasking a vector whose bit is pending sends its message (R378). -/
def State.msixWrite (s : State) (i v : Nat) : State :=
  let e := { s.ev with msix := mapSet msixReset s.ev.msix i (BitVec.ofNat 32 v) }
  if i % 4 = 3 && v % 2 = 0 && setHas e.pba (i / 4) then { s with ev := e.message (i / 4) } else { s with ev := e }

/-- A 32-bit register write at a BAR0 offset (R5, R6, R367, R399). -/
def State.regWrite (s : State) (a : Nat) (full : Bool) (v : Nat) : State :=
  if 0x3000000 ≤ a ∧ a < 0x3008000 then (if full then s.msixWrite ((a - 0x3000000) / 4) v else s)
  else
    match pageRow? s.variant a with
    | none => s
    | some pr =>
      if !full then s.latchHealth (pageOf a) 0x08
      else
        match regRow? s.variant a with
        | none => s
        | some r =>
          if s.locked (pageOf a) && !lockFree pr.kind (a % 0x1000) then
            (if r.own && a % 0x1000 != Off.PG_PAGE_CTRL then s else s.latchHealth (pageOf a) 0x04)
          else s.regTake pr r a v

/-- REGISTER_WRITE: `full` says that every byte enable of the write is set. -/
def execRegisterWrite (t : PT) (addr : Fin 0x4000000) (full : Bool) (v : Word) (s : State) : Out :=
  runAt t s fun s => s.regWrite (addr.val / 4 * 4) full v.toNat

/-- PAGE_CTRL written as one word, by a preload or from another bent or package (R369). -/
def State.pageCtrlWord (s : State) (pg : Nat) (r : PageRow) (v : Nat) : State :=
  let s1 := if bitAt v 9 then s.hclr pg else s
  let s2 := s1.regWrite (pg + Off.PG_PAGE_CTRL) true v
  let s3 := if bitAt v 0 then (if s2.enabled pg then s2 else s2.pageEnable pg r) else if s2.enabled pg then s2.pageDisable pg r else s2
  let s4 := if bitAt v 1 then s3.pageDrainSet pg else s3
  let s5 := if bitAt v 2 then s4.pageFenceSet pg r else s4
  let s6 := if bitAt v 3 then s5.selftest pg r else s5
  if bitAt v 8 then s6.lockPage pg else s6

/-- A word written to a register of a page with the effects that have rows of their own in the page header: PAGE_CTRL, the
event registers and COMMIT (R303, R428). -/
def State.fullWrite (s : State) (a v : Nat) : State :=
  match pageRow? s.variant a with
  | none => s.regWrite a true v
  | some r =>
    let pg := pageOf a
    let off := a % 0x1000
    let w := BitVec.ofNat 32 v
    if off = Off.PG_PAGE_CTRL then s.pageCtrlWord pg r v
    else if off = Off.PG_EVT_EN_LO ∨ off = Off.PG_EVT_EN_HI then s.evtEnable pg r (off == Off.PG_EVT_EN_HI) w
    else if off = Off.PG_EVT_PEND_LO ∨ off = Off.PG_EVT_PEND_HI then s.pendClear pg r (off == Off.PG_EVT_PEND_HI) w
    else if off = Off.PG_EVT_FORCE_LO ∨ off = Off.PG_EVT_FORCE_HI then s.force pg r (off == Off.PG_EVT_FORCE_HI) w
    else if off = Off.PG_COMMIT then
      s.command pg fun s => if bitAt v 31 then s.commitCancel pg else s.commitRequest pg r (bits v 0 4)
    else s.regWrite a true v

/-! ### BAR2 (R368) -/

/-- The part of a write that falls in one ECC word: a whole word clears its poison mark, a part is merged, and a merge into
a poisoned word is discarded. -/
def State.wordWrite (s : State) (a : Nat) (l : List Byte) : State :=
  if !s.memHas a then s
  else if l.length = 8 then (s.memWr a l).clearPoison (a / 8)
  else if s.poisoned a 1 then s
  else s.memWr a l

/-- A write to BAR2, ECC word by ECC word; `n` bounds the words that are left. -/
def State.memStore (s : State) (a : Nat) (l : List Byte) : Nat → State
  | 0 => s
  | n + 1 =>
    if l.isEmpty then s
    else
      let k := 8 - a % 8
      (s.wordWrite a (l.take k)).memStore (a + k) (l.drop k) n

/-- A host write or a DMA copy of bytes from a BAR2 offset on; what converters have played of segment memory is accounted for first
(log entry 176). -/
def State.hostStore (s : State) (a : Nat) (l : List Byte) : State :=
  let off := a % 0x80000000
  let s := if 0x2000000 ≤ off ∧ off < 0x3000000 ∧ s.has (a / 0x80000000) then s.syncBent (a / 0x80000000) s.now else s
  (s.memStore a l (l.length + 1)).poisonCleared

/-- BAR2_WRITE: a host write of bytes from a BAR2 offset on. -/
def execBar2Write (t : PT) (addr : Fin 0x400000000) (data : List Byte) (s : State) : Out :=
  runMem t s fun s => s.hostStore addr data

/-- What a read of the ECC word at a BAR2 offset returns: its bytes, and whether the TLP is marked poisoned; 0 outside
the memories. -/
def State.bar2Word (s : State) (a : Nat) : List Byte × Bool :=
  if s.memHas a then ((List.range 8).map fun i => s.memByte (a / 8 * 8 + i), s.poisoned a 1)
  else (List.replicate 8 0, false)

/-- BAR2_READ: a host read of an ECC word, and what its check finds (R17, R18). -/
def execBar2Read (t : PT) (addr : Fin 0x400000000) (ecc : Ecc) (s : State) : Out :=
  runAt t s fun s =>
    if s.memHas addr && !s.poisoned addr 1 then s.eccRead addr ecc else s

end Sys2Proof.Machine
end

