-- ==== Sys2Proof/Machine/Continuity.lean ====
section
/-!
DEFINITION. Machine/Continuity.lean: fencing and draining a bent (R304–R306), firmware switches and foreman restarts (R22,
R308), and tunnelled writes (R303).
-/

namespace Sys2Proof.Machine

/-- BENT_CMD.FENCE (R304): the ridge's role migrates first, and without a candidate the fence is refused with 0xD1. -/
def execBentFence (t : PT) (b : Fin 8) (s : State) : Out :=
  runMem t s fun s => s.onlyIf (s.has b) fun s => s.command (conPg b) fun s =>
    if b.val = s.ridge && !s.bentFenced b then
      match s.tree.mig with
      | some m => { s with tree := { s.tree with mig := some { m with fence := true } } }
      | none =>
        match s.nextCand b with
        | none => s.latchHealth (conPg b) 0xD1
        | some c => s.migStart c false true
    else s.fenceBent b

/-- BENT_CMD.UNFENCE (R305); a bent that failed its self-test stays fenced (R406). -/
def execBentUnfence (t : PT) (b : Fin 8) (s : State) : Out :=
  runAt t s fun s => s.onlyIf (s.has b) fun s => s.command (conPg b) fun s =>
    if !s.bit (hierPg + Off.HIER_CAND) (8 + b) then s.latchHealth (conPg b) 0x05
    else if !s.bentFenced b then s
    else
      let s1 := s.each fencePages fun s p => s.setFld (bp b p + Off.PG_PAGE_CTRL) 0 3 (bits (s.rd (bp b p + Off.PG_PAGE_CTRL)) 1 1 * 2)
      let s2 := (s1.setBit (conPg b + Off.CONTINUITY_CONT_STAT) 0 false).category 4 b false
      ((s2.raise (pkgp 0) 2).candUpdate).readyUpdate

/-- BENT_CMD.DRAIN (R306). -/
def execBentDrain (t : PT) (b : Fin 8) (s : State) : Out :=
  runMem t s fun s => s.onlyIf (s.has b) fun s => s.command (conPg b) fun s =>
    s.each fencePages fun s p =>
      if s.draining (bp b p) then s else (s.setBit (bp b p + Off.PG_PAGE_CTRL) 1 true).pageDrain b p

/-! ### Foremen (R22, R308) -/

/-- The background operations of a bent pause with its foreman: a class ends its operation, and an edge operation whose
trestle holds a pin keeps it until the pin is returned (R22, R271). -/
def State.bgStop (s : State) (b : Nat) : State :=
  (s.cal b).ops.foldl (fun s op => if op.cls = 0 && 3 ≤ op.step then s.bgPut b op { op with step := 4 } else s.bgEnd b op) s

/-- The foreman of a bent stops: FM_STAT.UP and CONT_STAT.FOREMAN_UP clear; on the ridge an attestation exchange is
abandoned (R394). -/
def State.foremanStop (s : State) (b : Nat) : State :=
  let s1 := ((s.bgStop b).setBit (fmPg b + Off.FOREMAN_FM_STAT) 0 false).setBit (conPg b + Off.CONTINUITY_CONT_STAT) 1 false
  let s2 := { s1 with boot := { s1.boot with downAt := mapSet (fun _ => none) s1.boot.downAt b (some s.now) } }
  if b = s.ridge then { s2 with spdm := { stage := 0, answer := none } } else s2

/-- FOREMAN_STOP: the foreman of a bent stops. -/
def execForemanStop (t : PT) (b : Fin 8) (s : State) : Out :=
  runAt t s fun s => if s.has b && s.foremanRuns b then s.foremanStop b else s

/-- The instant a foreman stopped, while it is away. -/
def State.downAt (s : State) (b : Nat) : Option Nat := mapGet (fun _ => none) s.boot.downAt b

/-- A firmware switch ends: `reverted` says that a foreman did not come up on the new bank (R308). -/
def State.switchEnd (s : State) (reverted : Bool) : State :=
  let s1 := s.each (List.range s.variant.bents) fun s b => s.setBit (conPg b + Off.CONTINUITY_FW_STAT) 1 false
  let a := conPg s.ridge + Off.CONTINUITY_FW_STAT
  let s2 := { (s1.setBit a 2 reverted) with boot := { s1.boot with switch := none } }
  let s3 := if reverted then s2.latchHealth (conPg s.ridge) 0xD2 else s2
  s3.raise (conPg s.ridge) 5

/-- A firmware switch goes on to the next bent that has a foreman, from bent `b` on, or ends. -/
def State.switchNext (s : State) (k b : Nat) : State :=
  match (List.range s.variant.bents).find? fun c => decide (b ≤ c) && (s.foremanRuns c || (s.downAt c).isSome) with
  | none => s.switchEnd false
  | some c =>
    let s1 := if s.foremanRuns c then s.foremanStop c else s
    { s1 with boot := { s1.boot with switch := some (c, k) } }

/-- BENT_CMD.FW_SWITCH on the ridge: the bank not in force is checked, and the foremen restart into it in bent order. -/
def execFwSwitch (t : PT) (b : Fin 8) (s : State) : Out :=
  runAt t s fun s => s.onlyIf (s.has b) fun s => s.command (conPg b) fun s =>
    if b.val ≠ s.ridge || s.boot.switch.isSome then s
    else
      let k := 1 - s.bankOf b
      if !s.bankOk k (s.ownerHash b) then s.verifyFail.latchHealth (conPg b) 0xD3
      else (s.setFld (conPg b + Off.CONTINUITY_FW_STAT) 1 2 1).switchNext k 0

/-- A foreman has returned: the restart is counted and raised, and a mailbox command it left ends with status 6 (R388). -/
def State.foremanBack (s : State) (b : Nat) : State :=
  let s1 := ((s.category 6 b false).bump (conPg b + Off.CONTINUITY_FOREMAN_RESTARTS)).raise (conPg b) 2
  let s2 := if s1.mbxBusy b then (s1.mbxSpoil b).mbxEnd b 6 else s1
  s2.raise (fmPg b) 1

/-- BOOT_STAT.OWNER_SIGNED of a bent. -/
def State.ownerSigned (s : State) (b : Nat) (on : Bool) : State := s.setBit (identPg + Off.IDENT_BOOT_STAT) b on

/-- FOREMAN_RESTART: a stopped foreman comes up (`up`), or has not come up when its 200 ms are over (R22, R308, R379). -/
def execForemanRestart (t : PT) (b : Fin 8) (up : Bool) (s : State) : Out :=
  runAt t s fun s =>
    match s.downAt b with
    | none => s
    | some d =>
      let late := decide (d + 200 * 1000 * usK < s.now)
      let sw := match s.boot.switch with
        | some (c, k) => if c = b.val then some k else none
        | none => none
      let signed := (s.ownerHash s.ridge).isSome
      if late then
        let s1 := s.category 6 b true
        let s2 := if sw.isSome then s1.switchEnd true else s1
        if up then (s2.foremanUp b (s2.bankOf b)).foremanBack b else s2
      else if !up then s
      else
        match sw with
        | none => (s.foremanUp b (s.bankOf b)).foremanBack b
        | some k => (((s.foremanUp b k).ownerSigned b signed).foremanBack b).switchNext k (b + 1)

/-! ### Tunnelled writes (R303) -/

/-- Is a tunnelled write numbered `n` new after the last number applied, `l`? -/
def tunnelNew (l n : Nat) : Bool :=
  let d := (n + 2 ^ 32 - l % 2 ^ 32) % 2 ^ 32
  decide (1 ≤ d) && decide (d ≤ 2 ^ 31 - 1)

/-- The bent that serves a BAR0 offset: the ridge for the package window. -/
def State.server (s : State) (a : Nat) : Nat := if isPkg a then s.ridge else bentOf a

/-- A tunnelled write reaches its destination: applied if it is new, else counted. -/
def State.tunnelled (s : State) (src n a : Nat) (v : Nat) : State :=
  let d := s.server a
  if !s.has d then s
  else
    let key := d * 257 + src
    if tunnelNew (mapGet (fun _ => 0) s.tunnels key) n then
      let s1 := { s with tunnels := mapSet (fun _ => 0) s.tunnels key n }
      let s2 := if src = 0 then s1.wr (conPg d + Off.CONTINUITY_TUNNEL_APPLIED) n else s1
      s2.fullWrite a v
    else s.bump (conPg d + Off.CONTINUITY_TUNNEL_DUP_COUNT)

/-- TUNNELLED_WRITE: `src` is 0 for the package endpoint, else 1 + the number of a package. -/
def execTunnelledWrite (t : PT) (src : Fin 257) (n : Word) (addr : Fin 0x4000000) (v : Word) (s : State) : Out :=
  runMem t s fun s => s.tunnelled src n.toNat (addr.val / 4 * 4) v.toNat

end Sys2Proof.Machine
end

