-- ==== Sys2Proof/Machine/Hierarchy.lean ====
section
/-!
DEFINITION. Machine/Hierarchy.lean: the election and the migration of the ridge (R335–R340), the purlin (R341, R342), the
tree of packages: joins, ports, time transfer, frames and remote accesses (R345–R357).
-/

namespace Sys2Proof.Machine

/-! ### Ridge (R335–R340) -/

/-- The lowest candidate, which an election takes. -/
def State.firstCandidate (s : State) : Option Nat := (List.range s.variant.bents).find? fun b => s.candidate b

/-- The ridge after an election, which only the first one changes. -/
def State.electedRidge (s : State) : Nat := if s.tree.elected then s.ridge else s.firstCandidate.getD s.ridge

/-- ELECTION: the lowest candidate becomes the ridge, package preloads apply, and PT_GEN goes up (R335, R425 step 5). -/
def execElection (t : PT) (s : State) : Out :=
  runRidge t s State.clk State.electedRidge fun s =>
    match s.firstCandidate with
    | none => s
    | some c =>
      if s.tree.elected then s
      else
        let s1 := { s with ridge := c, ptGen := (s.ptGen + 1) % 2 ^ 32, tree := { s.tree with elected := true } }
        let s2 := (s.boot.preloads.filter fun e => isPkg e.1).foldl (fun s e => s.fullWrite e.1 e.2.toNat) s1
        ({ s2 with boot := { s2.boot with preloads := [] } }.acquire).raise (bp c 0) 0

/-- HIER_CMD.MIGRATE: refused with 0xF1 unless MIG_TARGET is a candidate. -/
def execMigrate (t : PT) (s : State) : Out :=
  runAt t s fun s => s.command hierPg fun s =>
    let c := s.fld (hierPg + Off.HIER_MIG_TARGET) 0 3
    if !s.candidate c then s.latchHealth hierPg 0xF1
    else if c = s.ridge || s.tree.mig.isSome || !s.tree.elected then s
    else s.migStart c false false

/-- A parity fault on the package fabric (R344). -/
def State.fabricParity (s : State) : State := (s.bump (hierPg + Off.HIER_FABRIC_PARITY_COUNT)).raise hierPg 5

/-- HEARTBEAT: the ridge's heartbeat reaches the candidates, or fails its parity and is ignored (R338, R344). -/
def execHeartbeat (t : PT) (parity : Bool) (s : State) : Out :=
  runAt t s fun s => if parity then s.fabricParity else { s with tree := { s.tree with lastHb := s.now } }

/-- HEARTBEAT_LOSS: no heartbeat for 10 µs (R338, R340). -/
def execHeartbeatLoss (t : PT) (s : State) : Out :=
  runMem t s fun s =>
    let losing := match s.tree.mig with
      | none => false
      | some m => m.loss
    if !s.clk.running || !s.tree.elected || losing || decide (s.now < s.tree.lastHb + 10 * usK) then s
    else s.gathered fun s => s.ridgeLost true

/-- The new ridge's active sill takes the source in force as it was (R339 step 2, R340): a coast that loss of the old ridge
began ends, and one on loss of every source goes on at the new ridge. Every sill takes its phase there as the new zero. -/
def State.handReference (s : State) (old new : Nat) : State :=
  let a := sillStat old (s.activeSill old)
  let lasting := s.bit a 3
  let cause := s.fld a 12 3
  let s1 := (s.coastEnd old 0).coastEnd new 0
  let s2 := { s1 with ridge := new }
  let s3 := s2.each (List.range s2.variant.bents) fun s b => s.each [0, 1] fun s k => s.newPhase b k
  if lasting && (cause == 0 || cause == 3) then s3.coastStart new cause (s3.lastGood new) else s3

/-- PURLIN_STAT shows which followers are locked, the new ridge not among them. -/
def State.followLocked (s : State) (old new : Nat) : State :=
  let a := purlinPg + Off.PURLIN_PURLIN_STAT
  (s.setBit a (8 + new) false).setBit a (8 + old) (s.bit (sillStat old (s.activeSill old)) 0)

/-- A handover can come at a boundary: of a planned migration one granule after its reference change at the earliest (R339,
R340). -/
def State.handoverDue (s : State) (m : Mig) (g : Nat) : Bool := m.loss || decide (m.since + 160 * s.clk.n ≤ g)

/-- The migration that runs, to a bent that is present, once its handover is due. -/
def State.migTo (s : State) : Option Mig :=
  s.tree.mig.filter fun m => s.has m.target && s.handoverDue m (s.granCeil s.now)

/-- The ridge after a handover. -/
def State.handedRidge (s : State) : Nat :=
  match s.migTo with
  | none => s.ridge
  | some m => m.target

/-- PURLIN_HANDOVER: at the first granule boundary from now on the new ridge drives the purlin (R339, R340, R364, R394). -/
def execPurlinHandover (t : PT) (s : State) : Out :=
  runRidge t s State.clk State.handedRidge fun s =>
    match s.migTo with
    | none => s
    | some m =>
      let old := s.ridge
      let g := s.granCeil s.now
      let s1 := s.gathered fun s => (s.handReference old m.target).followLocked old m.target
      let s2 := { s1 with tree := { s1.tree with mig := none, skew := 2, lastHb := s1.now }, spdm := { stage := 0, answer := none } }
      let s3 := (s2.bump (hierPg + Off.HIER_MIG_COUNT)).wr80 (hierPg + Off.HIER_LAST_MIG_PT_LO) g
      let told := fun (s : State) (pg i : Nat) => s.raiseAt pg i g 0 false
      let s4 := told (told (told (told s3 hierPg 0) purlinPg 3) (bp old 0) 0) (bp m.target 0) 0
      let s5 := (s4.setBit (evPg m.target + Off.EVENTS_SIDE_CTRL) 0 false).sideDown m.target
      let s6 := if m.fence then s5.fenceBent old else s5
      s6.candUpdate

/-! ### The purlin (R341, R342) -/

/-- SKEW_DONE: item 0x13 has been measured on every follower, in 1/16 kerf by bent; one not listed could not be completed
(R339 step 5, R359). -/
def execSkewDone (t : PT) (skews : List Int) (s : State) : Out :=
  runAt t s fun s =>
    if s.tree.skew = 0 then s
    else
      let s1 := s.each (s.others s.ridge) fun s b =>
        let m := match skews[b]? with
          | none => none
          | some x => some [x]
        s.calTake b 0x13 0 m true false
      let s2 := { s1 with tree := { s1.tree with skew := 0 } }
      if s.tree.skew = 2 then s2.raise purlinPg 2 else s2

/-- A marker of the purlin has reached a follower within its test. -/
def State.goodMarker (s : State) (b : Nat) (diff : Int) : State :=
  let s1 := { s with tree := { s.tree with marker := mapSet (fun _ => 0) s.tree.marker b s.now } }
  let k := s1.activeSill b
  if s1.bit (sillStat b k) 3 && s1.fld (sillStat b k) 12 3 == 4 && !setHas s1.tree.mism b && s1.tree.mig.isNone then
    s1.coastEnd b (roundDiv diff 16)
  else s1

/-- A marker more than N/2 kerfs off (R342): what the bent made since its last good marker is flagged, and the bent is fenced
or coasts. -/
def State.badMarker (s : State) (b : Nat) : State :=
  let last := mapGet (fun _ => 0) s.tree.marker b
  let s1 := ((s.bump (purlinPg + Off.PURLIN_MISMATCH_COUNT)).raise purlinPg 1).coastCaps b last
  let s2 := s1.coastShots b last
  if s2.bit (purlinPg + Off.PURLIN_PURLIN_CTRL) 0 then
    let s3 := ((s2.fenceBent b).latchHealth purlinPg 0xF3).setBit (purlinPg + Off.PURLIN_PURLIN_STAT) (24 + b) true
    (s3.category 4 b true).raise (pkgp 0) 0
  else
    let s3 := { s2 with tree := { s2.tree with mism := setPut s2.tree.mism b true } }
    s3.coastStart b 4 last

/-- Put what a bent's copy of PT is off by, in kerfs (R31, R34). -/
def State.setCopy (s : State) (b : Nat) (x : Int) : State := { s with ptOff := mapSet (fun _ => 0) s.ptOff b x }

/-- PURLIN_MARKER: a granule marker reaches a follower `diff` from its expected instant, in 1/16 kerf. -/
def execPurlinMarker (t : PT) (b : Fin 8) (diff : Int) (s : State) : Out :=
  runMem t s fun s =>
    if !s.has b || b.val = s.ridge || !s.clk.running then s
    else
      let s1 := s.wr (purlinPg + Off.PURLIN_PHASE b) (ofSigned 32 diff)
      s1.gathered fun s =>
        if s.bentFenced b then
          ({ s with tree := { s.tree with mism := setPut s.tree.mism b false } }.setCopy b 0).goodMarker b diff
        else if diff.natAbs ≤ 8 * s.clk.n then s.goodMarker b diff
        else (s.setCopy b (roundDiv diff (16 * s.clk.n) * s.clk.n)).badMarker b

/-- PURLIN_CMD.RESKEW. -/
def execReskew (t : PT) (s : State) : Out :=
  runAt t s fun s => s.command purlinPg fun s =>
    if s.tree.skew = 0 then { s with tree := { s.tree with skew := 1 } } else s

/-! ### Joins (R345, R346, R349) -/

/-- Every lane address of the package but the snapshot lanes. -/
def State.lanesOf (s : State) : List Nat :=
  (List.range s.variant.bents).flatMap fun b => (List.range 7).flatMap fun k =>
    (List.range (kindCount k)).map fun i => laneAddr b k i

/-- What keeps a worker from adopting the PT of the tree (R33, R349): an enabled lane, or an admitted shot. -/
def State.joinBusy (s : State) : Bool :=
  (s.lanesOf.any fun l => s.laneEnabled l) || s.seqs.any fun e => e.2.shot.isSome || !e.2.tail.isEmpty

/-- The peer of the tenon in use. -/
def State.tenonPeer (s : State) : Option Peer := (s.port (s.tenonNow / 2) (s.tenonNow % 2)).peer

/-- A join is refused: 0xF0, and it waits under AUTO_JOIN. -/
def State.joinRefused (s : State) : State :=
  { s with tree := { s.tree with join := none } }.latchHealth hierPg 0xF0

/-- A join starts, or is refused: below a level-2 worker with 0xF4 at the offering port, else with 0xF0 (R345, R349). Its
step 2 takes the tenon's clock as the reference by R57, from a local source with a coast. -/
def State.joinStart (s : State) : State :=
  match s.tenonPeer with
  | none => s
  | some p =>
    if !s.worker || !s.bit hierStat 5 || s.joined || s.tree.join.isSome then s
    else if 2 ≤ p.level then s.latchHealth (fliudPg (s.tenonNow / 2)) 0xF4
    else if p.n ≠ s.clk.n || s.joinBusy then s.joinRefused
    else
      let s1 := { s with tree := { s.tree with join := some s.now, avg := false } }
      if s1.clk.running && s1.srcNow < 3 then s1.coastStart s1.ridge 3 (s1.lastGood s1.ridge) else s1

/-- JOIN: by HIER_CMD, or (`auto`) because the tenon has come up, or a refused join can be tried again, under AUTO_JOIN. -/
def execJoin (t : PT) (auto : Bool) (s : State) : Out :=
  runAt t s fun s =>
    if auto then (if s.bit hierCtrl 1 then s.gathered fun s => s.joinStart else s)
    else s.command hierPg fun s => s.gathered fun s => s.joinStart

/-- Steps 2 and 3 of a join are complete: the ridge's sill is locked, and 2^TT_AVG exchanges have been averaged (R349). -/
def State.joinReady (s : State) : Bool :=
  s.clk.running && s.tree.join.isSome && s.tenonPeer.isSome && s.tree.avg &&
    s.bit (sillStat s.ridge (s.activeSill s.ridge)) 0

/-- A join that runs can complete: at a granule boundary (R349 step 4). -/
def State.joins (s : State) : Bool := s.joinReady && !s.joinBusy && s.granCeil s.now == s.now

/-- The PT that a worker adopts: the one that the ridge package sent, and the measured delay (R349 step 4). -/
def State.joinPt (s : State) (sent : Nat) : Nat :=
  ((sent : Int) + toSigned 32 (s.rd (hierPg + Off.HIER_TT_DELAY))).toNat % 2 ^ 80

/-- JOIN_COMPLETE on the worker, whose PT and O the tree has given (R33, R346, R349 steps 4, 5). -/
def State.joinAdopt (s : State) (p : Peer) : State :=
  let num := if p.level = 0 then p.ordinal else 16 * p.pkg + p.ordinal
  let s1 := { s with
    ptGen := (s.ptGen + 1) % 2 ^ 32
    pkgNum := num % 2 ^ 8
    tree := { s.tree with join := none } }
  let st := putBits (putBits (putBits (s1.rd hierStat) 4 1 1) 7 1 0) 16 2 (p.level + 1)
  let s2 := { (s1.wr hierStat st).setFld srcStat 0 2 3 with
    tb := { s1.rebase.tb with switchTo := none, lost := none, treeFrom := 0, treeTo := 0, treeAt := s1.now } }
  let s3 := (s2.noSourceIs false).coastEnd s2.ridge 0
  s3.raise hierPg 2

/-- JOIN_COMPLETE: `child` names the port of a worker that has joined below this package, else this package joins: `sent` is the
PT that the ridge package sent down the link, and `o` its O. A lane enabled meanwhile refuses the join (R357's table of
happenings that meet). -/
def execJoinComplete (t : PT) (child : Option (Fin 16)) (sent o : PT) (s : State) : Out :=
  let go := child.isNone && (s.arrive t).joins
  runClk t s (fun s => if go then { s.clk with now := s.joinPt sent.toNat, o := o.toNat } else s.clk) fun s =>
    match child with
    | some p =>
      if s.portUp (p.val / 2) (p.val % 2) && !s.isTenon p && decide (p.val ≠ s.tenonPort) then
        (s.setBit (hierPg + Off.HIER_CHILDREN) p true).raise hierPg 2
      else s
    | none =>
      match s.tenonPeer with
      | none => s
      | some p =>
        if go then s.gathered fun s => s.joinAdopt p else if s.joinReady && s.joinBusy then s.joinRefused else s

/-- HIER_CMD.LEAVE: JOINED clears, and the worker runs on as under LOCAL_FALLBACK = 1 (R348, R349). -/
def execLeave (t : PT) (s : State) : Out :=
  runAt t s fun s => s.command hierPg fun s => s.onlyIf s.joined fun s => s.gathered fun s => s.fallBack

/-- TENON_LOST: the clock of the tenon in use is lost, and its port goes down with it (R348, R353). -/
def execTenonLost (t : PT) (s : State) : Out :=
  runAt t s fun s =>
    s.onlyIf (s.worker && s.bit hierStat 5) fun s =>
      s.gathered fun s =>
        let p := s.tenonNow
        if s.portUp (p / 2) (p % 2) then s.portDown (p / 2) (p % 2) true else s.tenonLost

/-- The tenon is there: TENON_UP, the candidates, and the end of a coast that waited for it (R335, R348). -/
def State.tenonBack (s : State) (phase : Int) : State :=
  let s1 := (s.setBit hierStat 5 true).candUpdate.acquire
  if s1.joined && s1.bit srcStat 3 then s1.coastEnd s1.ridge phase else s1

/-- SOURCE_ACTIVITY: a source (0–2), or the tenon (3), begins to pass its activity and source-specific tests, with `duty`, its
duty cycle in per cent (R68), or stops (R52, R335); `phase` is the phase error that a coast without the tenon has built up, in
kerfs. -/
def execSourceActivity (t : PT) (which : Fin 4) (duty : Option (Fin 101)) (phase : Int) (s : State) : Out :=
  runAt t s fun s => s.gathered fun s =>
    let pass := duty.isSome
    if which.val < 3 then
      let s0 := match duty with
        | some d => { s with tb := { s.tb with duty := mapSet (fun _ => 50) s.tb.duty which d.val } }
        | none => s
      let s1 := (s0.setBit srcStat (12 + which) pass).candUpdate.acquire
      if pass then (if s.active which then s1 else s1.setSince which (some s1.now)) else s1.srcLose which
    else if !s.worker then s
    else if pass then (if s.portUp (s.tenonNow / 2) (s.tenonNow % 2) && !s.bit hierStat 5 then s.tenonBack phase else s)
    else if s.bit hierStat 5 then s.tenonLost
    else s

/-! ### Ports (R350–R353) -/

/-- The lanes in service of a port become `m`, with the reference lane (R355). -/
def State.setLanes (s : State) (b k m : Nat) : State :=
  s.wr (portStat b k) (putBits (putBits (s.rd (portStat b k)) 2 4 m) 10 2 (lowLane m))

/-- A port whose lanes in service have changed goes down with fewer than three (R353). -/
def State.lanesKept (s : State) (b k : Nat) : State :=
  if s.portUp b k && decide (laneCount (s.portLanes b k) < 3) then s.portDown b k true else s

/-- A lane's bit put or cleared in a mask. -/
def putLane (m i : Nat) (on : Bool) : Nat := putBits m i 1 (b2n on)

/-- A retraining takes the next lane out of service, or ends (R352). -/
def State.retrainNext (s : State) (b k : Nat) : State :=
  let x := s.port b k
  match (List.range 4).find? fun i => bitAt x.todo i with
  | none => (s.setPort b k { x with lane := none }).setBit (portStat b k) 12 false
  | some i =>
    let s1 := s.setPort b k { x with todo := putLane x.todo i false, lane := some i }
    let s2 := (s1.setBit (portStat b k) 12 true).setLanes b k (putLane (s.portLanes b k) i false)
    (s2.bump (fliudPg b + Off.FLIUD_PORT_RETRAIN_COUNT k)).lanesKept b k

/-- Does a port run: enabled, on a page that works? -/
def State.portOn (s : State) (b k : Nat) : Bool :=
  s.has b && s.bit (fliudPg b + Off.FLIUD_PORT_CTRL k) 0 && s.enabled (fliudPg b) && !s.fenced (fliudPg b)

/-- A port that is up retrains lane by lane; one that is down trains every lane (R352). -/
def State.retrain (s : State) (b k : Nat) : State :=
  if !s.portOn b k || s.bit (portStat b k) 12 || s.bit (portStat b k) 13 then s
  else
    let s1 := s.raiseAt (fliudPg b) 2 s.now k false
    if s.portUp b k then (s1.setPort b k { s1.port b k with errs := [], todo := s.portLanes b k }).retrainNext b k
    else s1.setBit (portStat b k) 12 true

/-- A lane of a port has counted more than 16 errors in the last millisecond (R352). -/
def State.laneBad (s : State) (b k : Nat) : Bool :=
  (List.range 4).any fun i =>
    decide (16 < ((s.port b k).errs.filter fun e => e.1 == i && decide (s.now < e.2 + 1000 * usK)).length)

/-- RETRAIN: by PORTk_CMD, or (`auto`) because a lane counts more than 16 errors in 1 ms under AUTO_RETRAIN. -/
def execRetrain (t : PT) (b : Fin 8) (k : Fin 2) (auto : Bool) (s : State) : Out :=
  runAt t s fun s => s.onlyIf (s.has b) fun s =>
    if auto then
      s.onlyIf (s.portUp b k && s.bit (fliudPg b + Off.FLIUD_PORT_CTRL k) 16 && s.laneBad b k) fun s =>
        s.gathered fun s => s.retrain b k
    else s.startCmd (fliudPg b) fun s => s.gathered fun s => s.retrain b k

/-- LINK_UP: an enabled port that is down sees its peer and trains (R352). -/
def execLinkUp (t : PT) (b : Fin 8) (k : Fin 2) (s : State) : Out :=
  runAt t s fun s =>
    if s.portOn b k && !s.portUp b k && !s.bit (portStat b k) 12 then s.setBit (portStat b k) 12 true else s

/-- A lane's training ends: twice failed running, it is retired (R352). -/
def State.laneTrained (s : State) (b k i : Nat) (ok : Bool) : State :=
  let x := s.port b k
  let s1 := s.setPort b k { x with failed := putLane x.failed i (!ok) }
  if !ok && bitAt x.failed i && !s.bit (portStat b k) (6 + i) then
    (s1.setBit (portStat b k) (6 + i) true).raiseAt (fliudPg b) 1 s.now (k + 2 * i) false
  else s1

/-- A port comes into service (R352): its peer is known, and a tenon that comes up is seen by the package. -/
def State.portIn (s : State) (b k m : Nat) (peer : Peer) (phase : Int) : State :=
  let s1 := (s.setLanes b k m).setPort b k { s.port b k with peer := some peer, frames := [], todo := 0, lane := none }
  let w := putBits (putBits (putBits (s1.rd (portStat b k)) 0 1 1) 12 1 0) 16 8 peer.pkg
  let s2 := ((s1.wr (portStat b k) w).raiseAt (fliudPg b) 0 s.now k false).portHealth b k false
  let p := pkgPort b k
  if !s2.isTenon p || s2.bit hierStat 5 then s2
  else if p = s2.tenonNow then s2.tenonBack phase
  else if s2.joined then (s2.setBit hierStat 6 (!s2.bit hierStat 6)).tenonBack phase
  else s2

/-- TRAINING_DONE: `ok` tells which lanes reached the required eye and `eyes` their heights; at link-up the peer reports what
`pkg`, `n`, `level` and `ordinal` say, and `phase` is the phase error of a coast that ends with it, in kerfs. -/
def execTrainingDone (t : PT) (b : Fin 8) (k : Fin 2) (ok : BitVec 4) (eyes : Word) (pkg : Fin 256) (n : BitVec 11)
    (level : Fin 3) (ordinal : Fin 16) (phase : Int) (s : State) : Out :=
  runAt t s fun s =>
    if !s.has b || !s.bit (portStat b k) 12 then s
    else
      s.gathered fun s =>
        let s0 := s.wr (fliudPg b + Off.FLIUD_PORT_EYE k) eyes.toNat
        if s0.portUp b k then
          match (s0.port b k).lane with
          | none => s0.retrainNext b k
          | some i =>
            let good := bitAt ok.toNat i
            let s1 := s0.laneTrained b k i good
            let s2 := (s1.setLanes b k (putLane (s1.portLanes b k) i good)).lanesKept b k
            if s2.portUp b k then s2.retrainNext b k else s2
        else
          let s1 := s0.each (List.range 4) fun s i =>
            if s.bit (portStat b k) (6 + i) then s else s.laneTrained b k i (bitAt ok.toNat i)
          let m := (List.range 4).foldl (fun m i => if s1.bit (portStat b k) (6 + i) then putLane m i false else m) ok.toNat
          if 3 ≤ laneCount m then
            s1.portIn b k m { pkg := pkg, n := n.toNat, level := level, ordinal := ordinal } phase
          else (s1.setBit (portStat b k) 12 false).portDown b k true

/-! ### Time transfer (R354, R355) -/

/-- A lane's asymmetry calibration takes the next lane out of service, or ends. -/
def State.asymNext (s : State) (b k : Nat) : State :=
  let x := s.port b k
  match (List.range 4).find? fun i => bitAt x.asymTodo i with
  | none => ((s.setPort b k { x with asym := none }).setBit (portStat b k) 13 false).setBit (portStat b k) 14 true
  | some i =>
    let s1 := s.setPort b k { x with asymTodo := putLane x.asymTodo i false, asym := some i }
    ((s1.setLanes b k (putLane (s.portLanes b k) i false)).lanesKept b k)

/-- A calibration that the loss of its port abandons (R357's table of happenings that meet). -/
def State.asymKept (s : State) (b k : Nat) : State :=
  if s.portUp b k then s else s.setFld (portStat b k) 13 2 0

/-- ASYM_CAL: every lane in service is calibrated, one at a time. -/
def execAsymCal (t : PT) (b : Fin 8) (k : Fin 2) (s : State) : Out :=
  runAt t s fun s => s.onlyIf (s.has b) fun s => s.startCmd (fliudPg b) fun s =>
    if !s.portUp b k || s.bit (portStat b k) 12 || s.bit (portStat b k) 13 then s
    else
      s.gathered fun s =>
        let s1 := s.setPort b k { s.port b k with asymTodo := s.portLanes b k }
        ((s1.setFld (portStat b k) 13 2 1).asymNext b k).asymKept b k

/-- ASYM_DONE: θ of a lane in the normal and the reversed direction, each averaged over 2^TT_AVG exchanges from the sum of their
(t2 − t1) − (t4 − t3), gives its asymmetry, and the lane returns to service. -/
def execAsymDone (t : PT) (b : Fin 8) (k : Fin 2) (sumN sumR : Int) (s : State) : Out :=
  runAt t s fun s =>
    match (s.port b k).asym with
    | none => s
    | some i =>
      if !s.has b || !s.portUp b k then s
      else
        s.gathered fun s =>
          let a := fliudPg b + Off.FLIUD_PORT_ASYM k i
          let v := BitVec.ofNat 32 (ofSigned 32 (roundDiv (sumN - sumR) (2 * 2 ^ s.fld hierCtrl 20 4)))
          let s1 := { s.setReg a v with shadow := mapSet (resetWord s.variant) s.shadow a v }
          ((s1.setLanes b k (putLane (s1.portLanes b k) i true)).asymNext b k).asymKept b k

/-- Number the next frame of a class that a port sends (R351). -/
def State.sendFrame (s : State) (p cls : Nat) : State :=
  let x := s.port (p / 2) (p % 2)
  s.setPort (p / 2) (p % 2) { x with frames := mapSet (fun _ => 0) x.frames cls ((mapGet (fun _ => 0) x.frames cls + 1) % 256) }

/-- A port that serves a worker below, which has joined or is about to (R345, R349, R354). -/
def State.mortise (s : State) (p : Nat) : Bool := !s.isTenon p && decide (p ≠ s.tenonPort)

/-- TIME_EXCHANGE: each microsecond of PT the mortise of a link starts an exchange. -/
def execTimeExchange (t : PT) (p : Fin 16) (s : State) : Out :=
  runAt t s fun s =>
    let x := s.port (p.val / 2) (p.val % 2)
    if s.portUp (p.val / 2) (p.val % 2) && s.mortise p && s.now / usK != x.timed then
      (s.setPort (p.val / 2) (p.val % 2) { x with timed := s.now / usK }).sendFrame p 1
    else s

/-- The averages of 2^TT_AVG exchanges are taken up, and a joined worker's ridge moves its expected phase by −θ̄ (R354). -/
def State.exchangeAvg (s : State) (p : Nat) (n : Nat) (sumT sumD : Int) : State :=
  let b := p / 2
  let k := p % 2
  let th := roundDiv sumT (2 * n)
  let de := roundDiv sumD (2 * n)
  let s1 := (s.wr (fliudPg b + Off.FLIUD_PORT_OFFSET k) (ofSigned 32 th)).wr (fliudPg b + Off.FLIUD_PORT_DELAY k) (ofSigned 32 de)
  if p ≠ s.tenonNow then s1
  else
    let s2 := (s1.wr (hierPg + Off.HIER_TT_OFFSET) (ofSigned 32 th)).wr (hierPg + Off.HIER_TT_DELAY) (ofSigned 32 de)
    let far := s.joined && decide (16 * s.fld hierCtrl 24 8 < th.natAbs)
    let s3 := s2.standing hierPg 0xF5 far
    let s4 := if far then s3.raise hierPg 4 else s3
    let at_ := s4.treeNow s4.now
    { s4 with
      tree := { s4.tree with avg := true }
      tb := if s4.joined then { s4.tb with treeFrom := at_, treeTo := at_ - th, treeAt := s4.now } else s4.tb }

/-- TIME_FRAME: an exchange is complete at a tenon: t1 and t4 at the mortise's ball, t2 and t3 at the tenon's. -/
def execTimeFrame (t : PT) (p : Fin 16) (t1 t2 t3 t4 : PT) (s : State) : Out :=
  runAt t s fun s =>
    let b := p.val / 2
    let k := p.val % 2
    if !s.isTenon p || !s.portUp b k then s
    else
      let down : Int := (t2.toNat : Int) - t1.toNat
      let up : Int := (t4.toNat : Int) - t3.toNat
      let a := toSigned 32 (s.rd (fliudPg b + Off.FLIUD_PORT_ASYM k (s.fld (portStat b k) 10 2)))
      let x := s.port b k
      let n := x.n + 1
      let sumT := x.sumT + (down - up - a)
      let sumD := x.sumD + (down + up)
      if n < 2 ^ s.fld hierCtrl 20 4 then s.setPort b k { x with n := n, sumT := sumT, sumD := sumD }
      else (s.setPort b k { x with n := 0, sumT := 0, sumD := 0 }).exchangeAvg p n sumT sumD

/-! ### Frames (R351, R356, R357, R377) -/

/-- The frame of a class with retransmission that is due next at a port is taken; any other is discarded (R351). -/
def State.takeFrame (s : State) (p cls seq : Nat) : State × Bool :=
  let b := p / 2
  let k := p % 2
  let x := s.port b k
  let due := mapGet (fun _ => 0) x.frames (8 + cls)
  if s.portUp b k && due == seq then
    (s.setPort b k { x with frames := mapSet (fun _ => 0) x.frames (8 + cls) ((due + 1) % 256) }, true)
  else (s, false)

/-- The tree ports of the package but one: joined mortises, and the tenon of a joined worker. -/
def State.treePorts (s : State) (but : Nat) : List Nat :=
  (List.range (2 * s.variant.bents)).filter fun p =>
    p != but && s.portUp (p / 2) (p % 2) && (s.bit (hierPg + Off.HIER_CHILDREN) p || (s.joined && p == s.tenonNow))

/-- A CRC error that is attributed to a lane; the errors of the last millisecond are kept (R352). -/
def State.laneError (s : State) (b k i : Nat) : State :=
  let x := s.port b k
  s.setPort b k { x with errs := (i, s.now) :: x.errs.filter fun e => decide (s.now < e.2 + 1000 * usK) }

/-- FRAME_CRC_FAIL: a received frame fails its CRC on account of a lane, or (`resent`) the peer asks for frames again and this
port sends that many anew. -/
def execFrameCrcFail (t : PT) (b : Fin 8) (k : Fin 2) (frame : BadFrame) (resent : Fin 256) (s : State) : Out :=
  runAt t s fun s =>
    if !s.has b || !s.portUp b k then s
    else if resent.val ≠ 0 then
      (if 3 ≤ frame.cls.val ∧ frame.cls.val ≤ 5 then s.count (fliudPg b + Off.FLIUD_PORT_RETX_COUNT k) resent else s)
    else
      let s1 := (s.bump (fliudPg b + Off.FLIUD_PORT_CRC_COUNT k)).laneError b k frame.lane
      if frame.cls.val = 2 then s1.bump (fliudPg b + Off.FLIUD_PORT_VDROP_COUNT k) else s1

/-- EVENT_FRAME: an event record of a worker reaches the ridge package's ring, or a package on its way (R357, R377). -/
def execEventFrame (t : PT) (p : Fin 16) (seq : Fin 256) (pkg : Fin 256) (source : Fin 65536) (forced : Bool)
    (health : Fin 256) (pt : PT) (detail : BitVec 64) (gen : Word) (s : State) : Out :=
  runAt t s fun s =>
    let (s1, ok) := s.takeFrame p 3 seq
    if !ok then s1
    else if s1.worker then (if s1.joined then s1.sendFrame s1.tenonNow 3 else s1)
    else
      s1.record pt.toNat (source * 2 ^ 16 + pkg * 2 ^ 32 + b2n forced * 2 ^ 40 + 2 ^ 42 + health * 2 ^ 48) detail.toNat
        gen.toNat

/-- The next port of a frame to package `pkg` (R346, R357): down to the child whose subtree holds it, else up. -/
def State.route (s : State) (pkg : Nat) : Option Nat :=
  let kids := (s.treePorts 99).filter fun p => s.bit (hierPg + Off.HIER_CHILDREN) p
  let num (p : Nat) : Nat := s.fld (portStat (p / 2) (p % 2)) 16 8
  match kids.find? fun p => num p == pkg || (num p != 0 && num p == pkg / 16) with
  | some p => some p
  | none => if s.joined then some s.tenonNow else none

/-- REG_FRAME: a remote access of package `src` for package `dst` is applied here or passed on (R303, R357). -/
def execRegFrame (t : PT) (p : Fin 16) (seq : Fin 256) (src dst : Fin 256) (read : Bool) (n : Word)
    (addr : Fin 0x4000000) (v : Word) (s : State) : Out :=
  runMem t s fun s =>
    let (s1, ok) := s.takeFrame p 4 seq
    if !ok then s1
    else if dst.val ≠ s1.pkgNum then
      match s1.route dst with
      | none => s1
      | some q => s1.sendFrame q 4
    else if read then (s1.latchRead .host (addr.val / 4 * 4)).sendFrame p 4
    else (s1.tunnelled (src.val + 1) n.toNat (addr.val / 4 * 4) v.toNat).sendFrame p 4

/-- The 16 bytes before a forwarded record (R382). -/
def forwardHead (pkg b src len : Nat) : List Byte :=
  wordLE (pkg + b * 2 ^ 8 + src * 2 ^ 12) ++ wordLE len ++ wordLE 0 ++ wordLE 0

/-- BULK_FRAME: a record of a worker's host stream reaches the ridge package's forwarded stream, or a package on its way. -/
def execBulkFrame (t : PT) (p : Fin 16) (seq : Fin 256) (pkg : Fin 256) (b : Fin 8) (source : Fin 16) (data : List Byte)
    (s : State) : Out :=
  runAt t s fun s =>
    let (s1, ok) := s.takeFrame p 5 seq
    if !ok then s1
    else if s1.worker then (if s1.joined then s1.sendFrame s1.tenonNow 5 else s1)
    else (s1.hostPut s1.ridge 7 (forwardHead pkg b source data.length ++ data) false).1

/-- The PT that the low 48 bits of a recent one stand for (R351). -/
def State.extendPt (s : State) (w : Nat) : Nat := s.now - (s.now + 2 ^ 48 - w % 2 ^ 48) % 2 ^ 48

/-- An entry of a VERDICT frame is matched against the import map of every bent (R232, R356). -/
def State.importVerdict (s : State) (port pkg vid byte w : Nat) : State :=
  let hits := (List.range s.variant.bents).flatMap fun b => ((List.range 64).filter fun e =>
    let x := s.rd (fliudPg b + Off.FLIUD_IMP e)
    bitAt x 0 && bits x 1 8 == pkg && bits x 9 9 == vid).map fun e => b * 64 + e
  if hits.isEmpty then
    (s.bump (fliudPg (port / 2) + Off.FLIUD_IMPORT_MISS_COUNT)).raiseAt (fliudPg (port / 2)) 3 s.now (port % 2) false
  else
    s.each hits fun s v =>
      { s with
        verdicts := s.verdicts ++ [{ vid := v, byte := byte, endTick := s.tick (s.extendPt w), serial := s.serial }]
        serial := s.serial + 1 }

/-- VERDICT_FRAME: a frame of up to three entries (source package, source VID, byte, PT of W) with its HOPS reaches a port;
with HOPS = 2 it goes on to the other tree ports. -/
def execVerdictFrame (t : PT) (p : Fin 16) (hops : Fin 4) (entries : List (Fin 256 × Fin 512 × Fin 256 × BitVec 48))
    (s : State) : Out :=
  runAt t s fun s =>
    if !s.portUp (p.val / 2) (p.val % 2) then s
    else
      let s1 := if hops.val = 2 then s.each (s.treePorts p) fun s q => s.sendFrame q 2 else s
      (entries.take 3).foldl (fun s e => s.importVerdict p e.1 e.2.1 e.2.2.1 e.2.2.2.toNat) s1

/-! ### Remote accesses (R357) -/

/-- A remote access starts: its frame goes to the port on the way to RACC_PKG. -/
def State.raccStart (s : State) (read : Bool) : State :=
  if s.tree.racc.isSome then s
  else
    let s1 := { s.wr (hierPg + Off.HIER_RACC_STAT) 1 with tree := { s.tree with racc := some (s.now, read) } }
    match s1.route (s1.fld (hierPg + Off.HIER_RACC_PKG) 0 8) with
    | none => s1
    | some q => s1.sendFrame q 4

/-- RACC_WRITE. -/
def execRaccWrite (t : PT) (s : State) : Out :=
  runAt t s fun s => s.command hierPg fun s => s.raccStart false

/-- RACC_READ. -/
def execRaccRead (t : PT) (s : State) : Out :=
  runAt t s fun s => s.command hierPg fun s => s.raccStart true

/-- RACC_DONE: the access is answered; a read brings RACC_DATA. -/
def execRaccDone (t : PT) (v : Word) (s : State) : Out :=
  runAt t s fun s =>
    match s.tree.racc with
    | none => s
    | some (_, read) =>
      let s1 := { s.wr (hierPg + Off.HIER_RACC_STAT) 2 with tree := { s.tree with racc := none } }
      if read then s1.setReg (hierPg + Off.HIER_RACC_DATA) v else s1

/-- RACC_TIMEOUT: the access has not completed within 1 ms. -/
def execRaccTimeout (t : PT) (s : State) : Out :=
  runAt t s fun s =>
    match s.tree.racc with
    | none => s
    | some (x, _) =>
      if s.now < x + 1000 * usK then s
      else
        ({ s.wr (hierPg + Off.HIER_RACC_STAT) 0xC with tree := { s.tree with racc := none } }).latchHealth hierPg 0xF7

end Sys2Proof.Machine
end

