-- ==== Sys2Proof/Machine/HostIf.lean ====
section
/-!
DEFINITION. Machine/HostIf.lean: side ports (R363), DMA engines (R381–R384), and the foreman mailbox's commands (R387,
R388).
-/

namespace Sys2Proof.Machine

/-! ### Side ports (R363, R383) -/

/-- SIDE_PORT_ENABLE: SIDE_EN is set and the port trains to `rate` (1–5; 0 where no link comes up) and `width`; on the ridge
it is refused with 0x33. -/
def execSidePortEnable (t : PT) (b : Fin 8) (rate : Fin 6) (width : Fin 5) (s : State) : Out :=
  runAt t s fun s => s.onlyIf (s.has b) fun s => s.command (evPg b) fun s =>
    if b.val = s.ridge && s.tree.elected then s.latchHealth (evPg b) 0x33
    else
      let s1 := s.setBit (evPg b + Off.EVENTS_SIDE_CTRL) 0 true
      if rate.val = 0 then s1 else s1.wr (evPg b + Off.EVENTS_SIDE_STAT) (1 + rate * 2 + width * 16)

/-- SIDE_PORT_DOWN: the side port's link goes down. -/
def execSidePortDown (t : PT) (b : Fin 8) (s : State) : Out :=
  runAt t s fun s => s.onlyIf (s.has b) fun s => s.sideDown b

/-! ### DMA engines (R381–R384) -/

/-- A descriptor that the host has made available. -/
def Desc.fresh (d : DescWords) : Desc :=
  { w0 := d.1.toNat, w1 := d.2.1.toNat, w2 := d.2.2.toNat, filled := 0, sor := false, eor := false, poison := false, gap := false }

/-- HEAD_WRITE: descriptors up to `head` become available, locked or not (R399); `descs` is what the engine finds in the ring
from the old HEAD on, and a descriptor it does not list is zero. -/
def execHeadWrite (t : PT) (b : Fin 8) (e : Fin 16) (head : Word) (descs : List DescWords) (s : State) : Out :=
  runAt t s fun s =>
    if !s.has b then s
    else
      let a := evPg b + Off.EVENTS_DMA_HEAD e
      let x := s.dma b e
      let more := min ((head.toNat + 2 ^ 32 - s.rd a) % 2 ^ 32)
        (2 ^ s.fld (evPg b + Off.EVENTS_DMA_RING_SIZE e) 0 5 - x.descs.length)
      let new := (List.range more).map fun i => Desc.fresh (descs.getD i (0, 0, 0))
      (s.setReg a head).setDma b e { x with descs := x.descs ++ new }

/-- The host address of the descriptor at TAIL. -/
def State.descAt (s : State) (b e : Nat) : Nat :=
  let base := s.rd (evPg b + Off.EVENTS_DMA_RING_BASE_LO e) + s.rd (evPg b + Off.EVENTS_DMA_RING_BASE_HI e) * 2 ^ 32
  base + s.rd (evPg b + Off.EVENTS_DMA_TAIL e) % 2 ^ s.fld (evPg b + Off.EVENTS_DMA_RING_SIZE e) 0 5 * 32

/-- Word 3 of a descriptor as written back. -/
def Desc.word3 (d : Desc) (bytes : Nat) (error : Bool) : Nat :=
  bytes + b2n (!error) * 2 ^ 24 + b2n d.sor * 2 ^ 25 + b2n d.eor * 2 ^ 26 + b2n d.poison * 2 ^ 27 + b2n error * 2 ^ 28 +
    b2n d.gap * 2 ^ 29

/-- The first descriptor is written back and left behind; with IRQ the engine's vector follows word 3 (R384). -/
def State.descDone (s : State) (b e : Nat) (d : Desc) (word3 : Nat) : State :=
  let s1 := { s with ev := s.ev.hostWr64 (s.descAt b e + 24) word3 }
  let a := evPg b + Off.EVENTS_DMA_TAIL e
  let x := s1.dma b e
  let s2 := (s1.wr a ((s1.rd a + 1) % 2 ^ 32)).setDma b e { x with descs := x.descs.drop 1 }
  if bitAt d.w1 24 then s2.fire (1024 + 16 * b + e) else s2

/-- The first descriptor fails: ERROR in its word 3, and the engine halts (R381, R383). -/
def State.descFail (s : State) (b e cause : Nat) (d : Desc) : State :=
  ({ s with ev := s.ev.hostWr64 (s.descAt b e + 24) (d.word3 0 true) }).dmaHalt b e cause

/-- A range of a bent's BAR2 window lies within one memory. -/
def oneMemory (off len : Nat) : Bool :=
  match memAt? off with
  | none => false
  | some m => decide (off + len ≤ m.1 + m.2.1)

/-- RING_ADV (R383): an advance that is a reserved encoding is not applied; the answer tells whether it was. -/
def State.descAdvance (s : State) (b : Nat) (d : Desc) : State × Bool :=
  if !bitAt d.w1 25 then (s, true)
  else
    let n := bits d.w1 26 4
    let a := segPg b + Off.SEGMENT_STR_RING_WR n
    let v := (s.rd a + bits d.w2 0 24) % 2 ^ 32
    let s1 := s.ringAdvance b n v
    (s1, s1.rd a == v)

/-- A host-to-device descriptor: the copy of `data` into the bent's BAR2 window, then RING_ADV (R383). -/
def State.descCopy (s : State) (b e : Nat) (d : Desc) (data : List Byte) : State :=
  let dev := bits d.w1 32 32
  if !oneMemory dev d.len then s.descFail b e 5 d
  else
    let l := (List.range d.len).map fun i => data.getD i 0
    let s1 := s.hostStore (mb b dev) l
    let (s2, ok) := s1.descAdvance b d
    let a := evPg b + Off.EVENTS_DMA_BYTES_LO e
    let s3 := s2.wr64 a ((s2.rd64 a + d.len) % 2 ^ 64)
    s3.descDone b e d (d.word3 d.len false + b2n (!ok) * 2 ^ 28)

/-- DMA_DESCRIPTOR: an engine completes its first descriptor: a buffer that is full, or a copy of `data` from host memory.
`fail` is 1 where the fetch of the descriptor fails and 2 where the read of the data does. -/
def execDmaDescriptor (t : PT) (b : Fin 8) (e : Fin 16) (data : List Byte) (fail : Fin 3) (s : State) : Out :=
  runMem t s fun s =>
    match (s.dma b e).descs with
    | [] => s
    | d :: _ =>
      let toHost := !s.bit (evPg b + Off.EVENTS_DMA_CTRL e) 1
      if !s.has b || !s.dmaRuns b e then s
      else if fail.val = 1 then s.dmaHalt b e 1
      else if d.bad toHost then s.descFail b e 4 d
      else if toHost then (if d.len ≤ d.filled then s.descDone b e d (d.word3 d.filled false) else s)
      else if s.fld (evPg b + Off.EVENTS_DMA_CTRL e) 2 4 ≠ 8 then s
      else if fail.val = 2 then s.descFail b e 2 d
      else s.descCopy b e d data

/-- DMA_FLUSH: FLUSH µs without a new record write back a buffer filled in part (R382). -/
def execDmaFlush (t : PT) (b : Fin 8) (e : Fin 16) (s : State) : Out :=
  runAt t s fun s =>
    let x := s.dma b e
    match x.descs with
    | [] => s
    | d :: _ =>
      let a := evPg b + Off.EVENTS_DMA_CTRL e
      if s.has b && s.dmaRuns b e && !s.bit a 1 && d.filled != 0 && decide (x.lastRec + s.fld a 8 8 * usK ≤ s.now) then
        s.descDone b e d (d.word3 d.filled false)
      else s

/-- DMAe_CMD.RESET (R383, R385). -/
def execDmaReset (t : PT) (b : Fin 8) (e : Fin 16) (s : State) : Out :=
  runAt t s fun s => s.onlyIf (s.has b) fun s => s.command (evPg b) fun s =>
    let s1 := (s.setBit (evPg b + Off.EVENTS_DMA_CTRL e) 0 false).setReg (evPg b + Off.EVENTS_DMA_TAIL e)
      (s.reg (evPg b + Off.EVENTS_DMA_HEAD e))
    let st := evPg b + Off.EVENTS_DMA_STAT e
    let s2 := ((s1.setBit st 2 false).setFld st 4 4 0).setDma b e DmaSt.init
    s2.standing (evPg b) 0x31 ((List.range 16).any fun q => s2.bit (evPg b + Off.EVENTS_DMA_STAT q) 2)

/-! ### Mailbox commands (R387) -/

/-- The mailbox arguments. -/
def State.mbxArg (s : State) (b : Nat) : Nat × Nat :=
  (s.rd (fmPg b + Off.FOREMAN_MBX_ARG0), s.fld (fmPg b + Off.FOREMAN_MBX_LEN) 0 12)

/-- The status of a flash command: its place, what else runs, and its range. -/
def State.flashRange (s : State) (b : Nat) (ok : Nat → Nat → Bool) : State × Nat :=
  let c := s.flashCheck b
  if c != 0 then (s, c) else if ok (s.mbxArg b).1 (s.mbxArg b).2 then (s, 0) else (s, 3)

/-- The hold-up check of a configuration write: status 5 where it fails, and nothing is written (R309, R410). -/
def State.cfgHold (s : State × Nat) (b : Nat) (v drop : Word) : State × Nat :=
  if s.2 != 0 then s
  else
    let (s1, ok) := s.1.holdUp b v.toNat drop.toNat 1000
    (s1, if ok then 0 else 5)

/-- VERSION. -/
def execVersion (t : PT) (b : Fin 8) (s : State) : Out :=
  runAt t s fun s => s.onlyIf (s.has b) fun s => s.mbxIssue b 0x01 fun s => (s, 0)

/-- FW_OPEN. -/
def execFwOpen (t : PT) (b : Fin 8) (s : State) : Out :=
  runAt t s fun s => s.onlyIf (s.has b) fun s => s.mbxIssue b 0x10 fun s => s.flashRange b fun _ _ => true

/-- FW_WRITE. -/
def execFwWrite (t : PT) (b : Fin 8) (s : State) : Out :=
  runAt t s fun s => s.onlyIf (s.has b) fun s => s.mbxIssue b 0x11 fun s =>
    s.flashRange b fun a n => decide (n ≤ 2048) && decide (a + n ≤ bankSize)

/-- FW_CLOSE. -/
def execFwClose (t : PT) (b : Fin 8) (s : State) : Out :=
  runAt t s fun s => s.onlyIf (s.has b) fun s => s.mbxIssue b 0x12 fun s =>
    s.flashRange b fun a _ => decide (384 ≤ a) && decide (a ≤ bankSize)

/-- CFG_OPEN: `v` and `drop` are what the hold-up check measures, in µV. -/
def execCfgOpen (t : PT) (b : Fin 8) (v drop : Word) (s : State) : Out :=
  runAt t s fun s => s.onlyIf (s.has b) fun s => s.mbxIssue b 0x20 fun s =>
    State.cfgHold (s.flashRange b fun _ _ => true) b v drop

/-- CFG_WRITE. -/
def execCfgWrite (t : PT) (b : Fin 8) (v drop : Word) (s : State) : Out :=
  runAt t s fun s => s.onlyIf (s.has b) fun s => s.mbxIssue b 0x21 fun s =>
    State.cfgHold (s.flashRange b fun a n => decide (n ≤ 2048) && decide (a + n ≤ copySize)) b v drop

/-- CFG_CLOSE. -/
def execCfgClose (t : PT) (b : Fin 8) (v drop : Word) (s : State) : Out :=
  runAt t s fun s => s.onlyIf (s.has b) fun s => s.mbxIssue b 0x22 fun s =>
    State.cfgHold (s.flashRange b fun a _ => decide (0x64 ≤ a) && decide (a ≤ copySize)) b v drop

/-- FLASH_READ: the flash below 0x0010_0000 is never read (R426). -/
def execFlashRead (t : PT) (b : Fin 8) (s : State) : Out :=
  runAt t s fun s => s.onlyIf (s.has b) fun s => s.mbxIssue b 0x30 fun s =>
    s.flashRange b fun a n => decide (n ≤ 2048) && decide (0x100000 ≤ a) && decide (a + n ≤ 0x2000000 + Config.flashMore)

/-- A bank or copy is marked as failing, or as one that its own content decides. -/
def State.setBad (s : State) (k : Nat) (on : Bool) : State := { s with boot := { s.boot with bad := setPut s.boot.bad k on } }

/-- The length of the image in a bank is given. -/
def State.setLen (s : State) (k n : Nat) : State :=
  { s with boot := { s.boot with lens := mapSet (fun _ => none) s.boot.lens k (some n) } }

/-- A bank is erased. -/
def State.eraseBank (s : State) (k : Nat) : State :=
  let boot := { s.boot with
    flash := s.boot.flash.filter fun e => !(decide (bankBase k ≤ e.1) && decide (e.1 < bankBase k + bankSize))
    erased := setPut s.boot.erased k true
    bad := setPut s.boot.bad k false }
  ({ s with boot := boot }).setLen k 0

/-- CFG_OPEN: the CRC of the copy not in force is erased first (R309). -/
def State.cfgOpen (s : State) (c : Nat) : State :=
  let n := leNat (s.flashRd (copyBase c + 4) 4)
  let s1 := s.setBad (2 + c) true
  if 0x64 ≤ n ∧ n ≤ copySize then s1.flashWr (copyBase c + n - 4) (List.replicate 4 0xFF) else s1

/-- CFG_CLOSE: length and sequence number, and the CRC last (R309, R427). -/
def State.cfgClose (s : State) (c n seq : Nat) : State :=
  let s1 := (s.flashWr (copyBase c + 4) (wordLE n)).flashWr (copyBase c + 8) (wordLE seq)
  s1.flashWr (copyBase c + n - 4) (wordLE (Config.crc32 (s1.flashRd (copyBase c) (n - 4))))

/-- The effect of a mailbox command, and its status; `pass` is whether a read-back finds what was written. -/
def State.mbxEffect (s : State) (b : Nat) (m : Mbx) (pass : Bool) : State × Nat :=
  let k := 1 - s.bankOf b
  let c := 1 - s.cfgInForce
  let result (s : State) (v : Nat) : State := s.wr (fmPg b + Off.FOREMAN_MBX_RESULT) v
  if m.op = 0x01 then ((result s (s.version (s.bankOf b))).setMbxData b ((Config.buildId (s.bankOf b)).take 64), 0)
  else if m.op = 0x10 then (result (s.eraseBank k) bankSize, 0)
  else if m.op = 0x11 then (s.flashWr (bankBase k + m.arg0) m.data, 0)
  else if m.op = 0x12 then
    let s1 := s.setLen k m.arg0
    if s1.bankOk k (s1.ownerHash b) then (s1, 0) else (s1.verifyFail, 4)
  else if m.op = 0x20 then (s.cfgOpen c, 0)
  else if m.op = 0x21 then ((s.setBad (2 + c) true).flashWr (copyBase c + m.arg0) m.data, 0)
  else if m.op = 0x22 then
    let s1 := s.cfgClose c m.arg0 m.arg1
    if pass then (s1.setBad (2 + c) false, 0) else (s1, 4)
  else (s.setMbxData b (s.flashRd m.arg0 m.len), 0)

/-- MBX_DONE: the command that runs completes with its status (R388). -/
def execMbxDone (t : PT) (b : Fin 8) (pass : Bool) (s : State) : Out :=
  runAt t s fun s =>
    match s.mbx b with
    | none => s
    | some m =>
      if !s.has b || !s.foremanRuns b then s
      else
        let (s1, st) := s.mbxEffect b m pass
        s1.mbxEnd b st

end Sys2Proof.Machine
end

