-- ==== Sys2Proof/Machine/Identity.lean ====
section
/-!
DEFINITION. Machine/Identity.lean: attestation over SPDM (R389–R394) and the owner key (R398).
-/

namespace Sys2Proof.Machine

/-- The ridge answers SPDM requests: its foreman runs, and the part has a ridge (R392, R394). -/
def State.spdmUp (s : State) : Bool := s.tree.elected && s.foremanRuns s.ridge

/-- An answer, and the stage the exchange has reached. -/
def State.reply (s : State) (stage : Nat) (a : Answer) : State := { s with spdm := { stage := stage, answer := some a } }

/-- A request that needs a stage of the exchange first: the requester starts from GET_VERSION (R394). -/
def State.request (s : State) (need : Nat) (f : State → State) : State :=
  if !s.spdmUp then s else if s.spdm.stage < need then s.reply s.spdm.stage .error else f s

/-- The certificate chain in slot 0: the device CA's certificate and the ridge bent's (R390, R392). -/
def State.chain (s : State) : List Byte := Config.certificate s.ridge 1 ++ Config.certificate s.ridge 0

/-- A signature with the ridge bent's key, counted as one of that bent's (R389, R395). -/
def State.sign (s : State) (transcript : List Byte) : List Byte × State :=
  (Config.ecdsaSign s.ridge (Config.sha384 transcript),
   { s with signSeq := mapSet (fun _ => 0) s.signSeq s.ridge (mapGet (fun _ => 0) s.signSeq s.ridge + 1) })

/-- Each signed answer is counted and raised (R392). -/
def State.attested (s : State) : State := (s.bump (identPg + Off.IDENT_ATTEST_COUNT)).raise identPg 0

/-- GET_VERSION: version 1.2 only. -/
def execGetVersion (t : PT) (s : State) : Out :=
  runAt t s fun s => s.request 0 fun s => s.reply 1 (.version 0x12)

/-- GET_CAPABILITIES: CERT_CAP, CHAL_CAP and MEAS_CAP with signed measurements. -/
def execGetCapabilities (t : PT) (s : State) : Out :=
  runAt t s fun s => s.request 1 fun s => s.reply 2 (.capabilities true true true true)

/-- NEGOTIATE_ALGORITHMS: P-384 and SHA-384 are chosen where the requester offers them. -/
def execNegotiateAlgorithms (t : PT) (p384 sha384 : Bool) (s : State) : Out :=
  runAt t s fun s => s.request 2 fun s => s.reply (if p384 && sha384 then 3 else 2) (.algorithms p384 sha384)

/-- GET_DIGESTS: slot 0 only. -/
def execGetDigests (t : PT) (s : State) : Out :=
  runAt t s fun s => s.request 3 fun s => s.reply 3 (.digests (Config.sha384 s.chain))

/-- GET_CERTIFICATE: a part of the chain in slot 0; the other slots are empty. -/
def execGetCertificate (t : PT) (slot : Fin 8) (offset len : BitVec 16) (s : State) : Out :=
  runAt t s fun s => s.request 3 fun s =>
    s.reply 3 (if slot.val = 0 then .certificate ((s.chain.drop offset.toNat).take len.toNat) else .error)

/-- CHALLENGE: answered with the chain's digest, signed over the exchange's transcript. -/
def execChallenge (t : PT) (slot : Fin 8) (transcript : List Byte) (s : State) : Out :=
  runAt t s fun s => s.request 3 fun s =>
    if slot.val ≠ 0 then s.reply 3 .error
    else
      let (sig, s1) := s.sign transcript
      (s1.reply 3 (.challenge (Config.sha384 s.chain) sig)).attested

/-! ### Measurements (R393) -/

/-- The numbers of a trim store copy, in the order of its directory and slots (R281). -/
def TrimCopy.nums (c : TrimCopy) : List Int :=
  (c.seq : Int) :: (c.points.length : Int) :: c.points.flatMap fun p =>
    p.temp :: (p.pt : Int) :: (p.gen : Int) :: (if p.factory then 1 else 0) :: p.vals.flatMap fun e => (e.1 : Int) :: e.2

/-- The trim store copy in force of a bent (R282). -/
def State.trimInForce (s : State) (b : Nat) : TrimCopy :=
  let x := s.cal b
  if s.bit (shimStat b) 6 then { valid := x.factoryOk, seq := 0, points := factoryPoints }
  else if s.bit (shimStat b) 7 then { valid := false, seq := 0, points := [] }
  else if s.bit (shimStat b) 3 then x.copyB else x.copyA

/-- The bytes of a 64-bit word. -/
def wordLE64 (v : Nat) : List Byte := wordLE (bits v 0 32) ++ wordLE (bits v 32 32)

/-- The measurement blocks. -/
def State.measurements (s : State) : List (Nat × List Byte) :=
  let b := s.variant.bents
  let cfg := match s.cfgCopy s.cfgInForce with
    | none => []
    | some l => [(2, Config.sha384 l)]
  let bank1 := maskOf b fun c => s.bankOf c == 1
  let trims := (List.range b).map fun c => (3 + c, Config.sha384 (Config.trimBytes (s.trimInForce c).nums))
  let locks := (List.range 9).flatMap fun k => wordLE64 (s.lockMapOf k)
  let certs := (List.range b).flatMap fun c => Config.certificate c 0
  [(1, imageDigest (s.image (s.bankOf s.ridge)))] ++ cfg ++ trims ++
    [(11, locks), (12, Config.sha384 certs),
     (13, [BitVec.ofNat 8 b, 0xA1, BitVec.ofNat 8 bank1, BitVec.ofNat 8 s.ridge] ++ wordLE s.ptGen)]

/-- GET_MEASUREMENTS: the block `index`, or every block for 0xFF, signed. -/
def execGetMeasurements (t : PT) (index : Fin 256) (transcript : List Byte) (s : State) : Out :=
  runAt t s fun s => s.request 3 fun s =>
    let l := s.measurements.filter fun e => index.val == 0xFF || e.1 == index.val
    let (sig, s1) := s.sign transcript
    (s1.reply 3 (.measurements l sig)).attested

/-! ### Owner key (R398) -/

/-- An owner command is refused: 0xF8, and on a locked page 0x04 with it (R398, R399). -/
def State.ownerRefused (s : State) : State :=
  (if s.locked identPg then s.latchHealth identPg 0x04 else s).latchHealth identPg 0xF8

/-- OWNER_SET: the digest in OWNER_HASH0–11 is stored. -/
def execOwnerSet (t : PT) (s : State) : Out :=
  runAt t s fun s =>
    if s.locked identPg || s.boot.owner.isSome then s.ownerRefused
    else
      { s with boot := { s.boot with owner := some ((List.range 12).map fun w => s.reg (identPg + Off.IDENT_OWNER_HASH w)) } }

/-- OWNER_CLEAR: the key goes at the next POR. -/
def execOwnerClear (t : PT) (s : State) : Out :=
  runAt t s fun s =>
    if s.locked identPg then s.ownerRefused
    else { s with boot := { s.boot with clear := s.boot.owner.isSome } }

end Sys2Proof.Machine
end

