-- ==== Sys2Proof/Machine/Power.lean ====
section
/-!
DEFINITION. Machine/Power.lean: the resets (R310, R311, R416), start-up (R282, R397, R425–R428), temperature and rails (R408),
and PWR_FAIL_N (R410).
-/

namespace Sys2Proof.Machine

/-! ### POR and RESET_N -/

/-- Is a BAR2 offset in a tally or capture memory, whose contents a reset leaves undefined (R310)? -/
def volatileMem (a : Nat) : Bool :=
  match memAt? (a % 0x80000000) with
  | none => false
  | some m => m.2.2 == 3 || m.2.2 == 4

/-- The memories after a reset: each listed byte that `lost` names takes a free value (log entry 1). -/
def State.memLost (s : State) (lost : Nat → Bool) : SMap Byte × Nat :=
  s.mem.foldl (fun x e =>
    if lost e.1 then (mapSet memReset x.1 e.1 (BitVec.ofNat 8 (Config.freeValue x.2)), x.2 + 1) else x) (s.mem, s.free)

/-- The trim stores of every bent, which no reset touches (R310). -/
def State.trimStores (s : State) : SMap CalSt :=
  (List.range s.variant.bents).foldl (fun m b =>
    let x := s.cal b
    let y : CalSt := { CalSt.init with copyA := x.copyA, copyB := x.copyB, factoryOk := x.factoryOk }
    mapSet (fun _ => CalSt.init) m b y) []

/-- Every page of the package, as the base of its registers. -/
def State.allPages (s : State) : List Nat :=
  ((List.range s.variant.bents).flatMap fun b => ((List.range 48).filter fun p => (bentPage p).isSome).map fun p => bp b p) ++
    (List.range 6).map pkgp

/-- What the resets keep in the boot flash and the trim stores' foreman region (R281, R310, R398). -/
def State.bootKept (s : State) (por : Bool) : Boot :=
  { Boot.init with
    banks := s.boot.banks, flash := s.boot.flash, erased := s.boot.erased, bad := s.boot.bad, lens := s.boot.lens
    owner := if por && s.boot.clear then none else s.boot.owner
    clear := s.boot.clear && !por }

/-- The package after POR or RESET_N (R7, R310): the levels of pins, host memory, flash, trim stores and PT_GEN stay, and so
do, through RESET_N, LOCK bits and what counts since POR (R399, R315, R395). OCXO_READY that is high counts from here (R60). -/
def State.restart (s : State) (por : Bool) : State :=
  let f := State.fresh s.variant
  let (mem, free) := s.memLost fun a => por || volatileMem a
  let ev := { f.ev with host := s.ev.host, sent := s.ev.sent, perstLow := s.ev.perstLow }
  let f1 := { f with
    mem := mem, free := free, ev := ev, ptGen := s.ptGen, pkgNum := 0, cals := s.trimStores, boot := s.bootKept por
    poison := if por then [] else s.poison.filter fun e => !volatileMem (e.1 * 8)
    signSeq := if por then [] else s.signSeq }
  let f2 := { f1 with
    meters := if por then [] else s.meters.foldl (fun (m : SMap Meter) (e : Nat × Meter) =>
      let y : Meter := { Meter.init with rails := e.2.rails }
      mapSet (fun _ => Meter.init) m e.1 y) []
    account := if por then Account.init else { Account.init with used := s.account.used } }
  let f3 := (f2.setBit (pkgp 0 + Off.PKG_PWR_STAT) 0 s.pwrGood).setBit srcStat 11 (s.bit srcStat 11)
  let f4 := if por then f3
    else s.allPages.foldl (fun x pg => if s.locked pg then x.setBit (pg + Off.PG_PAGE_CTRL) 8 true else x) f3
  let f5 := if s.bit srcStat 11 then { f4 with tb := { f4.tb with ready := some 0 } } else f4
  (List.range s.variant.bents).foldl (fun x b => x.wr (conPg b + Off.CONTINUITY_LAST_RESET) (if por then 1 else 2)) f5

/-- RESET_N: a pulse of 10 µs or more (`long`) resets the package, and a shorter one is counted (R311). -/
def execResetN (t : PT) (long : Bool) (s : State) : Out :=
  runRidge t s (fun s => if long then Clk.reset else s.clk) (fun s => if long then 0 else s.ridge) fun s =>
    if long then s.restart false
    else s.each (List.range s.variant.bents) fun s b => s.bump (conPg b + Off.CONTINUITY_RESET_GLITCH_COUNT)

/-- POR: VAUX has been above 3.0 V for 2 ms, or fell below 2.9 V for more than 10 µs (R416). -/
def execPor (t : PT) (s : State) : Out := runRidge t s (fun _ => Clk.reset) (fun _ => 0) fun s => s.restart true

/-! ### PERST_N (R310, R365) -/

/-- Is a register one that PERST_N resets: the event ring, the side port, or a DMA engine's (R310, R385)? -/
def perstReg (a : Nat) : Bool :=
  let off := a % 0x1000
  !isPkg a && pageNo a == 0x1C &&
    ((decide (0x40 ≤ off) && decide (off < 0x64)) || off == Off.EVENTS_SIDE_CTRL || off == Off.EVENTS_SIDE_STAT || decide (0x400 ≤ off))

/-- PERST_N falls (`low`): the host interface is reset and records due are dropped until it rises (R310, R365). -/
def execPerstN (t : PT) (low : Bool) (s : State) : Out :=
  runAt t s fun s =>
    if !low then { s with ev := { s.ev with perstLow := false } }
    else if s.ev.perstLow then s
    else
      let ev := { s.ev with
        wr := 0, lost := 0, rseq := 0, gap := true, losing := false, holdoff := [], msix := [], pba := [], perstLow := true }
      let s1 := { s with
        ev := ev, dmas := [], regs := s.regs.filter fun e => !perstReg e.1, spdm := { stage := 0, answer := none } }
      s1.each (List.range s1.variant.bents) fun s b =>
        (s.standing (evPg b) 0x31 false).bump (conPg b + Off.CONTINUITY_PERST_COUNT)

/-! ### Start-up (R282, R397, R425–R428) -/

/-- The trim store copy in force of a bent (R282): `fails` tells which of A, B and F (0, 1, 2) fail a check now. -/
def State.trimPick (s : State) (b : Nat) (fails : Nat → Bool) : State :=
  let x := s.cal b
  let a := x.copyA.valid && !fails 0
  let c := x.copyB.valid && !fails 1
  let f := x.factoryOk && !fails 2
  let useB := c && (!a || decide (x.copyA.seq < x.copyB.seq))
  let st := b2n useB * 8 + b2n a * 16 + b2n c * 32 + b2n (!a && !c && f) * 64 + b2n (!a && !c && !f) * 128
  let y := { x with
    copyA := { x.copyA with valid := a }, copyB := { x.copyB with valid := c }, factoryOk := f }
  let s1 := (s.setCal b y).wr (shimStat b) st
  let s2 := if a && c then s1 else (s1.latchHealth (shimPg b) 0xC0).raise (shimPg b) 3
  let s3 := (s2.standing (shimPg b) 0xC1 (!a && !c && f)).standing (shimPg b) 0xC4 (!a && !c && !f)
  let s4 := (s3.setWork b (s3.copyPoints b)).clearDeltas b
  s4.setInterp b (s4.tempNow b)

/-- A bent's foreman starts from the bank in force, or from the other (R397). -/
def State.bentStart (s : State) (b : Nat) (fails : Nat → Bool) : State :=
  let k := mapGet (fun _ => 0) s.boot.banks b
  let up (s : State) (k : Nat) : State :=
    ((s.foremanUp b k).ownerSigned b s.boot.owner.isSome).trimPick b fails
  if s.bankOk k s.boot.owner then up s k
  else if s.bankOk (1 - k) s.boot.owner then up (s.setBit (identPg + Off.IDENT_BOOT_STAT) (8 + b) true) (1 - k)
  else (s.setBit (identPg + Off.IDENT_BOOT_STAT) (16 + b) true).verifyFail

/-- The configuration copy in force is chosen (R427). -/
def State.cfgStart (s : State) : State :=
  match s.cfgPick with
  | none => s.wr (pkgp 0 + Off.PKG_CFG_SEQ) 0
  | some (c, l) =>
    let s1 := s.wr (pkgp 0 + Off.PKG_CFG_SEQ) (cfgSeq l)
    let s2 := s1.each (List.range s1.variant.bents) fun s b => s.setBit (conPg b + Off.CONTINUITY_CONT_STAT) 4 (c == 1)
    { s2 with boot := { s2.boot with preloads := cfgPreloads l } }

/-- FOREMAN_START: after a reset the boot ROMs have verified a bank and the foremen start; `fails` lists the trim store copies
(bent; 0 A, 1 B, 2 F) that fail a check (R282, R397, R425 step 3). -/
def execForemanStart (t : PT) (fails : List (Fin 8 × Fin 3)) (s : State) : Out :=
  runAt t s fun s =>
    if s.boot.up then s
    else
      let s1 := (s.each (List.range s.variant.bents) fun s b =>
        s.bentStart b fun c => fails.any fun e => e.1.val == b && e.2.val == c).cfgStart
      { s1 with boot := { s1.boot with up := true }, ev := { s1.ev with faultOn := true } }

/-- The preloads of a bent's window apply, in order (R428). -/
def State.bentPreloads (s : State) (b : Nat) : State :=
  (s.boot.preloads.filter fun e => !isPkg e.1 && bentOf e.1 == b).foldl (fun s e => s.fullWrite e.1 e.2.toNat) s

/-- BIST: a bent's self-test ends (R406, R425 step 4). A bent whose foreman does not start does not pass it (R397). -/
def execBist (t : PT) (b : Fin 8) (pass : Bool) (block : Fin 256) (s : State) : Out :=
  runMem t s fun s =>
    if !s.has b || !s.boot.up || setHas s.boot.bisted b then s
    else
      let ok := pass && s.foremanRuns b
      let s1 := { s with boot := { s.boot with bisted := setPut s.boot.bisted b true } }
      let s2 := (s1.wr (bp b 0 + Off.BENT_BIST_RESULT) (if ok then 1 else block * 2 ^ 8)).setBit (hierPg + Off.HIER_CAND) (8 + b) ok
      if ok then (s2.candUpdate).bentPreloads b
      else ((s2.latchHealth (bp b 0) 0xAB).standing (pkgp 0) 0xAC true).fenceBent b

/-! ### Temperature and rails (R408) -/

/-- A temperature limit of a bent (`i`: 0 TEMP_HI, 1 TEMP_LO, 2 TEMP_CRIT) as a signed value. -/
def State.tempLimit (s : State) (b i : Nat) : Int :=
  toSigned 32 (s.rd (bp b 0 + (if i = 0 then Off.BENT_TEMP_HI else if i = 1 then Off.BENT_TEMP_LO else Off.BENT_TEMP_CRIT)))

/-- A limit is watched: crossing it raises its event, and 2 °C back past it arms the event again. -/
def State.tempWatch (s : State) (b i : Nat) (v : Int) : State :=
  let x := s.tempLimit b i
  let key := b * 4 + i
  let out := if i = 1 then decide (v < x) else decide (x < v)
  let back := if i = 1 then decide (x + 32 ≤ v) else decide (v ≤ x - 32)
  if out && !setHas s.tempOff key then
    let s1 := { s with tempOff := setPut s.tempOff key true }.raise (bp b 0) (1 + i)
    if i = 2 then s1.raise (pkgp 0) 7 else s1
  else if back then { s with tempOff := setPut s.tempOff key false }
  else s

/-- The bent with the highest DIE_TEMP, the lowest-numbered of equals (R409). -/
def State.hottest (s : State) : Int × Nat :=
  (List.range s.variant.bents).foldl (fun m b =>
    let v := toSigned 32 (s.rd (bp b 0 + Off.BENT_DIE_TEMP))
    if b = 0 ∨ m.1 < v then (v, b) else m) (0, 0)

/-- The average of the last 100 samples, rounded (R279). -/
def average (l : List Int) : Int := roundDiv (l.foldl (fun a x => a + x) 0) l.length

/-- TEMP_SAMPLE: the sensor of a bent is sampled, in 1/16 °C. -/
def execTempSample (t : PT) (b : Fin 8) (v : BitVec 16) (s : State) : Out :=
  runAt t s fun s =>
    if !s.has b then s
    else
      let x := v.toInt
      let s1 := s.wr (bp b 0 + Off.BENT_DIE_TEMP) (ofSigned 32 x)
      let l := (x :: (s1.cal b).temps).take 100
      let s2 := (s1.setCal b { s1.cal b with temps := l }).wr (calPg b + Off.CAL_TEMP_NOW) (ofSigned 32 (average l))
      let s3 := s2.each [0, 1, 2] fun s i => s.tempWatch b i x
      let s4 := (s3.standing (bp b 0) 0xA8 (decide (s3.tempLimit b 0 < x))).standing (bp b 0) 0xA9 (decide (s3.tempLimit b 2 < x))
      let h := s4.hottest
      s4.wr (pkgp 0 + Off.PKG_TEMP_MAX) (ofSigned 16 h.1 + h.2 * 2 ^ 16)

/-- RAIL_STAT takes a bit, and 0xAA stands while any bit is set. -/
def State.rail (s : State) (b r : Nat) (on : Bool) : State :=
  let a := bp b 0 + Off.BENT_RAIL_STAT
  let s1 := s.setBit a r on
  s1.standing (bp b 0) 0xAA (s1.rd a != 0)

/-- A reading of a bent's monitor of VCORE, VDAC, VANA or VIO in mV lies in the rail's band: 20 mV about VCORE_SET, or 5 % about
1.0 V, 1.8 V and 1.2 V (R407, R415). -/
def State.railOk (s : State) (b r mv : Nat) : Bool :=
  let set := if r = 0 then s.rd (pacePg b + Off.PACE_VCORE_SET) else if r = 1 then 1000 else if r = 2 then 1800 else 1200
  let d := if r = 0 then 20 else set / 20
  decide (set - d ≤ mv) && decide (mv ≤ set + d)

/-- RAIL_ALERT: an on-die monitor (VCORE, VDAC, VANA, VIO) reads a value outside its band. -/
def execRailAlert (t : PT) (b : Fin 8) (m : RailReading) (s : State) : Out :=
  runAt t s fun s =>
    if !s.has b || s.railOk b m.rail m.mv.toNat || s.bit (bp b 0 + Off.BENT_RAIL_STAT) m.rail then s
    else (s.rail b m.rail true).raise (bp b 0) 4

/-- RAIL_IN_BAND: the monitor returns inside its band. -/
def execRailInBand (t : PT) (b : Fin 8) (m : RailReading) (s : State) : Out :=
  runAt t s fun s => if s.has b && s.railOk b m.rail m.mv.toNat then s.rail b m.rail false else s

/-! ### PWR_FAIL_N (R410) -/

/-- PWR_FAIL: a falling edge stops running stores and flash writes (R284, R388, R410). -/
def execPwrFail (t : PT) (s : State) : Out :=
  runAt t s fun s =>
    if !s.pwrGood then s
    else
      let s1 := ((s.setBit (pkgp 0 + Off.PKG_PWR_STAT) 0 false).bump (pkgp 0 + Off.PKG_PWR_FAIL_COUNT)).standing (pkgp 0) 0xAE true
      let s2 := s1.raise (pkgp 0) 4
      s2.each (List.range s2.variant.bents) fun s b =>
        let s3 := s.storeAbort b
        match s3.mbx b with
        | none => s3
        | some m => if mbxWrites m.op then (s3.mbxSpoil b).mbxEnd b 8 else s3

/-- PWR_RESTORED: a rising edge; deferred stores retry at once. -/
def execPwrRestored (t : PT) (s : State) : Out :=
  runAt t s fun s =>
    if s.pwrGood then s
    else
      let s1 := ((s.setBit (pkgp 0 + Off.PKG_PWR_STAT) 0 true).standing (pkgp 0) 0xAE false).raise (pkgp 0) 5
      s1.each (List.range s1.variant.bents) fun s b =>
        if (s.cal b).storeReq then s.setCal b { s.cal b with storeAt := 0 } else s

end Sys2Proof.Machine
end

