-- ==== Sys2Proof/Machine/Dispatch.lean ====
section
/-!
DEFINITION. Machine/Dispatch.lean: one arm per command, each one call of its meaning.
-/

namespace Sys2Proof.Machine

def exec (i : Instr) (s : State) : Host.Outcome State Fault Refusal :=
  match i with
  | .registerWrite t addr full v => Sys2Proof.Machine.execRegisterWrite t addr full v s
  | .ptHoldWrite t w addr v => Sys2Proof.Machine.execPtHoldWrite t w addr v s
  | .ptLoWrite t w addr v => Sys2Proof.Machine.execPtLoWrite t w addr v s
  | .readLatch t w addr => Sys2Proof.Machine.execReadLatch t w addr s
  | .bar2Write t addr data => Sys2Proof.Machine.execBar2Write t addr data s
  | .bar2Read t addr ecc => Sys2Proof.Machine.execBar2Read t addr ecc s
  | .commit t pg kind => Sys2Proof.Machine.execCommit t pg kind s
  | .commitCancel t pg => Sys2Proof.Machine.execCommitCancel t pg s
  | .commitApply t pg => Sys2Proof.Machine.execCommitApply t pg s
  | .pageEnable t pg => Sys2Proof.Machine.execPageEnable t pg s
  | .pageDisable t pg => Sys2Proof.Machine.execPageDisable t pg s
  | .pageDrain t pg => Sys2Proof.Machine.execPageDrain t pg s
  | .pageFence t pg => Sys2Proof.Machine.execPageFence t pg s
  | .pageSelftest t pg => Sys2Proof.Machine.execPageSelftest t pg s
  | .pageLock t pg => Sys2Proof.Machine.execPageLock t pg s
  | .hclr t pg => Sys2Proof.Machine.execHclr t pg s
  | .selftestDone t pg pass => Sys2Proof.Machine.execSelftestDone t pg pass s
  | .drainDone t pg => Sys2Proof.Machine.execDrainDone t pg s
  | .evtPendClear t pg hi v => Sys2Proof.Machine.execEvtPendClear t pg hi v s
  | .evtForce t pg hi v => Sys2Proof.Machine.execEvtForce t pg hi v s
  | .evtEnWrite t pg hi v => Sys2Proof.Machine.execEvtEnWrite t pg hi v s
  | .holdoffExpiry t v => Sys2Proof.Machine.execHoldoffExpiry t v s
  | .clrCounts t pg part_ => Sys2Proof.Machine.execClrCounts t pg part_ s
  | .countClr t b => Sys2Proof.Machine.execCountClr t b s
  | .scrub t b addr ecc => Sys2Proof.Machine.execScrub t b addr ecc s
  | .pegAccept t b kind idx read calLive => Sys2Proof.Machine.execPegAccept t b kind idx read calLive s
  | .marker t b idx => Sys2Proof.Machine.execMarker t b idx s
  | .alarmArm t b => Sys2Proof.Machine.execAlarmArm t b s
  | .alarmDisarm t b => Sys2Proof.Machine.execAlarmDisarm t b s
  | .alarm t b => Sys2Proof.Machine.execAlarm t b s
  | .ppsEdge t edge => Sys2Proof.Machine.execPpsEdge t edge s
  | .ppsMissing t => Sys2Proof.Machine.execPpsMissing t s
  | .sourceQualified t src test => Sys2Proof.Machine.execSourceQualified t src test s
  | .srcLost t m => Sys2Proof.Machine.execSrcLost t m s
  | .switchCmd t src => Sys2Proof.Machine.execSwitchCmd t src s
  | .switched t freq => Sys2Proof.Machine.execSwitched t freq s
  | .steeringDone t => Sys2Proof.Machine.execSteeringDone t s
  | .ocxoReadyChange t level => Sys2Proof.Machine.execOcxoReadyChange t level s
  | .warmSettled t => Sys2Proof.Machine.execWarmSettled t s
  | .ageUpdate t => Sys2Proof.Machine.execAgeUpdate t s
  | .lockWindow t b k before last => Sys2Proof.Machine.execLockWindow t b k before last s
  | .refLos t b ref => Sys2Proof.Machine.execRefLos t b ref s
  | .twinWatch t b skews errA errB => Sys2Proof.Machine.execTwinWatch t b skews errA errB s
  | .takeover t b => Sys2Proof.Machine.execTakeover t b s
  | .sillReacquireTimeout t b k => Sys2Proof.Machine.execSillReacquireTimeout t b k s
  | .swap t b k => Sys2Proof.Machine.execSwap t b k s
  | .restart t b k => Sys2Proof.Machine.execRestart t b k s
  | .unpark t b k => Sys2Proof.Machine.execUnpark t b k s
  | .holdLimit t b => Sys2Proof.Machine.execHoldLimit t b s
  | .pullDone t b => Sys2Proof.Machine.execPullDone t b s
  | .phaseStep t b k v => Sys2Proof.Machine.execPhaseStep t b k v s
  | .phaseDone t => Sys2Proof.Machine.execPhaseDone t s
  | .relock t b k n tree => Sys2Proof.Machine.execRelock t b k n tree s
  | .relockDone t => Sys2Proof.Machine.execRelockDone t s
  | .set t b ch => Sys2Proof.Machine.execSet t b ch s
  | .pulse t b ch => Sys2Proof.Machine.execPulse t b ch s
  | .burst t b ch => Sys2Proof.Machine.execBurst t b ch s
  | .clockStart t b ch => Sys2Proof.Machine.execClockStart t b ch s
  | .clockStop t b ch => Sys2Proof.Machine.execClockStop t b ch s
  | .rest t b ch => Sys2Proof.Machine.execRest t b ch s
  | .arm t b ch => Sys2Proof.Machine.execArm t b ch s
  | .disarm t b ch => Sys2Proof.Machine.execDisarm t b ch s
  | .trigger t b ch edge => Sys2Proof.Machine.execTrigger t b ch edge s
  | .chStop t b ch => Sys2Proof.Machine.execChStop t b ch s
  | .chDrain t b ch => Sys2Proof.Machine.execChDrain t b ch s
  | .chResense t b ch => Sys2Proof.Machine.execChResense t b ch s
  | .chArm t b ch => Sys2Proof.Machine.execChArm t b ch s
  | .chDisarm t b ch => Sys2Proof.Machine.execChDisarm t b ch s
  | .sensingDone t b ch sensed => Sys2Proof.Machine.execSensingDone t b ch sensed s
  | .disableHoldEnd t b kind idx => Sys2Proof.Machine.execDisableHoldEnd t b kind idx s
  | .pinFault t b ch => Sys2Proof.Machine.execPinFault t b ch s
  | .spareTakeover t b ch => Sys2Proof.Machine.execSpareTakeover t b ch s
  | .thrWindow t b ch transitions low high => Sys2Proof.Machine.execThrWindow t b ch transitions low high s
  | .vectorFail t b ch m seen => Sys2Proof.Machine.execVectorFail t b ch m seen s
  | .seqStart t b q => Sys2Proof.Machine.execSeqStart t b q s
  | .estimateDone t b q => Sys2Proof.Machine.execEstimateDone t b q s
  | .seqHalt t b q => Sys2Proof.Machine.execSeqHalt t b q s
  | .seqStop t b q => Sys2Proof.Machine.execSeqStop t b q s
  | .seqMove t b q => Sys2Proof.Machine.execSeqMove t b q s
  | .admitRequest t b q => Sys2Proof.Machine.execAdmitRequest t b q s
  | .stepFetch t b q ecc => Sys2Proof.Machine.execStepFetch t b q ecc s
  | .pegStep t b q => Sys2Proof.Machine.execPegStep t b q s
  | .playStep t b q => Sys2Proof.Machine.execPlayStep t b q s
  | .segmentStep t b q => Sys2Proof.Machine.execSegmentStep t b q s
  | .captureStep t b q => Sys2Proof.Machine.execCaptureStep t b q s
  | .waitStep t b q => Sys2Proof.Machine.execWaitStep t b q s
  | .branch t b q => Sys2Proof.Machine.execBranch t b q s
  | .loopStep t b q => Sys2Proof.Machine.execLoopStep t b q s
  | .callStep t b q => Sys2Proof.Machine.execCallStep t b q s
  | .returnStep t b q => Sys2Proof.Machine.execReturnStep t b q s
  | .syncStep t b q => Sys2Proof.Machine.execSyncStep t b q s
  | .syncTimeout t ch => Sys2Proof.Machine.execSyncTimeout t ch s
  | .setStep t b q => Sys2Proof.Machine.execSetStep t b q s
  | .endShot t b q => Sys2Proof.Machine.execEndShot t b q s
  | .haltStep t b q => Sys2Proof.Machine.execHaltStep t b q s
  | .await t b q => Sys2Proof.Machine.execAwait t b q s
  | .awaitTimeout t b q => Sys2Proof.Machine.execAwaitTimeout t b q s
  | .shotTrigger t b q pin index falling stamp => Sys2Proof.Machine.execShotTrigger t b q pin index falling stamp s
  | .verdictDelivery t b toInput idx vid lost parity => Sys2Proof.Machine.execVerdictDelivery t b toInput idx vid lost parity s
  | .verdictTimeout t b q => Sys2Proof.Machine.execVerdictTimeout t b q s
  | .parityFault t b q => Sys2Proof.Machine.execParityFault t b q s
  | .shotDone t b q energy => Sys2Proof.Machine.execShotDone t b q energy s
  | .segmentPeg t b n => Sys2Proof.Machine.execSegmentPeg t b n s
  | .strStart t b n => Sys2Proof.Machine.execStrStart t b n s
  | .strStop t b n => Sys2Proof.Machine.execStrStop t b n s
  | .strDrain t b n => Sys2Proof.Machine.execStrDrain t b n s
  | .strJump t b n => Sys2Proof.Machine.execStrJump t b n s
  | .ringReset t b n => Sys2Proof.Machine.execRingReset t b n s
  | .ringWrWrite t b n v => Sys2Proof.Machine.execRingWrWrite t b n v s
  | .segmentCommit t b n => Sys2Proof.Machine.execSegmentCommit t b n s
  | .segmentBoundary t b n ecc word => Sys2Proof.Machine.execSegmentBoundary t b n ecc word s
  | .underrun t b n => Sys2Proof.Machine.execUnderrun t b n s
  | .fillEnd t b n => Sys2Proof.Machine.execFillEnd t b n s
  | .ownedStreamEnd t b n => Sys2Proof.Machine.execOwnedStreamEnd t b n s
  | .clrFail t b => Sys2Proof.Machine.execClrFail t b s
  | .playPeg t b kind idx from_ ecc word => Sys2Proof.Machine.execPlayPeg t b kind idx from_ ecc word s
  | .frameAdd t b kind idx => Sys2Proof.Machine.execFrameAdd t b kind idx s
  | .frameSet t b kind idx => Sys2Proof.Machine.execFrameSet t b kind idx s
  | .stopPeg t b kind idx => Sys2Proof.Machine.execStopPeg t b kind idx s
  | .toneStop t b kind idx => Sys2Proof.Machine.execToneStop t b kind idx s
  | .toneDrain t b kind idx => Sys2Proof.Machine.execToneDrain t b kind idx s
  | .flxStop t b idx => Sys2Proof.Machine.execFlxStop t b idx s
  | .flxDrain t b idx => Sys2Proof.Machine.execFlxDrain t b idx s
  | .outFault t b kind idx => Sys2Proof.Machine.execOutFault t b kind idx s
  | .window t b ch => Sys2Proof.Machine.execWindow t b ch s
  | .heldWindowStart t b ch => Sys2Proof.Machine.execHeldWindowStart t b ch s
  | .windowEnd t b ch samples => Sys2Proof.Machine.execWindowEnd t b ch samples s
  | .contStart t b ch => Sys2Proof.Machine.execContStart t b ch s
  | .contStop t b ch => Sys2Proof.Machine.execContStop t b ch s
  | .capContStart t b ch => Sys2Proof.Machine.execCapContStart t b ch s
  | .capContStop t b ch => Sys2Proof.Machine.execCapContStop t b ch s
  | .contBlock t b ch samples => Sys2Proof.Machine.execContBlock t b ch samples s
  | .inject t b ch => Sys2Proof.Machine.execInject t b ch s
  | .capStop t b ch => Sys2Proof.Machine.execCapStop t b ch s
  | .capDrain t b ch => Sys2Proof.Machine.execCapDrain t b ch s
  | .rotate t b ch => Sys2Proof.Machine.execRotate t b ch s
  | .rotation t b ch => Sys2Proof.Machine.execRotation t b ch s
  | .sliceSwap t b ch => Sys2Proof.Machine.execSliceSwap t b ch s
  | .sliceCalDone t b ch => Sys2Proof.Machine.execSliceCalDone t b ch s
  | .shadowBlock t b ch spare other => Sys2Proof.Machine.execShadowBlock t b ch spare other s
  | .pulseWidthEvent t b ch lead trail => Sys2Proof.Machine.execPulseWidthEvent t b ch lead trail s
  | .inFault t b ch => Sys2Proof.Machine.execInFault t b ch s
  | .verdictFrame t p hops entries => Sys2Proof.Machine.execVerdictFrame t p hops entries s
  | .stamp t b pin idx edge k0 k1 k2 k3 => Sys2Proof.Machine.execStamp t b pin idx edge k0 k1 k2 k3 s
  | .lathWithdrawal t b ch k => Sys2Proof.Machine.execLathWithdrawal t b ch k s
  | .lathReturn t b ch hits complete => Sys2Proof.Machine.execLathReturn t b ch hits complete s
  | .tiuArmPeg t b u => Sys2Proof.Machine.execTiuArmPeg t b u s
  | .tiuDisarmPeg t b u => Sys2Proof.Machine.execTiuDisarmPeg t b u s
  | .tiuArm t b u => Sys2Proof.Machine.execTiuArm t b u s
  | .tiuDisarm t b u => Sys2Proof.Machine.execTiuDisarm t b u s
  | .tiuClr t b u => Sys2Proof.Machine.execTiuClr t b u s
  | .tiuMeasurement t b u => Sys2Proof.Machine.execTiuMeasurement t b u s
  | .tiuTimeout t b u => Sys2Proof.Machine.execTiuTimeout t b u s
  | .gate t b e => Sys2Proof.Machine.execGate t b e s
  | .freStopPeg t b e => Sys2Proof.Machine.execFreStopPeg t b e s
  | .freGate t b e => Sys2Proof.Machine.execFreGate t b e s
  | .freStop t b e => Sys2Proof.Machine.execFreStop t b e s
  | .freClr t b e => Sys2Proof.Machine.execFreClr t b e s
  | .gateEnd t b e => Sys2Proof.Machine.execGateEnd t b e s
  | .gateDone t b e => Sys2Proof.Machine.execGateDone t b e s
  | .signDone t b => Sys2Proof.Machine.execSignDone t b s
  | .calStart t b cls => Sys2Proof.Machine.execCalStart t b cls s
  | .calMeasurement t b item inst m complete active => Sys2Proof.Machine.execCalMeasurement t b item inst m complete active s
  | .correctionApply t b item inst => Sys2Proof.Machine.execCorrectionApply t b item inst s
  | .forcedApply t b item inst => Sys2Proof.Machine.execForcedApply t b item inst s
  | .trestleTakeover t b g => Sys2Proof.Machine.execTrestleTakeover t b g s
  | .trestleReturn t b g => Sys2Proof.Machine.execTrestleReturn t b g s
  | .takeoverAbandon t b g => Sys2Proof.Machine.execTakeoverAbandon t b g s
  | .reinterpolate t b => Sys2Proof.Machine.execReinterpolate t b s
  | .calStale t b item inst => Sys2Proof.Machine.execCalStale t b item inst s
  | .pwrupDone t b => Sys2Proof.Machine.execPwrupDone t b s
  | .pwrupTimeout t b => Sys2Proof.Machine.execPwrupTimeout t b s
  | .runPass t b => Sys2Proof.Machine.execRunPass t b s
  | .runItem t b => Sys2Proof.Machine.execRunItem t b s
  | .store t b v drop => Sys2Proof.Machine.execStore t b v drop s
  | .autoStore t b v drop => Sys2Proof.Machine.execAutoStore t b v drop s
  | .storeRetry t b v drop => Sys2Proof.Machine.execStoreRetry t b v drop s
  | .storeDone t b => Sys2Proof.Machine.execStoreDone t b s
  | .storeStall t b => Sys2Proof.Machine.execStoreStall t b s
  | .shimCancel t b => Sys2Proof.Machine.execShimCancel t b s
  | .delete t b => Sys2Proof.Machine.execDelete t b s
  | .reload t b => Sys2Proof.Machine.execReload t b s
  | .bentFence t b => Sys2Proof.Machine.execBentFence t b s
  | .bentUnfence t b => Sys2Proof.Machine.execBentUnfence t b s
  | .bentDrain t b => Sys2Proof.Machine.execBentDrain t b s
  | .fwSwitch t b => Sys2Proof.Machine.execFwSwitch t b s
  | .foremanStop t b => Sys2Proof.Machine.execForemanStop t b s
  | .foremanRestart t b up => Sys2Proof.Machine.execForemanRestart t b up s
  | .tunnelledWrite t src n addr v => Sys2Proof.Machine.execTunnelledWrite t src n addr v s
  | .resetN t long => Sys2Proof.Machine.execResetN t long s
  | .por t => Sys2Proof.Machine.execPor t s
  | .perstN t low => Sys2Proof.Machine.execPerstN t low s
  | .pwrFail t => Sys2Proof.Machine.execPwrFail t s
  | .pwrRestored t => Sys2Proof.Machine.execPwrRestored t s
  | .creditUpdate t rails aux => Sys2Proof.Machine.execCreditUpdate t rails aux s
  | .lowMargin t => Sys2Proof.Machine.execLowMargin t s
  | .telemRead t b ok rails vaux => Sys2Proof.Machine.execTelemRead t b ok rails vaux s
  | .groupIdle t b g => Sys2Proof.Machine.execGroupIdle t b g s
  | .groupWake t b g => Sys2Proof.Machine.execGroupWake t b g s
  | .wakeDone t b g => Sys2Proof.Machine.execWakeDone t b g s
  | .paceSample t b counts avs mv => Sys2Proof.Machine.execPaceSample t b counts avs mv s
  | .paceRaise t b => Sys2Proof.Machine.execPaceRaise t b s
  | .paceLower t b => Sys2Proof.Machine.execPaceLower t b s
  | .avsFault t b => Sys2Proof.Machine.execAvsFault t b s
  | .clrPeak t b => Sys2Proof.Machine.execClrPeak t b s
  | .election t => Sys2Proof.Machine.execElection t s
  | .migrate t => Sys2Proof.Machine.execMigrate t s
  | .heartbeat t parity => Sys2Proof.Machine.execHeartbeat t parity s
  | .heartbeatLoss t => Sys2Proof.Machine.execHeartbeatLoss t s
  | .purlinHandover t => Sys2Proof.Machine.execPurlinHandover t s
  | .skewDone t skews => Sys2Proof.Machine.execSkewDone t skews s
  | .purlinMarker t b diff => Sys2Proof.Machine.execPurlinMarker t b diff s
  | .reskew t => Sys2Proof.Machine.execReskew t s
  | .join t auto => Sys2Proof.Machine.execJoin t auto s
  | .joinComplete t child sent o => Sys2Proof.Machine.execJoinComplete t child sent o s
  | .leave t => Sys2Proof.Machine.execLeave t s
  | .tenonLost t => Sys2Proof.Machine.execTenonLost t s
  | .timeExchange t p => Sys2Proof.Machine.execTimeExchange t p s
  | .timeFrame t p t1 t2 t3 t4 => Sys2Proof.Machine.execTimeFrame t p t1 t2 t3 t4 s
  | .eventFrame t p seq pkg source forced health pt detail gen => Sys2Proof.Machine.execEventFrame t p seq pkg source forced health pt detail gen s
  | .regFrame t p seq src dst read n addr v => Sys2Proof.Machine.execRegFrame t p seq src dst read n addr v s
  | .bulkFrame t p seq pkg b source data => Sys2Proof.Machine.execBulkFrame t p seq pkg b source data s
  | .retrain t b k auto => Sys2Proof.Machine.execRetrain t b k auto s
  | .trainingDone t b k ok eyes pkg n level ordinal phase => Sys2Proof.Machine.execTrainingDone t b k ok eyes pkg n level ordinal phase s
  | .asymCal t b k => Sys2Proof.Machine.execAsymCal t b k s
  | .asymDone t b k sumN sumR => Sys2Proof.Machine.execAsymDone t b k sumN sumR s
  | .raccWrite t => Sys2Proof.Machine.execRaccWrite t s
  | .raccRead t => Sys2Proof.Machine.execRaccRead t s
  | .raccDone t v => Sys2Proof.Machine.execRaccDone t v s
  | .raccTimeout t => Sys2Proof.Machine.execRaccTimeout t s
  | .sidePortEnable t b rate width => Sys2Proof.Machine.execSidePortEnable t b rate width s
  | .headWrite t b e head descs => Sys2Proof.Machine.execHeadWrite t b e head descs s
  | .dmaDescriptor t b e data fail => Sys2Proof.Machine.execDmaDescriptor t b e data fail s
  | .dmaFlush t b e => Sys2Proof.Machine.execDmaFlush t b e s
  | .dmaReset t b e => Sys2Proof.Machine.execDmaReset t b e s
  | .version t b => Sys2Proof.Machine.execVersion t b s
  | .fwOpen t b => Sys2Proof.Machine.execFwOpen t b s
  | .fwWrite t b => Sys2Proof.Machine.execFwWrite t b s
  | .fwClose t b => Sys2Proof.Machine.execFwClose t b s
  | .cfgOpen t b v drop => Sys2Proof.Machine.execCfgOpen t b v drop s
  | .cfgWrite t b v drop => Sys2Proof.Machine.execCfgWrite t b v drop s
  | .cfgClose t b v drop => Sys2Proof.Machine.execCfgClose t b v drop s
  | .flashRead t b => Sys2Proof.Machine.execFlashRead t b s
  | .mbxDone t b pass => Sys2Proof.Machine.execMbxDone t b pass s
  | .getVersion t => Sys2Proof.Machine.execGetVersion t s
  | .getCapabilities t => Sys2Proof.Machine.execGetCapabilities t s
  | .negotiateAlgorithms t p384 sha384 => Sys2Proof.Machine.execNegotiateAlgorithms t p384 sha384 s
  | .getDigests t => Sys2Proof.Machine.execGetDigests t s
  | .getCertificate t slot offset len => Sys2Proof.Machine.execGetCertificate t slot offset len s
  | .challenge t slot transcript => Sys2Proof.Machine.execChallenge t slot transcript s
  | .getMeasurements t index transcript => Sys2Proof.Machine.execGetMeasurements t index transcript s
  | .ownerSet t => Sys2Proof.Machine.execOwnerSet t s
  | .ownerClear t => Sys2Proof.Machine.execOwnerClear t s
  | .tempSample t b v => Sys2Proof.Machine.execTempSample t b v s
  | .railAlert t b m => Sys2Proof.Machine.execRailAlert t b m s
  | .bist t b pass block => Sys2Proof.Machine.execBist t b pass block s
  | .sourceActivity t which duty phase => Sys2Proof.Machine.execSourceActivity t which duty phase s
  | .overrangeSample t b ch => Sys2Proof.Machine.execOverrangeSample t b ch s
  | .ringGranuleTaken t b n ecc word => Sys2Proof.Machine.execRingGranuleTaken t b n ecc word s
  | .linkUp t b k => Sys2Proof.Machine.execLinkUp t b k s
  | .frameCrcFail t b k frame resent => Sys2Proof.Machine.execFrameCrcFail t b k frame resent s
  | .sidePortDown t b => Sys2Proof.Machine.execSidePortDown t b s
  | .foremanStart t fails => Sys2Proof.Machine.execForemanStart t fails s
  | .railInBand t b m => Sys2Proof.Machine.execRailInBand t b m s

end Sys2Proof.Machine
end

