-- ==== Sys2Proof/Machine/Step.lean ====
section
/-!
DEFINITION. Machine/Step.lean: one step of the block: the command at the front of the queue, or, with no command waiting, one
tick of the lattice.
-/

namespace Sys2Proof.Machine

/-- A tick of the lattice with nothing commanded (log entry 3): PT advances by N once it runs (R27, R30). -/
def State.idle (s : State) : State :=
  if s.clk.running && decide (s.clk.now + s.clk.n < 2 ^ 80) then { s with clk := { s.clk with now := s.clk.now + s.clk.n } } else s

/-- One step. -/
def step (s : State) : Host.Outcome State Fault Refusal :=
  match s.pending with
  | [] => .next s.idle
  | c :: r => exec c { s with pending := r }

/-- The state with the command that a word spells at the front of its queue; no word spells one. -/
def State.withFetchWord (s : State) (nbits w : Nat) : State :=
  match decodeTableWord nbits w with
  | none => s
  | some c => { s with pending := c :: s.pending }

end Sys2Proof.Machine
end

