-- ==== Sys2Proof/Safety.lean ====
section
/-!
DEFINITION. Safety.lean: the terms the statements use: the invariants of a run, and what a command leaves as it was.
-/

namespace Sys2Proof.Machine

/-- PT counts below 2^80 and stands at 0 until POR's start of PT (R25, R31). -/
def State.clkOk (s : State) : Bool := decide (s.clk.now < 2 ^ 80) && (s.clk.running || decide (s.clk.now = 0))

/-- Every register in force but those of a list is as it was. -/
def State.sameRegs (u s : State) (l : List Nat) : Prop := ∀ a, a ∉ l → s.reg a = u.reg a

/-- Every byte of BAR2 outside a range is as it was. -/
def State.sameBytes (u s : State) (a n : Nat) : Prop := ∀ x, x < a ∨ a + n ≤ x → s.memByte x = u.memByte x

/-- Every edge channel but one is as it was. -/
def State.sameEdges (u s : State) (b ch : Nat) : Prop :=
  ∀ b' ch', b' * 32 + ch' ≠ b * 32 + ch → s.edge b' ch' = u.edge b' ch'

/-- Every lane's queue but one is as it was. -/
def State.sameQueues (u s : State) (lane : Nat) : Prop := ∀ l, l ≠ lane → s.queue l = u.queue l

/-- An edge channel runs nothing and its driver is not on its way to rest. -/
def EdgeSt.idle (e : EdgeSt) : Bool := e.eff.isNone && e.restAt.isNone

/-- No transition of the channel lies within 1 600 kerfs before an instant (R102). -/
def EdgeSt.spaced (e : EdgeSt) (p : Nat) : Bool :=
  match e.lastTrans with
  | none => true
  | some l => decide (l + 1600 ≤ p)

/-- The head of a lane's queue has reached its PT and carries an action, and the lane is in service. -/
def State.due (s : State) (lane : Nat) (p : Peg) (q : List Peg) (act : Nat) : Prop :=
  s.queue lane = p :: q ∧ p.pt ≤ s.now ∧ p.action = act ∧ s.laneFault lane = false

/-- An edge lane's due peg of an action meets a pin at rest: nothing runs, and no transition is within 1 600 kerfs. -/
def State.edgeDue (s : State) (b ch : Nat) (p : Peg) (q : List Peg) (act : Nat) : Prop :=
  s.due (laneAddr b 0 ch) p q act ∧ (s.edge b ch).idle = true ∧ (s.edge b ch).spaced p.pt = true

/-- A command of a page acts: the bent is present and the page is not locked (R399). -/
def State.takes (s : State) (b pg : Nat) : Prop := s.has b = true ∧ s.locked pg = false

/-- A command of a page that starts work acts: the page is not fenced either (R371). -/
def State.starts (s : State) (b pg : Nat) : Prop := s.takes b pg ∧ s.fenced pg = false

/-- The TONE, PROBE and FLUX pages of a bent, whose clip counts follow its converters (R186, R188). -/
def convPages (b : Nat) : List Nat := (List.range 7).map fun i => bp b (8 + i)

/-- A stream's registers pass the test of their commit: its target suits its kind (R154). -/
def State.strReady (s : State) (b n : Nat) : Prop := targetOk b (s.rd (segPg b + Off.SEGMENT_STR_CFG n)) = true

/-- The clip count of a lane's converter (R186, R188). -/
def clipCount (lane : Nat) : Nat :=
  if isFlux lane then tonePg lane + Off.FLUX_FLX_CLIP_COUNT (laneIdx lane % 8)
  else tonePg lane + Off.TONE_DAC_CLIP_COUNT (toneDac lane)

/-- The samples of a lane's converter not yet accounted for, with ball instants before `x`, whose code is beyond the converter's
limit (R186, R188). -/
def State.clipsTo (s : State) (lane x : Nat) : Nat :=
  let period := s.samplePeriod lane
  let k0 := ceilDiv (mapGet (fun _ => 0) s.dacAt (dacKey lane) - s.clk.o) period
  let k1 := ceilDiv (16 * ((x : Int) - (s.clk.o : Int)) - s.convDelay lane).toNat (16 * period)
  ((List.range k1).filter fun k => decide (k0 ≤ k) &&
    decide (codeLimit lane < (s.rawCode lane (s.clk.o + k * period)).natAbs)).length

/-- Every register in force outside some pages is as it was. -/
def State.samePages (u s : State) (pgs : List Nat) : Prop := ∀ a, pageOf a ∉ pgs → s.reg a = u.reg a

/-- An event source of a page stands raised: its RAW bit. -/
def State.raised (s : State) (pg i : Nat) : Bool := setHas s.ev.raw (pg * 64 + i)

/-- A health code is latched on a page. -/
def State.isLatched (s : State) (pg code : Nat) : Bool := setHas s.ev.latched (pg * 256 + code)

/-- The head of a lane's queue has reached its PT. -/
def State.headDue (s : State) (lane : Nat) (p : Peg) (q : List Peg) : Prop := s.queue lane = p :: q ∧ p.pt ≤ s.now

/-- Only the instruments of STAMP and FREQ, their records and what a record reaches differ: registers of the STAMP, FREQ and
EVENTS pages of the bent, and in BAR2 only the bent's record ring. -/
def State.onlyInstruments (u s : State) (b : Nat) : Prop :=
  s = { u with regs := s.regs, ev := s.ev, mem := s.mem, dmas := s.dmas, tius := s.tius, fres := s.fres, recGap := s.recGap,
               touched := s.touched, signQ := s.signQ, free := s.free, queues := s.queues, seqs := s.seqs } ∧
    u.samePages s [stampPg b, freqPg b, evPg b] ∧
    u.sameBytes s (mb b (0x4000000 + u.fld (stampPg b + Off.STAMP_REC_BASE) 0 23)) (u.rd (stampPg b + Off.STAMP_REC_SIZE))

/-- SEQ of the copy in force of a bent's trim store; 0 where it is the factory's or none (R282). -/
def State.trimSeq (s : State) (b : Nat) : Nat :=
  if s.bit (shimStat b) 6 || s.bit (shimStat b) 7 then 0
  else if s.bit (shimStat b) 3 then (s.cal b).copyB.seq else (s.cal b).copyA.seq

/-- A store of a bent has begun: the copy not in force is being written, and is not valid meanwhile (R283 step 4). -/
def State.storeBegun (u s : State) (b : Nat) : Prop :=
  s.bit (shimStat b) 0 = true ∧ s.bit (shimStat b) 1 = false ∧ s.bit (shimStat b) 2 = false ∧
    (if u.bit (shimStat b) 3 then (s.cal b).copyA.valid else (s.cal b).copyB.valid) = false ∧
    (∃ c, (s.cal b).prep = some c ∧ c.valid = true ∧ c.seq = (u.trimSeq b + 1) % 2 ^ 32) ∧
    (s.cal b).storeReq = false ∧ (s.cal b).storeAt = u.now ∧ u.samePages s [shimPg b, pkgp 0] ∧
    s = { u with regs := s.regs, ev := s.ev, cals := s.cals, free := s.free }

/-- A store of a bent has been deferred (R283 step 3). -/
def State.storeDeferred (u s : State) (b : Nat) : Prop :=
  s.bit (shimStat b) 1 = true ∧ s.bit (shimStat b) 2 = false ∧ s.bit (shimStat b) 0 = false ∧
    s.rd (shimPg b + Off.SHIMSTORE_DEFER_COUNT) = satAdd (u.rd (shimPg b + Off.SHIMSTORE_DEFER_COUNT)) 1 ∧
    s.stands (shimPg b) 0xC2 = true ∧ s.raised (shimPg b) 1 = true ∧ (s.cal b).storeReq = true ∧
    (s.cal b).storeAt = u.now ∧ u.samePages s [shimPg b, pkgp 0] ∧
    s = { u with regs := s.regs, ev := s.ev, cals := s.cals, free := s.free }

/-- Every sequencer but one is as it was. -/
def State.sameSeqs (u s : State) (k : Nat) : Prop := ∀ j, j ≠ k → s.seq j = u.seq j

/-- A sequencer in a shot has fetched a step of an opcode. -/
def State.stepAt (s : State) (k w op : Nat) : Prop :=
  (s.seq k).phase = .inShot ∧ (s.seq k).cur = some w ∧ stOp w = op

/-- No effect, stream, window, capture, gate or series of a shot is in progress. -/
def State.noEffects (s : State) (o : Owner) : Bool :=
  (s.edges.all fun e => match e.2.eff with
    | none => true
    | some f => f.owner != some o) &&
  (s.streams.all fun e => !(e.2.seg.isSome && e.2.owner == some o)) &&
  (s.tones.all fun e => match e.2.pulse with
    | none => true
    | some p => p.owner != some o) &&
  (s.caps.all fun e => (e.2.wins.all fun w => w.owner != some o) && (e.2.held.all fun w => w.owner != some o) &&
    match e.2.cont with
    | none => true
    | some c => c.owner != some o) &&
  (s.fres.all fun e => match e.2.gate with
    | none => true
    | some g => g.owner != some o) &&
  s.tius.all fun e => !(e.2.armed && e.2.owner == some o)

end Sys2Proof.Machine
end

