-- ==== Sys2Proof/Certificates/Slice0/Obligations.lean ====
section
/-!
DEFINITION. Certificates/Slice0/Obligations.lean: the statements for the provers. In each, `u` is the state as the command
finds it, at its own instant.
-/

open Sys2Proof Sys2Proof.Machine

/-! ### Edge channels -/

/-- R100, R102: on a pin at rest a due SET gives the pin its level, a PULSE drives it away from its base level for WIDTH
kerfs, a BURST runs the pattern its peg names, and a CLOCK_START runs it without end where its period is a multiple of N.
Each takes its peg from the queue and changes no other channel, no other queue, no register and no byte of memory.
R103, R107: a due CLOCK_STOP ends a running clock at its first back transition at or after its PT; a due REST takes a
pin at rest to its rest level; ARM and DISARM pegs arm and disarm the channel from their PT on. -/
def Obligations.EdgePegs : Prop :=
  (∀ (s u : State) (t : PT) (b : Fin 8) (ch : Fin 32) (p : Peg) (q : List Peg), u = s.arrive t →
     (u.edgeDue b ch p q 1 → ∃ s', exec (.set t b ch) s = .next s' ∧
       (s'.edge b ch).base = bitAt p.payload 4 ∧ (s'.edge b ch).eff = none ∧
       s'.queue (laneAddr b 0 ch) = q ∧ u.sameEdges s' b ch ∧ u.sameQueues s' (laneAddr b 0 ch) ∧
       s' = { u with edges := s'.edges, queues := s'.queues, touched := s'.touched, seqs := s'.seqs, ev := s'.ev }) ∧
     (u.edgeDue b ch p q 2 → u.voidOf p.owner = none → ∃ s', exec (.pulse t b ch) s = .next s' ∧
       (∀ x, p.pt ≤ x → (s'.edge b ch).level (u.chRest b ch) x =
         if x < p.pt + bits p.payload 8 40 then !(u.edge b ch).base else (u.edge b ch).base) ∧
       s'.queue (laneAddr b 0 ch) = q ∧ u.sameEdges s' b ch ∧ u.sameQueues s' (laneAddr b 0 ch) ∧
       s' = { u with edges := s'.edges, queues := s'.queues, touched := s'.touched, seqs := s'.seqs, ev := s'.ev }) ∧
     (u.edgeDue b ch p q 3 → u.voidOf p.owner = none → ∃ s', exec (.burst t b ch) s = .next s' ∧
       (∃ f, (s'.edge b ch).eff = some f ∧ f.start = p.pt ∧
         (f.period, f.width, f.count.getD 0) = u.pattern b ch (bits p.payload 5 3) ∧ f.count.isSome ∧ f.clock = false) ∧
       s'.queue (laneAddr b 0 ch) = q ∧ u.sameEdges s' b ch ∧ u.sameQueues s' (laneAddr b 0 ch) ∧
       s' = { u with edges := s'.edges, queues := s'.queues, touched := s'.touched, seqs := s'.seqs, ev := s'.ev }) ∧
     (u.edgeDue b ch p q 4 → u.voidOf p.owner = none → (u.pattern b ch (bits p.payload 5 3)).1 % u.clk.n = 0 →
       ∃ s', exec (.clockStart t b ch) s = .next s' ∧
       (∃ f, (s'.edge b ch).eff = some f ∧ f.start = p.pt ∧ f.period = (u.pattern b ch (bits p.payload 5 3)).1 ∧
         f.width = (u.pattern b ch (bits p.payload 5 3)).2.1 ∧ f.count = none ∧ f.clock = true) ∧
       s'.queue (laneAddr b 0 ch) = q ∧ u.sameEdges s' b ch ∧ u.sameQueues s' (laneAddr b 0 ch) ∧
       s' = { u with edges := s'.edges, queues := s'.queues, touched := s'.touched, seqs := s'.seqs, ev := s'.ev })) ∧
  ∀ (s u : State) (t : PT) (b : Fin 8) (ch : Fin 32) (p : Peg) (q : List Peg), u = s.arrive t →
    (∀ f, u.due (laneAddr b 0 ch) p q 5 → (u.edge b ch).eff = some f → (u.edge b ch).restAt = none →
      f.clock = true → f.count = none → ∃ s', exec (.clockStop t b ch) s = .next s' ∧
      (s'.edge b ch).eff = some { f with count := some (ceilDiv (p.pt - (f.start + f.width)) f.period + 1) } ∧
      s'.queue (laneAddr b 0 ch) = q ∧ u.sameEdges s' b ch ∧ u.sameQueues s' (laneAddr b 0 ch) ∧
      s' = { u with edges := s'.edges, queues := s'.queues, touched := s'.touched, seqs := s'.seqs, ev := s'.ev }) ∧
    (u.edgeDue b ch p q 6 → ∃ s', exec (.rest t b ch) s = .next s' ∧
      (s'.edge b ch).base = u.chRest b ch ∧ (s'.edge b ch).eff = none ∧
      s'.queue (laneAddr b 0 ch) = q ∧ u.sameEdges s' b ch ∧ u.sameQueues s' (laneAddr b 0 ch) ∧
      s' = { u with edges := s'.edges, queues := s'.queues, touched := s'.touched, seqs := s'.seqs, ev := s'.ev }) ∧
    (u.due (laneAddr b 0 ch) p q 7 → ∃ s', exec (.arm t b ch) s = .next s' ∧
      s'.bit (chStat b ch) 3 = true ∧ (s'.edge b ch).armAt = p.pt ∧ s'.queue (laneAddr b 0 ch) = q ∧
      u.sameRegs s' [chStat b ch] ∧ u.sameEdges s' b ch ∧ u.sameQueues s' (laneAddr b 0 ch) ∧ s'.mem = u.mem) ∧
    (u.due (laneAddr b 0 ch) p q 8 → ∃ s', exec (.disarm t b ch) s = .next s' ∧
      s'.bit (chStat b ch) 3 = false ∧ (u.bit (chStat b ch) 3 = true → (s'.edge b ch).disarmAt = p.pt) ∧
      s'.queue (laneAddr b 0 ch) = q ∧
      u.sameRegs s' [chStat b ch] ∧ u.sameEdges s' b ch ∧ u.sameQueues s' (laneAddr b 0 ch) ∧ s'.mem = u.mem)


/-- R104–R107: a trigger stamped within the armed interval of a live TRIGGERED channel is counted, and one that its policy
takes (pending outputs below the limit) sends one peg toward the channel's own lane, TRIG_DELAY after the stamp; the
commands ARM and DISARM of CHc_CMD arm and disarm the channel from the present instant. -/
def Obligations.EdgeTriggers : Prop :=
  ∀ (s u : State) (t stamp : PT) (b : Fin 8) (ch : Fin 32) (falling : Bool), u = s.arrive t →
    (u.chMode b ch = 2 → u.chOn b ch = true → u.trigUsable b ch falling = true → u.armedAt b ch stamp.toNat = true →
      u.laneFault (laneAddr b 0 ch) = false →
      (u.fld (chCtrl b ch) 6 2 = 0 ∧ u.trigPending b ch = 0 ∨ u.fld (chCtrl b ch) 6 2 = 1 ∧ u.trigPending b ch < 4) →
      ∃ s', exec (.trigger t b ch ⟨falling, stamp⟩) s = .next s' ∧
        s'.rd (edgePg b ch + Off.EDGE_CH_TRIG_COUNT (ch.val % 8)) =
          satAdd (u.rd (edgePg b ch + Off.EDGE_CH_TRIG_COUNT (ch.val % 8))) 1 ∧
        (∃ p, s'.inFlight (laneAddr b 0 ch) = u.inFlight (laneAddr b 0 ch) ++ [p] ∧ p.trig = true ∧ p.owner = none ∧
          p.pt = ptAdd stamp.toNat (u.rd (edgePg b ch + Off.EDGE_CH_TRIG_DELAY_LO (ch.val % 8)) +
            u.fld (edgePg b ch + Off.EDGE_CH_TRIG_DELAY_HI (ch.val % 8)) 0 22 * 2 ^ 32)) ∧
        (u.bit (edgePg b ch + Off.EDGE_CH_TRIG_SRC (ch.val % 8)) 7 = true → s'.bit (chStat b ch) 3 = false) ∧
        u.sameRegs s' [chStat b ch, edgePg b ch + Off.EDGE_CH_TRIG_COUNT (ch.val % 8)] ∧ s'.mem = u.mem) ∧
    (u.starts b (edgePg b ch) → u.chMode b ch = 2 → ∃ s', exec (.chArm t b ch) s = .next s' ∧
      s'.bit (chStat b ch) 3 = true ∧ (s'.edge b ch).armAt = u.now ∧ u.sameRegs s' [chStat b ch] ∧
      u.sameEdges s' b ch ∧ s'.mem = u.mem) ∧
    (u.takes b (edgePg b ch) → ∃ s', exec (.chDisarm t b ch) s = .next s' ∧
      s'.bit (chStat b ch) 3 = false ∧ (u.bit (chStat b ch) 3 = true → (s'.edge b ch).disarmAt = u.now) ∧
      u.sameRegs s' [chStat b ch] ∧ u.sameEdges s' b ch ∧ s'.mem = u.mem)

/-- R113, R114, R116, R117: STOP disables a live channel at once, with its queued pegs discarded and counted; DRAIN holds its
instant and sets DRAINING, the channel live still with its queue as it was; RESENSE starts rest-level sensing of a channel
that is not live, in OFF mode or, its page enabled, in another, or under REST_FORCE takes the forced level at once;
SENSING_DONE classifies the pin and, for a mode, makes the channel live; DISABLE_HOLD_END ends the driver's hold and turns it
off. -/
def Obligations.EdgeChannelCommands : Prop :=
  ∀ (s u : State) (t : PT) (b : Fin 8) (ch : Fin 32), u = s.arrive t →
    (u.takes b (edgePg b ch) → u.chLive b ch = true → ∃ s', exec (.chStop t b ch) s = .next s' ∧
      s'.chLive b ch = false ∧ s'.bit (chStat b ch) 3 = false ∧ s'.bit (chStat b ch) 5 = false ∧
      s'.queue (laneAddr b 0 ch) = [] ∧
      s'.rd (edgePg b ch + Off.EDGE_CH_DISCARD_COUNT (ch.val % 8)) =
        satAdd (satAdd (u.rd (edgePg b ch + Off.EDGE_CH_DISCARD_COUNT (ch.val % 8)))
          ((u.inFlight (laneAddr b 0 ch)).filter fun p => p.trig).length) (u.queue (laneAddr b 0 ch)).length ∧
      u.sameRegs s' [chStat b ch, edgePg b ch + Off.EDGE_CH_DISCARD_COUNT (ch.val % 8)] ∧
      u.sameQueues s' (laneAddr b 0 ch) ∧ u.sameEdges s' b ch ∧ s'.mem = u.mem) ∧
    (u.takes b (edgePg b ch) → u.chLive b ch = true → ∃ s', exec (.chDrain t b ch) s = .next s' ∧
      s'.bit (chStat b ch) 5 = true ∧ s'.bit (chStat b ch) 3 = false ∧ s'.chLive b ch = true ∧
      s'.drainAt (drainLane (laneAddr b 0 ch)) = some u.now ∧ s'.queues = u.queues ∧
      u.sameRegs s' [chStat b ch] ∧ u.sameEdges s' b ch ∧ s'.mem = u.mem) ∧
    (u.starts b (edgePg b ch) → u.chLive b ch = false → (u.edge b ch).senseEnd = none → u.chMode b ch = 0 →
      u.bit (chStat b ch) 13 = false → u.bit (chCtrl b ch) 8 = false → ∃ s', exec (.chResense t b ch) s = .next s' ∧
      (s'.edge b ch).senseEnd = some (u.now + 2 * usK) ∧ (s'.edge b ch).senseLive = false ∧
      s' = { u with edges := s'.edges, ev := s'.ev } ∧ u.sameEdges s' b ch) ∧
    (u.starts b (edgePg b ch) → u.chLive b ch = false → (u.edge b ch).senseEnd = none → u.chMode b ch ≠ 0 →
      u.enabled (edgePg b ch) = true → u.bit (chStat b ch) 13 = false → u.bit (chCtrl b ch) 8 = false →
      ∃ s', exec (.chResense t b ch) s = .next s' ∧
      (s'.edge b ch).senseEnd = some (u.now + 2 * usK) ∧ (s'.edge b ch).senseLive = true ∧
      s' = { u with edges := s'.edges, drainPt := s'.drainPt, ev := s'.ev } ∧ u.sameEdges s' b ch) ∧
    (u.starts b (edgePg b ch) → u.chLive b ch = false → (u.edge b ch).senseEnd = none → u.chMode b ch = 0 →
      u.bit (chStat b ch) 13 = false → u.bit (chCtrl b ch) 8 = true → ∃ s', exec (.chResense t b ch) s = .next s' ∧
      (s'.edge b ch).senseEnd = none ∧ (s'.edge b ch).base = u.bit (chCtrl b ch) 9 ∧ s'.fld (chStat b ch) 8 3 = 0 ∧
      s'.chRest b ch = u.bit (chCtrl b ch) 9 ∧ u.sameRegs s' [chStat b ch, edgePg b ch + Off.EDGE_GRP_STAT] ∧
      u.sameEdges s' b ch ∧ s' = { u with edges := s'.edges, regs := s'.regs, ev := s'.ev }) ∧
    (∀ (samples : List Int) (shift x cls : Nat), cls = restClass (u.bit (chCtrl b ch) 10) samples shift →
      (u.edge b ch).senseEnd = some x → x ≤ u.now → ∃ s', exec (.sensingDone t b ch ⟨samples, shift⟩) s = .next s' ∧
      s'.fld (chStat b ch) 8 3 = cls ∧
      s'.chRest b ch = (if cls = 1 then false else if cls = 2 then true else u.bit (chCtrl b ch) 9) ∧
      ((u.edge b ch).senseLive = true → s'.chLive b ch = true) ∧ (s'.edge b ch).senseEnd = none ∧
      u.sameRegs s' [chStat b ch, edgePg b ch + Off.EDGE_GRP_STAT] ∧ u.sameEdges s' b ch ∧ s'.mem = u.mem) ∧
    (∀ x, (u.edge b ch).holdEnd = some x → x ≤ u.now →
      ∃ s', exec (.disableHoldEnd t b 0 (ch.castLE (by decide))) s = .next s' ∧
      (s'.edge b ch).holdEnd = none ∧ (s'.edge b ch).driving = false ∧ u.sameEdges s' b ch ∧
      s' = { u with edges := s'.edges, ev := s'.ev })

/-- R98, R111, R120: a pin fault takes a live channel out of service, with its queue discarded and counted; the trestle
takes the place of an engine that has failed its checks; and an adaptive threshold window with fewer than 16 transitions
leaves the threshold as it is and says so, while any other moves it some way toward the middle of what was seen, within
its range. -/
def Obligations.EdgeService : Prop :=
  ∀ (s u : State) (t : PT) (b : Fin 8) (ch : Fin 32), u = s.arrive t →
    (u.chLive b ch = true → u.laneFault (laneAddr b 0 ch) = false → ∃ s', exec (.pinFault t b ch) s = .next s' ∧
      s'.laneFault (laneAddr b 0 ch) = true ∧ s'.stands (edgePg b ch) 0x41 = true ∧
      s'.bit (edgePg b ch + Off.EDGE_GRP_STAT) (16 + ch.val % 8) = true ∧
      s'.queue (laneAddr b 0 ch) = [] ∧ (s'.edge b ch).eff = none ∧ (s'.edge b ch).driving = false ∧
      s'.rd (edgePg b ch + Off.EDGE_CH_DISCARD_COUNT (ch.val % 8)) =
        satAdd (u.rd (edgePg b ch + Off.EDGE_CH_DISCARD_COUNT (ch.val % 8))) (u.queue (laneAddr b 0 ch)).length ∧
      u.sameRegs s' [chStat b ch, edgePg b ch + Off.EDGE_GRP_STAT,
        edgePg b ch + Off.EDGE_CH_DISCARD_COUNT (ch.val % 8)] ∧
      u.sameEdges s' b ch ∧ u.sameQueues s' (laneAddr b 0 ch) ∧ s'.mem = u.mem) ∧
    (u.has b = true → (∃ i, 1 ≤ i ∧ i ≤ 4 ∧ (u.calInst b i ch).faulty = true) →
      u.bit (edgePg b ch + Off.EDGE_GRP_CTRL) 1 = true → u.fld (edgePg b ch + Off.EDGE_GRP_STAT) 3 2 = 0 →
        u.fld (edgePg b ch + Off.EDGE_GRP_STAT) 8 8 = 0 →
      u.clearTick b ch = true → ∃ s', exec (.spareTakeover t b ch) s = .next s' ∧
      s'.fld (edgePg b ch + Off.EDGE_GRP_STAT) 0 3 = ch.val % 8 ∧
      s'.bit (edgePg b ch + Off.EDGE_GRP_STAT) 3 = true ∧
      s'.bit (edgePg b ch + Off.EDGE_GRP_STAT) (8 + ch.val % 8) = true ∧ s'.bit (chStat b ch) 4 = true ∧
      (∀ op, u.bgOp b 0 = some op → op.inst / 8 = ch.val / 8 → op ∉ (s'.cal b).ops) ∧
      u.sameRegs s' [chStat b ch, edgePg b ch + Off.EDGE_GRP_STAT, pkgp 3 + Off.LEDGER_COMMITTED_LO,
        pkgp 3 + Off.LEDGER_COMMITTED_LO + 4] ∧
      s' = { u with regs := s'.regs, ev := s'.ev, cals := s'.cals }) ∧
    (∀ (n : Nat) (low high : Int), u.chLive b ch = true →
      u.bit (edgePg b ch + Off.EDGE_CH_RCV_CFG (ch.val % 8)) 0 = false →
      (u.edge b ch).thrAt + 2 ^ u.fld (edgePg b ch + Off.EDGE_CH_RCV_CFG (ch.val % 8)) 20 4 * usK ≤ u.now →
      (n < 16 → ∃ s', exec (.thrWindow t b ch n low high) s = .next s' ∧ s'.bit (chStat b ch) 11 = true ∧
        s'.threshold b ch = u.threshold b ch ∧
        u.sameRegs s' [chStat b ch] ∧ u.sameEdges s' b ch ∧ s' = { u with regs := s'.regs, ev := s'.ev, edges := s'.edges }) ∧
      (16 ≤ n → ∃ s', exec (.thrWindow t b ch n low high) s = .next s' ∧ s'.bit (chStat b ch) 11 = false ∧
        (∃ x, min (u.threshold b ch) ((low + high) / 2) ≤ x ∧ x ≤ max (u.threshold b ch) ((low + high) / 2) ∧
          s'.threshold b ch = if u.bit (chCtrl b ch) 10 then clampI 100 1100 x else clampI (-500) 500 x) ∧
        u.sameRegs s' [chStat b ch, edgePg b ch + Off.EDGE_CH_RCV_THR (ch.val % 8)] ∧ u.sameEdges s' b ch ∧
        s' = { u with regs := s'.regs, ev := s'.ev, edges := s'.edges, free := s'.free }))

/-! ### Time -/

/-- R49: writing 1 to ALARM_CTRL.ARMED arms the alarm for ALARM_PT, or, within the marker lead, raises ALARM at once and
leaves the alarm not armed; a write of ALARM_PT_LO while it is armed arms it again for the new PT; writing 0 disarms it; the
armed alarm raises ALARM at ALARM_PT and is no longer armed. No other register changes.
R36, R37, R243: an enabled PPS edge of the polarity that PPS_CTRL names is stamped in PPS_PT, counted, raises PPS and sets the
next expected instant one second on; a missing one is counted and raises MISSING; a due marker peg leaves its queue and is a
start stamp of every armed interval unit that names its marker. -/
def Obligations.TimePage : Prop :=
  (∀ (s u : State) (t : PT) (b : Fin 8), u = s.arrive t →
     (u.takes b (timePg b) → u.ptOf (u.tick u.now + 80) ≤ u.rd80 (timePg b + Off.TIME_ALARM_PT_LO) →
       ∃ s', exec (.alarmArm t b) s = .next s' ∧ s'.rd (timePg b + Off.TIME_ALARM_CTRL) = 1 ∧
         u.sameRegs s' [timePg b + Off.TIME_ALARM_CTRL] ∧ s' = { u with regs := s'.regs, ev := s'.ev }) ∧
     (u.takes b (timePg b) → u.rd80 (timePg b + Off.TIME_ALARM_PT_LO) < u.ptOf (u.tick u.now + 80) →
       ∃ s', exec (.alarmArm t b) s = .next s' ∧ s'.bit (timePg b + Off.TIME_ALARM_CTRL) 0 = false ∧
         s'.raised (timePg b) 3 = true ∧
         u.sameRegs s' [timePg b + Off.TIME_ALARM_CTRL] ∧ s' = { u with regs := s'.regs, ev := s'.ev }) ∧
     (u.takes b (timePg b) → ∃ s', exec (.alarmDisarm t b) s = .next s' ∧
         s'.bit (timePg b + Off.TIME_ALARM_CTRL) 0 = false ∧
         u.sameRegs s' [timePg b + Off.TIME_ALARM_CTRL] ∧ s' = { u with regs := s'.regs, ev := s'.ev }) ∧
     (∀ (w : Writer) (addr : Fin 0x4000000) (v : Word) (p : Nat), addr.val = timePg b + Off.TIME_ALARM_PT_LO →
       u.takes b (timePg b) → u.bit (timePg b + Off.TIME_ALARM_CTRL) 0 = true →
       p = v.toNat + u.held w (addr.val + 4) * 2 ^ 32 + u.held w (addr.val + 8) % 2 ^ 16 * 2 ^ 64 →
       ∃ s', exec (.ptLoWrite t w addr v) s = .next s' ∧ s'.rd80 (timePg b + Off.TIME_ALARM_PT_LO) = p ∧
         (u.ptOf (u.tick u.now + 80) ≤ p → s'.rd (timePg b + Off.TIME_ALARM_CTRL) = 1) ∧
         (p < u.ptOf (u.tick u.now + 80) → s'.rd (timePg b + Off.TIME_ALARM_CTRL) = 2 ∧ s'.raised (timePg b) 3 = true) ∧
         u.sameRegs s' [addr.val, addr.val + 4, addr.val + 8, timePg b + Off.TIME_ALARM_CTRL] ∧
         s' = { u with regs := s'.regs, ev := s'.ev }) ∧
     (u.bit (timePg b + Off.TIME_ALARM_CTRL) 0 = true → u.rd80 (timePg b + Off.TIME_ALARM_PT_LO) ≤ u.now →
       ∃ s', exec (.alarm t b) s = .next s' ∧ s'.bit (timePg b + Off.TIME_ALARM_CTRL) 0 = false ∧
         s'.raised (timePg b) 3 = true ∧
         u.sameRegs s' [timePg b + Off.TIME_ALARM_CTRL] ∧ s' = { u with regs := s'.regs, ev := s'.ev })) ∧
  ∀ (s u : State) (t : PT), u = s.arrive t →
    (∀ (falling : Bool) (stamp : PT), u.ppsOn = true → u.clk.running = true →
      falling = u.bit (timePg u.ridge + Off.TIME_PPS_CTRL) 1 → ∃ s', exec (.ppsEdge t ⟨falling, stamp⟩) s = .next s' ∧
      s'.rd80 (timePg 0 + Off.TIME_PPS_PT_LO) = stamp.toNat ∧
      s'.rd (timePg 0 + Off.TIME_PPS_COUNT) = satAdd (u.rd (timePg 0 + Off.TIME_PPS_COUNT)) 1 ∧
      s'.tb.ppsNext = some (stamp.toNat + secK) ∧ s'.raised (timePg u.ridge) 0 = true ∧
      s' = { u with regs := s'.regs, ev := s'.ev, tb := s'.tb, tius := s'.tius, fres := s'.fres }) ∧
    (∀ e, u.tb.ppsNext = some e → u.ppsOn = true → e + u.ppsWindow < u.now → ∃ s', exec (.ppsMissing t) s = .next s' ∧
      s'.rd (timePg 0 + Off.TIME_PPS_MISS_COUNT) = satAdd (u.rd (timePg 0 + Off.TIME_PPS_MISS_COUNT)) 1 ∧
      s'.tb = { u.tb with ppsNext := some (e + secK) } ∧ s'.raised (timePg u.ridge) 1 = true ∧
      u.sameRegs s' [timePg 0 + Off.TIME_PPS_MISS_COUNT] ∧ s' = { u with regs := s'.regs, ev := s'.ev, tb := s'.tb }) ∧
    (∀ (b : Fin 8) (idx : Fin 64) (p : Peg) (q : List Peg), u.headDue (laneAddr b 7 idx) p q →
      ∃ s', exec (.marker t b idx) s = .next s' ∧ s'.queue (laneAddr b 7 idx) = q ∧
      (∀ k : Fin 4, (u.tiu b k).armed = true →
        srcKey (u.rd (stampPg b + Off.STAMP_TIU_START_SRC k)) = (2, idx.val, 0) →
        (s'.tiu b k).starts = (u.tiu b k).starts ++ [p.pt]) ∧
      u.sameQueues s' (laneAddr b 7 idx) ∧
      u.sameRegs s' ((List.range 4).map fun k => stampPg b + Off.STAMP_TIU_STAT k) ∧
      s' = { u with
        regs := s'.regs, ev := s'.ev, tius := s'.tius, fres := s'.fres, queues := s'.queues, touched := s'.touched,
        seqs := s'.seqs })


/-! ### Stamps, intervals and frequency -/

/-- R237–R240: an edge at a usable stamp input whose dead time is over is counted, and IN_LAST takes the rounded mean of the
readings of the laths kept; one within the dead time is counted as missed and raises MISS; an edge at a live RECEIVE pin
begins that pin's dead time. The foreman takes a lath out under its conditions, its cost committed, and at the return the
withdrawal is over. -/
def Obligations.StampInputs : Prop :=
  ∀ (s u : State) (t stamp : PT) (k0 k1 k2 k3 : Fin 160) (b : Fin 8) (i : Fin 8) (falling : Bool), u = s.arrive t →
    (let l : List Int := u.readings b i t.toNat [k0.val, k1.val, k2.val, k3.val]
     u.srcUsable b (0, i.val, b2n falling) = true → u.fld (grpStat b 12) 0 2 = 0 → u.lathsKept b i l ≠ [] →
      (∀ y, (u.stampIn b i).last = some y → y + 40000 ≤ t.toNat) →
      ∃ s', exec (.stamp t b false (i.castLE (by decide)) ⟨falling, stamp⟩ k0 k1 k2 k3) s = .next s' ∧
        s'.rd (stampPg b + Off.STAMP_IN_COUNT i) = (u.rd (stampPg b + Off.STAMP_IN_COUNT i) + 1) % 2 ^ 32 ∧
        s'.rd80 (stampPg b + Off.STAMP_IN_LAST_LO i) = ofSigned 80 (roundDiv
          ((u.lathsKept b i l).foldl (fun m k => m + l.getD k 0) 0) (32 * (u.lathsKept b i l).length)) ∧
        (s'.stampIn b i).last = some t.toNat ∧
        s' = { u with regs := s'.regs, ev := s'.ev, stampIns := s'.stampIns, tius := s'.tius, fres := s'.fres }) ∧
    (∀ y, u.srcUsable b (0, i.val, b2n falling) = true → (u.stampIn b i).last = some y → t.toNat < y + 40000 →
      ∃ s', exec (.stamp t b false (i.castLE (by decide)) ⟨falling, stamp⟩ k0 k1 k2 k3) s = .next s' ∧
        s'.rd (stampPg b + Off.STAMP_IN_MISS i) = satAdd (u.rd (stampPg b + Off.STAMP_IN_MISS i)) 1 ∧
        s'.raised (stampPg b) 5 = true ∧ u.sameRegs s' [stampPg b + Off.STAMP_IN_MISS i] ∧
        s' = { u with regs := s'.regs, ev := s'.ev }) ∧
    (∀ ch : Fin 32, u.chMode b ch = 4 → u.chOn b ch = true →
      (∀ y, mapGet (fun _ => none) u.edgeStamp (b.val * 32 + ch.val) = some y → y + 80000 ≤ t.toNat) →
      ∃ s', exec (.stamp t b true ch ⟨falling, stamp⟩ k0 k1 k2 k3) s = .next s' ∧
        mapGet (fun _ => none) s'.edgeStamp (b.val * 32 + ch.val) = some t.toNat ∧
        u.sameRegs s' ((List.range 4).map fun k => stampPg b + Off.STAMP_TIU_STAT k) ∧
        s' = { u with regs := s'.regs, ev := s'.ev, edgeStamp := s'.edgeStamp, tius := s'.tius, fres := s'.fres }) ∧
    (∀ k : Fin 4, u.bgRuns b = true → u.bit (stampPg b + Off.STAMP_LATH_CTRL) 0 = true →
      u.fld (stampPg b + Off.STAMP_IN_STAT i) 1 4 = 0xF → u.fld (stampPg b + Off.STAMP_IN_STAT i) 5 4 = 0 →
      u.marginFor 500 = true → ∃ s', exec (.lathWithdrawal t b i k) s = .next s' ∧
        s'.bit (stampPg b + Off.STAMP_IN_STAT i) (1 + k.val) = false ∧ s'.bit (stampPg b + Off.STAMP_IN_STAT i) 9 = true ∧
        (s'.stampIn b i).withdrawn = some (k.val, u.now) ∧ s'.committed = (u.committed + 500) % 2 ^ 64 ∧
        s' = { u with regs := s'.regs, ev := s'.ev, stampIns := s'.stampIns }) ∧
    (∀ (hits : List Nat) (complete : Bool) (x : Nat × Nat), (u.stampIn b i).withdrawn = some x → x.1 < 4 →
      ∃ s', exec (.lathReturn t b i hits complete) s = .next s' ∧ (s'.stampIn b i).withdrawn = none ∧
        s'.bit (stampPg b + Off.STAMP_IN_STAT i) 9 = false ∧ s'.mem = u.mem ∧ s'.queues = u.queues)

/-- R244, R247, R248: an arm peg or TIUu_CMD.ARM starts a series of the unit at the peg's PT or the present; a disarm ends it;
CLR clears the unit's results. Nothing but the instruments and their records changes.
R246–R248: a measurement with both its stamps counts and adds its value, STOP − START − ZERO, to the series, and
TIUu_LAST reads it where it fits; a measurement that is not complete TIMEOUT microseconds after its arming instant ends the
series with its TIMEOUT bit and event. -/
def Obligations.IntervalUnits : Prop :=
  (∀ (s u : State) (t : PT) (b : Fin 8) (k : Fin 4), u = s.arrive t →
     (∀ p q, u.headDue (armLane b k) p q → p.action = 1 → ∃ s', exec (.tiuArmPeg t b k) s = .next s' ∧
       (s'.tiu b k).armed = true ∧ (s'.tiu b k).arm = p.pt ∧ (s'.tiu b k).owner = p.owner ∧ (s'.tiu b k).count = 0 ∧
       s'.queue (armLane b k) = q ∧ u.sameQueues s' (armLane b k) ∧ u.onlyInstruments s' b) ∧
     (∀ p q, u.headDue (armLane b k) p q → p.action = 2 → ∃ s', exec (.tiuDisarmPeg t b k) s = .next s' ∧
       (s'.tiu b k).armed = false ∧ s'.queue (armLane b k) = q ∧ u.sameQueues s' (armLane b k) ∧ u.onlyInstruments s' b) ∧
     (u.starts b (stampPg b) → u.enabled (stampPg b) = true → ∃ s', exec (.tiuArm t b k) s = .next s' ∧
       (s'.tiu b k).armed = true ∧ (s'.tiu b k).arm = u.now ∧ (s'.tiu b k).owner = none ∧ (s'.tiu b k).count = 0 ∧
       s'.queues = u.queues ∧ u.onlyInstruments s' b) ∧
     (u.takes b (stampPg b) → ∃ s', exec (.tiuDisarm t b k) s = .next s' ∧ (s'.tiu b k).armed = false ∧
       s'.queues = u.queues ∧ u.onlyInstruments s' b) ∧
     (u.takes b (stampPg b) → ∃ s', exec (.tiuClr t b k) s = .next s' ∧
       (∀ j < 14, s'.rd (stampPg b + Off.STAMP_TIU_LAST_LO k + 4 * j) = 0) ∧
       u.sameRegs s' ((List.range 14).map fun j => stampPg b + Off.STAMP_TIU_LAST_LO k + 4 * j) ∧
       s' = { u with regs := s'.regs, ev := s'.ev })) ∧
  ∀ (s u : State) (t : PT) (b : Fin 8) (k : Fin 4), u = s.arrive t →
    (∀ a z : Nat, u.tiuPick b k = (some a, some z) → (u.tiu b k).armed = true →
      ∃ s', exec (.tiuMeasurement t b k) s = .next s' ∧
        (s'.tiu b k).count = (u.tiu b k).count + 1 ∧
        (s'.tiu b k).sum = (u.tiu b k).sum + ((z : Int) - (a : Int) - toSigned 64 (u.rd64 (stampPg b + Off.STAMP_TIU_ZERO_LO k))) ∧
        (fits64 ((z : Int) - (a : Int) - toSigned 64 (u.rd64 (stampPg b + Off.STAMP_TIU_ZERO_LO k))) = true →
          s'.rd64 (stampPg b + Off.STAMP_TIU_LAST_LO k) =
            ofSigned 64 ((z : Int) - (a : Int) - toSigned 64 (u.rd64 (stampPg b + Off.STAMP_TIU_ZERO_LO k)))) ∧
        u.onlyInstruments s' b) ∧
    ((u.tiu b k).armed = true → u.rd (stampPg b + Off.STAMP_TIU_TIMEOUT k) ≠ 0 → (u.tiuPick b k).2 = none →
      (u.tiu b k).arm + u.rd (stampPg b + Off.STAMP_TIU_TIMEOUT k) * usK ≤ u.now →
      ∃ s', exec (.tiuTimeout t b k) s = .next s' ∧ (s'.tiu b k).armed = false ∧
        s'.bit (stampPg b + Off.STAMP_TIU_STAT k) 3 = true ∧ s'.raised (stampPg b) k.val = true ∧
        s'.raised (stampPg b) 4 = true ∧ u.onlyInstruments s' b)


/-- R249: a GATE peg opens a gate from its PT for GATE kerfs; a STOP peg and FREe_CMD.STOP end a running one; FREe_CMD.GATE
sends a GATE peg for START_PT; FREe_CMD.CLR puts the results at their reset values; a gate that reaches its end closes, and
under CONT the next opens at that instant.
R250, R251, R256: the first gate that has ended gives its frequency — the regression's where it has three stamps in range and
the register can hold it, 0 for frequency and deviation with the health code and event of R251 where it has not — counts in
GATE_COUNT and raises the engine's event; a signature that is complete lets the
bent's oldest queued record go, and the bent's signature number goes up by one. -/
def Obligations.FrequencyEngines : Prop :=
  (∀ (s u : State) (t : PT) (b : Fin 8) (e : Fin 2), u = s.arrive t →
     (∀ p q, u.headDue (armLane b (4 + e)) p q → p.action = 3 → ∃ s', exec (.gate t b e) s = .next s' ∧
       (∃ g, (s'.fre b e).gate = some g ∧ g.start = p.pt ∧
         g.stop = p.pt + u.rd64 (freqPg b + Off.FREQ_FRE_GATE_LO e) ∧ g.owner = p.owner ∧ g.m = 0) ∧
       s'.queue (armLane b (4 + e)) = q ∧ u.sameQueues s' (armLane b (4 + e)) ∧ s'.mem = u.mem ∧ u.onlyInstruments s' b) ∧
     (∀ p q, u.headDue (armLane b (4 + e)) p q → p.action = 4 → ∃ s', exec (.freStopPeg t b e) s = .next s' ∧
       (s'.fre b e).gate = none ∧
       s'.queue (armLane b (4 + e)) = q ∧ u.sameQueues s' (armLane b (4 + e)) ∧ s'.mem = u.mem ∧ u.onlyInstruments s' b) ∧
     (u.starts b (freqPg b) → ∃ s', exec (.freGate t b e) s = .next s' ∧
       s'.inFlight (armLane b (4 + e)) = u.inFlight (armLane b (4 + e)) ++
         [{ pt := u.rd80 (freqPg b + Off.FREQ_FRE_START_PT_LO e), payload := 3, owner := none, trig := false }] ∧
       (∀ l, l ≠ armLane b (4 + e) → s'.inFlight l = u.inFlight l) ∧ s' = { u with flight := s'.flight, ev := s'.ev }) ∧
     (u.takes b (freqPg b) → ∃ s', exec (.freStop t b e) s = .next s' ∧ (s'.fre b e).gate = none ∧ s'.mem = u.mem ∧
       s'.queues = u.queues ∧ u.onlyInstruments s' b) ∧
     (u.takes b (freqPg b) → ∃ s', exec (.freClr t b e) s = .next s' ∧
       (∀ j < 13, s'.rd (freqPg b + Off.FREQ_FRE_FREQ_LO e + 4 * j) = if j = 8 then 0xF else 0) ∧
       u.sameRegs s' ((List.range 13).map fun j => freqPg b + Off.FREQ_FRE_FREQ_LO e + 4 * j) ∧
       s' = { u with regs := s'.regs, ev := s'.ev }) ∧
     (∀ g, (u.fre b e).gate = some g → g.stop ≤ u.now → ∃ s', exec (.gateEnd t b e) s = .next s' ∧
       (s'.fre b e).done.length = (u.fre b e).done.length + 1 ∧
       (u.bit (freqPg b + Off.FREQ_FRE_CTRL e) 0 = false → (s'.fre b e).gate = none) ∧
       (u.bit (freqPg b + Off.FREQ_FRE_CTRL e) 0 = true → (u.fre b e).draining = false →
         g.trunc = false → ∃ h, (s'.fre b e).gate = some h ∧ h.start = g.stop ∧ h.owner = g.owner) ∧
       s'.mem = u.mem ∧ s'.queues = u.queues ∧ u.onlyInstruments s' b)) ∧
  ∀ (s u : State) (t : PT) (b : Fin 8), u = s.arrive t →
    (∀ (e : Fin 2) (g : Gate) (rest : List Gate), (u.fre b e).done = g :: rest →
      ∃ s', exec (.gateDone t b e) s = .next s' ∧ (s'.fre b e).done = rest ∧
        ((g.range = true ∨ g.m < 3) → s'.rd64 (freqPg b + Off.FREQ_FRE_FREQ_LO e) = 0 ∧
          s'.rd64 (freqPg b + Off.FREQ_FRE_DEV_LO e) = 0 ∧ s'.isLatched (freqPg b) 0xA2 = true ∧
            s'.raised (freqPg b) 2 = true) ∧
        (g.range = false → 3 ≤ g.m → 0 ≤ (gateFit g (u.rd64 (freqPg b + Off.FREQ_FRE_NOMINAL_LO e))).1 →
          (gateFit g (u.rd64 (freqPg b + Off.FREQ_FRE_NOMINAL_LO e))).1 < 2 ^ 64 →
          s'.rd64 (freqPg b + Off.FREQ_FRE_FREQ_LO e) =
            (gateFit g (u.rd64 (freqPg b + Off.FREQ_FRE_NOMINAL_LO e))).1.toNat) ∧
        s'.rd (freqPg b + Off.FREQ_FRE_GATE_COUNT e) = satAdd (u.rd (freqPg b + Off.FREQ_FRE_GATE_COUNT e)) 1 ∧
        s'.bit (freqPg b + Off.FREQ_FRE_STAT e) 1 = true ∧ s'.raised (freqPg b) e.val = true ∧
        s'.queues = u.queues ∧ u.onlyInstruments s' b) ∧
    (∀ q, (u.signQ.find? fun x => x.1 == b.val) = some q → ∃ s', exec (.signDone t b) s = .next s' ∧
      s'.signQ = u.signQ.erase q ∧ mapGet (fun _ => 0) s'.signSeq b = mapGet (fun _ => 0) u.signSeq b + 1 ∧
      u.samePages s' [stampPg b, evPg b] ∧
      u.sameBytes s' (mb b (0x4000000 + u.fld (stampPg b + Off.STAMP_REC_BASE) 0 23)) (u.rd (stampPg b + Off.STAMP_REC_SIZE)) ∧
      s'.queues = u.queues)


/-! ### The timebase -/

/-- R52–R57: before PT runs a source that may qualify becomes qualified with its event; while PT runs, with no source in
force, one of the order that has passed its tests for RETURN_QUAL, its frequency within FREQ_TOL, becomes qualified and a
switch to it starts; the source in force, failing a test or voted out, gives way to the first qualified one of the order, or
to none with its health code and event; SWITCH_CMD forces a qualified source and is refused for another; before the first lock
it selects the source to lock to (the model's choice, log entry 164); a switch ends on the new source, counted, with its event
and its frequency offset to steer out unless an earlier source of the order is taken at once (R59).
R57, R60, R61: an offset that has been steered out clears STEERING and STEER_FREQ; OCXO_READY follows its pin, and a low level
sets the warm-up back; an OCXO ready for WARM_SETTLE has settled and WARMING clears; an update of the ageing brings AGE_CORR
to the clamped ageing correction and raises its event where it is clamped. -/
def Obligations.TimebaseSources : Prop :=
  (∀ (s u : State) (t : PT) (src : Source), u = s.arrive t → u.has u.ridge = true →
     (∀ (lo hi : Nat) (phase : Int), u.mayQualify (srcNo src) = true → u.qualified (srcNo src) = false →
       u.clk.running = false → ∃ s', exec (.sourceQualified t src ⟨lo, hi, phase⟩) s = .next s' ∧
         s'.qualified (srcNo src) = true ∧
         s'.raised tbPg 2 = true ∧ u.sameRegs s' [srcStat] ∧ s' = { u with regs := s'.regs, ev := s'.ev }) ∧
     (∀ (lo hi : Nat) (phase : Int), u.mayQualify (srcNo src) = true → u.qualified (srcNo src) = false →
       u.clk.running = true → u.passedLong (srcNo src) = true → u.freqOk (srcNo src) lo = true →
       u.freqOk (srcNo src) hi = true → srcNo src ∈ u.srcOrder →
       u.joined = false → u.tb.switchTo = none → u.srcNow = 3 → u.tb.lost ≠ some (srcNo src) →
       ∃ s', exec (.sourceQualified t src ⟨lo, hi, phase⟩) s = .next s' ∧ s'.qualified (srcNo src) = true ∧
         s'.tb.switchTo = some (srcNo src) ∧ s'.stands tbPg 0x4F = false ∧ s'.mem = u.mem) ∧
     (∀ d f0 f1 f2 : Nat, u.srcFails (srcNo src) (fun c => [f0, f1, f2].getD c 0) = true →
       u.clk.running = true → u.joined = false → u.tb.switchTo = none →
       u.inForce? = some (srcNo src) → (u.setBit srcStat (8 + srcNo src) false).bestSource = some d →
       ∃ s', exec (.srcLost t ⟨src, f0, f1, f2⟩) s = .next s' ∧ s'.qualified (srcNo src) = false ∧ s'.tb.switchTo = some d ∧
         s'.raised tbPg 1 = true ∧ s'.mem = u.mem) ∧
     (∀ f0 f1 f2 : Nat, u.srcFails (srcNo src) (fun c => [f0, f1, f2].getD c 0) = true → u.stands tbPg 0x4F = false →
       u.clk.running = true → u.joined = false → u.tb.switchTo = none → u.inForce? = some (srcNo src) →
         (u.setBit srcStat (8 + srcNo src) false).bestSource = none →
       ∃ s', exec (.srcLost t ⟨src, f0, f1, f2⟩) s = .next s' ∧ s'.qualified (srcNo src) = false ∧ s'.srcNow = 3 ∧
         s'.tb.lost = some (srcNo src) ∧ s'.stands tbPg 0x4F = true ∧ s'.raised tbPg 3 = true ∧ s'.mem = u.mem) ∧
     (∀ c : Fin 4, u.locked tbPg = false → u.qualified c = true → u.clk.running = true → u.joined = false →
       u.inForce? ≠ some c.val → ∃ s', exec (.switchCmd t c) s = .next s' ∧ s'.tb.switchTo = some c.val ∧
         s'.bit srcStat 5 = true ∧ s'.mem = u.mem) ∧
     (∀ c : Fin 4, u.locked tbPg = false → u.qualified c = true → u.clk.running = false → u.joined = false →
       ∃ s', exec (.switchCmd t c) s = .next s' ∧ s'.tb = { u.tb with switchTo := some c.val } ∧
         s'.bit srcStat 5 = true ∧ u.sameRegs s' [srcStat] ∧ s'.mem = u.mem) ∧
     (∀ c : Fin 4, u.locked tbPg = false → u.qualified c = false →
       ∃ s', exec (.switchCmd t c) s = .next s' ∧ s'.isLatched tbPg 0x4E = true ∧ s' = { u with ev := s'.ev }) ∧
     (∀ (c : Fin 3) (freq : BitVec 32), u.tb.switchTo = some c.val → u.qualified c = true →
       u.clk.running = true → ∃ s', exec (.switched t freq) s = .next s' ∧ s'.srcNow = c ∧
         (u.bestSource = some c.val ∨ u.bit srcStat 5 = true →
           s'.steerNow = freq.toInt ∧ s'.bit srcStat 2 = (freq != 0)) ∧
         s'.rd (tbPg + Off.TIMEBASE_SWITCH_COUNT) = satAdd (u.rd (tbPg + Off.TIMEBASE_SWITCH_COUNT)) 1 ∧
         s'.raised tbPg 0 = true ∧ s'.mem = u.mem)) ∧
  ∀ (s u : State) (t : PT), u = s.arrive t → u.has u.ridge = true →
    (u.bit srcStat 2 = true → u.steerNow = 0 → ∃ s', exec (.steeringDone t) s = .next s' ∧ s'.bit srcStat 2 = false ∧
      s'.steerNow = 0 ∧ u.sameRegs s' [srcStat] ∧
      s' = { u with regs := s'.regs, ev := s'.ev, tb := s'.tb, tius := s'.tius, fres := s'.fres }) ∧
    (∃ s', exec (.ocxoReadyChange t true) s = .next s' ∧ s'.bit srcStat 11 = true ∧
      s'.tb.ready = some (u.tb.ready.getD u.now) ∧ s'.mem = u.mem ∧ s'.queues = u.queues) ∧
    (∃ s', exec (.ocxoReadyChange t false) s = .next s' ∧ s'.bit srcStat 11 = false ∧ s'.tb.ready = none ∧
      s'.tb.settled = false ∧ s'.mem = u.mem ∧ s'.queues = u.queues) ∧
    (∀ x, u.tb.ready = some x → u.tb.settled = false →
      x + u.rd (tbPg + Off.TIMEBASE_WARM_SETTLE) * (1000 * usK) ≤ u.now →
      ∃ s', exec (.warmSettled t) s = .next s' ∧ s'.tb = { u.tb with settled := true, since := s'.tb.since } ∧
        s'.bit srcStat 4 = false ∧
        s'.raised tbPg 5 = true ∧ u.sameRegs s' [srcStat] ∧
        s' = { u with regs := s'.regs, ev := s'.ev, tb := s'.tb, tius := s'.tius, fres := s'.fres }) ∧
    (∃ s', exec (.ageUpdate t) s = .next s' ∧
      s'.rd (tbPg + Off.TIMEBASE_AGE_CORR) = ofSigned 32 (clampI (-2000000000) 2000000000 (u.ageing u.now)) ∧
      (clampI (-2000000000) 2000000000 (u.ageing u.now) ≠ u.ageing u.now → s'.raised tbPg 6 = true) ∧
      u.sameRegs s' [tbPg + Off.TIMEBASE_AGE_CORR] ∧ s' = { u with regs := s'.regs, ev := s'.ev, tb := s'.tb })


/-! ### Sills -/

/-- R30, R73–R77, R86: the window that locks the ridge for the first time starts PT at 0 with its sill locked and active; a
good window before the last of LOCK_COUNT is counted; loss of the reference makes the active sill coast from the last update
named, with its cause, count and event; the twin watch shows the last skew, as the trim leaves it, on both pages with opposite
signs. -/
def Obligations.SillLockAndLoss : Prop :=
  ∀ (s u : State) (t : PT) (b : Fin 8) (k : Fin 2), u = s.arrive t → u.has u.ridge = true →
    (∀ (before : List Nat) (last : Nat), u.windowStarts b k (before ++ [last]) = true →
      ∃ s', exec (.lockWindow t b k before last) s = .next s' ∧ s'.clk = { u.clk with now := 0, running := true, o := 0 } ∧
        s'.bit (sillStat b k) 0 = true ∧ s'.bit (sillStat b k) 1 = true ∧ s'.raised (sillPg b k) 0 = true ∧
        s'.mem = u.mem ∧ s'.queues = u.queues) ∧
    (∀ (before : List Nat) (last : Nat) (w : Int × Nat), u.window b k (before ++ [last]) = some w → u.windowCounts b k = true →
      u.windowOk b k w = true → (u.sill b k).good + 1 < u.fld (u.sillCfg b k + Off.SILL_LOCK_WIN) 8 8 →
      (u.sill b (1 - k.val)).fired = false → ∃ s', exec (.lockWindow t b k before last) s = .next s' ∧
        (s'.sill b k).good = (u.sill b k).good + 1 ∧
        s'.clk = u.clk ∧ u.sameRegs s' [sillPg b k + Off.SILL_LOCK_ERR, sillPg b k + Off.SILL_DCO_WORD] ∧
        s' = { u with regs := s'.regs, ev := s'.ev, sills := s'.sills, tius := s'.tius, fres := s'.fres }) ∧
    (∀ (last : PT) (edges : List Nat), u.has b = true → u.clk.running = true → u.hasActive b = true →
      u.bit (sillStat b (u.activeSill b)) 3 = false →
      ∃ s', exec (.refLos t b ⟨last, edges⟩) s = .next s' ∧ s'.bit (sillStat b (u.activeSill b)) 3 = true ∧
        s'.fld (sillStat b (u.activeSill b)) 12 3 = (if b.val = u.ridge then 0 else 4) ∧
        s'.rd80 (sillPg b (u.activeSill b) + Off.SILL_COAST_PT_LO) = last.toNat ∧
        s'.rd (sillPg b (u.activeSill b) + Off.SILL_COAST_COUNT) =
          satAdd (u.rd (sillPg b (u.activeSill b) + Off.SILL_COAST_COUNT)) 1 ∧
        s'.raised (sillPg b (u.activeSill b)) 3 = true ∧ s'.mem = u.mem) ∧
    (∀ (skews errA errB : List Int) (skew : Int), u.has b = true → u.hasActive b = true →
      u.bit (sillStat b (1 - u.activeSill b)) 7 = false → u.acqState b (1 - u.activeSill b) ≠ 0 →
      (trimmed (u.period b (1 - u.activeSill b)) (u.sill b (1 - u.activeSill b)).trim skews).1.getLast? = some skew →
      ∃ s', exec (.twinWatch t b skews errA errB) s = .next s' ∧
        s'.rd (sillPg b (u.activeSill b) + Off.SILL_TWIN_SKEW) = ofSigned 16 (clampI (-32767) 32767 skew) ∧
        s'.rd (sillPg b (1 - u.activeSill b) + Off.SILL_TWIN_SKEW) = ofSigned 16 (-(clampI (-32767) 32767 skew)) ∧
        s'.mem = u.mem)

/-- R80, R81, R91: SWAP on SILLA decides a takeover where the shadow is eligible and is refused otherwise; SWAP, RESTART and
UNPARK on SILLB are refused; at its tick boundary the takeover switches the outputs to the other sill, counted; RESTART ends
the FAULTED state of both sills; a reset sill that has not locked within a second is FAULTED with its health code. -/
def Obligations.SillTakeover : Prop :=
  ∀ (s u : State) (t : PT) (b : Fin 8) (k : Fin 2), u = s.arrive t → u.has u.ridge = true →
    (u.takes b (sillPg b 0) → u.hasActive b = true → u.shadowOk b false = true → ∃ s', exec (.swap t b 0) s = .next s' ∧
      s'.takeover b = some (u.takeoverAt, false) ∧ s' = { u with takeovers := s'.takeovers, ev := s'.ev }) ∧
    (u.takes b (sillPg b 0) → u.shadowOk b false = false → ∃ s', exec (.swap t b 0) s = .next s' ∧
      s'.isLatched (sillPg b 0) 0x4B = true ∧ s' = { u with ev := s'.ev }) ∧
    (∀ c, (c = .swap t b 1 ∨ c = .restart t b 1 ∨ c = .unpark t b 1) → u.takes b (sillPg b 1) → ∃ s', exec c s = .next s' ∧
      s'.isLatched (sillPg b 1) 0x4A = true ∧ s' = { u with ev := s'.ev }) ∧
    (∀ (x : Nat) (fault : Bool), u.takeover b = some (x, fault) → x ≤ u.now → ∃ s', exec (.takeover t b) s = .next s' ∧
      s'.activeSill b = 1 - u.activeSill b ∧ s'.takeover b = none ∧
      s'.rd (sillPg b (1 - u.activeSill b) + Off.SILL_TAKEOVER_COUNT) =
        satAdd (u.rd (sillPg b (1 - u.activeSill b) + Off.SILL_TAKEOVER_COUNT)) 1 ∧
      s'.raised (sillPg b (1 - u.activeSill b)) 6 = true ∧ s'.mem = u.mem ∧ s'.queues = u.queues) ∧
    (u.takes b (sillPg b 0) → ∃ s', exec (.restart t b 0) s = .next s' ∧
      s'.bit (sillStat b 0) 7 = false ∧ s'.bit (sillStat b 1) 7 = false ∧ s'.mem = u.mem ∧ s'.queues = u.queues) ∧
    (∀ x, (u.sill b k).acq = some x → x + secK ≤ u.now → u.bit (sillStat b (1 - k.val)) 7 = false →
      ∃ s', exec (.sillReacquireTimeout t b k) s = .next s' ∧ s'.bit (sillStat b k) 7 = true ∧
        s'.fld (sillStat b k) 16 3 = 0 ∧ s'.stands (sillPg b k) 0x4D = true ∧ (s'.sill b k).acq = none ∧
        u.sameRegs s' [sillStat b k] ∧ s' = { u with regs := s'.regs, ev := s'.ev, sills := s'.sills })

/-- R78, R79, R83: a coast without PARK that has lasted HOLD_LIMIT seconds is marked and raises its event; UNPARK lets the
rest of the coast go on without PARK, takes back the requests to park of sequencers that have not parked yet, and on the ridge
plans the next shot of a parked sequencer in immediate mode; a pull that is over leaves PULL_LEFT 0; PHASE_STEP on the ridge's
SILLA page adds to what PHASE_LEFT shows, and is refused elsewhere; a step that PHASE_RATE has carried out leaves PHASE_LEFT
0. -/
def Obligations.SillHoldAndPhase : Prop :=
  ∀ (s u : State) (t : PT) (b : Fin 8), u = s.arrive t →
    (u.has b = true → u.bit (sillStat b (u.activeSill b)) 3 = true → u.bit (sillStat b (u.activeSill b)) 4 = false →
      u.rd (u.sillCfg b (u.activeSill b) + Off.SILL_HOLD_LIMIT) ≠ 0 →
      (u.sill b (u.activeSill b)).coastAt + u.rd (u.sillCfg b (u.activeSill b) + Off.SILL_HOLD_LIMIT) * secK ≤ u.now →
      u.bit (u.sillCfg b (u.activeSill b) + Off.SILL_SILL_CTRL) 3 = false →
      ∃ s', exec (.holdLimit t b) s = .next s' ∧ s'.bit (sillStat b (u.activeSill b)) 4 = true ∧
        s'.raised (sillPg b (u.activeSill b)) 5 = true ∧ u.sameRegs s' [sillStat b (u.activeSill b)] ∧
        s' = { u with regs := s'.regs, ev := s'.ev }) ∧
    (u.takes b (sillPg b 0) → (∀ q ∈ u.holdSeqs b, (u.seq q).phase ≠ .parked) →
      ∃ s', exec (.unpark t b 0) s = .next s' ∧
        (u.bit (sillStat b (u.activeSill b)) 3 = true → (s'.sill b (u.activeSill b)).goOn = true) ∧
        (∀ q ∈ u.holdSeqs b, (s'.seq q).parkReq = false) ∧
        s' = { u with sills := s'.sills, seqs := s'.seqs, ev := s'.ev }) ∧
    (∀ (q : Fin 16) (k x : Nat), u.takes b (sillPg b 0) → b.val = u.ridge → k = seqNo b q → (u.seq k).phase = .parked →
      (u.seq k).moveReq = false → (u.seq k).owed = [] → (u.seq k).tail = [] → u.seqEnds k = false → u.shotMode k = 0 →
      (u.seq k).first = false → (∀ j ∈ u.holdSeqs b, j ≠ k → (u.seq j).phase ≠ .parked) →
      x = max (u.granCeil ((u.seq k).cEnd + (u.seq k).gap * u.gK)) (u.granCeil u.now) →
      ∃ s', exec (.unpark t b 0) s = .next s' ∧ s'.seq k = { u.seq k with
          parkReq := false, phase := .planned, next := some x, orig := x, deferred := false, moved := false } ∧
        s' = { u with sills := s'.sills, seqs := s'.seqs, ev := s'.ev }) ∧
    (u.rd (sillPg b (u.activeSill b) + Off.SILL_PULL_LEFT) ≠ 0 → u.pullOver b = true →
      ∃ s', exec (.pullDone t b) s = .next s' ∧ s'.pullNow b = 0 ∧
      s'.rd (sillPg b (u.activeSill b) + Off.SILL_PULL_LEFT) = 0 ∧
      u.sameRegs s' [sillPg b (u.activeSill b) + Off.SILL_PULL_LEFT] ∧
      s' = { u with regs := s'.regs, ev := s'.ev, sills := s'.sills, tius := s'.tius, fres := s'.fres }) ∧
    (∀ v : BitVec 24, u.takes b (sillPg b 0) → b.val = u.ridge → u.bit (sillStat b (u.activeSill b)) 5 = false →
      -(2 ^ 31 : Int) ≤ u.phaseNow + v.toInt → u.phaseNow + v.toInt < 2 ^ 31 →
      ∃ s', exec (.phaseStep t b 0 v) s = .next s' ∧ s'.phaseNow = u.phaseNow + v.toInt ∧
        u.sameRegs s' [u.phaseLeft b] ∧
        s' = { u with regs := s'.regs, ev := s'.ev, tb := s'.tb, sills := s'.sills, tius := s'.tius, fres := s'.fres }) ∧
    (∀ (v : BitVec 24) (k : Fin 2), u.takes b (sillPg b k) → (k = 1 ∨ b.val ≠ u.ridge) →
      ∃ s', exec (.phaseStep t b k v) s = .next s' ∧ s'.isLatched (sillPg b k) 0x4A = true ∧ s' = { u with ev := s'.ev }) ∧
    (u.rd (u.phaseLeft u.ridge) ≠ 0 → u.phaseNow = 0 → ∃ s', exec (.phaseDone t) s = .next s' ∧
      s'.rd (u.phaseLeft u.ridge) = 0 ∧
      s'.raised (sillPg u.ridge (u.activeSill u.ridge)) 9 = true ∧ u.sameRegs s' [u.phaseLeft u.ridge] ∧
      s' = { u with regs := s'.regs, ev := s'.ev, sills := s'.sills, tius := s'.tius, fres := s'.fres })

/-- R87–R89: RELOCK with N in range and every condition of R87 met begins a relock of every bent: sills that are not FAULTED
show RELOCKING and READY clears; out of range or barred it is refused with its health code; the lock of the ridge's active
sill gives the lattice its new N, with the present PT as its origin (the model's reading, log entry 64), and after RELOCK_DONE
no sill shows RELOCKING. -/
def Obligations.Relock : Prop :=
  ∀ (s u : State) (t : PT) (b : Fin 8) (n : BitVec 11), u = s.arrive t →
    (u.takes b (sillPg b 0) → 1456 ≤ n.toNat → n.toNat ≤ 2000 → u.relockBar b = none →
      ∃ s', exec (.relock t b 0 n false) s = .next s' ∧ s'.tb.relock = some (n.toNat, none) ∧
        s'.bit (pkgp 0 + Off.PKG_PKG_STAT) 24 = false ∧ s'.clk = u.clk ∧
        (∀ c j, u.has c = true → j < 2 → u.bit (sillStat c j) 7 = false → s'.bit (sillStat c j) 5 = true)) ∧
    (u.takes b (sillPg b 0) → (n.toNat < 1456 ∨ 2000 < n.toNat) → ∃ s', exec (.relock t b 0 n false) s = .next s' ∧
      s'.isLatched (sillPg b 0) 0x01 = true ∧ s' = { u with ev := s'.ev }) ∧
    (∀ c, u.takes b (sillPg b 0) → 1456 ≤ n.toNat → n.toNat ≤ 2000 → u.relockBar b = some c → c < 256 →
      ∃ s', exec (.relock t b 0 n false) s = .next s' ∧ s'.isLatched (sillPg b 0) c = true ∧ s' = { u with ev := s'.ev }) ∧
    (∀ (k : Fin 2) (before : List Nat) (last m : Nat), u.tb.relock = some (m, none) → b.val = u.ridge →
      k.val = u.activeSill b → u.bit (sillStat b k) 1 = true → u.windowLocks b k (before ++ [last]) = true →
      ∃ s', exec (.lockWindow t b k before last) s = .next s' ∧ s'.clk = { u.clk with n := m, o := u.now } ∧
        s'.tb = { u.tb with relock := some (m, some u.now) } ∧ s'.bit (sillStat b k) 0 = true) ∧
    (∀ m x : Nat, u.tb.relock = some (m, some x) → ∃ s', exec (.relockDone t) s = .next s' ∧
      s'.clk = u.clk ∧ s'.tb = { u.tb with relock := none } ∧
      (∀ c j, u.has c = true → j < 2 → s'.bit (sillStat c j) 5 = false) ∧ s'.mem = u.mem ∧ s'.queues = u.queues)

/-! ### Calibration -/

/-- R270–R272, R322: CAL_START begins the background operation the foreman picks in a class that runs none, and commits its
cost; at a clear tick the trestle takes the engine's place, and at another, its calibration done, the engine returns; a
takeover that finds no clear tick within CAL_WAIT_MAX is given up. -/
def Obligations.CalBackground : Prop :=
  ∀ (s u : State) (t : PT) (b : Fin 8), u = s.arrive t →
    (∀ (cls : Fin 6) (item inst : Nat), u.bgRuns b = true → u.pwrup b = true → u.bgOp b cls = none →
      u.bgPick b cls = some (item, inst) → u.marginFor (bgCost cls item) = true →
      ∃ s', exec (.calStart t b cls) s = .next s' ∧
        s'.bgOp b cls = some ⟨cls, item, inst, 1, u.now, [], bgCost cls item⟩ ∧
        s'.committed = (u.committed + bgCost cls item) % 2 ^ 64 ∧
        (item = 0x10 → s'.shadowBit b inst = false) ∧
        u.sameRegs s' [pkgp 3 + Off.LEDGER_COMMITTED_LO, pkgp 3 + Off.LEDGER_COMMITTED_LO + 4] ∧
        s' = { u with regs := s'.regs, ev := s'.ev, cals := s'.cals }) ∧
    (∀ (g : Fin 4) (op : BgOp), u.bgOp b 0 = some op → op.step = 2 → op.inst / 8 = g.val → u.clearTick b op.inst = true →
      u.fld (edgePg b op.inst + Off.EDGE_GRP_STAT) 3 2 = 0 → u.fld (edgePg b op.inst + Off.EDGE_GRP_STAT) 8 8 = 0 →
      ∃ s', exec (.trestleTakeover t b g) s = .next s' ∧
        s'.bgOp b 0 = some { op with step := 3, since := u.now, done := [] } ∧
        s'.fld (edgePg b op.inst + Off.EDGE_GRP_STAT) 0 3 = op.inst % 8 ∧
        s'.bit (edgePg b op.inst + Off.EDGE_GRP_STAT) 3 = true ∧ s'.bit (chStat b op.inst) 4 = true ∧
        s'.raised (calPg b) 4 = true ∧ u.sameRegs s' [edgePg b op.inst + Off.EDGE_GRP_STAT, chStat b op.inst] ∧
        s' = { u with regs := s'.regs, ev := s'.ev, cals := s'.cals }) ∧
    (∀ (g : Fin 4) (op : BgOp), u.bgOp b 0 = some op → op.step = 4 → op.item = 0 → op.inst / 8 = g.val →
      u.clearTick b op.inst = true → u.foremanRuns b = true → ∃ s', exec (.trestleReturn t b g) s = .next s' ∧
        op ∉ (s'.cal b).ops ∧ s'.committed = u.committed - op.cost ∧
        s'.fld (edgePg b op.inst + Off.EDGE_GRP_STAT) 0 3 = 0 ∧
        s'.bit (edgePg b op.inst + Off.EDGE_GRP_STAT) 3 = false ∧ s'.bit (chStat b op.inst) 4 = false ∧
        s' = { u with regs := s'.regs, ev := s'.ev, cals := s'.cals }) ∧
    (∀ (g : Fin 4) (op : BgOp), u.bgOp b 0 = some op → op.step = 2 → op.item = 0 → op.inst / 8 = g.val →
      op.since + u.calWaitMax b ≤ u.now → ∃ s', exec (.takeoverAbandon t b g) s = .next s' ∧
        op ∉ (s'.cal b).ops ∧ s'.committed = u.committed - op.cost ∧
        u.sameRegs s' [pkgp 3 + Off.LEDGER_COMMITTED_LO, pkgp 3 + Off.LEDGER_COMMITTED_LO + 4] ∧
        s' = { u with regs := s'.regs, ev := s'.ev, cals := s'.cals })

/-- R263–R265, R269: at power-up a measurement within its limits is accepted: counted, stamped, its deltas the difference
from the working set at TEMP_NOW; one that is not is rejected with its cause, counted, and the instance that reaches
REJECT_LIMIT is faulty. -/
def Obligations.CalMeasurement : Prop :=
  ∀ (s u : State) (t : PT) (b : Fin 8) (item : Fin 32) (inst : Fin 64) (m : List Int) (complete active : Bool),
    u = s.arrive t → u.has b = true → u.instExists b item inst = true → u.bit (calStat b) 0 = true → itemP item = true →
    (complete = true → m.length = itemElems item) → (complete = true → u.withinAbs b item inst m = true →
      (u.bit (shimStat b) 7 = true ∨ u.withinChange b item inst m = true) → u.bit (shimStat b) 0 = false →
      ∃ s', exec (.calMeasurement t b item inst m complete active) s = .next s' ∧
        s'.calInst b item inst = { u.calInst b item inst with
          rejects := 0, lowconf := false, stale := false, acc := some u.now, temp := some (u.tempNow b), since := u.now,
          delta := (placed m).map fun e => e.2 - shimAt b (instKey item inst) e.1 (u.tempNow b) (u.cal b).work,
          pend := none, applied := none, wasDelta := none, ran := u.now } ∧
        s'.rd (calPg b + Off.CAL_COUNT) = satAdd (u.rd (calPg b + Off.CAL_COUNT)) 1 ∧
        s'.rd80 (calPg b + Off.CAL_LAST_PT_LO) = u.now % 2 ^ 80 ∧ s'.stands (calPg b) 0xB1 = false ∧
        u.samePages s' [calPg b] ∧ s' = { u with regs := s'.regs, ev := s'.ev, calInsts := s'.calInsts }) ∧
    (∀ cause : Nat, (cause = 3 ∧ complete = false ∨ cause = 1 ∧ complete = true ∧ u.withinAbs b item inst m = false ∨
        cause = 2 ∧ complete = true ∧ u.withinAbs b item inst m = true ∧ u.bit (shimStat b) 7 = false ∧
          u.withinChange b item inst m = false) →
      ∃ s', exec (.calMeasurement t b item inst m complete active) s = .next s' ∧
        (s'.calInst b item inst).rejects = min ((u.calInst b item inst).rejects + 1) 15 ∧
        s'.rd (calPg b + Off.CAL_FAIL_COUNT) = satAdd (u.rd (calPg b + Off.CAL_FAIL_COUNT)) 1 ∧
        s'.rd (calPg b + Off.CAL_REJECT_INFO) = item.val + inst.val * 256 + cause * 65536 ∧
        s'.stands (calPg b) 0xB1 = true ∧ s'.raised (calPg b) 1 = true ∧ s'.mem = u.mem ∧
        ((u.calInst b item inst).rejects + 1 < u.fld (calPg b + Off.CAL_REJECT_LIMIT) 0 4 →
          u.samePages s' [calPg b] ∧ (s'.calInst b item inst).faulty = (u.calInst b item inst).faulty) ∧
        (u.fld (calPg b + Off.CAL_REJECT_LIMIT) 0 4 ≤ (u.calInst b item inst).rejects + 1 →
          (s'.calInst b item inst).faulty = true))

/-- R266, R267, R277, R279: a correction at its boundary applies and waits no longer, and a purlin skew's then reads in its
register; one that has waited CAL_WAIT_MAX is forced, counted and raises its event; re-interpolation brings TEMP_INTERP to
TEMP_NOW; an instance without an accepted measurement for CAL_MAX_AGE is stale. -/
def Obligations.CalCorrections : Prop :=
  ∀ (s u : State) (t : PT) (b : Fin 8), u = s.arrive t →
    (∀ (item : Fin 32) (inst : Fin 64) (x : Nat), (u.calInst b item inst).pend = some x → u.calBoundary b item inst x = true →
      (u.calKind b (itemClass item) < 3 ∨ ∀ e ∈ u.seqs, e.2.phase ≠ .gateHold) →
      ∃ s', exec (.correctionApply t b item inst) s = .next s' ∧
        s'.calInst b item inst = { u.calInst b item inst with pend := none, applied := none, wasDelta := none } ∧
        (∀ j, s'.trim b item inst j = u.inForce b item inst j (u.tempInterp b)) ∧
        (item.val = 0x13 → inst.val = 0 →
          s'.rd (purlinPg + Off.PURLIN_SKEW b) = ofSigned 32 (u.inForce b item inst 0 (u.tempInterp b))) ∧
        (item.val ≠ 0x13 → u.samePages s' (convPages b)) ∧
        s' = { u with regs := s'.regs, ev := s'.ev, calInsts := s'.calInsts, dacAt := s'.dacAt, sills := s'.sills }) ∧
    (∀ (item : Fin 32) (inst : Fin 64) (x : Nat), (u.calInst b item inst).pend = some x →
      u.granCeil (x + u.calWaitMax b) ≤ u.now → (∀ e ∈ u.seqs, e.2.phase ≠ .gateHold) →
      ∃ s', exec (.forcedApply t b item inst) s = .next s' ∧
        s'.calInst b item inst = { u.calInst b item inst with pend := none, applied := none, wasDelta := none } ∧
        s'.rd (calPg b + Off.CAL_FORCED_COUNT) = satAdd (u.rd (calPg b + Off.CAL_FORCED_COUNT)) 1 ∧
        s'.raised (calPg b) 6 = true ∧ u.samePages s' ([calPg b, purlinPg, sillPg b 0, sillPg b 1] ++ convPages b) ∧
        s' = { u with regs := s'.regs, ev := s'.ev, calInsts := s'.calInsts, dacAt := s'.dacAt, sills := s'.sills }) ∧
    (u.has b = true → u.foremanRuns b = true → u.bit (calPg b + Off.CAL_CAL_CTRL) 1 = true → u.fenced (calPg b) = false →
      u.fld (calPg b + Off.CAL_TEMP_STEP) 0 6 ≤ (u.tempNow b - u.tempInterp b).natAbs →
      ∃ s', exec (.reinterpolate t b) s = .next s' ∧
        s'.rd (calPg b + Off.CAL_TEMP_INTERP) = u.rd (calPg b + Off.CAL_TEMP_NOW) ∧
        u.sameRegs s' [calPg b + Off.CAL_TEMP_INTERP, calStat b] ∧
        s' = { u with regs := s'.regs, ev := s'.ev, calInsts := s'.calInsts }) ∧
    (∀ (item : Fin 32) (inst : Fin 64), u.has b = true → u.instExists b item inst = true → u.pwrup b = true →
      (u.calInst b item inst).stale = false →
      (u.calInst b item inst).since + u.rd (calPg b + Off.CAL_CAL_MAX_AGE) * secK ≤ u.now →
      ∃ s', exec (.calStale t b item inst) s = .next s' ∧
        s'.calInst b item inst = { u.calInst b item inst with stale := true } ∧
        s'.bit (calPg b + Off.CAL_STALE_MAP) item = true ∧ s'.bit (calStat b) 4 = true ∧ s'.raised (calPg b) 2 = true ∧
        u.sameRegs s' [calPg b + Off.CAL_STALE_MAP, calStat b] ∧
        s' = { u with regs := s'.regs, ev := s'.ev, calInsts := s'.calInsts })

/-- R269, R280, R287, R433: power-up calibration done shows in CAL_STAT and wakes every group; not done in 400 ms it stands as
0xB4; RUN_PASS asks for every instance again and RUN_ITEM for one, refused for one that does not exist or is faulty. -/
def Obligations.PowerUpCalibration : Prop :=
  ∀ (s u : State) (t : PT) (b : Fin 8), u = s.arrive t →
    (u.bit (calStat b) 0 = true → u.foremanRuns b = true → u.allMeasured b = true → ∃ s', exec (.pwrupDone t b) s = .next s' ∧
      s'.bit (calStat b) 0 = false ∧ s'.bit (calStat b) 1 = true ∧ s'.stands (calPg b) 0xB4 = false ∧
      s'.raised (calPg b) 0 = true ∧ (∀ g, g < 13 → s'.fld (grpStat b g) 0 2 = 0) ∧ (s'.cal b).autoAt = some u.now ∧
      s'.mem = u.mem ∧ s'.queues = u.queues) ∧
    (∀ x, (u.cal b).lockAt = some x → u.bit (calStat b) 0 = true → x + 400 * 1000 * usK ≤ u.now →
      ∃ s', exec (.pwrupTimeout t b) s = .next s' ∧ s'.stands (calPg b) 0xB4 = true ∧ s' = { u with ev := s'.ev }) ∧
    (u.starts b (calPg b) → ∃ s', exec (.runPass t b) s = .next s' ∧ s'.cal b = { u.cal b with passAt := u.now } ∧
      s' = { u with cals := s'.cals, ev := s'.ev }) ∧
    (∀ item inst : Nat, u.starts b (calPg b) → item = bits (u.rd (calPg b + Off.CAL_CAL_SEL)) 0 8 →
      inst = bits (u.rd (calPg b + Off.CAL_CAL_SEL)) 8 8 →
      (u.instExists b item inst = true → (u.calInst b item inst).faulty = false → ∃ s', exec (.runItem t b) s = .next s' ∧
        s'.cal b = { u.cal b with next := some (item, inst) } ∧ s' = { u with cals := s'.cals, ev := s'.ev }) ∧
      ((u.instExists b item inst = false ∨ (u.calInst b item inst).faulty = true) → ∃ s', exec (.runItem t b) s = .next s' ∧
        s'.isLatched (calPg b) 0xB5 = true ∧ s' = { u with ev := s'.ev }))

/-- R280, R283: a store that may start (asked for, automatic or tried again) passes its hold-up check and prepares the copy
not in force; one asked for whose check fails is deferred, counted and raises its event. -/
def Obligations.StoreStarts : Prop :=
  ∀ (s u : State) (t : PT) (b : Fin 8) (v drop : Word), u = s.arrive t → u.bit (shimStat b) 0 = false → u.pwrup b = true →
    u.otherStores b = false →
    (u.starts b (shimPg b) → u.enabled (shimPg b) = true → u.draining (shimPg b) = false →
      ((u.holdUp b v.toNat drop.toNat 300).2 = true → ∃ s', exec (.store t b v drop) s = .next s' ∧ u.storeBegun s' b ∧
        (s'.cal b).autoAt = (u.cal b).autoAt) ∧
      ((u.holdUp b v.toNat drop.toNat 300).2 = false → ∃ s', exec (.store t b v drop) s = .next s' ∧ u.storeDeferred s' b)) ∧
    (∀ x, (u.cal b).autoAt = some x → u.storeRuns b = true → u.bit (shimPg b + Off.SHIMSTORE_SHIM_CTRL) 0 = true →
      x ≤ u.now → (u.holdUp b v.toNat drop.toNat 300).2 = true → ∃ s', exec (.autoStore t b v drop) s = .next s' ∧
        u.storeBegun s' b ∧ (s'.cal b).autoAt = if u.fld (shimPg b + Off.SHIMSTORE_SHIM_CTRL) 8 8 = 0 then none
          else some (x + u.fld (shimPg b + Off.SHIMSTORE_SHIM_CTRL) 8 8 * 3600 * secK)) ∧
    ((u.cal b).storeReq = true → u.storeRuns b = true →
      (u.bit (shimStat b) 1 = false ∨
        (u.cal b).storeAt + u.rd (shimPg b + Off.SHIMSTORE_RETRY_MS) * (1000 * usK) ≤ u.now) →
      (∀ c, c < b.val → u.bit (shimStat c) 2 = false) → (u.holdUp b v.toNat drop.toNat 300).2 = true →
      ∃ s', exec (.storeRetry t b v drop) s = .next s' ∧ u.storeBegun s' b ∧ (s'.cal b).autoAt = (u.cal b).autoAt)

/-- R280, R283, R284, R290: a finished store is the copy in force and the working set, counted; a stalled one is given up and
counted, the working set as it was; CANCEL drops a deferred store; DELETE takes a point of the working set away unless fewer
than two would be left; RELOAD takes the copy in force, with every delta at 0. -/
def Obligations.StoreEnds : Prop :=
  ∀ (s u : State) (t : PT) (b : Fin 8), u = s.arrive t →
    (∀ c, (u.cal b).prep = some c → u.bit (shimStat b) 0 = true → ∃ s', exec (.storeDone t b) s = .next s' ∧
      (if u.bit (shimStat b) 3 then (s'.cal b).copyA else (s'.cal b).copyB) = c ∧ (s'.cal b).prep = none ∧
      (s'.cal b).work = c.points ∧ s'.bit (shimStat b) 0 = false ∧ s'.bit (shimStat b) 3 = !u.bit (shimStat b) 3 ∧
      s'.fld (shimStat b) 6 2 = 0 ∧
      s'.rd (shimPg b + Off.SHIMSTORE_STORE_COUNT) = satAdd (u.rd (shimPg b + Off.SHIMSTORE_STORE_COUNT)) 1 ∧
      s'.raised (shimPg b) 0 = true ∧ s'.mem = u.mem) ∧
    ((u.cal b).storeAt + 100 * 1000 * usK ≤ u.now → u.bit (shimStat b) 0 = true → ∃ s', exec (.storeStall t b) s = .next s' ∧
      s'.bit (shimStat b) 0 = false ∧ (s'.cal b).prep = none ∧ (s'.cal b).work = (u.cal b).work ∧
      s'.isLatched (shimPg b) 0xC3 = true ∧
      s'.rd (shimPg b + Off.SHIMSTORE_ABORT_COUNT) = satAdd (u.rd (shimPg b + Off.SHIMSTORE_ABORT_COUNT)) 1 ∧
      s'.raised (shimPg b) 2 = true ∧ s'.mem = u.mem) ∧
    (u.takes b (shimPg b) → u.bit (shimStat b) 1 = true → ∃ s', exec (.shimCancel t b) s = .next s' ∧
      s'.bit (shimStat b) 1 = false ∧ s'.stands (shimPg b) 0xC2 = false ∧ (s'.cal b).storeReq = false ∧
      u.sameRegs s' [shimStat b] ∧ s' = { u with regs := s'.regs, ev := s'.ev, cals := s'.cals }) ∧
    (∀ i, i = u.fld (shimPg b + Off.SHIMSTORE_SHIM_SEL) 0 3 → u.takes b (shimPg b) → i < (u.cal b).work.length →
      (3 ≤ (u.cal b).work.length → ∃ s', exec (.delete t b) s = .next s' ∧
        (s'.cal b).work = (u.cal b).work.eraseIdx i ∧
        s'.fld (shimStat b) 8 4 = ((u.cal b).work.length - 1) % 16 ∧ u.samePages s' [calPg b, shimPg b] ∧
        s' = { u with regs := s'.regs, ev := s'.ev, cals := s'.cals, calInsts := s'.calInsts }) ∧
      ((u.cal b).work.length < 3 → ∃ s', exec (.delete t b) s = .next s' ∧ s'.isLatched (shimPg b) 0xC5 = true ∧
        s' = { u with ev := s'.ev })) ∧
    (u.takes b (shimPg b) → ∃ s', exec (.reload t b) s = .next s' ∧ (s'.cal b).work = u.copyPoints b ∧
      (∀ e ∈ u.allInsts b, (s'.calInst b e.1 e.2).delta = []) ∧ u.samePages s' [calPg b, shimPg b] ∧
      s' = { u with regs := s'.regs, ev := s'.ev, cals := s'.cals, calInsts := s'.calInsts })

/-! ### Sequencers -/

/-- R147–R149, R153: START on a page that is enabled, not fenced and not running takes the program, ends a frame that is open
(R138) and begins the static walk, and is refused with 0x50 otherwise; the walk's end gives the estimate, or without one and
without an override refuses the start with 0x51; HALT in a shot is noted for the shot's end and halts an idle sequencer; STOP
halts at once; MOVE is noted for the next boundary or refused with 0x52. -/
def Obligations.SequencerCommands : Prop :=
  ∀ (s u : State) (t : PT) (b : Fin 8) (q : Fin 16) (k : Nat), u = s.arrive t → k = seqNo b q →
    (u.takes b (seqPg k) → u.enabled (seqPg k) = true → u.fenced (seqPg k) = false → (u.seq k).running = false →
      ∃ s', exec (.seqStart t b q) s = .next s' ∧ (s'.seq k).phase = .estimating ∧
        (s'.seq k).entry = u.fld (seqPg k + Off.SEQ_ENTRY) 0 17 ∧
        (s'.seq k).firstPt = u.rd80 (seqPg k + Off.SEQ_FIRST_PT_LO) ∧
        (s'.seq k).chain = u.rd64 (seqPg k + Off.SEQ_SEED_INIT_LO) ∧
        (s'.seq k).cEnd = u.granCeil (u.now + u.leadMax k) ∧ s'.drained (seqPg k) = u.drained (seqPg k) ∧
        s'.rd (seqPg k + Off.SEQ_FRAME_NUM) = (if (u.seq k).frameOpen then (u.rd (seqPg k + Off.SEQ_FRAME_NUM) + 1) % 2 ^ 32
          else u.rd (seqPg k + Off.SEQ_FRAME_NUM)) ∧
        u.sameRegs s' [seqPg k + Off.SEQ_FRAME_NUM] ∧ u.sameSeqs s' k ∧
        s' = { u with seqs := s'.seqs, regs := s'.regs, ev := s'.ev }) ∧
    (u.takes b (seqPg k) → (u.enabled (seqPg k) = false ∨ u.fenced (seqPg k) = true ∨ (u.seq k).running = true) →
      ∃ s', exec (.seqStart t b q) s = .next s' ∧ s'.isLatched (seqPg k) 0x50 = true ∧ s' = { u with ev := s'.ev }) ∧
    ((u.seq k).phase = .estimating → u.estimate k = none → u.rd (seqPg k + Off.SEQ_EST_OVERRIDE) = 0 →
      ∃ s', exec (.estimateDone t b q) s = .next s' ∧ (s'.seq k).phase = .halted ∧
        s'.isLatched (seqPg k) 0x51 = true ∧ u.sameRegs s' [seqPg k + Off.SEQ_EST_ENERGY] ∧ u.sameSeqs s' k ∧
        s' = { u with seqs := s'.seqs, regs := s'.regs, ev := s'.ev }) ∧
    (∀ e, (u.seq k).phase = .estimating → u.estimate k = some e → (u.seq k).moveReq = false →
      ∃ s', exec (.estimateDone t b q) s = .next s' ∧
        s'.rd (seqPg k + Off.SEQ_EST_ENERGY) = min e 0xFFFFFFFF ∧
        (s'.seq k).est = (if u.rd (seqPg k + Off.SEQ_EST_OVERRIDE) = 0 then min e 0xFFFFFFFF
          else u.rd (seqPg k + Off.SEQ_EST_OVERRIDE)) ∧ u.sameSeqs s' k ∧ s'.mem = u.mem ∧ s'.queues = u.queues) ∧
    (u.takes b (seqPg k) → (u.seq k).phase = .inShot → (u.seq k).shot.isSome = true →
      ∃ s', exec (.seqHalt t b q) s = .next s' ∧ s'.seq k = { u.seq k with haltReq := true } ∧ u.sameSeqs s' k ∧
        s' = { u with seqs := s'.seqs, ev := s'.ev }) ∧
    (u.takes b (seqPg k) → (u.seq k).phase = .planned → (u.seq k).shot = none → (u.seq k).tail = [] → (u.seq k).owed = [] →
      ∃ s', exec (.seqHalt t b q) s = .next s' ∧ (s'.seq k).phase = .halted ∧ s'.drained (seqPg k) = true ∧
        u.sameRegs s' [seqPg k + Off.PG_PAGE_STAT] ∧ u.sameSeqs s' k ∧
        s' = { u with seqs := s'.seqs, regs := s'.regs, ev := s'.ev }) ∧
    (u.takes b (seqPg k) → (u.seq k).phase ≠ .halted → ∃ s', exec (.seqStop t b q) s = .next s' ∧
      (s'.seq k).phase = .halted ∧ (s'.seq k).shot = none ∧ (s'.seq k).owed = [] ∧ (s'.seq k).next = none ∧
      (s'.seq k).stack = [] ∧ (s'.seq k).trigQ = []) ∧
    (u.starts b (seqPg k) → (u.seq k).running = true → (u.seq k).phase ≠ .halting → u.moveOk k = true →
      ∃ s', exec (.seqMove t b q) s = .next s' ∧ s'.seq k = { u.seq k with moveReq := true } ∧ u.sameSeqs s' k ∧
        s' = { u with seqs := s'.seqs, ev := s'.ev }) ∧
    (u.starts b (seqPg k) → ((u.seq k).running = false ∨ u.moveOk k = false) →
      ∃ s', exec (.seqMove t b q) s = .next s' ∧ s'.isLatched (seqPg k) 0x52 = true ∧ s' = { u with ev := s'.ev })

/-- R136, R137, R145, R146, R319: the first admission request that is due is granted where the credit covers it, its estimate
committed and its shot opened at S with its number and seed (a replay with those it had); where the credit does not cover it S
moves on and the request is counted as deferred, or, under WARN, the shot is admitted with its flag. -/
def Obligations.SequencerAdmission : Prop :=
  ∀ (s u : State) (t : PT) (b : Fin 8) (q : Fin 16) (k v : Nat), u = s.arrive t → k = seqNo b q →
    (u.seq k).next = some v → u.admitDue k = true → (u.seqs.any fun e => u.admitDue e.1 && u.before e.1 k) = false →
    u.tallyHold k = false → u.seqEnds k = false →
    (((u.seq k).owed = [] → (u.bit (pkgp 3 + Off.LEDGER_LEDGER_CTRL) 0 = false ∨
        (u.seq k).est ≤ u.rd (pkgp 3 + Off.LEDGER_RESERVOIR) ∧
          (((u.seq k).est : Nat) : Int) ≤ u.credit - ((u.committed : Nat) : Int) - ((u.reserved k : Nat) : Int)) →
      ∃ s', exec (.admitRequest t b q) s = .next s' ∧ (s'.seq k).phase = .inShot ∧ (s'.seq k).cursor = v ∧
        (s'.seq k).stepAddr = (u.seq k).entry ∧ (s'.seq k).chain = chainNext (u.seq k).chain ∧
        (∃ h, (s'.seq k).shot = some h ∧ h.start = v ∧ h.num = ((u.seq k).lastNum + 1) % 2 ^ 48 ∧
          (u.bit (seqPg k + Off.SEQ_SEQ_CTRL) 3 = false → chainNext (u.seq k).chain ≠ 0 →
            h.seed = chainNext (u.seq k).chain)) ∧
        s'.committed = (u.committed + (u.seq k).est) % 2 ^ 64 ∧
        s'.rd (pkgp 3 + Off.LEDGER_ADMIT_COUNT) = satAdd (u.rd (pkgp 3 + Off.LEDGER_ADMIT_COUNT)) 1 ∧
        u.sameSeqs s' k ∧ u.sameBytes s' (mb b 0) 0x200000 ∧
        u.sameRegs s' [pkgp 3 + Off.LEDGER_COMMITTED_LO, pkgp 3 + Off.LEDGER_COMMITTED_LO + 4,
          pkgp 3 + Off.LEDGER_ADMIT_COUNT] ∧
        s' = { u with seqs := s'.seqs, regs := s'.regs, ev := s'.ev, mem := s'.mem }) ∧
     (∀ h r, (u.seq k).owed = h :: r → u.bit (pkgp 3 + Off.LEDGER_LEDGER_CTRL) 0 = false →
      ∃ s', exec (.admitRequest t b q) s = .next s' ∧ (s'.seq k).owed = r ∧ (s'.seq k).cursor = v ∧
        (∃ g, (s'.seq k).shot = some g ∧ g.start = v ∧ g.num = h.num ∧ g.seed = h.seed ∧ g.replays = h.replays ∧
          bitAt g.flags 3 = true) ∧ u.sameSeqs s' k ∧ s'.mem = u.mem)) ∧
    (u.bit (pkgp 3 + Off.LEDGER_LEDGER_CTRL) 0 = true → (u.seq k).est ≤ u.rd (pkgp 3 + Off.LEDGER_RESERVOIR) →
      u.credit - ((u.committed : Nat) : Int) - ((u.reserved k : Nat) : Int) < (((u.seq k).est : Nat) : Int) →
      (u.bit (seqPg k + Off.SEQ_SEQ_CTRL) 1 = false → ∃ s', exec (.admitRequest t b q) s = .next s' ∧
        s'.seq k = { u.seq k with next := some (u.deferTo k v), deferred := true, admitWait := true } ∧
        s'.rd (seqPg k + Off.SEQ_DEFER_COUNT) = satAdd (u.rd (seqPg k + Off.SEQ_DEFER_COUNT)) 1 ∧
        s'.rd (pkgp 3 + Off.LEDGER_DEFER_COUNT) = satAdd (u.rd (pkgp 3 + Off.LEDGER_DEFER_COUNT)) 1 ∧
        s'.raised (pkgp 3) 0 = true ∧ u.sameSeqs s' k ∧
        u.sameRegs s' [seqPg k + Off.SEQ_DEFER_COUNT, pkgp 3 + Off.LEDGER_DEFER_COUNT] ∧
        s' = { u with seqs := s'.seqs, regs := s'.regs, ev := s'.ev }) ∧
      (u.bit (seqPg k + Off.SEQ_SEQ_CTRL) 1 = true → (u.seq k).owed = [] →
        ∃ s', exec (.admitRequest t b q) s = .next s' ∧ (s'.seq k).phase = .inShot ∧
        (∃ h, (s'.seq k).shot = some h ∧ h.start = v ∧ bitAt h.flags 7 = true) ∧
        s'.rd (pkgp 3 + Off.LEDGER_WARN_COUNT) = satAdd (u.rd (pkgp 3 + Off.LEDGER_WARN_COUNT)) 1 ∧
        s'.committed = (u.committed + (u.seq k).est) % 2 ^ 64 ∧ s'.raised (pkgp 3) 1 = true ∧ u.sameSeqs s' k))

/-- R18, R129, R130, R133, R157, R175, R207: a step is fetched whole from step memory, 16 bytes to the step, a corrected error
counted; a timed step within LEAD_MAX sends its peg toward its lane at the cursor plus its offset (a SEGMENT rounded up to a
granule boundary), and one beyond it waits. -/
def Obligations.SequencerIssue : Prop :=
  ∀ (s u : State) (t : PT) (b : Fin 8) (q : Fin 16) (k : Nat), u = s.arrive t → k = seqNo b q →
    (∀ w, (u.seq k).phase = .inShot → (u.seq k).cur = none → u.pegWaits k = false → (u.seq k).stepAddr < 131072 →
      w = u.memRd (stepAddrOf k (u.seq k).stepAddr) 16 → u.poisoned (stepAddrOf k (u.seq k).stepAddr) 16 = false →
      stReserved w = false →
      (∃ s', exec (.stepFetch t b q .good) s = .next s' ∧
        s'.seq k = { u.seq k with cur := some w, curAddr := (u.seq k).stepAddr, stepAddr := (u.seq k).stepAddr + 1 } ∧
        u.sameSeqs s' k ∧ s' = { u with seqs := s'.seqs, ev := s'.ev }) ∧
      (∃ s', exec (.stepFetch t b q .corrected) s = .next s' ∧ (s'.seq k).cur = some w ∧
        s'.rd (contPg k + Off.CONTINUITY_ECC_CORR_COUNT) = satAdd (u.rd (contPg k + Off.CONTINUITY_ECC_CORR_COUNT)) 1 ∧
        u.sameRegs s' [contPg k + Off.CONTINUITY_ECC_CORR_COUNT] ∧ u.sameSeqs s' k ∧
        s' = { u with seqs := s'.seqs, regs := s'.regs, ev := s'.ev })) ∧
    (∀ (w op pt payload : Nat) (c : Instr), u.stepAt k w op → u.laneValid (stLane w) = true → pt ≤ u.now + u.leadMax k →
      (c = .pegStep t b q ∧ op = 1 ∧ pt = ptAdd (u.seq k).cursor (stOfs w) ∧ payload = bits w 0 64 ∨
       c = .playStep t b q ∧ op = 2 ∧ pt = ptAdd (u.seq k).cursor (stOfs w) ∧ payload = u.playPayload k w ∨
       c = .segmentStep t b q ∧ op = 3 ∧ pt = u.granCeil (ptAdd (u.seq k).cursor (stOfs w)) ∧ payload = bits w 64 16 ∨
       c = .captureStep t b q ∧ op = 4 ∧ pt = ptAdd (u.seq k).cursor (stOfs w) ∧ payload = capturePayload w) →
      ∃ s', exec c s = .next s' ∧ s'.inFlight (stLane w) = u.inFlight (stLane w) ++
          [{ pt := pt, payload := payload, owner := (u.seq k).owner k, trig := false }] ∧
        s'.seq k = { u.seq k with cur := none, runAheadWait := false } ∧ u.sameSeqs s' k ∧
        (∀ l, l ≠ stLane w → s'.inFlight l = u.inFlight l) ∧
        s' = { u with flight := s'.flight, seqs := s'.seqs, ev := s'.ev }) ∧
    (∀ (w op pt : Nat) (c : Instr), u.stepAt k w op → u.laneValid (stLane w) = true → u.now + u.leadMax k < pt →
      (pt = ptAdd (u.seq k).cursor (stOfs w) ∧
          (c = .pegStep t b q ∧ op = 1 ∨ c = .playStep t b q ∧ op = 2 ∨ c = .captureStep t b q ∧ op = 4) ∨
        pt = u.granCeil (ptAdd (u.seq k).cursor (stOfs w)) ∧ c = .segmentStep t b q ∧ op = 3) →
      ∃ s', exec c s = .next s' ∧ s'.seq k = { u.seq k with runAheadWait := true } ∧ u.sameSeqs s' k ∧
        s' = { u with seqs := s'.seqs, ev := s'.ev })

/-- R131, R132, R140, R142, R146: WAIT moves the cursor; a BRANCH jumps always, by a P register, or by the state of the
verdict that decides it in time; LOOP, CALL and RETURN keep the stack; SET writes a P register. -/
def Obligations.SequencerControl : Prop :=
  ∀ (s u : State) (t : PT) (b : Fin 8) (q : Fin 16) (k w : Nat) (x : SeqSt), u = s.arrive t → k = seqNo b q →
    x = { u.seq k with cur := none, runAheadWait := false } →
    (u.stepAt k w 5 → ∃ s', exec (.waitStep t b q) s = .next s' ∧ s'.seq k = { x with cursor :=
          (if bits w 116 4 = 0 then ptAdd x.cursor (bits w 0 48)
          else if bits w 116 4 = 1 then ptAdd x.cursor (u.rd (seqP k (bits w 112 4)))
          else ptAdd (u.granCeil x.cursor) (bits w 0 48)) } ∧
      u.sameSeqs s' k ∧ s' = { u with seqs := s'.seqs, ev := s'.ev }) ∧
    (u.stepAt k w 6 → bits w 103 2 = 1 → ∃ s', exec (.branch t b q) s = .next s' ∧
      s'.seq k = { x with stepAddr := bits w 0 17 } ∧ u.sameSeqs s' k ∧ s' = { u with seqs := s'.seqs, ev := s'.ev }) ∧
    (u.stepAt k w 6 → bits w 103 2 = 2 → ∃ s', exec (.branch t b q) s = .next s' ∧
      (s'.seq k).stepAddr = (if u.rd (seqP k (bits w 99 4)) = 0 then x.stepAddr else bits w 0 17) ∧
      (s'.seq k).shot = x.shot.map (fun h => h.branch (u.rd (seqP k (bits w 99 4)) != 0)) ∧ (s'.seq k).cur = none ∧
      u.sameSeqs s' k ∧ s' = { u with seqs := s'.seqs, ev := s'.ev }) ∧
    (∀ a taken, u.stepAt k w 6 → bits w 103 2 = 0 → u.deciding k w = some (a, false) →
      taken = (bitAt w (107 + bits a.rec_.byte 0 2) && !(bitAt w 106 && bitAt a.rec_.byte 2)) →
      ∃ s', exec (.branch t b q) s = .next s' ∧
        (s'.seq k).stepAddr = (if taken then bits w 0 17 else x.stepAddr) ∧
        (s'.seq k).shot = x.shot.map (fun h => (h.decide (bits a.rec_.byte 0 2)).branch taken) ∧ (s'.seq k).cur = none ∧
        u.sameSeqs s' k ∧ s' = { u with seqs := s'.seqs, ev := s'.ev }) ∧
    (∀ left r, u.stepAt k w 7 → x.stack = .loop x.curAddr left :: r → ∃ s', exec (.loopStep t b q) s = .next s' ∧
      s'.seq k = (if left = 0 then { x with stack := r }
        else { x with stack := .loop x.curAddr (left - 1) :: r, stepAddr := bits w 0 17 }) ∧
      u.sameSeqs s' k ∧ s' = { u with seqs := s'.seqs, ev := s'.ev }) ∧
    (∀ n, u.stepAt k w 7 → (∀ left r, x.stack ≠ .loop x.curAddr left :: r) → x.stack.length < 16 →
      n = (if bitAt w 119 then max 1 (u.rd (seqP k (bits w 115 4))) else bits w 88 24) →
      ∃ s', exec (.loopStep t b q) s = .next s' ∧ s'.seq k = (if n ≤ 1 then x
        else { x with stack := .loop x.curAddr (n - 2) :: x.stack, stepAddr := bits w 0 17 }) ∧
      u.sameSeqs s' k ∧ s' = { u with seqs := s'.seqs, ev := s'.ev }) ∧
    (u.stepAt k w 8 → x.stack.length < 16 → ∃ s', exec (.callStep t b q) s = .next s' ∧
      s'.seq k = { x with stack := .call x.stepAddr :: x.stack, stepAddr := bits w 0 17 } ∧
      u.sameSeqs s' k ∧ s' = { u with seqs := s'.seqs, ev := s'.ev }) ∧
    (∀ a r, u.stepAt k w 9 → x.stack = .call a :: r → ∃ s', exec (.returnStep t b q) s = .next s' ∧
      s'.seq k = { x with stack := r, stepAddr := a } ∧ u.sameSeqs s' k ∧ s' = { u with seqs := s'.seqs, ev := s'.ev }) ∧
    (∀ d, u.stepAt k w 11 → d = seqP k (bits w 116 4) → ∃ s', exec (.setStep t b q) s = .next s' ∧
      s'.rd d = (if bits w 112 4 = 0 then bits w 32 32
        else if bits w 112 4 = 1 then (u.rd d + bits w 32 32) % 2 ^ 32
        else if bits w 112 4 = 2 then (u.rd d + u.rd (seqP k (bits w 108 4))) % 2 ^ 32
        else (bits w 32 32 + (prngDraw x.prng).2 * (if bits w 0 32 = 0 then 2 ^ 32 else bits w 0 32) / 2 ^ 32) % 2 ^ 32) ∧
      s'.seq k = { x with prng := if bits w 112 4 = 3 then (prngDraw x.prng).1 else x.prng } ∧
      u.sameRegs s' [d] ∧ u.sameSeqs s' k ∧ s' = { u with seqs := s'.seqs, regs := s'.regs, ev := s'.ev })

/-- R134, R135, R141, R143: a SYNC that is not the last arrival waits at its barrier, and the last releases every
participant at the first granule boundary at or after the latest cursor; a barrier whose limit has passed, or that is reached
with another COUNT or by one sequencer twice, is reset and its participants fault; AWAIT suspends its shot until a trigger edge,
heard before or after it, gives its cursor or its time is over; a trigger gives a
sequencer that waits for one its next S. -/
def Obligations.SequencerWaits : Prop :=
  ∀ (s u : State) (t : PT) (b : Fin 8) (q : Fin 16) (k w : Nat), u = s.arrive t → k = seqNo b q →
    (∀ (waiting all : List (Nat × Nat × Nat)), u.stepAt k w 10 → (u.seq k).syncWait = false →
      (waiting.any fun p => p.1 == k) = false →
      (u.barrier (bits w 114 6) = none ∧ waiting = [] ∨
        u.barrier (bits w 114 6) = some { count := bits w 106 8, waiting := waiting }) →
      all = waiting ++ [(k, (u.seq k).cursor, if bits w 24 32 = 0 then 0 else (u.seq k).cursor + bits w 24 32 * u.gK)] →
      (all.length < bits w 106 8 → ∃ s', exec (.syncStep t b q) s = .next s' ∧
        s'.barrier (bits w 114 6) = some { count := bits w 106 8, waiting := all } ∧
        s'.seq k = { u.seq k with syncWait := true } ∧ u.sameSeqs s' k ∧
        s' = { u with seqs := s'.seqs, barriers := s'.barriers, ev := s'.ev }) ∧
      (bits w 106 8 ≤ all.length → ∃ s', exec (.syncStep t b q) s = .next s' ∧ s'.barrier (bits w 114 6) = none ∧
        (∀ p ∈ all, (u.seq p.1).syncWait = true ∨ p.1 = k →
          (s'.seq p.1).cursor = u.granCeil (all.foldl (fun m p => max m p.2.1) 0) ∧
          (s'.seq p.1).cur = none ∧ (s'.seq p.1).syncWait = false) ∧
        s' = { u with seqs := s'.seqs, barriers := s'.barriers, ev := s'.ev })) ∧
    (∀ br, u.stepAt k w 10 → (u.seq k).syncWait = false → u.barrier (bits w 114 6) = some br →
      (br.count ≠ bits w 106 8 ∨ (br.waiting.any fun p => p.1 == k) = true) →
      (∀ j h, (u.seq j).shot = some h → u.noEffects { seq := j, shot := h.num } = true) →
      ∃ s', exec (.syncStep t b q) s = .next s' ∧ s'.barrier (bits w 114 6) = none ∧ (s'.seq k).faulted = true ∧
        ∀ p ∈ br.waiting, (u.seq p.1).syncWait = true → (s'.seq p.1).faulted = true ∧ (s'.seq p.1).syncWait = false) ∧
    (∀ (i : Fin 64) (br : Barrier), u.barrier i = some br →
      (br.waiting.any fun p => (u.seq p.1).syncWait && p.2.2 != 0 && decide (p.2.2 < u.now)) = true →
      (∀ p ∈ br.waiting, ∀ h, (u.seq p.1).shot = some h → u.noEffects { seq := p.1, shot := h.num } = true) →
      ∃ s', exec (.syncTimeout t i) s = .next s' ∧ s'.barrier i = none ∧
        ∀ p ∈ br.waiting, (u.seq p.1).syncWait = true → (s'.seq p.1).faulted = true ∧ (s'.seq p.1).syncWait = false) ∧
    (∀ e, u.stepAt k w 14 → bits w 118 2 ≠ 1 →
      ((u.seq k).heard.find? fun e => e.1 == awaitKey w && u.awaitTakes (u.seq k) w e.2) = some e →
      ∃ s', exec (.await t b q) s = .next s' ∧ (s'.seq k).cursor = max (u.seq k).cursor (ptAdd e.2 (stOfs w)) ∧
        (s'.seq k).awaitWait = false ∧ (s'.seq k).cur = none ∧ u.sameSeqs s' k ∧
        s' = { u with seqs := s'.seqs, ev := s'.ev }) ∧
    (u.stepAt k w 14 → (bits w 118 2 ≠ 1 ∧ (u.seq k).heard = [] ∨ bits w 118 2 = 1 ∧ (u.seq k).arrivals = []) →
      ∃ s', exec (.await t b q) s = .next s' ∧
      s'.seq k = { u.seq k with awaitWait := true } ∧ u.sameSeqs s' k ∧ s' = { u with seqs := s'.seqs, ev := s'.ev }) ∧
    (∀ l, u.stepAt k w 14 → u.awaitLimit (u.seq k) w = some l → (u.seq k).awaitWait = true →
      (if bits w 118 2 = 0 then l + 60 * u.clk.n else l) ≤ u.now → ∃ s', exec (.awaitTimeout t b q) s = .next s' ∧
        s'.seq k = { u.seq k with
          cursor := l, stepAddr := bits w 0 17, awaitWait := false, cur := none, runAheadWait := false } ∧
            u.sameSeqs s' k ∧ s' = { u with seqs := s'.seqs, ev := s'.ev }) ∧
    (∀ (pin falling : Bool) (index : Fin 32) (stamp : PT), (u.seq k).cur = some w → (u.seq k).awaitWait = true →
      u.shotMode k ≠ 2 → bits w 118 2 = 0 → bitAt w 117 = pin → bits w 112 5 = index.val → bitAt w 111 = falling →
      (u.seq k).cursor ≤ stamp.toNat → (∀ l, u.awaitLimit (u.seq k) w = some l → stamp.toNat ≤ l) →
      ∃ s', exec (.shotTrigger t b q pin index falling stamp) s = .next s' ∧
        (s'.seq k).cursor = max (u.seq k).cursor (ptAdd stamp.toNat (stOfs w)) ∧ (s'.seq k).awaitWait = false ∧
        (s'.seq k).cur = none ∧ u.sameSeqs s' k ∧ s' = { u with seqs := s'.seqs, ev := s'.ev }) ∧
    (∀ (pin falling : Bool) (index : Fin 32) (stamp : PT) (ss : Nat), ss = u.rd (seqPg k + Off.SEQ_SHOT_START) →
      (u.seq k).awaitWait = false → (u.seq k).phase = .trigWait → u.shotMode k = 2 → bitAt ss 2 = pin →
      bits ss 3 5 = index.val → bitAt ss 8 = falling → u.knownEnd (u.seq k) ≤ stamp.toNat →
      ∃ s', exec (.shotTrigger t b q pin index falling stamp) s = .next s' ∧ (s'.seq k).phase = .planned ∧
        (s'.seq k).next = some (ptAdd stamp.toNat (u.trigDelay k)) ∧ u.sameSeqs s' k ∧
        s' = { u with seqs := s'.seqs, ev := s'.ev })

/-- R137, R138, R140, R148, R297–R300: END_SHOT and HALT end the shot at its cursor; a resolved shot that is not void gets its
tally entry, its number shows, and its estimate is released; a void one that may be replayed is owed; a BRANCH without a
verdict counts it late and voids the shot, or, the second time, faults; a parity fault voids the shot and is not a halt. -/
def Obligations.ShotEnds : Prop :=
  ∀ (s u : State) (t : PT) (b : Fin 8) (q : Fin 16) (k w energy : Nat) (h : Shot), u = s.arrive t → k = seqNo b q →
    (∀ c frame halt, (c = .endShot t b q ∧ u.stepAt k w 12 ∧ frame = bitAt w 119 ∧ halt = false ∨
        c = .haltStep t b q ∧ u.stepAt k w 13 ∧ frame = true ∧ halt = true) → (u.seq k).shot = some h → (u.seq k).stack = [] →
      (u.seq k).moveReq = false → (∀ e ∈ u.streams, e.2.owner ≠ some { seq := k, shot := h.num }) → ∃ s', exec c s = .next s' ∧
        (s'.seq k).shot = none ∧
        (s'.seq k).tail = (u.seq k).tail ++ [{ h with cEnd := (u.seq k).cursor, frameEnd := frame }] ∧
        (halt = true → (s'.seq k).haltReq = true) ∧
        s'.rd (seqPg k + Off.SEQ_FRAME_NUM) =
          (if frame then (u.rd (seqPg k + Off.SEQ_FRAME_NUM) + 1) % 2 ^ 32 else u.rd (seqPg k + Off.SEQ_FRAME_NUM)) ∧
        u.sameSeqs s' k ∧ s'.mem = u.mem ∧ s'.queues = u.queues) ∧
    (∀ r, (u.seq k).tail = h :: r → u.pegsResolved { seq := k, shot := h.num } = true → u.tallyHold k = false →
      u.has b = true → h.voidPt = none → ((u.seq k).phase = .inShot ∨ (u.seq k).phase = .planned) →
      ∃ s', exec (.shotDone t b q energy) s = .next s' ∧ (s'.seq k).tail = r ∧ (s'.seq k).owed = (u.seq k).owed ∧
        s'.rd (tallyWr k) = (u.rd (tallyWr k) + 1) % 2 ^ 32 ∧
        (∀ i, i < 64 → s'.memByte (mb b (0x6000000 + k % 16 * 0x10000 + u.rd (tallyWr k) % 1024 * 64) + i) =
          (tallyBytes (u.tallyWords k { u.endFlags b h h.cEnd with energy := h.energy + energy })).getD i 0) ∧
        u.sameBytes s' (mb b (0x6000000 + k % 16 * 0x10000 + u.rd (tallyWr k) % 1024 * 64)) 64 ∧
        s'.fld (seqPg k + Off.SEQ_SHOT_NUM_LO) 0 32 = bits h.num 0 32 ∧
        s'.fld (seqPg k + Off.SEQ_SHOT_NUM_HI) 0 16 = bits h.num 32 16 ∧
        s'.committed = u.committed - h.est ∧ s'.raised (seqPg k) 0 = true ∧ u.sameSeqs s' k ∧ s'.queues = u.queues) ∧
    (∀ r x, (u.seq k).tail = h :: r → u.pegsResolved { seq := k, shot := h.num } = true → u.tallyHold k = false →
      h.voidPt = some x → h.noReplay = false → h.replays < u.fld (contPg k + Off.CONTINUITY_CONT_CTRL) 0 4 →
      u.cVoid h ≤ u.now → ∃ s', exec (.shotDone t b q energy) s = .next s' ∧
        (∃ g, (s'.seq k).owed = (u.seq k).owed ++ [g] ∧ g.num = h.num ∧ g.seed = h.seed ∧ g.replays = h.replays + 1) ∧
        s'.rd (tallyWr k) = (u.rd (tallyWr k) + 1) % 2 ^ 32 ∧ s'.raised (seqPg k) 0 = true) ∧
    (u.stepAt k w 6 → bits w 103 2 = 0 → u.deciding k w = none → u.deadline k + u.verdictTimeout k ≤ u.tick u.now →
      (u.seq k).shot = some h → u.noEffects { seq := k, shot := h.num } = true →
      ∃ s', exec (.verdictTimeout t b q) s = .next s' ∧
        s'.rd (seqPg k + Off.SEQ_LATE_VERDICT_COUNT) = satAdd (u.rd (seqPg k + Off.SEQ_LATE_VERDICT_COUNT)) 1 ∧
        s'.raised (seqPg k) 2 = true ∧ (s'.seq k).shot = none ∧
        (h.timedOut = false → (s'.seq k).faulted = (u.seq k).faulted ∧
          ∃ g ∈ (s'.seq k).tail, g.num = h.num ∧ g.voidPt.isSome = true ∧ g.timedOut = true) ∧
        (h.timedOut = true → (s'.seq k).faulted = true ∧
          s'.rd (seqPg k + Off.SEQ_FAULT_INFO) = (u.seq k).curAddr % 2 ^ 17 + 6 * 2 ^ 20)) ∧
    ((u.seq k).shot = some h → u.noEffects { seq := k, shot := h.num } = true →
      ∃ s', exec (.parityFault t b q) s = .next s' ∧
        s'.rd (seqPg k + Off.SEQ_FAULT_INFO) = (u.seq k).curAddr % 2 ^ 17 + 7 * 2 ^ 20 ∧ s'.raised (seqPg k) 3 = true ∧
        (s'.seq k).faulted = (u.seq k).faulted ∧ (s'.seq k).phase = .voidWait ∧
        ∃ g ∈ (s'.seq k).tail, g.num = h.num ∧ g.voidPt.isSome = true ∧ g.noReplay = h.noReplay)

/-! ### Segment streams -/

/-- R157, R158, R160–R163, R168: a SEGMENT peg at a playing stream asks for a jump, and at an idle one starts the chain
committed for it; 3 G before an end boundary the stream commits what follows: a jump that is due, NEXT, or the end, and issues
the trigger of the segment committed, and before a jump's boundary in a fill that jump; at the boundary that segment takes over,
or the chain ends with its event. -/
def Obligations.SegmentChains : Prop :=
  ∀ (s u : State) (t : PT) (b : Fin 8) (n : Fin 16) (x : StreamSt), u = s.arrive t → x = u.stream b n →
    (∀ p r, u.headDue (laneAddr b 5 n) p r → u.strKind b n ≠ 0 → x.seg.isSome = true → x.succ ≠ some none →
      ∃ s', exec (.segmentPeg t b n) s = .next s' ∧
        s'.stream b n = { x with jump := some (p.pt, bits p.payload 0 16) } ∧ s'.queue (laneAddr b 5 n) = r ∧
        u.sameQueues s' (laneAddr b 5 n) ∧
        s' = { u with queues := s'.queues, touched := s'.touched, streams := s'.streams, ev := s'.ev }) ∧
    (∀ p r i d j, u.headDue (laneAddr b 5 n) p r → u.strKind b n ≠ 0 → u.strReady b n → x.seg = none →
      x.succ = some (some (i, d, j)) → x.segStart = p.pt → i = bits p.payload 0 16 →
      (u.strDrives b n = true → ((u.tone (u.strTarget b n)).upto p.pt).pulse = none ∧ u.holder (u.strTarget b n) = none) →
      (∀ e, u.ownedEnd p.owner = some e → p.pt < e) →
      ∃ s', exec (.segmentPeg t b n) s = .next s' ∧ (s'.stream b n).seg = some i ∧ (s'.stream b n).desc = d ∧
        (s'.stream b n).segStart = p.pt ∧ (s'.stream b n).endPt = p.pt + descLen d * u.gK ∧
        (s'.stream b n).owner = p.owner ∧ (s'.stream b n).stack = [] ∧ (s'.stream b n).endAt = u.ownedEnd p.owner ∧
        (u.strDrives b n = true → (s'.tone (u.strTarget b n)).pulse.map (fun y => y.start) = some p.pt) ∧
        s'.fld (segPg b + Off.SEGMENT_STR_STAT n) 24 4 = 0 ∧ u.samePages s' [segPg b, tonePg (u.strTarget b n)] ∧
        s'.queue (laneAddr b 5 n) = r ∧ u.sameQueues s' (laneAddr b 5 n) ∧
        s' = { u with queues := s'.queues, touched := s'.touched, streams := s'.streams, tones := s'.tones,
                      dacAt := s'.dacAt, regs := s'.regs, ev := s'.ev }) ∧
    (∀ e, x.seg.isSome = true → (x.fill = none ∨ x.jump = none) → u.poison = [] → u.segEnd x = some e → x.succ = none →
      x.drain = false → e ≤ u.now + 3 * u.gK →
      (∀ st, (x.jump = none ∨ ∃ p i, x.jump = some (p, i) ∧ e < p + 3 * u.gK) → x.follow = some (none, st) →
        ∃ s', exec (.segmentCommit t b n) s = .next s' ∧
          s'.stream b n = { x with succ := some none, seen := (s'.stream b n).seen } ∧
          s' = { u with streams := s'.streams, ev := s'.ev }) ∧
      (∀ i d jump, ((x.jump = none ∨ ∃ p i, x.jump = some (p, i) ∧ e < p + 3 * u.gK) ∧
          (∃ st, x.follow = some (some i, st)) ∧ jump = false ∨ (∃ p, x.jump = some (p, i) ∧ p + 3 * u.gK ≤ e) ∧ jump = true) →
        u.readDesc b n i = .inl d → ∃ s', exec (.segmentCommit t b n) s = .next s' ∧
          s'.stream b n = { x with
            succ := some (some (i, d, jump)), jump := if jump then none else x.jump, seen := (s'.stream b n).seen } ∧
          (bitAt d 26 = false → s'.flight = u.flight) ∧
          (bitAt d 26 = true → bitAt d 27 = true → s'.inFlight (laneAddr b 7 (bits d 80 6)) =
            u.inFlight (laneAddr b 7 (bits d 80 6)) ++ [{ pt := e, payload := 0, owner := x.owner, trig := false }]) ∧
          s' = { u with streams := s'.streams, flight := s'.flight, ev := s'.ev })) ∧
    (∀ f p i d e, x.seg.isSome = true → u.poison = [] → x.fill = some f → f.jumpAt = none → x.jump = some (p, i) →
      e = u.fillJumpAt f p → (∀ a, f.avail = some a → e ≤ u.resumeAt f a) → e ≤ u.now + 3 * u.gK →
      u.readDesc b n i = .inl d → ∃ s', exec (.segmentCommit t b n) s = .next s' ∧
        s'.stream b n = { x with
          succ := some (some (i, d, true)), jump := none, fill := some { f with jumpAt := some e },
          seen := (s'.stream b n).seen } ∧
        (bitAt d 26 = false → s'.flight = u.flight) ∧ s' = { u with streams := s'.streams, flight := s'.flight, ev := s'.ev }) ∧
    (∀ (word : Fin 0x200000), u.has b = true → u.strReady b n → u.poison = [] → x.seg.isSome = true → x.fill = none →
      x.endPt ≤ u.now → x.endAt = none →
      (∀ i d jump, x.succ = some (some (i, d, jump)) → x.jump = none →
        ∃ s', exec (.segmentBoundary t b n .good word) s = .next s' ∧ (s'.stream b n).seg = some i ∧
          (s'.stream b n).desc = d ∧ (s'.stream b n).segStart = x.endPt ∧
          (s'.stream b n).endPt = x.endPt + descLen d * u.gK ∧ (s'.stream b n).succ = none ∧
          s'.rd (segPg b + Off.SEGMENT_STR_JUMP_COUNT n) =
            satAdd (u.rd (segPg b + Off.SEGMENT_STR_JUMP_COUNT n)) (b2n jump) ∧
          u.samePages s' [segPg b, tonePg (u.strTarget b n)] ∧
          s' = { u with streams := s'.streams, edges := s'.edges, regs := s'.regs, dacAt := s'.dacAt, ev := s'.ev }) ∧
      (x.succ = some none → ∃ s', exec (.segmentBoundary t b n .good word) s = .next s' ∧ (s'.stream b n).seg = none ∧
        s'.bit (segPg b + Off.SEGMENT_STR_FLAGS n) 4 = true ∧ u.samePages s' [segPg b, tonePg (u.strTarget b n)] ∧
        s'.mem = u.mem ∧ s'.queues = u.queues ∧ s'.flight = u.flight))

/-- R157, R158, R162, R166, R169, R171: START and JUMP of an idle stream send it a peg; JUMP of a playing one asks for a jump
from now; STOP and the end of an owned stream leave it idle; DRAIN lets the segment that plays be the last; RING_RESET clears
an idle stream's counts; RING_WR advances only within what the ring can hold. -/
def Obligations.StreamCommands : Prop :=
  ∀ (s u : State) (t : PT) (b : Fin 8) (n : Fin 16) (x : StreamSt) (oper : Nat), u = s.arrive t → x = u.stream b n →
    oper = u.fld (segPg b + Off.SEGMENT_STR_OPER n) 0 16 →
    (u.starts b (segPg b) → ∃ s', exec (.strStart t b n) s = .next s' ∧
      s'.inFlight (laneAddr b 5 n) = u.inFlight (laneAddr b 5 n) ++
        [{ pt := u.granCeil (u.rd80 (segPg b + Off.SEGMENT_STR_START_PT_LO n)), payload := oper, owner := none, trig := false }] ∧
      s' = { u with flight := s'.flight, ev := s'.ev }) ∧
    (u.starts b (segPg b) → x.seg = none → ∃ s', exec (.strJump t b n) s = .next s' ∧
      s'.inFlight (laneAddr b 5 n) = u.inFlight (laneAddr b 5 n) ++
        [{ pt := u.granCeil (u.now + 3 * u.gK), payload := oper, owner := none, trig := false }] ∧
      s' = { u with flight := s'.flight, ev := s'.ev }) ∧
    (u.starts b (segPg b) → x.seg.isSome = true → ∃ s', exec (.strJump t b n) s = .next s' ∧
      s'.stream b n = { x with jump := some (u.now, oper) } ∧ s' = { u with streams := s'.streams, ev := s'.ev }) ∧
    (u.takes b (segPg b) → x.seg.isSome = true → ∃ s', exec (.strStop t b n) s = .next s' ∧
      (s'.stream b n).seg = none ∧ (u.strReady b n → u.samePages s' [segPg b, tonePg (u.strTarget b n)]) ∧ s'.mem = u.mem ∧
      s'.queues = u.queues ∧ s'.flight = u.flight) ∧
    (u.takes b (segPg b) → x.seg.isSome = true → ∃ s', exec (.strDrain t b n) s = .next s' ∧
      s'.stream b n = { x with drain := true, jump := none, stack := [], succ := x.succ.map fun _ => none } ∧
      s' = { u with streams := s'.streams, ev := s'.ev }) ∧
    (∀ e, x.endAt = some e → e ≤ u.now → x.seg.isSome = true → x.owner.isSome = true → u.poison = [] →
      ∃ s', exec (.ownedStreamEnd t b n) s = .next s' ∧ (s'.stream b n).seg = none ∧
        (u.strReady b n → u.samePages s' [segPg b, tonePg (u.strTarget b n)]) ∧ s'.mem = u.mem ∧ s'.queues = u.queues ∧
        s'.flight = u.flight) ∧
    (u.takes b (segPg b) → x.seg = none → ∃ s', exec (.ringReset t b n) s = .next s' ∧
      s'.rd (segPg b + Off.SEGMENT_STR_RING_WR n) = 0 ∧ s'.rd (segPg b + Off.SEGMENT_STR_RING_RD n) = 0 ∧
      s'.rd (segPg b + Off.SEGMENT_STR_RING_REL n) = 0 ∧
      u.sameRegs s' [segPg b + Off.SEGMENT_STR_RING_WR n, segPg b + Off.SEGMENT_STR_RING_RD n,
        segPg b + Off.SEGMENT_STR_RING_REL n] ∧ s' = { u with regs := s'.regs, streams := s'.streams, ev := s'.ev }) ∧
    (∀ (v : Word) (old rel delta : Nat), u.has b = true → old = u.rd (segPg b + Off.SEGMENT_STR_RING_WR n) →
      rel = u.ringRel b n → delta = (v.toNat + 2 ^ 32 - old) % 2 ^ 32 →
      ((old + 2 ^ 32 - rel) % 2 ^ 32 + delta ≤ u.fld (segPg b + Off.SEGMENT_STR_RING_SIZE n) 0 24 ∨ delta = 0 →
        ∃ s', exec (.ringWrWrite t b n v) s = .next s' ∧ s'.rd (segPg b + Off.SEGMENT_STR_RING_WR n) = v.toNat ∧
          u.sameRegs s' [segPg b + Off.SEGMENT_STR_RING_WR n, segPg b + Off.SEGMENT_STR_FLAGS n] ∧
          s' = { u with regs := s'.regs, streams := s'.streams, ev := s'.ev }) ∧
      (u.fld (segPg b + Off.SEGMENT_STR_RING_SIZE n) 0 24 < (old + 2 ^ 32 - rel) % 2 ^ 32 + delta → delta ≠ 0 →
        ∃ s', exec (.ringWrWrite t b n v) s = .next s' ∧ s'.isLatched (segPg b) 0x61 = true ∧ s' = { u with ev := s'.ev }))

/-- R164–R168: a ring granule that is due is taken, and the one before it released where no shot owns the stream; one that is
not there 2 G ahead is an underrun, counted, and its fill begins; a fill ends when its granule has been there for 2 G, the
chain shifted by its length; a vector whose channel shows other than it expects is counted and logged, and CLR_FAIL clears
both. -/
def Obligations.RingsAndFails : Prop :=
  ∀ (s u : State) (t : PT) (b : Fin 8) (n : Fin 16) (x : StreamSt), u = s.arrive t → x = u.stream b n →
    (∀ (rd : Nat) (word : Fin 48), rd = u.rd (segPg b + Off.SEGMENT_STR_RING_RD n) → x.seg.isSome = true →
      u.strReady b n → descRing x.desc = true → x.taken < descLen x.desc → u.dueAt x x.taken ≤ u.now → u.ringLevel b n ≠ 0 →
      (∀ f, x.fill = some f → f.j ≠ rd) → (∀ e, x.endAt = some e → u.dueAt x x.taken < e) →
      u.firstPoison (u.slotAddr b n rd) (kindBytes (u.strKind b n)) = none →
      ∃ s', exec (.ringGranuleTaken t b n .good word) s = .next s' ∧
        s'.rd (segPg b + Off.SEGMENT_STR_RING_RD n) = (rd + 1) % 2 ^ 32 ∧ (s'.stream b n).taken = x.taken + 1 ∧
        (s'.stream b n).tookAt = u.dueAt x x.taken ∧
        s'.rd (segPg b + Off.SEGMENT_STR_RING_REL n) =
          (if x.owner.isNone then rd else u.rd (segPg b + Off.SEGMENT_STR_RING_REL n)) ∧
        u.samePages s' [segPg b, tonePg (u.strTarget b n)] ∧
        s' = { u with regs := s'.regs, streams := s'.streams, edges := s'.edges, dacAt := s'.dacAt, ev := s'.ev }) ∧
    (∀ (due d : Nat), u.missingAt b n x = some due → due ≤ u.now + 2 * u.gK →
      (∀ e, x.endAt = some e → due < e) → u.bit (segPg b + Off.SEGMENT_STR_CFG n) 4 = false →
      (x.owner.isSome = true → (u.rd (segPg b + Off.SEGMENT_STR_RING_WR n) + 2 ^ 32 -
        u.rd (segPg b + Off.SEGMENT_STR_RING_REL n)) % 2 ^ 32 < u.fld (segPg b + Off.SEGMENT_STR_RING_SIZE n) 0 24) →
      u.readDesc b n (u.fld (segPg b + Off.SEGMENT_STR_FILL_SEG n) 0 16) = .inl d → descRing d = false →
      ∃ s', exec (.underrun t b n) s = .next s' ∧
        (x.fill = none → s'.stream b n = { x with
          fill := some { from_ := due, j := u.rd (segPg b + Off.SEGMENT_STR_RING_WR n), avail := none, desc := d,
                         jumpAt := none, next := none } }) ∧
        (∀ f, x.fill = some f → s'.stream b n = { x with
          fill := some { f with next := some (due, u.rd (segPg b + Off.SEGMENT_STR_RING_WR n), none, d) } }) ∧
        s'.rd (segPg b + Off.SEGMENT_STR_UNDERRUN_COUNT n) =
          satAdd (u.rd (segPg b + Off.SEGMENT_STR_UNDERRUN_COUNT n)) 1 ∧
        s'.bit (segPg b + Off.SEGMENT_STR_FLAGS n) 0 = true ∧
        s' = { u with regs := s'.regs, streams := s'.streams, seqs := s'.seqs, ev := s'.ev }) ∧
    (∀ f a r, x.seg.isSome = true → u.strReady b n → u.poison = [] → x.fill = some f → f.avail = some a →
      f.jumpAt = none → r = u.resumeAt f a → r ≤ u.now → (∀ e, x.endAt = some e → r < e) →
      ∃ s', exec (.fillEnd t b n) s = .next s' ∧
        s'.stream b n = { x with
          endPt := x.endPt + (r - f.from_),
          fill := f.next.map fun g =>
            { from_ := g.1, j := g.2.1, avail := g.2.2.1, desc := g.2.2.2, jumpAt := none, next := none },
          recent := (s'.stream b n).recent } ∧
        s'.rd (segPg b + Off.SEGMENT_STR_FILL_COUNT n) =
          satAdd (u.rd (segPg b + Off.SEGMENT_STR_FILL_COUNT n)) ((r - f.from_) / u.gK) ∧
        s'.bit (segPg b + Off.SEGMENT_STR_FLAGS n) 3 = true ∧
        (x.owner = none → descRing x.desc = true →
          s'.rd (segPg b + Off.SEGMENT_STR_RING_REL n) = u.rd (segPg b + Off.SEGMENT_STR_RING_RD n)) ∧
        u.samePages s' [segPg b, tonePg (u.strTarget b n)] ∧
        s' = { u with regs := s'.regs, streams := s'.streams, edges := s'.edges, dacAt := s'.dacAt, ev := s'.ev }) ∧
    (u.takes b (segPg b) → ∃ s', exec (.clrFail t b) s = .next s' ∧ s'.rd (segPg b + Off.SEGMENT_FAIL_COUNT) = 0 ∧
      s'.rd (segPg b + Off.SEGMENT_FAIL_LOG_FILL) = 0 ∧ mapGet (fun _ => []) s'.failLog b = [] ∧
      u.sameRegs s' [segPg b + Off.SEGMENT_FAIL_COUNT, segPg b + Off.SEGMENT_FAIL_LOG_FILL] ∧
      s' = { u with regs := s'.regs, failLog := s'.failLog, ev := s'.ev }) ∧
    (∀ (ch : Fin 32) (m vc v c : Nat) (seen : Bool), vc = u.vecCtrl b ch → v = bits vc 0 4 → u.vecOn b ch = true →
      u.strKind b v = 3 →
      u.clk.o + m * 5 * u.clk.n + bits vc 16 14 + u.fld (segPg b + Off.SEGMENT_STR_VEC_STROBE v) 0 14 ≤ u.now →
      u.vecCode b v (bits vc 16 14) m (bits vc 4 5) = some c → (c = 2 ∧ seen = true ∨ c = 3 ∧ seen = false) →
      ∃ s', exec (.vectorFail t b ch m seen) s = .next s' ∧
        s'.rd (segPg b + Off.SEGMENT_FAIL_COUNT) = satAdd (u.rd (segPg b + Off.SEGMENT_FAIL_COUNT)) 1 ∧
        s'.raised (edgePg b ch) (8 + ch.val % 8) = true ∧
        (u.rd (segPg b + Off.SEGMENT_FAIL_LOG_FILL) < 256 →
          (mapGet (fun _ => []) s'.failLog b).length = (mapGet (fun _ => []) u.failLog b).length + 1 ∧
          s'.rd (segPg b + Off.SEGMENT_FAIL_LOG_FILL) = u.rd (segPg b + Off.SEGMENT_FAIL_LOG_FILL) + 1) ∧
        u.sameRegs s' [segPg b + Off.SEGMENT_FAIL_COUNT, segPg b + Off.SEGMENT_FAIL_LOG_FILL] ∧
        s' = { u with regs := s'.regs, failLog := s'.failLog, ev := s'.ev })

/-! ### Tone and flux lanes -/

/-- R176, R180, R183, R186, R188, R189: on a lane in service that no stream holds and nothing blocks, a PLAY at its PT starts
its pulse for its shape's length, and every sample before it whose code was beyond the converter's limit has been counted as a
clip; FRAME_ADD and FRAME_SET change the frame angle at once, modulo 2^16; a STOP peg tapers the running pulse from its PT.
R174, R190, R191, R193: STOP of a tone or flux lane discards and counts its queue and tapers its pulse from the next sample;
DRAIN notes its instant and lets the lane's admitted work go on; an output stage that fails is out of service at once, with
every pulse of its DAC. -/
def Obligations.ToneLanes : Prop :=
  (∀ (s u : State) (t : PT) (b : Fin 8) (kind : Fin 4) (idx : Fin 64) (lane : Nat) (p : Peg) (r : List Peg), u = s.arrive t →
     u.toneLane? b kind idx = some lane →
     (∀ (stop from_ : Nat) (ecc : Ecc) (word : Fin 0x100000) (y : Peg), u.due lane p r 1 → u.holder lane = none →
       ((u.tone lane).upto p.pt).pulse = none →
       stop = p.pt + shapeLen (bits p.payload 64 64) * (if isFlux lane then 5 * u.clk.n else 8 * u.clk.n) →
       (ecc = .good ∨ shapeWords (isFlux lane) (bits p.payload 64 64) ≤ u.unread lane p.pt from_) →
       y = u.playAgain lane (u.unread lane p.pt from_) p → p.poisoned lane = false → y.poisoned lane = false →
       u.voidOf p.owner = none → ∃ s', exec (.playPeg t b kind idx from_ ecc word) s = .next s' ∧
         (s'.tone lane).pulse =
           some { start := p.pt, stop := stop, taper := none, payload := y.payload, owner := p.owner, stream := none } ∧
         (s'.tone lane).theta = (u.tone lane).theta ∧
         (u.emits lane = true → 0 < u.clk.n → s'.rd (clipCount lane) = satAdd (u.rd (clipCount lane)) (u.clipsTo lane p.pt)) ∧
         s'.queue lane = r ∧ u.sameQueues s' lane ∧ u.samePages s' [tonePg lane] ∧
         s' = { u with queues := s'.queues, touched := s'.touched, tones := s'.tones, regs := s'.regs, dacAt := s'.dacAt,
                       seqs := s'.seqs, ev := s'.ev }) ∧
     (∀ c a f, (c = .frameAdd t b kind idx ∧ a = 2 ∧ f = (u.tone lane).theta + bits p.payload 32 16 ∨
         c = .frameSet t b kind idx ∧ a = 3 ∧ f = bits p.payload 32 16) → u.due lane p r a → ∃ s', exec c s = .next s' ∧
         s'.tone lane = { u.tone lane with theta := f % 65536 } ∧ s'.queue lane = r ∧ u.sameQueues s' lane ∧
         u.samePages s' [tonePg lane] ∧
         s' = { u with queues := s'.queues, touched := s'.touched, tones := s'.tones, regs := s'.regs, dacAt := s'.dacAt,
                       seqs := s'.seqs, ev := s'.ev }) ∧
     (∀ y, u.due lane p r 4 → u.holder lane = none → ((u.tone lane).upto p.pt).pulse = some y →
       ∃ s', exec (.stopPeg t b kind idx) s = .next s' ∧
         (s'.tone lane).pulse = some { y with taper := some (min p.pt (y.taper.getD p.pt)) } ∧
         s'.queue lane = r ∧ u.sameQueues s' lane ∧ u.sameRegs s' [toneFlags lane] ∧
         s' = { u with queues := s'.queues, touched := s'.touched, tones := s'.tones, regs := s'.regs, seqs := s'.seqs,
                       ev := s'.ev })) ∧
  ∀ (s u : State) (t : PT) (b : Fin 8) (kind : Fin 4) (idx : Fin 64) (f : Fin 16) (lane : Nat) (c d : Instr), u = s.arrive t →
    u.locked (tonePg lane) = false →
    (c = .toneStop t b kind idx ∧ d = .toneDrain t b kind idx ∧ u.toneLane? b kind idx = some lane ∧ isFlux lane = false ∨
      c = .flxStop t b f ∧ d = .flxDrain t b f ∧ u.has b = true ∧ lane = laneAddr b 3 f) →
    (∃ s', exec c s = .next s' ∧ s'.queue lane = [] ∧
      s'.rd (toneDiscard lane) = satAdd (u.rd (toneDiscard lane)) (u.queue lane).length ∧
      (∀ y, ((u.tone lane).upto u.now).pulse = some y → y.taper = none →
        (s'.tone lane).pulse = some { y with taper := some (u.sampleAfter (u.samplePeriod lane) u.now) }) ∧
      u.sameQueues s' lane ∧ u.sameRegs s' [toneDiscard lane, toneFlags lane] ∧
      s' = { u with queues := s'.queues, touched := s'.touched, tones := s'.tones, regs := s'.regs, ev := s'.ev }) ∧
    (∃ s', exec d s = .next s' ∧ s'.drainAt (drainLane lane) = some u.now ∧
      s'.tone lane = { u.tone lane with drainAt := some u.now } ∧
      s' = { u with tones := s'.tones, drainPt := s'.drainPt, ev := s'.ev }) ∧
    (u.toneLane? b kind idx = some lane → u.outFault lane = false → ∃ s', exec (.outFault t b kind idx) s = .next s' ∧
      s'.outFault lane = true ∧ s'.stands (tonePg lane) 0x73 = true ∧ (∀ l ∈ dacLanes lane, (s'.tone l).pulse = none) ∧
      u.samePages s' [tonePg lane] ∧ s'.queues = u.queues ∧ s'.mem = u.mem)

/-! ### Capture inputs -/

/-- R202, R208, R209, R211: a WINDOW that nothing blocks starts at the first sample at or after its PT with its demodulators as
they stand; a held window that may start does; an overrange sample is counted and marks what takes it; an injection is set for
its granule boundary, or missed while one is pending; a pulse within PWE_MIN to PWE_MAX sends the template's window. -/
def Obligations.CaptureWindows : Prop :=
  ∀ (s u : State) (t : PT) (b : Fin 8) (i : Fin 4) (c : CapSt), u = s.arrive t → c = u.cap b i →
    (∀ p r f len mask store, u.due (laneAddr b 4 i) p r 1 → c.inj = none → f = u.sampleCeil p.pt → len = bits p.payload 8 24 →
      mask = bits p.payload 32 16 → store = bits p.payload 4 4 → u.injBlock b i mask store f len = none →
      (u.runningAt b i f).length < 4 → (∀ w ∈ u.runningAt b i f, w.clashes mask store = false) → c.contUses mask f = false →
      u.voidOf p.owner = none →
      ∃ s', exec (.window t b i) s = .next s' ∧
        (∃ w, s'.cap b i = { c with wins := c.wins ++ [w] } ∧ w.first = f ∧ w.len = len ∧ w.mask = mask ∧ w.store = store ∧
          w.demods = u.latchDemods b i mask ∧ w.owner = p.owner ∧ w.injected = false ∧ w.trunc = false) ∧
        s'.queue (laneAddr b 4 i) = r ∧ u.sameQueues s' (laneAddr b 4 i) ∧ u.samePages s' [capPg b i] ∧
        s' = { u with queues := s'.queues, touched := s'.touched, caps := s'.caps, regs := s'.regs, seqs := s'.seqs,
                      ev := s'.ev }) ∧
    (∀ h f, c.inj = none → u.findHeld b i c.held [] = some (h, f) → u.voidOf h.owner = none →
      ∃ s', exec (.heldWindowStart t b i) s = .next s' ∧
        (∃ w, s'.cap b i = { c with wins := c.wins ++ [w], held := c.held.erase h } ∧ w.first = f ∧ w.len = h.len ∧
          w.mask = h.mask ∧ w.store = h.store ∧ w.owner = h.owner ∧ w.injected = false) ∧ u.samePages s' [capPg b i] ∧
        s' = { u with caps := s'.caps, touched := s'.touched, regs := s'.regs, seqs := s'.seqs, ev := s'.ev }) ∧
    (u.has b = true → u.fld (grpStat b (7 + i.val)) 0 2 = 0 → u.relockHeld = false → c.inj = none →
      ∃ s', exec (.overrangeSample t b i) s = .next s' ∧
      s'.rd (capPg b i + Off.CAP_OVR_COUNT) = satAdd (u.rd (capPg b i + Off.CAP_OVR_COUNT)) 1 ∧
      s'.bit (capPg b i + Off.CAP_CAP_FLAGS) 3 = true ∧
      (s'.cap b i).wins = c.wins.map (fun w =>
        if w.first ≤ u.now ∧ u.now < u.winEnd w + u.clk.n then { w with ovr := true } else w) ∧
      u.sameRegs s' [capPg b i + Off.CAP_OVR_COUNT, capPg b i + Off.CAP_CAP_FLAGS] ∧
      s' = { u with caps := s'.caps, regs := s'.regs, ev := s'.ev }) ∧
    (u.takes b (capPg b i) → c.inj = none → u.capOn b i = true → u.fenced (capPg b i) = false → u.capFault b i = false →
      (∀ w ∈ c.wins, w.injected = false) → ∃ s', exec (.inject t b i) s = .next s' ∧
      s'.cap b i = { c with
        inj := some (u.granCeil (u.now + 160 * u.clk.n + u.fld (capPg b i + Off.CAP_INJ_DELAY) 0 24)) } ∧
      s' = { u with caps := s'.caps, ev := s'.ev }) ∧
    (∀ x, u.takes b (capPg b i) → c.inj = some x → u.now < x → u.capOn b i = true → u.fenced (capPg b i) = false →
      u.capFault b i = false → ∃ s', exec (.inject t b i) s = .next s' ∧
      s'.rd (capPg b i + Off.CAP_TRIG_MISSED) = satAdd (u.rd (capPg b i + Off.CAP_TRIG_MISSED)) 1 ∧
      s'.bit (capPg b i + Off.CAP_CAP_FLAGS) 1 = true ∧
      u.sameRegs s' [capPg b i + Off.CAP_TRIG_MISSED, capPg b i + Off.CAP_CAP_FLAGS] ∧
      s' = { u with regs := s'.regs, ev := s'.ev }) ∧
    (∀ (low : Bool) (lead trail : PT) (ctl mask store len : Nat), ctl = u.rd (capPg b i + Off.CAP_PWE_CTRL) →
      bitAt ctl 0 = true → low = bitAt ctl 4 → u.capOn b i = true → u.fenced (capPg b i) = false → c.drainAt = none →
        u.draining (capPg b i) = false → u.enabled (stampPg b) = true →
      u.fenced (stampPg b) = false → u.bit (stampPg b + Off.STAMP_IN_CFG (bits ctl 1 3)) 0 = true →
      u.srcUsable b (0, bits ctl 1 3, 0) = true → u.srcUsable b (0, bits ctl 1 3, 1) = true →
      u.rd (capPg b i + Off.CAP_PWE_MIN) * 16 ≤ trail.toNat - lead.toNat →
      trail.toNat - lead.toNat ≤ u.rd (capPg b i + Off.CAP_PWE_MAX) * 16 → u.template b i = (mask, store, len) →
      ∃ s', exec (.pulseWidthEvent t b i ⟨low, lead⟩ trail) s = .next s' ∧
        s'.inFlight (laneAddr b 4 i) = u.inFlight (laneAddr b 4 i) ++
          [{ pt := ptAdd trail.toNat (u.rd (capPg b i + Off.CAP_PWE_DELAY)),
             payload := 1 + store * 2 ^ 4 + len * 2 ^ 8 + mask * 2 ^ 32, owner := none, trig := true }] ∧
        s' = { u with flight := s'.flight, ev := s'.ev })

/-- R212–R219: the window that has ended leaves the input, counted; the result of its demodulator stands in its registers and
its verdict, unless its VID is imported, goes to the fabric with the window's last tick; a window that stores has its record
numbered and written within the input's ring. -/
def Obligations.CaptureResults : Prop :=
  ∀ (s u : State) (t : PT) (b : Fin 8) (i : Fin 4) (samples : List Int) (w : Window), u = s.arrive t →
    (u.cap b i).inj = none → u.endedWin b i = some w →
    ∃ s', exec (.windowEnd t b i samples) s = .next s' ∧ (s'.cap b i).wins = (u.cap b i).wins.erase w ∧
      s'.rd (capPg b i + Off.CAP_WIN_COUNT) = satAdd (u.rd (capPg b i + Off.CAP_WIN_COUNT)) 1 ∧
      (w.demods = [] → w.store ≠ 0 →
        s'.rd (capPg b i + Off.CAP_REC_SEQ) = (u.rd (capPg b i + Off.CAP_REC_SEQ) + 1) % 2 ^ 32) ∧
      (∀ (d : Demod) (r : DemRes), w.demods = [d] → d.d < 16 →
        r = (u.demodResult b w (streamSamples samples w.len) d).2 →
        s'.rd (capPg b i + Off.CAP_DEM_RES_I d.d) = ofSigned 32 r.i ∧
        s'.rd (capPg b i + Off.CAP_DEM_RES_Q d.d) = ofSigned 32 r.q ∧
        (∀ v, r.byte = some v → u.vidImported (b.val * 64 + 16 * i.val + d.d) = false →
          s'.verdicts = u.verdicts ++ [⟨b.val * 64 + 16 * i.val + d.d, v, u.tick (u.winEnd w), u.serial⟩])) ∧
      u.sameBytes s' (mb b (0x4000000 + u.fld (capPg b i + Off.CAP_RING_BASE) 0 23)) (u.rd (capPg b i + Off.CAP_RING_SIZE)) ∧
      s'.queues = u.queues

/-- R219–R222: continuous capture starts from the first granule boundary at or after the peg's PT, or after a command's 160
ticks, and stops likewise; a block that ends is followed by the next, its record numbered; STOP empties the input and leaves no
window that runs beyond now; DRAIN notes its instant; an input that fails is out of service at once. -/
def Obligations.CaptureContinuous : Prop :=
  ∀ (s u : State) (t : PT) (b : Fin 8) (i : Fin 4) (c : CapSt), u = s.arrive t → c = u.cap b i →
    (∀ p r, u.due (laneAddr b 4 i) p r 2 → c.inj = none → c.cont = none → u.voidOf p.owner = none →
      ∃ s', exec (.contStart t b i) s = .next s' ∧
      (∃ k, s'.cap b i = { c with cont := some k } ∧ k.next = u.granCeil p.pt ∧
        k.src = bits (u.rd (capPg b i + Off.CAP_CONT_CFG)) 0 1 ∧ k.stop = none ∧ k.owner = p.owner) ∧
      s'.queue (laneAddr b 4 i) = r ∧ u.sameQueues s' (laneAddr b 4 i) ∧
      s' = { u with queues := s'.queues, touched := s'.touched, caps := s'.caps, seqs := s'.seqs, ev := s'.ev }) ∧
    (∀ p r k, u.due (laneAddr b 4 i) p r 3 → c.inj = none → c.cont = some k → ∃ s', exec (.contStop t b i) s = .next s' ∧
      s'.cap b i = { c with
        cont := some { k with stop := some (min (u.granCeil p.pt) (k.stop.getD (u.granCeil p.pt))) } } ∧
      s'.queue (laneAddr b 4 i) = r ∧ u.sameQueues s' (laneAddr b 4 i) ∧
      s' = { u with queues := s'.queues, touched := s'.touched, caps := s'.caps, seqs := s'.seqs, ev := s'.ev }) ∧
    (u.starts b (capPg b i) → u.capOn b i = true → u.capFault b i = false → c.cont = none →
      ∃ s', exec (.capContStart t b i) s = .next s' ∧
        (∃ k, s'.cap b i = { c with cont := some k } ∧ k.next = u.granCeil (u.now + 160 * u.clk.n) ∧ k.stop = none) ∧
        s' = { u with caps := s'.caps, ev := s'.ev }) ∧
    (∀ k x, u.takes b (capPg b i) → c.cont = some k → x = u.granCeil (u.now + 160 * u.clk.n) →
      ∃ s', exec (.capContStop t b i) s = .next s' ∧
        s'.cap b i = { c with cont := some { k with stop := some (min x (k.stop.getD x)) } } ∧
        s' = { u with caps := s'.caps, ev := s'.ev }) ∧
    (∀ (k : Cont) (samples : List Int), c.inj = none → c.cont = some k → k.src = 0 → 0 < u.clk.n →
      k.next + 160 * u.clk.n ≤ u.now → (∀ x, k.stop = some x → k.next + 160 * u.clk.n ≤ x) →
      ∃ s', exec (.contBlock t b i samples) s = .next s' ∧
        (s'.cap b i).cont.map (fun y => y.next) =
          (if k.stop = some (k.next + 160 * u.clk.n) then none else some (k.next + 160 * u.clk.n)) ∧
        s'.rd (capPg b i + Off.CAP_REC_SEQ) = (u.rd (capPg b i + Off.CAP_REC_SEQ) + 1) % 2 ^ 32 ∧
        u.sameBytes s' (mb b (0x4000000 + u.fld (capPg b i + Off.CAP_RING_BASE) 0 23))
          (u.rd (capPg b i + Off.CAP_RING_SIZE)) ∧ s'.queues = u.queues) ∧
    (u.takes b (capPg b i) → c.inj = none → ∃ s', exec (.capStop t b i) s = .next s' ∧ s'.queue (laneAddr b 4 i) = [] ∧
      (s'.cap b i).held = [] ∧ (∀ w ∈ (s'.cap b i).wins, w.first ≤ u.now ∧ u.winEnd w ≤ u.now) ∧
      u.sameQueues s' (laneAddr b 4 i) ∧ u.sameRegs s' [capPg b i + Off.CAP_DISCARD_COUNT, capPg b i + Off.CAP_CAP_FLAGS] ∧
      s' = { u with queues := s'.queues, touched := s'.touched, caps := s'.caps, regs := s'.regs, ev := s'.ev }) ∧
    (u.takes b (capPg b i) → ∃ s', exec (.capDrain t b i) s = .next s' ∧
      s'.drainAt (drainLane (laneAddr b 4 i)) = some u.now ∧ (s'.cap b i).drainAt = some u.now ∧
      (s'.cap b i).wins = c.wins ∧ s'.queues = u.queues ∧
      s' = { u with caps := s'.caps, drainPt := s'.drainPt, ev := s'.ev }) ∧
    (u.has b = true → u.capFault b i = false → c.inj = none → ∃ s', exec (.inFault t b i) s = .next s' ∧
      s'.capFault b i = true ∧ s'.stands (capPg b i) 0x84 = true ∧ s'.queue (laneAddr b 4 i) = [] ∧
      (s'.cap b i).held = [] ∧ u.samePages s' [capPg b i] ∧ u.sameQueues s' (laneAddr b 4 i) ∧
      s' = { u with queues := s'.queues, touched := s'.touched, caps := s'.caps, regs := s'.regs, ev := s'.ev })

/-- R203–R206, R230: a rotation starts where it may, its cost committed, and is noted where it may not; after two good blocks
the spare takes the role and the slice that leaves goes to CAL, and, calibrated, becomes the spare; a shadowed block within
tolerance counts toward the rotation, and one beyond it starts a vote; the next verdict of a VID reaches a sequencer with its
arrival tick. -/
def Obligations.CaptureSlices : Prop :=
  ∀ (s u : State) (t : PT) (b : Fin 8) (i : Fin 4) (c : CapSt) (st : Nat), u = s.arrive t → c = u.cap b i →
    st = capPg b i + Off.CAP_SLICE_STAT →
    (∀ (d : Instr), (d = .rotate t b i ∧ u.takes b (capPg b i) ∨ d = .rotation t b i ∧ u.has b = true ∧ (c.rotReq = true ∨
        u.bgRuns b = true ∧ c.lastRot + u.fld (capPg b i + Off.CAP_ROT_CTRL) 0 16 * 1000 * usK ≤ u.now)) →
      u.rotOk b i = true → ∃ s', exec d s = .next s' ∧
        s'.cap b i = { c with
          rot := some { role := 1 - c.lastRole, blocks := 0, swapped := false, spared := false, ready := 0 }, rotReq := false } ∧
        s'.bit st 9 = true ∧ s'.committed = (u.committed + 6000) % 2 ^ 64 ∧
        s' = { u with caps := s'.caps, regs := s'.regs, ev := s'.ev }) ∧
    (u.takes b (capPg b i) → u.rotOk b i = false → ∃ s', exec (.rotate t b i) s = .next s' ∧
      s'.cap b i = { c with rotReq := true } ∧ s' = { u with caps := s'.caps, ev := s'.ev }) ∧
    (∀ r k x, c.inj = none → c.rot = some r → r.role < 2 → u.sliceOf b i 2 = some k → u.sliceOf b i r.role = some x →
      2 ≤ r.blocks → r.swapped = false → u.granCeil r.ready ≤ u.now → (∀ w ∈ c.wins, w.injected = false) →
      ∃ s', exec (.sliceSwap t b i) s = .next s' ∧ s'.sliceRole b i x = 3 ∧ s'.sliceRole b i k = r.role ∧
        s'.rd (capPg b i + Off.CAP_ROT_COUNT) = satAdd (u.rd (capPg b i + Off.CAP_ROT_COUNT)) 1 ∧
        s'.raised (calPg b) 4 = true ∧
        (r.spared = false → s'.cap b i = { c with rot := some { r with swapped := true }, lastRole := r.role }) ∧
        (r.spared = true → s'.cap b i = { c with rot := none } ∧ s'.bit st 9 = false) ∧
        s' = { u with caps := s'.caps, regs := s'.regs, ev := s'.ev }) ∧
    (∀ r k, c.rot = some r → r.swapped = true → u.sliceOf b i 3 = some k → u.sliceFailed b i k = false →
      ∃ s', exec (.sliceCalDone t b i) s = .next s' ∧ s'.sliceRole b i k = 2 ∧ s'.bit st 9 = false ∧
        s'.cap b i = { c with rot := none, lastRot := u.now } ∧ s'.committed = u.committed - 6000 ∧
        s' = { u with caps := s'.caps, regs := s'.regs, ev := s'.ev }) ∧
    (∀ (spare other ds : List Int) (sum : Int) (sq tol : Nat), ds = List.zipWith (fun x y => x - y) spare other →
      u.has b = true → (u.sliceOf b i 2).isSome = true →
      u.noSpare b i = false → u.fld (grpStat b (7 + i.val)) 0 2 = 0 → u.relockHeld = false → c.vote = none →
      tol = u.fld (capPg b i + Off.CAP_PLAUS_TOL) 0 8 → sum = (ds.take 4096).foldl (fun a d => a + d) 0 →
      sq = (ds.take 4096).foldl (fun a d => a + d.natAbs * d.natAbs) 0 →
      (sum.natAbs ≤ 4096 * tol → sq ≤ 4096 * tol * tol → ∀ r, c.rot = some r → r.swapped = false →
        ∃ s', exec (.shadowBlock t b i spare other) s = .next s' ∧
          s'.cap b i = { c with rot := some { r with blocks := r.blocks + 1, ready := u.now } } ∧
          s'.rd (capPg b i + Off.CAP_MISMATCH) = ofSigned 16 (clampI (-32768) 32767 (roundDiv sum 256)) +
            min ((isqrt (4 * sq / 16) + 1) / 2) 0xFFFF * 2 ^ 16 ∧
          u.sameRegs s' [capPg b i + Off.CAP_MISMATCH] ∧ s' = { u with caps := s'.caps, regs := s'.regs, ev := s'.ev }) ∧
      ((4096 * tol < sum.natAbs ∨ 4096 * tol * tol < sq) → c.rot = none →
        ∃ s', exec (.shadowBlock t b i spare other) s = .next s' ∧
          (s'.cap b i).vote = some (none, none) ∧ s'.bit st 10 = true ∧ s'.bit st 12 = true ∧
          s'.rd (capPg b i + Off.CAP_MISMATCH_COUNT) = satAdd (u.rd (capPg b i + Off.CAP_MISMATCH_COUNT)) 1 ∧
          (∀ w ∈ (s'.cap b i).wins, w.suspect = true) ∧
          u.sameBytes s' (mb b (0x4000000 + u.fld (capPg b i + Off.CAP_RING_BASE) 0 23))
            (max 1 (u.rd (capPg b i + Off.CAP_RING_SIZE))) ∧
          s' = { u with caps := s'.caps, regs := s'.regs, verdicts := s'.verdicts, mem := s'.mem, ev := s'.ev })) ∧
    (∀ (q : Fin 16) (vid : Fin 512) (k : Nat) (v : VRec), k = seqNo b q → u.nextVerdict k vid = some v → u.has b = true →
      u.bit (bp b 0x18 + Off.CONTINUITY_CONT_STAT) 0 = false →
      u.bit (bp (vid.val / 64) 0x18 + Off.CONTINUITY_CONT_STAT) 0 = false → (u.seq k).awaitWait = false →
      ∃ s', exec (.verdictDelivery t b false q vid false false) s = .next s' ∧
        s'.seq k = { u.seq k with arrivals := (u.seq k).arrivals ++ [{ rec_ := v, tick := u.tick u.now }] } ∧
        s'.verdicts = u.verdicts ∧ u.sameSeqs s' k ∧ s' = { u with seqs := s'.seqs, vseen := s'.vseen, ev := s'.ev })

/-! ### Energy, groups and pace -/

/-- R315–R318, R320, R322, R331: each microsecond of PT the meters and the account take what was used, corrected by the gains
in force, and C gains CAP and never exceeds RESERVOIR; before PT runs the meters alone count; a second report of one
microsecond does nothing. M below 0 for a second raises its event once; a telemetry read moves each gain correction toward
what it measured by at most 1 %, and the third that fails in a row stands; CLR_PEAK clears the peak. -/
def Obligations.EnergyAccount : Prop :=
  ∀ (s u : State) (t : PT), u = s.arrive t →
    (∀ (rails : List Nat) (aux used : Nat),
      used = total ((List.range u.variant.bents).map fun b => total (u.railUse b (railsOf rails b))) + aux * 65536 →
      (u.clk.running = true → u.now / usK = u.account.upd → ∃ s', exec (.creditUpdate t rails aux) s = .next s' ∧
        s' = { u with ev := s'.ev }) ∧
      ((u.clk.running = true → u.now / usK ≠ u.account.upd) → ∃ s', exec (.creditUpdate t rails aux) s = .next s' ∧
        s'.account.used = u.account.used + used ∧
        (∀ b, b < u.variant.bents → (s'.meter b).rails = addLists (u.meter b).rails (u.railUse b (railsOf rails b))) ∧
        (999 ≤ u.account.us → s'.rd (ledgerPg + Off.LEDGER_P_PKG) = (u.account.acc + used) / ujU % 2 ^ 32) ∧
        (u.clk.running = false → s'.creditU = u.creditU) ∧
        (u.clk.running = true → -(2 ^ 63 * (ujU : Int)) ≤ u.nextCredit used →
          s'.creditU = u.nextCredit used ∧ s'.creditU ≤ u.reservoirU ∧ s'.account.upd = u.now / usK) ∧
        s' = { u with regs := s'.regs, ev := s'.ev, meters := s'.meters, account := s'.account, seqs := s'.seqs })) ∧
    (∀ x, u.account.lowAt = some x → u.account.lowDone = false → u.margin < 0 → x + secK ≤ u.now →
      ∃ s', exec (.lowMargin t) s = .next s' ∧
      s'.account = { u.account with lowDone := true } ∧ s'.raised ledgerPg 3 = true ∧
      s' = { u with account := s'.account, ev := s'.ev }) ∧
    (∀ (b : Fin 8) (vs : List (Nat × Nat)) (vaux : BitVec 16) (since : Nat → Nat), u.has b = true →
      u.bit (energyPg b + Off.ENERGY_TELEM_CTRL) 0 = true → u.telemDue b = true →
      (∀ r, since r = ((u.meter b).read.map fun x => (u.meter b).rails.getD r 0 - x.2.getD r 0).getD 0) →
      (∃ s', exec (.telemRead t b true vs vaux) s = .next s' ∧
        s'.meter b = { u.meter b with
          read := some (u.now, (u.meter b).rails),
          gain := (List.range 4).map fun r =>
            gainAfter ((u.meter b).gain.getD r 0) (since r) (u.telemMs b) (vs.getD r (0, 0)).1 (vs.getD r (0, 0)).2,
          fails := 0 } ∧
        (∀ r < 4, ((u.meter b).gain.getD r 0).natAbs ≤ 0x7FFF →
          ((s'.meter b).gain.getD r 0 - (u.meter b).gain.getD r 0).natAbs ≤ 655) ∧
        s'.bit (energyPg b + Off.ENERGY_TELEM_STAT) 0 = true ∧ s'.stands (energyPg b) 0xE0 = false ∧
        (b.val = u.ridge → s'.rd (pkgp 0 + Off.PKG_VAUX_MEAS) = vaux.toNat) ∧
        u.sameRegs s' [energyPg b + Off.ENERGY_TELEM_STAT, pkgp 0 + Off.PKG_VAUX_MEAS] ∧
        s' = { u with regs := s'.regs, ev := s'.ev, meters := s'.meters }) ∧
      (∃ s', exec (.telemRead t b false vs vaux) s = .next s' ∧
        s'.meter b = { u.meter b with
          read := some (u.now, (u.meter b).rails), fails := min ((u.meter b).fails + 1) 3 } ∧
        s'.bit (energyPg b + Off.ENERGY_TELEM_STAT) 0 = false ∧
        ((u.meter b).fails = 2 → s'.stands (energyPg b) 0xE0 = true ∧ s'.raised (energyPg b) 2 = true) ∧
        u.sameRegs s' [energyPg b + Off.ENERGY_TELEM_STAT] ∧
        s' = { u with regs := s'.regs, ev := s'.ev, meters := s'.meters })) ∧
    (∀ b : Fin 8, u.takes b (energyPg b) → ∃ s', exec (.clrPeak t b) s = .next s' ∧
      s'.rd (energyPg b + Off.ENERGY_P_PEAK) = 0 ∧ u.sameRegs s' [energyPg b + Off.ENERGY_P_PEAK] ∧
      s' = { u with regs := s'.regs, ev := s'.ev })

/-- R323–R327, R329, R330: an idle group enters its lower state; one asked to wakes after its exit time, and is then at S0 and
live, as a bent is; the pace loop keeps what its slowest sensor shows, counts shortfalls, and moves VCORE by 10 mV up or 5 mV
down within its limits; an AVSBus that does not answer stands and ends the state of sufficient pace. -/
def Obligations.GroupsAndPace : Prop :=
  ∀ (s u : State) (t : PT) (b : Fin 8), u = s.arrive t →
    (∀ (g : Fin 13) (w : Nat), w = u.groupTarget b g → u.has b = true → u.pwrup b = true → u.bentNow b < 3 → w ≠ 0 →
      u.fld (grpStat b g) 0 2 < w → u.wakeAt b g = none → u.groupIdle b g = true →
      (u.bit (energyPg b + Off.ENERGY_GRP_CTRL g) 3 = true ∨ u.bentWant b ≠ 0 ∨ u.idleLong b g = true) →
      ∃ s', exec (.groupIdle t b g) s = .next s' ∧ s'.rd (grpStat b g) = w ∧ s'.raised (energyPg b) 0 = true ∧
        (∀ a, a ≠ grpStat b g → a ≠ bentStat b → pageOf a ∉ convPages b → s'.reg a = u.reg a) ∧
        s' = { u with regs := s'.regs, dacAt := s'.dacAt, ev := s'.ev }) ∧
    (∀ g : Fin 13, u.has b = true → u.bentNow b < 3 → bitAt (u.meter b).unforced g = true → u.fld (grpStat b g) 0 2 ≠ 0 →
      u.wakeAt b g = none → ∃ s', exec (.groupWake t b g) s = .next s' ∧
        s'.wakeAt b g = some (u.now + exitTime (u.fld (grpStat b g) 0 2)) ∧ s'.bit (grpStat b g) 2 = true ∧
        u.sameRegs s' [grpStat b g] ∧ s' = { u with regs := s'.regs, wakes := s'.wakes, ev := s'.ev }) ∧
    (∀ (g : Fin 14) (x : Nat), u.wakeAt b g = some x → x ≤ u.now → g.val ≠ 13 → ∃ s', exec (.wakeDone t b g) s = .next s' ∧
      s'.wakeAt b g = none ∧ s'.rd (grpStat b g) = 8 ∧ s'.raised (energyPg b) 0 = true ∧
      (∀ a, a ≠ grpStat b g → a ≠ bentStat b → pageOf a ∉ convPages b → s'.reg a = u.reg a) ∧
      s' = { u with regs := s'.regs, dacAt := s'.dacAt, wakes := s'.wakes, meters := s'.meters, ev := s'.ev }) ∧
    (∀ x, u.wakeAt b 13 = some x → x ≤ u.now → ∃ s', exec (.wakeDone t b 13) s = .next s' ∧ s'.wakeAt b 13 = none ∧
      s'.rd (bentStat b) = 0 ∧ s'.raised (energyPg b) 0 = true ∧ s'.mem = u.mem ∧ s'.queues = u.queues) ∧
    (∀ (counts : List (BitVec 16)) (avs ok : Bool) (mv : BitVec 16) (low : Nat), u.has b = true →
      (u.clk.running = true → u.now / usK ≠ (u.meter b).paced) →
      low = ((List.range 8).map fun i => (counts.getD i 0).toNat).foldl min 0xFFFF →
      ok = (avs && decide (u.rd (pacePg b + Off.PACE_PACE_MIN) ≤ low)) →
      ∃ s', exec (.paceSample t b counts avs mv) s = .next s' ∧ s'.rd (pacePg b + Off.PACE_PACE_NOW) = low ∧
        s'.bit (pacePg b + Off.PACE_PACE_STAT) 0 = ok ∧ s'.bit (pacePg b + Off.PACE_PACE_STAT) 3 = avs ∧
        s'.stands (pacePg b) 0xE3 = (!ok) ∧ (avs = true → s'.rd (pacePg b + Off.PACE_VCORE_MEAS) = mv.toNat) ∧
        s'.rd (pacePg b + Off.PACE_SHORT_TIME) =
          satAdd (u.rd (pacePg b + Off.PACE_SHORT_TIME)) (if ok then 0 else 1) ∧
        (u.bit (pacePg b + Off.PACE_PACE_STAT) 0 = true → ok = false → s'.raised (pacePg b) 0 = true ∧
          s'.rd (pacePg b + Off.PACE_SHORT_COUNT) = satAdd (u.rd (pacePg b + Off.PACE_SHORT_COUNT)) 1) ∧
        u.samePages s' [pacePg b] ∧ s' = { u with regs := s'.regs, ev := s'.ev, meters := s'.meters }) ∧
    (u.paceLoop b = true → (∀ x, (u.meter b).raised = some x → x + 10 * usK ≤ u.now) →
      100 * u.rd (pacePg b + Off.PACE_PACE_NOW) < u.paceTarget b → ∃ s', exec (.paceRaise t b) s = .next s' ∧
        s'.rd (pacePg b + Off.PACE_VCORE_SET) =
          min (u.rd (pacePg b + Off.PACE_VMAX)) (u.rd (pacePg b + Off.PACE_VCORE_SET) + 10) ∧
        s'.meter b = { u.meter b with raised := some u.now } ∧ u.sameRegs s' [pacePg b + Off.PACE_VCORE_SET] ∧
        s' = { u with regs := s'.regs, ev := s'.ev, meters := s'.meters }) ∧
    (∀ x, u.paceLoop b = true → (u.meter b).above = some x → x + 1000 * usK ≤ u.now →
      ∃ s', exec (.paceLower t b) s = .next s' ∧ s'.rd (pacePg b + Off.PACE_VCORE_SET) =
          max (u.rd (pacePg b + Off.PACE_VMIN)) (u.rd (pacePg b + Off.PACE_VCORE_SET) - 5) ∧
        s'.meter b = { u.meter b with above := some u.now } ∧ u.sameRegs s' [pacePg b + Off.PACE_VCORE_SET] ∧
        s' = { u with regs := s'.regs, ev := s'.ev, meters := s'.meters }) ∧
    (u.has b = true → ∃ s', exec (.avsFault t b) s = .next s' ∧ s'.bit (pacePg b + Off.PACE_PACE_STAT) 0 = false ∧
      s'.bit (pacePg b + Off.PACE_PACE_STAT) 3 = false ∧ s'.stands (pacePg b) 0xE4 = true ∧
      s'.stands (pacePg b) 0xE3 = true ∧ s'.raised (pacePg b) 1 = true ∧
      u.sameRegs s' [pacePg b + Off.PACE_PACE_STAT, pacePg b + Off.PACE_SHORT_COUNT] ∧
      s' = { u with regs := s'.regs, ev := s'.ev })


/-! ### The page header -/

/-- R113, R117, R369, R371, R399, R403: PAGE_CTRL. ENABLE set starts rest-level sensing on channels with a mode, and does
nothing where it is fixed; a fenced page refuses it with 0x05 and a locked page takes nothing, with 0x04; ENABLE cleared
disables the page and stops its edge channels; DRAIN holds the instant it was written; FENCE and LOCK raise their events; HCLR
clears the page's latched codes, locked or not. -/
def Obligations.PageControl : Prop :=
  ∀ (s u : State) (t : PT) (pg : Page) (r : PageRow) (a : Nat), u = s.arrive t → a = pageBase pg →
    pageRow? u.variant a = some r →
    (∀ c, (c = .pageEnable t pg ∨ c = .pageDisable t pg ∨ c = .pageDrain t pg ∨ c = .pageFence t pg ∨ c = .pageLock t pg ∨
        c = .pageSelftest t pg) → u.locked a = true →
      ∃ s', exec c s = .next s' ∧ s'.isLatched a 0x04 = true ∧ s' = { u with ev := s'.ev }) ∧
    (∀ c, (c = .pageEnable t pg ∨ c = .pageSelftest t pg) → u.locked a = false → u.fenced a = true →
      ∃ s', exec c s = .next s' ∧ s'.isLatched a 0x05 = true ∧ s' = { u with ev := s'.ev }) ∧
    (u.locked a = false → u.fenced a = false → r.fixed = false → ∃ s', exec (.pageEnable t pg) s = .next s' ∧
      s'.enabled a = true ∧ u.samePages s' [a] ∧
      (∀ b c, pg = .bent b c → 4 ≤ c.val → c.val < 8 → ∀ i, i < 8 → ∀ ch, ch = (c.val - 4) * 8 + i → u.chMode b ch ≠ 0 →
        u.chLive b ch = false → (u.edge b ch).senseEnd = none → u.bit (chStat b ch) 13 = false → u.bit (chCtrl b ch) 8 = false →
        (s'.edge b ch).senseEnd = some (u.now + 2 * usK) ∧ (s'.edge b ch).senseLive = true) ∧
      s' = { u with regs := s'.regs, ev := s'.ev, edges := s'.edges, dacHold := s'.dacHold, dacAt := s'.dacAt }) ∧
    (r.fixed = true → u.locked a = false →
      (u.fenced a = false → ∃ s', exec (.pageEnable t pg) s = .next s' ∧ s' = { u with ev := s'.ev }) ∧
      ∃ s', exec (.pageDisable t pg) s = .next s' ∧ s' = { u with ev := s'.ev }) ∧
    (u.locked a = false → r.fixed = false → u.enabled a = true →
      (pageNo a < 0x20 → (pageNo a ≠ 0x1B ∨ u.worker = false) → ∃ s', exec (.pageDisable t pg) s = .next s' ∧
        s'.enabled a = false ∧
        ∀ b c, pg = .bent b c → 4 ≤ c.val → c.val < 8 → ∀ i, i < 8 → ∀ ch, ch = (c.val - 4) * 8 + i →
          u.chLive b ch = true → s'.chLive b ch = false ∧ s'.queue (laneAddr b 0 ch) = []) ∧
      (∀ (b : Fin 8) (q : Fin 16), a = seqPg (seqNo b q) → (u.seq (seqNo b q)).phase = .halted → (u.seq (seqNo b q)).owed = [] →
        ∃ s', exec (.pageDisable t pg) s = .next s' ∧ s'.enabled a = false ∧ u.sameRegs s' [a + Off.PG_PAGE_CTRL] ∧
          s' = { u with regs := s'.regs, ev := s'.ev })) ∧
    (u.locked a = false → u.draining a = false → ∃ s', exec (.pageDrain t pg) s = .next s' ∧ s'.draining a = true ∧
      ((∃ b p, pg = .bent b p) → s'.drainAt (drainPage a) = some u.now)) ∧
    (∀ b p, pg = .bent b p → r.fence = true → u.locked a = false → u.fenced a = false →
      ∃ s', exec (.pageFence t pg) s = .next s' ∧ s'.fenced a = true ∧ s'.raised (bp b 0) 6 = true ∧
        ((p.val = 0x16 ∨ p.val = 0x17 ∨ p.val = 0x1C) → u.sameRegs s' [a + Off.PG_PAGE_CTRL] ∧
          s' = { u with regs := s'.regs, ev := s'.ev })) ∧
    (u.locked a = false → ∃ s', exec (.pageLock t pg) s = .next s' ∧ s'.locked a = true ∧
      (∀ b p, pg = .bent b p → s'.raised (bp b 0) 7 = true) ∧ u.sameRegs s' [a + Off.PG_PAGE_CTRL] ∧
      s' = { u with regs := s'.regs, ev := s'.ev }) ∧
    (∃ s', exec (.hclr t pg) s = .next s' ∧ (∀ c, c < 256 → s'.isLatched a c = false) ∧
      (∀ k, k / 256 ≠ a → setHas s'.ev.latched k = setHas u.ev.latched k) ∧ s'.ev.standing = u.ev.standing ∧
      s' = { u with ev := s'.ev })

/-- R117, R121, R191, R221, R289, R369 and the refusals of the self-tests: a self-test starts, or is refused with its page's
code; its end clears both bits and shows the result; a page on which nothing is left becomes DRAINED, and its edge channels
leave DRAINING. -/
def Obligations.SelftestsAndDrains : Prop :=
  ∀ (s u : State) (t : PT) (pg : Page) (r : PageRow) (a : Nat), u = s.arrive t → a = pageBase pg →
    pageRow? u.variant a = some r →
    (u.locked a = false → u.fenced a = false →
      (u.testRefused a r.kind = none → ∃ s', exec (.pageSelftest t pg) s = .next s' ∧
        s'.bit (a + Off.PG_PAGE_CTRL) 3 = true ∧ s'.bit (a + Off.PG_PAGE_STAT) 3 = true ∧
        u.sameRegs s' [a + Off.PG_PAGE_CTRL, a + Off.PG_PAGE_STAT] ∧ s' = { u with regs := s'.regs, ev := s'.ev }) ∧
      (∀ c, u.testRefused a r.kind = some c → ∃ s', exec (.pageSelftest t pg) s = .next s' ∧ s'.isLatched a c = true ∧
        s' = { u with ev := s'.ev }) ∧
      (r.kind = .edge → u.drained a = false → u.testRefused a r.kind = some 0x44) ∧
      (r.kind = .cap → u.drained a = false → u.testRefused a r.kind = some 0x83) ∧
      (r.kind = .time → u.testRefused a r.kind = none)) ∧
    (∀ pass, u.bit (a + Off.PG_PAGE_STAT) 3 = true → ∃ s', exec (.selftestDone t pg pass) s = .next s' ∧
      s'.bit (a + Off.PG_PAGE_CTRL) 3 = false ∧ s'.bit (a + Off.PG_PAGE_STAT) 3 = false ∧
      s'.bit (a + Off.PG_PAGE_STAT) 4 = (!pass) ∧ s'.stands a 0x06 = (!pass) ∧
      u.sameRegs s' [a + Off.PG_PAGE_CTRL, a + Off.PG_PAGE_STAT] ∧ s' = { u with regs := s'.regs, ev := s'.ev }) ∧
    (∀ q, pg = .pkg q → u.draining a = true → ∃ s', exec (.drainDone t pg) s = .next s' ∧ s'.drained a = true ∧
      u.sameRegs s' [a + Off.PG_PAGE_STAT] ∧ s' = { u with regs := s'.regs, ev := s'.ev }) ∧
    (∀ b p, pg = .bent b p → u.drainAsked b p = true → u.pageIdle b p = true →
      (∀ l ∈ pageLanes b p, u.laneOwed l = false ∧ (laneKind l = 0 → u.chMode b (laneIdx l) ≠ 3 ∧
        ∀ e, e = (u.edge b (laneIdx l)).upto (u.chRest b (laneIdx l)) u.now → e.restAt = none ∧ e.onAt ≤ u.now ∧
          (e.base = u.chRest b (laneIdx l) ∨ e.spaced u.now = true))) →
      ∃ s', exec (.drainDone t pg) s = .next s' ∧ s'.drained a = true ∧
        (∀ ch, ch < 32 → 4 ≤ p.val → p.val < 8 → ch / 8 = p.val - 4 → ((u.edge b ch).drainAt).isSome = true →
          s'.bit (chStat b ch) 5 = false ∧ (s'.edge b ch).drainAt = none) ∧
        (pageLanes b p = [] → u.sameRegs s' [a + Off.PG_PAGE_STAT]) ∧ u.samePages s' [a] ∧
        s' = { u with regs := s'.regs, ev := s'.ev, edges := s'.edges, tones := s'.tones, caps := s'.caps })

/-- R17, R124, R370, R378 and the scopes of CLR_COUNTS: EVT_PEND clears RAW; EVT_FORCE raises; EVT_EN takes the bits that have a
source; the end of a holdoff sends the message that fell within it; CLR_COUNTS clears the page's counts; the scrubber counts a
corrected error and poisons a word with an uncorrectable one. -/
def Obligations.PageEvents : Prop :=
  ∀ (s u : State) (t : PT) (pg : Page) (r : PageRow) (a : Nat) (hi : Bool) (v : Word), u = s.arrive t → a = pageBase pg →
    pageRow? u.variant a = some r →
    (∃ s', exec (.evtPendClear t pg hi v) s = .next s' ∧ (∀ i ∈ eventBits r hi v, s'.raised a i = false) ∧
      (∀ k, (∀ i ∈ eventBits r hi v, k ≠ a * 64 + i) → setHas s'.ev.raw k = setHas u.ev.raw k) ∧
      s' = { u with ev := s'.ev }) ∧
    (u.locked a = false → ∃ s', exec (.evtForce t pg hi v) s = .next s' ∧
      (∀ i ∈ eventBits r hi v, s'.raised a i = true) ∧
      (∀ k, (∀ i ∈ eventBits r hi v, k ≠ a * 64 + i) → setHas s'.ev.raw k = setHas u.ev.raw k) ∧
      s' = { u with ev := s'.ev }) ∧
    (∀ e, u.locked a = false → e = a + (if hi then Off.PG_EVT_EN_HI else Off.PG_EVT_EN_LO) →
      ∃ s', exec (.evtEnWrite t pg hi v) s = .next s' ∧
        (∀ i, i < 32 → s'.bit e i = (bitAt v.toNat i && decide (i + (if hi then 32 else 0) < r.events))) ∧
        u.sameRegs s' [e] ∧ s' = { u with regs := s'.regs, ev := s'.ev }) ∧
    (∀ part_, u.locked a = false → ∃ s', exec (.clrCounts t pg part_) s = .next s' ∧
      (∀ o ∈ countRegs r.kind (part_.map fun x => x.val), s'.rd (a + o) = 0) ∧
      (r.kind = .events → part_ = none → s'.ev.lost = 0) ∧
      (isPkg a = true ∨ pageNo a < 8 ∨ 0xF ≤ pageNo a →
        u.sameRegs s' ((countRegs r.kind (part_.map fun x => x.val)).map fun o => a + o)) ∧ u.samePages s' [a] ∧
      s' = { u with regs := s'.regs, dacAt := s'.dacAt, ev := s'.ev }) ∧
    (∀ (w : Fin 1152) (h : Holdoff), w.val ≠ 0 → mapGet (fun _ => none) u.ev.holdoff w = some h → h.until_ ≤ u.now →
      ∃ s', exec (.holdoffExpiry t w) s = .next s' ∧
        (h.again = false → mapGet (fun _ => none) s'.ev.holdoff w = none ∧
          mapGet (fun _ => 0) s'.ev.sent w = mapGet (fun _ => 0) u.ev.sent w) ∧
        (h.again = true → u.ev.msixWord (4 * w + 3) % 2 = 0 →
          mapGet (fun _ => 0) s'.ev.sent w = mapGet (fun _ => 0) u.ev.sent w + 1) ∧
        (h.again = true → u.ev.msixWord (4 * w + 3) % 2 = 1 → setHas s'.ev.pba w = true) ∧ s' = { u with ev := s'.ev }) ∧
    (∀ (b : Fin 8) (o : Fin 0x80000000), u.memHas (mb b o) = true → u.poisoned (mb b o) 1 = false →
      (∃ s', exec (.scrub t b o .good) s = .next s' ∧ s' = { u with ev := s'.ev }) ∧
      (∃ s', exec (.scrub t b o .corrected) s = .next s' ∧
        s'.rd (conPg b + Off.CONTINUITY_ECC_CORR_COUNT) = satAdd (u.rd (conPg b + Off.CONTINUITY_ECC_CORR_COUNT)) 1 ∧
        s'.raised (conPg b) 0 = true ∧ u.sameRegs s' [conPg b + Off.CONTINUITY_ECC_CORR_COUNT] ∧
        s' = { u with regs := s'.regs, ev := s'.ev }) ∧
      (∃ s', exec (.scrub t b o .uncorrectable) s = .next s' ∧
        s'.rd (conPg b + Off.CONTINUITY_ECC_UNCORR_COUNT) = satAdd (u.rd (conPg b + Off.CONTINUITY_ECC_UNCORR_COUNT)) 1 ∧
        s'.poisoned (mb b o) 1 = true ∧ s'.stands (conPg b) 0xD0 = true ∧ s'.raised (conPg b) 1 = true ∧
        u.sameRegs s' [conPg b + Off.CONTINUITY_ECC_UNCORR_COUNT, conPg b + Off.CONTINUITY_POISON_ADDR] ∧
        s' = { u with regs := s'.regs, ev := s'.ev, poison := s'.poison }))

/-! ### Pegs on their way to a lane -/

/-- R43, R44, R45, R304, R447, R448: a peg reaches its lane. A full lane leaves it on its way; a fenced bent discards what
other bents send; a fenced page discards it; a lane that is enabled, in service and awake, and does not drain, takes a peg it
accepts into its queue in PT order if its lead is long enough, and drops it under DROP, with the counts and the event, if it is
not. -/
def Obligations.PegAcceptance : Prop :=
  ∀ (s u : State) (t : PT) (b : Fin 8) (kind : Fin 8) (idx : Fin 256) (read : PegRead) (live : PT) (lane : Nat)
      (p : Peg) (r : List Peg), u = s.arrive t → lane = laneAddr b kind idx → u.laneValid lane = true →
        u.inFlight lane = p :: r →
    (∀ i, p.owner = some i → i.seq / 16 ≠ b → u.bit (conPg b + Off.CONTINUITY_CONT_STAT) 0 = true →
      ∃ s', exec (.pegAccept t b kind idx read live) s = .next s' ∧
        s'.rd (conPg (i.seq / 16) + Off.CONTINUITY_FENCED_PEG_COUNT) =
          satAdd (u.rd (conPg (i.seq / 16) + Off.CONTINUITY_FENCED_PEG_COUNT)) 1 ∧
        s'.inFlight lane = r ∧ s'.queues = u.queues ∧
        u.sameRegs s' [conPg (i.seq / 16) + Off.CONTINUITY_FENCED_PEG_COUNT] ∧
        s' = { u with regs := s'.regs, ev := s'.ev, flight := s'.flight, seqs := s'.seqs }) ∧
    ((read = .parity ∧ p.fromBent lane = b ∨ (∃ word, read = .whole .good word) ∧
        (p.fromBent lane = b ∨ u.bit (conPg b + Off.CONTINUITY_CONT_STAT) 0 = false)) →
      (u.laneFull lane = true → ∃ s', exec (.pegAccept t b kind idx read live) s = .next s' ∧
        s' = { u with ev := s'.ev }) ∧
      (u.fenced (lanePg lane) = true → kind.val ≠ 7 → ∃ s', exec (.pegAccept t b kind idx read live) s = .next s' ∧
        s'.inFlight lane = r ∧
        s' = { u with regs := s'.regs, ev := s'.ev, flight := s'.flight, seqs := s'.seqs }) ∧
      (∀ q, u.laneFull lane = false → (u.fenced (lanePg lane) = false ∨ kind.val = 7) → u.laneEnabled lane = true →
        u.laneFault lane = false → u.drainRefuses lane p = false → u.checkPeg lane p = .inr q → q.poisoned lane = false →
        u.unwoken lane = false →
        (∀ g, u.laneGroup lane = some g → u.fld (grpStat b g) 0 2 = 0 ∧ u.wakeAt b g = none) →
        (∀ x ∈ u.queue lane, x.pt ≠ q.pt) →
        (u.clk.o + (u.tick u.now + laneLead lane) * u.clk.n ≤ q.pt → u.liveAt lane live.toNat ≤ q.pt →
          ∃ s', exec (.pegAccept t b kind idx read live) s = .next s' ∧
            s'.queue lane = insertPeg (u.queue lane) q ∧ u.sameQueues s' lane ∧ s'.inFlight lane = r ∧
            (∀ a, (∀ g, u.laneGroup lane = some g → a ≠ grpStat b g) → s'.reg a = u.reg a) ∧
            s' = { u with regs := s'.regs, ev := s'.ev, flight := s'.flight, queues := s'.queues, caps := s'.caps }) ∧
        ((q.pt < u.clk.o + (u.tick u.now + laneLead lane) * u.clk.n ∨ q.pt < u.liveAt lane live.toNat) →
          u.latePolicy lane = 0 → ∃ s', exec (.pegAccept t b kind idx read live) s = .next s' ∧
            s'.queues = u.queues ∧ s'.inFlight lane = r ∧ s'.raised (bp b 3) 4 = true ∧
            s'.rd (bp b 3 + Off.TIME_LATE_DROP_COUNT) = satAdd (u.rd (bp b 3 + Off.TIME_LATE_DROP_COUNT)) 1 ∧
            s' = { u with regs := s'.regs, ev := s'.ev, flight := s'.flight, caps := s'.caps, seqs := s'.seqs })))

/-! ### Register accesses -/

/-- R5, R6, R25, R367, R378, R399: a write with a byte enable missing changes nothing and latches 0x08, and a write to a locked
page 0x04; an RW register takes the bits a write reaches, with the fields that pass their tests; an RS register stages them and
stays in force as it was; a W1C register clears the bits written 1; a read-only register ignores it; the hold registers and the
latches of PT-valued registers. Flags of converters that are cleared show first what has clipped until then (log entry 176). -/
def Obligations.RegisterAccess : Prop :=
  ∀ (s u : State) (t : PT) (addr : Fin 0x4000000) (v : Word) (a : Nat) (pr : PageRow), u = s.arrive t →
    a = addr.val / 4 * 4 → (a < 0x3000000) → pageRow? u.variant a = some pr →
    (∃ s', exec (.registerWrite t addr false v) s = .next s' ∧ s'.isLatched (pageOf a) 0x08 = true ∧
      s' = { u with ev := s'.ev }) ∧
    (∀ r, regRow? u.variant a = some r → r.own = false → u.locked (pageOf a) = true → lockFree pr.kind (a % 0x1000) = false →
      ∃ s', exec (.registerWrite t addr true v) s = .next s' ∧ s'.isLatched (pageOf a) 0x04 = true ∧
        s' = { u with ev := s'.ev }) ∧
    (∀ r, regRow? u.variant a = some r → r.own = false → u.locked (pageOf a) = false →
      (r.acc = .rw → pr.kind ≠ .events → pr.kind ≠ .time → pr.kind ≠ .continuity → pr.kind ≠ .foreman →
        ∃ s', exec (.registerWrite t addr true v) s = .next s' ∧ s'.rd a = (r.take (u.rd a) v.toNat).1 % 2 ^ 32 ∧
          ((r.take (u.rd a) v.toNat).2 = true → s'.isLatched (pageOf a) 0x01 = true) ∧ u.sameRegs s' [a] ∧
          s' = { u with regs := s'.regs, ev := s'.ev }) ∧
      (r.acc = .rs → pr.kind ≠ .sill → ∃ s', exec (.registerWrite t addr true v) s = .next s' ∧
        (s'.staged a).toNat = (v.toNat &&& r.wmask) + ((u.staged a).toNat &&& (0xFFFFFFFF ^^^ r.wmask)) ∧
        (∀ c, s'.reg c = u.reg c) ∧ s' = { u with shadow := s'.shadow, dirty := s'.dirty, ev := s'.ev }) ∧
      (∀ x, r.acc = .w1c → x = u.syncPage (bentOf a) (pageNo a) u.now →
        (pr.kind ≠ .tone → pr.kind ≠ .probe → pr.kind ≠ .flux → x = u) ∧
        ∃ s', exec (.registerWrite t addr true v) s = .next s' ∧
        s'.rd a = x.rd a &&& (0xFFFFFFFF ^^^ v.toNat) ∧ x.sameRegs s' [a] ∧ u.samePages s' [pageOf a] ∧
        s' = { u with regs := s'.regs, dacAt := s'.dacAt, ev := s'.ev }) ∧
      (r.acc = .ro → ∃ s', exec (.registerWrite t addr true v) s = .next s' ∧ s' = { u with ev := s'.ev })) ∧
    (∀ w lo i, ptWord pr.kind (a % 0x1000) = some (lo, i) → u.locked (pageOf a) = false →
      (i ≠ 0 → ∃ s', exec (.ptHoldWrite t w addr v) s = .next s' ∧
        s'.held w a = v.toNat % (if i = 2 then 2 ^ 16 else 2 ^ 32) ∧ s' = { u with hold := s'.hold, ev := s'.ev }) ∧
      (∀ r, i = 0 → regRow? u.variant a = some r →
        (r.acc = .rs → ∃ s', exec (.ptLoWrite t w addr v) s = .next s' ∧ s'.staged a = v ∧
          (s'.staged (a + 4)).toNat = u.held w (a + 4) ∧ (s'.staged (a + 8)).toNat = u.held w (a + 8) ∧
          s' = { u with shadow := s'.shadow, dirty := s'.dirty, ev := s'.ev }) ∧
        (r.acc = .rw → ∃ s', exec (.ptLoWrite t w addr v) s = .next s' ∧ s'.reg a = v ∧
          s'.rd (a + 4) = u.held w (a + 4) ∧ s'.rd (a + 8) = u.held w (a + 8) ∧
          (∀ x, x ∉ [a, a + 4, a + 8] →
            (x = pageOf a + Off.TIME_ALARM_CTRL → pr.kind ≠ .time ∨ u.bit x 0 = false) → s'.reg x = u.reg x) ∧
          s' = { u with regs := s'.regs, ev := s'.ev }))) ∧
    (∀ w r, regRow? u.variant a = some r → ∃ s', exec (.readLatch t w addr) s = .next s' ∧
      (∀ i, i < r.latches → (mapGet (fun _ => (0 : Word)) s'.latch (ownKey w (a + 4 * (i + 1)))).toNat =
        u.value (a + 4 * (i + 1)) % 2 ^ 32) ∧ s' = { u with latch := s'.latch, ev := s'.ev })

/-- R17, R18, R368: a host write stores its bytes where a memory is and nowhere else; a write of part of a poisoned word is
discarded, and a write of all of it clears the mark; offsets that no memory holds read 0 and ignore writes; a read of a word
counts a corrected error and poisons the word of an uncorrectable one. -/
def Obligations.Bar2Access : Prop :=
  ∀ (s u : State) (t : PT) (addr : Fin 0x400000000), u = s.arrive t →
    (∀ data, (∀ k, k < data.length → u.poisoned (addr + k) 1 = false) → ∃ s', exec (.bar2Write t addr data) s = .next s' ∧
      (∀ k, k < data.length → s'.memByte (addr + k) =
        if u.memHas (addr + k) then data.getD k 0 else u.memByte (addr + k)) ∧
      u.sameBytes s' addr data.length ∧ s'.poison = u.poison ∧ s'.queues = u.queues) ∧
    (∀ data, addr.val % 8 = 0 → data.length = 8 → u.memHas addr = true → ∃ s', exec (.bar2Write t addr data) s = .next s' ∧
      (∀ k, k < 8 → s'.memByte (addr + k) = data.getD k 0) ∧ s'.poisoned addr 1 = false ∧ u.sameBytes s' addr 8) ∧
    (∀ data, 0 < data.length → addr.val % 8 + data.length ≤ 8 → data.length < 8 → u.poisoned addr 1 = true →
      ∃ s', exec (.bar2Write t addr data) s = .next s' ∧ (∀ x, s'.memByte x = u.memByte x) ∧ s'.poison = u.poison) ∧
    (u.memHas addr = false → u.bar2Word addr = (List.replicate 8 0, false)) ∧
    (u.memHas addr = true → u.poisoned addr 1 = false →
      (∃ s', exec (.bar2Read t addr .good) s = .next s' ∧ s' = { u with ev := s'.ev }) ∧
      (∃ s', exec (.bar2Read t addr .corrected) s = .next s' ∧
        s'.rd (conPg (addr.val / 0x80000000) + Off.CONTINUITY_ECC_CORR_COUNT) =
          satAdd (u.rd (conPg (addr.val / 0x80000000) + Off.CONTINUITY_ECC_CORR_COUNT)) 1 ∧
        s'.raised (conPg (addr.val / 0x80000000)) 0 = true ∧
        u.sameRegs s' [conPg (addr.val / 0x80000000) + Off.CONTINUITY_ECC_CORR_COUNT] ∧
        s' = { u with regs := s'.regs, ev := s'.ev }) ∧
      (∃ s', exec (.bar2Read t addr .uncorrectable) s = .next s' ∧ (s'.bar2Word addr).2 = true ∧
        s'.stands (conPg (addr.val / 0x80000000)) 0xD0 = true ∧ s'.mem = u.mem ∧
        s' = { u with regs := s'.regs, ev := s'.ev, poison := s'.poison }))

/-! ### Commits -/

/-- R6, R21, R144, R372, R373: a request of a reserved kind, of more than four that wait, of timing-affecting fields at once,
or of P registers without a gate is refused with its code; any other waits with its snapshot, or, as stated here for the CAL,
SHIMSTORE, CONTINUITY and PURLIN pages, applies at once: each staged field that passes its test takes effect, PAGE_SEQ counts
and COMMIT_STAT holds the boundary; CANCEL discards what waits, and what it staged belongs to the next request. -/
def Obligations.PageCommits : Prop :=
  ∀ (s u : State) (t : PT) (pg : Page) (pr : PageRow) (a : Nat) (snap : List Staged), u = s.arrive t → a = pageBase pg →
    pageRow? u.variant a = some pr → snap = u.pageSnap a pr.kind →
    (u.locked a = false →
      (∀ kind : Fin 16,
        (4 < kind.val → ∃ s', exec (.commit t pg kind) s = .next s' ∧ s'.isLatched a 0x01 = true ∧
          s' = { u with ev := s'.ev }) ∧
        (kind.val < 3 → u.hasLocked a = true → stagesP pr.kind snap = true →
          ∃ s', exec (.commit t pg kind) s = .next s' ∧ s'.isLatched a 0x54 = true ∧ s' = { u with ev := s'.ev }) ∧
        (kind.val = 0 → u.hasLocked a = true → stagesP pr.kind snap = false → u.changesTiming snap = true →
          ∃ s', exec (.commit t pg kind) s = .next s' ∧ s'.isLatched a 0x02 = true ∧ s' = { u with ev := s'.ev }) ∧
        (kind.val ≤ 4 → u.hasLocked a = true → (stagesP pr.kind snap = false ∨ 3 ≤ kind.val) →
          (kind.val ≠ 0 ∨ u.changesTiming snap = false) →
          (4 ≤ (u.pendingOf a).length → ∃ s', exec (.commit t pg kind) s = .next s' ∧ s'.isLatched a 0x03 = true ∧
            s' = { u with ev := s'.ev }) ∧
          ((u.pendingOf a).length < 4 → (kind.val ≠ 0 ∨ u.pendingOf a ≠ []) →
            ∃ s', exec (.commit t pg kind) s = .next s' ∧
              s'.commits = u.commits ++ [{ page := a, kind := kind, at_ := u.now, from_ := 0, snap := snap }] ∧
              (∀ c, (setHas s'.dirty c = true ↔ setHas u.dirty c = true ∧ pageOf c ≠ a)) ∧
              s' = { u with commits := s'.commits, dirty := s'.dirty, ev := s'.ev })) ∧
        (∀ x, (pr.kind = .cal ∨ pr.kind = .shimstore ∨ pr.kind = .continuity ∨ pr.kind = .purlin) →
          (u.hasLocked a = false ∧ kind.val ≤ 4 ∧ x = 0 ∨
            u.hasLocked a = true ∧ kind.val = 0 ∧ u.changesTiming snap = false ∧ u.pendingOf a = [] ∧ x = u.now) →
          ∃ s', exec (.commit t pg kind) s = .next s' ∧
            (∀ e ∈ snap, ∀ r, regRow? u.variant e.addr = some r →
              s'.rd e.addr = (r.take (u.rd e.addr) e.val.toNat).1 % 2 ^ 32 ∧
              ((r.take (u.rd e.addr) e.val.toNat).2 = true → s'.isLatched a 0x01 = true)) ∧
            s'.rd (a + Off.PG_PAGE_SEQ) = (u.rd (a + Off.PG_PAGE_SEQ) + 1) % 2 ^ 32 ∧
            s'.rd (a + Off.PG_COMMIT_STAT) = x % 2 ^ 32 ∧ s'.commits = u.commits ∧
            u.sameRegs s' ((a + Off.PG_PAGE_SEQ) :: (a + Off.PG_COMMIT_STAT) :: snap.map fun e => e.addr) ∧
            s' = { u with regs := s'.regs, dirty := s'.dirty, ev := s'.ev })) ∧
      ((∀ e ∈ u.seqs, (u.seq e.1).phase ≠ .gateHold) → ∃ s', exec (.commitCancel t pg) s = .next s' ∧
        u.pendingOf a = u.commits.filter (fun c => c.page == a) ∧ s'.pendingOf a = [] ∧
        (∀ c, c.page ≠ a → (c ∈ s'.commits ↔ c ∈ u.commits)) ∧
        (∀ x, (setHas s'.dirty x = true ↔ setHas u.dirty x = true ∨ x ∈ u.heldWrites a)) ∧
        s' = { u with commits := s'.commits, dirty := s'.dirty, ev := s'.ev })) ∧
    (u.pendingOf a = [] → ∃ s', exec (.commitApply t pg) s = .next s' ∧ s' = { u with ev := s'.ev }) ∧
    (∀ c q x, u.pendingOf a = c :: q → (pr.kind = .cal ∨ pr.kind = .shimstore ∨ pr.kind = .continuity ∨ pr.kind = .purlin) →
      c.kind ≤ 2 → c.snap = [] → u.boundaryOf c = some x → ∃ s', exec (.commitApply t pg) s = .next s' ∧
        (s'.pendingOf a).length + 1 = (u.pendingOf a).length ∧ (∀ d ∈ s'.pendingOf a, d.from_ = x) ∧
        s'.rd (a + Off.PG_PAGE_SEQ) = (u.rd (a + Off.PG_PAGE_SEQ) + 1) % 2 ^ 32 ∧
        s'.rd (a + Off.PG_COMMIT_STAT) = x % 2 ^ 32 ∧ u.sameRegs s' [a + Off.PG_PAGE_SEQ, a + Off.PG_COMMIT_STAT] ∧
        s' = { u with regs := s'.regs, commits := s'.commits, ev := s'.ev })

/-! ### Continuity -/

/-- R303–R306: fencing a bent fences every page of it that can be fenced, and it is no candidate any more; the ridge hands its
role over first, and without a candidate it is refused with 0xD1. UNFENCE needs a self-test that passed, and leaves the pages
disabled; BENT_CMD.DRAIN drains every page. A tunnelled write that is not new is counted and does nothing more. -/
def Obligations.BentCommands : Prop :=
  ∀ (s u : State) (t : PT) (b : Fin 8), u = s.arrive t →
    (u.takes b (conPg b) →
      ((b.val ≠ u.ridge ∨ u.bentFenced b = true) → (u.bentFenced b = true → ∃ s', exec (.bentFence t b) s = .next s' ∧
          s' = { u with ev := s'.ev }) ∧
        (u.bentFenced b = false → u.worker = false → (∀ q, q < 16 → (u.seq (b * 16 + q)).phase = .halted ∧
            (u.seq (b * 16 + q)).owed = []) → ∃ s', exec (.bentFence t b) s = .next s' ∧ s'.bentFenced b = true ∧
          (∀ p ∈ fencePages, s'.fenced (bp b p) = true) ∧ s'.candidate b = false ∧ s'.raised (pkgp 0) 1 = true)) ∧
      (b.val = u.ridge → u.bentFenced b = false → u.tree.mig = none →
        (u.nextCand b = none → ∃ s', exec (.bentFence t b) s = .next s' ∧ s'.isLatched (conPg b) 0xD1 = true ∧
          s' = { u with ev := s'.ev }) ∧
        (∀ c, u.nextCand b = some c → ∃ s', exec (.bentFence t b) s = .next s' ∧
          s'.tree = { u.tree with mig := some { target := c, loss := false, fence := true, since := u.now } } ∧
          s' = { u with tree := s'.tree, ev := s'.ev })) ∧
      (u.bit (hierPg + Off.HIER_CAND) (8 + b) = false → ∃ s', exec (.bentUnfence t b) s = .next s' ∧
        s'.isLatched (conPg b) 0x05 = true ∧ s' = { u with ev := s'.ev }) ∧
      (u.bit (hierPg + Off.HIER_CAND) (8 + b) = true → u.bentFenced b = true → ∃ s', exec (.bentUnfence t b) s = .next s' ∧
        s'.bentFenced b = false ∧ s'.raised (pkgp 0) 2 = true ∧
        (∀ p ∈ fencePages, s'.enabled (bp b p) = false ∧ s'.fenced (bp b p) = false ∧
          s'.draining (bp b p) = u.draining (bp b p)) ∧
        s' = { u with regs := s'.regs, ev := s'.ev, tree := s'.tree }) ∧
      (∃ s', exec (.bentDrain t b) s = .next s' ∧ (∀ p ∈ fencePages, s'.draining (bp b p) = true ∧
        (u.draining (bp b p) = false → s'.drainAt (drainPage (bp b p)) = some u.now)))) ∧
    (∀ (src : Fin 257) (n : Word) (addr : Fin 0x4000000) (v : Word) (d : Nat), d = u.server (addr.val / 4 * 4) →
      u.has d = true →
      (tunnelNew (mapGet (fun _ => 0) u.tunnels (d * 257 + src)) n.toNat = false →
        ∃ s', exec (.tunnelledWrite t src n addr v) s = .next s' ∧
          s'.rd (conPg d + Off.CONTINUITY_TUNNEL_DUP_COUNT) = satAdd (u.rd (conPg d + Off.CONTINUITY_TUNNEL_DUP_COUNT)) 1 ∧
          u.sameRegs s' [conPg d + Off.CONTINUITY_TUNNEL_DUP_COUNT] ∧ s' = { u with regs := s'.regs, ev := s'.ev }) ∧
      (∀ r, tunnelNew (mapGet (fun _ => 0) u.tunnels (d * 257 + src)) n.toNat = true →
        regRow? u.variant (addr.val / 4 * 4) = some r → r.own = false → r.acc = .ro →
        ∃ s', exec (.tunnelledWrite t src n addr v) s = .next s' ∧
          mapGet (fun _ => 0) s'.tunnels (d * 257 + src) = n.toNat ∧
          (src.val = 0 → s'.rd (conPg d + Off.CONTINUITY_TUNNEL_APPLIED) = n.toNat) ∧
          u.sameRegs s' [conPg d + Off.CONTINUITY_TUNNEL_APPLIED] ∧
          s' = { u with regs := s'.regs, tunnels := s'.tunnels, ev := s'.ev }))

/-- R22, R308, R312, R386, R388, R394: a foreman that stops shows itself down, and on the ridge abandons an attestation
exchange; one that comes back is counted and raises its event, and one that has not come back in 200 ms raises its FAULT_N
category. FW_SWITCH refuses a bank that does not verify with 0xD3, and else restarts the first foreman into it. -/
def Obligations.Foremen : Prop :=
  ∀ (s u : State) (t : PT) (b : Fin 8), u = s.arrive t → u.has b = true →
    (u.foremanRuns b = true → (u.cal b).ops = [] → ∃ s', exec (.foremanStop t b) s = .next s' ∧
      s'.bit (fmPg b + Off.FOREMAN_FM_STAT) 0 = false ∧ s'.bit (conPg b + Off.CONTINUITY_CONT_STAT) 1 = false ∧
      s'.downAt b = some u.now ∧ (b.val = u.ridge → s'.spdm = { stage := 0, answer := none }) ∧
      u.sameRegs s' [fmPg b + Off.FOREMAN_FM_STAT, conPg b + Off.CONTINUITY_CONT_STAT] ∧
      s' = { u with regs := s'.regs, boot := s'.boot, spdm := s'.spdm, ev := s'.ev }) ∧
    (∀ d, u.downAt b = some d → u.boot.switch = none →
      (u.now ≤ d + 200 * 1000 * usK → (u.mbxBusy b = false →
        ∃ s', exec (.foremanRestart t b true) s = .next s' ∧ s'.downAt b = none ∧
          s'.rd (fmPg b + Off.FOREMAN_FM_STAT) = 1 + 2 * u.bankOf b + u.version (u.bankOf b) * 2 ^ 16 ∧
          s'.bit (conPg b + Off.CONTINUITY_CONT_STAT) 1 = true ∧
          s'.rd (conPg b + Off.CONTINUITY_FOREMAN_RESTARTS) =
            satAdd (u.rd (conPg b + Off.CONTINUITY_FOREMAN_RESTARTS)) 1 ∧
          s'.raised (conPg b) 2 = true ∧ s'.raised (fmPg b) 1 = true ∧ s'.mem = u.mem ∧ s'.queues = u.queues ∧
          u.samePages s' [fmPg b, conPg b]) ∧
        ∃ s', exec (.foremanRestart t b false) s = .next s' ∧ s' = { u with ev := s'.ev }) ∧
      (d + 200 * 1000 * usK < u.now → ∃ s', exec (.foremanRestart t b false) s = .next s' ∧
        setHas s'.ev.cats (6 * 64 + b) = true ∧ s' = { u with ev := s'.ev })) ∧
    (b.val = u.ridge → u.locked (conPg b) = false → u.boot.switch = none →
      (u.bankOk (1 - u.bankOf b) (u.ownerHash b) = false → ∃ s', exec (.fwSwitch t b) s = .next s' ∧
        s'.isLatched (conPg b) 0xD3 = true ∧ s'.raised identPg 1 = true ∧ s' = { u with ev := s'.ev }) ∧
      (∀ c, u.bankOk (1 - u.bankOf b) (u.ownerHash b) = true →
        ((List.range u.variant.bents).find? fun x => u.foremanRuns x || (u.downAt x).isSome) = some c →
        u.foremanRuns c = true → (u.cal c).ops = [] → ∃ s', exec (.fwSwitch t b) s = .next s' ∧
          s'.boot.switch = some (c, 1 - u.bankOf b) ∧ s'.bit (conPg b + Off.CONTINUITY_FW_STAT) 1 = true ∧
          s'.bit (conPg b + Off.CONTINUITY_FW_STAT) 2 = false ∧ s'.bit (fmPg c + Off.FOREMAN_FM_STAT) 0 = false ∧
          s'.downAt c = some u.now))

/-! ### The ridge, the purlin and the tree -/

/-- R31, R335, R338–R340, R342, R344, R359: with no preloads waiting, the lowest candidate becomes the ridge, and a second
election changes nothing; MIGRATE needs a candidate; a heartbeat is taken, or counted with its parity fault; when it has been
lost for 10 µs the migration to the next candidate starts, the old ridge is fenced and FAULT_N category 4 stands; at the
handover the ridge changes, and unless the old one is to be fenced the migration ends, counted and stamped; a skew measurement
ends and can be asked for; markers of the purlin are shown, and one beyond N/2 kerfs fences the follower or starts its coast, as
PURLIN_CTRL says, its copy of PT off meanwhile; a marker to a fenced follower replaces its copy. -/
def Obligations.RidgeRole : Prop :=
  ∀ (s u : State) (t : PT), u = s.arrive t →
    (∀ c, u.tree.elected = false → u.firstCandidate = some c → u.boot.preloads = [] → ∃ s', exec (.election t) s = .next s' ∧
      s'.ridge = c ∧ s'.tree = { u.tree with elected := true } ∧ s'.ptGen = (u.ptGen + 1) % 2 ^ 32 ∧
      s'.raised (bp c 0) 0 = true ∧ u.samePages s' ((List.range 8).flatMap fun b => [sillPg b 0, sillPg b 1]) ∧
      s' = { u with
        ridge := s'.ridge, ptGen := s'.ptGen, tree := s'.tree, ev := s'.ev, regs := s'.regs, sills := s'.sills }) ∧
    (u.tree.elected = true → ∃ s', exec (.election t) s = .next s' ∧ s' = { u with ev := s'.ev }) ∧
    (∀ c, c = u.fld (hierPg + Off.HIER_MIG_TARGET) 0 3 → u.locked hierPg = false →
      (u.candidate c = false → ∃ s', exec (.migrate t) s = .next s' ∧ s'.isLatched hierPg 0xF1 = true ∧
        s' = { u with ev := s'.ev }) ∧
      (u.candidate c = true → c ≠ u.ridge → u.tree.mig = none → u.tree.elected = true →
        ∃ s', exec (.migrate t) s = .next s' ∧
          s'.tree = { u.tree with mig := some { target := c, loss := false, fence := false, since := u.now } } ∧
          s' = { u with tree := s'.tree, ev := s'.ev })) ∧
    (∃ s', exec (.heartbeat t false) s = .next s' ∧ s'.tree = { u.tree with lastHb := u.now } ∧
      s' = { u with tree := s'.tree, ev := s'.ev }) ∧
    (∃ s', exec (.heartbeat t true) s = .next s' ∧
      s'.rd (hierPg + Off.HIER_FABRIC_PARITY_COUNT) = satAdd (u.rd (hierPg + Off.HIER_FABRIC_PARITY_COUNT)) 1 ∧
      s'.raised hierPg 5 = true ∧ u.sameRegs s' [hierPg + Off.HIER_FABRIC_PARITY_COUNT] ∧
      s' = { u with regs := s'.regs, ev := s'.ev }) ∧
    (u.now < u.tree.lastHb + 10 * usK → ∃ s', exec (.heartbeatLoss t) s = .next s' ∧ s' = { u with ev := s'.ev }) ∧
    (∀ c, u.clk.running = true → u.tree.elected = true → u.tree.mig = none → u.tree.lastHb + 10 * usK ≤ u.now →
      u.nextCand u.ridge = some c → u.has u.ridge = true → u.worker = false →
      (∀ q, q < 16 → (u.seq (u.ridge * 16 + q)).phase = .halted ∧ (u.seq (u.ridge * 16 + q)).owed = []) →
      ∃ s', exec (.heartbeatLoss t) s = .next s' ∧
        s'.tree.mig = some { target := c, loss := true, fence := false, since := u.now } ∧ s'.bentFenced u.ridge = true ∧
        setHas s'.ev.cats (4 * 64 + u.ridge) = true ∧ s'.raised (pkgp 0) 0 = true) ∧
    (∀ m, u.migTo = some m → u.has u.ridge = true → ∃ s', exec (.purlinHandover t) s = .next s' ∧ s'.ridge = m.target ∧
      (m.fence = false → s'.tree.mig = none ∧ s'.tree.skew = 2 ∧
        s'.rd (hierPg + Off.HIER_MIG_COUNT) = satAdd (u.rd (hierPg + Off.HIER_MIG_COUNT)) 1 ∧
        s'.rd80 (hierPg + Off.HIER_LAST_MIG_PT_LO) = u.granCeil u.now % 2 ^ 80 ∧ s'.raised hierPg 0 = true ∧
        s'.raised purlinPg 3 = true ∧ s'.spdm = { stage := 0, answer := none } ∧ s'.mem = u.mem ∧ s'.queues = u.queues)) ∧
    (∀ skews, u.tree.skew ≠ 0 → ∃ s', exec (.skewDone t skews) s = .next s' ∧ s'.tree = { u.tree with skew := 0 } ∧
      (u.tree.skew = 2 → s'.raised purlinPg 2 = true) ∧ s'.mem = u.mem ∧ s'.queues = u.queues) ∧
    (u.locked purlinPg = false → u.tree.skew = 0 → ∃ s', exec (.reskew t) s = .next s' ∧
      s'.tree = { u.tree with skew := 1 } ∧ s' = { u with tree := s'.tree, ev := s'.ev }) ∧
    (∀ (b : Fin 8) (diff : Int), u.has b = true → b.val ≠ u.ridge → u.clk.running = true → u.bentFenced b = false →
      (diff.natAbs ≤ 8 * u.clk.n → u.bit (sillStat b (u.activeSill b)) 3 = false →
        ∃ s', exec (.purlinMarker t b diff) s = .next s' ∧ s'.rd (purlinPg + Off.PURLIN_PHASE b) = ofSigned 32 diff ∧
          mapGet (fun _ => 0) s'.tree.marker b = u.now ∧ u.sameRegs s' [purlinPg + Off.PURLIN_PHASE b] ∧
          s' = { u with regs := s'.regs, tree := s'.tree, ev := s'.ev, tius := s'.tius, fres := s'.fres }) ∧
      (8 * u.clk.n < diff.natAbs → u.bit (purlinPg + Off.PURLIN_PURLIN_CTRL) 0 = false →
        ∃ s', exec (.purlinMarker t b diff) s = .next s' ∧ s'.coasting b = true ∧ setHas s'.tree.mism b = true ∧
          mapGet (fun _ => 0) s'.ptOff b = roundDiv diff (16 * u.clk.n) * u.clk.n ∧
          s'.rd (purlinPg + Off.PURLIN_MISMATCH_COUNT) = satAdd (u.rd (purlinPg + Off.PURLIN_MISMATCH_COUNT)) 1 ∧
          s'.raised purlinPg 1 = true ∧ s'.mem = u.mem ∧ s'.queues = u.queues) ∧
      (8 * u.clk.n < diff.natAbs → u.bit (purlinPg + Off.PURLIN_PURLIN_CTRL) 0 = true → u.worker = false →
        (∀ q, q < 16 → (u.seq (b * 16 + q)).phase = .halted ∧ (u.seq (b * 16 + q)).owed = []) →
        ∃ s', exec (.purlinMarker t b diff) s = .next s' ∧ s'.bentFenced b = true ∧ s'.isLatched purlinPg 0xF3 = true ∧
          s'.bit (purlinPg + Off.PURLIN_PURLIN_STAT) (24 + b) = true ∧ setHas s'.ev.cats (4 * 64 + b) = true)) ∧
    ∀ (b : Fin 8) (diff : Int), u.has b = true → b.val ≠ u.ridge → u.clk.running = true → u.bentFenced b = true →
      ∃ s', exec (.purlinMarker t b diff) s = .next s' ∧ s'.rd (purlinPg + Off.PURLIN_PHASE b) = ofSigned 32 diff ∧
        mapGet (fun _ => 0) s'.ptOff b = 0 ∧ setHas s'.tree.mism b = false ∧
        mapGet (fun _ => 0) s'.tree.marker b = u.now ∧ s'.mem = u.mem ∧ s'.queues = u.queues

/-- R335, R345–R349, R357: the join of a worker through its tenon starts if the mortise is not too deep, N is the same and
nothing runs; once it can complete the worker takes PT, O and its number from the tree, or, where something runs by then, is
refused, and the child shows at its mortise; LEAVE clears JOINED; loss of the tenon's clock takes its port down, or takes the
standby where the port is down already; a source or a tenon shows whether it passes its activity test. -/
def Obligations.TreeMembership : Prop :=
  ∀ (s u : State) (t : PT), u = s.arrive t → u.has u.ridge = true →
    (∀ (auto : Bool) (p : Peer), (auto = true ∧ u.bit hierCtrl 1 = true ∨ auto = false ∧ u.locked hierPg = false) →
      u.tenonPeer = some p → u.worker = true → u.bit hierStat 5 = true → u.joined = false → u.tree.join = none →
      (2 ≤ p.level → ∃ s', exec (.join t auto) s = .next s' ∧ s'.isLatched (fliudPg (u.tenonNow / 2)) 0xF4 = true ∧
        s' = { u with ev := s'.ev, tius := s'.tius, fres := s'.fres }) ∧
      (p.level < 2 → (p.n ≠ u.clk.n ∨ u.joinBusy = true) → ∃ s', exec (.join t auto) s = .next s' ∧
        s'.isLatched hierPg 0xF0 = true ∧ s' = { u with ev := s'.ev, tius := s'.tius, fres := s'.fres }) ∧
      (p.level < 2 → p.n = u.clk.n → u.joinBusy = false → ∃ s', exec (.join t auto) s = .next s' ∧
        s'.tree = { u.tree with join := some u.now, avg := false } ∧ s'.mem = u.mem ∧ s'.queues = u.queues ∧
        (u.clk.running = true → u.srcNow < 3 → s'.coasting u.ridge = true) ∧
        (3 ≤ u.srcNow → s' = { u with tree := s'.tree, ev := s'.ev, tius := s'.tius, fres := s'.fres }))) ∧
    (∀ (p : Fin 16) (sent o : PT), u.portUp (p.val / 2) (p.val % 2) = true → u.isTenon p = false → p.val ≠ u.tenonPort →
      ∃ s', exec (.joinComplete t (some p) sent o) s = .next s' ∧ s'.bit (hierPg + Off.HIER_CHILDREN) p = true ∧
        s'.raised hierPg 2 = true ∧ u.sameRegs s' [hierPg + Off.HIER_CHILDREN] ∧ s' = { u with regs := s'.regs, ev := s'.ev }) ∧
    (∀ (sent o : PT) (p : Peer), u.joins = true → u.tenonPeer = some p → ∃ s', exec (.joinComplete t none sent o) s = .next s' ∧
      s'.clk = { u.clk with now := u.joinPt sent.toNat, o := o.toNat } ∧ s'.ptGen = (u.ptGen + 1) % 2 ^ 32 ∧
      s'.pkgNum = (if p.level = 0 then p.ordinal else 16 * p.pkg + p.ordinal) % 2 ^ 8 ∧ s'.joined = true ∧
      s'.fld hierStat 16 2 = (p.level + 1) % 4 ∧ s'.tree = { u.tree with join := none } ∧ s'.raised hierPg 2 = true ∧
      s'.mem = u.mem ∧ s'.queues = u.queues) ∧
    (∀ (sent o : PT), u.joinReady = true → u.joinBusy = true → ∃ s', exec (.joinComplete t none sent o) s = .next s' ∧
      s'.clk = u.clk ∧ s'.tree = { u.tree with join := none } ∧ s'.isLatched hierPg 0xF0 = true ∧
      s' = { u with tree := s'.tree, ev := s'.ev }) ∧
    (u.locked hierPg = false → u.joined = true → ∃ s', exec (.leave t) s = .next s' ∧ s'.joined = false ∧
      s'.bit hierStat 7 = true ∧ s'.raised hierPg 3 = true ∧ s'.mem = u.mem ∧ s'.queues = u.queues) ∧
    (u.worker = true → u.bit hierStat 5 = true →
      (u.portUp (u.tenonNow / 2) (u.tenonNow % 2) = true → ∃ s', exec (.tenonLost t) s = .next s' ∧
        s'.portUp (u.tenonNow / 2) (u.tenonNow % 2) = false ∧ s'.raised (fliudPg (u.tenonNow / 2)) 0 = true) ∧
      (u.portUp (u.tenonNow / 2) (u.tenonNow % 2) = false →
        (u.standby = none → ∃ s', exec (.tenonLost t) s = .next s' ∧ s'.bit hierStat 5 = false ∧ s'.mem = u.mem) ∧
        (∀ p, u.standby = some p → ∃ s', exec (.tenonLost t) s = .next s' ∧ s'.bit hierStat 6 = !u.bit hierStat 6 ∧
          s'.tenonNow = p ∧ s'.mem = u.mem))) ∧
    (∀ (w : Fin 4) (phase : Int) (duty : Fin 101), w.val < 3 →
      (∃ s', exec (.sourceActivity t w (some duty) phase) s = .next s' ∧ s'.active w = true ∧
        mapGet (fun _ => 50) s'.tb.duty w = duty.val ∧
        s' = { u with
          regs := s'.regs, tree := s'.tree, ev := s'.ev, tb := s'.tb, sills := s'.sills, tius := s'.tius, fres := s'.fres }) ∧
      ∃ s', exec (.sourceActivity t w none phase) s = .next s' ∧ s'.active w = false ∧ s'.qualified w = false ∧
        s'.mem = u.mem ∧ s'.queues = u.queues) ∧
    (∀ (w : Fin 4) (phase : Int) (duty : Fin 101), w.val = 3 → u.worker = true →
      u.portUp (u.tenonNow / 2) (u.tenonNow % 2) = true →
      u.bit hierStat 5 = false → ∃ s', exec (.sourceActivity t w (some duty) phase) s = .next s' ∧ s'.bit hierStat 5 = true ∧
        s'.mem = u.mem ∧ s'.queues = u.queues)

/-- R350–R353, R355: an enabled port that sees its peer trains; training brings it into service with three lanes or more, and
else takes it down; a port in service retrains, and calibrates its asymmetry, lane by lane, and each lane returns to service. -/
def Obligations.PortTraining : Prop :=
  ∀ (s u : State) (t : PT) (b : Fin 8) (k : Fin 2), u = s.arrive t → u.has b = true →
    (u.portOn b k = true → u.portUp b k = false → u.bit (portStat b k) 12 = false → ∃ s', exec (.linkUp t b k) s = .next s' ∧
      s'.bit (portStat b k) 12 = true ∧ u.sameRegs s' [portStat b k] ∧ s' = { u with regs := s'.regs, ev := s'.ev }) ∧
    (∀ auto, (auto = false ∧ u.locked (fliudPg b) = false ∨
        auto = true ∧ u.portUp b k = true ∧ u.bit (fliudPg b + Off.FLIUD_PORT_CTRL k) 16 = true ∧ u.laneBad b k = true) →
      u.portOn b k = true → u.bit (portStat b k) 12 = false → u.bit (portStat b k) 13 = false →
      (u.portUp b k = false → ∃ s', exec (.retrain t b k auto) s = .next s' ∧ s'.bit (portStat b k) 12 = true ∧
        s'.raised (fliudPg b) 2 = true ∧ u.sameRegs s' [portStat b k] ∧
        s' = { u with regs := s'.regs, ev := s'.ev, tius := s'.tius, fres := s'.fres }) ∧
      (∀ i, u.portUp b k = true → ((List.range 4).find? fun i => bitAt (u.portLanes b k) i) = some i →
        3 ≤ laneCount (putLane (u.portLanes b k) i false) → ∃ s', exec (.retrain t b k auto) s = .next s' ∧
          s'.bit (portStat b k) 12 = true ∧ s'.portUp b k = true ∧
          s'.portLanes b k = putLane (u.portLanes b k) i false ∧ (s'.port b k).lane = some i ∧
          (s'.port b k).todo = putLane (u.portLanes b k) i false ∧
          s'.rd (fliudPg b + Off.FLIUD_PORT_RETRAIN_COUNT k) =
            satAdd (u.rd (fliudPg b + Off.FLIUD_PORT_RETRAIN_COUNT k)) 1 ∧
          u.sameRegs s' [portStat b k, fliudPg b + Off.FLIUD_PORT_RETRAIN_COUNT k] ∧
          s' = { u with regs := s'.regs, ports := s'.ports, ev := s'.ev, tius := s'.tius, fres := s'.fres })) ∧
    (∀ (ok : BitVec 4) (eyes : Word) (pkg : Fin 256) (n : BitVec 11) (level : Fin 3) (ordinal : Fin 16) (phase : Int),
      u.bit (portStat b k) 12 = true →
      (u.portUp b k = false → (∀ i, i < 4 → u.bit (portStat b k) (6 + i) = false) →
        (3 ≤ laneCount ok.toNat → ∃ s', exec (.trainingDone t b k ok eyes pkg n level ordinal phase) s = .next s' ∧
          s'.portUp b k = true ∧ s'.portLanes b k = ok.toNat ∧ s'.bit (portStat b k) 12 = false ∧
          s'.fld (portStat b k) 10 2 = lowLane ok.toNat ∧ s'.fld (portStat b k) 16 8 = pkg.val ∧
          (s'.port b k).peer = some { pkg := pkg, n := n.toNat, level := level, ordinal := ordinal } ∧
          s'.rd (fliudPg b + Off.FLIUD_PORT_EYE k) = eyes.toNat ∧ s'.raised (fliudPg b) 0 = true) ∧
        (laneCount ok.toNat < 3 → u.worker = false →
          ∃ s', exec (.trainingDone t b k ok eyes pkg n level ordinal phase) s = .next s' ∧
            s'.portUp b k = false ∧ s'.bit (portStat b k) 12 = false ∧ s'.stands (fliudPg b) 0xF2 = true ∧
            u.sameRegs s' [portStat b k, fliudPg b + Off.FLIUD_PORT_EYE k])) ∧
      (∀ i, u.portUp b k = true → (u.port b k).lane = some i → i < 4 → bitAt ok.toNat i = true → (u.port b k).todo = 0 →
        3 ≤ laneCount (putLane (u.portLanes b k) i true) →
        ∃ s', exec (.trainingDone t b k ok eyes pkg n level ordinal phase) s = .next s' ∧ s'.portUp b k = true ∧
          s'.portLanes b k = putLane (u.portLanes b k) i true ∧ (s'.port b k).lane = none ∧
          s'.bit (portStat b k) 12 = false)) ∧
    (∀ i, u.locked (fliudPg b) = false → u.fenced (fliudPg b) = false → u.portUp b k = true → u.bit (portStat b k) 12 = false →
      u.bit (portStat b k) 13 = false → ((List.range 4).find? fun i => bitAt (u.portLanes b k) i) = some i →
      3 ≤ laneCount (putLane (u.portLanes b k) i false) → ∃ s', exec (.asymCal t b k) s = .next s' ∧
        s'.bit (portStat b k) 13 = true ∧ (s'.port b k).asym = some i ∧
        s'.portLanes b k = putLane (u.portLanes b k) i false ∧ u.sameRegs s' [portStat b k] ∧
        s' = { u with regs := s'.regs, ports := s'.ports, ev := s'.ev, tius := s'.tius, fres := s'.fres }) ∧
    (∀ (i : Nat) (n r : Int) (v : Nat), (u.port b k).asym = some i → i < 4 → u.portUp b k = true → (u.port b k).asymTodo = 0 →
      v = ofSigned 32 (roundDiv (n - r) (2 * 2 ^ u.fld hierCtrl 20 4)) → ∃ s', exec (.asymDone t b k n r) s = .next s' ∧
        s'.rd (fliudPg b + Off.FLIUD_PORT_ASYM k i) = v ∧
        (s'.staged (fliudPg b + Off.FLIUD_PORT_ASYM k i)).toNat = v ∧
        s'.portLanes b k = putLane (u.portLanes b k) i true ∧ (s'.port b k).asym = none ∧
        s'.bit (portStat b k) 13 = false ∧ s'.bit (portStat b k) 14 = true ∧
        u.sameRegs s' [portStat b k, fliudPg b + Off.FLIUD_PORT_ASYM k i])

/-- R232, R351, R354, R356, R357, R377: a mortise starts one exchange a microsecond, and the exchanges of a link give the offset
and the delay, and of a joined worker's tenon the move of its expected phase; failed and repeated frames are
counted by class; an event record and a bulk record that are due reach the ring and the host stream of a package that is no
worker, a read of its registers is answered, and an event record that is not due is discarded; an entry of a verdict frame
reaches every VID that imports it, or is counted; a remote access shows its state. -/
def Obligations.TreeFrames : Prop :=
  ∀ (s u : State) (t : PT) (p : Fin 16) (b k : Nat), u = s.arrive t → b = p.val / 2 → k = p.val % 2 →
    (u.portUp b k = true →
      (u.mortise p = true → u.now / usK ≠ (u.port b k).timed → ∃ s', exec (.timeExchange t p) s = .next s' ∧
        (s'.port b k).timed = u.now / usK ∧
          mapGet (fun _ => 0) (s'.port b k).frames 1 = (mapGet (fun _ => 0) (u.port b k).frames 1 + 1) % 256 ∧
        s' = { u with ports := s'.ports, ev := s'.ev }) ∧
      (∀ (t1 t2 t3 t4 : PT) (x : Port) (down up a sumT sumD : Int), x = u.port b k → u.isTenon p = true →
        down = (t2.toNat : Int) - t1.toNat → up = (t4.toNat : Int) - t3.toNat →
        a = toSigned 32 (u.rd (fliudPg b + Off.FLIUD_PORT_ASYM k (u.fld (portStat b k) 10 2))) →
        sumT = x.sumT + (down - up - a) → sumD = x.sumD + (down + up) →
        (x.n + 1 < 2 ^ u.fld hierCtrl 20 4 → ∃ s', exec (.timeFrame t p t1 t2 t3 t4) s = .next s' ∧
          s'.port b k = { x with n := x.n + 1, sumT := sumT, sumD := sumD } ∧
          s' = { u with ports := s'.ports, ev := s'.ev }) ∧
        (2 ^ u.fld hierCtrl 20 4 ≤ x.n + 1 → ∃ s', exec (.timeFrame t p t1 t2 t3 t4) s = .next s' ∧
          s'.rd (fliudPg b + Off.FLIUD_PORT_OFFSET k) = ofSigned 32 (roundDiv sumT (2 * (x.n + 1))) ∧
          s'.rd (fliudPg b + Off.FLIUD_PORT_DELAY k) = ofSigned 32 (roundDiv sumD (2 * (x.n + 1))) ∧
          (p.val = u.tenonNow → s'.rd (hierPg + Off.HIER_TT_OFFSET) = ofSigned 32 (roundDiv sumT (2 * (x.n + 1))) ∧
            s'.rd (hierPg + Off.HIER_TT_DELAY) = ofSigned 32 (roundDiv sumD (2 * (x.n + 1))) ∧
            s'.stands hierPg 0xF5 =
              (u.joined && decide (16 * u.fld hierCtrl 24 8 < (roundDiv sumT (2 * (x.n + 1))).natAbs)) ∧
            s'.tree = { u.tree with avg := true } ∧
            (u.joined = true → s'.tb = { u.tb with
              treeFrom := u.treeNow u.now, treeTo := u.treeNow u.now - roundDiv sumT (2 * (x.n + 1)), treeAt := u.now })) ∧
          (s'.port b k).n = 0 ∧
          s' = { u with regs := s'.regs, ports := s'.ports, tree := s'.tree, tb := s'.tb, ev := s'.ev })) ∧
      (∀ (c : Fin 8) (j : Fin 2) (cls : Fin 16) (lane : Fin 4) (r : Fin 256), c.val = b → j.val = k → u.has b = true →
        (r.val = 0 → ∃ s', exec (.frameCrcFail t c j ⟨cls, lane⟩ r) s = .next s' ∧
          s'.rd (fliudPg b + Off.FLIUD_PORT_CRC_COUNT k) = satAdd (u.rd (fliudPg b + Off.FLIUD_PORT_CRC_COUNT k)) 1 ∧
          (cls.val = 2 → s'.rd (fliudPg b + Off.FLIUD_PORT_VDROP_COUNT k) =
            satAdd (u.rd (fliudPg b + Off.FLIUD_PORT_VDROP_COUNT k)) 1) ∧ (lane.val, u.now) ∈ (s'.port b k).errs ∧
          s' = { u with regs := s'.regs, ports := s'.ports, ev := s'.ev }) ∧
        (r.val ≠ 0 → 3 ≤ cls.val → cls.val ≤ 5 → ∃ s', exec (.frameCrcFail t c j ⟨cls, lane⟩ r) s = .next s' ∧
          s'.rd (fliudPg b + Off.FLIUD_PORT_RETX_COUNT k) = satAdd (u.rd (fliudPg b + Off.FLIUD_PORT_RETX_COUNT k)) r ∧
          u.sameRegs s' [fliudPg b + Off.FLIUD_PORT_RETX_COUNT k] ∧ s' = { u with regs := s'.regs, ev := s'.ev })) ∧
      (∀ (seq pkg : Fin 256) (source : Fin 65536) (forced : Bool) (health : Fin 256) (pt : PT) (detail : BitVec 64) (gen : Word),
        (mapGet (fun _ => 0) (u.port b k).frames 11 ≠ seq.val →
          ∃ s', exec (.eventFrame t p seq pkg source forced health pt detail gen) s = .next s' ∧ s' = { u with ev := s'.ev }) ∧
        (mapGet (fun _ => 0) (u.port b k).frames 11 = seq.val → u.worker = false → u.rd (evr + Off.EVENTS_EVR_SIZE) ≠ 0 →
          u.ev.perstLow = false →
          (u.ev.wr + 2 ^ 32 - u.rd (evr + Off.EVENTS_EVR_RD)) % 2 ^ 32 < 2 ^ u.rd (evr + Off.EVENTS_EVR_SIZE) →
          ∃ s', exec (.eventFrame t p seq pkg source forced health pt detail gen) s = .next s' ∧
            mapGet (fun _ => 0) (s'.port b k).frames 11 = (seq.val + 1) % 256 ∧ s'.ev.wr = (u.ev.wr + 1) % 2 ^ 32 ∧
            s' = { u with ports := s'.ports, ev := s'.ev })) ∧
      (∀ (seq src dst : Fin 256) (n : Word) (addr : Fin 0x4000000) (v : Word),
        mapGet (fun _ => 0) (u.port b k).frames 12 = seq.val → dst.val = u.pkgNum →
        ∃ s', exec (.regFrame t p seq src dst true n addr v) s = .next s' ∧
          mapGet (fun _ => 0) (s'.port b k).frames 12 = (seq.val + 1) % 256 ∧
          mapGet (fun _ => 0) (s'.port b k).frames 4 = (mapGet (fun _ => 0) (u.port b k).frames 4 + 1) % 256 ∧
          s' = { u with ports := s'.ports, latch := s'.latch, ev := s'.ev }) ∧
      (∀ (seq pkg : Fin 256) (c : Fin 8) (source : Fin 16) (data : List Byte) (e : Nat),
        mapGet (fun _ => 0) (u.port b k).frames 13 = seq.val → u.worker = false → u.ev.perstLow = false →
        u.dmaFor u.ridge 7 = some e →
        data.length + 16 ≤ DmaSt.room { u.dma u.ridge e with descs := (u.dma u.ridge e).descs.takeWhile fun d => !d.bad true } →
        ∃ s', exec (.bulkFrame t p seq pkg c source data) s = .next s' ∧
          s'.rd64 (evPg u.ridge + Off.EVENTS_DMA_BYTES_LO e) =
            (u.rd64 (evPg u.ridge + Off.EVENTS_DMA_BYTES_LO e) + (data.length + 16)) % 2 ^ 64 ∧
          (s'.dma u.ridge e).lastRec = u.now ∧
          s' = { u with regs := s'.regs, ports := s'.ports, dmas := s'.dmas, ev := s'.ev }) ∧
      (∀ (hops : Fin 4) (pkg : Fin 256) (vid : Fin 512) (byte : Fin 256) (w : BitVec 48), hops.val ≠ 2 →
        (∀ c i, u.has c = true → i < 64 → bitAt (u.rd (fliudPg c + Off.FLIUD_IMP i)) 0 = true →
          bits (u.rd (fliudPg c + Off.FLIUD_IMP i)) 1 8 = pkg.val → bits (u.rd (fliudPg c + Off.FLIUD_IMP i)) 9 9 = vid.val →
          ∃ s', exec (.verdictFrame t p hops [(pkg, vid, byte, w)]) s = .next s' ∧
            (∃ x ∈ s'.verdicts, x.vid = c * 64 + i ∧ x.byte = byte.val ∧ x.endTick = u.tick (u.extendPt w.toNat)) ∧
            s' = { u with verdicts := s'.verdicts, serial := s'.serial, ev := s'.ev }) ∧
        ((∀ c i, u.has c = true → i < 64 → ¬ (bitAt (u.rd (fliudPg c + Off.FLIUD_IMP i)) 0 = true ∧
            bits (u.rd (fliudPg c + Off.FLIUD_IMP i)) 1 8 = pkg.val ∧
            bits (u.rd (fliudPg c + Off.FLIUD_IMP i)) 9 9 = vid.val)) →
          ∃ s', exec (.verdictFrame t p hops [(pkg, vid, byte, w)]) s = .next s' ∧ s'.raised (fliudPg b) 3 = true ∧
            s'.rd (fliudPg b + Off.FLIUD_IMPORT_MISS_COUNT) = satAdd (u.rd (fliudPg b + Off.FLIUD_IMPORT_MISS_COUNT)) 1 ∧
            s' = { u with regs := s'.regs, ev := s'.ev }))) ∧
    (∀ c read, (c = .raccWrite t ∧ read = false ∨ c = .raccRead t ∧ read = true) → u.locked hierPg = false →
      u.tree.racc = none → ∃ s', exec c s = .next s' ∧ s'.rd (hierPg + Off.HIER_RACC_STAT) = 1 ∧
        s'.tree = { u.tree with racc := some (u.now, read) } ∧ u.sameRegs s' [hierPg + Off.HIER_RACC_STAT] ∧
        s' = { u with regs := s'.regs, tree := s'.tree, ports := s'.ports, ev := s'.ev }) ∧
    (∀ x read v, u.tree.racc = some (x, read) → ∃ s', exec (.raccDone t v) s = .next s' ∧
      s'.rd (hierPg + Off.HIER_RACC_STAT) = 2 ∧ (read = true → s'.reg (hierPg + Off.HIER_RACC_DATA) = v) ∧
      s'.tree = { u.tree with racc := none } ∧
      u.sameRegs s' [hierPg + Off.HIER_RACC_STAT, hierPg + Off.HIER_RACC_DATA] ∧
      s' = { u with regs := s'.regs, tree := s'.tree, ev := s'.ev }) ∧
    (∀ x read, u.tree.racc = some (x, read) → x + 1000 * usK ≤ u.now → ∃ s', exec (.raccTimeout t) s = .next s' ∧
      s'.rd (hierPg + Off.HIER_RACC_STAT) = 0xC ∧ s'.isLatched hierPg 0xF7 = true ∧
      s'.tree = { u.tree with racc := none } ∧ u.sameRegs s' [hierPg + Off.HIER_RACC_STAT] ∧
      s' = { u with regs := s'.regs, tree := s'.tree, ev := s'.ev })

/-! ### Host interface -/

/-- R363, R364, R381–R384, R399: the side port and the DMA engines. A head written makes descriptors available; a full buffer
is written back and left behind, as one filled in part is after FLUSH; a copy stores its bytes in BAR2; a descriptor that is
bad, cannot be fetched or reaches beyond its memory halts the engine with its cause; RESET brings the engine back. -/
def Obligations.HostStreams : Prop :=
  ∀ (s u : State) (t : PT) (b : Fin 8) (e : Fin 16), u = s.arrive t → u.has b = true →
    (∀ (rate : Fin 6) (width : Fin 5), u.locked (evPg b) = false →
      (b.val = u.ridge → u.tree.elected = true → ∃ s', exec (.sidePortEnable t b rate width) s = .next s' ∧
        s'.isLatched (evPg b) 0x33 = true ∧ s' = { u with ev := s'.ev }) ∧
      ((b.val ≠ u.ridge ∨ u.tree.elected = false) → ∃ s', exec (.sidePortEnable t b rate width) s = .next s' ∧
        s'.bit (evPg b + Off.EVENTS_SIDE_CTRL) 0 = true ∧
        (rate.val ≠ 0 → s'.rd (evPg b + Off.EVENTS_SIDE_STAT) = 1 + rate.val * 2 + width.val * 16) ∧
        u.sameRegs s' [evPg b + Off.EVENTS_SIDE_CTRL, evPg b + Off.EVENTS_SIDE_STAT] ∧
        s' = { u with regs := s'.regs, ev := s'.ev })) ∧
    (u.bit (evPg b + Off.EVENTS_SIDE_STAT) 0 = true → ∃ s', exec (.sidePortDown t b) s = .next s' ∧
      s'.rd (evPg b + Off.EVENTS_SIDE_STAT) = 0 ∧ s'.isLatched (evPg b) 0x33 = true ∧
      (u.bit (evPg b + Off.EVENTS_DMA_CTRL e) 6 = true → u.dmaRuns b e = true →
        s'.bit (evPg b + Off.EVENTS_DMA_STAT e) 2 = true ∧ s'.fld (evPg b + Off.EVENTS_DMA_STAT e) 4 4 = 3) ∧
      u.samePages s' [evPg b] ∧ s' = { u with regs := s'.regs, ev := s'.ev }) ∧
    (∀ (head : Word) (ds : List DescWords) (m : Nat),
      m = min ((head.toNat + 2 ^ 32 - u.rd (evPg b + Off.EVENTS_DMA_HEAD e)) % 2 ^ 32)
        (2 ^ u.fld (evPg b + Off.EVENTS_DMA_RING_SIZE e) 0 5 - (u.dma b e).descs.length) →
      ∃ s', exec (.headWrite t b e head ds) s = .next s' ∧ s'.reg (evPg b + Off.EVENTS_DMA_HEAD e) = head ∧
        (s'.dma b e).descs = (u.dma b e).descs ++ (List.range m).map (fun i => Desc.fresh (ds.getD i (0, 0, 0))) ∧
        u.sameRegs s' [evPg b + Off.EVENTS_DMA_HEAD e] ∧ s' = { u with regs := s'.regs, dmas := s'.dmas, ev := s'.ev }) ∧
    (∀ (d : Desc) (r : List Desc) (data : List Byte) (toHost : Bool), (u.dma b e).descs = d :: r → u.dmaRuns b e = true →
      toHost = !u.bit (evPg b + Off.EVENTS_DMA_CTRL e) 1 →
      (∀ (fail : Fin 3) (cause : Nat),
        (fail.val = 1 ∧ cause = 1 ∨ fail.val ≠ 1 ∧ d.bad toHost = true ∧ cause = 4 ∨
          fail.val = 2 ∧ d.bad toHost = false ∧ toHost = false ∧ u.fld (evPg b + Off.EVENTS_DMA_CTRL e) 2 4 = 8 ∧ cause = 2 ∨
          fail.val = 0 ∧ d.bad toHost = false ∧ toHost = false ∧ u.fld (evPg b + Off.EVENTS_DMA_CTRL e) 2 4 = 8 ∧
            oneMemory (bits d.w1 32 32) d.len = false ∧ cause = 5) →
        ∃ s', exec (.dmaDescriptor t b e data fail) s = .next s' ∧ s'.bit (evPg b + Off.EVENTS_DMA_STAT e) 2 = true ∧
          s'.fld (evPg b + Off.EVENTS_DMA_STAT e) 4 4 = cause ∧ s'.stands (evPg b) 0x31 = true ∧
          s'.rd (evPg b + Off.EVENTS_DMA_ERR_COUNT e) = satAdd (u.rd (evPg b + Off.EVENTS_DMA_ERR_COUNT e)) 1 ∧
          u.sameRegs s' [evPg b + Off.EVENTS_DMA_STAT e, evPg b + Off.EVENTS_DMA_ERR_COUNT e] ∧
          s' = { u with regs := s'.regs, ev := s'.ev }) ∧
      (d.bad toHost = false → toHost = true → d.len ≤ d.filled → ∃ s', exec (.dmaDescriptor t b e data 0) s = .next s' ∧
        (s'.dma b e).descs = r ∧
        s'.rd (evPg b + Off.EVENTS_DMA_TAIL e) = (u.rd (evPg b + Off.EVENTS_DMA_TAIL e) + 1) % 2 ^ 32 ∧
        u.sameRegs s' [evPg b + Off.EVENTS_DMA_TAIL e] ∧ s' = { u with regs := s'.regs, dmas := s'.dmas, ev := s'.ev }) ∧
      (∀ a, a = mb b (bits d.w1 32 32) → d.bad toHost = false → toHost = false →
        u.fld (evPg b + Off.EVENTS_DMA_CTRL e) 2 4 = 8 → oneMemory (bits d.w1 32 32) d.len = true → bitAt d.w1 25 = false →
        (∀ i, i < d.len → u.poisoned (a + i) 1 = false) → (∀ x ∈ u.seqs, (u.seq x.1).phase ≠ .voidWait) →
        ∃ s', exec (.dmaDescriptor t b e data 0) s = .next s' ∧ (∀ i, i < d.len → s'.memByte (a + i) = data.getD i 0) ∧
          u.sameBytes s' a d.len ∧ (s'.dma b e).descs = r ∧
          s'.rd (evPg b + Off.EVENTS_DMA_TAIL e) = (u.rd (evPg b + Off.EVENTS_DMA_TAIL e) + 1) % 2 ^ 32 ∧
          s' = { u with regs := s'.regs, dmas := s'.dmas, dacAt := s'.dacAt, mem := s'.mem, ev := s'.ev }) ∧
      (d.filled ≠ 0 → toHost = true →
        (u.dma b e).lastRec + u.fld (evPg b + Off.EVENTS_DMA_CTRL e) 8 8 * usK ≤ u.now →
        ∃ s', exec (.dmaFlush t b e) s = .next s' ∧ (s'.dma b e).descs = r ∧
          s'.rd (evPg b + Off.EVENTS_DMA_TAIL e) = (u.rd (evPg b + Off.EVENTS_DMA_TAIL e) + 1) % 2 ^ 32 ∧
          u.sameRegs s' [evPg b + Off.EVENTS_DMA_TAIL e] ∧ s' = { u with regs := s'.regs, dmas := s'.dmas, ev := s'.ev })) ∧
    (u.locked (evPg b) = false → ∃ s', exec (.dmaReset t b e) s = .next s' ∧
      s'.bit (evPg b + Off.EVENTS_DMA_CTRL e) 0 = false ∧
      s'.reg (evPg b + Off.EVENTS_DMA_TAIL e) = u.reg (evPg b + Off.EVENTS_DMA_HEAD e) ∧
      s'.bit (evPg b + Off.EVENTS_DMA_STAT e) 2 = false ∧ s'.fld (evPg b + Off.EVENTS_DMA_STAT e) 4 4 = 0 ∧
      s'.dma b e = DmaSt.init ∧ u.sameRegs s' [evPg b + Off.EVENTS_DMA_CTRL e, evPg b + Off.EVENTS_DMA_TAIL e,
        evPg b + Off.EVENTS_DMA_STAT e] ∧ s' = { u with regs := s'.regs, dmas := s'.dmas, ev := s'.ev })

/-- R309, R386–R388: a mailbox command runs unless one runs already (0x38), its place, its range or the hold-up check refuses
it, with its status and 0x39; it completes with its effect on the flash, MBX_STAT and MBX_DONE. -/
def Obligations.Mailbox : Prop :=
  ∀ (s u : State) (t : PT) (b : Fin 8) (v drop : Word) (a n : Nat), u = s.arrive t → u.takes b (fmPg b) →
    a = (u.mbxArg b).1 → n = (u.mbxArg b).2 →
    (∀ c op, (c = .version t b ∧ op = 0x01 ∨
        (c = .fwOpen t b ∧ op = 0x10 ∨ c = .fwWrite t b ∧ op = 0x11 ∧ n ≤ 2048 ∧ a + n ≤ bankSize ∨
          c = .fwClose t b ∧ op = 0x12 ∧ 384 ≤ a ∧ a ≤ bankSize ∨
          c = .flashRead t b ∧ op = 0x30 ∧ n ≤ 2048 ∧ 0x100000 ≤ a ∧ a + n ≤ 0x2000000 + Config.flashMore ∨
          (c = .cfgOpen t b v drop ∧ op = 0x20 ∨ c = .cfgWrite t b v drop ∧ op = 0x21 ∧ n ≤ 2048 ∧ a + n ≤ copySize ∨
            c = .cfgClose t b v drop ∧ op = 0x22 ∧ 0x64 ≤ a ∧ a ≤ copySize) ∧
            2 * 1000 * (200000 * drop.toNat) ≤ v.toNat * v.toNat - 6250000000000 ∧ u.pwrGood = true) ∧
          u.flashCheck b = 0) → u.foremanRuns b = true →
      (u.mbxBusy b = true → ∃ s', exec c s = .next s' ∧ s'.isLatched (fmPg b) 0x38 = true ∧ s' = { u with ev := s'.ev }) ∧
      (u.mbxBusy b = false → ∃ s', exec c s = .next s' ∧ s'.rd (mbxStat b) = 1 ∧
        s'.mbx b = some { op := op, arg0 := a, arg1 := u.rd (fmPg b + Off.FOREMAN_MBX_ARG1), len := n, data := u.mbxData b n } ∧
        u.samePages s' [fmPg b, shimPg b, pkgp 0] ∧
        s' = { u with regs := s'.regs, boot := s'.boot, ev := s'.ev, free := s'.free })) ∧
    (∀ c, (c = .fwOpen t b ∨ c = .fwWrite t b ∨ c = .fwClose t b ∨ c = .flashRead t b ∨ c = .cfgOpen t b v drop ∨
        c = .cfgWrite t b v drop ∨ c = .cfgClose t b v drop) → u.foremanRuns b = true → u.mbxBusy b = false →
      u.flashCheck b ≠ 0 → ∃ s', exec c s = .next s' ∧ s'.rd (mbxStat b) = 2 + u.flashCheck b * 256 ∧
        s'.isLatched (fmPg b) 0x39 = true ∧ s'.raised (fmPg b) 0 = true ∧ u.sameRegs s' [mbxStat b]) ∧
    (u.foremanRuns b = true → u.mbxBusy b = false → u.flashCheck b = 0 → bankSize < a + n → n ≤ 2048 →
      ∃ s', exec (.fwWrite t b) s = .next s' ∧ s'.rd (mbxStat b) = 2 + 3 * 256) ∧
    (∀ (m : Mbx) (pass : Bool) (k : Nat), u.mbx b = some m → u.foremanRuns b = true → k = 1 - u.bankOf b →
      ∃ s', exec (.mbxDone t b pass) s = .next s' ∧ s'.mbx b = none ∧ s'.raised (fmPg b) 0 = true ∧
        (m.op = 0x01 → s'.rd (mbxStat b) = 2 ∧ s'.rd (fmPg b + Off.FOREMAN_MBX_RESULT) = u.version (u.bankOf b)) ∧
        (m.op = 0x10 → s'.rd (mbxStat b) = 2 ∧ s'.rd (fmPg b + Off.FOREMAN_MBX_RESULT) = bankSize ∧
          ∀ x, bankBase k ≤ x → x < bankBase k + bankSize → s'.flashByte x = 0xFF) ∧
        (m.op = 0x11 → s'.rd (mbxStat b) = 2 ∧
          ∀ i, i < m.data.length → s'.flashByte (bankBase k + m.arg0 + i) = m.data.getD i 0) ∧
        (m.op = 0x12 → s'.imageLen k = m.arg0 ∧
          s'.rd (mbxStat b) = 2 + (if s'.bankOk k (u.ownerHash b) then 0 else 4) * 256) ∧
        (m.op = 0x21 → s'.rd (mbxStat b) = 2 ∧ s'.cfgCopy (1 - u.cfgInForce) = none ∧
          ∀ i, i < m.data.length → s'.flashByte (copyBase (1 - u.cfgInForce) + m.arg0 + i) = m.data.getD i 0) ∧
        (m.op = 0x22 → s'.rd (mbxStat b) = 2 + (if pass then 0 else 4) * 256) ∧
        (m.op = 0x30 → s'.rd (mbxStat b) = 2) ∧ u.samePages s' [fmPg b] ∧
        s' = { u with regs := s'.regs, boot := s'.boot, ev := s'.ev })

/-- R389–R395, R398: an SPDM request is answered while the ridge's foreman runs and the exchange has come far enough, else with
ERROR; each signed answer counts and raises its event. The owner key is stored once, and its removal waits for POR; a locked
IDENT page refuses both. -/
def Obligations.Attestation : Prop :=
  ∀ (s u : State) (t : PT), u = s.arrive t →
    (∀ (c : Instr) (need stage : Nat) (x : Answer) (p384 sha384 : Bool) (slot : Fin 8) (off len : BitVec 16),
      (c = .getVersion t ∧ need = 0 ∧ stage = 1 ∧ x = .version 0x12 ∨
        c = .getCapabilities t ∧ need = 1 ∧ stage = 2 ∧ x = .capabilities true true true true ∨
        c = .negotiateAlgorithms t p384 sha384 ∧ need = 2 ∧ stage = (if p384 && sha384 then 3 else 2) ∧
          x = .algorithms p384 sha384 ∨
        c = .getDigests t ∧ need = 3 ∧ stage = 3 ∧ x = .digests (Config.sha384 u.chain) ∨
        c = .getCertificate t slot off len ∧ need = 3 ∧ stage = 3 ∧
          x = (if slot.val = 0 then .certificate ((u.chain.drop off.toNat).take len.toNat) else .error)) →
      (u.spdmUp = false → ∃ s', exec c s = .next s' ∧ s' = { u with ev := s'.ev }) ∧
      (u.spdmUp = true → u.spdm.stage < need → ∃ s', exec c s = .next s' ∧
        s'.spdm = { stage := u.spdm.stage, answer := some .error } ∧ s' = { u with spdm := s'.spdm, ev := s'.ev }) ∧
      (u.spdmUp = true → need ≤ u.spdm.stage → ∃ s', exec c s = .next s' ∧
        s'.spdm = { stage := stage, answer := some x } ∧ s' = { u with spdm := s'.spdm, ev := s'.ev })) ∧
    (∀ (c : Instr) (x : Answer) (tr : List Byte) (sig : List Byte) (i : Fin 256), u.spdmUp = true → 3 ≤ u.spdm.stage →
      sig = Config.ecdsaSign u.ridge (Config.sha384 tr) →
      (c = .challenge t 0 tr ∧ x = .challenge (Config.sha384 u.chain) sig ∨
        c = .getMeasurements t i tr ∧ x = .measurements (u.measurements.filter fun e => i.val == 0xFF || e.1 == i.val) sig) →
      ∃ s', exec c s = .next s' ∧ s'.spdm = { stage := 3, answer := some x } ∧
        s'.rd (identPg + Off.IDENT_ATTEST_COUNT) = satAdd (u.rd (identPg + Off.IDENT_ATTEST_COUNT)) 1 ∧
        mapGet (fun _ => 0) s'.signSeq u.ridge = mapGet (fun _ => 0) u.signSeq u.ridge + 1 ∧ s'.raised identPg 0 = true ∧
        u.sameRegs s' [identPg + Off.IDENT_ATTEST_COUNT] ∧
        s' = { u with regs := s'.regs, spdm := s'.spdm, signSeq := s'.signSeq, ev := s'.ev }) ∧
    (u.locked identPg = false → u.boot.owner = none → ∃ s', exec (.ownerSet t) s = .next s' ∧
      s'.boot = { u.boot with owner := some ((List.range 12).map fun w => u.reg (identPg + Off.IDENT_OWNER_HASH w)) } ∧
      s' = { u with boot := s'.boot, ev := s'.ev }) ∧
    ((u.locked identPg = true ∨ u.boot.owner ≠ none) → ∃ s', exec (.ownerSet t) s = .next s' ∧
      s'.isLatched identPg 0xF8 = true ∧ s' = { u with ev := s'.ev }) ∧
    (u.locked identPg = false → ∃ s', exec (.ownerClear t) s = .next s' ∧
      s'.boot = { u.boot with clear := u.boot.owner.isSome } ∧ s' = { u with boot := s'.boot, ev := s'.ev }) ∧
    (u.locked identPg = true → ∃ s', exec (.ownerClear t) s = .next s' ∧ s'.isLatched identPg 0xF8 = true ∧
      s'.isLatched identPg 0x04 = true ∧ s' = { u with ev := s'.ev })

/-! ### Resets, start-up, temperature and power -/

/-- R7, R310, R311, R365, R399, R416: RESET_N and POR bring every register to its reset value but those that show pins, the
reset's cause, and, through RESET_N, LOCK; PT stands at 0 and the lattice at its reset state; queues, sequencers and lanes are
empty; PT_GEN, the memories a reset does not touch, the flash and host memory stay; POR clears LOCK. A short pulse of RESET_N
is counted. PERST_N resets the host interface only. -/
def Obligations.Resets : Prop :=
  ∀ (s u : State) (t : PT), u = s.arrive t →
    (∃ s', exec (.resetN t false) s = .next s' ∧ (∀ b, u.has b = true →
        s'.rd (conPg b + Off.CONTINUITY_RESET_GLITCH_COUNT) = satAdd (u.rd (conPg b + Off.CONTINUITY_RESET_GLITCH_COUNT)) 1) ∧
      s' = { u with regs := s'.regs, ev := s'.ev }) ∧
    (∀ c por, (c = .resetN t true ∧ por = false ∨ c = .por t ∧ por = true) → ∃ s', exec c s = .next s' ∧
      (∀ a, a ≠ pkgp 0 + Off.PKG_PWR_STAT → a ≠ srcStat → (∀ b, a ≠ conPg b + Off.CONTINUITY_LAST_RESET) →
        (por = true ∨ pageOf a ∉ u.allPages ∨ a % 0x1000 ≠ Off.PG_PAGE_CTRL) → s'.reg a = resetWord u.variant a) ∧
      (∀ pg ∈ u.allPages, s'.locked pg = (!por && u.locked pg)) ∧
      (∀ b, u.has b = true → s'.rd (conPg b + Off.CONTINUITY_LAST_RESET) = if por then 1 else 2) ∧
      s'.pwrGood = u.pwrGood ∧ s'.clk = Clk.reset ∧ s'.ridge = 0 ∧ s'.tree = Tree.init ∧ s'.ptGen = u.ptGen ∧
      s'.queues = [] ∧ s'.flight = [] ∧ s'.edges = [] ∧ s'.seqs = [] ∧ s'.streams = [] ∧ s'.tones = [] ∧ s'.caps = [] ∧
      s'.dmas = [] ∧ s'.ev.host = u.ev.host ∧ s'.ev.raw = [] ∧ s'.boot.flash = u.boot.flash ∧ s'.boot.up = false ∧
      (por = false → ∀ a, volatileMem a = false → s'.memByte a = u.memByte a) ∧
      s'.boot.owner = (if por && u.boot.clear then none else u.boot.owner) ∧ s'.pending = u.pending) ∧
    (u.ev.perstLow = false → ∃ s', exec (.perstN t true) s = .next s' ∧ s'.ev.perstLow = true ∧ s'.ev.wr = 0 ∧ s'.dmas = [] ∧
      (∀ a, perstReg a = true → s'.reg a = resetWord u.variant a) ∧
      (∀ b, u.has b = true → s'.rd (conPg b + Off.CONTINUITY_PERST_COUNT) =
        satAdd (u.rd (conPg b + Off.CONTINUITY_PERST_COUNT)) 1) ∧
      (∀ a, perstReg a = false → (∀ b, a ≠ conPg b + Off.CONTINUITY_PERST_COUNT) → s'.reg a = u.reg a) ∧
      s' = { u with regs := s'.regs, dmas := s'.dmas, spdm := s'.spdm, ev := s'.ev }) ∧
    (∃ s', exec (.perstN t false) s = .next s' ∧ s'.ev.perstLow = false ∧ s' = { u with ev := s'.ev })

/-- R282, R397, R406, R408, R410, R425: the foremen start from a bank that verifies and take their trim store; a self-test
that passes makes a candidate, and one that fails fences its bent; temperatures, their limits and alarms; the rails; and
PWR_FAIL_N. -/
def Obligations.StartAndPower : Prop :=
  ∀ (s u : State) (t : PT), u = s.arrive t →
    (∀ fails, u.boot.up = false → ∃ s', exec (.foremanStart t fails) s = .next s' ∧ s'.boot.up = true ∧ s'.ev.faultOn = true ∧
      ∀ b k, u.has b = true → k = mapGet (fun _ => 0) u.boot.banks b → k < 2 →
        (u.bankOk k u.boot.owner = true →
          s'.foremanRuns b = true ∧ s'.bankOf b = k ∧
          s'.bit (shimStat b) 4 = ((u.cal b).copyA.valid && !(fails.any fun e => e.1.val == b && e.2.val == 0)) ∧
          s'.bit (shimStat b) 5 = ((u.cal b).copyB.valid && !(fails.any fun e => e.1.val == b && e.2.val == 1))) ∧
        (u.bankOk k u.boot.owner = false → u.bankOk (1 - k) u.boot.owner = true →
          s'.foremanRuns b = true ∧ s'.bankOf b = 1 - k ∧ s'.bit (identPg + Off.IDENT_BOOT_STAT) (8 + b) = true) ∧
        (u.bankOk k u.boot.owner = false → u.bankOk (1 - k) u.boot.owner = false →
          s'.foremanRuns b = u.foremanRuns b ∧ s'.bit (identPg + Off.IDENT_BOOT_STAT) (16 + b) = true ∧
          s'.raised identPg 1 = true)) ∧
    (u.boot.up = true → ∀ fails, ∃ s', exec (.foremanStart t fails) s = .next s' ∧ s' = { u with ev := s'.ev }) ∧
    (∀ (b : Fin 8) (pass : Bool) (block : Fin 256), u.has b = true → u.boot.up = true → setHas u.boot.bisted b = false →
      ((pass && u.foremanRuns b) = true → u.boot.preloads = [] → ∃ s', exec (.bist t b pass block) s = .next s' ∧
        s'.rd (bp b 0 + Off.BENT_BIST_RESULT) = 1 ∧ s'.bit (hierPg + Off.HIER_CAND) (8 + b) = true ∧
        s'.candidate b = (u.seesTimebase && !u.bentFenced b) ∧ setHas s'.boot.bisted b = true ∧
        s' = { u with regs := s'.regs, boot := s'.boot, tree := s'.tree, ev := s'.ev }) ∧
      ((pass && u.foremanRuns b) = false → u.worker = false →
        (∀ q, q < 16 → (u.seq (b * 16 + q)).phase = .halted ∧ (u.seq (b * 16 + q)).owed = []) →
        ∃ s', exec (.bist t b pass block) s = .next s' ∧ s'.rd (bp b 0 + Off.BENT_BIST_RESULT) = block.val * 2 ^ 8 ∧
          s'.bit (hierPg + Off.HIER_CAND) (8 + b) = false ∧ s'.isLatched (bp b 0) 0xAB = true ∧
          s'.stands (pkgp 0) 0xAC = true ∧ s'.bentFenced b = true)) ∧
    (∀ (b : Fin 8) (v : BitVec 16), u.has b = true → ∃ s', exec (.tempSample t b v) s = .next s' ∧
      s'.rd (bp b 0 + Off.BENT_DIE_TEMP) = ofSigned 32 v.toInt ∧
      (s'.cal b).temps = (v.toInt :: (u.cal b).temps).take 100 ∧
      s'.rd (calPg b + Off.CAL_TEMP_NOW) = ofSigned 32 (average ((v.toInt :: (u.cal b).temps).take 100)) ∧
      s'.stands (bp b 0) 0xA8 = decide (u.tempLimit b 0 < v.toInt) ∧
      s'.stands (bp b 0) 0xA9 = decide (u.tempLimit b 2 < v.toInt) ∧
      (∀ i, i < 3 → setHas u.tempOff (b * 4 + i) = false →
        (if i = 1 then v.toInt < u.tempLimit b i else u.tempLimit b i < v.toInt) →
        s'.raised (bp b 0) (1 + i) = true ∧ setHas s'.tempOff (b * 4 + i) = true) ∧
      u.sameRegs s' [bp b 0 + Off.BENT_DIE_TEMP, calPg b + Off.CAL_TEMP_NOW, pkgp 0 + Off.PKG_TEMP_MAX] ∧
      s' = { u with regs := s'.regs, cals := s'.cals, tempOff := s'.tempOff, ev := s'.ev }) ∧
    (∀ (b : Fin 8) (r : Fin 4) (mv : BitVec 16), u.has b = true →
      (u.railOk b r mv.toNat = false → u.bit (bp b 0 + Off.BENT_RAIL_STAT) r = false →
        ∃ s', exec (.railAlert t b ⟨r, mv⟩) s = .next s' ∧
        s'.bit (bp b 0 + Off.BENT_RAIL_STAT) r = true ∧ s'.stands (bp b 0) 0xAA = true ∧ s'.raised (bp b 0) 4 = true ∧
        u.sameRegs s' [bp b 0 + Off.BENT_RAIL_STAT] ∧ s' = { u with regs := s'.regs, ev := s'.ev }) ∧
      (u.railOk b r mv.toNat = true → ∃ s', exec (.railInBand t b ⟨r, mv⟩) s = .next s' ∧
        s'.bit (bp b 0 + Off.BENT_RAIL_STAT) r = false ∧
        s'.stands (bp b 0) 0xAA = (s'.rd (bp b 0 + Off.BENT_RAIL_STAT) != 0) ∧
        u.sameRegs s' [bp b 0 + Off.BENT_RAIL_STAT] ∧ s' = { u with regs := s'.regs, ev := s'.ev })) ∧
    (u.pwrGood = true → (∀ b, u.has b = true → u.bit (shimStat b) 0 = false ∧ u.mbx b = none) →
      ∃ s', exec (.pwrFail t) s = .next s' ∧ s'.pwrGood = false ∧
        s'.rd (pkgp 0 + Off.PKG_PWR_FAIL_COUNT) = satAdd (u.rd (pkgp 0 + Off.PKG_PWR_FAIL_COUNT)) 1 ∧
        s'.stands (pkgp 0) 0xAE = true ∧ s'.raised (pkgp 0) 4 = true ∧
        u.sameRegs s' [pkgp 0 + Off.PKG_PWR_STAT, pkgp 0 + Off.PKG_PWR_FAIL_COUNT] ∧
        s' = { u with regs := s'.regs, ev := s'.ev }) ∧
    (u.pwrGood = true → ∃ s', exec (.pwrFail t) s = .next s' ∧ ∀ b, u.has b = true → s'.bit (shimStat b) 0 = false) ∧
    (u.pwrGood = false → ∃ s', exec (.pwrRestored t) s = .next s' ∧ s'.pwrGood = true ∧ s'.stands (pkgp 0) 0xAE = false ∧
      s'.raised (pkgp 0) 5 = true ∧ (∀ b, u.has b = true → (u.cal b).storeReq = true → (s'.cal b).storeAt = 0) ∧
      u.sameRegs s' [pkgp 0 + Off.PKG_PWR_STAT] ∧ s' = { u with regs := s'.regs, cals := s'.cals, ev := s'.ev })

/-! ### The block as a whole -/

/-- A step takes the command at the front of the queue and runs it with the queue's rest. On an empty queue it is one tick of
the lattice: PT, once it runs, advances by N (R30; that an idle step is a tick is the model's choice, log entry 3). -/
def Obligations.StepRunsTheQueue : Prop :=
  (∀ (c : Instr) (r : List Instr) (s : State), s.pending = c :: r → step s = exec c { s with pending := r }) ∧
    ∀ s : State, s.pending = [] → ∃ s', step s = .next s' ∧
      (s.clk.running = true → s.clk.now + s.clk.n < 2 ^ 80 → s'.clk.now = s.clk.now + s.clk.n) ∧
      (s.clk.running = false → s' = s) ∧ s' = { s with clk := { s.clk with now := s'.clk.now } }

/-- R7, R24, R30, R310: right after reset the queue is empty, PT stands at 0, nothing runs, and the invariant of a run holds.
The part is a GY-8 with bent 0 in the ridge's place (the model's choice, log entry 2). -/
def Obligations.ResetState : Prop :=
  State.reset.pending = [] ∧ State.reset.clkOk = true ∧ State.reset.has State.reset.ridge = true ∧
    State.reset.clk = { now := 0, running := false, n := 1600, o := 0 } ∧ Memory.wf State.reset.mem = true ∧
    (∀ pg ∈ State.reset.allPages, State.reset.locked pg = false ∧ State.reset.fenced pg = false ∧
      State.reset.draining pg = false) ∧
    (∀ b, b < 8 → State.reset.foremanRuns b = false ∧ State.reset.pwrup b = false ∧ State.reset.candidate b = false) ∧
    State.reset.rd (ledgerPg + Off.LEDGER_CAP) = 0x474A0 ∧ State.reset.rd (pkgp 0 + Off.PKG_PKG_INFO) = 0x4708A138

/-- Every step answers a next state, whatever the state and the command, and keeps what rules out the states that no run
reaches: PT below 2^80 and at 0 until it starts (R24, R30), and a ridge that the package has (R335). It takes at most one
command from the queue and never changes the part. -/
def Obligations.EveryStepAnswers : Prop :=
  ∀ s : State, ∃ s', step s = .next s' ∧ s'.pending = s.pending.tail ∧ s'.variant = s.variant ∧
    (s.clkOk = true → s'.clkOk = true) ∧ (s.has s.ridge = true → s'.has s'.ridge = true)

/-- R31, R33, R89: once it runs, PT never goes back and never stops, whatever is commanded, but for POR, RESET_N and the one
adoption of a tree's PT; N and the origin O change only then and in the lock window that locks the ridge's active sill to the
new lattice of a relock, whose N they then take with the present PT as O (the model's reading, log entry 64). -/
def Obligations.PtNeverStepsBack : Prop :=
  ∀ (c : Instr) (s s' : State), exec c s = .next s' → s.clk.running = true → (∀ t, c ≠ .resetN t true) → (∀ t, c ≠ .por t) →
    (∀ t sent o, c ≠ .joinComplete t none sent o) →
    s'.clk.running = true ∧ s.clk.now ≤ s'.clk.now ∧
      ((∀ t b k before last, c ≠ .lockWindow t b k before last) → s'.clk.n = s.clk.n ∧ s'.clk.o = s.clk.o) ∧
      ∀ t b k before last, c = .lockWindow t b k before last →
        (((s.arrive t).windowRelocks b k (before ++ [last]) = false → s'.clk.n = s.clk.n ∧ s'.clk.o = s.clk.o) ∧
          ∀ n, (s.arrive t).windowRelocks b k (before ++ [last]) = true → s.tb.relock = some (n, none) →
            s'.clk = { now := (s.arrive t).now, running := true, n := n, o := (s.arrive t).now })

/-- R47: the late and collision counts of the TIME page saturate at 0xFFFF_FFFF and count in the bent of the lane, whoever
issued the peg; COUNT_CLR clears the four together. -/
def Obligations.LateCounts : Prop :=
  (∀ (u : State) (lane cause c : Nat) (p : Peg), u.laneValid lane = true →
    (c = Off.TIME_LATE_DROP_COUNT ∨ c = Off.TIME_LATE_SLIP_COUNT ∨ c = Off.TIME_LATE_VOID_COUNT) →
    (u.lateRecords lane p cause c).rd (timePg (laneBent lane) + c) =
        min (u.rd (timePg (laneBent lane) + c) + 1) 0xFFFFFFFF ∧
      ∀ b o, (o = Off.TIME_LATE_DROP_COUNT ∨ o = Off.TIME_LATE_SLIP_COUNT ∨ o = Off.TIME_LATE_VOID_COUNT ∨
          o = Off.TIME_COLLIDE_COUNT) → (b ≠ laneBent lane ∨ o ≠ c) → u.has b = true →
        (u.lateRecords lane p cause c).rd (timePg b + o) = u.rd (timePg b + o)) ∧
  (∀ (u : State) (lane : Nat) (p : Peg), u.laneValid lane = true → ((u.queue lane).any fun x => x.pt == p.pt) = true →
    (u.enqueue lane p).rd (timePg (laneBent lane) + Off.TIME_COLLIDE_COUNT) =
        min (u.rd (timePg (laneBent lane) + Off.TIME_COLLIDE_COUNT) + 1) 0xFFFFFFFF ∧
      u.sameRegs (u.enqueue lane p) [timePg (laneBent lane) + Off.TIME_COLLIDE_COUNT]) ∧
  ∀ (s u : State) (t : PT) (b : Fin 8), u = s.arrive t → u.takes b (timePg b) → ∃ s', exec (.countClr t b) s = .next s' ∧
    s'.rd (timePg b + Off.TIME_LATE_DROP_COUNT) = 0 ∧ s'.rd (timePg b + Off.TIME_LATE_SLIP_COUNT) = 0 ∧
    s'.rd (timePg b + Off.TIME_LATE_VOID_COUNT) = 0 ∧ s'.rd (timePg b + Off.TIME_COLLIDE_COUNT) = 0 ∧
    u.sameRegs s' [timePg b + Off.TIME_LATE_DROP_COUNT, timePg b + Off.TIME_LATE_SLIP_COUNT,
      timePg b + Off.TIME_LATE_VOID_COUNT, timePg b + Off.TIME_COLLIDE_COUNT] ∧
    s' = { u with regs := s'.regs, ev := s'.ev }

/-- R306: BENT_CMD.DRAIN sets DRAIN on every page that a fence of the bent would fence, and CONT_STAT.BENT_DRAINED reads 1
exactly while all of them report DRAINED. -/
def Obligations.BentDrained : Prop :=
  (∀ (s u : State) (t : PT) (b : Fin 8), u = s.arrive t → u.takes b (conPg b) → ∃ s', exec (.bentDrain t b) s = .next s' ∧
    ∀ p ∈ fencePages, s'.draining (bp b p) = true) ∧
  (∀ p, p ∈ fencePages ↔ (4 ≤ p ∧ p ≤ 0x17) ∨ p = 0x1B ∨ p = 0x1C ∨ (0x20 ≤ p ∧ p < 0x30)) ∧
  ∀ (s : State) (b : Nat), s.has b = true → (bitAt (s.value (conPg b + Off.CONTINUITY_CONT_STAT)) 2 = true ↔
    ∀ p ∈ fencePages, s.drained (bp b p) = true)

/-- R432: a new part holds trim store copies A (sequence 2) and B (sequence 1), each with the five factory points, and copy F;
its first start raises no COPY_BAD, and SHIM_STAT then reads 0x0000_0530. -/
def Obligations.NewPart : Prop :=
  ∀ b, b < 8 →
    (State.reset.cal b).copyA = { valid := true, seq := 2, points := factoryPoints } ∧
    (State.reset.cal b).copyB = { valid := true, seq := 1, points := factoryPoints } ∧ factoryPoints.length = 5 ∧
    (State.reset.cal b).factoryOk = true ∧
    ∀ t s', exec (.foremanStart t []) State.reset = .next s' → s'.foremanRuns b = true →
      s'.value (shimStat b) = 0x530 ∧ s'.raised (shimPg b) 3 = false
end

