-- ==== Sys2Proof/Laws/Exec.lean ====
section
/-!
SUPPORT. Laws/Exec.lean: the meaning that exec gives each command, one lemma per constructor.
-/

set_option Elab.async false

namespace Sys2Proof.Machine

theorem exec_registerWrite (x0 : PT) (x1 : Fin 0x4000000) (x2 : Bool) (x3 : Word) (s : State) : exec (.registerWrite x0 x1 x2 x3) s = execRegisterWrite x0 x1 x2 x3 s := rfl
theorem exec_ptHoldWrite (x0 : PT) (x1 : Writer) (x2 : Fin 0x4000000) (x3 : Word) (s : State) : exec (.ptHoldWrite x0 x1 x2 x3) s = execPtHoldWrite x0 x1 x2 x3 s := rfl
theorem exec_ptLoWrite (x0 : PT) (x1 : Writer) (x2 : Fin 0x4000000) (x3 : Word) (s : State) : exec (.ptLoWrite x0 x1 x2 x3) s = execPtLoWrite x0 x1 x2 x3 s := rfl
theorem exec_readLatch (x0 : PT) (x1 : Writer) (x2 : Fin 0x4000000) (s : State) : exec (.readLatch x0 x1 x2) s = execReadLatch x0 x1 x2 s := rfl
theorem exec_bar2Write (x0 : PT) (x1 : Fin 0x400000000) (x2 : List Byte) (s : State) : exec (.bar2Write x0 x1 x2) s = execBar2Write x0 x1 x2 s := rfl
theorem exec_bar2Read (x0 : PT) (x1 : Fin 0x400000000) (x2 : Ecc) (s : State) : exec (.bar2Read x0 x1 x2) s = execBar2Read x0 x1 x2 s := rfl
theorem exec_commit (x0 : PT) (x1 : Page) (x2 : Fin 16) (s : State) : exec (.commit x0 x1 x2) s = execCommit x0 x1 x2 s := rfl
theorem exec_commitCancel (x0 : PT) (x1 : Page) (s : State) : exec (.commitCancel x0 x1) s = execCommitCancel x0 x1 s := rfl
theorem exec_commitApply (x0 : PT) (x1 : Page) (s : State) : exec (.commitApply x0 x1) s = execCommitApply x0 x1 s := rfl
theorem exec_pageEnable (x0 : PT) (x1 : Page) (s : State) : exec (.pageEnable x0 x1) s = execPageEnable x0 x1 s := rfl
theorem exec_pageDisable (x0 : PT) (x1 : Page) (s : State) : exec (.pageDisable x0 x1) s = execPageDisable x0 x1 s := rfl
theorem exec_pageDrain (x0 : PT) (x1 : Page) (s : State) : exec (.pageDrain x0 x1) s = execPageDrain x0 x1 s := rfl
theorem exec_pageFence (x0 : PT) (x1 : Page) (s : State) : exec (.pageFence x0 x1) s = execPageFence x0 x1 s := rfl
theorem exec_pageSelftest (x0 : PT) (x1 : Page) (s : State) : exec (.pageSelftest x0 x1) s = execPageSelftest x0 x1 s := rfl
theorem exec_pageLock (x0 : PT) (x1 : Page) (s : State) : exec (.pageLock x0 x1) s = execPageLock x0 x1 s := rfl
theorem exec_hclr (x0 : PT) (x1 : Page) (s : State) : exec (.hclr x0 x1) s = execHclr x0 x1 s := rfl
theorem exec_selftestDone (x0 : PT) (x1 : Page) (x2 : Bool) (s : State) : exec (.selftestDone x0 x1 x2) s = execSelftestDone x0 x1 x2 s := rfl
theorem exec_drainDone (x0 : PT) (x1 : Page) (s : State) : exec (.drainDone x0 x1) s = execDrainDone x0 x1 s := rfl
theorem exec_evtPendClear (x0 : PT) (x1 : Page) (x2 : Bool) (x3 : Word) (s : State) : exec (.evtPendClear x0 x1 x2 x3) s = execEvtPendClear x0 x1 x2 x3 s := rfl
theorem exec_evtForce (x0 : PT) (x1 : Page) (x2 : Bool) (x3 : Word) (s : State) : exec (.evtForce x0 x1 x2 x3) s = execEvtForce x0 x1 x2 x3 s := rfl
theorem exec_evtEnWrite (x0 : PT) (x1 : Page) (x2 : Bool) (x3 : Word) (s : State) : exec (.evtEnWrite x0 x1 x2 x3) s = execEvtEnWrite x0 x1 x2 x3 s := rfl
theorem exec_holdoffExpiry (x0 : PT) (x1 : Fin 1152) (s : State) : exec (.holdoffExpiry x0 x1) s = execHoldoffExpiry x0 x1 s := rfl
theorem exec_clrCounts (x0 : PT) (x1 : Page) (x2 : Option (Fin 16)) (s : State) : exec (.clrCounts x0 x1 x2) s = execClrCounts x0 x1 x2 s := rfl
theorem exec_countClr (x0 : PT) (x1 : Fin 8) (s : State) : exec (.countClr x0 x1) s = execCountClr x0 x1 s := rfl
theorem exec_scrub (x0 : PT) (x1 : Fin 8) (x2 : Fin 0x80000000) (x3 : Ecc) (s : State) : exec (.scrub x0 x1 x2 x3) s = execScrub x0 x1 x2 x3 s := rfl
theorem exec_pegAccept (x0 : PT) (x1 : Fin 8) (x2 : Fin 8) (x3 : Fin 256) (x4 : PegRead) (x5 : PT) (s : State) : exec (.pegAccept x0 x1 x2 x3 x4 x5) s = execPegAccept x0 x1 x2 x3 x4 x5 s := rfl
theorem exec_marker (x0 : PT) (x1 : Fin 8) (x2 : Fin 64) (s : State) : exec (.marker x0 x1 x2) s = execMarker x0 x1 x2 s := rfl
theorem exec_alarmArm (x0 : PT) (x1 : Fin 8) (s : State) : exec (.alarmArm x0 x1) s = execAlarmArm x0 x1 s := rfl
theorem exec_alarmDisarm (x0 : PT) (x1 : Fin 8) (s : State) : exec (.alarmDisarm x0 x1) s = execAlarmDisarm x0 x1 s := rfl
theorem exec_alarm (x0 : PT) (x1 : Fin 8) (s : State) : exec (.alarm x0 x1) s = execAlarm x0 x1 s := rfl
theorem exec_ppsEdge (x0 : PT) (x1 : PinEdge) (s : State) : exec (.ppsEdge x0 x1) s = execPpsEdge x0 x1 s := rfl
theorem exec_ppsMissing (x0 : PT) (s : State) : exec (.ppsMissing x0) s = execPpsMissing x0 s := rfl
theorem exec_sourceQualified (x0 : PT) (x1 : Source) (x2 : SrcTest) (s : State) : exec (.sourceQualified x0 x1 x2) s = execSourceQualified x0 x1 x2 s := rfl
theorem exec_srcLost (x0 : PT) (x1 : SrcFreqs) (s : State) : exec (.srcLost x0 x1) s = execSrcLost x0 x1 s := rfl
theorem exec_switchCmd (x0 : PT) (x1 : Fin 4) (s : State) : exec (.switchCmd x0 x1) s = execSwitchCmd x0 x1 s := rfl
theorem exec_switched (x0 : PT) (x1 : BitVec 32) (s : State) : exec (.switched x0 x1) s = execSwitched x0 x1 s := rfl
theorem exec_steeringDone (x0 : PT) (s : State) : exec (.steeringDone x0) s = execSteeringDone x0 s := rfl
theorem exec_ocxoReadyChange (x0 : PT) (x1 : Bool) (s : State) : exec (.ocxoReadyChange x0 x1) s = execOcxoReadyChange x0 x1 s := rfl
theorem exec_warmSettled (x0 : PT) (s : State) : exec (.warmSettled x0) s = execWarmSettled x0 s := rfl
theorem exec_ageUpdate (x0 : PT) (s : State) : exec (.ageUpdate x0) s = execAgeUpdate x0 s := rfl
theorem exec_lockWindow (x0 : PT) (x1 : Fin 8) (x2 : Fin 2) (x3 : List Nat) (x4 : Nat) (s : State) : exec (.lockWindow x0 x1 x2 x3 x4) s = execLockWindow x0 x1 x2 x3 x4 s := rfl
theorem exec_refLos (x0 : PT) (x1 : Fin 8) (x2 : LostRef) (s : State) : exec (.refLos x0 x1 x2) s = execRefLos x0 x1 x2 s := rfl
theorem exec_twinWatch (x0 : PT) (x1 : Fin 8) (x2 : List Int) (x3 : List Int) (x4 : List Int) (s : State) : exec (.twinWatch x0 x1 x2 x3 x4) s = execTwinWatch x0 x1 x2 x3 x4 s := rfl
theorem exec_takeover (x0 : PT) (x1 : Fin 8) (s : State) : exec (.takeover x0 x1) s = execTakeover x0 x1 s := rfl
theorem exec_sillReacquireTimeout (x0 : PT) (x1 : Fin 8) (x2 : Fin 2) (s : State) : exec (.sillReacquireTimeout x0 x1 x2) s = execSillReacquireTimeout x0 x1 x2 s := rfl
theorem exec_swap (x0 : PT) (x1 : Fin 8) (x2 : Fin 2) (s : State) : exec (.swap x0 x1 x2) s = execSwap x0 x1 x2 s := rfl
theorem exec_restart (x0 : PT) (x1 : Fin 8) (x2 : Fin 2) (s : State) : exec (.restart x0 x1 x2) s = execRestart x0 x1 x2 s := rfl
theorem exec_unpark (x0 : PT) (x1 : Fin 8) (x2 : Fin 2) (s : State) : exec (.unpark x0 x1 x2) s = execUnpark x0 x1 x2 s := rfl
theorem exec_holdLimit (x0 : PT) (x1 : Fin 8) (s : State) : exec (.holdLimit x0 x1) s = execHoldLimit x0 x1 s := rfl
theorem exec_pullDone (x0 : PT) (x1 : Fin 8) (s : State) : exec (.pullDone x0 x1) s = execPullDone x0 x1 s := rfl
theorem exec_phaseStep (x0 : PT) (x1 : Fin 8) (x2 : Fin 2) (x3 : BitVec 24) (s : State) : exec (.phaseStep x0 x1 x2 x3) s = execPhaseStep x0 x1 x2 x3 s := rfl
theorem exec_phaseDone (x0 : PT) (s : State) : exec (.phaseDone x0) s = execPhaseDone x0 s := rfl
theorem exec_relock (x0 : PT) (x1 : Fin 8) (x2 : Fin 2) (x3 : BitVec 11) (x4 : Bool) (s : State) : exec (.relock x0 x1 x2 x3 x4) s = execRelock x0 x1 x2 x3 x4 s := rfl
theorem exec_relockDone (x0 : PT) (s : State) : exec (.relockDone x0) s = execRelockDone x0 s := rfl
theorem exec_set (x0 : PT) (x1 : Fin 8) (x2 : Fin 32) (s : State) : exec (.set x0 x1 x2) s = execSet x0 x1 x2 s := rfl
theorem exec_pulse (x0 : PT) (x1 : Fin 8) (x2 : Fin 32) (s : State) : exec (.pulse x0 x1 x2) s = execPulse x0 x1 x2 s := rfl
theorem exec_burst (x0 : PT) (x1 : Fin 8) (x2 : Fin 32) (s : State) : exec (.burst x0 x1 x2) s = execBurst x0 x1 x2 s := rfl
theorem exec_clockStart (x0 : PT) (x1 : Fin 8) (x2 : Fin 32) (s : State) : exec (.clockStart x0 x1 x2) s = execClockStart x0 x1 x2 s := rfl
theorem exec_clockStop (x0 : PT) (x1 : Fin 8) (x2 : Fin 32) (s : State) : exec (.clockStop x0 x1 x2) s = execClockStop x0 x1 x2 s := rfl
theorem exec_rest (x0 : PT) (x1 : Fin 8) (x2 : Fin 32) (s : State) : exec (.rest x0 x1 x2) s = execRest x0 x1 x2 s := rfl
theorem exec_arm (x0 : PT) (x1 : Fin 8) (x2 : Fin 32) (s : State) : exec (.arm x0 x1 x2) s = execArm x0 x1 x2 s := rfl
theorem exec_disarm (x0 : PT) (x1 : Fin 8) (x2 : Fin 32) (s : State) : exec (.disarm x0 x1 x2) s = execDisarm x0 x1 x2 s := rfl
theorem exec_trigger (x0 : PT) (x1 : Fin 8) (x2 : Fin 32) (x3 : PinEdge) (s : State) : exec (.trigger x0 x1 x2 x3) s = execTrigger x0 x1 x2 x3 s := rfl
theorem exec_chStop (x0 : PT) (x1 : Fin 8) (x2 : Fin 32) (s : State) : exec (.chStop x0 x1 x2) s = execChStop x0 x1 x2 s := rfl
theorem exec_chDrain (x0 : PT) (x1 : Fin 8) (x2 : Fin 32) (s : State) : exec (.chDrain x0 x1 x2) s = execChDrain x0 x1 x2 s := rfl
theorem exec_chResense (x0 : PT) (x1 : Fin 8) (x2 : Fin 32) (s : State) : exec (.chResense x0 x1 x2) s = execChResense x0 x1 x2 s := rfl
theorem exec_chArm (x0 : PT) (x1 : Fin 8) (x2 : Fin 32) (s : State) : exec (.chArm x0 x1 x2) s = execChArm x0 x1 x2 s := rfl
theorem exec_chDisarm (x0 : PT) (x1 : Fin 8) (x2 : Fin 32) (s : State) : exec (.chDisarm x0 x1 x2) s = execChDisarm x0 x1 x2 s := rfl
theorem exec_sensingDone (x0 : PT) (x1 : Fin 8) (x2 : Fin 32) (x3 : Sensed) (s : State) : exec (.sensingDone x0 x1 x2 x3) s = execSensingDone x0 x1 x2 x3 s := rfl
theorem exec_disableHoldEnd (x0 : PT) (x1 : Fin 8) (x2 : Fin 4) (x3 : Fin 64) (s : State) : exec (.disableHoldEnd x0 x1 x2 x3) s = execDisableHoldEnd x0 x1 x2 x3 s := rfl
theorem exec_pinFault (x0 : PT) (x1 : Fin 8) (x2 : Fin 32) (s : State) : exec (.pinFault x0 x1 x2) s = execPinFault x0 x1 x2 s := rfl
theorem exec_spareTakeover (x0 : PT) (x1 : Fin 8) (x2 : Fin 32) (s : State) : exec (.spareTakeover x0 x1 x2) s = execSpareTakeover x0 x1 x2 s := rfl
theorem exec_thrWindow (x0 : PT) (x1 : Fin 8) (x2 : Fin 32) (x3 : Nat) (x4 : Int) (x5 : Int) (s : State) : exec (.thrWindow x0 x1 x2 x3 x4 x5) s = execThrWindow x0 x1 x2 x3 x4 x5 s := rfl
theorem exec_vectorFail (x0 : PT) (x1 : Fin 8) (x2 : Fin 32) (x3 : Nat) (x4 : Bool) (s : State) : exec (.vectorFail x0 x1 x2 x3 x4) s = execVectorFail x0 x1 x2 x3 x4 s := rfl
theorem exec_seqStart (x0 : PT) (x1 : Fin 8) (x2 : Fin 16) (s : State) : exec (.seqStart x0 x1 x2) s = execSeqStart x0 x1 x2 s := rfl
theorem exec_estimateDone (x0 : PT) (x1 : Fin 8) (x2 : Fin 16) (s : State) : exec (.estimateDone x0 x1 x2) s = execEstimateDone x0 x1 x2 s := rfl
theorem exec_seqHalt (x0 : PT) (x1 : Fin 8) (x2 : Fin 16) (s : State) : exec (.seqHalt x0 x1 x2) s = execSeqHalt x0 x1 x2 s := rfl
theorem exec_seqStop (x0 : PT) (x1 : Fin 8) (x2 : Fin 16) (s : State) : exec (.seqStop x0 x1 x2) s = execSeqStop x0 x1 x2 s := rfl
theorem exec_seqMove (x0 : PT) (x1 : Fin 8) (x2 : Fin 16) (s : State) : exec (.seqMove x0 x1 x2) s = execSeqMove x0 x1 x2 s := rfl
theorem exec_admitRequest (x0 : PT) (x1 : Fin 8) (x2 : Fin 16) (s : State) : exec (.admitRequest x0 x1 x2) s = execAdmitRequest x0 x1 x2 s := rfl
theorem exec_stepFetch (x0 : PT) (x1 : Fin 8) (x2 : Fin 16) (x3 : Ecc) (s : State) : exec (.stepFetch x0 x1 x2 x3) s = execStepFetch x0 x1 x2 x3 s := rfl
theorem exec_pegStep (x0 : PT) (x1 : Fin 8) (x2 : Fin 16) (s : State) : exec (.pegStep x0 x1 x2) s = execPegStep x0 x1 x2 s := rfl
theorem exec_playStep (x0 : PT) (x1 : Fin 8) (x2 : Fin 16) (s : State) : exec (.playStep x0 x1 x2) s = execPlayStep x0 x1 x2 s := rfl
theorem exec_segmentStep (x0 : PT) (x1 : Fin 8) (x2 : Fin 16) (s : State) : exec (.segmentStep x0 x1 x2) s = execSegmentStep x0 x1 x2 s := rfl
theorem exec_captureStep (x0 : PT) (x1 : Fin 8) (x2 : Fin 16) (s : State) : exec (.captureStep x0 x1 x2) s = execCaptureStep x0 x1 x2 s := rfl
theorem exec_waitStep (x0 : PT) (x1 : Fin 8) (x2 : Fin 16) (s : State) : exec (.waitStep x0 x1 x2) s = execWaitStep x0 x1 x2 s := rfl
theorem exec_branch (x0 : PT) (x1 : Fin 8) (x2 : Fin 16) (s : State) : exec (.branch x0 x1 x2) s = execBranch x0 x1 x2 s := rfl
theorem exec_loopStep (x0 : PT) (x1 : Fin 8) (x2 : Fin 16) (s : State) : exec (.loopStep x0 x1 x2) s = execLoopStep x0 x1 x2 s := rfl
theorem exec_callStep (x0 : PT) (x1 : Fin 8) (x2 : Fin 16) (s : State) : exec (.callStep x0 x1 x2) s = execCallStep x0 x1 x2 s := rfl
theorem exec_returnStep (x0 : PT) (x1 : Fin 8) (x2 : Fin 16) (s : State) : exec (.returnStep x0 x1 x2) s = execReturnStep x0 x1 x2 s := rfl
theorem exec_syncStep (x0 : PT) (x1 : Fin 8) (x2 : Fin 16) (s : State) : exec (.syncStep x0 x1 x2) s = execSyncStep x0 x1 x2 s := rfl
theorem exec_syncTimeout (x0 : PT) (x1 : Fin 64) (s : State) : exec (.syncTimeout x0 x1) s = execSyncTimeout x0 x1 s := rfl
theorem exec_setStep (x0 : PT) (x1 : Fin 8) (x2 : Fin 16) (s : State) : exec (.setStep x0 x1 x2) s = execSetStep x0 x1 x2 s := rfl
theorem exec_endShot (x0 : PT) (x1 : Fin 8) (x2 : Fin 16) (s : State) : exec (.endShot x0 x1 x2) s = execEndShot x0 x1 x2 s := rfl
theorem exec_haltStep (x0 : PT) (x1 : Fin 8) (x2 : Fin 16) (s : State) : exec (.haltStep x0 x1 x2) s = execHaltStep x0 x1 x2 s := rfl
theorem exec_await (x0 : PT) (x1 : Fin 8) (x2 : Fin 16) (s : State) : exec (.await x0 x1 x2) s = execAwait x0 x1 x2 s := rfl
theorem exec_awaitTimeout (x0 : PT) (x1 : Fin 8) (x2 : Fin 16) (s : State) : exec (.awaitTimeout x0 x1 x2) s = execAwaitTimeout x0 x1 x2 s := rfl
theorem exec_shotTrigger (x0 : PT) (x1 : Fin 8) (x2 : Fin 16) (x3 : Bool) (x4 : Fin 32) (x5 : Bool) (x6 : PT) (s : State) : exec (.shotTrigger x0 x1 x2 x3 x4 x5 x6) s = execShotTrigger x0 x1 x2 x3 x4 x5 x6 s := rfl
theorem exec_verdictDelivery (x0 : PT) (x1 : Fin 8) (x2 : Bool) (x3 : Fin 16) (x4 : Fin 512) (x5 : Bool) (x6 : Bool) (s : State) : exec (.verdictDelivery x0 x1 x2 x3 x4 x5 x6) s = execVerdictDelivery x0 x1 x2 x3 x4 x5 x6 s := rfl
theorem exec_verdictTimeout (x0 : PT) (x1 : Fin 8) (x2 : Fin 16) (s : State) : exec (.verdictTimeout x0 x1 x2) s = execVerdictTimeout x0 x1 x2 s := rfl
theorem exec_parityFault (x0 : PT) (x1 : Fin 8) (x2 : Fin 16) (s : State) : exec (.parityFault x0 x1 x2) s = execParityFault x0 x1 x2 s := rfl
theorem exec_shotDone (x0 : PT) (x1 : Fin 8) (x2 : Fin 16) (x3 : Nat) (s : State) : exec (.shotDone x0 x1 x2 x3) s = execShotDone x0 x1 x2 x3 s := rfl
theorem exec_segmentPeg (x0 : PT) (x1 : Fin 8) (x2 : Fin 16) (s : State) : exec (.segmentPeg x0 x1 x2) s = execSegmentPeg x0 x1 x2 s := rfl
theorem exec_strStart (x0 : PT) (x1 : Fin 8) (x2 : Fin 16) (s : State) : exec (.strStart x0 x1 x2) s = execStrStart x0 x1 x2 s := rfl
theorem exec_strStop (x0 : PT) (x1 : Fin 8) (x2 : Fin 16) (s : State) : exec (.strStop x0 x1 x2) s = execStrStop x0 x1 x2 s := rfl
theorem exec_strDrain (x0 : PT) (x1 : Fin 8) (x2 : Fin 16) (s : State) : exec (.strDrain x0 x1 x2) s = execStrDrain x0 x1 x2 s := rfl
theorem exec_strJump (x0 : PT) (x1 : Fin 8) (x2 : Fin 16) (s : State) : exec (.strJump x0 x1 x2) s = execStrJump x0 x1 x2 s := rfl
theorem exec_ringReset (x0 : PT) (x1 : Fin 8) (x2 : Fin 16) (s : State) : exec (.ringReset x0 x1 x2) s = execRingReset x0 x1 x2 s := rfl
theorem exec_ringWrWrite (x0 : PT) (x1 : Fin 8) (x2 : Fin 16) (x3 : Word) (s : State) : exec (.ringWrWrite x0 x1 x2 x3) s = execRingWrWrite x0 x1 x2 x3 s := rfl
theorem exec_segmentCommit (x0 : PT) (x1 : Fin 8) (x2 : Fin 16) (s : State) : exec (.segmentCommit x0 x1 x2) s = execSegmentCommit x0 x1 x2 s := rfl
theorem exec_segmentBoundary (x0 : PT) (x1 : Fin 8) (x2 : Fin 16) (x3 : Ecc) (x4 : Fin 0x200000) (s : State) : exec (.segmentBoundary x0 x1 x2 x3 x4) s = execSegmentBoundary x0 x1 x2 x3 x4 s := rfl
theorem exec_underrun (x0 : PT) (x1 : Fin 8) (x2 : Fin 16) (s : State) : exec (.underrun x0 x1 x2) s = execUnderrun x0 x1 x2 s := rfl
theorem exec_fillEnd (x0 : PT) (x1 : Fin 8) (x2 : Fin 16) (s : State) : exec (.fillEnd x0 x1 x2) s = execFillEnd x0 x1 x2 s := rfl
theorem exec_ownedStreamEnd (x0 : PT) (x1 : Fin 8) (x2 : Fin 16) (s : State) : exec (.ownedStreamEnd x0 x1 x2) s = execOwnedStreamEnd x0 x1 x2 s := rfl
theorem exec_clrFail (x0 : PT) (x1 : Fin 8) (s : State) : exec (.clrFail x0 x1) s = execClrFail x0 x1 s := rfl
theorem exec_playPeg (x0 : PT) (x1 : Fin 8) (x2 : Fin 4) (x3 : Fin 64) (x4 : Nat) (x5 : Ecc) (x6 : Fin 0x100000) (s : State) : exec (.playPeg x0 x1 x2 x3 x4 x5 x6) s = execPlayPeg x0 x1 x2 x3 x4 x5 x6 s := rfl
theorem exec_frameAdd (x0 : PT) (x1 : Fin 8) (x2 : Fin 4) (x3 : Fin 64) (s : State) : exec (.frameAdd x0 x1 x2 x3) s = execFrameAdd x0 x1 x2 x3 s := rfl
theorem exec_frameSet (x0 : PT) (x1 : Fin 8) (x2 : Fin 4) (x3 : Fin 64) (s : State) : exec (.frameSet x0 x1 x2 x3) s = execFrameSet x0 x1 x2 x3 s := rfl
theorem exec_stopPeg (x0 : PT) (x1 : Fin 8) (x2 : Fin 4) (x3 : Fin 64) (s : State) : exec (.stopPeg x0 x1 x2 x3) s = execStopPeg x0 x1 x2 x3 s := rfl
theorem exec_toneStop (x0 : PT) (x1 : Fin 8) (x2 : Fin 4) (x3 : Fin 64) (s : State) : exec (.toneStop x0 x1 x2 x3) s = execToneStop x0 x1 x2 x3 s := rfl
theorem exec_toneDrain (x0 : PT) (x1 : Fin 8) (x2 : Fin 4) (x3 : Fin 64) (s : State) : exec (.toneDrain x0 x1 x2 x3) s = execToneDrain x0 x1 x2 x3 s := rfl
theorem exec_flxStop (x0 : PT) (x1 : Fin 8) (x2 : Fin 16) (s : State) : exec (.flxStop x0 x1 x2) s = execFlxStop x0 x1 x2 s := rfl
theorem exec_flxDrain (x0 : PT) (x1 : Fin 8) (x2 : Fin 16) (s : State) : exec (.flxDrain x0 x1 x2) s = execFlxDrain x0 x1 x2 s := rfl
theorem exec_outFault (x0 : PT) (x1 : Fin 8) (x2 : Fin 4) (x3 : Fin 64) (s : State) : exec (.outFault x0 x1 x2 x3) s = execOutFault x0 x1 x2 x3 s := rfl
theorem exec_window (x0 : PT) (x1 : Fin 8) (x2 : Fin 4) (s : State) : exec (.window x0 x1 x2) s = execWindow x0 x1 x2 s := rfl
theorem exec_heldWindowStart (x0 : PT) (x1 : Fin 8) (x2 : Fin 4) (s : State) : exec (.heldWindowStart x0 x1 x2) s = execHeldWindowStart x0 x1 x2 s := rfl
theorem exec_windowEnd (x0 : PT) (x1 : Fin 8) (x2 : Fin 4) (x3 : List Int) (s : State) : exec (.windowEnd x0 x1 x2 x3) s = execWindowEnd x0 x1 x2 x3 s := rfl
theorem exec_contStart (x0 : PT) (x1 : Fin 8) (x2 : Fin 4) (s : State) : exec (.contStart x0 x1 x2) s = execContStart x0 x1 x2 s := rfl
theorem exec_contStop (x0 : PT) (x1 : Fin 8) (x2 : Fin 4) (s : State) : exec (.contStop x0 x1 x2) s = execContStop x0 x1 x2 s := rfl
theorem exec_capContStart (x0 : PT) (x1 : Fin 8) (x2 : Fin 4) (s : State) : exec (.capContStart x0 x1 x2) s = execCapContStart x0 x1 x2 s := rfl
theorem exec_capContStop (x0 : PT) (x1 : Fin 8) (x2 : Fin 4) (s : State) : exec (.capContStop x0 x1 x2) s = execCapContStop x0 x1 x2 s := rfl
theorem exec_contBlock (x0 : PT) (x1 : Fin 8) (x2 : Fin 4) (x3 : List Int) (s : State) : exec (.contBlock x0 x1 x2 x3) s = execContBlock x0 x1 x2 x3 s := rfl
theorem exec_inject (x0 : PT) (x1 : Fin 8) (x2 : Fin 4) (s : State) : exec (.inject x0 x1 x2) s = execInject x0 x1 x2 s := rfl
theorem exec_capStop (x0 : PT) (x1 : Fin 8) (x2 : Fin 4) (s : State) : exec (.capStop x0 x1 x2) s = execCapStop x0 x1 x2 s := rfl
theorem exec_capDrain (x0 : PT) (x1 : Fin 8) (x2 : Fin 4) (s : State) : exec (.capDrain x0 x1 x2) s = execCapDrain x0 x1 x2 s := rfl
theorem exec_rotate (x0 : PT) (x1 : Fin 8) (x2 : Fin 4) (s : State) : exec (.rotate x0 x1 x2) s = execRotate x0 x1 x2 s := rfl
theorem exec_rotation (x0 : PT) (x1 : Fin 8) (x2 : Fin 4) (s : State) : exec (.rotation x0 x1 x2) s = execRotation x0 x1 x2 s := rfl
theorem exec_sliceSwap (x0 : PT) (x1 : Fin 8) (x2 : Fin 4) (s : State) : exec (.sliceSwap x0 x1 x2) s = execSliceSwap x0 x1 x2 s := rfl
theorem exec_sliceCalDone (x0 : PT) (x1 : Fin 8) (x2 : Fin 4) (s : State) : exec (.sliceCalDone x0 x1 x2) s = execSliceCalDone x0 x1 x2 s := rfl
theorem exec_shadowBlock (x0 : PT) (x1 : Fin 8) (x2 : Fin 4) (x3 : List Int) (x4 : List Int) (s : State) : exec (.shadowBlock x0 x1 x2 x3 x4) s = execShadowBlock x0 x1 x2 x3 x4 s := rfl
theorem exec_pulseWidthEvent (x0 : PT) (x1 : Fin 8) (x2 : Fin 4) (x3 : PinEdge) (x4 : PT) (s : State) : exec (.pulseWidthEvent x0 x1 x2 x3 x4) s = execPulseWidthEvent x0 x1 x2 x3 x4 s := rfl
theorem exec_inFault (x0 : PT) (x1 : Fin 8) (x2 : Fin 4) (s : State) : exec (.inFault x0 x1 x2) s = execInFault x0 x1 x2 s := rfl
theorem exec_verdictFrame (x0 : PT) (x1 : Fin 16) (x2 : Fin 4) (x3 : List (Fin 256 × Fin 512 × Fin 256 × BitVec 48)) (s : State) : exec (.verdictFrame x0 x1 x2 x3) s = execVerdictFrame x0 x1 x2 x3 s := rfl
theorem exec_stamp (x0 : PT) (x1 : Fin 8) (x2 : Bool) (x3 : Fin 32) (x4 : PinEdge) (x5 : Fin 160) (x6 : Fin 160) (x7 : Fin 160) (x8 : Fin 160) (s : State) : exec (.stamp x0 x1 x2 x3 x4 x5 x6 x7 x8) s = execStamp x0 x1 x2 x3 x4 x5 x6 x7 x8 s := rfl
theorem exec_lathWithdrawal (x0 : PT) (x1 : Fin 8) (x2 : Fin 8) (x3 : Fin 4) (s : State) : exec (.lathWithdrawal x0 x1 x2 x3) s = execLathWithdrawal x0 x1 x2 x3 s := rfl
theorem exec_lathReturn (x0 : PT) (x1 : Fin 8) (x2 : Fin 8) (x3 : List Nat) (x4 : Bool) (s : State) : exec (.lathReturn x0 x1 x2 x3 x4) s = execLathReturn x0 x1 x2 x3 x4 s := rfl
theorem exec_tiuArmPeg (x0 : PT) (x1 : Fin 8) (x2 : Fin 4) (s : State) : exec (.tiuArmPeg x0 x1 x2) s = execTiuArmPeg x0 x1 x2 s := rfl
theorem exec_tiuDisarmPeg (x0 : PT) (x1 : Fin 8) (x2 : Fin 4) (s : State) : exec (.tiuDisarmPeg x0 x1 x2) s = execTiuDisarmPeg x0 x1 x2 s := rfl
theorem exec_tiuArm (x0 : PT) (x1 : Fin 8) (x2 : Fin 4) (s : State) : exec (.tiuArm x0 x1 x2) s = execTiuArm x0 x1 x2 s := rfl
theorem exec_tiuDisarm (x0 : PT) (x1 : Fin 8) (x2 : Fin 4) (s : State) : exec (.tiuDisarm x0 x1 x2) s = execTiuDisarm x0 x1 x2 s := rfl
theorem exec_tiuClr (x0 : PT) (x1 : Fin 8) (x2 : Fin 4) (s : State) : exec (.tiuClr x0 x1 x2) s = execTiuClr x0 x1 x2 s := rfl
theorem exec_tiuMeasurement (x0 : PT) (x1 : Fin 8) (x2 : Fin 4) (s : State) : exec (.tiuMeasurement x0 x1 x2) s = execTiuMeasurement x0 x1 x2 s := rfl
theorem exec_tiuTimeout (x0 : PT) (x1 : Fin 8) (x2 : Fin 4) (s : State) : exec (.tiuTimeout x0 x1 x2) s = execTiuTimeout x0 x1 x2 s := rfl
theorem exec_gate (x0 : PT) (x1 : Fin 8) (x2 : Fin 2) (s : State) : exec (.gate x0 x1 x2) s = execGate x0 x1 x2 s := rfl
theorem exec_freStopPeg (x0 : PT) (x1 : Fin 8) (x2 : Fin 2) (s : State) : exec (.freStopPeg x0 x1 x2) s = execFreStopPeg x0 x1 x2 s := rfl
theorem exec_freGate (x0 : PT) (x1 : Fin 8) (x2 : Fin 2) (s : State) : exec (.freGate x0 x1 x2) s = execFreGate x0 x1 x2 s := rfl
theorem exec_freStop (x0 : PT) (x1 : Fin 8) (x2 : Fin 2) (s : State) : exec (.freStop x0 x1 x2) s = execFreStop x0 x1 x2 s := rfl
theorem exec_freClr (x0 : PT) (x1 : Fin 8) (x2 : Fin 2) (s : State) : exec (.freClr x0 x1 x2) s = execFreClr x0 x1 x2 s := rfl
theorem exec_gateEnd (x0 : PT) (x1 : Fin 8) (x2 : Fin 2) (s : State) : exec (.gateEnd x0 x1 x2) s = execGateEnd x0 x1 x2 s := rfl
theorem exec_gateDone (x0 : PT) (x1 : Fin 8) (x2 : Fin 2) (s : State) : exec (.gateDone x0 x1 x2) s = execGateDone x0 x1 x2 s := rfl
theorem exec_signDone (x0 : PT) (x1 : Fin 8) (s : State) : exec (.signDone x0 x1) s = execSignDone x0 x1 s := rfl
theorem exec_calStart (x0 : PT) (x1 : Fin 8) (x2 : Fin 6) (s : State) : exec (.calStart x0 x1 x2) s = execCalStart x0 x1 x2 s := rfl
theorem exec_calMeasurement (x0 : PT) (x1 : Fin 8) (x2 : Fin 32) (x3 : Fin 64) (x4 : List Int) (x5 : Bool) (x6 : Bool) (s : State) : exec (.calMeasurement x0 x1 x2 x3 x4 x5 x6) s = execCalMeasurement x0 x1 x2 x3 x4 x5 x6 s := rfl
theorem exec_correctionApply (x0 : PT) (x1 : Fin 8) (x2 : Fin 32) (x3 : Fin 64) (s : State) : exec (.correctionApply x0 x1 x2 x3) s = execCorrectionApply x0 x1 x2 x3 s := rfl
theorem exec_forcedApply (x0 : PT) (x1 : Fin 8) (x2 : Fin 32) (x3 : Fin 64) (s : State) : exec (.forcedApply x0 x1 x2 x3) s = execForcedApply x0 x1 x2 x3 s := rfl
theorem exec_trestleTakeover (x0 : PT) (x1 : Fin 8) (x2 : Fin 4) (s : State) : exec (.trestleTakeover x0 x1 x2) s = execTrestleTakeover x0 x1 x2 s := rfl
theorem exec_trestleReturn (x0 : PT) (x1 : Fin 8) (x2 : Fin 4) (s : State) : exec (.trestleReturn x0 x1 x2) s = execTrestleReturn x0 x1 x2 s := rfl
theorem exec_takeoverAbandon (x0 : PT) (x1 : Fin 8) (x2 : Fin 4) (s : State) : exec (.takeoverAbandon x0 x1 x2) s = execTakeoverAbandon x0 x1 x2 s := rfl
theorem exec_reinterpolate (x0 : PT) (x1 : Fin 8) (s : State) : exec (.reinterpolate x0 x1) s = execReinterpolate x0 x1 s := rfl
theorem exec_calStale (x0 : PT) (x1 : Fin 8) (x2 : Fin 32) (x3 : Fin 64) (s : State) : exec (.calStale x0 x1 x2 x3) s = execCalStale x0 x1 x2 x3 s := rfl
theorem exec_pwrupDone (x0 : PT) (x1 : Fin 8) (s : State) : exec (.pwrupDone x0 x1) s = execPwrupDone x0 x1 s := rfl
theorem exec_pwrupTimeout (x0 : PT) (x1 : Fin 8) (s : State) : exec (.pwrupTimeout x0 x1) s = execPwrupTimeout x0 x1 s := rfl
theorem exec_runPass (x0 : PT) (x1 : Fin 8) (s : State) : exec (.runPass x0 x1) s = execRunPass x0 x1 s := rfl
theorem exec_runItem (x0 : PT) (x1 : Fin 8) (s : State) : exec (.runItem x0 x1) s = execRunItem x0 x1 s := rfl
theorem exec_store (x0 : PT) (x1 : Fin 8) (x2 : Word) (x3 : Word) (s : State) : exec (.store x0 x1 x2 x3) s = execStore x0 x1 x2 x3 s := rfl
theorem exec_autoStore (x0 : PT) (x1 : Fin 8) (x2 : Word) (x3 : Word) (s : State) : exec (.autoStore x0 x1 x2 x3) s = execAutoStore x0 x1 x2 x3 s := rfl
theorem exec_storeRetry (x0 : PT) (x1 : Fin 8) (x2 : Word) (x3 : Word) (s : State) : exec (.storeRetry x0 x1 x2 x3) s = execStoreRetry x0 x1 x2 x3 s := rfl
theorem exec_storeDone (x0 : PT) (x1 : Fin 8) (s : State) : exec (.storeDone x0 x1) s = execStoreDone x0 x1 s := rfl
theorem exec_storeStall (x0 : PT) (x1 : Fin 8) (s : State) : exec (.storeStall x0 x1) s = execStoreStall x0 x1 s := rfl
theorem exec_shimCancel (x0 : PT) (x1 : Fin 8) (s : State) : exec (.shimCancel x0 x1) s = execShimCancel x0 x1 s := rfl
theorem exec_delete (x0 : PT) (x1 : Fin 8) (s : State) : exec (.delete x0 x1) s = execDelete x0 x1 s := rfl
theorem exec_reload (x0 : PT) (x1 : Fin 8) (s : State) : exec (.reload x0 x1) s = execReload x0 x1 s := rfl
theorem exec_bentFence (x0 : PT) (x1 : Fin 8) (s : State) : exec (.bentFence x0 x1) s = execBentFence x0 x1 s := rfl
theorem exec_bentUnfence (x0 : PT) (x1 : Fin 8) (s : State) : exec (.bentUnfence x0 x1) s = execBentUnfence x0 x1 s := rfl
theorem exec_bentDrain (x0 : PT) (x1 : Fin 8) (s : State) : exec (.bentDrain x0 x1) s = execBentDrain x0 x1 s := rfl
theorem exec_fwSwitch (x0 : PT) (x1 : Fin 8) (s : State) : exec (.fwSwitch x0 x1) s = execFwSwitch x0 x1 s := rfl
theorem exec_foremanStop (x0 : PT) (x1 : Fin 8) (s : State) : exec (.foremanStop x0 x1) s = execForemanStop x0 x1 s := rfl
theorem exec_foremanRestart (x0 : PT) (x1 : Fin 8) (x2 : Bool) (s : State) : exec (.foremanRestart x0 x1 x2) s = execForemanRestart x0 x1 x2 s := rfl
theorem exec_tunnelledWrite (x0 : PT) (x1 : Fin 257) (x2 : Word) (x3 : Fin 0x4000000) (x4 : Word) (s : State) : exec (.tunnelledWrite x0 x1 x2 x3 x4) s = execTunnelledWrite x0 x1 x2 x3 x4 s := rfl
theorem exec_resetN (x0 : PT) (x1 : Bool) (s : State) : exec (.resetN x0 x1) s = execResetN x0 x1 s := rfl
theorem exec_por (x0 : PT) (s : State) : exec (.por x0) s = execPor x0 s := rfl
theorem exec_perstN (x0 : PT) (x1 : Bool) (s : State) : exec (.perstN x0 x1) s = execPerstN x0 x1 s := rfl
theorem exec_pwrFail (x0 : PT) (s : State) : exec (.pwrFail x0) s = execPwrFail x0 s := rfl
theorem exec_pwrRestored (x0 : PT) (s : State) : exec (.pwrRestored x0) s = execPwrRestored x0 s := rfl
theorem exec_creditUpdate (x0 : PT) (x1 : List Nat) (x2 : Nat) (s : State) : exec (.creditUpdate x0 x1 x2) s = execCreditUpdate x0 x1 x2 s := rfl
theorem exec_lowMargin (x0 : PT) (s : State) : exec (.lowMargin x0) s = execLowMargin x0 s := rfl
theorem exec_telemRead (x0 : PT) (x1 : Fin 8) (x2 : Bool) (x3 : List (Nat × Nat)) (x4 : BitVec 16) (s : State) : exec (.telemRead x0 x1 x2 x3 x4) s = execTelemRead x0 x1 x2 x3 x4 s := rfl
theorem exec_groupIdle (x0 : PT) (x1 : Fin 8) (x2 : Fin 13) (s : State) : exec (.groupIdle x0 x1 x2) s = execGroupIdle x0 x1 x2 s := rfl
theorem exec_groupWake (x0 : PT) (x1 : Fin 8) (x2 : Fin 13) (s : State) : exec (.groupWake x0 x1 x2) s = execGroupWake x0 x1 x2 s := rfl
theorem exec_wakeDone (x0 : PT) (x1 : Fin 8) (x2 : Fin 14) (s : State) : exec (.wakeDone x0 x1 x2) s = execWakeDone x0 x1 x2 s := rfl
theorem exec_paceSample (x0 : PT) (x1 : Fin 8) (x2 : List (BitVec 16)) (x3 : Bool) (x4 : BitVec 16) (s : State) : exec (.paceSample x0 x1 x2 x3 x4) s = execPaceSample x0 x1 x2 x3 x4 s := rfl
theorem exec_paceRaise (x0 : PT) (x1 : Fin 8) (s : State) : exec (.paceRaise x0 x1) s = execPaceRaise x0 x1 s := rfl
theorem exec_paceLower (x0 : PT) (x1 : Fin 8) (s : State) : exec (.paceLower x0 x1) s = execPaceLower x0 x1 s := rfl
theorem exec_avsFault (x0 : PT) (x1 : Fin 8) (s : State) : exec (.avsFault x0 x1) s = execAvsFault x0 x1 s := rfl
theorem exec_clrPeak (x0 : PT) (x1 : Fin 8) (s : State) : exec (.clrPeak x0 x1) s = execClrPeak x0 x1 s := rfl
theorem exec_election (x0 : PT) (s : State) : exec (.election x0) s = execElection x0 s := rfl
theorem exec_migrate (x0 : PT) (s : State) : exec (.migrate x0) s = execMigrate x0 s := rfl
theorem exec_heartbeat (x0 : PT) (x1 : Bool) (s : State) : exec (.heartbeat x0 x1) s = execHeartbeat x0 x1 s := rfl
theorem exec_heartbeatLoss (x0 : PT) (s : State) : exec (.heartbeatLoss x0) s = execHeartbeatLoss x0 s := rfl
theorem exec_purlinHandover (x0 : PT) (s : State) : exec (.purlinHandover x0) s = execPurlinHandover x0 s := rfl
theorem exec_skewDone (x0 : PT) (x1 : List Int) (s : State) : exec (.skewDone x0 x1) s = execSkewDone x0 x1 s := rfl
theorem exec_purlinMarker (x0 : PT) (x1 : Fin 8) (x2 : Int) (s : State) : exec (.purlinMarker x0 x1 x2) s = execPurlinMarker x0 x1 x2 s := rfl
theorem exec_reskew (x0 : PT) (s : State) : exec (.reskew x0) s = execReskew x0 s := rfl
theorem exec_join (x0 : PT) (x1 : Bool) (s : State) : exec (.join x0 x1) s = execJoin x0 x1 s := rfl
theorem exec_joinComplete (x0 : PT) (x1 : Option (Fin 16)) (x2 : PT) (x3 : PT) (s : State) : exec (.joinComplete x0 x1 x2 x3) s = execJoinComplete x0 x1 x2 x3 s := rfl
theorem exec_leave (x0 : PT) (s : State) : exec (.leave x0) s = execLeave x0 s := rfl
theorem exec_tenonLost (x0 : PT) (s : State) : exec (.tenonLost x0) s = execTenonLost x0 s := rfl
theorem exec_timeExchange (x0 : PT) (x1 : Fin 16) (s : State) : exec (.timeExchange x0 x1) s = execTimeExchange x0 x1 s := rfl
theorem exec_timeFrame (x0 : PT) (x1 : Fin 16) (x2 : PT) (x3 : PT) (x4 : PT) (x5 : PT) (s : State) : exec (.timeFrame x0 x1 x2 x3 x4 x5) s = execTimeFrame x0 x1 x2 x3 x4 x5 s := rfl
theorem exec_eventFrame (x0 : PT) (x1 : Fin 16) (x2 : Fin 256) (x3 : Fin 256) (x4 : Fin 65536) (x5 : Bool) (x6 : Fin 256) (x7 : PT) (x8 : BitVec 64) (x9 : Word) (s : State) : exec (.eventFrame x0 x1 x2 x3 x4 x5 x6 x7 x8 x9) s = execEventFrame x0 x1 x2 x3 x4 x5 x6 x7 x8 x9 s := rfl
theorem exec_regFrame (x0 : PT) (x1 : Fin 16) (x2 : Fin 256) (x3 : Fin 256) (x4 : Fin 256) (x5 : Bool) (x6 : Word) (x7 : Fin 0x4000000) (x8 : Word) (s : State) : exec (.regFrame x0 x1 x2 x3 x4 x5 x6 x7 x8) s = execRegFrame x0 x1 x2 x3 x4 x5 x6 x7 x8 s := rfl
theorem exec_bulkFrame (x0 : PT) (x1 : Fin 16) (x2 : Fin 256) (x3 : Fin 256) (x4 : Fin 8) (x5 : Fin 16) (x6 : List Byte) (s : State) : exec (.bulkFrame x0 x1 x2 x3 x4 x5 x6) s = execBulkFrame x0 x1 x2 x3 x4 x5 x6 s := rfl
theorem exec_retrain (x0 : PT) (x1 : Fin 8) (x2 : Fin 2) (x3 : Bool) (s : State) : exec (.retrain x0 x1 x2 x3) s = execRetrain x0 x1 x2 x3 s := rfl
theorem exec_trainingDone (x0 : PT) (x1 : Fin 8) (x2 : Fin 2) (x3 : BitVec 4) (x4 : Word) (x5 : Fin 256) (x6 : BitVec 11) (x7 : Fin 3) (x8 : Fin 16) (x9 : Int) (s : State) : exec (.trainingDone x0 x1 x2 x3 x4 x5 x6 x7 x8 x9) s = execTrainingDone x0 x1 x2 x3 x4 x5 x6 x7 x8 x9 s := rfl
theorem exec_asymCal (x0 : PT) (x1 : Fin 8) (x2 : Fin 2) (s : State) : exec (.asymCal x0 x1 x2) s = execAsymCal x0 x1 x2 s := rfl
theorem exec_asymDone (x0 : PT) (x1 : Fin 8) (x2 : Fin 2) (x3 : Int) (x4 : Int) (s : State) : exec (.asymDone x0 x1 x2 x3 x4) s = execAsymDone x0 x1 x2 x3 x4 s := rfl
theorem exec_raccWrite (x0 : PT) (s : State) : exec (.raccWrite x0) s = execRaccWrite x0 s := rfl
theorem exec_raccRead (x0 : PT) (s : State) : exec (.raccRead x0) s = execRaccRead x0 s := rfl
theorem exec_raccDone (x0 : PT) (x1 : Word) (s : State) : exec (.raccDone x0 x1) s = execRaccDone x0 x1 s := rfl
theorem exec_raccTimeout (x0 : PT) (s : State) : exec (.raccTimeout x0) s = execRaccTimeout x0 s := rfl
theorem exec_sidePortEnable (x0 : PT) (x1 : Fin 8) (x2 : Fin 6) (x3 : Fin 5) (s : State) : exec (.sidePortEnable x0 x1 x2 x3) s = execSidePortEnable x0 x1 x2 x3 s := rfl
theorem exec_headWrite (x0 : PT) (x1 : Fin 8) (x2 : Fin 16) (x3 : Word) (x4 : List DescWords) (s : State) : exec (.headWrite x0 x1 x2 x3 x4) s = execHeadWrite x0 x1 x2 x3 x4 s := rfl
theorem exec_dmaDescriptor (x0 : PT) (x1 : Fin 8) (x2 : Fin 16) (x3 : List Byte) (x4 : Fin 3) (s : State) : exec (.dmaDescriptor x0 x1 x2 x3 x4) s = execDmaDescriptor x0 x1 x2 x3 x4 s := rfl
theorem exec_dmaFlush (x0 : PT) (x1 : Fin 8) (x2 : Fin 16) (s : State) : exec (.dmaFlush x0 x1 x2) s = execDmaFlush x0 x1 x2 s := rfl
theorem exec_dmaReset (x0 : PT) (x1 : Fin 8) (x2 : Fin 16) (s : State) : exec (.dmaReset x0 x1 x2) s = execDmaReset x0 x1 x2 s := rfl
theorem exec_version (x0 : PT) (x1 : Fin 8) (s : State) : exec (.version x0 x1) s = execVersion x0 x1 s := rfl
theorem exec_fwOpen (x0 : PT) (x1 : Fin 8) (s : State) : exec (.fwOpen x0 x1) s = execFwOpen x0 x1 s := rfl
theorem exec_fwWrite (x0 : PT) (x1 : Fin 8) (s : State) : exec (.fwWrite x0 x1) s = execFwWrite x0 x1 s := rfl
theorem exec_fwClose (x0 : PT) (x1 : Fin 8) (s : State) : exec (.fwClose x0 x1) s = execFwClose x0 x1 s := rfl
theorem exec_cfgOpen (x0 : PT) (x1 : Fin 8) (x2 : Word) (x3 : Word) (s : State) : exec (.cfgOpen x0 x1 x2 x3) s = execCfgOpen x0 x1 x2 x3 s := rfl
theorem exec_cfgWrite (x0 : PT) (x1 : Fin 8) (x2 : Word) (x3 : Word) (s : State) : exec (.cfgWrite x0 x1 x2 x3) s = execCfgWrite x0 x1 x2 x3 s := rfl
theorem exec_cfgClose (x0 : PT) (x1 : Fin 8) (x2 : Word) (x3 : Word) (s : State) : exec (.cfgClose x0 x1 x2 x3) s = execCfgClose x0 x1 x2 x3 s := rfl
theorem exec_flashRead (x0 : PT) (x1 : Fin 8) (s : State) : exec (.flashRead x0 x1) s = execFlashRead x0 x1 s := rfl
theorem exec_mbxDone (x0 : PT) (x1 : Fin 8) (x2 : Bool) (s : State) : exec (.mbxDone x0 x1 x2) s = execMbxDone x0 x1 x2 s := rfl
theorem exec_getVersion (x0 : PT) (s : State) : exec (.getVersion x0) s = execGetVersion x0 s := rfl
theorem exec_getCapabilities (x0 : PT) (s : State) : exec (.getCapabilities x0) s = execGetCapabilities x0 s := rfl
theorem exec_negotiateAlgorithms (x0 : PT) (x1 : Bool) (x2 : Bool) (s : State) : exec (.negotiateAlgorithms x0 x1 x2) s = execNegotiateAlgorithms x0 x1 x2 s := rfl
theorem exec_getDigests (x0 : PT) (s : State) : exec (.getDigests x0) s = execGetDigests x0 s := rfl
theorem exec_getCertificate (x0 : PT) (x1 : Fin 8) (x2 : BitVec 16) (x3 : BitVec 16) (s : State) : exec (.getCertificate x0 x1 x2 x3) s = execGetCertificate x0 x1 x2 x3 s := rfl
theorem exec_challenge (x0 : PT) (x1 : Fin 8) (x2 : List Byte) (s : State) : exec (.challenge x0 x1 x2) s = execChallenge x0 x1 x2 s := rfl
theorem exec_getMeasurements (x0 : PT) (x1 : Fin 256) (x2 : List Byte) (s : State) : exec (.getMeasurements x0 x1 x2) s = execGetMeasurements x0 x1 x2 s := rfl
theorem exec_ownerSet (x0 : PT) (s : State) : exec (.ownerSet x0) s = execOwnerSet x0 s := rfl
theorem exec_ownerClear (x0 : PT) (s : State) : exec (.ownerClear x0) s = execOwnerClear x0 s := rfl
theorem exec_tempSample (x0 : PT) (x1 : Fin 8) (x2 : BitVec 16) (s : State) : exec (.tempSample x0 x1 x2) s = execTempSample x0 x1 x2 s := rfl
theorem exec_railAlert (x0 : PT) (x1 : Fin 8) (x2 : RailReading) (s : State) : exec (.railAlert x0 x1 x2) s = execRailAlert x0 x1 x2 s := rfl
theorem exec_bist (x0 : PT) (x1 : Fin 8) (x2 : Bool) (x3 : Fin 256) (s : State) : exec (.bist x0 x1 x2 x3) s = execBist x0 x1 x2 x3 s := rfl
theorem exec_sourceActivity (x0 : PT) (x1 : Fin 4) (x2 : Option (Fin 101)) (x3 : Int) (s : State) : exec (.sourceActivity x0 x1 x2 x3) s = execSourceActivity x0 x1 x2 x3 s := rfl
theorem exec_overrangeSample (x0 : PT) (x1 : Fin 8) (x2 : Fin 4) (s : State) : exec (.overrangeSample x0 x1 x2) s = execOverrangeSample x0 x1 x2 s := rfl
theorem exec_ringGranuleTaken (x0 : PT) (x1 : Fin 8) (x2 : Fin 16) (x3 : Ecc) (x4 : Fin 48) (s : State) : exec (.ringGranuleTaken x0 x1 x2 x3 x4) s = execRingGranuleTaken x0 x1 x2 x3 x4 s := rfl
theorem exec_linkUp (x0 : PT) (x1 : Fin 8) (x2 : Fin 2) (s : State) : exec (.linkUp x0 x1 x2) s = execLinkUp x0 x1 x2 s := rfl
theorem exec_frameCrcFail (x0 : PT) (x1 : Fin 8) (x2 : Fin 2) (x3 : BadFrame) (x4 : Fin 256) (s : State) : exec (.frameCrcFail x0 x1 x2 x3 x4) s = execFrameCrcFail x0 x1 x2 x3 x4 s := rfl
theorem exec_sidePortDown (x0 : PT) (x1 : Fin 8) (s : State) : exec (.sidePortDown x0 x1) s = execSidePortDown x0 x1 s := rfl
theorem exec_foremanStart (x0 : PT) (x1 : List (Fin 8 × Fin 3)) (s : State) : exec (.foremanStart x0 x1) s = execForemanStart x0 x1 s := rfl
theorem exec_railInBand (x0 : PT) (x1 : Fin 8) (x2 : RailReading) (s : State) : exec (.railInBand x0 x1 x2) s = execRailInBand x0 x1 x2 s := rfl

end Sys2Proof.Machine
end

