-- ==== Sys2Proof/Laws/Maps.lean ====
section
/-!
SUPPORT. Laws/Maps.lean: what the sparse maps do: a read after a write, and the canonical form that every write keeps.
-/

namespace Sys2Proof.Machine

variable {α : Type}

theorem mapGet_erase_same (d : Nat → α) (m : SMap α) (k : Nat) : mapGet d (mapErase m k) k = d k := by
  induction m with
  | nil => rfl
  | cons e r ih =>
    obtain ⟨k', v⟩ := e
    unfold mapErase at *
    by_cases h : k' = k
    · simpa [h] using ih
    · simp [h, mapGet, ih]

theorem mapGet_erase_ne (d : Nat → α) (m : SMap α) {k j : Nat} (h : j ≠ k) :
    mapGet d (mapErase m k) j = mapGet d m j := by
  induction m with
  | nil => rfl
  | cons e r ih =>
    obtain ⟨k', v⟩ := e
    unfold mapErase at *
    by_cases hk : k' = k
    · subst hk
      simp [mapGet, ih, Ne.symm h]
    · simp only [bne_iff_ne, ne_eq, hk, not_false_eq_true, List.filter_cons_of_pos, mapGet, ih]

theorem mapGet_insert_same (d : Nat → α) (m : SMap α) (k : Nat) (v : α) (h : ∀ e ∈ m, e.1 ≠ k) :
    mapGet d (mapInsert m k v) k = v := by
  induction m with
  | nil => simp [mapInsert, mapGet]
  | cons e r ih =>
    obtain ⟨k', v'⟩ := e
    have hk : k' ≠ k := h (k', v') (by simp)
    unfold mapInsert
    split
    · simp [mapGet]
    · simp only [mapGet, if_neg hk]
      exact ih fun e he => h e (by simp [he])

theorem mapGet_insert_ne (d : Nat → α) (m : SMap α) {k j : Nat} (v : α) (h : j ≠ k) :
    mapGet d (mapInsert m k v) j = mapGet d m j := by
  induction m with
  | nil => simp [mapInsert, mapGet, Ne.symm h]
  | cons e r ih =>
    obtain ⟨k', v'⟩ := e
    unfold mapInsert
    split
    · simp [mapGet, Ne.symm h]
    · simp [mapGet, ih]

theorem mapErase_keys (m : SMap α) (k : Nat) : ∀ e ∈ mapErase m k, e.1 ≠ k := by
  intro e he
  simpa [mapErase] using (List.mem_filter.mp he).2

/-- A read after a write to the same key gives the value written. -/
@[simp] theorem mapGet_mapSet_same [DecidableEq α] (d : Nat → α) (m : SMap α) (k : Nat) (v : α) :
    mapGet d (mapSet d m k v) k = v := by
  unfold mapSet
  split
  · next h => rw [mapGet_erase_same, h]
  · exact mapGet_insert_same d _ k v (mapErase_keys m k)

/-- A write leaves every other key alone. -/
theorem mapGet_mapSet_ne [DecidableEq α] (d : Nat → α) (m : SMap α) {k j : Nat} (v : α) (h : j ≠ k) :
    mapGet d (mapSet d m k v) j = mapGet d m j := by
  unfold mapSet
  split
  · exact mapGet_erase_ne d m h
  · rw [mapGet_insert_ne d _ v h, mapGet_erase_ne d m h]

/-- A read after a write, at any key. -/
theorem mapGet_mapSet [DecidableEq α] (d : Nat → α) (m : SMap α) (k j : Nat) (v : α) :
    mapGet d (mapSet d m k v) j = if j = k then v else mapGet d m j := by
  split
  · next h => subst h; simp
  · next h => exact mapGet_mapSet_ne d m v h

@[simp] theorem setHas_setPut_same (m : KSet) (k : Nat) (b : Bool) : setHas (setPut m k b) k = b := by
  simp [setHas, setPut]

theorem setHas_setPut_ne (m : KSet) {k j : Nat} (b : Bool) (h : j ≠ k) : setHas (setPut m k b) j = setHas m j := by
  simp [setHas, setPut, mapGet_mapSet_ne _ _ _ h]

/-! ### The canonical form -/

theorem keysAbove_insert (m : SMap α) {b k : Nat} (v : α) (h : keysAbove m b = true) (hk : b < k) :
    keysAbove (mapInsert m k v) b = true := by
  induction m with
  | nil => simp [mapInsert, keysAbove, hk]
  | cons e r ih =>
    obtain ⟨k', v'⟩ := e
    simp only [keysAbove, List.all_cons, Bool.and_eq_true, decide_eq_true_eq] at h
    unfold mapInsert
    split
    · simp only [keysAbove, List.all_cons, Bool.and_eq_true, decide_eq_true_eq]
      exact ⟨hk, h.1, h.2⟩
    · have := ih (by simpa [keysAbove] using h.2)
      simp only [keysAbove, List.all_cons, Bool.and_eq_true, decide_eq_true_eq]
      exact ⟨h.1, by simpa [keysAbove] using this⟩

theorem keysAbove_mono (m : SMap α) {a b : Nat} (h : keysAbove m b = true) (hab : a ≤ b) : keysAbove m a = true := by
  simp only [keysAbove, List.all_eq_true, decide_eq_true_eq] at *
  intro e he
  exact Nat.lt_of_le_of_lt hab (h e he)

theorem keysAbove_erase (m : SMap α) {b k : Nat} (h : keysAbove m b = true) : keysAbove (mapErase m k) b = true := by
  simp only [keysAbove, List.all_eq_true, decide_eq_true_eq] at *
  intro e he
  exact h e (List.mem_filter.mp he).1

theorem mapWf_erase [DecidableEq α] (d : Nat → α) (m : SMap α) (k : Nat) (h : mapWf d m = true) :
    mapWf d (mapErase m k) = true := by
  induction m with
  | nil => rfl
  | cons e r ih =>
    obtain ⟨k', v⟩ := e
    simp only [mapWf, Bool.and_eq_true, decide_eq_true_eq] at h
    have ih' := ih h.2
    have ha := keysAbove_erase (k := k) r h.1.2
    unfold mapErase at *
    by_cases hk : k' = k
    · simpa [hk] using ih'
    · simp only [bne_iff_ne, ne_eq, hk, not_false_eq_true, List.filter_cons_of_pos, mapWf, Bool.and_eq_true, decide_eq_true_eq]
      exact ⟨⟨h.1.1, ha⟩, ih'⟩

theorem mapWf_insert [DecidableEq α] (d : Nat → α) (m : SMap α) (k : Nat) (v : α) (h : mapWf d m = true)
    (hk : ∀ e ∈ m, e.1 ≠ k) (hv : v ≠ d k) : mapWf d (mapInsert m k v) = true := by
  induction m with
  | nil => simp [mapInsert, mapWf, keysAbove, hv]
  | cons e r ih =>
    obtain ⟨k', v'⟩ := e
    have hne : k' ≠ k := hk (k', v') (by simp)
    simp only [mapWf, Bool.and_eq_true, decide_eq_true_eq] at h
    unfold mapInsert
    split
    · next hlt =>
      simp only [mapWf, Bool.and_eq_true, decide_eq_true_eq]
      refine ⟨⟨hv, ?_⟩, h.1, h.2⟩
      simp only [keysAbove, List.all_cons, Bool.and_eq_true, decide_eq_true_eq]
      exact ⟨hlt, by simpa [keysAbove] using keysAbove_mono r h.1.2 (Nat.le_of_lt hlt)⟩
    · next hlt =>
      simp only [mapWf, Bool.and_eq_true, decide_eq_true_eq]
      refine ⟨⟨h.1.1, keysAbove_insert r v h.1.2 (by omega)⟩, ?_⟩
      exact ih h.2 fun e he => hk e (by simp [he])

/-- A write keeps the canonical form. -/
theorem mapWf_mapSet [DecidableEq α] (d : Nat → α) (m : SMap α) (k : Nat) (v : α) (h : mapWf d m = true) :
    mapWf d (mapSet d m k v) = true := by
  unfold mapSet
  split
  · exact mapWf_erase d m k h
  · next hv => exact mapWf_insert d _ k v (mapWf_erase d m k h) (mapErase_keys m k) hv

/-! ### Bit fields -/

theorem bitAt_putBits (x lo len v i : Nat) :
    bitAt (putBits x lo len v) i =
      if i < lo then bitAt x i else if i < lo + len then bitAt v (i - lo) else bitAt x i := by
  have key : putBits x lo len v = (x >>> (lo + len) * 2 ^ len + v % 2 ^ len) * 2 ^ lo + x % 2 ^ lo := by
    unfold putBits; rw [Nat.pow_add]; ring
  unfold bitAt
  rw [key]
  have h1 : x % 2 ^ lo < 2 ^ lo := Nat.mod_lt _ (Nat.two_pow_pos lo)
  have h2 : v % 2 ^ len < 2 ^ len := Nat.mod_lt _ (Nat.two_pow_pos len)
  rw [Nat.mul_comm _ (2 ^ lo), Nat.testBit_two_pow_mul_add _ h1]
  split
  · next h => simp [Nat.testBit_mod_two_pow, h]
  · next h =>
    rw [Nat.mul_comm (x >>> (lo + len)), Nat.testBit_two_pow_mul_add _ h2]
    by_cases h' : i < lo + len
    · have : i - lo < len := by omega
      simp [this, h', Nat.testBit_mod_two_pow]
    · have : ¬ i - lo < len := by omega
      simp only [this, h', if_false, Nat.testBit_shiftRight]
      congr 1
      omega

/-- A bit just put is read back. -/
theorem bitAt_putBit_same (x i : Nat) (b : Bool) : bitAt (putBits x i 1 (b2n b)) i = b := by
  rw [bitAt_putBits]
  cases b <;> simp [b2n, bitAt]

/-- Putting a bit leaves the others alone. -/
theorem bitAt_putBit_ne (x : Nat) {i j : Nat} (b : Bool) (h : j ≠ i) : bitAt (putBits x i 1 (b2n b)) j = bitAt x j := by
  rw [bitAt_putBits]
  split
  · rfl
  · split
    · omega
    · rfl

theorem testBit_bits (x lo len i : Nat) : (bits x lo len).testBit i = (decide (i < len) && x.testBit (lo + i)) := by
  simp [bits, Nat.testBit_mod_two_pow, Nat.testBit_shiftRight]

/-- A field just put is read back. -/
theorem bits_putBits_same (x lo len v : Nat) : bits (putBits x lo len v) lo len = v % 2 ^ len := by
  apply Nat.eq_of_testBit_eq
  intro i
  have := bitAt_putBits x lo len v (lo + i)
  simp only [bitAt] at this
  rw [testBit_bits, this, Nat.testBit_mod_two_pow]
  by_cases h : i < len
  · simp [h]
  · simp [h]

/-- A field that does not meet the one put is left alone. -/
theorem bits_putBits_ne (x lo len v a n : Nat) (h : a + n ≤ lo ∨ lo + len ≤ a) :
    bits (putBits x lo len v) a n = bits x a n := by
  apply Nat.eq_of_testBit_eq
  intro i
  have := bitAt_putBits x lo len v (a + i)
  simp only [bitAt] at this
  rw [testBit_bits, testBit_bits, this]
  by_cases hi : i < n
  · have h1 : ¬ (¬ a + i < lo ∧ a + i < lo + len) := by omega
    simp only [hi, decide_true, Bool.true_and]
    split
    · rfl
    · split
      · exact absurd ⟨by assumption, by assumption⟩ h1
      · rfl
  · simp [hi]

/-- A field put in a 32-bit word leaves a 32-bit word. -/
theorem putBits_lt (x lo len v : Nat) (hx : x < 2 ^ 32) (hl : lo + len ≤ 32) : putBits x lo len v < 2 ^ 32 := by
  apply Nat.lt_pow_two_of_testBit
  intro i hi
  have := bitAt_putBits x lo len v i
  simp only [bitAt] at this
  rw [this]
  have h1 : ¬ i < lo := by omega
  have h2 : ¬ i < lo + len := by omega
  simp only [h1, h2, if_false]
  exact Nat.testBit_lt_two_pow (Nat.lt_of_lt_of_le hx (Nat.pow_le_pow_right (by omega) hi))

end Sys2Proof.Machine
end

