-- ==== Sys2Proof/Laws/State.lean ====
section
/-!
SUPPORT. Laws/State.lean: one lemma per field per shared update: what each update of the state leaves as it was, and what a
register reads after a write.
-/

set_option Elab.async false

namespace Sys2Proof.Machine

/-! ### Updates of registers in force -/

@[simp] theorem State.setReg_pending (s : State) (a : Nat) (w : Word) : (s.setReg a w).pending = s.pending := rfl
@[simp] theorem State.setReg_variant (s : State) (a : Nat) (w : Word) : (s.setReg a w).variant = s.variant := rfl
@[simp] theorem State.setReg_clk (s : State) (a : Nat) (w : Word) : (s.setReg a w).clk = s.clk := rfl
@[simp] theorem State.setReg_shadow (s : State) (a : Nat) (w : Word) : (s.setReg a w).shadow = s.shadow := rfl
@[simp] theorem State.setReg_dirty (s : State) (a : Nat) (w : Word) : (s.setReg a w).dirty = s.dirty := rfl
@[simp] theorem State.setReg_latch (s : State) (a : Nat) (w : Word) : (s.setReg a w).latch = s.latch := rfl
@[simp] theorem State.setReg_hold (s : State) (a : Nat) (w : Word) : (s.setReg a w).hold = s.hold := rfl
@[simp] theorem State.setReg_commits (s : State) (a : Nat) (w : Word) : (s.setReg a w).commits = s.commits := rfl
@[simp] theorem State.setReg_ev (s : State) (a : Nat) (w : Word) : (s.setReg a w).ev = s.ev := rfl
@[simp] theorem State.setReg_mem (s : State) (a : Nat) (w : Word) : (s.setReg a w).mem = s.mem := rfl
@[simp] theorem State.setReg_poison (s : State) (a : Nat) (w : Word) : (s.setReg a w).poison = s.poison := rfl
@[simp] theorem State.setReg_queues (s : State) (a : Nat) (w : Word) : (s.setReg a w).queues = s.queues := rfl
@[simp] theorem State.setReg_flight (s : State) (a : Nat) (w : Word) : (s.setReg a w).flight = s.flight := rfl
@[simp] theorem State.setReg_edges (s : State) (a : Nat) (w : Word) : (s.setReg a w).edges = s.edges := rfl
@[simp] theorem State.setReg_seqs (s : State) (a : Nat) (w : Word) : (s.setReg a w).seqs = s.seqs := rfl
@[simp] theorem State.setReg_barriers (s : State) (a : Nat) (w : Word) : (s.setReg a w).barriers = s.barriers := rfl
@[simp] theorem State.setReg_verdicts (s : State) (a : Nat) (w : Word) : (s.setReg a w).verdicts = s.verdicts := rfl
@[simp] theorem State.setReg_serial (s : State) (a : Nat) (w : Word) : (s.setReg a w).serial = s.serial := rfl
@[simp] theorem State.setReg_ridge (s : State) (a : Nat) (w : Word) : (s.setReg a w).ridge = s.ridge := rfl
@[simp] theorem State.setReg_pkgNum (s : State) (a : Nat) (w : Word) : (s.setReg a w).pkgNum = s.pkgNum := rfl
@[simp] theorem State.setReg_ptGen (s : State) (a : Nat) (w : Word) : (s.setReg a w).ptGen = s.ptGen := rfl
@[simp] theorem State.setReg_dmas (s : State) (a : Nat) (w : Word) : (s.setReg a w).dmas = s.dmas := rfl
@[simp] theorem State.setReg_tones (s : State) (a : Nat) (w : Word) : (s.setReg a w).tones = s.tones := rfl
@[simp] theorem State.setReg_touched (s : State) (a : Nat) (w : Word) : (s.setReg a w).touched = s.touched := rfl
@[simp] theorem State.setReg_dacHold (s : State) (a : Nat) (w : Word) : (s.setReg a w).dacHold = s.dacHold := rfl
@[simp] theorem State.setReg_dacAt (s : State) (a : Nat) (w : Word) : (s.setReg a w).dacAt = s.dacAt := rfl
@[simp] theorem State.setReg_streams (s : State) (a : Nat) (w : Word) : (s.setReg a w).streams = s.streams := rfl
@[simp] theorem State.setReg_failLog (s : State) (a : Nat) (w : Word) : (s.setReg a w).failLog = s.failLog := rfl
@[simp] theorem State.setReg_caps (s : State) (a : Nat) (w : Word) : (s.setReg a w).caps = s.caps := rfl
@[simp] theorem State.setReg_vseen (s : State) (a : Nat) (w : Word) : (s.setReg a w).vseen = s.vseen := rfl
@[simp] theorem State.setReg_tius (s : State) (a : Nat) (w : Word) : (s.setReg a w).tius = s.tius := rfl
@[simp] theorem State.setReg_fres (s : State) (a : Nat) (w : Word) : (s.setReg a w).fres = s.fres := rfl
@[simp] theorem State.setReg_stampIns (s : State) (a : Nat) (w : Word) : (s.setReg a w).stampIns = s.stampIns := rfl
@[simp] theorem State.setReg_edgeStamp (s : State) (a : Nat) (w : Word) : (s.setReg a w).edgeStamp = s.edgeStamp := rfl
@[simp] theorem State.setReg_recGap (s : State) (a : Nat) (w : Word) : (s.setReg a w).recGap = s.recGap := rfl
@[simp] theorem State.setReg_signQ (s : State) (a : Nat) (w : Word) : (s.setReg a w).signQ = s.signQ := rfl
@[simp] theorem State.setReg_signSeq (s : State) (a : Nat) (w : Word) : (s.setReg a w).signSeq = s.signSeq := rfl
@[simp] theorem State.setReg_recHeld (s : State) (a : Nat) (w : Word) : (s.setReg a w).recHeld = s.recHeld := rfl
@[simp] theorem State.setReg_drainPt (s : State) (a : Nat) (w : Word) : (s.setReg a w).drainPt = s.drainPt := rfl
@[simp] theorem State.setReg_wakes (s : State) (a : Nat) (w : Word) : (s.setReg a w).wakes = s.wakes := rfl
@[simp] theorem State.setReg_cals (s : State) (a : Nat) (w : Word) : (s.setReg a w).cals = s.cals := rfl
@[simp] theorem State.setReg_calInsts (s : State) (a : Nat) (w : Word) : (s.setReg a w).calInsts = s.calInsts := rfl
@[simp] theorem State.setReg_tb (s : State) (a : Nat) (w : Word) : (s.setReg a w).tb = s.tb := rfl
@[simp] theorem State.setReg_sills (s : State) (a : Nat) (w : Word) : (s.setReg a w).sills = s.sills := rfl
@[simp] theorem State.setReg_takeovers (s : State) (a : Nat) (w : Word) : (s.setReg a w).takeovers = s.takeovers := rfl
@[simp] theorem State.setReg_souts (s : State) (a : Nat) (w : Word) : (s.setReg a w).souts = s.souts := rfl
@[simp] theorem State.setReg_ptOff (s : State) (a : Nat) (w : Word) : (s.setReg a w).ptOff = s.ptOff := rfl
@[simp] theorem State.setReg_tree (s : State) (a : Nat) (w : Word) : (s.setReg a w).tree = s.tree := rfl
@[simp] theorem State.setReg_ports (s : State) (a : Nat) (w : Word) : (s.setReg a w).ports = s.ports := rfl
@[simp] theorem State.setReg_meters (s : State) (a : Nat) (w : Word) : (s.setReg a w).meters = s.meters := rfl
@[simp] theorem State.setReg_account (s : State) (a : Nat) (w : Word) : (s.setReg a w).account = s.account := rfl
@[simp] theorem State.setReg_boot (s : State) (a : Nat) (w : Word) : (s.setReg a w).boot = s.boot := rfl
@[simp] theorem State.setReg_spdm (s : State) (a : Nat) (w : Word) : (s.setReg a w).spdm = s.spdm := rfl
@[simp] theorem State.setReg_tunnels (s : State) (a : Nat) (w : Word) : (s.setReg a w).tunnels = s.tunnels := rfl
@[simp] theorem State.setReg_tempOff (s : State) (a : Nat) (w : Word) : (s.setReg a w).tempOff = s.tempOff := rfl
@[simp] theorem State.setReg_readyOff (s : State) (a : Nat) (w : Word) : (s.setReg a w).readyOff = s.readyOff := rfl
@[simp] theorem State.setReg_free (s : State) (a : Nat) (w : Word) : (s.setReg a w).free = s.free := rfl

@[simp] theorem State.wr_pending (s : State) (a v : Nat) : (s.wr a v).pending = s.pending := rfl
@[simp] theorem State.wr_variant (s : State) (a v : Nat) : (s.wr a v).variant = s.variant := rfl
@[simp] theorem State.wr_clk (s : State) (a v : Nat) : (s.wr a v).clk = s.clk := rfl
@[simp] theorem State.wr_shadow (s : State) (a v : Nat) : (s.wr a v).shadow = s.shadow := rfl
@[simp] theorem State.wr_dirty (s : State) (a v : Nat) : (s.wr a v).dirty = s.dirty := rfl
@[simp] theorem State.wr_latch (s : State) (a v : Nat) : (s.wr a v).latch = s.latch := rfl
@[simp] theorem State.wr_hold (s : State) (a v : Nat) : (s.wr a v).hold = s.hold := rfl
@[simp] theorem State.wr_commits (s : State) (a v : Nat) : (s.wr a v).commits = s.commits := rfl
@[simp] theorem State.wr_ev (s : State) (a v : Nat) : (s.wr a v).ev = s.ev := rfl
@[simp] theorem State.wr_mem (s : State) (a v : Nat) : (s.wr a v).mem = s.mem := rfl
@[simp] theorem State.wr_poison (s : State) (a v : Nat) : (s.wr a v).poison = s.poison := rfl
@[simp] theorem State.wr_queues (s : State) (a v : Nat) : (s.wr a v).queues = s.queues := rfl
@[simp] theorem State.wr_flight (s : State) (a v : Nat) : (s.wr a v).flight = s.flight := rfl
@[simp] theorem State.wr_edges (s : State) (a v : Nat) : (s.wr a v).edges = s.edges := rfl
@[simp] theorem State.wr_seqs (s : State) (a v : Nat) : (s.wr a v).seqs = s.seqs := rfl
@[simp] theorem State.wr_barriers (s : State) (a v : Nat) : (s.wr a v).barriers = s.barriers := rfl
@[simp] theorem State.wr_verdicts (s : State) (a v : Nat) : (s.wr a v).verdicts = s.verdicts := rfl
@[simp] theorem State.wr_serial (s : State) (a v : Nat) : (s.wr a v).serial = s.serial := rfl
@[simp] theorem State.wr_ridge (s : State) (a v : Nat) : (s.wr a v).ridge = s.ridge := rfl
@[simp] theorem State.wr_pkgNum (s : State) (a v : Nat) : (s.wr a v).pkgNum = s.pkgNum := rfl
@[simp] theorem State.wr_ptGen (s : State) (a v : Nat) : (s.wr a v).ptGen = s.ptGen := rfl
@[simp] theorem State.wr_dmas (s : State) (a v : Nat) : (s.wr a v).dmas = s.dmas := rfl
@[simp] theorem State.wr_tones (s : State) (a v : Nat) : (s.wr a v).tones = s.tones := rfl
@[simp] theorem State.wr_touched (s : State) (a v : Nat) : (s.wr a v).touched = s.touched := rfl
@[simp] theorem State.wr_dacHold (s : State) (a v : Nat) : (s.wr a v).dacHold = s.dacHold := rfl
@[simp] theorem State.wr_dacAt (s : State) (a v : Nat) : (s.wr a v).dacAt = s.dacAt := rfl
@[simp] theorem State.wr_streams (s : State) (a v : Nat) : (s.wr a v).streams = s.streams := rfl
@[simp] theorem State.wr_failLog (s : State) (a v : Nat) : (s.wr a v).failLog = s.failLog := rfl
@[simp] theorem State.wr_caps (s : State) (a v : Nat) : (s.wr a v).caps = s.caps := rfl
@[simp] theorem State.wr_vseen (s : State) (a v : Nat) : (s.wr a v).vseen = s.vseen := rfl
@[simp] theorem State.wr_tius (s : State) (a v : Nat) : (s.wr a v).tius = s.tius := rfl
@[simp] theorem State.wr_fres (s : State) (a v : Nat) : (s.wr a v).fres = s.fres := rfl
@[simp] theorem State.wr_stampIns (s : State) (a v : Nat) : (s.wr a v).stampIns = s.stampIns := rfl
@[simp] theorem State.wr_edgeStamp (s : State) (a v : Nat) : (s.wr a v).edgeStamp = s.edgeStamp := rfl
@[simp] theorem State.wr_recGap (s : State) (a v : Nat) : (s.wr a v).recGap = s.recGap := rfl
@[simp] theorem State.wr_signQ (s : State) (a v : Nat) : (s.wr a v).signQ = s.signQ := rfl
@[simp] theorem State.wr_signSeq (s : State) (a v : Nat) : (s.wr a v).signSeq = s.signSeq := rfl
@[simp] theorem State.wr_recHeld (s : State) (a v : Nat) : (s.wr a v).recHeld = s.recHeld := rfl
@[simp] theorem State.wr_drainPt (s : State) (a v : Nat) : (s.wr a v).drainPt = s.drainPt := rfl
@[simp] theorem State.wr_wakes (s : State) (a v : Nat) : (s.wr a v).wakes = s.wakes := rfl
@[simp] theorem State.wr_cals (s : State) (a v : Nat) : (s.wr a v).cals = s.cals := rfl
@[simp] theorem State.wr_calInsts (s : State) (a v : Nat) : (s.wr a v).calInsts = s.calInsts := rfl
@[simp] theorem State.wr_tb (s : State) (a v : Nat) : (s.wr a v).tb = s.tb := rfl
@[simp] theorem State.wr_sills (s : State) (a v : Nat) : (s.wr a v).sills = s.sills := rfl
@[simp] theorem State.wr_takeovers (s : State) (a v : Nat) : (s.wr a v).takeovers = s.takeovers := rfl
@[simp] theorem State.wr_souts (s : State) (a v : Nat) : (s.wr a v).souts = s.souts := rfl
@[simp] theorem State.wr_ptOff (s : State) (a v : Nat) : (s.wr a v).ptOff = s.ptOff := rfl
@[simp] theorem State.wr_tree (s : State) (a v : Nat) : (s.wr a v).tree = s.tree := rfl
@[simp] theorem State.wr_ports (s : State) (a v : Nat) : (s.wr a v).ports = s.ports := rfl
@[simp] theorem State.wr_meters (s : State) (a v : Nat) : (s.wr a v).meters = s.meters := rfl
@[simp] theorem State.wr_account (s : State) (a v : Nat) : (s.wr a v).account = s.account := rfl
@[simp] theorem State.wr_boot (s : State) (a v : Nat) : (s.wr a v).boot = s.boot := rfl
@[simp] theorem State.wr_spdm (s : State) (a v : Nat) : (s.wr a v).spdm = s.spdm := rfl
@[simp] theorem State.wr_tunnels (s : State) (a v : Nat) : (s.wr a v).tunnels = s.tunnels := rfl
@[simp] theorem State.wr_tempOff (s : State) (a v : Nat) : (s.wr a v).tempOff = s.tempOff := rfl
@[simp] theorem State.wr_readyOff (s : State) (a v : Nat) : (s.wr a v).readyOff = s.readyOff := rfl
@[simp] theorem State.wr_free (s : State) (a v : Nat) : (s.wr a v).free = s.free := rfl

@[simp] theorem State.setFld_pending (s : State) (a lo len v : Nat) : (s.setFld a lo len v).pending = s.pending := rfl
@[simp] theorem State.setFld_variant (s : State) (a lo len v : Nat) : (s.setFld a lo len v).variant = s.variant := rfl
@[simp] theorem State.setFld_clk (s : State) (a lo len v : Nat) : (s.setFld a lo len v).clk = s.clk := rfl
@[simp] theorem State.setFld_shadow (s : State) (a lo len v : Nat) : (s.setFld a lo len v).shadow = s.shadow := rfl
@[simp] theorem State.setFld_dirty (s : State) (a lo len v : Nat) : (s.setFld a lo len v).dirty = s.dirty := rfl
@[simp] theorem State.setFld_latch (s : State) (a lo len v : Nat) : (s.setFld a lo len v).latch = s.latch := rfl
@[simp] theorem State.setFld_hold (s : State) (a lo len v : Nat) : (s.setFld a lo len v).hold = s.hold := rfl
@[simp] theorem State.setFld_commits (s : State) (a lo len v : Nat) : (s.setFld a lo len v).commits = s.commits := rfl
@[simp] theorem State.setFld_ev (s : State) (a lo len v : Nat) : (s.setFld a lo len v).ev = s.ev := rfl
@[simp] theorem State.setFld_mem (s : State) (a lo len v : Nat) : (s.setFld a lo len v).mem = s.mem := rfl
@[simp] theorem State.setFld_poison (s : State) (a lo len v : Nat) : (s.setFld a lo len v).poison = s.poison := rfl
@[simp] theorem State.setFld_queues (s : State) (a lo len v : Nat) : (s.setFld a lo len v).queues = s.queues := rfl
@[simp] theorem State.setFld_flight (s : State) (a lo len v : Nat) : (s.setFld a lo len v).flight = s.flight := rfl
@[simp] theorem State.setFld_edges (s : State) (a lo len v : Nat) : (s.setFld a lo len v).edges = s.edges := rfl
@[simp] theorem State.setFld_seqs (s : State) (a lo len v : Nat) : (s.setFld a lo len v).seqs = s.seqs := rfl
@[simp] theorem State.setFld_barriers (s : State) (a lo len v : Nat) : (s.setFld a lo len v).barriers = s.barriers := rfl
@[simp] theorem State.setFld_verdicts (s : State) (a lo len v : Nat) : (s.setFld a lo len v).verdicts = s.verdicts := rfl
@[simp] theorem State.setFld_serial (s : State) (a lo len v : Nat) : (s.setFld a lo len v).serial = s.serial := rfl
@[simp] theorem State.setFld_ridge (s : State) (a lo len v : Nat) : (s.setFld a lo len v).ridge = s.ridge := rfl
@[simp] theorem State.setFld_pkgNum (s : State) (a lo len v : Nat) : (s.setFld a lo len v).pkgNum = s.pkgNum := rfl
@[simp] theorem State.setFld_ptGen (s : State) (a lo len v : Nat) : (s.setFld a lo len v).ptGen = s.ptGen := rfl
@[simp] theorem State.setFld_dmas (s : State) (a lo len v : Nat) : (s.setFld a lo len v).dmas = s.dmas := rfl
@[simp] theorem State.setFld_tones (s : State) (a lo len v : Nat) : (s.setFld a lo len v).tones = s.tones := rfl
@[simp] theorem State.setFld_touched (s : State) (a lo len v : Nat) : (s.setFld a lo len v).touched = s.touched := rfl
@[simp] theorem State.setFld_dacHold (s : State) (a lo len v : Nat) : (s.setFld a lo len v).dacHold = s.dacHold := rfl
@[simp] theorem State.setFld_dacAt (s : State) (a lo len v : Nat) : (s.setFld a lo len v).dacAt = s.dacAt := rfl
@[simp] theorem State.setFld_streams (s : State) (a lo len v : Nat) : (s.setFld a lo len v).streams = s.streams := rfl
@[simp] theorem State.setFld_failLog (s : State) (a lo len v : Nat) : (s.setFld a lo len v).failLog = s.failLog := rfl
@[simp] theorem State.setFld_caps (s : State) (a lo len v : Nat) : (s.setFld a lo len v).caps = s.caps := rfl
@[simp] theorem State.setFld_vseen (s : State) (a lo len v : Nat) : (s.setFld a lo len v).vseen = s.vseen := rfl
@[simp] theorem State.setFld_tius (s : State) (a lo len v : Nat) : (s.setFld a lo len v).tius = s.tius := rfl
@[simp] theorem State.setFld_fres (s : State) (a lo len v : Nat) : (s.setFld a lo len v).fres = s.fres := rfl
@[simp] theorem State.setFld_stampIns (s : State) (a lo len v : Nat) : (s.setFld a lo len v).stampIns = s.stampIns := rfl
@[simp] theorem State.setFld_edgeStamp (s : State) (a lo len v : Nat) : (s.setFld a lo len v).edgeStamp = s.edgeStamp := rfl
@[simp] theorem State.setFld_recGap (s : State) (a lo len v : Nat) : (s.setFld a lo len v).recGap = s.recGap := rfl
@[simp] theorem State.setFld_signQ (s : State) (a lo len v : Nat) : (s.setFld a lo len v).signQ = s.signQ := rfl
@[simp] theorem State.setFld_signSeq (s : State) (a lo len v : Nat) : (s.setFld a lo len v).signSeq = s.signSeq := rfl
@[simp] theorem State.setFld_recHeld (s : State) (a lo len v : Nat) : (s.setFld a lo len v).recHeld = s.recHeld := rfl
@[simp] theorem State.setFld_drainPt (s : State) (a lo len v : Nat) : (s.setFld a lo len v).drainPt = s.drainPt := rfl
@[simp] theorem State.setFld_wakes (s : State) (a lo len v : Nat) : (s.setFld a lo len v).wakes = s.wakes := rfl
@[simp] theorem State.setFld_cals (s : State) (a lo len v : Nat) : (s.setFld a lo len v).cals = s.cals := rfl
@[simp] theorem State.setFld_calInsts (s : State) (a lo len v : Nat) : (s.setFld a lo len v).calInsts = s.calInsts := rfl
@[simp] theorem State.setFld_tb (s : State) (a lo len v : Nat) : (s.setFld a lo len v).tb = s.tb := rfl
@[simp] theorem State.setFld_sills (s : State) (a lo len v : Nat) : (s.setFld a lo len v).sills = s.sills := rfl
@[simp] theorem State.setFld_takeovers (s : State) (a lo len v : Nat) : (s.setFld a lo len v).takeovers = s.takeovers := rfl
@[simp] theorem State.setFld_souts (s : State) (a lo len v : Nat) : (s.setFld a lo len v).souts = s.souts := rfl
@[simp] theorem State.setFld_ptOff (s : State) (a lo len v : Nat) : (s.setFld a lo len v).ptOff = s.ptOff := rfl
@[simp] theorem State.setFld_tree (s : State) (a lo len v : Nat) : (s.setFld a lo len v).tree = s.tree := rfl
@[simp] theorem State.setFld_ports (s : State) (a lo len v : Nat) : (s.setFld a lo len v).ports = s.ports := rfl
@[simp] theorem State.setFld_meters (s : State) (a lo len v : Nat) : (s.setFld a lo len v).meters = s.meters := rfl
@[simp] theorem State.setFld_account (s : State) (a lo len v : Nat) : (s.setFld a lo len v).account = s.account := rfl
@[simp] theorem State.setFld_boot (s : State) (a lo len v : Nat) : (s.setFld a lo len v).boot = s.boot := rfl
@[simp] theorem State.setFld_spdm (s : State) (a lo len v : Nat) : (s.setFld a lo len v).spdm = s.spdm := rfl
@[simp] theorem State.setFld_tunnels (s : State) (a lo len v : Nat) : (s.setFld a lo len v).tunnels = s.tunnels := rfl
@[simp] theorem State.setFld_tempOff (s : State) (a lo len v : Nat) : (s.setFld a lo len v).tempOff = s.tempOff := rfl
@[simp] theorem State.setFld_readyOff (s : State) (a lo len v : Nat) : (s.setFld a lo len v).readyOff = s.readyOff := rfl
@[simp] theorem State.setFld_free (s : State) (a lo len v : Nat) : (s.setFld a lo len v).free = s.free := rfl

@[simp] theorem State.setBit_pending (s : State) (a i : Nat) (b : Bool) : (s.setBit a i b).pending = s.pending := rfl
@[simp] theorem State.setBit_variant (s : State) (a i : Nat) (b : Bool) : (s.setBit a i b).variant = s.variant := rfl
@[simp] theorem State.setBit_clk (s : State) (a i : Nat) (b : Bool) : (s.setBit a i b).clk = s.clk := rfl
@[simp] theorem State.setBit_shadow (s : State) (a i : Nat) (b : Bool) : (s.setBit a i b).shadow = s.shadow := rfl
@[simp] theorem State.setBit_dirty (s : State) (a i : Nat) (b : Bool) : (s.setBit a i b).dirty = s.dirty := rfl
@[simp] theorem State.setBit_latch (s : State) (a i : Nat) (b : Bool) : (s.setBit a i b).latch = s.latch := rfl
@[simp] theorem State.setBit_hold (s : State) (a i : Nat) (b : Bool) : (s.setBit a i b).hold = s.hold := rfl
@[simp] theorem State.setBit_commits (s : State) (a i : Nat) (b : Bool) : (s.setBit a i b).commits = s.commits := rfl
@[simp] theorem State.setBit_ev (s : State) (a i : Nat) (b : Bool) : (s.setBit a i b).ev = s.ev := rfl
@[simp] theorem State.setBit_mem (s : State) (a i : Nat) (b : Bool) : (s.setBit a i b).mem = s.mem := rfl
@[simp] theorem State.setBit_poison (s : State) (a i : Nat) (b : Bool) : (s.setBit a i b).poison = s.poison := rfl
@[simp] theorem State.setBit_queues (s : State) (a i : Nat) (b : Bool) : (s.setBit a i b).queues = s.queues := rfl
@[simp] theorem State.setBit_flight (s : State) (a i : Nat) (b : Bool) : (s.setBit a i b).flight = s.flight := rfl
@[simp] theorem State.setBit_edges (s : State) (a i : Nat) (b : Bool) : (s.setBit a i b).edges = s.edges := rfl
@[simp] theorem State.setBit_seqs (s : State) (a i : Nat) (b : Bool) : (s.setBit a i b).seqs = s.seqs := rfl
@[simp] theorem State.setBit_barriers (s : State) (a i : Nat) (b : Bool) : (s.setBit a i b).barriers = s.barriers := rfl
@[simp] theorem State.setBit_verdicts (s : State) (a i : Nat) (b : Bool) : (s.setBit a i b).verdicts = s.verdicts := rfl
@[simp] theorem State.setBit_serial (s : State) (a i : Nat) (b : Bool) : (s.setBit a i b).serial = s.serial := rfl
@[simp] theorem State.setBit_ridge (s : State) (a i : Nat) (b : Bool) : (s.setBit a i b).ridge = s.ridge := rfl
@[simp] theorem State.setBit_pkgNum (s : State) (a i : Nat) (b : Bool) : (s.setBit a i b).pkgNum = s.pkgNum := rfl
@[simp] theorem State.setBit_ptGen (s : State) (a i : Nat) (b : Bool) : (s.setBit a i b).ptGen = s.ptGen := rfl
@[simp] theorem State.setBit_dmas (s : State) (a i : Nat) (b : Bool) : (s.setBit a i b).dmas = s.dmas := rfl
@[simp] theorem State.setBit_tones (s : State) (a i : Nat) (b : Bool) : (s.setBit a i b).tones = s.tones := rfl
@[simp] theorem State.setBit_touched (s : State) (a i : Nat) (b : Bool) : (s.setBit a i b).touched = s.touched := rfl
@[simp] theorem State.setBit_dacHold (s : State) (a i : Nat) (b : Bool) : (s.setBit a i b).dacHold = s.dacHold := rfl
@[simp] theorem State.setBit_dacAt (s : State) (a i : Nat) (b : Bool) : (s.setBit a i b).dacAt = s.dacAt := rfl
@[simp] theorem State.setBit_streams (s : State) (a i : Nat) (b : Bool) : (s.setBit a i b).streams = s.streams := rfl
@[simp] theorem State.setBit_failLog (s : State) (a i : Nat) (b : Bool) : (s.setBit a i b).failLog = s.failLog := rfl
@[simp] theorem State.setBit_caps (s : State) (a i : Nat) (b : Bool) : (s.setBit a i b).caps = s.caps := rfl
@[simp] theorem State.setBit_vseen (s : State) (a i : Nat) (b : Bool) : (s.setBit a i b).vseen = s.vseen := rfl
@[simp] theorem State.setBit_tius (s : State) (a i : Nat) (b : Bool) : (s.setBit a i b).tius = s.tius := rfl
@[simp] theorem State.setBit_fres (s : State) (a i : Nat) (b : Bool) : (s.setBit a i b).fres = s.fres := rfl
@[simp] theorem State.setBit_stampIns (s : State) (a i : Nat) (b : Bool) : (s.setBit a i b).stampIns = s.stampIns := rfl
@[simp] theorem State.setBit_edgeStamp (s : State) (a i : Nat) (b : Bool) : (s.setBit a i b).edgeStamp = s.edgeStamp := rfl
@[simp] theorem State.setBit_recGap (s : State) (a i : Nat) (b : Bool) : (s.setBit a i b).recGap = s.recGap := rfl
@[simp] theorem State.setBit_signQ (s : State) (a i : Nat) (b : Bool) : (s.setBit a i b).signQ = s.signQ := rfl
@[simp] theorem State.setBit_signSeq (s : State) (a i : Nat) (b : Bool) : (s.setBit a i b).signSeq = s.signSeq := rfl
@[simp] theorem State.setBit_recHeld (s : State) (a i : Nat) (b : Bool) : (s.setBit a i b).recHeld = s.recHeld := rfl
@[simp] theorem State.setBit_drainPt (s : State) (a i : Nat) (b : Bool) : (s.setBit a i b).drainPt = s.drainPt := rfl
@[simp] theorem State.setBit_wakes (s : State) (a i : Nat) (b : Bool) : (s.setBit a i b).wakes = s.wakes := rfl
@[simp] theorem State.setBit_cals (s : State) (a i : Nat) (b : Bool) : (s.setBit a i b).cals = s.cals := rfl
@[simp] theorem State.setBit_calInsts (s : State) (a i : Nat) (b : Bool) : (s.setBit a i b).calInsts = s.calInsts := rfl
@[simp] theorem State.setBit_tb (s : State) (a i : Nat) (b : Bool) : (s.setBit a i b).tb = s.tb := rfl
@[simp] theorem State.setBit_sills (s : State) (a i : Nat) (b : Bool) : (s.setBit a i b).sills = s.sills := rfl
@[simp] theorem State.setBit_takeovers (s : State) (a i : Nat) (b : Bool) : (s.setBit a i b).takeovers = s.takeovers := rfl
@[simp] theorem State.setBit_souts (s : State) (a i : Nat) (b : Bool) : (s.setBit a i b).souts = s.souts := rfl
@[simp] theorem State.setBit_ptOff (s : State) (a i : Nat) (b : Bool) : (s.setBit a i b).ptOff = s.ptOff := rfl
@[simp] theorem State.setBit_tree (s : State) (a i : Nat) (b : Bool) : (s.setBit a i b).tree = s.tree := rfl
@[simp] theorem State.setBit_ports (s : State) (a i : Nat) (b : Bool) : (s.setBit a i b).ports = s.ports := rfl
@[simp] theorem State.setBit_meters (s : State) (a i : Nat) (b : Bool) : (s.setBit a i b).meters = s.meters := rfl
@[simp] theorem State.setBit_account (s : State) (a i : Nat) (b : Bool) : (s.setBit a i b).account = s.account := rfl
@[simp] theorem State.setBit_boot (s : State) (a i : Nat) (b : Bool) : (s.setBit a i b).boot = s.boot := rfl
@[simp] theorem State.setBit_spdm (s : State) (a i : Nat) (b : Bool) : (s.setBit a i b).spdm = s.spdm := rfl
@[simp] theorem State.setBit_tunnels (s : State) (a i : Nat) (b : Bool) : (s.setBit a i b).tunnels = s.tunnels := rfl
@[simp] theorem State.setBit_tempOff (s : State) (a i : Nat) (b : Bool) : (s.setBit a i b).tempOff = s.tempOff := rfl
@[simp] theorem State.setBit_readyOff (s : State) (a i : Nat) (b : Bool) : (s.setBit a i b).readyOff = s.readyOff := rfl
@[simp] theorem State.setBit_free (s : State) (a i : Nat) (b : Bool) : (s.setBit a i b).free = s.free := rfl

@[simp] theorem State.bump_pending (s : State) (a : Nat) : (s.bump a).pending = s.pending := rfl
@[simp] theorem State.bump_variant (s : State) (a : Nat) : (s.bump a).variant = s.variant := rfl
@[simp] theorem State.bump_clk (s : State) (a : Nat) : (s.bump a).clk = s.clk := rfl
@[simp] theorem State.bump_shadow (s : State) (a : Nat) : (s.bump a).shadow = s.shadow := rfl
@[simp] theorem State.bump_dirty (s : State) (a : Nat) : (s.bump a).dirty = s.dirty := rfl
@[simp] theorem State.bump_latch (s : State) (a : Nat) : (s.bump a).latch = s.latch := rfl
@[simp] theorem State.bump_hold (s : State) (a : Nat) : (s.bump a).hold = s.hold := rfl
@[simp] theorem State.bump_commits (s : State) (a : Nat) : (s.bump a).commits = s.commits := rfl
@[simp] theorem State.bump_ev (s : State) (a : Nat) : (s.bump a).ev = s.ev := rfl
@[simp] theorem State.bump_mem (s : State) (a : Nat) : (s.bump a).mem = s.mem := rfl
@[simp] theorem State.bump_poison (s : State) (a : Nat) : (s.bump a).poison = s.poison := rfl
@[simp] theorem State.bump_queues (s : State) (a : Nat) : (s.bump a).queues = s.queues := rfl
@[simp] theorem State.bump_flight (s : State) (a : Nat) : (s.bump a).flight = s.flight := rfl
@[simp] theorem State.bump_edges (s : State) (a : Nat) : (s.bump a).edges = s.edges := rfl
@[simp] theorem State.bump_seqs (s : State) (a : Nat) : (s.bump a).seqs = s.seqs := rfl
@[simp] theorem State.bump_barriers (s : State) (a : Nat) : (s.bump a).barriers = s.barriers := rfl
@[simp] theorem State.bump_verdicts (s : State) (a : Nat) : (s.bump a).verdicts = s.verdicts := rfl
@[simp] theorem State.bump_serial (s : State) (a : Nat) : (s.bump a).serial = s.serial := rfl
@[simp] theorem State.bump_ridge (s : State) (a : Nat) : (s.bump a).ridge = s.ridge := rfl
@[simp] theorem State.bump_pkgNum (s : State) (a : Nat) : (s.bump a).pkgNum = s.pkgNum := rfl
@[simp] theorem State.bump_ptGen (s : State) (a : Nat) : (s.bump a).ptGen = s.ptGen := rfl
@[simp] theorem State.bump_dmas (s : State) (a : Nat) : (s.bump a).dmas = s.dmas := rfl
@[simp] theorem State.bump_tones (s : State) (a : Nat) : (s.bump a).tones = s.tones := rfl
@[simp] theorem State.bump_touched (s : State) (a : Nat) : (s.bump a).touched = s.touched := rfl
@[simp] theorem State.bump_dacHold (s : State) (a : Nat) : (s.bump a).dacHold = s.dacHold := rfl
@[simp] theorem State.bump_dacAt (s : State) (a : Nat) : (s.bump a).dacAt = s.dacAt := rfl
@[simp] theorem State.bump_streams (s : State) (a : Nat) : (s.bump a).streams = s.streams := rfl
@[simp] theorem State.bump_failLog (s : State) (a : Nat) : (s.bump a).failLog = s.failLog := rfl
@[simp] theorem State.bump_caps (s : State) (a : Nat) : (s.bump a).caps = s.caps := rfl
@[simp] theorem State.bump_vseen (s : State) (a : Nat) : (s.bump a).vseen = s.vseen := rfl
@[simp] theorem State.bump_tius (s : State) (a : Nat) : (s.bump a).tius = s.tius := rfl
@[simp] theorem State.bump_fres (s : State) (a : Nat) : (s.bump a).fres = s.fres := rfl
@[simp] theorem State.bump_stampIns (s : State) (a : Nat) : (s.bump a).stampIns = s.stampIns := rfl
@[simp] theorem State.bump_edgeStamp (s : State) (a : Nat) : (s.bump a).edgeStamp = s.edgeStamp := rfl
@[simp] theorem State.bump_recGap (s : State) (a : Nat) : (s.bump a).recGap = s.recGap := rfl
@[simp] theorem State.bump_signQ (s : State) (a : Nat) : (s.bump a).signQ = s.signQ := rfl
@[simp] theorem State.bump_signSeq (s : State) (a : Nat) : (s.bump a).signSeq = s.signSeq := rfl
@[simp] theorem State.bump_recHeld (s : State) (a : Nat) : (s.bump a).recHeld = s.recHeld := rfl
@[simp] theorem State.bump_drainPt (s : State) (a : Nat) : (s.bump a).drainPt = s.drainPt := rfl
@[simp] theorem State.bump_wakes (s : State) (a : Nat) : (s.bump a).wakes = s.wakes := rfl
@[simp] theorem State.bump_cals (s : State) (a : Nat) : (s.bump a).cals = s.cals := rfl
@[simp] theorem State.bump_calInsts (s : State) (a : Nat) : (s.bump a).calInsts = s.calInsts := rfl
@[simp] theorem State.bump_tb (s : State) (a : Nat) : (s.bump a).tb = s.tb := rfl
@[simp] theorem State.bump_sills (s : State) (a : Nat) : (s.bump a).sills = s.sills := rfl
@[simp] theorem State.bump_takeovers (s : State) (a : Nat) : (s.bump a).takeovers = s.takeovers := rfl
@[simp] theorem State.bump_souts (s : State) (a : Nat) : (s.bump a).souts = s.souts := rfl
@[simp] theorem State.bump_ptOff (s : State) (a : Nat) : (s.bump a).ptOff = s.ptOff := rfl
@[simp] theorem State.bump_tree (s : State) (a : Nat) : (s.bump a).tree = s.tree := rfl
@[simp] theorem State.bump_ports (s : State) (a : Nat) : (s.bump a).ports = s.ports := rfl
@[simp] theorem State.bump_meters (s : State) (a : Nat) : (s.bump a).meters = s.meters := rfl
@[simp] theorem State.bump_account (s : State) (a : Nat) : (s.bump a).account = s.account := rfl
@[simp] theorem State.bump_boot (s : State) (a : Nat) : (s.bump a).boot = s.boot := rfl
@[simp] theorem State.bump_spdm (s : State) (a : Nat) : (s.bump a).spdm = s.spdm := rfl
@[simp] theorem State.bump_tunnels (s : State) (a : Nat) : (s.bump a).tunnels = s.tunnels := rfl
@[simp] theorem State.bump_tempOff (s : State) (a : Nat) : (s.bump a).tempOff = s.tempOff := rfl
@[simp] theorem State.bump_readyOff (s : State) (a : Nat) : (s.bump a).readyOff = s.readyOff := rfl
@[simp] theorem State.bump_free (s : State) (a : Nat) : (s.bump a).free = s.free := rfl

@[simp] theorem State.count_pending (s : State) (a n : Nat) : (s.count a n).pending = s.pending := rfl
@[simp] theorem State.count_variant (s : State) (a n : Nat) : (s.count a n).variant = s.variant := rfl
@[simp] theorem State.count_clk (s : State) (a n : Nat) : (s.count a n).clk = s.clk := rfl
@[simp] theorem State.count_shadow (s : State) (a n : Nat) : (s.count a n).shadow = s.shadow := rfl
@[simp] theorem State.count_dirty (s : State) (a n : Nat) : (s.count a n).dirty = s.dirty := rfl
@[simp] theorem State.count_latch (s : State) (a n : Nat) : (s.count a n).latch = s.latch := rfl
@[simp] theorem State.count_hold (s : State) (a n : Nat) : (s.count a n).hold = s.hold := rfl
@[simp] theorem State.count_commits (s : State) (a n : Nat) : (s.count a n).commits = s.commits := rfl
@[simp] theorem State.count_ev (s : State) (a n : Nat) : (s.count a n).ev = s.ev := rfl
@[simp] theorem State.count_mem (s : State) (a n : Nat) : (s.count a n).mem = s.mem := rfl
@[simp] theorem State.count_poison (s : State) (a n : Nat) : (s.count a n).poison = s.poison := rfl
@[simp] theorem State.count_queues (s : State) (a n : Nat) : (s.count a n).queues = s.queues := rfl
@[simp] theorem State.count_flight (s : State) (a n : Nat) : (s.count a n).flight = s.flight := rfl
@[simp] theorem State.count_edges (s : State) (a n : Nat) : (s.count a n).edges = s.edges := rfl
@[simp] theorem State.count_seqs (s : State) (a n : Nat) : (s.count a n).seqs = s.seqs := rfl
@[simp] theorem State.count_barriers (s : State) (a n : Nat) : (s.count a n).barriers = s.barriers := rfl
@[simp] theorem State.count_verdicts (s : State) (a n : Nat) : (s.count a n).verdicts = s.verdicts := rfl
@[simp] theorem State.count_serial (s : State) (a n : Nat) : (s.count a n).serial = s.serial := rfl
@[simp] theorem State.count_ridge (s : State) (a n : Nat) : (s.count a n).ridge = s.ridge := rfl
@[simp] theorem State.count_pkgNum (s : State) (a n : Nat) : (s.count a n).pkgNum = s.pkgNum := rfl
@[simp] theorem State.count_ptGen (s : State) (a n : Nat) : (s.count a n).ptGen = s.ptGen := rfl
@[simp] theorem State.count_dmas (s : State) (a n : Nat) : (s.count a n).dmas = s.dmas := rfl
@[simp] theorem State.count_tones (s : State) (a n : Nat) : (s.count a n).tones = s.tones := rfl
@[simp] theorem State.count_touched (s : State) (a n : Nat) : (s.count a n).touched = s.touched := rfl
@[simp] theorem State.count_dacHold (s : State) (a n : Nat) : (s.count a n).dacHold = s.dacHold := rfl
@[simp] theorem State.count_dacAt (s : State) (a n : Nat) : (s.count a n).dacAt = s.dacAt := rfl
@[simp] theorem State.count_streams (s : State) (a n : Nat) : (s.count a n).streams = s.streams := rfl
@[simp] theorem State.count_failLog (s : State) (a n : Nat) : (s.count a n).failLog = s.failLog := rfl
@[simp] theorem State.count_caps (s : State) (a n : Nat) : (s.count a n).caps = s.caps := rfl
@[simp] theorem State.count_vseen (s : State) (a n : Nat) : (s.count a n).vseen = s.vseen := rfl
@[simp] theorem State.count_tius (s : State) (a n : Nat) : (s.count a n).tius = s.tius := rfl
@[simp] theorem State.count_fres (s : State) (a n : Nat) : (s.count a n).fres = s.fres := rfl
@[simp] theorem State.count_stampIns (s : State) (a n : Nat) : (s.count a n).stampIns = s.stampIns := rfl
@[simp] theorem State.count_edgeStamp (s : State) (a n : Nat) : (s.count a n).edgeStamp = s.edgeStamp := rfl
@[simp] theorem State.count_recGap (s : State) (a n : Nat) : (s.count a n).recGap = s.recGap := rfl
@[simp] theorem State.count_signQ (s : State) (a n : Nat) : (s.count a n).signQ = s.signQ := rfl
@[simp] theorem State.count_signSeq (s : State) (a n : Nat) : (s.count a n).signSeq = s.signSeq := rfl
@[simp] theorem State.count_recHeld (s : State) (a n : Nat) : (s.count a n).recHeld = s.recHeld := rfl
@[simp] theorem State.count_drainPt (s : State) (a n : Nat) : (s.count a n).drainPt = s.drainPt := rfl
@[simp] theorem State.count_wakes (s : State) (a n : Nat) : (s.count a n).wakes = s.wakes := rfl
@[simp] theorem State.count_cals (s : State) (a n : Nat) : (s.count a n).cals = s.cals := rfl
@[simp] theorem State.count_calInsts (s : State) (a n : Nat) : (s.count a n).calInsts = s.calInsts := rfl
@[simp] theorem State.count_tb (s : State) (a n : Nat) : (s.count a n).tb = s.tb := rfl
@[simp] theorem State.count_sills (s : State) (a n : Nat) : (s.count a n).sills = s.sills := rfl
@[simp] theorem State.count_takeovers (s : State) (a n : Nat) : (s.count a n).takeovers = s.takeovers := rfl
@[simp] theorem State.count_souts (s : State) (a n : Nat) : (s.count a n).souts = s.souts := rfl
@[simp] theorem State.count_ptOff (s : State) (a n : Nat) : (s.count a n).ptOff = s.ptOff := rfl
@[simp] theorem State.count_tree (s : State) (a n : Nat) : (s.count a n).tree = s.tree := rfl
@[simp] theorem State.count_ports (s : State) (a n : Nat) : (s.count a n).ports = s.ports := rfl
@[simp] theorem State.count_meters (s : State) (a n : Nat) : (s.count a n).meters = s.meters := rfl
@[simp] theorem State.count_account (s : State) (a n : Nat) : (s.count a n).account = s.account := rfl
@[simp] theorem State.count_boot (s : State) (a n : Nat) : (s.count a n).boot = s.boot := rfl
@[simp] theorem State.count_spdm (s : State) (a n : Nat) : (s.count a n).spdm = s.spdm := rfl
@[simp] theorem State.count_tunnels (s : State) (a n : Nat) : (s.count a n).tunnels = s.tunnels := rfl
@[simp] theorem State.count_tempOff (s : State) (a n : Nat) : (s.count a n).tempOff = s.tempOff := rfl
@[simp] theorem State.count_readyOff (s : State) (a n : Nat) : (s.count a n).readyOff = s.readyOff := rfl
@[simp] theorem State.count_free (s : State) (a n : Nat) : (s.count a n).free = s.free := rfl

@[simp] theorem State.wr80_pending (s : State) (a v : Nat) : (s.wr80 a v).pending = s.pending := rfl
@[simp] theorem State.wr80_variant (s : State) (a v : Nat) : (s.wr80 a v).variant = s.variant := rfl
@[simp] theorem State.wr80_clk (s : State) (a v : Nat) : (s.wr80 a v).clk = s.clk := rfl
@[simp] theorem State.wr80_shadow (s : State) (a v : Nat) : (s.wr80 a v).shadow = s.shadow := rfl
@[simp] theorem State.wr80_dirty (s : State) (a v : Nat) : (s.wr80 a v).dirty = s.dirty := rfl
@[simp] theorem State.wr80_latch (s : State) (a v : Nat) : (s.wr80 a v).latch = s.latch := rfl
@[simp] theorem State.wr80_hold (s : State) (a v : Nat) : (s.wr80 a v).hold = s.hold := rfl
@[simp] theorem State.wr80_commits (s : State) (a v : Nat) : (s.wr80 a v).commits = s.commits := rfl
@[simp] theorem State.wr80_ev (s : State) (a v : Nat) : (s.wr80 a v).ev = s.ev := rfl
@[simp] theorem State.wr80_mem (s : State) (a v : Nat) : (s.wr80 a v).mem = s.mem := rfl
@[simp] theorem State.wr80_poison (s : State) (a v : Nat) : (s.wr80 a v).poison = s.poison := rfl
@[simp] theorem State.wr80_queues (s : State) (a v : Nat) : (s.wr80 a v).queues = s.queues := rfl
@[simp] theorem State.wr80_flight (s : State) (a v : Nat) : (s.wr80 a v).flight = s.flight := rfl
@[simp] theorem State.wr80_edges (s : State) (a v : Nat) : (s.wr80 a v).edges = s.edges := rfl
@[simp] theorem State.wr80_seqs (s : State) (a v : Nat) : (s.wr80 a v).seqs = s.seqs := rfl
@[simp] theorem State.wr80_barriers (s : State) (a v : Nat) : (s.wr80 a v).barriers = s.barriers := rfl
@[simp] theorem State.wr80_verdicts (s : State) (a v : Nat) : (s.wr80 a v).verdicts = s.verdicts := rfl
@[simp] theorem State.wr80_serial (s : State) (a v : Nat) : (s.wr80 a v).serial = s.serial := rfl
@[simp] theorem State.wr80_ridge (s : State) (a v : Nat) : (s.wr80 a v).ridge = s.ridge := rfl
@[simp] theorem State.wr80_pkgNum (s : State) (a v : Nat) : (s.wr80 a v).pkgNum = s.pkgNum := rfl
@[simp] theorem State.wr80_ptGen (s : State) (a v : Nat) : (s.wr80 a v).ptGen = s.ptGen := rfl
@[simp] theorem State.wr80_dmas (s : State) (a v : Nat) : (s.wr80 a v).dmas = s.dmas := rfl
@[simp] theorem State.wr80_tones (s : State) (a v : Nat) : (s.wr80 a v).tones = s.tones := rfl
@[simp] theorem State.wr80_touched (s : State) (a v : Nat) : (s.wr80 a v).touched = s.touched := rfl
@[simp] theorem State.wr80_dacHold (s : State) (a v : Nat) : (s.wr80 a v).dacHold = s.dacHold := rfl
@[simp] theorem State.wr80_dacAt (s : State) (a v : Nat) : (s.wr80 a v).dacAt = s.dacAt := rfl
@[simp] theorem State.wr80_streams (s : State) (a v : Nat) : (s.wr80 a v).streams = s.streams := rfl
@[simp] theorem State.wr80_failLog (s : State) (a v : Nat) : (s.wr80 a v).failLog = s.failLog := rfl
@[simp] theorem State.wr80_caps (s : State) (a v : Nat) : (s.wr80 a v).caps = s.caps := rfl
@[simp] theorem State.wr80_vseen (s : State) (a v : Nat) : (s.wr80 a v).vseen = s.vseen := rfl
@[simp] theorem State.wr80_tius (s : State) (a v : Nat) : (s.wr80 a v).tius = s.tius := rfl
@[simp] theorem State.wr80_fres (s : State) (a v : Nat) : (s.wr80 a v).fres = s.fres := rfl
@[simp] theorem State.wr80_stampIns (s : State) (a v : Nat) : (s.wr80 a v).stampIns = s.stampIns := rfl
@[simp] theorem State.wr80_edgeStamp (s : State) (a v : Nat) : (s.wr80 a v).edgeStamp = s.edgeStamp := rfl
@[simp] theorem State.wr80_recGap (s : State) (a v : Nat) : (s.wr80 a v).recGap = s.recGap := rfl
@[simp] theorem State.wr80_signQ (s : State) (a v : Nat) : (s.wr80 a v).signQ = s.signQ := rfl
@[simp] theorem State.wr80_signSeq (s : State) (a v : Nat) : (s.wr80 a v).signSeq = s.signSeq := rfl
@[simp] theorem State.wr80_recHeld (s : State) (a v : Nat) : (s.wr80 a v).recHeld = s.recHeld := rfl
@[simp] theorem State.wr80_drainPt (s : State) (a v : Nat) : (s.wr80 a v).drainPt = s.drainPt := rfl
@[simp] theorem State.wr80_wakes (s : State) (a v : Nat) : (s.wr80 a v).wakes = s.wakes := rfl
@[simp] theorem State.wr80_cals (s : State) (a v : Nat) : (s.wr80 a v).cals = s.cals := rfl
@[simp] theorem State.wr80_calInsts (s : State) (a v : Nat) : (s.wr80 a v).calInsts = s.calInsts := rfl
@[simp] theorem State.wr80_tb (s : State) (a v : Nat) : (s.wr80 a v).tb = s.tb := rfl
@[simp] theorem State.wr80_sills (s : State) (a v : Nat) : (s.wr80 a v).sills = s.sills := rfl
@[simp] theorem State.wr80_takeovers (s : State) (a v : Nat) : (s.wr80 a v).takeovers = s.takeovers := rfl
@[simp] theorem State.wr80_souts (s : State) (a v : Nat) : (s.wr80 a v).souts = s.souts := rfl
@[simp] theorem State.wr80_ptOff (s : State) (a v : Nat) : (s.wr80 a v).ptOff = s.ptOff := rfl
@[simp] theorem State.wr80_tree (s : State) (a v : Nat) : (s.wr80 a v).tree = s.tree := rfl
@[simp] theorem State.wr80_ports (s : State) (a v : Nat) : (s.wr80 a v).ports = s.ports := rfl
@[simp] theorem State.wr80_meters (s : State) (a v : Nat) : (s.wr80 a v).meters = s.meters := rfl
@[simp] theorem State.wr80_account (s : State) (a v : Nat) : (s.wr80 a v).account = s.account := rfl
@[simp] theorem State.wr80_boot (s : State) (a v : Nat) : (s.wr80 a v).boot = s.boot := rfl
@[simp] theorem State.wr80_spdm (s : State) (a v : Nat) : (s.wr80 a v).spdm = s.spdm := rfl
@[simp] theorem State.wr80_tunnels (s : State) (a v : Nat) : (s.wr80 a v).tunnels = s.tunnels := rfl
@[simp] theorem State.wr80_tempOff (s : State) (a v : Nat) : (s.wr80 a v).tempOff = s.tempOff := rfl
@[simp] theorem State.wr80_readyOff (s : State) (a v : Nat) : (s.wr80 a v).readyOff = s.readyOff := rfl
@[simp] theorem State.wr80_free (s : State) (a v : Nat) : (s.wr80 a v).free = s.free := rfl

@[simp] theorem State.wr64_pending (s : State) (a v : Nat) : (s.wr64 a v).pending = s.pending := rfl
@[simp] theorem State.wr64_variant (s : State) (a v : Nat) : (s.wr64 a v).variant = s.variant := rfl
@[simp] theorem State.wr64_clk (s : State) (a v : Nat) : (s.wr64 a v).clk = s.clk := rfl
@[simp] theorem State.wr64_shadow (s : State) (a v : Nat) : (s.wr64 a v).shadow = s.shadow := rfl
@[simp] theorem State.wr64_dirty (s : State) (a v : Nat) : (s.wr64 a v).dirty = s.dirty := rfl
@[simp] theorem State.wr64_latch (s : State) (a v : Nat) : (s.wr64 a v).latch = s.latch := rfl
@[simp] theorem State.wr64_hold (s : State) (a v : Nat) : (s.wr64 a v).hold = s.hold := rfl
@[simp] theorem State.wr64_commits (s : State) (a v : Nat) : (s.wr64 a v).commits = s.commits := rfl
@[simp] theorem State.wr64_ev (s : State) (a v : Nat) : (s.wr64 a v).ev = s.ev := rfl
@[simp] theorem State.wr64_mem (s : State) (a v : Nat) : (s.wr64 a v).mem = s.mem := rfl
@[simp] theorem State.wr64_poison (s : State) (a v : Nat) : (s.wr64 a v).poison = s.poison := rfl
@[simp] theorem State.wr64_queues (s : State) (a v : Nat) : (s.wr64 a v).queues = s.queues := rfl
@[simp] theorem State.wr64_flight (s : State) (a v : Nat) : (s.wr64 a v).flight = s.flight := rfl
@[simp] theorem State.wr64_edges (s : State) (a v : Nat) : (s.wr64 a v).edges = s.edges := rfl
@[simp] theorem State.wr64_seqs (s : State) (a v : Nat) : (s.wr64 a v).seqs = s.seqs := rfl
@[simp] theorem State.wr64_barriers (s : State) (a v : Nat) : (s.wr64 a v).barriers = s.barriers := rfl
@[simp] theorem State.wr64_verdicts (s : State) (a v : Nat) : (s.wr64 a v).verdicts = s.verdicts := rfl
@[simp] theorem State.wr64_serial (s : State) (a v : Nat) : (s.wr64 a v).serial = s.serial := rfl
@[simp] theorem State.wr64_ridge (s : State) (a v : Nat) : (s.wr64 a v).ridge = s.ridge := rfl
@[simp] theorem State.wr64_pkgNum (s : State) (a v : Nat) : (s.wr64 a v).pkgNum = s.pkgNum := rfl
@[simp] theorem State.wr64_ptGen (s : State) (a v : Nat) : (s.wr64 a v).ptGen = s.ptGen := rfl
@[simp] theorem State.wr64_dmas (s : State) (a v : Nat) : (s.wr64 a v).dmas = s.dmas := rfl
@[simp] theorem State.wr64_tones (s : State) (a v : Nat) : (s.wr64 a v).tones = s.tones := rfl
@[simp] theorem State.wr64_touched (s : State) (a v : Nat) : (s.wr64 a v).touched = s.touched := rfl
@[simp] theorem State.wr64_dacHold (s : State) (a v : Nat) : (s.wr64 a v).dacHold = s.dacHold := rfl
@[simp] theorem State.wr64_dacAt (s : State) (a v : Nat) : (s.wr64 a v).dacAt = s.dacAt := rfl
@[simp] theorem State.wr64_streams (s : State) (a v : Nat) : (s.wr64 a v).streams = s.streams := rfl
@[simp] theorem State.wr64_failLog (s : State) (a v : Nat) : (s.wr64 a v).failLog = s.failLog := rfl
@[simp] theorem State.wr64_caps (s : State) (a v : Nat) : (s.wr64 a v).caps = s.caps := rfl
@[simp] theorem State.wr64_vseen (s : State) (a v : Nat) : (s.wr64 a v).vseen = s.vseen := rfl
@[simp] theorem State.wr64_tius (s : State) (a v : Nat) : (s.wr64 a v).tius = s.tius := rfl
@[simp] theorem State.wr64_fres (s : State) (a v : Nat) : (s.wr64 a v).fres = s.fres := rfl
@[simp] theorem State.wr64_stampIns (s : State) (a v : Nat) : (s.wr64 a v).stampIns = s.stampIns := rfl
@[simp] theorem State.wr64_edgeStamp (s : State) (a v : Nat) : (s.wr64 a v).edgeStamp = s.edgeStamp := rfl
@[simp] theorem State.wr64_recGap (s : State) (a v : Nat) : (s.wr64 a v).recGap = s.recGap := rfl
@[simp] theorem State.wr64_signQ (s : State) (a v : Nat) : (s.wr64 a v).signQ = s.signQ := rfl
@[simp] theorem State.wr64_signSeq (s : State) (a v : Nat) : (s.wr64 a v).signSeq = s.signSeq := rfl
@[simp] theorem State.wr64_recHeld (s : State) (a v : Nat) : (s.wr64 a v).recHeld = s.recHeld := rfl
@[simp] theorem State.wr64_drainPt (s : State) (a v : Nat) : (s.wr64 a v).drainPt = s.drainPt := rfl
@[simp] theorem State.wr64_wakes (s : State) (a v : Nat) : (s.wr64 a v).wakes = s.wakes := rfl
@[simp] theorem State.wr64_cals (s : State) (a v : Nat) : (s.wr64 a v).cals = s.cals := rfl
@[simp] theorem State.wr64_calInsts (s : State) (a v : Nat) : (s.wr64 a v).calInsts = s.calInsts := rfl
@[simp] theorem State.wr64_tb (s : State) (a v : Nat) : (s.wr64 a v).tb = s.tb := rfl
@[simp] theorem State.wr64_sills (s : State) (a v : Nat) : (s.wr64 a v).sills = s.sills := rfl
@[simp] theorem State.wr64_takeovers (s : State) (a v : Nat) : (s.wr64 a v).takeovers = s.takeovers := rfl
@[simp] theorem State.wr64_souts (s : State) (a v : Nat) : (s.wr64 a v).souts = s.souts := rfl
@[simp] theorem State.wr64_ptOff (s : State) (a v : Nat) : (s.wr64 a v).ptOff = s.ptOff := rfl
@[simp] theorem State.wr64_tree (s : State) (a v : Nat) : (s.wr64 a v).tree = s.tree := rfl
@[simp] theorem State.wr64_ports (s : State) (a v : Nat) : (s.wr64 a v).ports = s.ports := rfl
@[simp] theorem State.wr64_meters (s : State) (a v : Nat) : (s.wr64 a v).meters = s.meters := rfl
@[simp] theorem State.wr64_account (s : State) (a v : Nat) : (s.wr64 a v).account = s.account := rfl
@[simp] theorem State.wr64_boot (s : State) (a v : Nat) : (s.wr64 a v).boot = s.boot := rfl
@[simp] theorem State.wr64_spdm (s : State) (a v : Nat) : (s.wr64 a v).spdm = s.spdm := rfl
@[simp] theorem State.wr64_tunnels (s : State) (a v : Nat) : (s.wr64 a v).tunnels = s.tunnels := rfl
@[simp] theorem State.wr64_tempOff (s : State) (a v : Nat) : (s.wr64 a v).tempOff = s.tempOff := rfl
@[simp] theorem State.wr64_readyOff (s : State) (a v : Nat) : (s.wr64 a v).readyOff = s.readyOff := rfl
@[simp] theorem State.wr64_free (s : State) (a v : Nat) : (s.wr64 a v).free = s.free := rfl

/-! ### Events, health codes, vectors: only `ev` changes -/

@[simp] theorem State.latchHealth_pending (s : State) (pg c : Nat) : (s.latchHealth pg c).pending = s.pending := rfl
@[simp] theorem State.latchHealth_variant (s : State) (pg c : Nat) : (s.latchHealth pg c).variant = s.variant := rfl
@[simp] theorem State.latchHealth_clk (s : State) (pg c : Nat) : (s.latchHealth pg c).clk = s.clk := rfl
@[simp] theorem State.latchHealth_regs (s : State) (pg c : Nat) : (s.latchHealth pg c).regs = s.regs := rfl
@[simp] theorem State.latchHealth_shadow (s : State) (pg c : Nat) : (s.latchHealth pg c).shadow = s.shadow := rfl
@[simp] theorem State.latchHealth_dirty (s : State) (pg c : Nat) : (s.latchHealth pg c).dirty = s.dirty := rfl
@[simp] theorem State.latchHealth_latch (s : State) (pg c : Nat) : (s.latchHealth pg c).latch = s.latch := rfl
@[simp] theorem State.latchHealth_hold (s : State) (pg c : Nat) : (s.latchHealth pg c).hold = s.hold := rfl
@[simp] theorem State.latchHealth_commits (s : State) (pg c : Nat) : (s.latchHealth pg c).commits = s.commits := rfl
@[simp] theorem State.latchHealth_mem (s : State) (pg c : Nat) : (s.latchHealth pg c).mem = s.mem := rfl
@[simp] theorem State.latchHealth_poison (s : State) (pg c : Nat) : (s.latchHealth pg c).poison = s.poison := rfl
@[simp] theorem State.latchHealth_queues (s : State) (pg c : Nat) : (s.latchHealth pg c).queues = s.queues := rfl
@[simp] theorem State.latchHealth_flight (s : State) (pg c : Nat) : (s.latchHealth pg c).flight = s.flight := rfl
@[simp] theorem State.latchHealth_edges (s : State) (pg c : Nat) : (s.latchHealth pg c).edges = s.edges := rfl
@[simp] theorem State.latchHealth_seqs (s : State) (pg c : Nat) : (s.latchHealth pg c).seqs = s.seqs := rfl
@[simp] theorem State.latchHealth_barriers (s : State) (pg c : Nat) : (s.latchHealth pg c).barriers = s.barriers := rfl
@[simp] theorem State.latchHealth_verdicts (s : State) (pg c : Nat) : (s.latchHealth pg c).verdicts = s.verdicts := rfl
@[simp] theorem State.latchHealth_serial (s : State) (pg c : Nat) : (s.latchHealth pg c).serial = s.serial := rfl
@[simp] theorem State.latchHealth_ridge (s : State) (pg c : Nat) : (s.latchHealth pg c).ridge = s.ridge := rfl
@[simp] theorem State.latchHealth_pkgNum (s : State) (pg c : Nat) : (s.latchHealth pg c).pkgNum = s.pkgNum := rfl
@[simp] theorem State.latchHealth_ptGen (s : State) (pg c : Nat) : (s.latchHealth pg c).ptGen = s.ptGen := rfl
@[simp] theorem State.latchHealth_dmas (s : State) (pg c : Nat) : (s.latchHealth pg c).dmas = s.dmas := rfl
@[simp] theorem State.latchHealth_tones (s : State) (pg c : Nat) : (s.latchHealth pg c).tones = s.tones := rfl
@[simp] theorem State.latchHealth_touched (s : State) (pg c : Nat) : (s.latchHealth pg c).touched = s.touched := rfl
@[simp] theorem State.latchHealth_dacHold (s : State) (pg c : Nat) : (s.latchHealth pg c).dacHold = s.dacHold := rfl
@[simp] theorem State.latchHealth_dacAt (s : State) (pg c : Nat) : (s.latchHealth pg c).dacAt = s.dacAt := rfl
@[simp] theorem State.latchHealth_streams (s : State) (pg c : Nat) : (s.latchHealth pg c).streams = s.streams := rfl
@[simp] theorem State.latchHealth_failLog (s : State) (pg c : Nat) : (s.latchHealth pg c).failLog = s.failLog := rfl
@[simp] theorem State.latchHealth_caps (s : State) (pg c : Nat) : (s.latchHealth pg c).caps = s.caps := rfl
@[simp] theorem State.latchHealth_vseen (s : State) (pg c : Nat) : (s.latchHealth pg c).vseen = s.vseen := rfl
@[simp] theorem State.latchHealth_tius (s : State) (pg c : Nat) : (s.latchHealth pg c).tius = s.tius := rfl
@[simp] theorem State.latchHealth_fres (s : State) (pg c : Nat) : (s.latchHealth pg c).fres = s.fres := rfl
@[simp] theorem State.latchHealth_stampIns (s : State) (pg c : Nat) : (s.latchHealth pg c).stampIns = s.stampIns := rfl
@[simp] theorem State.latchHealth_edgeStamp (s : State) (pg c : Nat) : (s.latchHealth pg c).edgeStamp = s.edgeStamp := rfl
@[simp] theorem State.latchHealth_recGap (s : State) (pg c : Nat) : (s.latchHealth pg c).recGap = s.recGap := rfl
@[simp] theorem State.latchHealth_signQ (s : State) (pg c : Nat) : (s.latchHealth pg c).signQ = s.signQ := rfl
@[simp] theorem State.latchHealth_signSeq (s : State) (pg c : Nat) : (s.latchHealth pg c).signSeq = s.signSeq := rfl
@[simp] theorem State.latchHealth_recHeld (s : State) (pg c : Nat) : (s.latchHealth pg c).recHeld = s.recHeld := rfl
@[simp] theorem State.latchHealth_drainPt (s : State) (pg c : Nat) : (s.latchHealth pg c).drainPt = s.drainPt := rfl
@[simp] theorem State.latchHealth_wakes (s : State) (pg c : Nat) : (s.latchHealth pg c).wakes = s.wakes := rfl
@[simp] theorem State.latchHealth_cals (s : State) (pg c : Nat) : (s.latchHealth pg c).cals = s.cals := rfl
@[simp] theorem State.latchHealth_calInsts (s : State) (pg c : Nat) : (s.latchHealth pg c).calInsts = s.calInsts := rfl
@[simp] theorem State.latchHealth_tb (s : State) (pg c : Nat) : (s.latchHealth pg c).tb = s.tb := rfl
@[simp] theorem State.latchHealth_sills (s : State) (pg c : Nat) : (s.latchHealth pg c).sills = s.sills := rfl
@[simp] theorem State.latchHealth_takeovers (s : State) (pg c : Nat) : (s.latchHealth pg c).takeovers = s.takeovers := rfl
@[simp] theorem State.latchHealth_souts (s : State) (pg c : Nat) : (s.latchHealth pg c).souts = s.souts := rfl
@[simp] theorem State.latchHealth_ptOff (s : State) (pg c : Nat) : (s.latchHealth pg c).ptOff = s.ptOff := rfl
@[simp] theorem State.latchHealth_tree (s : State) (pg c : Nat) : (s.latchHealth pg c).tree = s.tree := rfl
@[simp] theorem State.latchHealth_ports (s : State) (pg c : Nat) : (s.latchHealth pg c).ports = s.ports := rfl
@[simp] theorem State.latchHealth_meters (s : State) (pg c : Nat) : (s.latchHealth pg c).meters = s.meters := rfl
@[simp] theorem State.latchHealth_account (s : State) (pg c : Nat) : (s.latchHealth pg c).account = s.account := rfl
@[simp] theorem State.latchHealth_boot (s : State) (pg c : Nat) : (s.latchHealth pg c).boot = s.boot := rfl
@[simp] theorem State.latchHealth_spdm (s : State) (pg c : Nat) : (s.latchHealth pg c).spdm = s.spdm := rfl
@[simp] theorem State.latchHealth_tunnels (s : State) (pg c : Nat) : (s.latchHealth pg c).tunnels = s.tunnels := rfl
@[simp] theorem State.latchHealth_tempOff (s : State) (pg c : Nat) : (s.latchHealth pg c).tempOff = s.tempOff := rfl
@[simp] theorem State.latchHealth_readyOff (s : State) (pg c : Nat) : (s.latchHealth pg c).readyOff = s.readyOff := rfl
@[simp] theorem State.latchHealth_free (s : State) (pg c : Nat) : (s.latchHealth pg c).free = s.free := rfl

@[simp] theorem State.category_pending (s : State) (c b : Nat) (on : Bool) : (s.category c b on).pending = s.pending := rfl
@[simp] theorem State.category_variant (s : State) (c b : Nat) (on : Bool) : (s.category c b on).variant = s.variant := rfl
@[simp] theorem State.category_clk (s : State) (c b : Nat) (on : Bool) : (s.category c b on).clk = s.clk := rfl
@[simp] theorem State.category_regs (s : State) (c b : Nat) (on : Bool) : (s.category c b on).regs = s.regs := rfl
@[simp] theorem State.category_shadow (s : State) (c b : Nat) (on : Bool) : (s.category c b on).shadow = s.shadow := rfl
@[simp] theorem State.category_dirty (s : State) (c b : Nat) (on : Bool) : (s.category c b on).dirty = s.dirty := rfl
@[simp] theorem State.category_latch (s : State) (c b : Nat) (on : Bool) : (s.category c b on).latch = s.latch := rfl
@[simp] theorem State.category_hold (s : State) (c b : Nat) (on : Bool) : (s.category c b on).hold = s.hold := rfl
@[simp] theorem State.category_commits (s : State) (c b : Nat) (on : Bool) : (s.category c b on).commits = s.commits := rfl
@[simp] theorem State.category_mem (s : State) (c b : Nat) (on : Bool) : (s.category c b on).mem = s.mem := rfl
@[simp] theorem State.category_poison (s : State) (c b : Nat) (on : Bool) : (s.category c b on).poison = s.poison := rfl
@[simp] theorem State.category_queues (s : State) (c b : Nat) (on : Bool) : (s.category c b on).queues = s.queues := rfl
@[simp] theorem State.category_flight (s : State) (c b : Nat) (on : Bool) : (s.category c b on).flight = s.flight := rfl
@[simp] theorem State.category_edges (s : State) (c b : Nat) (on : Bool) : (s.category c b on).edges = s.edges := rfl
@[simp] theorem State.category_seqs (s : State) (c b : Nat) (on : Bool) : (s.category c b on).seqs = s.seqs := rfl
@[simp] theorem State.category_barriers (s : State) (c b : Nat) (on : Bool) : (s.category c b on).barriers = s.barriers := rfl
@[simp] theorem State.category_verdicts (s : State) (c b : Nat) (on : Bool) : (s.category c b on).verdicts = s.verdicts := rfl
@[simp] theorem State.category_serial (s : State) (c b : Nat) (on : Bool) : (s.category c b on).serial = s.serial := rfl
@[simp] theorem State.category_ridge (s : State) (c b : Nat) (on : Bool) : (s.category c b on).ridge = s.ridge := rfl
@[simp] theorem State.category_pkgNum (s : State) (c b : Nat) (on : Bool) : (s.category c b on).pkgNum = s.pkgNum := rfl
@[simp] theorem State.category_ptGen (s : State) (c b : Nat) (on : Bool) : (s.category c b on).ptGen = s.ptGen := rfl
@[simp] theorem State.category_dmas (s : State) (c b : Nat) (on : Bool) : (s.category c b on).dmas = s.dmas := rfl
@[simp] theorem State.category_tones (s : State) (c b : Nat) (on : Bool) : (s.category c b on).tones = s.tones := rfl
@[simp] theorem State.category_touched (s : State) (c b : Nat) (on : Bool) : (s.category c b on).touched = s.touched := rfl
@[simp] theorem State.category_dacHold (s : State) (c b : Nat) (on : Bool) : (s.category c b on).dacHold = s.dacHold := rfl
@[simp] theorem State.category_dacAt (s : State) (c b : Nat) (on : Bool) : (s.category c b on).dacAt = s.dacAt := rfl
@[simp] theorem State.category_streams (s : State) (c b : Nat) (on : Bool) : (s.category c b on).streams = s.streams := rfl
@[simp] theorem State.category_failLog (s : State) (c b : Nat) (on : Bool) : (s.category c b on).failLog = s.failLog := rfl
@[simp] theorem State.category_caps (s : State) (c b : Nat) (on : Bool) : (s.category c b on).caps = s.caps := rfl
@[simp] theorem State.category_vseen (s : State) (c b : Nat) (on : Bool) : (s.category c b on).vseen = s.vseen := rfl
@[simp] theorem State.category_tius (s : State) (c b : Nat) (on : Bool) : (s.category c b on).tius = s.tius := rfl
@[simp] theorem State.category_fres (s : State) (c b : Nat) (on : Bool) : (s.category c b on).fres = s.fres := rfl
@[simp] theorem State.category_stampIns (s : State) (c b : Nat) (on : Bool) : (s.category c b on).stampIns = s.stampIns := rfl
@[simp] theorem State.category_edgeStamp (s : State) (c b : Nat) (on : Bool) : (s.category c b on).edgeStamp = s.edgeStamp := rfl
@[simp] theorem State.category_recGap (s : State) (c b : Nat) (on : Bool) : (s.category c b on).recGap = s.recGap := rfl
@[simp] theorem State.category_signQ (s : State) (c b : Nat) (on : Bool) : (s.category c b on).signQ = s.signQ := rfl
@[simp] theorem State.category_signSeq (s : State) (c b : Nat) (on : Bool) : (s.category c b on).signSeq = s.signSeq := rfl
@[simp] theorem State.category_recHeld (s : State) (c b : Nat) (on : Bool) : (s.category c b on).recHeld = s.recHeld := rfl
@[simp] theorem State.category_drainPt (s : State) (c b : Nat) (on : Bool) : (s.category c b on).drainPt = s.drainPt := rfl
@[simp] theorem State.category_wakes (s : State) (c b : Nat) (on : Bool) : (s.category c b on).wakes = s.wakes := rfl
@[simp] theorem State.category_cals (s : State) (c b : Nat) (on : Bool) : (s.category c b on).cals = s.cals := rfl
@[simp] theorem State.category_calInsts (s : State) (c b : Nat) (on : Bool) : (s.category c b on).calInsts = s.calInsts := rfl
@[simp] theorem State.category_tb (s : State) (c b : Nat) (on : Bool) : (s.category c b on).tb = s.tb := rfl
@[simp] theorem State.category_sills (s : State) (c b : Nat) (on : Bool) : (s.category c b on).sills = s.sills := rfl
@[simp] theorem State.category_takeovers (s : State) (c b : Nat) (on : Bool) : (s.category c b on).takeovers = s.takeovers := rfl
@[simp] theorem State.category_souts (s : State) (c b : Nat) (on : Bool) : (s.category c b on).souts = s.souts := rfl
@[simp] theorem State.category_ptOff (s : State) (c b : Nat) (on : Bool) : (s.category c b on).ptOff = s.ptOff := rfl
@[simp] theorem State.category_tree (s : State) (c b : Nat) (on : Bool) : (s.category c b on).tree = s.tree := rfl
@[simp] theorem State.category_ports (s : State) (c b : Nat) (on : Bool) : (s.category c b on).ports = s.ports := rfl
@[simp] theorem State.category_meters (s : State) (c b : Nat) (on : Bool) : (s.category c b on).meters = s.meters := rfl
@[simp] theorem State.category_account (s : State) (c b : Nat) (on : Bool) : (s.category c b on).account = s.account := rfl
@[simp] theorem State.category_boot (s : State) (c b : Nat) (on : Bool) : (s.category c b on).boot = s.boot := rfl
@[simp] theorem State.category_spdm (s : State) (c b : Nat) (on : Bool) : (s.category c b on).spdm = s.spdm := rfl
@[simp] theorem State.category_tunnels (s : State) (c b : Nat) (on : Bool) : (s.category c b on).tunnels = s.tunnels := rfl
@[simp] theorem State.category_tempOff (s : State) (c b : Nat) (on : Bool) : (s.category c b on).tempOff = s.tempOff := rfl
@[simp] theorem State.category_readyOff (s : State) (c b : Nat) (on : Bool) : (s.category c b on).readyOff = s.readyOff := rfl
@[simp] theorem State.category_free (s : State) (c b : Nat) (on : Bool) : (s.category c b on).free = s.free := rfl

@[simp] theorem State.fire_pending (s : State) (v : Nat) : (s.fire v).pending = s.pending := rfl
@[simp] theorem State.fire_variant (s : State) (v : Nat) : (s.fire v).variant = s.variant := rfl
@[simp] theorem State.fire_clk (s : State) (v : Nat) : (s.fire v).clk = s.clk := rfl
@[simp] theorem State.fire_regs (s : State) (v : Nat) : (s.fire v).regs = s.regs := rfl
@[simp] theorem State.fire_shadow (s : State) (v : Nat) : (s.fire v).shadow = s.shadow := rfl
@[simp] theorem State.fire_dirty (s : State) (v : Nat) : (s.fire v).dirty = s.dirty := rfl
@[simp] theorem State.fire_latch (s : State) (v : Nat) : (s.fire v).latch = s.latch := rfl
@[simp] theorem State.fire_hold (s : State) (v : Nat) : (s.fire v).hold = s.hold := rfl
@[simp] theorem State.fire_commits (s : State) (v : Nat) : (s.fire v).commits = s.commits := rfl
@[simp] theorem State.fire_mem (s : State) (v : Nat) : (s.fire v).mem = s.mem := rfl
@[simp] theorem State.fire_poison (s : State) (v : Nat) : (s.fire v).poison = s.poison := rfl
@[simp] theorem State.fire_queues (s : State) (v : Nat) : (s.fire v).queues = s.queues := rfl
@[simp] theorem State.fire_flight (s : State) (v : Nat) : (s.fire v).flight = s.flight := rfl
@[simp] theorem State.fire_edges (s : State) (v : Nat) : (s.fire v).edges = s.edges := rfl
@[simp] theorem State.fire_seqs (s : State) (v : Nat) : (s.fire v).seqs = s.seqs := rfl
@[simp] theorem State.fire_barriers (s : State) (v : Nat) : (s.fire v).barriers = s.barriers := rfl
@[simp] theorem State.fire_verdicts (s : State) (v : Nat) : (s.fire v).verdicts = s.verdicts := rfl
@[simp] theorem State.fire_serial (s : State) (v : Nat) : (s.fire v).serial = s.serial := rfl
@[simp] theorem State.fire_ridge (s : State) (v : Nat) : (s.fire v).ridge = s.ridge := rfl
@[simp] theorem State.fire_pkgNum (s : State) (v : Nat) : (s.fire v).pkgNum = s.pkgNum := rfl
@[simp] theorem State.fire_ptGen (s : State) (v : Nat) : (s.fire v).ptGen = s.ptGen := rfl
@[simp] theorem State.fire_dmas (s : State) (v : Nat) : (s.fire v).dmas = s.dmas := rfl
@[simp] theorem State.fire_tones (s : State) (v : Nat) : (s.fire v).tones = s.tones := rfl
@[simp] theorem State.fire_touched (s : State) (v : Nat) : (s.fire v).touched = s.touched := rfl
@[simp] theorem State.fire_dacHold (s : State) (v : Nat) : (s.fire v).dacHold = s.dacHold := rfl
@[simp] theorem State.fire_dacAt (s : State) (v : Nat) : (s.fire v).dacAt = s.dacAt := rfl
@[simp] theorem State.fire_streams (s : State) (v : Nat) : (s.fire v).streams = s.streams := rfl
@[simp] theorem State.fire_failLog (s : State) (v : Nat) : (s.fire v).failLog = s.failLog := rfl
@[simp] theorem State.fire_caps (s : State) (v : Nat) : (s.fire v).caps = s.caps := rfl
@[simp] theorem State.fire_vseen (s : State) (v : Nat) : (s.fire v).vseen = s.vseen := rfl
@[simp] theorem State.fire_tius (s : State) (v : Nat) : (s.fire v).tius = s.tius := rfl
@[simp] theorem State.fire_fres (s : State) (v : Nat) : (s.fire v).fres = s.fres := rfl
@[simp] theorem State.fire_stampIns (s : State) (v : Nat) : (s.fire v).stampIns = s.stampIns := rfl
@[simp] theorem State.fire_edgeStamp (s : State) (v : Nat) : (s.fire v).edgeStamp = s.edgeStamp := rfl
@[simp] theorem State.fire_recGap (s : State) (v : Nat) : (s.fire v).recGap = s.recGap := rfl
@[simp] theorem State.fire_signQ (s : State) (v : Nat) : (s.fire v).signQ = s.signQ := rfl
@[simp] theorem State.fire_signSeq (s : State) (v : Nat) : (s.fire v).signSeq = s.signSeq := rfl
@[simp] theorem State.fire_recHeld (s : State) (v : Nat) : (s.fire v).recHeld = s.recHeld := rfl
@[simp] theorem State.fire_drainPt (s : State) (v : Nat) : (s.fire v).drainPt = s.drainPt := rfl
@[simp] theorem State.fire_wakes (s : State) (v : Nat) : (s.fire v).wakes = s.wakes := rfl
@[simp] theorem State.fire_cals (s : State) (v : Nat) : (s.fire v).cals = s.cals := rfl
@[simp] theorem State.fire_calInsts (s : State) (v : Nat) : (s.fire v).calInsts = s.calInsts := rfl
@[simp] theorem State.fire_tb (s : State) (v : Nat) : (s.fire v).tb = s.tb := rfl
@[simp] theorem State.fire_sills (s : State) (v : Nat) : (s.fire v).sills = s.sills := rfl
@[simp] theorem State.fire_takeovers (s : State) (v : Nat) : (s.fire v).takeovers = s.takeovers := rfl
@[simp] theorem State.fire_souts (s : State) (v : Nat) : (s.fire v).souts = s.souts := rfl
@[simp] theorem State.fire_ptOff (s : State) (v : Nat) : (s.fire v).ptOff = s.ptOff := rfl
@[simp] theorem State.fire_tree (s : State) (v : Nat) : (s.fire v).tree = s.tree := rfl
@[simp] theorem State.fire_ports (s : State) (v : Nat) : (s.fire v).ports = s.ports := rfl
@[simp] theorem State.fire_meters (s : State) (v : Nat) : (s.fire v).meters = s.meters := rfl
@[simp] theorem State.fire_account (s : State) (v : Nat) : (s.fire v).account = s.account := rfl
@[simp] theorem State.fire_boot (s : State) (v : Nat) : (s.fire v).boot = s.boot := rfl
@[simp] theorem State.fire_spdm (s : State) (v : Nat) : (s.fire v).spdm = s.spdm := rfl
@[simp] theorem State.fire_tunnels (s : State) (v : Nat) : (s.fire v).tunnels = s.tunnels := rfl
@[simp] theorem State.fire_tempOff (s : State) (v : Nat) : (s.fire v).tempOff = s.tempOff := rfl
@[simp] theorem State.fire_readyOff (s : State) (v : Nat) : (s.fire v).readyOff = s.readyOff := rfl
@[simp] theorem State.fire_free (s : State) (v : Nat) : (s.fire v).free = s.free := rfl

/-- A record written or lost changes only `ev`. -/
theorem State.record_ev (s : State) (pt w1 d g : Nat) : ∃ e, s.record pt w1 d g = { s with ev := e } := by
  unfold State.record
  dsimp only
  repeat' split
  · exact ⟨s.ev, rfl⟩
  all_goals exact ⟨_, rfl⟩

/-- A raised event changes only `ev`. -/
theorem State.raiseAt_ev (s : State) (pg i pt d : Nat) (f : Bool) : ∃ e, s.raiseAt pg i pt d f = { s with ev := e } := by
  unfold State.raiseAt
  dsimp only
  split
  · obtain ⟨e, h⟩ := State.record_ev { s with ev := { s.ev with
      raw := setPut s.ev.raw (pg * 64 + i) true, up := s.ev.up + b2n (s.evEn pg i && s.sendsUp 3) } } pt
      (sourceId pg i * 2 ^ 16 + s.pkgNum * 2 ^ 32 + b2n f * 2 ^ 40 + s.health pg * 2 ^ 48) d s.genNow
    split
    · exact ⟨e, h⟩
    · exact ⟨_, by rw [h]; rfl⟩
  · exact ⟨_, rfl⟩

/-- A standing code set or cleared changes only `ev`. -/
theorem State.standing_ev (s : State) (pg c : Nat) (on : Bool) : ∃ e, s.standing pg c on = { s with ev := e } := by
  unfold State.standing
  dsimp only
  split
  · obtain ⟨e, h⟩ := State.raiseAt_ev { s with ev := { s.ev with standing := setPut s.ev.standing (pg * 256 + c) on } }
      (bp (bentOf pg) 0) 5 s.now 0 false
    exact ⟨e, h⟩
  · exact ⟨_, rfl⟩

/-- FAULT_N following its categories changes only `ev`. -/
theorem State.settle_ev (s : State) : ∃ e, s.settle = { s with ev := e } := by
  unfold State.settle
  split
  · exact ⟨s.ev, rfl⟩
  · exact ⟨_, rfl⟩

@[simp] theorem State.record_pending (s : State) (pt w d g : Nat) : (s.record pt w d g).pending = s.pending := by
  obtain ⟨_, h⟩ := s.record_ev pt w d g; rw [h]
@[simp] theorem State.record_variant (s : State) (pt w d g : Nat) : (s.record pt w d g).variant = s.variant := by
  obtain ⟨_, h⟩ := s.record_ev pt w d g; rw [h]
@[simp] theorem State.record_clk (s : State) (pt w d g : Nat) : (s.record pt w d g).clk = s.clk := by
  obtain ⟨_, h⟩ := s.record_ev pt w d g; rw [h]
@[simp] theorem State.record_regs (s : State) (pt w d g : Nat) : (s.record pt w d g).regs = s.regs := by
  obtain ⟨_, h⟩ := s.record_ev pt w d g; rw [h]
@[simp] theorem State.record_shadow (s : State) (pt w d g : Nat) : (s.record pt w d g).shadow = s.shadow := by
  obtain ⟨_, h⟩ := s.record_ev pt w d g; rw [h]
@[simp] theorem State.record_dirty (s : State) (pt w d g : Nat) : (s.record pt w d g).dirty = s.dirty := by
  obtain ⟨_, h⟩ := s.record_ev pt w d g; rw [h]
@[simp] theorem State.record_latch (s : State) (pt w d g : Nat) : (s.record pt w d g).latch = s.latch := by
  obtain ⟨_, h⟩ := s.record_ev pt w d g; rw [h]
@[simp] theorem State.record_hold (s : State) (pt w d g : Nat) : (s.record pt w d g).hold = s.hold := by
  obtain ⟨_, h⟩ := s.record_ev pt w d g; rw [h]
@[simp] theorem State.record_commits (s : State) (pt w d g : Nat) : (s.record pt w d g).commits = s.commits := by
  obtain ⟨_, h⟩ := s.record_ev pt w d g; rw [h]
@[simp] theorem State.record_mem (s : State) (pt w d g : Nat) : (s.record pt w d g).mem = s.mem := by
  obtain ⟨_, h⟩ := s.record_ev pt w d g; rw [h]
@[simp] theorem State.record_poison (s : State) (pt w d g : Nat) : (s.record pt w d g).poison = s.poison := by
  obtain ⟨_, h⟩ := s.record_ev pt w d g; rw [h]
@[simp] theorem State.record_queues (s : State) (pt w d g : Nat) : (s.record pt w d g).queues = s.queues := by
  obtain ⟨_, h⟩ := s.record_ev pt w d g; rw [h]
@[simp] theorem State.record_flight (s : State) (pt w d g : Nat) : (s.record pt w d g).flight = s.flight := by
  obtain ⟨_, h⟩ := s.record_ev pt w d g; rw [h]
@[simp] theorem State.record_edges (s : State) (pt w d g : Nat) : (s.record pt w d g).edges = s.edges := by
  obtain ⟨_, h⟩ := s.record_ev pt w d g; rw [h]
@[simp] theorem State.record_seqs (s : State) (pt w d g : Nat) : (s.record pt w d g).seqs = s.seqs := by
  obtain ⟨_, h⟩ := s.record_ev pt w d g; rw [h]
@[simp] theorem State.record_barriers (s : State) (pt w d g : Nat) : (s.record pt w d g).barriers = s.barriers := by
  obtain ⟨_, h⟩ := s.record_ev pt w d g; rw [h]
@[simp] theorem State.record_verdicts (s : State) (pt w d g : Nat) : (s.record pt w d g).verdicts = s.verdicts := by
  obtain ⟨_, h⟩ := s.record_ev pt w d g; rw [h]
@[simp] theorem State.record_serial (s : State) (pt w d g : Nat) : (s.record pt w d g).serial = s.serial := by
  obtain ⟨_, h⟩ := s.record_ev pt w d g; rw [h]
@[simp] theorem State.record_ridge (s : State) (pt w d g : Nat) : (s.record pt w d g).ridge = s.ridge := by
  obtain ⟨_, h⟩ := s.record_ev pt w d g; rw [h]
@[simp] theorem State.record_pkgNum (s : State) (pt w d g : Nat) : (s.record pt w d g).pkgNum = s.pkgNum := by
  obtain ⟨_, h⟩ := s.record_ev pt w d g; rw [h]
@[simp] theorem State.record_ptGen (s : State) (pt w d g : Nat) : (s.record pt w d g).ptGen = s.ptGen := by
  obtain ⟨_, h⟩ := s.record_ev pt w d g; rw [h]
@[simp] theorem State.record_dmas (s : State) (pt w d g : Nat) : (s.record pt w d g).dmas = s.dmas := by
  obtain ⟨_, h⟩ := s.record_ev pt w d g; rw [h]
@[simp] theorem State.record_tones (s : State) (pt w d g : Nat) : (s.record pt w d g).tones = s.tones := by
  obtain ⟨_, h⟩ := s.record_ev pt w d g; rw [h]
@[simp] theorem State.record_touched (s : State) (pt w d g : Nat) : (s.record pt w d g).touched = s.touched := by
  obtain ⟨_, h⟩ := s.record_ev pt w d g; rw [h]
@[simp] theorem State.record_dacHold (s : State) (pt w d g : Nat) : (s.record pt w d g).dacHold = s.dacHold := by
  obtain ⟨_, h⟩ := s.record_ev pt w d g; rw [h]
@[simp] theorem State.record_dacAt (s : State) (pt w d g : Nat) : (s.record pt w d g).dacAt = s.dacAt := by
  obtain ⟨_, h⟩ := s.record_ev pt w d g; rw [h]
@[simp] theorem State.record_streams (s : State) (pt w d g : Nat) : (s.record pt w d g).streams = s.streams := by
  obtain ⟨_, h⟩ := s.record_ev pt w d g; rw [h]
@[simp] theorem State.record_failLog (s : State) (pt w d g : Nat) : (s.record pt w d g).failLog = s.failLog := by
  obtain ⟨_, h⟩ := s.record_ev pt w d g; rw [h]
@[simp] theorem State.record_caps (s : State) (pt w d g : Nat) : (s.record pt w d g).caps = s.caps := by
  obtain ⟨_, h⟩ := s.record_ev pt w d g; rw [h]
@[simp] theorem State.record_vseen (s : State) (pt w d g : Nat) : (s.record pt w d g).vseen = s.vseen := by
  obtain ⟨_, h⟩ := s.record_ev pt w d g; rw [h]
@[simp] theorem State.record_tius (s : State) (pt w d g : Nat) : (s.record pt w d g).tius = s.tius := by
  obtain ⟨_, h⟩ := s.record_ev pt w d g; rw [h]
@[simp] theorem State.record_fres (s : State) (pt w d g : Nat) : (s.record pt w d g).fres = s.fres := by
  obtain ⟨_, h⟩ := s.record_ev pt w d g; rw [h]
@[simp] theorem State.record_stampIns (s : State) (pt w d g : Nat) : (s.record pt w d g).stampIns = s.stampIns := by
  obtain ⟨_, h⟩ := s.record_ev pt w d g; rw [h]
@[simp] theorem State.record_edgeStamp (s : State) (pt w d g : Nat) : (s.record pt w d g).edgeStamp = s.edgeStamp := by
  obtain ⟨_, h⟩ := s.record_ev pt w d g; rw [h]
@[simp] theorem State.record_recGap (s : State) (pt w d g : Nat) : (s.record pt w d g).recGap = s.recGap := by
  obtain ⟨_, h⟩ := s.record_ev pt w d g; rw [h]
@[simp] theorem State.record_signQ (s : State) (pt w d g : Nat) : (s.record pt w d g).signQ = s.signQ := by
  obtain ⟨_, h⟩ := s.record_ev pt w d g; rw [h]
@[simp] theorem State.record_signSeq (s : State) (pt w d g : Nat) : (s.record pt w d g).signSeq = s.signSeq := by
  obtain ⟨_, h⟩ := s.record_ev pt w d g; rw [h]
@[simp] theorem State.record_recHeld (s : State) (pt w d g : Nat) : (s.record pt w d g).recHeld = s.recHeld := by
  obtain ⟨_, h⟩ := s.record_ev pt w d g; rw [h]
@[simp] theorem State.record_drainPt (s : State) (pt w d g : Nat) : (s.record pt w d g).drainPt = s.drainPt := by
  obtain ⟨_, h⟩ := s.record_ev pt w d g; rw [h]
@[simp] theorem State.record_wakes (s : State) (pt w d g : Nat) : (s.record pt w d g).wakes = s.wakes := by
  obtain ⟨_, h⟩ := s.record_ev pt w d g; rw [h]
@[simp] theorem State.record_cals (s : State) (pt w d g : Nat) : (s.record pt w d g).cals = s.cals := by
  obtain ⟨_, h⟩ := s.record_ev pt w d g; rw [h]
@[simp] theorem State.record_calInsts (s : State) (pt w d g : Nat) : (s.record pt w d g).calInsts = s.calInsts := by
  obtain ⟨_, h⟩ := s.record_ev pt w d g; rw [h]
@[simp] theorem State.record_tb (s : State) (pt w d g : Nat) : (s.record pt w d g).tb = s.tb := by
  obtain ⟨_, h⟩ := s.record_ev pt w d g; rw [h]
@[simp] theorem State.record_sills (s : State) (pt w d g : Nat) : (s.record pt w d g).sills = s.sills := by
  obtain ⟨_, h⟩ := s.record_ev pt w d g; rw [h]
@[simp] theorem State.record_takeovers (s : State) (pt w d g : Nat) : (s.record pt w d g).takeovers = s.takeovers := by
  obtain ⟨_, h⟩ := s.record_ev pt w d g; rw [h]
@[simp] theorem State.record_souts (s : State) (pt w d g : Nat) : (s.record pt w d g).souts = s.souts := by
  obtain ⟨_, h⟩ := s.record_ev pt w d g; rw [h]
@[simp] theorem State.record_ptOff (s : State) (pt w d g : Nat) : (s.record pt w d g).ptOff = s.ptOff := by
  obtain ⟨_, h⟩ := s.record_ev pt w d g; rw [h]
@[simp] theorem State.record_tree (s : State) (pt w d g : Nat) : (s.record pt w d g).tree = s.tree := by
  obtain ⟨_, h⟩ := s.record_ev pt w d g; rw [h]
@[simp] theorem State.record_ports (s : State) (pt w d g : Nat) : (s.record pt w d g).ports = s.ports := by
  obtain ⟨_, h⟩ := s.record_ev pt w d g; rw [h]
@[simp] theorem State.record_meters (s : State) (pt w d g : Nat) : (s.record pt w d g).meters = s.meters := by
  obtain ⟨_, h⟩ := s.record_ev pt w d g; rw [h]
@[simp] theorem State.record_account (s : State) (pt w d g : Nat) : (s.record pt w d g).account = s.account := by
  obtain ⟨_, h⟩ := s.record_ev pt w d g; rw [h]
@[simp] theorem State.record_boot (s : State) (pt w d g : Nat) : (s.record pt w d g).boot = s.boot := by
  obtain ⟨_, h⟩ := s.record_ev pt w d g; rw [h]
@[simp] theorem State.record_spdm (s : State) (pt w d g : Nat) : (s.record pt w d g).spdm = s.spdm := by
  obtain ⟨_, h⟩ := s.record_ev pt w d g; rw [h]
@[simp] theorem State.record_tunnels (s : State) (pt w d g : Nat) : (s.record pt w d g).tunnels = s.tunnels := by
  obtain ⟨_, h⟩ := s.record_ev pt w d g; rw [h]
@[simp] theorem State.record_tempOff (s : State) (pt w d g : Nat) : (s.record pt w d g).tempOff = s.tempOff := by
  obtain ⟨_, h⟩ := s.record_ev pt w d g; rw [h]
@[simp] theorem State.record_readyOff (s : State) (pt w d g : Nat) : (s.record pt w d g).readyOff = s.readyOff := by
  obtain ⟨_, h⟩ := s.record_ev pt w d g; rw [h]
@[simp] theorem State.record_free (s : State) (pt w d g : Nat) : (s.record pt w d g).free = s.free := by
  obtain ⟨_, h⟩ := s.record_ev pt w d g; rw [h]

@[simp] theorem State.raiseAt_pending (s : State) (pg i pt d : Nat) (f : Bool) : (s.raiseAt pg i pt d f).pending = s.pending := by
  obtain ⟨_, h⟩ := s.raiseAt_ev pg i pt d f; rw [h]
@[simp] theorem State.raiseAt_variant (s : State) (pg i pt d : Nat) (f : Bool) : (s.raiseAt pg i pt d f).variant = s.variant := by
  obtain ⟨_, h⟩ := s.raiseAt_ev pg i pt d f; rw [h]
@[simp] theorem State.raiseAt_clk (s : State) (pg i pt d : Nat) (f : Bool) : (s.raiseAt pg i pt d f).clk = s.clk := by
  obtain ⟨_, h⟩ := s.raiseAt_ev pg i pt d f; rw [h]
@[simp] theorem State.raiseAt_regs (s : State) (pg i pt d : Nat) (f : Bool) : (s.raiseAt pg i pt d f).regs = s.regs := by
  obtain ⟨_, h⟩ := s.raiseAt_ev pg i pt d f; rw [h]
@[simp] theorem State.raiseAt_shadow (s : State) (pg i pt d : Nat) (f : Bool) : (s.raiseAt pg i pt d f).shadow = s.shadow := by
  obtain ⟨_, h⟩ := s.raiseAt_ev pg i pt d f; rw [h]
@[simp] theorem State.raiseAt_dirty (s : State) (pg i pt d : Nat) (f : Bool) : (s.raiseAt pg i pt d f).dirty = s.dirty := by
  obtain ⟨_, h⟩ := s.raiseAt_ev pg i pt d f; rw [h]
@[simp] theorem State.raiseAt_latch (s : State) (pg i pt d : Nat) (f : Bool) : (s.raiseAt pg i pt d f).latch = s.latch := by
  obtain ⟨_, h⟩ := s.raiseAt_ev pg i pt d f; rw [h]
@[simp] theorem State.raiseAt_hold (s : State) (pg i pt d : Nat) (f : Bool) : (s.raiseAt pg i pt d f).hold = s.hold := by
  obtain ⟨_, h⟩ := s.raiseAt_ev pg i pt d f; rw [h]
@[simp] theorem State.raiseAt_commits (s : State) (pg i pt d : Nat) (f : Bool) : (s.raiseAt pg i pt d f).commits = s.commits := by
  obtain ⟨_, h⟩ := s.raiseAt_ev pg i pt d f; rw [h]
@[simp] theorem State.raiseAt_mem (s : State) (pg i pt d : Nat) (f : Bool) : (s.raiseAt pg i pt d f).mem = s.mem := by
  obtain ⟨_, h⟩ := s.raiseAt_ev pg i pt d f; rw [h]
@[simp] theorem State.raiseAt_poison (s : State) (pg i pt d : Nat) (f : Bool) : (s.raiseAt pg i pt d f).poison = s.poison := by
  obtain ⟨_, h⟩ := s.raiseAt_ev pg i pt d f; rw [h]
@[simp] theorem State.raiseAt_queues (s : State) (pg i pt d : Nat) (f : Bool) : (s.raiseAt pg i pt d f).queues = s.queues := by
  obtain ⟨_, h⟩ := s.raiseAt_ev pg i pt d f; rw [h]
@[simp] theorem State.raiseAt_flight (s : State) (pg i pt d : Nat) (f : Bool) : (s.raiseAt pg i pt d f).flight = s.flight := by
  obtain ⟨_, h⟩ := s.raiseAt_ev pg i pt d f; rw [h]
@[simp] theorem State.raiseAt_edges (s : State) (pg i pt d : Nat) (f : Bool) : (s.raiseAt pg i pt d f).edges = s.edges := by
  obtain ⟨_, h⟩ := s.raiseAt_ev pg i pt d f; rw [h]
@[simp] theorem State.raiseAt_seqs (s : State) (pg i pt d : Nat) (f : Bool) : (s.raiseAt pg i pt d f).seqs = s.seqs := by
  obtain ⟨_, h⟩ := s.raiseAt_ev pg i pt d f; rw [h]
@[simp] theorem State.raiseAt_barriers (s : State) (pg i pt d : Nat) (f : Bool) : (s.raiseAt pg i pt d f).barriers = s.barriers := by
  obtain ⟨_, h⟩ := s.raiseAt_ev pg i pt d f; rw [h]
@[simp] theorem State.raiseAt_verdicts (s : State) (pg i pt d : Nat) (f : Bool) : (s.raiseAt pg i pt d f).verdicts = s.verdicts := by
  obtain ⟨_, h⟩ := s.raiseAt_ev pg i pt d f; rw [h]
@[simp] theorem State.raiseAt_serial (s : State) (pg i pt d : Nat) (f : Bool) : (s.raiseAt pg i pt d f).serial = s.serial := by
  obtain ⟨_, h⟩ := s.raiseAt_ev pg i pt d f; rw [h]
@[simp] theorem State.raiseAt_ridge (s : State) (pg i pt d : Nat) (f : Bool) : (s.raiseAt pg i pt d f).ridge = s.ridge := by
  obtain ⟨_, h⟩ := s.raiseAt_ev pg i pt d f; rw [h]
@[simp] theorem State.raiseAt_pkgNum (s : State) (pg i pt d : Nat) (f : Bool) : (s.raiseAt pg i pt d f).pkgNum = s.pkgNum := by
  obtain ⟨_, h⟩ := s.raiseAt_ev pg i pt d f; rw [h]
@[simp] theorem State.raiseAt_ptGen (s : State) (pg i pt d : Nat) (f : Bool) : (s.raiseAt pg i pt d f).ptGen = s.ptGen := by
  obtain ⟨_, h⟩ := s.raiseAt_ev pg i pt d f; rw [h]
@[simp] theorem State.raiseAt_dmas (s : State) (pg i pt d : Nat) (f : Bool) : (s.raiseAt pg i pt d f).dmas = s.dmas := by
  obtain ⟨_, h⟩ := s.raiseAt_ev pg i pt d f; rw [h]
@[simp] theorem State.raiseAt_tones (s : State) (pg i pt d : Nat) (f : Bool) : (s.raiseAt pg i pt d f).tones = s.tones := by
  obtain ⟨_, h⟩ := s.raiseAt_ev pg i pt d f; rw [h]
@[simp] theorem State.raiseAt_touched (s : State) (pg i pt d : Nat) (f : Bool) : (s.raiseAt pg i pt d f).touched = s.touched := by
  obtain ⟨_, h⟩ := s.raiseAt_ev pg i pt d f; rw [h]
@[simp] theorem State.raiseAt_dacHold (s : State) (pg i pt d : Nat) (f : Bool) : (s.raiseAt pg i pt d f).dacHold = s.dacHold := by
  obtain ⟨_, h⟩ := s.raiseAt_ev pg i pt d f; rw [h]
@[simp] theorem State.raiseAt_dacAt (s : State) (pg i pt d : Nat) (f : Bool) : (s.raiseAt pg i pt d f).dacAt = s.dacAt := by
  obtain ⟨_, h⟩ := s.raiseAt_ev pg i pt d f; rw [h]
@[simp] theorem State.raiseAt_streams (s : State) (pg i pt d : Nat) (f : Bool) : (s.raiseAt pg i pt d f).streams = s.streams := by
  obtain ⟨_, h⟩ := s.raiseAt_ev pg i pt d f; rw [h]
@[simp] theorem State.raiseAt_failLog (s : State) (pg i pt d : Nat) (f : Bool) : (s.raiseAt pg i pt d f).failLog = s.failLog := by
  obtain ⟨_, h⟩ := s.raiseAt_ev pg i pt d f; rw [h]
@[simp] theorem State.raiseAt_caps (s : State) (pg i pt d : Nat) (f : Bool) : (s.raiseAt pg i pt d f).caps = s.caps := by
  obtain ⟨_, h⟩ := s.raiseAt_ev pg i pt d f; rw [h]
@[simp] theorem State.raiseAt_vseen (s : State) (pg i pt d : Nat) (f : Bool) : (s.raiseAt pg i pt d f).vseen = s.vseen := by
  obtain ⟨_, h⟩ := s.raiseAt_ev pg i pt d f; rw [h]
@[simp] theorem State.raiseAt_tius (s : State) (pg i pt d : Nat) (f : Bool) : (s.raiseAt pg i pt d f).tius = s.tius := by
  obtain ⟨_, h⟩ := s.raiseAt_ev pg i pt d f; rw [h]
@[simp] theorem State.raiseAt_fres (s : State) (pg i pt d : Nat) (f : Bool) : (s.raiseAt pg i pt d f).fres = s.fres := by
  obtain ⟨_, h⟩ := s.raiseAt_ev pg i pt d f; rw [h]
@[simp] theorem State.raiseAt_stampIns (s : State) (pg i pt d : Nat) (f : Bool) : (s.raiseAt pg i pt d f).stampIns = s.stampIns := by
  obtain ⟨_, h⟩ := s.raiseAt_ev pg i pt d f; rw [h]
@[simp] theorem State.raiseAt_edgeStamp (s : State) (pg i pt d : Nat) (f : Bool) : (s.raiseAt pg i pt d f).edgeStamp = s.edgeStamp := by
  obtain ⟨_, h⟩ := s.raiseAt_ev pg i pt d f; rw [h]
@[simp] theorem State.raiseAt_recGap (s : State) (pg i pt d : Nat) (f : Bool) : (s.raiseAt pg i pt d f).recGap = s.recGap := by
  obtain ⟨_, h⟩ := s.raiseAt_ev pg i pt d f; rw [h]
@[simp] theorem State.raiseAt_signQ (s : State) (pg i pt d : Nat) (f : Bool) : (s.raiseAt pg i pt d f).signQ = s.signQ := by
  obtain ⟨_, h⟩ := s.raiseAt_ev pg i pt d f; rw [h]
@[simp] theorem State.raiseAt_signSeq (s : State) (pg i pt d : Nat) (f : Bool) : (s.raiseAt pg i pt d f).signSeq = s.signSeq := by
  obtain ⟨_, h⟩ := s.raiseAt_ev pg i pt d f; rw [h]
@[simp] theorem State.raiseAt_recHeld (s : State) (pg i pt d : Nat) (f : Bool) : (s.raiseAt pg i pt d f).recHeld = s.recHeld := by
  obtain ⟨_, h⟩ := s.raiseAt_ev pg i pt d f; rw [h]
@[simp] theorem State.raiseAt_drainPt (s : State) (pg i pt d : Nat) (f : Bool) : (s.raiseAt pg i pt d f).drainPt = s.drainPt := by
  obtain ⟨_, h⟩ := s.raiseAt_ev pg i pt d f; rw [h]
@[simp] theorem State.raiseAt_wakes (s : State) (pg i pt d : Nat) (f : Bool) : (s.raiseAt pg i pt d f).wakes = s.wakes := by
  obtain ⟨_, h⟩ := s.raiseAt_ev pg i pt d f; rw [h]
@[simp] theorem State.raiseAt_cals (s : State) (pg i pt d : Nat) (f : Bool) : (s.raiseAt pg i pt d f).cals = s.cals := by
  obtain ⟨_, h⟩ := s.raiseAt_ev pg i pt d f; rw [h]
@[simp] theorem State.raiseAt_calInsts (s : State) (pg i pt d : Nat) (f : Bool) : (s.raiseAt pg i pt d f).calInsts = s.calInsts := by
  obtain ⟨_, h⟩ := s.raiseAt_ev pg i pt d f; rw [h]
@[simp] theorem State.raiseAt_tb (s : State) (pg i pt d : Nat) (f : Bool) : (s.raiseAt pg i pt d f).tb = s.tb := by
  obtain ⟨_, h⟩ := s.raiseAt_ev pg i pt d f; rw [h]
@[simp] theorem State.raiseAt_sills (s : State) (pg i pt d : Nat) (f : Bool) : (s.raiseAt pg i pt d f).sills = s.sills := by
  obtain ⟨_, h⟩ := s.raiseAt_ev pg i pt d f; rw [h]
@[simp] theorem State.raiseAt_takeovers (s : State) (pg i pt d : Nat) (f : Bool) : (s.raiseAt pg i pt d f).takeovers = s.takeovers := by
  obtain ⟨_, h⟩ := s.raiseAt_ev pg i pt d f; rw [h]
@[simp] theorem State.raiseAt_souts (s : State) (pg i pt d : Nat) (f : Bool) : (s.raiseAt pg i pt d f).souts = s.souts := by
  obtain ⟨_, h⟩ := s.raiseAt_ev pg i pt d f; rw [h]
@[simp] theorem State.raiseAt_ptOff (s : State) (pg i pt d : Nat) (f : Bool) : (s.raiseAt pg i pt d f).ptOff = s.ptOff := by
  obtain ⟨_, h⟩ := s.raiseAt_ev pg i pt d f; rw [h]
@[simp] theorem State.raiseAt_tree (s : State) (pg i pt d : Nat) (f : Bool) : (s.raiseAt pg i pt d f).tree = s.tree := by
  obtain ⟨_, h⟩ := s.raiseAt_ev pg i pt d f; rw [h]
@[simp] theorem State.raiseAt_ports (s : State) (pg i pt d : Nat) (f : Bool) : (s.raiseAt pg i pt d f).ports = s.ports := by
  obtain ⟨_, h⟩ := s.raiseAt_ev pg i pt d f; rw [h]
@[simp] theorem State.raiseAt_meters (s : State) (pg i pt d : Nat) (f : Bool) : (s.raiseAt pg i pt d f).meters = s.meters := by
  obtain ⟨_, h⟩ := s.raiseAt_ev pg i pt d f; rw [h]
@[simp] theorem State.raiseAt_account (s : State) (pg i pt d : Nat) (f : Bool) : (s.raiseAt pg i pt d f).account = s.account := by
  obtain ⟨_, h⟩ := s.raiseAt_ev pg i pt d f; rw [h]
@[simp] theorem State.raiseAt_boot (s : State) (pg i pt d : Nat) (f : Bool) : (s.raiseAt pg i pt d f).boot = s.boot := by
  obtain ⟨_, h⟩ := s.raiseAt_ev pg i pt d f; rw [h]
@[simp] theorem State.raiseAt_spdm (s : State) (pg i pt d : Nat) (f : Bool) : (s.raiseAt pg i pt d f).spdm = s.spdm := by
  obtain ⟨_, h⟩ := s.raiseAt_ev pg i pt d f; rw [h]
@[simp] theorem State.raiseAt_tunnels (s : State) (pg i pt d : Nat) (f : Bool) : (s.raiseAt pg i pt d f).tunnels = s.tunnels := by
  obtain ⟨_, h⟩ := s.raiseAt_ev pg i pt d f; rw [h]
@[simp] theorem State.raiseAt_tempOff (s : State) (pg i pt d : Nat) (f : Bool) : (s.raiseAt pg i pt d f).tempOff = s.tempOff := by
  obtain ⟨_, h⟩ := s.raiseAt_ev pg i pt d f; rw [h]
@[simp] theorem State.raiseAt_readyOff (s : State) (pg i pt d : Nat) (f : Bool) : (s.raiseAt pg i pt d f).readyOff = s.readyOff := by
  obtain ⟨_, h⟩ := s.raiseAt_ev pg i pt d f; rw [h]
@[simp] theorem State.raiseAt_free (s : State) (pg i pt d : Nat) (f : Bool) : (s.raiseAt pg i pt d f).free = s.free := by
  obtain ⟨_, h⟩ := s.raiseAt_ev pg i pt d f; rw [h]

@[simp] theorem State.raise_pending (s : State) (pg i : Nat) : (s.raise pg i).pending = s.pending := by
  simp [State.raise]
@[simp] theorem State.raise_variant (s : State) (pg i : Nat) : (s.raise pg i).variant = s.variant := by
  simp [State.raise]
@[simp] theorem State.raise_clk (s : State) (pg i : Nat) : (s.raise pg i).clk = s.clk := by
  simp [State.raise]
@[simp] theorem State.raise_regs (s : State) (pg i : Nat) : (s.raise pg i).regs = s.regs := by
  simp [State.raise]
@[simp] theorem State.raise_shadow (s : State) (pg i : Nat) : (s.raise pg i).shadow = s.shadow := by
  simp [State.raise]
@[simp] theorem State.raise_dirty (s : State) (pg i : Nat) : (s.raise pg i).dirty = s.dirty := by
  simp [State.raise]
@[simp] theorem State.raise_latch (s : State) (pg i : Nat) : (s.raise pg i).latch = s.latch := by
  simp [State.raise]
@[simp] theorem State.raise_hold (s : State) (pg i : Nat) : (s.raise pg i).hold = s.hold := by
  simp [State.raise]
@[simp] theorem State.raise_commits (s : State) (pg i : Nat) : (s.raise pg i).commits = s.commits := by
  simp [State.raise]
@[simp] theorem State.raise_mem (s : State) (pg i : Nat) : (s.raise pg i).mem = s.mem := by
  simp [State.raise]
@[simp] theorem State.raise_poison (s : State) (pg i : Nat) : (s.raise pg i).poison = s.poison := by
  simp [State.raise]
@[simp] theorem State.raise_queues (s : State) (pg i : Nat) : (s.raise pg i).queues = s.queues := by
  simp [State.raise]
@[simp] theorem State.raise_flight (s : State) (pg i : Nat) : (s.raise pg i).flight = s.flight := by
  simp [State.raise]
@[simp] theorem State.raise_edges (s : State) (pg i : Nat) : (s.raise pg i).edges = s.edges := by
  simp [State.raise]
@[simp] theorem State.raise_seqs (s : State) (pg i : Nat) : (s.raise pg i).seqs = s.seqs := by
  simp [State.raise]
@[simp] theorem State.raise_barriers (s : State) (pg i : Nat) : (s.raise pg i).barriers = s.barriers := by
  simp [State.raise]
@[simp] theorem State.raise_verdicts (s : State) (pg i : Nat) : (s.raise pg i).verdicts = s.verdicts := by
  simp [State.raise]
@[simp] theorem State.raise_serial (s : State) (pg i : Nat) : (s.raise pg i).serial = s.serial := by
  simp [State.raise]
@[simp] theorem State.raise_ridge (s : State) (pg i : Nat) : (s.raise pg i).ridge = s.ridge := by
  simp [State.raise]
@[simp] theorem State.raise_pkgNum (s : State) (pg i : Nat) : (s.raise pg i).pkgNum = s.pkgNum := by
  simp [State.raise]
@[simp] theorem State.raise_ptGen (s : State) (pg i : Nat) : (s.raise pg i).ptGen = s.ptGen := by
  simp [State.raise]
@[simp] theorem State.raise_dmas (s : State) (pg i : Nat) : (s.raise pg i).dmas = s.dmas := by
  simp [State.raise]
@[simp] theorem State.raise_tones (s : State) (pg i : Nat) : (s.raise pg i).tones = s.tones := by
  simp [State.raise]
@[simp] theorem State.raise_touched (s : State) (pg i : Nat) : (s.raise pg i).touched = s.touched := by
  simp [State.raise]
@[simp] theorem State.raise_dacHold (s : State) (pg i : Nat) : (s.raise pg i).dacHold = s.dacHold := by
  simp [State.raise]
@[simp] theorem State.raise_dacAt (s : State) (pg i : Nat) : (s.raise pg i).dacAt = s.dacAt := by
  simp [State.raise]
@[simp] theorem State.raise_streams (s : State) (pg i : Nat) : (s.raise pg i).streams = s.streams := by
  simp [State.raise]
@[simp] theorem State.raise_failLog (s : State) (pg i : Nat) : (s.raise pg i).failLog = s.failLog := by
  simp [State.raise]
@[simp] theorem State.raise_caps (s : State) (pg i : Nat) : (s.raise pg i).caps = s.caps := by
  simp [State.raise]
@[simp] theorem State.raise_vseen (s : State) (pg i : Nat) : (s.raise pg i).vseen = s.vseen := by
  simp [State.raise]
@[simp] theorem State.raise_tius (s : State) (pg i : Nat) : (s.raise pg i).tius = s.tius := by
  simp [State.raise]
@[simp] theorem State.raise_fres (s : State) (pg i : Nat) : (s.raise pg i).fres = s.fres := by
  simp [State.raise]
@[simp] theorem State.raise_stampIns (s : State) (pg i : Nat) : (s.raise pg i).stampIns = s.stampIns := by
  simp [State.raise]
@[simp] theorem State.raise_edgeStamp (s : State) (pg i : Nat) : (s.raise pg i).edgeStamp = s.edgeStamp := by
  simp [State.raise]
@[simp] theorem State.raise_recGap (s : State) (pg i : Nat) : (s.raise pg i).recGap = s.recGap := by
  simp [State.raise]
@[simp] theorem State.raise_signQ (s : State) (pg i : Nat) : (s.raise pg i).signQ = s.signQ := by
  simp [State.raise]
@[simp] theorem State.raise_signSeq (s : State) (pg i : Nat) : (s.raise pg i).signSeq = s.signSeq := by
  simp [State.raise]
@[simp] theorem State.raise_recHeld (s : State) (pg i : Nat) : (s.raise pg i).recHeld = s.recHeld := by
  simp [State.raise]
@[simp] theorem State.raise_drainPt (s : State) (pg i : Nat) : (s.raise pg i).drainPt = s.drainPt := by
  simp [State.raise]
@[simp] theorem State.raise_wakes (s : State) (pg i : Nat) : (s.raise pg i).wakes = s.wakes := by
  simp [State.raise]
@[simp] theorem State.raise_cals (s : State) (pg i : Nat) : (s.raise pg i).cals = s.cals := by
  simp [State.raise]
@[simp] theorem State.raise_calInsts (s : State) (pg i : Nat) : (s.raise pg i).calInsts = s.calInsts := by
  simp [State.raise]
@[simp] theorem State.raise_tb (s : State) (pg i : Nat) : (s.raise pg i).tb = s.tb := by
  simp [State.raise]
@[simp] theorem State.raise_sills (s : State) (pg i : Nat) : (s.raise pg i).sills = s.sills := by
  simp [State.raise]
@[simp] theorem State.raise_takeovers (s : State) (pg i : Nat) : (s.raise pg i).takeovers = s.takeovers := by
  simp [State.raise]
@[simp] theorem State.raise_souts (s : State) (pg i : Nat) : (s.raise pg i).souts = s.souts := by
  simp [State.raise]
@[simp] theorem State.raise_ptOff (s : State) (pg i : Nat) : (s.raise pg i).ptOff = s.ptOff := by
  simp [State.raise]
@[simp] theorem State.raise_tree (s : State) (pg i : Nat) : (s.raise pg i).tree = s.tree := by
  simp [State.raise]
@[simp] theorem State.raise_ports (s : State) (pg i : Nat) : (s.raise pg i).ports = s.ports := by
  simp [State.raise]
@[simp] theorem State.raise_meters (s : State) (pg i : Nat) : (s.raise pg i).meters = s.meters := by
  simp [State.raise]
@[simp] theorem State.raise_account (s : State) (pg i : Nat) : (s.raise pg i).account = s.account := by
  simp [State.raise]
@[simp] theorem State.raise_boot (s : State) (pg i : Nat) : (s.raise pg i).boot = s.boot := by
  simp [State.raise]
@[simp] theorem State.raise_spdm (s : State) (pg i : Nat) : (s.raise pg i).spdm = s.spdm := by
  simp [State.raise]
@[simp] theorem State.raise_tunnels (s : State) (pg i : Nat) : (s.raise pg i).tunnels = s.tunnels := by
  simp [State.raise]
@[simp] theorem State.raise_tempOff (s : State) (pg i : Nat) : (s.raise pg i).tempOff = s.tempOff := by
  simp [State.raise]
@[simp] theorem State.raise_readyOff (s : State) (pg i : Nat) : (s.raise pg i).readyOff = s.readyOff := by
  simp [State.raise]
@[simp] theorem State.raise_free (s : State) (pg i : Nat) : (s.raise pg i).free = s.free := by
  simp [State.raise]

@[simp] theorem State.standing_pending (s : State) (pg c : Nat) (on : Bool) : (s.standing pg c on).pending = s.pending := by
  obtain ⟨_, h⟩ := s.standing_ev pg c on; rw [h]
@[simp] theorem State.standing_variant (s : State) (pg c : Nat) (on : Bool) : (s.standing pg c on).variant = s.variant := by
  obtain ⟨_, h⟩ := s.standing_ev pg c on; rw [h]
@[simp] theorem State.standing_clk (s : State) (pg c : Nat) (on : Bool) : (s.standing pg c on).clk = s.clk := by
  obtain ⟨_, h⟩ := s.standing_ev pg c on; rw [h]
@[simp] theorem State.standing_regs (s : State) (pg c : Nat) (on : Bool) : (s.standing pg c on).regs = s.regs := by
  obtain ⟨_, h⟩ := s.standing_ev pg c on; rw [h]
@[simp] theorem State.standing_shadow (s : State) (pg c : Nat) (on : Bool) : (s.standing pg c on).shadow = s.shadow := by
  obtain ⟨_, h⟩ := s.standing_ev pg c on; rw [h]
@[simp] theorem State.standing_dirty (s : State) (pg c : Nat) (on : Bool) : (s.standing pg c on).dirty = s.dirty := by
  obtain ⟨_, h⟩ := s.standing_ev pg c on; rw [h]
@[simp] theorem State.standing_latch (s : State) (pg c : Nat) (on : Bool) : (s.standing pg c on).latch = s.latch := by
  obtain ⟨_, h⟩ := s.standing_ev pg c on; rw [h]
@[simp] theorem State.standing_hold (s : State) (pg c : Nat) (on : Bool) : (s.standing pg c on).hold = s.hold := by
  obtain ⟨_, h⟩ := s.standing_ev pg c on; rw [h]
@[simp] theorem State.standing_commits (s : State) (pg c : Nat) (on : Bool) : (s.standing pg c on).commits = s.commits := by
  obtain ⟨_, h⟩ := s.standing_ev pg c on; rw [h]
@[simp] theorem State.standing_mem (s : State) (pg c : Nat) (on : Bool) : (s.standing pg c on).mem = s.mem := by
  obtain ⟨_, h⟩ := s.standing_ev pg c on; rw [h]
@[simp] theorem State.standing_poison (s : State) (pg c : Nat) (on : Bool) : (s.standing pg c on).poison = s.poison := by
  obtain ⟨_, h⟩ := s.standing_ev pg c on; rw [h]
@[simp] theorem State.standing_queues (s : State) (pg c : Nat) (on : Bool) : (s.standing pg c on).queues = s.queues := by
  obtain ⟨_, h⟩ := s.standing_ev pg c on; rw [h]
@[simp] theorem State.standing_flight (s : State) (pg c : Nat) (on : Bool) : (s.standing pg c on).flight = s.flight := by
  obtain ⟨_, h⟩ := s.standing_ev pg c on; rw [h]
@[simp] theorem State.standing_edges (s : State) (pg c : Nat) (on : Bool) : (s.standing pg c on).edges = s.edges := by
  obtain ⟨_, h⟩ := s.standing_ev pg c on; rw [h]
@[simp] theorem State.standing_seqs (s : State) (pg c : Nat) (on : Bool) : (s.standing pg c on).seqs = s.seqs := by
  obtain ⟨_, h⟩ := s.standing_ev pg c on; rw [h]
@[simp] theorem State.standing_barriers (s : State) (pg c : Nat) (on : Bool) : (s.standing pg c on).barriers = s.barriers := by
  obtain ⟨_, h⟩ := s.standing_ev pg c on; rw [h]
@[simp] theorem State.standing_verdicts (s : State) (pg c : Nat) (on : Bool) : (s.standing pg c on).verdicts = s.verdicts := by
  obtain ⟨_, h⟩ := s.standing_ev pg c on; rw [h]
@[simp] theorem State.standing_serial (s : State) (pg c : Nat) (on : Bool) : (s.standing pg c on).serial = s.serial := by
  obtain ⟨_, h⟩ := s.standing_ev pg c on; rw [h]
@[simp] theorem State.standing_ridge (s : State) (pg c : Nat) (on : Bool) : (s.standing pg c on).ridge = s.ridge := by
  obtain ⟨_, h⟩ := s.standing_ev pg c on; rw [h]
@[simp] theorem State.standing_pkgNum (s : State) (pg c : Nat) (on : Bool) : (s.standing pg c on).pkgNum = s.pkgNum := by
  obtain ⟨_, h⟩ := s.standing_ev pg c on; rw [h]
@[simp] theorem State.standing_ptGen (s : State) (pg c : Nat) (on : Bool) : (s.standing pg c on).ptGen = s.ptGen := by
  obtain ⟨_, h⟩ := s.standing_ev pg c on; rw [h]
@[simp] theorem State.standing_dmas (s : State) (pg c : Nat) (on : Bool) : (s.standing pg c on).dmas = s.dmas := by
  obtain ⟨_, h⟩ := s.standing_ev pg c on; rw [h]
@[simp] theorem State.standing_tones (s : State) (pg c : Nat) (on : Bool) : (s.standing pg c on).tones = s.tones := by
  obtain ⟨_, h⟩ := s.standing_ev pg c on; rw [h]
@[simp] theorem State.standing_touched (s : State) (pg c : Nat) (on : Bool) : (s.standing pg c on).touched = s.touched := by
  obtain ⟨_, h⟩ := s.standing_ev pg c on; rw [h]
@[simp] theorem State.standing_dacHold (s : State) (pg c : Nat) (on : Bool) : (s.standing pg c on).dacHold = s.dacHold := by
  obtain ⟨_, h⟩ := s.standing_ev pg c on; rw [h]
@[simp] theorem State.standing_dacAt (s : State) (pg c : Nat) (on : Bool) : (s.standing pg c on).dacAt = s.dacAt := by
  obtain ⟨_, h⟩ := s.standing_ev pg c on; rw [h]
@[simp] theorem State.standing_streams (s : State) (pg c : Nat) (on : Bool) : (s.standing pg c on).streams = s.streams := by
  obtain ⟨_, h⟩ := s.standing_ev pg c on; rw [h]
@[simp] theorem State.standing_failLog (s : State) (pg c : Nat) (on : Bool) : (s.standing pg c on).failLog = s.failLog := by
  obtain ⟨_, h⟩ := s.standing_ev pg c on; rw [h]
@[simp] theorem State.standing_caps (s : State) (pg c : Nat) (on : Bool) : (s.standing pg c on).caps = s.caps := by
  obtain ⟨_, h⟩ := s.standing_ev pg c on; rw [h]
@[simp] theorem State.standing_vseen (s : State) (pg c : Nat) (on : Bool) : (s.standing pg c on).vseen = s.vseen := by
  obtain ⟨_, h⟩ := s.standing_ev pg c on; rw [h]
@[simp] theorem State.standing_tius (s : State) (pg c : Nat) (on : Bool) : (s.standing pg c on).tius = s.tius := by
  obtain ⟨_, h⟩ := s.standing_ev pg c on; rw [h]
@[simp] theorem State.standing_fres (s : State) (pg c : Nat) (on : Bool) : (s.standing pg c on).fres = s.fres := by
  obtain ⟨_, h⟩ := s.standing_ev pg c on; rw [h]
@[simp] theorem State.standing_stampIns (s : State) (pg c : Nat) (on : Bool) : (s.standing pg c on).stampIns = s.stampIns := by
  obtain ⟨_, h⟩ := s.standing_ev pg c on; rw [h]
@[simp] theorem State.standing_edgeStamp (s : State) (pg c : Nat) (on : Bool) : (s.standing pg c on).edgeStamp = s.edgeStamp := by
  obtain ⟨_, h⟩ := s.standing_ev pg c on; rw [h]
@[simp] theorem State.standing_recGap (s : State) (pg c : Nat) (on : Bool) : (s.standing pg c on).recGap = s.recGap := by
  obtain ⟨_, h⟩ := s.standing_ev pg c on; rw [h]
@[simp] theorem State.standing_signQ (s : State) (pg c : Nat) (on : Bool) : (s.standing pg c on).signQ = s.signQ := by
  obtain ⟨_, h⟩ := s.standing_ev pg c on; rw [h]
@[simp] theorem State.standing_signSeq (s : State) (pg c : Nat) (on : Bool) : (s.standing pg c on).signSeq = s.signSeq := by
  obtain ⟨_, h⟩ := s.standing_ev pg c on; rw [h]
@[simp] theorem State.standing_recHeld (s : State) (pg c : Nat) (on : Bool) : (s.standing pg c on).recHeld = s.recHeld := by
  obtain ⟨_, h⟩ := s.standing_ev pg c on; rw [h]
@[simp] theorem State.standing_drainPt (s : State) (pg c : Nat) (on : Bool) : (s.standing pg c on).drainPt = s.drainPt := by
  obtain ⟨_, h⟩ := s.standing_ev pg c on; rw [h]
@[simp] theorem State.standing_wakes (s : State) (pg c : Nat) (on : Bool) : (s.standing pg c on).wakes = s.wakes := by
  obtain ⟨_, h⟩ := s.standing_ev pg c on; rw [h]
@[simp] theorem State.standing_cals (s : State) (pg c : Nat) (on : Bool) : (s.standing pg c on).cals = s.cals := by
  obtain ⟨_, h⟩ := s.standing_ev pg c on; rw [h]
@[simp] theorem State.standing_calInsts (s : State) (pg c : Nat) (on : Bool) : (s.standing pg c on).calInsts = s.calInsts := by
  obtain ⟨_, h⟩ := s.standing_ev pg c on; rw [h]
@[simp] theorem State.standing_tb (s : State) (pg c : Nat) (on : Bool) : (s.standing pg c on).tb = s.tb := by
  obtain ⟨_, h⟩ := s.standing_ev pg c on; rw [h]
@[simp] theorem State.standing_sills (s : State) (pg c : Nat) (on : Bool) : (s.standing pg c on).sills = s.sills := by
  obtain ⟨_, h⟩ := s.standing_ev pg c on; rw [h]
@[simp] theorem State.standing_takeovers (s : State) (pg c : Nat) (on : Bool) : (s.standing pg c on).takeovers = s.takeovers := by
  obtain ⟨_, h⟩ := s.standing_ev pg c on; rw [h]
@[simp] theorem State.standing_souts (s : State) (pg c : Nat) (on : Bool) : (s.standing pg c on).souts = s.souts := by
  obtain ⟨_, h⟩ := s.standing_ev pg c on; rw [h]
@[simp] theorem State.standing_ptOff (s : State) (pg c : Nat) (on : Bool) : (s.standing pg c on).ptOff = s.ptOff := by
  obtain ⟨_, h⟩ := s.standing_ev pg c on; rw [h]
@[simp] theorem State.standing_tree (s : State) (pg c : Nat) (on : Bool) : (s.standing pg c on).tree = s.tree := by
  obtain ⟨_, h⟩ := s.standing_ev pg c on; rw [h]
@[simp] theorem State.standing_ports (s : State) (pg c : Nat) (on : Bool) : (s.standing pg c on).ports = s.ports := by
  obtain ⟨_, h⟩ := s.standing_ev pg c on; rw [h]
@[simp] theorem State.standing_meters (s : State) (pg c : Nat) (on : Bool) : (s.standing pg c on).meters = s.meters := by
  obtain ⟨_, h⟩ := s.standing_ev pg c on; rw [h]
@[simp] theorem State.standing_account (s : State) (pg c : Nat) (on : Bool) : (s.standing pg c on).account = s.account := by
  obtain ⟨_, h⟩ := s.standing_ev pg c on; rw [h]
@[simp] theorem State.standing_boot (s : State) (pg c : Nat) (on : Bool) : (s.standing pg c on).boot = s.boot := by
  obtain ⟨_, h⟩ := s.standing_ev pg c on; rw [h]
@[simp] theorem State.standing_spdm (s : State) (pg c : Nat) (on : Bool) : (s.standing pg c on).spdm = s.spdm := by
  obtain ⟨_, h⟩ := s.standing_ev pg c on; rw [h]
@[simp] theorem State.standing_tunnels (s : State) (pg c : Nat) (on : Bool) : (s.standing pg c on).tunnels = s.tunnels := by
  obtain ⟨_, h⟩ := s.standing_ev pg c on; rw [h]
@[simp] theorem State.standing_tempOff (s : State) (pg c : Nat) (on : Bool) : (s.standing pg c on).tempOff = s.tempOff := by
  obtain ⟨_, h⟩ := s.standing_ev pg c on; rw [h]
@[simp] theorem State.standing_readyOff (s : State) (pg c : Nat) (on : Bool) : (s.standing pg c on).readyOff = s.readyOff := by
  obtain ⟨_, h⟩ := s.standing_ev pg c on; rw [h]
@[simp] theorem State.standing_free (s : State) (pg c : Nat) (on : Bool) : (s.standing pg c on).free = s.free := by
  obtain ⟨_, h⟩ := s.standing_ev pg c on; rw [h]

@[simp] theorem State.settle_pending (s : State) : (s.settle).pending = s.pending := by
  obtain ⟨_, h⟩ := s.settle_ev; rw [h]
@[simp] theorem State.settle_variant (s : State) : (s.settle).variant = s.variant := by
  obtain ⟨_, h⟩ := s.settle_ev; rw [h]
@[simp] theorem State.settle_clk (s : State) : (s.settle).clk = s.clk := by
  obtain ⟨_, h⟩ := s.settle_ev; rw [h]
@[simp] theorem State.settle_regs (s : State) : (s.settle).regs = s.regs := by
  obtain ⟨_, h⟩ := s.settle_ev; rw [h]
@[simp] theorem State.settle_shadow (s : State) : (s.settle).shadow = s.shadow := by
  obtain ⟨_, h⟩ := s.settle_ev; rw [h]
@[simp] theorem State.settle_dirty (s : State) : (s.settle).dirty = s.dirty := by
  obtain ⟨_, h⟩ := s.settle_ev; rw [h]
@[simp] theorem State.settle_latch (s : State) : (s.settle).latch = s.latch := by
  obtain ⟨_, h⟩ := s.settle_ev; rw [h]
@[simp] theorem State.settle_hold (s : State) : (s.settle).hold = s.hold := by
  obtain ⟨_, h⟩ := s.settle_ev; rw [h]
@[simp] theorem State.settle_commits (s : State) : (s.settle).commits = s.commits := by
  obtain ⟨_, h⟩ := s.settle_ev; rw [h]
@[simp] theorem State.settle_mem (s : State) : (s.settle).mem = s.mem := by
  obtain ⟨_, h⟩ := s.settle_ev; rw [h]
@[simp] theorem State.settle_poison (s : State) : (s.settle).poison = s.poison := by
  obtain ⟨_, h⟩ := s.settle_ev; rw [h]
@[simp] theorem State.settle_queues (s : State) : (s.settle).queues = s.queues := by
  obtain ⟨_, h⟩ := s.settle_ev; rw [h]
@[simp] theorem State.settle_flight (s : State) : (s.settle).flight = s.flight := by
  obtain ⟨_, h⟩ := s.settle_ev; rw [h]
@[simp] theorem State.settle_edges (s : State) : (s.settle).edges = s.edges := by
  obtain ⟨_, h⟩ := s.settle_ev; rw [h]
@[simp] theorem State.settle_seqs (s : State) : (s.settle).seqs = s.seqs := by
  obtain ⟨_, h⟩ := s.settle_ev; rw [h]
@[simp] theorem State.settle_barriers (s : State) : (s.settle).barriers = s.barriers := by
  obtain ⟨_, h⟩ := s.settle_ev; rw [h]
@[simp] theorem State.settle_verdicts (s : State) : (s.settle).verdicts = s.verdicts := by
  obtain ⟨_, h⟩ := s.settle_ev; rw [h]
@[simp] theorem State.settle_serial (s : State) : (s.settle).serial = s.serial := by
  obtain ⟨_, h⟩ := s.settle_ev; rw [h]
@[simp] theorem State.settle_ridge (s : State) : (s.settle).ridge = s.ridge := by
  obtain ⟨_, h⟩ := s.settle_ev; rw [h]
@[simp] theorem State.settle_pkgNum (s : State) : (s.settle).pkgNum = s.pkgNum := by
  obtain ⟨_, h⟩ := s.settle_ev; rw [h]
@[simp] theorem State.settle_ptGen (s : State) : (s.settle).ptGen = s.ptGen := by
  obtain ⟨_, h⟩ := s.settle_ev; rw [h]
@[simp] theorem State.settle_dmas (s : State) : (s.settle).dmas = s.dmas := by
  obtain ⟨_, h⟩ := s.settle_ev; rw [h]
@[simp] theorem State.settle_tones (s : State) : (s.settle).tones = s.tones := by
  obtain ⟨_, h⟩ := s.settle_ev; rw [h]
@[simp] theorem State.settle_touched (s : State) : (s.settle).touched = s.touched := by
  obtain ⟨_, h⟩ := s.settle_ev; rw [h]
@[simp] theorem State.settle_dacHold (s : State) : (s.settle).dacHold = s.dacHold := by
  obtain ⟨_, h⟩ := s.settle_ev; rw [h]
@[simp] theorem State.settle_dacAt (s : State) : (s.settle).dacAt = s.dacAt := by
  obtain ⟨_, h⟩ := s.settle_ev; rw [h]
@[simp] theorem State.settle_streams (s : State) : (s.settle).streams = s.streams := by
  obtain ⟨_, h⟩ := s.settle_ev; rw [h]
@[simp] theorem State.settle_failLog (s : State) : (s.settle).failLog = s.failLog := by
  obtain ⟨_, h⟩ := s.settle_ev; rw [h]
@[simp] theorem State.settle_caps (s : State) : (s.settle).caps = s.caps := by
  obtain ⟨_, h⟩ := s.settle_ev; rw [h]
@[simp] theorem State.settle_vseen (s : State) : (s.settle).vseen = s.vseen := by
  obtain ⟨_, h⟩ := s.settle_ev; rw [h]
@[simp] theorem State.settle_tius (s : State) : (s.settle).tius = s.tius := by
  obtain ⟨_, h⟩ := s.settle_ev; rw [h]
@[simp] theorem State.settle_fres (s : State) : (s.settle).fres = s.fres := by
  obtain ⟨_, h⟩ := s.settle_ev; rw [h]
@[simp] theorem State.settle_stampIns (s : State) : (s.settle).stampIns = s.stampIns := by
  obtain ⟨_, h⟩ := s.settle_ev; rw [h]
@[simp] theorem State.settle_edgeStamp (s : State) : (s.settle).edgeStamp = s.edgeStamp := by
  obtain ⟨_, h⟩ := s.settle_ev; rw [h]
@[simp] theorem State.settle_recGap (s : State) : (s.settle).recGap = s.recGap := by
  obtain ⟨_, h⟩ := s.settle_ev; rw [h]
@[simp] theorem State.settle_signQ (s : State) : (s.settle).signQ = s.signQ := by
  obtain ⟨_, h⟩ := s.settle_ev; rw [h]
@[simp] theorem State.settle_signSeq (s : State) : (s.settle).signSeq = s.signSeq := by
  obtain ⟨_, h⟩ := s.settle_ev; rw [h]
@[simp] theorem State.settle_recHeld (s : State) : (s.settle).recHeld = s.recHeld := by
  obtain ⟨_, h⟩ := s.settle_ev; rw [h]
@[simp] theorem State.settle_drainPt (s : State) : (s.settle).drainPt = s.drainPt := by
  obtain ⟨_, h⟩ := s.settle_ev; rw [h]
@[simp] theorem State.settle_wakes (s : State) : (s.settle).wakes = s.wakes := by
  obtain ⟨_, h⟩ := s.settle_ev; rw [h]
@[simp] theorem State.settle_cals (s : State) : (s.settle).cals = s.cals := by
  obtain ⟨_, h⟩ := s.settle_ev; rw [h]
@[simp] theorem State.settle_calInsts (s : State) : (s.settle).calInsts = s.calInsts := by
  obtain ⟨_, h⟩ := s.settle_ev; rw [h]
@[simp] theorem State.settle_tb (s : State) : (s.settle).tb = s.tb := by
  obtain ⟨_, h⟩ := s.settle_ev; rw [h]
@[simp] theorem State.settle_sills (s : State) : (s.settle).sills = s.sills := by
  obtain ⟨_, h⟩ := s.settle_ev; rw [h]
@[simp] theorem State.settle_takeovers (s : State) : (s.settle).takeovers = s.takeovers := by
  obtain ⟨_, h⟩ := s.settle_ev; rw [h]
@[simp] theorem State.settle_souts (s : State) : (s.settle).souts = s.souts := by
  obtain ⟨_, h⟩ := s.settle_ev; rw [h]
@[simp] theorem State.settle_ptOff (s : State) : (s.settle).ptOff = s.ptOff := by
  obtain ⟨_, h⟩ := s.settle_ev; rw [h]
@[simp] theorem State.settle_tree (s : State) : (s.settle).tree = s.tree := by
  obtain ⟨_, h⟩ := s.settle_ev; rw [h]
@[simp] theorem State.settle_ports (s : State) : (s.settle).ports = s.ports := by
  obtain ⟨_, h⟩ := s.settle_ev; rw [h]
@[simp] theorem State.settle_meters (s : State) : (s.settle).meters = s.meters := by
  obtain ⟨_, h⟩ := s.settle_ev; rw [h]
@[simp] theorem State.settle_account (s : State) : (s.settle).account = s.account := by
  obtain ⟨_, h⟩ := s.settle_ev; rw [h]
@[simp] theorem State.settle_boot (s : State) : (s.settle).boot = s.boot := by
  obtain ⟨_, h⟩ := s.settle_ev; rw [h]
@[simp] theorem State.settle_spdm (s : State) : (s.settle).spdm = s.spdm := by
  obtain ⟨_, h⟩ := s.settle_ev; rw [h]
@[simp] theorem State.settle_tunnels (s : State) : (s.settle).tunnels = s.tunnels := by
  obtain ⟨_, h⟩ := s.settle_ev; rw [h]
@[simp] theorem State.settle_tempOff (s : State) : (s.settle).tempOff = s.tempOff := by
  obtain ⟨_, h⟩ := s.settle_ev; rw [h]
@[simp] theorem State.settle_readyOff (s : State) : (s.settle).readyOff = s.readyOff := by
  obtain ⟨_, h⟩ := s.settle_ev; rw [h]
@[simp] theorem State.settle_free (s : State) : (s.settle).free = s.free := by
  obtain ⟨_, h⟩ := s.settle_ev; rw [h]

/-! ### How a command runs -/

@[simp] theorem State.keep_pending (s s' : State) : (s.keep s').pending = s.pending := rfl
@[simp] theorem State.keep_variant (s s' : State) : (s.keep s').variant = s.variant := rfl
@[simp] theorem State.keep_clk (s s' : State) : (s.keep s').clk = s.clk := rfl
@[simp] theorem State.keep_regs (s s' : State) : (s.keep s').regs = s'.regs := rfl
@[simp] theorem State.keep_shadow (s s' : State) : (s.keep s').shadow = s'.shadow := rfl
@[simp] theorem State.keep_dirty (s s' : State) : (s.keep s').dirty = s'.dirty := rfl
@[simp] theorem State.keep_latch (s s' : State) : (s.keep s').latch = s'.latch := rfl
@[simp] theorem State.keep_hold (s s' : State) : (s.keep s').hold = s'.hold := rfl
@[simp] theorem State.keep_commits (s s' : State) : (s.keep s').commits = s'.commits := rfl
@[simp] theorem State.keep_ev (s s' : State) : (s.keep s').ev = s'.ev := rfl
@[simp] theorem State.keep_mem (s s' : State) : (s.keep s').mem = s.mem := rfl
@[simp] theorem State.keep_poison (s s' : State) : (s.keep s').poison = s'.poison := rfl
@[simp] theorem State.keep_queues (s s' : State) : (s.keep s').queues = s'.queues := rfl
@[simp] theorem State.keep_flight (s s' : State) : (s.keep s').flight = s'.flight := rfl
@[simp] theorem State.keep_edges (s s' : State) : (s.keep s').edges = s'.edges := rfl
@[simp] theorem State.keep_seqs (s s' : State) : (s.keep s').seqs = s'.seqs := rfl
@[simp] theorem State.keep_barriers (s s' : State) : (s.keep s').barriers = s'.barriers := rfl
@[simp] theorem State.keep_verdicts (s s' : State) : (s.keep s').verdicts = s'.verdicts := rfl
@[simp] theorem State.keep_serial (s s' : State) : (s.keep s').serial = s'.serial := rfl
@[simp] theorem State.keep_ridge (s s' : State) : (s.keep s').ridge = s.ridge := rfl
@[simp] theorem State.keep_pkgNum (s s' : State) : (s.keep s').pkgNum = s'.pkgNum := rfl
@[simp] theorem State.keep_ptGen (s s' : State) : (s.keep s').ptGen = s'.ptGen := rfl
@[simp] theorem State.keep_dmas (s s' : State) : (s.keep s').dmas = s'.dmas := rfl
@[simp] theorem State.keep_tones (s s' : State) : (s.keep s').tones = s'.tones := rfl
@[simp] theorem State.keep_touched (s s' : State) : (s.keep s').touched = s'.touched := rfl
@[simp] theorem State.keep_dacHold (s s' : State) : (s.keep s').dacHold = s'.dacHold := rfl
@[simp] theorem State.keep_dacAt (s s' : State) : (s.keep s').dacAt = s'.dacAt := rfl
@[simp] theorem State.keep_streams (s s' : State) : (s.keep s').streams = s'.streams := rfl
@[simp] theorem State.keep_failLog (s s' : State) : (s.keep s').failLog = s'.failLog := rfl
@[simp] theorem State.keep_caps (s s' : State) : (s.keep s').caps = s'.caps := rfl
@[simp] theorem State.keep_vseen (s s' : State) : (s.keep s').vseen = s'.vseen := rfl
@[simp] theorem State.keep_tius (s s' : State) : (s.keep s').tius = s'.tius := rfl
@[simp] theorem State.keep_fres (s s' : State) : (s.keep s').fres = s'.fres := rfl
@[simp] theorem State.keep_stampIns (s s' : State) : (s.keep s').stampIns = s'.stampIns := rfl
@[simp] theorem State.keep_edgeStamp (s s' : State) : (s.keep s').edgeStamp = s'.edgeStamp := rfl
@[simp] theorem State.keep_recGap (s s' : State) : (s.keep s').recGap = s'.recGap := rfl
@[simp] theorem State.keep_signQ (s s' : State) : (s.keep s').signQ = s'.signQ := rfl
@[simp] theorem State.keep_signSeq (s s' : State) : (s.keep s').signSeq = s'.signSeq := rfl
@[simp] theorem State.keep_recHeld (s s' : State) : (s.keep s').recHeld = s'.recHeld := rfl
@[simp] theorem State.keep_drainPt (s s' : State) : (s.keep s').drainPt = s'.drainPt := rfl
@[simp] theorem State.keep_wakes (s s' : State) : (s.keep s').wakes = s'.wakes := rfl
@[simp] theorem State.keep_cals (s s' : State) : (s.keep s').cals = s'.cals := rfl
@[simp] theorem State.keep_calInsts (s s' : State) : (s.keep s').calInsts = s'.calInsts := rfl
@[simp] theorem State.keep_tb (s s' : State) : (s.keep s').tb = s'.tb := rfl
@[simp] theorem State.keep_sills (s s' : State) : (s.keep s').sills = s'.sills := rfl
@[simp] theorem State.keep_takeovers (s s' : State) : (s.keep s').takeovers = s'.takeovers := rfl
@[simp] theorem State.keep_souts (s s' : State) : (s.keep s').souts = s'.souts := rfl
@[simp] theorem State.keep_ptOff (s s' : State) : (s.keep s').ptOff = s'.ptOff := rfl
@[simp] theorem State.keep_tree (s s' : State) : (s.keep s').tree = s'.tree := rfl
@[simp] theorem State.keep_ports (s s' : State) : (s.keep s').ports = s'.ports := rfl
@[simp] theorem State.keep_meters (s s' : State) : (s.keep s').meters = s'.meters := rfl
@[simp] theorem State.keep_account (s s' : State) : (s.keep s').account = s'.account := rfl
@[simp] theorem State.keep_boot (s s' : State) : (s.keep s').boot = s'.boot := rfl
@[simp] theorem State.keep_spdm (s s' : State) : (s.keep s').spdm = s'.spdm := rfl
@[simp] theorem State.keep_tunnels (s s' : State) : (s.keep s').tunnels = s'.tunnels := rfl
@[simp] theorem State.keep_tempOff (s s' : State) : (s.keep s').tempOff = s'.tempOff := rfl
@[simp] theorem State.keep_readyOff (s s' : State) : (s.keep s').readyOff = s'.readyOff := rfl
@[simp] theorem State.keep_free (s s' : State) : (s.keep s').free = s'.free := rfl

@[simp] theorem State.keepMem_pending (s s' : State) : (s.keepMem s').pending = s.pending := rfl
@[simp] theorem State.keepMem_variant (s s' : State) : (s.keepMem s').variant = s.variant := rfl
@[simp] theorem State.keepMem_clk (s s' : State) : (s.keepMem s').clk = s.clk := rfl
@[simp] theorem State.keepMem_regs (s s' : State) : (s.keepMem s').regs = s'.regs := rfl
@[simp] theorem State.keepMem_shadow (s s' : State) : (s.keepMem s').shadow = s'.shadow := rfl
@[simp] theorem State.keepMem_dirty (s s' : State) : (s.keepMem s').dirty = s'.dirty := rfl
@[simp] theorem State.keepMem_latch (s s' : State) : (s.keepMem s').latch = s'.latch := rfl
@[simp] theorem State.keepMem_hold (s s' : State) : (s.keepMem s').hold = s'.hold := rfl
@[simp] theorem State.keepMem_commits (s s' : State) : (s.keepMem s').commits = s'.commits := rfl
@[simp] theorem State.keepMem_ev (s s' : State) : (s.keepMem s').ev = s'.ev := rfl
@[simp] theorem State.keepMem_mem (s s' : State) : (s.keepMem s').mem = s'.mem := rfl
@[simp] theorem State.keepMem_poison (s s' : State) : (s.keepMem s').poison = s'.poison := rfl
@[simp] theorem State.keepMem_queues (s s' : State) : (s.keepMem s').queues = s'.queues := rfl
@[simp] theorem State.keepMem_flight (s s' : State) : (s.keepMem s').flight = s'.flight := rfl
@[simp] theorem State.keepMem_edges (s s' : State) : (s.keepMem s').edges = s'.edges := rfl
@[simp] theorem State.keepMem_seqs (s s' : State) : (s.keepMem s').seqs = s'.seqs := rfl
@[simp] theorem State.keepMem_barriers (s s' : State) : (s.keepMem s').barriers = s'.barriers := rfl
@[simp] theorem State.keepMem_verdicts (s s' : State) : (s.keepMem s').verdicts = s'.verdicts := rfl
@[simp] theorem State.keepMem_serial (s s' : State) : (s.keepMem s').serial = s'.serial := rfl
@[simp] theorem State.keepMem_ridge (s s' : State) : (s.keepMem s').ridge = s.ridge := rfl
@[simp] theorem State.keepMem_pkgNum (s s' : State) : (s.keepMem s').pkgNum = s'.pkgNum := rfl
@[simp] theorem State.keepMem_ptGen (s s' : State) : (s.keepMem s').ptGen = s'.ptGen := rfl
@[simp] theorem State.keepMem_dmas (s s' : State) : (s.keepMem s').dmas = s'.dmas := rfl
@[simp] theorem State.keepMem_tones (s s' : State) : (s.keepMem s').tones = s'.tones := rfl
@[simp] theorem State.keepMem_touched (s s' : State) : (s.keepMem s').touched = s'.touched := rfl
@[simp] theorem State.keepMem_dacHold (s s' : State) : (s.keepMem s').dacHold = s'.dacHold := rfl
@[simp] theorem State.keepMem_dacAt (s s' : State) : (s.keepMem s').dacAt = s'.dacAt := rfl
@[simp] theorem State.keepMem_streams (s s' : State) : (s.keepMem s').streams = s'.streams := rfl
@[simp] theorem State.keepMem_failLog (s s' : State) : (s.keepMem s').failLog = s'.failLog := rfl
@[simp] theorem State.keepMem_caps (s s' : State) : (s.keepMem s').caps = s'.caps := rfl
@[simp] theorem State.keepMem_vseen (s s' : State) : (s.keepMem s').vseen = s'.vseen := rfl
@[simp] theorem State.keepMem_tius (s s' : State) : (s.keepMem s').tius = s'.tius := rfl
@[simp] theorem State.keepMem_fres (s s' : State) : (s.keepMem s').fres = s'.fres := rfl
@[simp] theorem State.keepMem_stampIns (s s' : State) : (s.keepMem s').stampIns = s'.stampIns := rfl
@[simp] theorem State.keepMem_edgeStamp (s s' : State) : (s.keepMem s').edgeStamp = s'.edgeStamp := rfl
@[simp] theorem State.keepMem_recGap (s s' : State) : (s.keepMem s').recGap = s'.recGap := rfl
@[simp] theorem State.keepMem_signQ (s s' : State) : (s.keepMem s').signQ = s'.signQ := rfl
@[simp] theorem State.keepMem_signSeq (s s' : State) : (s.keepMem s').signSeq = s'.signSeq := rfl
@[simp] theorem State.keepMem_recHeld (s s' : State) : (s.keepMem s').recHeld = s'.recHeld := rfl
@[simp] theorem State.keepMem_drainPt (s s' : State) : (s.keepMem s').drainPt = s'.drainPt := rfl
@[simp] theorem State.keepMem_wakes (s s' : State) : (s.keepMem s').wakes = s'.wakes := rfl
@[simp] theorem State.keepMem_cals (s s' : State) : (s.keepMem s').cals = s'.cals := rfl
@[simp] theorem State.keepMem_calInsts (s s' : State) : (s.keepMem s').calInsts = s'.calInsts := rfl
@[simp] theorem State.keepMem_tb (s s' : State) : (s.keepMem s').tb = s'.tb := rfl
@[simp] theorem State.keepMem_sills (s s' : State) : (s.keepMem s').sills = s'.sills := rfl
@[simp] theorem State.keepMem_takeovers (s s' : State) : (s.keepMem s').takeovers = s'.takeovers := rfl
@[simp] theorem State.keepMem_souts (s s' : State) : (s.keepMem s').souts = s'.souts := rfl
@[simp] theorem State.keepMem_ptOff (s s' : State) : (s.keepMem s').ptOff = s'.ptOff := rfl
@[simp] theorem State.keepMem_tree (s s' : State) : (s.keepMem s').tree = s'.tree := rfl
@[simp] theorem State.keepMem_ports (s s' : State) : (s.keepMem s').ports = s'.ports := rfl
@[simp] theorem State.keepMem_meters (s s' : State) : (s.keepMem s').meters = s'.meters := rfl
@[simp] theorem State.keepMem_account (s s' : State) : (s.keepMem s').account = s'.account := rfl
@[simp] theorem State.keepMem_boot (s s' : State) : (s.keepMem s').boot = s'.boot := rfl
@[simp] theorem State.keepMem_spdm (s s' : State) : (s.keepMem s').spdm = s'.spdm := rfl
@[simp] theorem State.keepMem_tunnels (s s' : State) : (s.keepMem s').tunnels = s'.tunnels := rfl
@[simp] theorem State.keepMem_tempOff (s s' : State) : (s.keepMem s').tempOff = s'.tempOff := rfl
@[simp] theorem State.keepMem_readyOff (s s' : State) : (s.keepMem s').readyOff = s'.readyOff := rfl
@[simp] theorem State.keepMem_free (s s' : State) : (s.keepMem s').free = s'.free := rfl

@[simp] theorem State.arrive_pending (s : State) (t : PT) : (s.arrive t).pending = s.pending := by
  unfold State.arrive; split <;> rfl
@[simp] theorem State.arrive_variant (s : State) (t : PT) : (s.arrive t).variant = s.variant := by
  unfold State.arrive; split <;> rfl
@[simp] theorem State.arrive_regs (s : State) (t : PT) : (s.arrive t).regs = s.regs := by
  unfold State.arrive; split <;> rfl
@[simp] theorem State.arrive_shadow (s : State) (t : PT) : (s.arrive t).shadow = s.shadow := by
  unfold State.arrive; split <;> rfl
@[simp] theorem State.arrive_dirty (s : State) (t : PT) : (s.arrive t).dirty = s.dirty := by
  unfold State.arrive; split <;> rfl
@[simp] theorem State.arrive_latch (s : State) (t : PT) : (s.arrive t).latch = s.latch := by
  unfold State.arrive; split <;> rfl
@[simp] theorem State.arrive_hold (s : State) (t : PT) : (s.arrive t).hold = s.hold := by
  unfold State.arrive; split <;> rfl
@[simp] theorem State.arrive_commits (s : State) (t : PT) : (s.arrive t).commits = s.commits := by
  unfold State.arrive; split <;> rfl
@[simp] theorem State.arrive_ev (s : State) (t : PT) : (s.arrive t).ev = s.ev := by
  unfold State.arrive; split <;> rfl
@[simp] theorem State.arrive_mem (s : State) (t : PT) : (s.arrive t).mem = s.mem := by
  unfold State.arrive; split <;> rfl
@[simp] theorem State.arrive_poison (s : State) (t : PT) : (s.arrive t).poison = s.poison := by
  unfold State.arrive; split <;> rfl
@[simp] theorem State.arrive_queues (s : State) (t : PT) : (s.arrive t).queues = s.queues := by
  unfold State.arrive; split <;> rfl
@[simp] theorem State.arrive_flight (s : State) (t : PT) : (s.arrive t).flight = s.flight := by
  unfold State.arrive; split <;> rfl
@[simp] theorem State.arrive_edges (s : State) (t : PT) : (s.arrive t).edges = s.edges := by
  unfold State.arrive; split <;> rfl
@[simp] theorem State.arrive_seqs (s : State) (t : PT) : (s.arrive t).seqs = s.seqs := by
  unfold State.arrive; split <;> rfl
@[simp] theorem State.arrive_barriers (s : State) (t : PT) : (s.arrive t).barriers = s.barriers := by
  unfold State.arrive; split <;> rfl
@[simp] theorem State.arrive_verdicts (s : State) (t : PT) : (s.arrive t).verdicts = s.verdicts := by
  unfold State.arrive; split <;> rfl
@[simp] theorem State.arrive_serial (s : State) (t : PT) : (s.arrive t).serial = s.serial := by
  unfold State.arrive; split <;> rfl
@[simp] theorem State.arrive_ridge (s : State) (t : PT) : (s.arrive t).ridge = s.ridge := by
  unfold State.arrive; split <;> rfl
@[simp] theorem State.arrive_pkgNum (s : State) (t : PT) : (s.arrive t).pkgNum = s.pkgNum := by
  unfold State.arrive; split <;> rfl
@[simp] theorem State.arrive_ptGen (s : State) (t : PT) : (s.arrive t).ptGen = s.ptGen := by
  unfold State.arrive; split <;> rfl
@[simp] theorem State.arrive_dmas (s : State) (t : PT) : (s.arrive t).dmas = s.dmas := by
  unfold State.arrive; split <;> rfl
@[simp] theorem State.arrive_tones (s : State) (t : PT) : (s.arrive t).tones = s.tones := by
  unfold State.arrive; split <;> rfl
@[simp] theorem State.arrive_touched (s : State) (t : PT) : (s.arrive t).touched = s.touched := by
  unfold State.arrive; split <;> rfl
@[simp] theorem State.arrive_dacHold (s : State) (t : PT) : (s.arrive t).dacHold = s.dacHold := by
  unfold State.arrive; split <;> rfl
@[simp] theorem State.arrive_dacAt (s : State) (t : PT) : (s.arrive t).dacAt = s.dacAt := by
  unfold State.arrive; split <;> rfl
@[simp] theorem State.arrive_streams (s : State) (t : PT) : (s.arrive t).streams = s.streams := by
  unfold State.arrive; split <;> rfl
@[simp] theorem State.arrive_failLog (s : State) (t : PT) : (s.arrive t).failLog = s.failLog := by
  unfold State.arrive; split <;> rfl
@[simp] theorem State.arrive_caps (s : State) (t : PT) : (s.arrive t).caps = s.caps := by
  unfold State.arrive; split <;> rfl
@[simp] theorem State.arrive_vseen (s : State) (t : PT) : (s.arrive t).vseen = s.vseen := by
  unfold State.arrive; split <;> rfl
@[simp] theorem State.arrive_tius (s : State) (t : PT) : (s.arrive t).tius = s.tius := by
  unfold State.arrive; split <;> rfl
@[simp] theorem State.arrive_fres (s : State) (t : PT) : (s.arrive t).fres = s.fres := by
  unfold State.arrive; split <;> rfl
@[simp] theorem State.arrive_stampIns (s : State) (t : PT) : (s.arrive t).stampIns = s.stampIns := by
  unfold State.arrive; split <;> rfl
@[simp] theorem State.arrive_edgeStamp (s : State) (t : PT) : (s.arrive t).edgeStamp = s.edgeStamp := by
  unfold State.arrive; split <;> rfl
@[simp] theorem State.arrive_recGap (s : State) (t : PT) : (s.arrive t).recGap = s.recGap := by
  unfold State.arrive; split <;> rfl
@[simp] theorem State.arrive_signQ (s : State) (t : PT) : (s.arrive t).signQ = s.signQ := by
  unfold State.arrive; split <;> rfl
@[simp] theorem State.arrive_signSeq (s : State) (t : PT) : (s.arrive t).signSeq = s.signSeq := by
  unfold State.arrive; split <;> rfl
@[simp] theorem State.arrive_recHeld (s : State) (t : PT) : (s.arrive t).recHeld = s.recHeld := by
  unfold State.arrive; split <;> rfl
@[simp] theorem State.arrive_drainPt (s : State) (t : PT) : (s.arrive t).drainPt = s.drainPt := by
  unfold State.arrive; split <;> rfl
@[simp] theorem State.arrive_wakes (s : State) (t : PT) : (s.arrive t).wakes = s.wakes := by
  unfold State.arrive; split <;> rfl
@[simp] theorem State.arrive_cals (s : State) (t : PT) : (s.arrive t).cals = s.cals := by
  unfold State.arrive; split <;> rfl
@[simp] theorem State.arrive_calInsts (s : State) (t : PT) : (s.arrive t).calInsts = s.calInsts := by
  unfold State.arrive; split <;> rfl
@[simp] theorem State.arrive_tb (s : State) (t : PT) : (s.arrive t).tb = s.tb := by
  unfold State.arrive; split <;> rfl
@[simp] theorem State.arrive_sills (s : State) (t : PT) : (s.arrive t).sills = s.sills := by
  unfold State.arrive; split <;> rfl
@[simp] theorem State.arrive_takeovers (s : State) (t : PT) : (s.arrive t).takeovers = s.takeovers := by
  unfold State.arrive; split <;> rfl
@[simp] theorem State.arrive_souts (s : State) (t : PT) : (s.arrive t).souts = s.souts := by
  unfold State.arrive; split <;> rfl
@[simp] theorem State.arrive_ptOff (s : State) (t : PT) : (s.arrive t).ptOff = s.ptOff := by
  unfold State.arrive; split <;> rfl
@[simp] theorem State.arrive_tree (s : State) (t : PT) : (s.arrive t).tree = s.tree := by
  unfold State.arrive; split <;> rfl
@[simp] theorem State.arrive_ports (s : State) (t : PT) : (s.arrive t).ports = s.ports := by
  unfold State.arrive; split <;> rfl
@[simp] theorem State.arrive_meters (s : State) (t : PT) : (s.arrive t).meters = s.meters := by
  unfold State.arrive; split <;> rfl
@[simp] theorem State.arrive_account (s : State) (t : PT) : (s.arrive t).account = s.account := by
  unfold State.arrive; split <;> rfl
@[simp] theorem State.arrive_boot (s : State) (t : PT) : (s.arrive t).boot = s.boot := by
  unfold State.arrive; split <;> rfl
@[simp] theorem State.arrive_spdm (s : State) (t : PT) : (s.arrive t).spdm = s.spdm := by
  unfold State.arrive; split <;> rfl
@[simp] theorem State.arrive_tunnels (s : State) (t : PT) : (s.arrive t).tunnels = s.tunnels := by
  unfold State.arrive; split <;> rfl
@[simp] theorem State.arrive_tempOff (s : State) (t : PT) : (s.arrive t).tempOff = s.tempOff := by
  unfold State.arrive; split <;> rfl
@[simp] theorem State.arrive_readyOff (s : State) (t : PT) : (s.arrive t).readyOff = s.readyOff := by
  unfold State.arrive; split <;> rfl
@[simp] theorem State.arrive_free (s : State) (t : PT) : (s.arrive t).free = s.free := by
  unfold State.arrive; split <;> rfl

/-! ### Registers -/

/-- A register read depends on the registers and the variant alone. -/
theorem State.reg_congr {s u : State} (a : Nat) (h : u.regs = s.regs) (hv : u.variant = s.variant) : u.reg a = s.reg a := by
  simp [State.reg, h, hv]

@[simp] theorem State.reg_setReg_same (s : State) (a : Nat) (w : Word) : (s.setReg a w).reg a = w := by
  simp [State.reg, State.setReg]

theorem State.reg_setReg_ne (s : State) {a c : Nat} (w : Word) (h : c ≠ a) : (s.setReg a w).reg c = s.reg c := by
  simp [State.reg, State.setReg, mapGet_mapSet_ne _ _ _ h]

@[simp] theorem State.rd_wr_same (s : State) (a v : Nat) : (s.wr a v).rd a = v % 2 ^ 32 := by
  simp [State.rd, State.wr]

theorem State.rd_wr_ne (s : State) {a c : Nat} (v : Nat) (h : c ≠ a) : (s.wr a v).rd c = s.rd c := by
  simp [State.rd, State.wr, State.reg_setReg_ne s _ h]

theorem State.rd_lt (s : State) (a : Nat) : s.rd a < 2 ^ 32 := (s.reg a).isLt

theorem State.rd_setFld_ne (s : State) {a c : Nat} (lo len v : Nat) (h : c ≠ a) : (s.setFld a lo len v).rd c = s.rd c :=
  s.rd_wr_ne _ h

theorem State.rd_setBit_ne (s : State) {a c : Nat} (i : Nat) (b : Bool) (h : c ≠ a) : (s.setBit a i b).rd c = s.rd c :=
  s.rd_wr_ne _ h

theorem State.rd_bump_ne (s : State) {a c : Nat} (h : c ≠ a) : (s.bump a).rd c = s.rd c := s.rd_wr_ne _ h

/-- A saturating count after it goes up by one. -/
@[simp] theorem State.rd_bump_same (s : State) (a : Nat) : (s.bump a).rd a = satAdd (s.rd a) 1 := by
  unfold State.bump State.count
  rw [State.rd_wr_same]
  apply Nat.mod_eq_of_lt
  unfold satAdd
  omega

/-- A field just put in a register is read back. -/
theorem State.fld_setFld_same (s : State) (a lo len v : Nat) (h : lo + len ≤ 32) :
    (s.setFld a lo len v).fld a lo len = v % 2 ^ len := by
  unfold State.setFld State.fld
  rw [State.rd_wr_same, Nat.mod_eq_of_lt (putBits_lt _ _ _ _ (s.rd_lt a) h), bits_putBits_same]

/-- A bit just put in a register is read back. -/
theorem State.bit_setBit_same (s : State) (a i : Nat) (b : Bool) (h : i < 32) : (s.setBit a i b).bit a i = b := by
  unfold State.setBit State.setFld State.bit
  rw [State.rd_wr_same, Nat.mod_eq_of_lt (putBits_lt _ _ _ _ (s.rd_lt a) (by omega)), bitAt_putBit_same]

/-- Putting a bit of a register leaves its others alone. -/
theorem State.bit_setBit_ne (s : State) (a : Nat) {i j : Nat} (b : Bool) (h : i < 32) (hj : j ≠ i) :
    (s.setBit a i b).bit a j = s.bit a j := by
  unfold State.setBit State.setFld State.bit
  rw [State.rd_wr_same, Nat.mod_eq_of_lt (putBits_lt _ _ _ _ (s.rd_lt a) (by omega)), bitAt_putBit_ne _ _ hj]

theorem State.bit_congr {s u : State} (a i : Nat) (h : u.regs = s.regs) (hv : u.variant = s.variant) : u.bit a i = s.bit a i := by
  simp [State.bit, State.rd, State.reg_congr a h hv]

@[simp] theorem State.reg_latchHealth (s : State) (pg c : Nat) (a : Nat) : (s.latchHealth pg c).reg a = s.reg a := by
  apply State.reg_congr <;> simp
@[simp] theorem State.rd_latchHealth (s : State) (pg c : Nat) (a : Nat) : (s.latchHealth pg c).rd a = s.rd a := by
  simp [State.rd]
@[simp] theorem State.fld_latchHealth (s : State) (pg c : Nat) (a : Nat) (lo len : Nat) : (s.latchHealth pg c).fld a lo len = s.fld a lo len := by
  simp [State.fld]
@[simp] theorem State.bit_latchHealth (s : State) (pg c : Nat) (a : Nat) (j : Nat) : (s.latchHealth pg c).bit a j = s.bit a j := by
  simp [State.bit]
@[simp] theorem State.reg_category (s : State) (k b : Nat) (on : Bool) (a : Nat) : (s.category k b on).reg a = s.reg a := by
  apply State.reg_congr <;> simp
@[simp] theorem State.rd_category (s : State) (k b : Nat) (on : Bool) (a : Nat) : (s.category k b on).rd a = s.rd a := by
  simp [State.rd]
@[simp] theorem State.fld_category (s : State) (k b : Nat) (on : Bool) (a : Nat) (lo len : Nat) : (s.category k b on).fld a lo len = s.fld a lo len := by
  simp [State.fld]
@[simp] theorem State.bit_category (s : State) (k b : Nat) (on : Bool) (a : Nat) (j : Nat) : (s.category k b on).bit a j = s.bit a j := by
  simp [State.bit]
@[simp] theorem State.reg_fire (s : State) (v : Nat) (a : Nat) : (s.fire v).reg a = s.reg a := by
  apply State.reg_congr <;> simp
@[simp] theorem State.rd_fire (s : State) (v : Nat) (a : Nat) : (s.fire v).rd a = s.rd a := by
  simp [State.rd]
@[simp] theorem State.fld_fire (s : State) (v : Nat) (a : Nat) (lo len : Nat) : (s.fire v).fld a lo len = s.fld a lo len := by
  simp [State.fld]
@[simp] theorem State.bit_fire (s : State) (v : Nat) (a : Nat) (j : Nat) : (s.fire v).bit a j = s.bit a j := by
  simp [State.bit]
@[simp] theorem State.reg_record (s : State) (pt w d g : Nat) (a : Nat) : (s.record pt w d g).reg a = s.reg a := by
  apply State.reg_congr <;> simp
@[simp] theorem State.rd_record (s : State) (pt w d g : Nat) (a : Nat) : (s.record pt w d g).rd a = s.rd a := by
  simp [State.rd]
@[simp] theorem State.fld_record (s : State) (pt w d g : Nat) (a : Nat) (lo len : Nat) : (s.record pt w d g).fld a lo len = s.fld a lo len := by
  simp [State.fld]
@[simp] theorem State.bit_record (s : State) (pt w d g : Nat) (a : Nat) (j : Nat) : (s.record pt w d g).bit a j = s.bit a j := by
  simp [State.bit]
@[simp] theorem State.reg_raiseAt (s : State) (pg i pt d : Nat) (f : Bool) (a : Nat) : (s.raiseAt pg i pt d f).reg a = s.reg a := by
  apply State.reg_congr <;> simp
@[simp] theorem State.rd_raiseAt (s : State) (pg i pt d : Nat) (f : Bool) (a : Nat) : (s.raiseAt pg i pt d f).rd a = s.rd a := by
  simp [State.rd]
@[simp] theorem State.fld_raiseAt (s : State) (pg i pt d : Nat) (f : Bool) (a : Nat) (lo len : Nat) : (s.raiseAt pg i pt d f).fld a lo len = s.fld a lo len := by
  simp [State.fld]
@[simp] theorem State.bit_raiseAt (s : State) (pg i pt d : Nat) (f : Bool) (a : Nat) (j : Nat) : (s.raiseAt pg i pt d f).bit a j = s.bit a j := by
  simp [State.bit]
@[simp] theorem State.reg_raise (s : State) (pg i : Nat) (a : Nat) : (s.raise pg i).reg a = s.reg a := by
  apply State.reg_congr <;> simp
@[simp] theorem State.rd_raise (s : State) (pg i : Nat) (a : Nat) : (s.raise pg i).rd a = s.rd a := by
  simp [State.rd]
@[simp] theorem State.fld_raise (s : State) (pg i : Nat) (a : Nat) (lo len : Nat) : (s.raise pg i).fld a lo len = s.fld a lo len := by
  simp [State.fld]
@[simp] theorem State.bit_raise (s : State) (pg i : Nat) (a : Nat) (j : Nat) : (s.raise pg i).bit a j = s.bit a j := by
  simp [State.bit]
@[simp] theorem State.reg_standing (s : State) (pg k : Nat) (on : Bool) (a : Nat) : (s.standing pg k on).reg a = s.reg a := by
  apply State.reg_congr <;> simp
@[simp] theorem State.rd_standing (s : State) (pg k : Nat) (on : Bool) (a : Nat) : (s.standing pg k on).rd a = s.rd a := by
  simp [State.rd]
@[simp] theorem State.fld_standing (s : State) (pg k : Nat) (on : Bool) (a : Nat) (lo len : Nat) : (s.standing pg k on).fld a lo len = s.fld a lo len := by
  simp [State.fld]
@[simp] theorem State.bit_standing (s : State) (pg k : Nat) (on : Bool) (a : Nat) (j : Nat) : (s.standing pg k on).bit a j = s.bit a j := by
  simp [State.bit]
@[simp] theorem State.reg_settle (s : State) (a : Nat) : (s.settle).reg a = s.reg a := by
  apply State.reg_congr <;> simp
@[simp] theorem State.rd_settle (s : State) (a : Nat) : (s.settle).rd a = s.rd a := by
  simp [State.rd]
@[simp] theorem State.fld_settle (s : State) (a : Nat) (lo len : Nat) : (s.settle).fld a lo len = s.fld a lo len := by
  simp [State.fld]
@[simp] theorem State.bit_settle (s : State) (a : Nat) (j : Nat) : (s.settle).bit a j = s.bit a j := by
  simp [State.bit]
@[simp] theorem State.reg_arrive (s : State) (t : PT) (a : Nat) : (s.arrive t).reg a = s.reg a := by
  apply State.reg_congr <;> simp
@[simp] theorem State.rd_arrive (s : State) (t : PT) (a : Nat) : (s.arrive t).rd a = s.rd a := by
  simp [State.rd]
@[simp] theorem State.fld_arrive (s : State) (t : PT) (a : Nat) (lo len : Nat) : (s.arrive t).fld a lo len = s.fld a lo len := by
  simp [State.fld]
@[simp] theorem State.bit_arrive (s : State) (t : PT) (a : Nat) (j : Nat) : (s.arrive t).bit a j = s.bit a j := by
  simp [State.bit]

@[simp] theorem State.reg_keep (s s' : State) (a : Nat) (h : s'.variant = s.variant) : (s.keep s').reg a = s'.reg a := by
  simp [State.reg, h]
@[simp] theorem State.rd_keep (s s' : State) (a : Nat) (h : s'.variant = s.variant) : (s.keep s').rd a = s'.rd a := by
  simp [State.rd, h]
@[simp] theorem State.fld_keep (s s' : State) (a : Nat) (lo len : Nat) (h : s'.variant = s.variant) : (s.keep s').fld a lo len = s'.fld a lo len := by
  simp [State.fld, h]
@[simp] theorem State.bit_keep (s s' : State) (a : Nat) (j : Nat) (h : s'.variant = s.variant) : (s.keep s').bit a j = s'.bit a j := by
  simp [State.bit, h]
@[simp] theorem State.reg_keepMem (s s' : State) (a : Nat) (h : s'.variant = s.variant) : (s.keepMem s').reg a = s'.reg a := by
  simp [State.reg, h]
@[simp] theorem State.rd_keepMem (s s' : State) (a : Nat) (h : s'.variant = s.variant) : (s.keepMem s').rd a = s'.rd a := by
  simp [State.rd, h]
@[simp] theorem State.fld_keepMem (s s' : State) (a : Nat) (lo len : Nat) (h : s'.variant = s.variant) : (s.keepMem s').fld a lo len = s'.fld a lo len := by
  simp [State.fld, h]
@[simp] theorem State.bit_keepMem (s s' : State) (a : Nat) (j : Nat) (h : s'.variant = s.variant) : (s.keepMem s').bit a j = s'.bit a j := by
  simp [State.bit, h]

end Sys2Proof.Machine
end

