-- ==== Sys2Proof/Laws/Put.lean ====
section
/-!
SUPPORT. Laws/Put.lean: one lemma per field for each operation that puts a part of the state: what it leaves as it was, and the
registers through it.
-/

set_option Elab.async false

namespace Sys2Proof.Machine


/-! ### setEdge -/

@[simp] theorem State.setEdge_pending (s : State) (b ch : Nat) (x : EdgeSt) : (s.setEdge b ch x).pending = s.pending := rfl
@[simp] theorem State.setEdge_variant (s : State) (b ch : Nat) (x : EdgeSt) : (s.setEdge b ch x).variant = s.variant := rfl
@[simp] theorem State.setEdge_clk (s : State) (b ch : Nat) (x : EdgeSt) : (s.setEdge b ch x).clk = s.clk := rfl
@[simp] theorem State.setEdge_regs (s : State) (b ch : Nat) (x : EdgeSt) : (s.setEdge b ch x).regs = s.regs := rfl
@[simp] theorem State.setEdge_shadow (s : State) (b ch : Nat) (x : EdgeSt) : (s.setEdge b ch x).shadow = s.shadow := rfl
@[simp] theorem State.setEdge_dirty (s : State) (b ch : Nat) (x : EdgeSt) : (s.setEdge b ch x).dirty = s.dirty := rfl
@[simp] theorem State.setEdge_latch (s : State) (b ch : Nat) (x : EdgeSt) : (s.setEdge b ch x).latch = s.latch := rfl
@[simp] theorem State.setEdge_hold (s : State) (b ch : Nat) (x : EdgeSt) : (s.setEdge b ch x).hold = s.hold := rfl
@[simp] theorem State.setEdge_commits (s : State) (b ch : Nat) (x : EdgeSt) : (s.setEdge b ch x).commits = s.commits := rfl
@[simp] theorem State.setEdge_ev (s : State) (b ch : Nat) (x : EdgeSt) : (s.setEdge b ch x).ev = s.ev := rfl
@[simp] theorem State.setEdge_mem (s : State) (b ch : Nat) (x : EdgeSt) : (s.setEdge b ch x).mem = s.mem := rfl
@[simp] theorem State.setEdge_poison (s : State) (b ch : Nat) (x : EdgeSt) : (s.setEdge b ch x).poison = s.poison := rfl
@[simp] theorem State.setEdge_queues (s : State) (b ch : Nat) (x : EdgeSt) : (s.setEdge b ch x).queues = s.queues := rfl
@[simp] theorem State.setEdge_flight (s : State) (b ch : Nat) (x : EdgeSt) : (s.setEdge b ch x).flight = s.flight := rfl
@[simp] theorem State.setEdge_seqs (s : State) (b ch : Nat) (x : EdgeSt) : (s.setEdge b ch x).seqs = s.seqs := rfl
@[simp] theorem State.setEdge_barriers (s : State) (b ch : Nat) (x : EdgeSt) : (s.setEdge b ch x).barriers = s.barriers := rfl
@[simp] theorem State.setEdge_verdicts (s : State) (b ch : Nat) (x : EdgeSt) : (s.setEdge b ch x).verdicts = s.verdicts := rfl
@[simp] theorem State.setEdge_serial (s : State) (b ch : Nat) (x : EdgeSt) : (s.setEdge b ch x).serial = s.serial := rfl
@[simp] theorem State.setEdge_ridge (s : State) (b ch : Nat) (x : EdgeSt) : (s.setEdge b ch x).ridge = s.ridge := rfl
@[simp] theorem State.setEdge_pkgNum (s : State) (b ch : Nat) (x : EdgeSt) : (s.setEdge b ch x).pkgNum = s.pkgNum := rfl
@[simp] theorem State.setEdge_ptGen (s : State) (b ch : Nat) (x : EdgeSt) : (s.setEdge b ch x).ptGen = s.ptGen := rfl
@[simp] theorem State.setEdge_dmas (s : State) (b ch : Nat) (x : EdgeSt) : (s.setEdge b ch x).dmas = s.dmas := rfl
@[simp] theorem State.setEdge_tones (s : State) (b ch : Nat) (x : EdgeSt) : (s.setEdge b ch x).tones = s.tones := rfl
@[simp] theorem State.setEdge_touched (s : State) (b ch : Nat) (x : EdgeSt) : (s.setEdge b ch x).touched = s.touched := rfl
@[simp] theorem State.setEdge_dacHold (s : State) (b ch : Nat) (x : EdgeSt) : (s.setEdge b ch x).dacHold = s.dacHold := rfl
@[simp] theorem State.setEdge_dacAt (s : State) (b ch : Nat) (x : EdgeSt) : (s.setEdge b ch x).dacAt = s.dacAt := rfl
@[simp] theorem State.setEdge_streams (s : State) (b ch : Nat) (x : EdgeSt) : (s.setEdge b ch x).streams = s.streams := rfl
@[simp] theorem State.setEdge_failLog (s : State) (b ch : Nat) (x : EdgeSt) : (s.setEdge b ch x).failLog = s.failLog := rfl
@[simp] theorem State.setEdge_caps (s : State) (b ch : Nat) (x : EdgeSt) : (s.setEdge b ch x).caps = s.caps := rfl
@[simp] theorem State.setEdge_vseen (s : State) (b ch : Nat) (x : EdgeSt) : (s.setEdge b ch x).vseen = s.vseen := rfl
@[simp] theorem State.setEdge_tius (s : State) (b ch : Nat) (x : EdgeSt) : (s.setEdge b ch x).tius = s.tius := rfl
@[simp] theorem State.setEdge_fres (s : State) (b ch : Nat) (x : EdgeSt) : (s.setEdge b ch x).fres = s.fres := rfl
@[simp] theorem State.setEdge_stampIns (s : State) (b ch : Nat) (x : EdgeSt) : (s.setEdge b ch x).stampIns = s.stampIns := rfl
@[simp] theorem State.setEdge_edgeStamp (s : State) (b ch : Nat) (x : EdgeSt) : (s.setEdge b ch x).edgeStamp = s.edgeStamp := rfl
@[simp] theorem State.setEdge_recGap (s : State) (b ch : Nat) (x : EdgeSt) : (s.setEdge b ch x).recGap = s.recGap := rfl
@[simp] theorem State.setEdge_signQ (s : State) (b ch : Nat) (x : EdgeSt) : (s.setEdge b ch x).signQ = s.signQ := rfl
@[simp] theorem State.setEdge_signSeq (s : State) (b ch : Nat) (x : EdgeSt) : (s.setEdge b ch x).signSeq = s.signSeq := rfl
@[simp] theorem State.setEdge_recHeld (s : State) (b ch : Nat) (x : EdgeSt) : (s.setEdge b ch x).recHeld = s.recHeld := rfl
@[simp] theorem State.setEdge_drainPt (s : State) (b ch : Nat) (x : EdgeSt) : (s.setEdge b ch x).drainPt = s.drainPt := rfl
@[simp] theorem State.setEdge_wakes (s : State) (b ch : Nat) (x : EdgeSt) : (s.setEdge b ch x).wakes = s.wakes := rfl
@[simp] theorem State.setEdge_cals (s : State) (b ch : Nat) (x : EdgeSt) : (s.setEdge b ch x).cals = s.cals := rfl
@[simp] theorem State.setEdge_calInsts (s : State) (b ch : Nat) (x : EdgeSt) : (s.setEdge b ch x).calInsts = s.calInsts := rfl
@[simp] theorem State.setEdge_tb (s : State) (b ch : Nat) (x : EdgeSt) : (s.setEdge b ch x).tb = s.tb := rfl
@[simp] theorem State.setEdge_sills (s : State) (b ch : Nat) (x : EdgeSt) : (s.setEdge b ch x).sills = s.sills := rfl
@[simp] theorem State.setEdge_takeovers (s : State) (b ch : Nat) (x : EdgeSt) : (s.setEdge b ch x).takeovers = s.takeovers := rfl
@[simp] theorem State.setEdge_souts (s : State) (b ch : Nat) (x : EdgeSt) : (s.setEdge b ch x).souts = s.souts := rfl
@[simp] theorem State.setEdge_ptOff (s : State) (b ch : Nat) (x : EdgeSt) : (s.setEdge b ch x).ptOff = s.ptOff := rfl
@[simp] theorem State.setEdge_tree (s : State) (b ch : Nat) (x : EdgeSt) : (s.setEdge b ch x).tree = s.tree := rfl
@[simp] theorem State.setEdge_ports (s : State) (b ch : Nat) (x : EdgeSt) : (s.setEdge b ch x).ports = s.ports := rfl
@[simp] theorem State.setEdge_meters (s : State) (b ch : Nat) (x : EdgeSt) : (s.setEdge b ch x).meters = s.meters := rfl
@[simp] theorem State.setEdge_account (s : State) (b ch : Nat) (x : EdgeSt) : (s.setEdge b ch x).account = s.account := rfl
@[simp] theorem State.setEdge_boot (s : State) (b ch : Nat) (x : EdgeSt) : (s.setEdge b ch x).boot = s.boot := rfl
@[simp] theorem State.setEdge_spdm (s : State) (b ch : Nat) (x : EdgeSt) : (s.setEdge b ch x).spdm = s.spdm := rfl
@[simp] theorem State.setEdge_tunnels (s : State) (b ch : Nat) (x : EdgeSt) : (s.setEdge b ch x).tunnels = s.tunnels := rfl
@[simp] theorem State.setEdge_tempOff (s : State) (b ch : Nat) (x : EdgeSt) : (s.setEdge b ch x).tempOff = s.tempOff := rfl
@[simp] theorem State.setEdge_readyOff (s : State) (b ch : Nat) (x : EdgeSt) : (s.setEdge b ch x).readyOff = s.readyOff := rfl
@[simp] theorem State.setEdge_free (s : State) (b ch : Nat) (x : EdgeSt) : (s.setEdge b ch x).free = s.free := rfl
@[simp] theorem State.reg_setEdge (s : State) (b ch : Nat) (x : EdgeSt) (a : Nat) : (s.setEdge b ch x).reg a = s.reg a := rfl
@[simp] theorem State.rd_setEdge (s : State) (b ch : Nat) (x : EdgeSt) (a : Nat) : (s.setEdge b ch x).rd a = s.rd a := rfl
@[simp] theorem State.fld_setEdge (s : State) (b ch : Nat) (x : EdgeSt) (a lo len : Nat) : (s.setEdge b ch x).fld a lo len = s.fld a lo len := rfl
@[simp] theorem State.bit_setEdge (s : State) (b ch : Nat) (x : EdgeSt) (a j : Nat) : (s.setEdge b ch x).bit a j = s.bit a j := rfl

/-! ### setQueue -/

@[simp] theorem State.setQueue_pending (s : State) (lane : Nat) (x : List Peg) : (s.setQueue lane x).pending = s.pending := rfl
@[simp] theorem State.setQueue_variant (s : State) (lane : Nat) (x : List Peg) : (s.setQueue lane x).variant = s.variant := rfl
@[simp] theorem State.setQueue_clk (s : State) (lane : Nat) (x : List Peg) : (s.setQueue lane x).clk = s.clk := rfl
@[simp] theorem State.setQueue_regs (s : State) (lane : Nat) (x : List Peg) : (s.setQueue lane x).regs = s.regs := rfl
@[simp] theorem State.setQueue_shadow (s : State) (lane : Nat) (x : List Peg) : (s.setQueue lane x).shadow = s.shadow := rfl
@[simp] theorem State.setQueue_dirty (s : State) (lane : Nat) (x : List Peg) : (s.setQueue lane x).dirty = s.dirty := rfl
@[simp] theorem State.setQueue_latch (s : State) (lane : Nat) (x : List Peg) : (s.setQueue lane x).latch = s.latch := rfl
@[simp] theorem State.setQueue_hold (s : State) (lane : Nat) (x : List Peg) : (s.setQueue lane x).hold = s.hold := rfl
@[simp] theorem State.setQueue_commits (s : State) (lane : Nat) (x : List Peg) : (s.setQueue lane x).commits = s.commits := rfl
@[simp] theorem State.setQueue_ev (s : State) (lane : Nat) (x : List Peg) : (s.setQueue lane x).ev = s.ev := rfl
@[simp] theorem State.setQueue_mem (s : State) (lane : Nat) (x : List Peg) : (s.setQueue lane x).mem = s.mem := rfl
@[simp] theorem State.setQueue_poison (s : State) (lane : Nat) (x : List Peg) : (s.setQueue lane x).poison = s.poison := rfl
@[simp] theorem State.setQueue_flight (s : State) (lane : Nat) (x : List Peg) : (s.setQueue lane x).flight = s.flight := rfl
@[simp] theorem State.setQueue_edges (s : State) (lane : Nat) (x : List Peg) : (s.setQueue lane x).edges = s.edges := rfl
@[simp] theorem State.setQueue_seqs (s : State) (lane : Nat) (x : List Peg) : (s.setQueue lane x).seqs = s.seqs := rfl
@[simp] theorem State.setQueue_barriers (s : State) (lane : Nat) (x : List Peg) : (s.setQueue lane x).barriers = s.barriers := rfl
@[simp] theorem State.setQueue_verdicts (s : State) (lane : Nat) (x : List Peg) : (s.setQueue lane x).verdicts = s.verdicts := rfl
@[simp] theorem State.setQueue_serial (s : State) (lane : Nat) (x : List Peg) : (s.setQueue lane x).serial = s.serial := rfl
@[simp] theorem State.setQueue_ridge (s : State) (lane : Nat) (x : List Peg) : (s.setQueue lane x).ridge = s.ridge := rfl
@[simp] theorem State.setQueue_pkgNum (s : State) (lane : Nat) (x : List Peg) : (s.setQueue lane x).pkgNum = s.pkgNum := rfl
@[simp] theorem State.setQueue_ptGen (s : State) (lane : Nat) (x : List Peg) : (s.setQueue lane x).ptGen = s.ptGen := rfl
@[simp] theorem State.setQueue_dmas (s : State) (lane : Nat) (x : List Peg) : (s.setQueue lane x).dmas = s.dmas := rfl
@[simp] theorem State.setQueue_tones (s : State) (lane : Nat) (x : List Peg) : (s.setQueue lane x).tones = s.tones := rfl
@[simp] theorem State.setQueue_dacHold (s : State) (lane : Nat) (x : List Peg) : (s.setQueue lane x).dacHold = s.dacHold := rfl
@[simp] theorem State.setQueue_dacAt (s : State) (lane : Nat) (x : List Peg) : (s.setQueue lane x).dacAt = s.dacAt := rfl
@[simp] theorem State.setQueue_streams (s : State) (lane : Nat) (x : List Peg) : (s.setQueue lane x).streams = s.streams := rfl
@[simp] theorem State.setQueue_failLog (s : State) (lane : Nat) (x : List Peg) : (s.setQueue lane x).failLog = s.failLog := rfl
@[simp] theorem State.setQueue_caps (s : State) (lane : Nat) (x : List Peg) : (s.setQueue lane x).caps = s.caps := rfl
@[simp] theorem State.setQueue_vseen (s : State) (lane : Nat) (x : List Peg) : (s.setQueue lane x).vseen = s.vseen := rfl
@[simp] theorem State.setQueue_tius (s : State) (lane : Nat) (x : List Peg) : (s.setQueue lane x).tius = s.tius := rfl
@[simp] theorem State.setQueue_fres (s : State) (lane : Nat) (x : List Peg) : (s.setQueue lane x).fres = s.fres := rfl
@[simp] theorem State.setQueue_stampIns (s : State) (lane : Nat) (x : List Peg) : (s.setQueue lane x).stampIns = s.stampIns := rfl
@[simp] theorem State.setQueue_edgeStamp (s : State) (lane : Nat) (x : List Peg) : (s.setQueue lane x).edgeStamp = s.edgeStamp := rfl
@[simp] theorem State.setQueue_recGap (s : State) (lane : Nat) (x : List Peg) : (s.setQueue lane x).recGap = s.recGap := rfl
@[simp] theorem State.setQueue_signQ (s : State) (lane : Nat) (x : List Peg) : (s.setQueue lane x).signQ = s.signQ := rfl
@[simp] theorem State.setQueue_signSeq (s : State) (lane : Nat) (x : List Peg) : (s.setQueue lane x).signSeq = s.signSeq := rfl
@[simp] theorem State.setQueue_recHeld (s : State) (lane : Nat) (x : List Peg) : (s.setQueue lane x).recHeld = s.recHeld := rfl
@[simp] theorem State.setQueue_drainPt (s : State) (lane : Nat) (x : List Peg) : (s.setQueue lane x).drainPt = s.drainPt := rfl
@[simp] theorem State.setQueue_wakes (s : State) (lane : Nat) (x : List Peg) : (s.setQueue lane x).wakes = s.wakes := rfl
@[simp] theorem State.setQueue_cals (s : State) (lane : Nat) (x : List Peg) : (s.setQueue lane x).cals = s.cals := rfl
@[simp] theorem State.setQueue_calInsts (s : State) (lane : Nat) (x : List Peg) : (s.setQueue lane x).calInsts = s.calInsts := rfl
@[simp] theorem State.setQueue_tb (s : State) (lane : Nat) (x : List Peg) : (s.setQueue lane x).tb = s.tb := rfl
@[simp] theorem State.setQueue_sills (s : State) (lane : Nat) (x : List Peg) : (s.setQueue lane x).sills = s.sills := rfl
@[simp] theorem State.setQueue_takeovers (s : State) (lane : Nat) (x : List Peg) : (s.setQueue lane x).takeovers = s.takeovers := rfl
@[simp] theorem State.setQueue_souts (s : State) (lane : Nat) (x : List Peg) : (s.setQueue lane x).souts = s.souts := rfl
@[simp] theorem State.setQueue_ptOff (s : State) (lane : Nat) (x : List Peg) : (s.setQueue lane x).ptOff = s.ptOff := rfl
@[simp] theorem State.setQueue_tree (s : State) (lane : Nat) (x : List Peg) : (s.setQueue lane x).tree = s.tree := rfl
@[simp] theorem State.setQueue_ports (s : State) (lane : Nat) (x : List Peg) : (s.setQueue lane x).ports = s.ports := rfl
@[simp] theorem State.setQueue_meters (s : State) (lane : Nat) (x : List Peg) : (s.setQueue lane x).meters = s.meters := rfl
@[simp] theorem State.setQueue_account (s : State) (lane : Nat) (x : List Peg) : (s.setQueue lane x).account = s.account := rfl
@[simp] theorem State.setQueue_boot (s : State) (lane : Nat) (x : List Peg) : (s.setQueue lane x).boot = s.boot := rfl
@[simp] theorem State.setQueue_spdm (s : State) (lane : Nat) (x : List Peg) : (s.setQueue lane x).spdm = s.spdm := rfl
@[simp] theorem State.setQueue_tunnels (s : State) (lane : Nat) (x : List Peg) : (s.setQueue lane x).tunnels = s.tunnels := rfl
@[simp] theorem State.setQueue_tempOff (s : State) (lane : Nat) (x : List Peg) : (s.setQueue lane x).tempOff = s.tempOff := rfl
@[simp] theorem State.setQueue_readyOff (s : State) (lane : Nat) (x : List Peg) : (s.setQueue lane x).readyOff = s.readyOff := rfl
@[simp] theorem State.setQueue_free (s : State) (lane : Nat) (x : List Peg) : (s.setQueue lane x).free = s.free := rfl
@[simp] theorem State.reg_setQueue (s : State) (lane : Nat) (x : List Peg) (a : Nat) : (s.setQueue lane x).reg a = s.reg a := rfl
@[simp] theorem State.rd_setQueue (s : State) (lane : Nat) (x : List Peg) (a : Nat) : (s.setQueue lane x).rd a = s.rd a := rfl
@[simp] theorem State.fld_setQueue (s : State) (lane : Nat) (x : List Peg) (a lo len : Nat) : (s.setQueue lane x).fld a lo len = s.fld a lo len := rfl
@[simp] theorem State.bit_setQueue (s : State) (lane : Nat) (x : List Peg) (a j : Nat) : (s.setQueue lane x).bit a j = s.bit a j := rfl

/-! ### setFlight -/

@[simp] theorem State.setFlight_pending (s : State) (lane : Nat) (x : List Peg) : (s.setFlight lane x).pending = s.pending := rfl
@[simp] theorem State.setFlight_variant (s : State) (lane : Nat) (x : List Peg) : (s.setFlight lane x).variant = s.variant := rfl
@[simp] theorem State.setFlight_clk (s : State) (lane : Nat) (x : List Peg) : (s.setFlight lane x).clk = s.clk := rfl
@[simp] theorem State.setFlight_regs (s : State) (lane : Nat) (x : List Peg) : (s.setFlight lane x).regs = s.regs := rfl
@[simp] theorem State.setFlight_shadow (s : State) (lane : Nat) (x : List Peg) : (s.setFlight lane x).shadow = s.shadow := rfl
@[simp] theorem State.setFlight_dirty (s : State) (lane : Nat) (x : List Peg) : (s.setFlight lane x).dirty = s.dirty := rfl
@[simp] theorem State.setFlight_latch (s : State) (lane : Nat) (x : List Peg) : (s.setFlight lane x).latch = s.latch := rfl
@[simp] theorem State.setFlight_hold (s : State) (lane : Nat) (x : List Peg) : (s.setFlight lane x).hold = s.hold := rfl
@[simp] theorem State.setFlight_commits (s : State) (lane : Nat) (x : List Peg) : (s.setFlight lane x).commits = s.commits := rfl
@[simp] theorem State.setFlight_ev (s : State) (lane : Nat) (x : List Peg) : (s.setFlight lane x).ev = s.ev := rfl
@[simp] theorem State.setFlight_mem (s : State) (lane : Nat) (x : List Peg) : (s.setFlight lane x).mem = s.mem := rfl
@[simp] theorem State.setFlight_poison (s : State) (lane : Nat) (x : List Peg) : (s.setFlight lane x).poison = s.poison := rfl
@[simp] theorem State.setFlight_queues (s : State) (lane : Nat) (x : List Peg) : (s.setFlight lane x).queues = s.queues := rfl
@[simp] theorem State.setFlight_edges (s : State) (lane : Nat) (x : List Peg) : (s.setFlight lane x).edges = s.edges := rfl
@[simp] theorem State.setFlight_seqs (s : State) (lane : Nat) (x : List Peg) : (s.setFlight lane x).seqs = s.seqs := rfl
@[simp] theorem State.setFlight_barriers (s : State) (lane : Nat) (x : List Peg) : (s.setFlight lane x).barriers = s.barriers := rfl
@[simp] theorem State.setFlight_verdicts (s : State) (lane : Nat) (x : List Peg) : (s.setFlight lane x).verdicts = s.verdicts := rfl
@[simp] theorem State.setFlight_serial (s : State) (lane : Nat) (x : List Peg) : (s.setFlight lane x).serial = s.serial := rfl
@[simp] theorem State.setFlight_ridge (s : State) (lane : Nat) (x : List Peg) : (s.setFlight lane x).ridge = s.ridge := rfl
@[simp] theorem State.setFlight_pkgNum (s : State) (lane : Nat) (x : List Peg) : (s.setFlight lane x).pkgNum = s.pkgNum := rfl
@[simp] theorem State.setFlight_ptGen (s : State) (lane : Nat) (x : List Peg) : (s.setFlight lane x).ptGen = s.ptGen := rfl
@[simp] theorem State.setFlight_dmas (s : State) (lane : Nat) (x : List Peg) : (s.setFlight lane x).dmas = s.dmas := rfl
@[simp] theorem State.setFlight_tones (s : State) (lane : Nat) (x : List Peg) : (s.setFlight lane x).tones = s.tones := rfl
@[simp] theorem State.setFlight_touched (s : State) (lane : Nat) (x : List Peg) : (s.setFlight lane x).touched = s.touched := rfl
@[simp] theorem State.setFlight_dacHold (s : State) (lane : Nat) (x : List Peg) : (s.setFlight lane x).dacHold = s.dacHold := rfl
@[simp] theorem State.setFlight_dacAt (s : State) (lane : Nat) (x : List Peg) : (s.setFlight lane x).dacAt = s.dacAt := rfl
@[simp] theorem State.setFlight_streams (s : State) (lane : Nat) (x : List Peg) : (s.setFlight lane x).streams = s.streams := rfl
@[simp] theorem State.setFlight_failLog (s : State) (lane : Nat) (x : List Peg) : (s.setFlight lane x).failLog = s.failLog := rfl
@[simp] theorem State.setFlight_caps (s : State) (lane : Nat) (x : List Peg) : (s.setFlight lane x).caps = s.caps := rfl
@[simp] theorem State.setFlight_vseen (s : State) (lane : Nat) (x : List Peg) : (s.setFlight lane x).vseen = s.vseen := rfl
@[simp] theorem State.setFlight_tius (s : State) (lane : Nat) (x : List Peg) : (s.setFlight lane x).tius = s.tius := rfl
@[simp] theorem State.setFlight_fres (s : State) (lane : Nat) (x : List Peg) : (s.setFlight lane x).fres = s.fres := rfl
@[simp] theorem State.setFlight_stampIns (s : State) (lane : Nat) (x : List Peg) : (s.setFlight lane x).stampIns = s.stampIns := rfl
@[simp] theorem State.setFlight_edgeStamp (s : State) (lane : Nat) (x : List Peg) : (s.setFlight lane x).edgeStamp = s.edgeStamp := rfl
@[simp] theorem State.setFlight_recGap (s : State) (lane : Nat) (x : List Peg) : (s.setFlight lane x).recGap = s.recGap := rfl
@[simp] theorem State.setFlight_signQ (s : State) (lane : Nat) (x : List Peg) : (s.setFlight lane x).signQ = s.signQ := rfl
@[simp] theorem State.setFlight_signSeq (s : State) (lane : Nat) (x : List Peg) : (s.setFlight lane x).signSeq = s.signSeq := rfl
@[simp] theorem State.setFlight_recHeld (s : State) (lane : Nat) (x : List Peg) : (s.setFlight lane x).recHeld = s.recHeld := rfl
@[simp] theorem State.setFlight_drainPt (s : State) (lane : Nat) (x : List Peg) : (s.setFlight lane x).drainPt = s.drainPt := rfl
@[simp] theorem State.setFlight_wakes (s : State) (lane : Nat) (x : List Peg) : (s.setFlight lane x).wakes = s.wakes := rfl
@[simp] theorem State.setFlight_cals (s : State) (lane : Nat) (x : List Peg) : (s.setFlight lane x).cals = s.cals := rfl
@[simp] theorem State.setFlight_calInsts (s : State) (lane : Nat) (x : List Peg) : (s.setFlight lane x).calInsts = s.calInsts := rfl
@[simp] theorem State.setFlight_tb (s : State) (lane : Nat) (x : List Peg) : (s.setFlight lane x).tb = s.tb := rfl
@[simp] theorem State.setFlight_sills (s : State) (lane : Nat) (x : List Peg) : (s.setFlight lane x).sills = s.sills := rfl
@[simp] theorem State.setFlight_takeovers (s : State) (lane : Nat) (x : List Peg) : (s.setFlight lane x).takeovers = s.takeovers := rfl
@[simp] theorem State.setFlight_souts (s : State) (lane : Nat) (x : List Peg) : (s.setFlight lane x).souts = s.souts := rfl
@[simp] theorem State.setFlight_ptOff (s : State) (lane : Nat) (x : List Peg) : (s.setFlight lane x).ptOff = s.ptOff := rfl
@[simp] theorem State.setFlight_tree (s : State) (lane : Nat) (x : List Peg) : (s.setFlight lane x).tree = s.tree := rfl
@[simp] theorem State.setFlight_ports (s : State) (lane : Nat) (x : List Peg) : (s.setFlight lane x).ports = s.ports := rfl
@[simp] theorem State.setFlight_meters (s : State) (lane : Nat) (x : List Peg) : (s.setFlight lane x).meters = s.meters := rfl
@[simp] theorem State.setFlight_account (s : State) (lane : Nat) (x : List Peg) : (s.setFlight lane x).account = s.account := rfl
@[simp] theorem State.setFlight_boot (s : State) (lane : Nat) (x : List Peg) : (s.setFlight lane x).boot = s.boot := rfl
@[simp] theorem State.setFlight_spdm (s : State) (lane : Nat) (x : List Peg) : (s.setFlight lane x).spdm = s.spdm := rfl
@[simp] theorem State.setFlight_tunnels (s : State) (lane : Nat) (x : List Peg) : (s.setFlight lane x).tunnels = s.tunnels := rfl
@[simp] theorem State.setFlight_tempOff (s : State) (lane : Nat) (x : List Peg) : (s.setFlight lane x).tempOff = s.tempOff := rfl
@[simp] theorem State.setFlight_readyOff (s : State) (lane : Nat) (x : List Peg) : (s.setFlight lane x).readyOff = s.readyOff := rfl
@[simp] theorem State.setFlight_free (s : State) (lane : Nat) (x : List Peg) : (s.setFlight lane x).free = s.free := rfl
@[simp] theorem State.reg_setFlight (s : State) (lane : Nat) (x : List Peg) (a : Nat) : (s.setFlight lane x).reg a = s.reg a := rfl
@[simp] theorem State.rd_setFlight (s : State) (lane : Nat) (x : List Peg) (a : Nat) : (s.setFlight lane x).rd a = s.rd a := rfl
@[simp] theorem State.fld_setFlight (s : State) (lane : Nat) (x : List Peg) (a lo len : Nat) : (s.setFlight lane x).fld a lo len = s.fld a lo len := rfl
@[simp] theorem State.bit_setFlight (s : State) (lane : Nat) (x : List Peg) (a j : Nat) : (s.setFlight lane x).bit a j = s.bit a j := rfl

/-! ### setSeq -/

@[simp] theorem State.setSeq_pending (s : State) (k : Nat) (x : SeqSt) : (s.setSeq k x).pending = s.pending := rfl
@[simp] theorem State.setSeq_variant (s : State) (k : Nat) (x : SeqSt) : (s.setSeq k x).variant = s.variant := rfl
@[simp] theorem State.setSeq_clk (s : State) (k : Nat) (x : SeqSt) : (s.setSeq k x).clk = s.clk := rfl
@[simp] theorem State.setSeq_regs (s : State) (k : Nat) (x : SeqSt) : (s.setSeq k x).regs = s.regs := rfl
@[simp] theorem State.setSeq_shadow (s : State) (k : Nat) (x : SeqSt) : (s.setSeq k x).shadow = s.shadow := rfl
@[simp] theorem State.setSeq_dirty (s : State) (k : Nat) (x : SeqSt) : (s.setSeq k x).dirty = s.dirty := rfl
@[simp] theorem State.setSeq_latch (s : State) (k : Nat) (x : SeqSt) : (s.setSeq k x).latch = s.latch := rfl
@[simp] theorem State.setSeq_hold (s : State) (k : Nat) (x : SeqSt) : (s.setSeq k x).hold = s.hold := rfl
@[simp] theorem State.setSeq_commits (s : State) (k : Nat) (x : SeqSt) : (s.setSeq k x).commits = s.commits := rfl
@[simp] theorem State.setSeq_ev (s : State) (k : Nat) (x : SeqSt) : (s.setSeq k x).ev = s.ev := rfl
@[simp] theorem State.setSeq_mem (s : State) (k : Nat) (x : SeqSt) : (s.setSeq k x).mem = s.mem := rfl
@[simp] theorem State.setSeq_poison (s : State) (k : Nat) (x : SeqSt) : (s.setSeq k x).poison = s.poison := rfl
@[simp] theorem State.setSeq_queues (s : State) (k : Nat) (x : SeqSt) : (s.setSeq k x).queues = s.queues := rfl
@[simp] theorem State.setSeq_flight (s : State) (k : Nat) (x : SeqSt) : (s.setSeq k x).flight = s.flight := rfl
@[simp] theorem State.setSeq_edges (s : State) (k : Nat) (x : SeqSt) : (s.setSeq k x).edges = s.edges := rfl
@[simp] theorem State.setSeq_barriers (s : State) (k : Nat) (x : SeqSt) : (s.setSeq k x).barriers = s.barriers := rfl
@[simp] theorem State.setSeq_verdicts (s : State) (k : Nat) (x : SeqSt) : (s.setSeq k x).verdicts = s.verdicts := rfl
@[simp] theorem State.setSeq_serial (s : State) (k : Nat) (x : SeqSt) : (s.setSeq k x).serial = s.serial := rfl
@[simp] theorem State.setSeq_ridge (s : State) (k : Nat) (x : SeqSt) : (s.setSeq k x).ridge = s.ridge := rfl
@[simp] theorem State.setSeq_pkgNum (s : State) (k : Nat) (x : SeqSt) : (s.setSeq k x).pkgNum = s.pkgNum := rfl
@[simp] theorem State.setSeq_ptGen (s : State) (k : Nat) (x : SeqSt) : (s.setSeq k x).ptGen = s.ptGen := rfl
@[simp] theorem State.setSeq_dmas (s : State) (k : Nat) (x : SeqSt) : (s.setSeq k x).dmas = s.dmas := rfl
@[simp] theorem State.setSeq_tones (s : State) (k : Nat) (x : SeqSt) : (s.setSeq k x).tones = s.tones := rfl
@[simp] theorem State.setSeq_touched (s : State) (k : Nat) (x : SeqSt) : (s.setSeq k x).touched = s.touched := rfl
@[simp] theorem State.setSeq_dacHold (s : State) (k : Nat) (x : SeqSt) : (s.setSeq k x).dacHold = s.dacHold := rfl
@[simp] theorem State.setSeq_dacAt (s : State) (k : Nat) (x : SeqSt) : (s.setSeq k x).dacAt = s.dacAt := rfl
@[simp] theorem State.setSeq_streams (s : State) (k : Nat) (x : SeqSt) : (s.setSeq k x).streams = s.streams := rfl
@[simp] theorem State.setSeq_failLog (s : State) (k : Nat) (x : SeqSt) : (s.setSeq k x).failLog = s.failLog := rfl
@[simp] theorem State.setSeq_caps (s : State) (k : Nat) (x : SeqSt) : (s.setSeq k x).caps = s.caps := rfl
@[simp] theorem State.setSeq_vseen (s : State) (k : Nat) (x : SeqSt) : (s.setSeq k x).vseen = s.vseen := rfl
@[simp] theorem State.setSeq_tius (s : State) (k : Nat) (x : SeqSt) : (s.setSeq k x).tius = s.tius := rfl
@[simp] theorem State.setSeq_fres (s : State) (k : Nat) (x : SeqSt) : (s.setSeq k x).fres = s.fres := rfl
@[simp] theorem State.setSeq_stampIns (s : State) (k : Nat) (x : SeqSt) : (s.setSeq k x).stampIns = s.stampIns := rfl
@[simp] theorem State.setSeq_edgeStamp (s : State) (k : Nat) (x : SeqSt) : (s.setSeq k x).edgeStamp = s.edgeStamp := rfl
@[simp] theorem State.setSeq_recGap (s : State) (k : Nat) (x : SeqSt) : (s.setSeq k x).recGap = s.recGap := rfl
@[simp] theorem State.setSeq_signQ (s : State) (k : Nat) (x : SeqSt) : (s.setSeq k x).signQ = s.signQ := rfl
@[simp] theorem State.setSeq_signSeq (s : State) (k : Nat) (x : SeqSt) : (s.setSeq k x).signSeq = s.signSeq := rfl
@[simp] theorem State.setSeq_recHeld (s : State) (k : Nat) (x : SeqSt) : (s.setSeq k x).recHeld = s.recHeld := rfl
@[simp] theorem State.setSeq_drainPt (s : State) (k : Nat) (x : SeqSt) : (s.setSeq k x).drainPt = s.drainPt := rfl
@[simp] theorem State.setSeq_wakes (s : State) (k : Nat) (x : SeqSt) : (s.setSeq k x).wakes = s.wakes := rfl
@[simp] theorem State.setSeq_cals (s : State) (k : Nat) (x : SeqSt) : (s.setSeq k x).cals = s.cals := rfl
@[simp] theorem State.setSeq_calInsts (s : State) (k : Nat) (x : SeqSt) : (s.setSeq k x).calInsts = s.calInsts := rfl
@[simp] theorem State.setSeq_tb (s : State) (k : Nat) (x : SeqSt) : (s.setSeq k x).tb = s.tb := rfl
@[simp] theorem State.setSeq_sills (s : State) (k : Nat) (x : SeqSt) : (s.setSeq k x).sills = s.sills := rfl
@[simp] theorem State.setSeq_takeovers (s : State) (k : Nat) (x : SeqSt) : (s.setSeq k x).takeovers = s.takeovers := rfl
@[simp] theorem State.setSeq_souts (s : State) (k : Nat) (x : SeqSt) : (s.setSeq k x).souts = s.souts := rfl
@[simp] theorem State.setSeq_ptOff (s : State) (k : Nat) (x : SeqSt) : (s.setSeq k x).ptOff = s.ptOff := rfl
@[simp] theorem State.setSeq_tree (s : State) (k : Nat) (x : SeqSt) : (s.setSeq k x).tree = s.tree := rfl
@[simp] theorem State.setSeq_ports (s : State) (k : Nat) (x : SeqSt) : (s.setSeq k x).ports = s.ports := rfl
@[simp] theorem State.setSeq_meters (s : State) (k : Nat) (x : SeqSt) : (s.setSeq k x).meters = s.meters := rfl
@[simp] theorem State.setSeq_account (s : State) (k : Nat) (x : SeqSt) : (s.setSeq k x).account = s.account := rfl
@[simp] theorem State.setSeq_boot (s : State) (k : Nat) (x : SeqSt) : (s.setSeq k x).boot = s.boot := rfl
@[simp] theorem State.setSeq_spdm (s : State) (k : Nat) (x : SeqSt) : (s.setSeq k x).spdm = s.spdm := rfl
@[simp] theorem State.setSeq_tunnels (s : State) (k : Nat) (x : SeqSt) : (s.setSeq k x).tunnels = s.tunnels := rfl
@[simp] theorem State.setSeq_tempOff (s : State) (k : Nat) (x : SeqSt) : (s.setSeq k x).tempOff = s.tempOff := rfl
@[simp] theorem State.setSeq_readyOff (s : State) (k : Nat) (x : SeqSt) : (s.setSeq k x).readyOff = s.readyOff := rfl
@[simp] theorem State.setSeq_free (s : State) (k : Nat) (x : SeqSt) : (s.setSeq k x).free = s.free := rfl
@[simp] theorem State.reg_setSeq (s : State) (k : Nat) (x : SeqSt) (a : Nat) : (s.setSeq k x).reg a = s.reg a := rfl
@[simp] theorem State.rd_setSeq (s : State) (k : Nat) (x : SeqSt) (a : Nat) : (s.setSeq k x).rd a = s.rd a := rfl
@[simp] theorem State.fld_setSeq (s : State) (k : Nat) (x : SeqSt) (a lo len : Nat) : (s.setSeq k x).fld a lo len = s.fld a lo len := rfl
@[simp] theorem State.bit_setSeq (s : State) (k : Nat) (x : SeqSt) (a j : Nat) : (s.setSeq k x).bit a j = s.bit a j := rfl

/-! ### setTone -/

@[simp] theorem State.setTone_pending (s : State) (lane : Nat) (x : ToneSt) : (s.setTone lane x).pending = s.pending := rfl
@[simp] theorem State.setTone_variant (s : State) (lane : Nat) (x : ToneSt) : (s.setTone lane x).variant = s.variant := rfl
@[simp] theorem State.setTone_clk (s : State) (lane : Nat) (x : ToneSt) : (s.setTone lane x).clk = s.clk := rfl
@[simp] theorem State.setTone_regs (s : State) (lane : Nat) (x : ToneSt) : (s.setTone lane x).regs = s.regs := rfl
@[simp] theorem State.setTone_shadow (s : State) (lane : Nat) (x : ToneSt) : (s.setTone lane x).shadow = s.shadow := rfl
@[simp] theorem State.setTone_dirty (s : State) (lane : Nat) (x : ToneSt) : (s.setTone lane x).dirty = s.dirty := rfl
@[simp] theorem State.setTone_latch (s : State) (lane : Nat) (x : ToneSt) : (s.setTone lane x).latch = s.latch := rfl
@[simp] theorem State.setTone_hold (s : State) (lane : Nat) (x : ToneSt) : (s.setTone lane x).hold = s.hold := rfl
@[simp] theorem State.setTone_commits (s : State) (lane : Nat) (x : ToneSt) : (s.setTone lane x).commits = s.commits := rfl
@[simp] theorem State.setTone_ev (s : State) (lane : Nat) (x : ToneSt) : (s.setTone lane x).ev = s.ev := rfl
@[simp] theorem State.setTone_mem (s : State) (lane : Nat) (x : ToneSt) : (s.setTone lane x).mem = s.mem := rfl
@[simp] theorem State.setTone_poison (s : State) (lane : Nat) (x : ToneSt) : (s.setTone lane x).poison = s.poison := rfl
@[simp] theorem State.setTone_queues (s : State) (lane : Nat) (x : ToneSt) : (s.setTone lane x).queues = s.queues := rfl
@[simp] theorem State.setTone_flight (s : State) (lane : Nat) (x : ToneSt) : (s.setTone lane x).flight = s.flight := rfl
@[simp] theorem State.setTone_edges (s : State) (lane : Nat) (x : ToneSt) : (s.setTone lane x).edges = s.edges := rfl
@[simp] theorem State.setTone_seqs (s : State) (lane : Nat) (x : ToneSt) : (s.setTone lane x).seqs = s.seqs := rfl
@[simp] theorem State.setTone_barriers (s : State) (lane : Nat) (x : ToneSt) : (s.setTone lane x).barriers = s.barriers := rfl
@[simp] theorem State.setTone_verdicts (s : State) (lane : Nat) (x : ToneSt) : (s.setTone lane x).verdicts = s.verdicts := rfl
@[simp] theorem State.setTone_serial (s : State) (lane : Nat) (x : ToneSt) : (s.setTone lane x).serial = s.serial := rfl
@[simp] theorem State.setTone_ridge (s : State) (lane : Nat) (x : ToneSt) : (s.setTone lane x).ridge = s.ridge := rfl
@[simp] theorem State.setTone_pkgNum (s : State) (lane : Nat) (x : ToneSt) : (s.setTone lane x).pkgNum = s.pkgNum := rfl
@[simp] theorem State.setTone_ptGen (s : State) (lane : Nat) (x : ToneSt) : (s.setTone lane x).ptGen = s.ptGen := rfl
@[simp] theorem State.setTone_dmas (s : State) (lane : Nat) (x : ToneSt) : (s.setTone lane x).dmas = s.dmas := rfl
@[simp] theorem State.setTone_touched (s : State) (lane : Nat) (x : ToneSt) : (s.setTone lane x).touched = s.touched := rfl
@[simp] theorem State.setTone_dacHold (s : State) (lane : Nat) (x : ToneSt) : (s.setTone lane x).dacHold = s.dacHold := rfl
@[simp] theorem State.setTone_dacAt (s : State) (lane : Nat) (x : ToneSt) : (s.setTone lane x).dacAt = s.dacAt := rfl
@[simp] theorem State.setTone_streams (s : State) (lane : Nat) (x : ToneSt) : (s.setTone lane x).streams = s.streams := rfl
@[simp] theorem State.setTone_failLog (s : State) (lane : Nat) (x : ToneSt) : (s.setTone lane x).failLog = s.failLog := rfl
@[simp] theorem State.setTone_caps (s : State) (lane : Nat) (x : ToneSt) : (s.setTone lane x).caps = s.caps := rfl
@[simp] theorem State.setTone_vseen (s : State) (lane : Nat) (x : ToneSt) : (s.setTone lane x).vseen = s.vseen := rfl
@[simp] theorem State.setTone_tius (s : State) (lane : Nat) (x : ToneSt) : (s.setTone lane x).tius = s.tius := rfl
@[simp] theorem State.setTone_fres (s : State) (lane : Nat) (x : ToneSt) : (s.setTone lane x).fres = s.fres := rfl
@[simp] theorem State.setTone_stampIns (s : State) (lane : Nat) (x : ToneSt) : (s.setTone lane x).stampIns = s.stampIns := rfl
@[simp] theorem State.setTone_edgeStamp (s : State) (lane : Nat) (x : ToneSt) : (s.setTone lane x).edgeStamp = s.edgeStamp := rfl
@[simp] theorem State.setTone_recGap (s : State) (lane : Nat) (x : ToneSt) : (s.setTone lane x).recGap = s.recGap := rfl
@[simp] theorem State.setTone_signQ (s : State) (lane : Nat) (x : ToneSt) : (s.setTone lane x).signQ = s.signQ := rfl
@[simp] theorem State.setTone_signSeq (s : State) (lane : Nat) (x : ToneSt) : (s.setTone lane x).signSeq = s.signSeq := rfl
@[simp] theorem State.setTone_recHeld (s : State) (lane : Nat) (x : ToneSt) : (s.setTone lane x).recHeld = s.recHeld := rfl
@[simp] theorem State.setTone_drainPt (s : State) (lane : Nat) (x : ToneSt) : (s.setTone lane x).drainPt = s.drainPt := rfl
@[simp] theorem State.setTone_wakes (s : State) (lane : Nat) (x : ToneSt) : (s.setTone lane x).wakes = s.wakes := rfl
@[simp] theorem State.setTone_cals (s : State) (lane : Nat) (x : ToneSt) : (s.setTone lane x).cals = s.cals := rfl
@[simp] theorem State.setTone_calInsts (s : State) (lane : Nat) (x : ToneSt) : (s.setTone lane x).calInsts = s.calInsts := rfl
@[simp] theorem State.setTone_tb (s : State) (lane : Nat) (x : ToneSt) : (s.setTone lane x).tb = s.tb := rfl
@[simp] theorem State.setTone_sills (s : State) (lane : Nat) (x : ToneSt) : (s.setTone lane x).sills = s.sills := rfl
@[simp] theorem State.setTone_takeovers (s : State) (lane : Nat) (x : ToneSt) : (s.setTone lane x).takeovers = s.takeovers := rfl
@[simp] theorem State.setTone_souts (s : State) (lane : Nat) (x : ToneSt) : (s.setTone lane x).souts = s.souts := rfl
@[simp] theorem State.setTone_ptOff (s : State) (lane : Nat) (x : ToneSt) : (s.setTone lane x).ptOff = s.ptOff := rfl
@[simp] theorem State.setTone_tree (s : State) (lane : Nat) (x : ToneSt) : (s.setTone lane x).tree = s.tree := rfl
@[simp] theorem State.setTone_ports (s : State) (lane : Nat) (x : ToneSt) : (s.setTone lane x).ports = s.ports := rfl
@[simp] theorem State.setTone_meters (s : State) (lane : Nat) (x : ToneSt) : (s.setTone lane x).meters = s.meters := rfl
@[simp] theorem State.setTone_account (s : State) (lane : Nat) (x : ToneSt) : (s.setTone lane x).account = s.account := rfl
@[simp] theorem State.setTone_boot (s : State) (lane : Nat) (x : ToneSt) : (s.setTone lane x).boot = s.boot := rfl
@[simp] theorem State.setTone_spdm (s : State) (lane : Nat) (x : ToneSt) : (s.setTone lane x).spdm = s.spdm := rfl
@[simp] theorem State.setTone_tunnels (s : State) (lane : Nat) (x : ToneSt) : (s.setTone lane x).tunnels = s.tunnels := rfl
@[simp] theorem State.setTone_tempOff (s : State) (lane : Nat) (x : ToneSt) : (s.setTone lane x).tempOff = s.tempOff := rfl
@[simp] theorem State.setTone_readyOff (s : State) (lane : Nat) (x : ToneSt) : (s.setTone lane x).readyOff = s.readyOff := rfl
@[simp] theorem State.setTone_free (s : State) (lane : Nat) (x : ToneSt) : (s.setTone lane x).free = s.free := rfl
@[simp] theorem State.reg_setTone (s : State) (lane : Nat) (x : ToneSt) (a : Nat) : (s.setTone lane x).reg a = s.reg a := rfl
@[simp] theorem State.rd_setTone (s : State) (lane : Nat) (x : ToneSt) (a : Nat) : (s.setTone lane x).rd a = s.rd a := rfl
@[simp] theorem State.fld_setTone (s : State) (lane : Nat) (x : ToneSt) (a lo len : Nat) : (s.setTone lane x).fld a lo len = s.fld a lo len := rfl
@[simp] theorem State.bit_setTone (s : State) (lane : Nat) (x : ToneSt) (a j : Nat) : (s.setTone lane x).bit a j = s.bit a j := rfl

/-! ### setCap -/

@[simp] theorem State.setCap_pending (s : State) (b i : Nat) (x : CapSt) : (s.setCap b i x).pending = s.pending := rfl
@[simp] theorem State.setCap_variant (s : State) (b i : Nat) (x : CapSt) : (s.setCap b i x).variant = s.variant := rfl
@[simp] theorem State.setCap_clk (s : State) (b i : Nat) (x : CapSt) : (s.setCap b i x).clk = s.clk := rfl
@[simp] theorem State.setCap_regs (s : State) (b i : Nat) (x : CapSt) : (s.setCap b i x).regs = s.regs := rfl
@[simp] theorem State.setCap_shadow (s : State) (b i : Nat) (x : CapSt) : (s.setCap b i x).shadow = s.shadow := rfl
@[simp] theorem State.setCap_dirty (s : State) (b i : Nat) (x : CapSt) : (s.setCap b i x).dirty = s.dirty := rfl
@[simp] theorem State.setCap_latch (s : State) (b i : Nat) (x : CapSt) : (s.setCap b i x).latch = s.latch := rfl
@[simp] theorem State.setCap_hold (s : State) (b i : Nat) (x : CapSt) : (s.setCap b i x).hold = s.hold := rfl
@[simp] theorem State.setCap_commits (s : State) (b i : Nat) (x : CapSt) : (s.setCap b i x).commits = s.commits := rfl
@[simp] theorem State.setCap_ev (s : State) (b i : Nat) (x : CapSt) : (s.setCap b i x).ev = s.ev := rfl
@[simp] theorem State.setCap_mem (s : State) (b i : Nat) (x : CapSt) : (s.setCap b i x).mem = s.mem := rfl
@[simp] theorem State.setCap_poison (s : State) (b i : Nat) (x : CapSt) : (s.setCap b i x).poison = s.poison := rfl
@[simp] theorem State.setCap_queues (s : State) (b i : Nat) (x : CapSt) : (s.setCap b i x).queues = s.queues := rfl
@[simp] theorem State.setCap_flight (s : State) (b i : Nat) (x : CapSt) : (s.setCap b i x).flight = s.flight := rfl
@[simp] theorem State.setCap_edges (s : State) (b i : Nat) (x : CapSt) : (s.setCap b i x).edges = s.edges := rfl
@[simp] theorem State.setCap_seqs (s : State) (b i : Nat) (x : CapSt) : (s.setCap b i x).seqs = s.seqs := rfl
@[simp] theorem State.setCap_barriers (s : State) (b i : Nat) (x : CapSt) : (s.setCap b i x).barriers = s.barriers := rfl
@[simp] theorem State.setCap_verdicts (s : State) (b i : Nat) (x : CapSt) : (s.setCap b i x).verdicts = s.verdicts := rfl
@[simp] theorem State.setCap_serial (s : State) (b i : Nat) (x : CapSt) : (s.setCap b i x).serial = s.serial := rfl
@[simp] theorem State.setCap_ridge (s : State) (b i : Nat) (x : CapSt) : (s.setCap b i x).ridge = s.ridge := rfl
@[simp] theorem State.setCap_pkgNum (s : State) (b i : Nat) (x : CapSt) : (s.setCap b i x).pkgNum = s.pkgNum := rfl
@[simp] theorem State.setCap_ptGen (s : State) (b i : Nat) (x : CapSt) : (s.setCap b i x).ptGen = s.ptGen := rfl
@[simp] theorem State.setCap_dmas (s : State) (b i : Nat) (x : CapSt) : (s.setCap b i x).dmas = s.dmas := rfl
@[simp] theorem State.setCap_tones (s : State) (b i : Nat) (x : CapSt) : (s.setCap b i x).tones = s.tones := rfl
@[simp] theorem State.setCap_dacHold (s : State) (b i : Nat) (x : CapSt) : (s.setCap b i x).dacHold = s.dacHold := rfl
@[simp] theorem State.setCap_dacAt (s : State) (b i : Nat) (x : CapSt) : (s.setCap b i x).dacAt = s.dacAt := rfl
@[simp] theorem State.setCap_streams (s : State) (b i : Nat) (x : CapSt) : (s.setCap b i x).streams = s.streams := rfl
@[simp] theorem State.setCap_failLog (s : State) (b i : Nat) (x : CapSt) : (s.setCap b i x).failLog = s.failLog := rfl
@[simp] theorem State.setCap_vseen (s : State) (b i : Nat) (x : CapSt) : (s.setCap b i x).vseen = s.vseen := rfl
@[simp] theorem State.setCap_tius (s : State) (b i : Nat) (x : CapSt) : (s.setCap b i x).tius = s.tius := rfl
@[simp] theorem State.setCap_fres (s : State) (b i : Nat) (x : CapSt) : (s.setCap b i x).fres = s.fres := rfl
@[simp] theorem State.setCap_stampIns (s : State) (b i : Nat) (x : CapSt) : (s.setCap b i x).stampIns = s.stampIns := rfl
@[simp] theorem State.setCap_edgeStamp (s : State) (b i : Nat) (x : CapSt) : (s.setCap b i x).edgeStamp = s.edgeStamp := rfl
@[simp] theorem State.setCap_recGap (s : State) (b i : Nat) (x : CapSt) : (s.setCap b i x).recGap = s.recGap := rfl
@[simp] theorem State.setCap_signQ (s : State) (b i : Nat) (x : CapSt) : (s.setCap b i x).signQ = s.signQ := rfl
@[simp] theorem State.setCap_signSeq (s : State) (b i : Nat) (x : CapSt) : (s.setCap b i x).signSeq = s.signSeq := rfl
@[simp] theorem State.setCap_recHeld (s : State) (b i : Nat) (x : CapSt) : (s.setCap b i x).recHeld = s.recHeld := rfl
@[simp] theorem State.setCap_drainPt (s : State) (b i : Nat) (x : CapSt) : (s.setCap b i x).drainPt = s.drainPt := rfl
@[simp] theorem State.setCap_wakes (s : State) (b i : Nat) (x : CapSt) : (s.setCap b i x).wakes = s.wakes := rfl
@[simp] theorem State.setCap_cals (s : State) (b i : Nat) (x : CapSt) : (s.setCap b i x).cals = s.cals := rfl
@[simp] theorem State.setCap_calInsts (s : State) (b i : Nat) (x : CapSt) : (s.setCap b i x).calInsts = s.calInsts := rfl
@[simp] theorem State.setCap_tb (s : State) (b i : Nat) (x : CapSt) : (s.setCap b i x).tb = s.tb := rfl
@[simp] theorem State.setCap_sills (s : State) (b i : Nat) (x : CapSt) : (s.setCap b i x).sills = s.sills := rfl
@[simp] theorem State.setCap_takeovers (s : State) (b i : Nat) (x : CapSt) : (s.setCap b i x).takeovers = s.takeovers := rfl
@[simp] theorem State.setCap_souts (s : State) (b i : Nat) (x : CapSt) : (s.setCap b i x).souts = s.souts := rfl
@[simp] theorem State.setCap_ptOff (s : State) (b i : Nat) (x : CapSt) : (s.setCap b i x).ptOff = s.ptOff := rfl
@[simp] theorem State.setCap_tree (s : State) (b i : Nat) (x : CapSt) : (s.setCap b i x).tree = s.tree := rfl
@[simp] theorem State.setCap_ports (s : State) (b i : Nat) (x : CapSt) : (s.setCap b i x).ports = s.ports := rfl
@[simp] theorem State.setCap_meters (s : State) (b i : Nat) (x : CapSt) : (s.setCap b i x).meters = s.meters := rfl
@[simp] theorem State.setCap_account (s : State) (b i : Nat) (x : CapSt) : (s.setCap b i x).account = s.account := rfl
@[simp] theorem State.setCap_boot (s : State) (b i : Nat) (x : CapSt) : (s.setCap b i x).boot = s.boot := rfl
@[simp] theorem State.setCap_spdm (s : State) (b i : Nat) (x : CapSt) : (s.setCap b i x).spdm = s.spdm := rfl
@[simp] theorem State.setCap_tunnels (s : State) (b i : Nat) (x : CapSt) : (s.setCap b i x).tunnels = s.tunnels := rfl
@[simp] theorem State.setCap_tempOff (s : State) (b i : Nat) (x : CapSt) : (s.setCap b i x).tempOff = s.tempOff := rfl
@[simp] theorem State.setCap_readyOff (s : State) (b i : Nat) (x : CapSt) : (s.setCap b i x).readyOff = s.readyOff := rfl
@[simp] theorem State.setCap_free (s : State) (b i : Nat) (x : CapSt) : (s.setCap b i x).free = s.free := rfl
@[simp] theorem State.reg_setCap (s : State) (b i : Nat) (x : CapSt) (a : Nat) : (s.setCap b i x).reg a = s.reg a := rfl
@[simp] theorem State.rd_setCap (s : State) (b i : Nat) (x : CapSt) (a : Nat) : (s.setCap b i x).rd a = s.rd a := rfl
@[simp] theorem State.fld_setCap (s : State) (b i : Nat) (x : CapSt) (a lo len : Nat) : (s.setCap b i x).fld a lo len = s.fld a lo len := rfl
@[simp] theorem State.bit_setCap (s : State) (b i : Nat) (x : CapSt) (a j : Nat) : (s.setCap b i x).bit a j = s.bit a j := rfl

/-! ### setDma -/

@[simp] theorem State.setDma_pending (s : State) (b e : Nat) (x : DmaSt) : (s.setDma b e x).pending = s.pending := rfl
@[simp] theorem State.setDma_variant (s : State) (b e : Nat) (x : DmaSt) : (s.setDma b e x).variant = s.variant := rfl
@[simp] theorem State.setDma_clk (s : State) (b e : Nat) (x : DmaSt) : (s.setDma b e x).clk = s.clk := rfl
@[simp] theorem State.setDma_regs (s : State) (b e : Nat) (x : DmaSt) : (s.setDma b e x).regs = s.regs := rfl
@[simp] theorem State.setDma_shadow (s : State) (b e : Nat) (x : DmaSt) : (s.setDma b e x).shadow = s.shadow := rfl
@[simp] theorem State.setDma_dirty (s : State) (b e : Nat) (x : DmaSt) : (s.setDma b e x).dirty = s.dirty := rfl
@[simp] theorem State.setDma_latch (s : State) (b e : Nat) (x : DmaSt) : (s.setDma b e x).latch = s.latch := rfl
@[simp] theorem State.setDma_hold (s : State) (b e : Nat) (x : DmaSt) : (s.setDma b e x).hold = s.hold := rfl
@[simp] theorem State.setDma_commits (s : State) (b e : Nat) (x : DmaSt) : (s.setDma b e x).commits = s.commits := rfl
@[simp] theorem State.setDma_ev (s : State) (b e : Nat) (x : DmaSt) : (s.setDma b e x).ev = s.ev := rfl
@[simp] theorem State.setDma_mem (s : State) (b e : Nat) (x : DmaSt) : (s.setDma b e x).mem = s.mem := rfl
@[simp] theorem State.setDma_poison (s : State) (b e : Nat) (x : DmaSt) : (s.setDma b e x).poison = s.poison := rfl
@[simp] theorem State.setDma_queues (s : State) (b e : Nat) (x : DmaSt) : (s.setDma b e x).queues = s.queues := rfl
@[simp] theorem State.setDma_flight (s : State) (b e : Nat) (x : DmaSt) : (s.setDma b e x).flight = s.flight := rfl
@[simp] theorem State.setDma_edges (s : State) (b e : Nat) (x : DmaSt) : (s.setDma b e x).edges = s.edges := rfl
@[simp] theorem State.setDma_seqs (s : State) (b e : Nat) (x : DmaSt) : (s.setDma b e x).seqs = s.seqs := rfl
@[simp] theorem State.setDma_barriers (s : State) (b e : Nat) (x : DmaSt) : (s.setDma b e x).barriers = s.barriers := rfl
@[simp] theorem State.setDma_verdicts (s : State) (b e : Nat) (x : DmaSt) : (s.setDma b e x).verdicts = s.verdicts := rfl
@[simp] theorem State.setDma_serial (s : State) (b e : Nat) (x : DmaSt) : (s.setDma b e x).serial = s.serial := rfl
@[simp] theorem State.setDma_ridge (s : State) (b e : Nat) (x : DmaSt) : (s.setDma b e x).ridge = s.ridge := rfl
@[simp] theorem State.setDma_pkgNum (s : State) (b e : Nat) (x : DmaSt) : (s.setDma b e x).pkgNum = s.pkgNum := rfl
@[simp] theorem State.setDma_ptGen (s : State) (b e : Nat) (x : DmaSt) : (s.setDma b e x).ptGen = s.ptGen := rfl
@[simp] theorem State.setDma_tones (s : State) (b e : Nat) (x : DmaSt) : (s.setDma b e x).tones = s.tones := rfl
@[simp] theorem State.setDma_touched (s : State) (b e : Nat) (x : DmaSt) : (s.setDma b e x).touched = s.touched := rfl
@[simp] theorem State.setDma_dacHold (s : State) (b e : Nat) (x : DmaSt) : (s.setDma b e x).dacHold = s.dacHold := rfl
@[simp] theorem State.setDma_dacAt (s : State) (b e : Nat) (x : DmaSt) : (s.setDma b e x).dacAt = s.dacAt := rfl
@[simp] theorem State.setDma_streams (s : State) (b e : Nat) (x : DmaSt) : (s.setDma b e x).streams = s.streams := rfl
@[simp] theorem State.setDma_failLog (s : State) (b e : Nat) (x : DmaSt) : (s.setDma b e x).failLog = s.failLog := rfl
@[simp] theorem State.setDma_caps (s : State) (b e : Nat) (x : DmaSt) : (s.setDma b e x).caps = s.caps := rfl
@[simp] theorem State.setDma_vseen (s : State) (b e : Nat) (x : DmaSt) : (s.setDma b e x).vseen = s.vseen := rfl
@[simp] theorem State.setDma_tius (s : State) (b e : Nat) (x : DmaSt) : (s.setDma b e x).tius = s.tius := rfl
@[simp] theorem State.setDma_fres (s : State) (b e : Nat) (x : DmaSt) : (s.setDma b e x).fres = s.fres := rfl
@[simp] theorem State.setDma_stampIns (s : State) (b e : Nat) (x : DmaSt) : (s.setDma b e x).stampIns = s.stampIns := rfl
@[simp] theorem State.setDma_edgeStamp (s : State) (b e : Nat) (x : DmaSt) : (s.setDma b e x).edgeStamp = s.edgeStamp := rfl
@[simp] theorem State.setDma_recGap (s : State) (b e : Nat) (x : DmaSt) : (s.setDma b e x).recGap = s.recGap := rfl
@[simp] theorem State.setDma_signQ (s : State) (b e : Nat) (x : DmaSt) : (s.setDma b e x).signQ = s.signQ := rfl
@[simp] theorem State.setDma_signSeq (s : State) (b e : Nat) (x : DmaSt) : (s.setDma b e x).signSeq = s.signSeq := rfl
@[simp] theorem State.setDma_recHeld (s : State) (b e : Nat) (x : DmaSt) : (s.setDma b e x).recHeld = s.recHeld := rfl
@[simp] theorem State.setDma_drainPt (s : State) (b e : Nat) (x : DmaSt) : (s.setDma b e x).drainPt = s.drainPt := rfl
@[simp] theorem State.setDma_wakes (s : State) (b e : Nat) (x : DmaSt) : (s.setDma b e x).wakes = s.wakes := rfl
@[simp] theorem State.setDma_cals (s : State) (b e : Nat) (x : DmaSt) : (s.setDma b e x).cals = s.cals := rfl
@[simp] theorem State.setDma_calInsts (s : State) (b e : Nat) (x : DmaSt) : (s.setDma b e x).calInsts = s.calInsts := rfl
@[simp] theorem State.setDma_tb (s : State) (b e : Nat) (x : DmaSt) : (s.setDma b e x).tb = s.tb := rfl
@[simp] theorem State.setDma_sills (s : State) (b e : Nat) (x : DmaSt) : (s.setDma b e x).sills = s.sills := rfl
@[simp] theorem State.setDma_takeovers (s : State) (b e : Nat) (x : DmaSt) : (s.setDma b e x).takeovers = s.takeovers := rfl
@[simp] theorem State.setDma_souts (s : State) (b e : Nat) (x : DmaSt) : (s.setDma b e x).souts = s.souts := rfl
@[simp] theorem State.setDma_ptOff (s : State) (b e : Nat) (x : DmaSt) : (s.setDma b e x).ptOff = s.ptOff := rfl
@[simp] theorem State.setDma_tree (s : State) (b e : Nat) (x : DmaSt) : (s.setDma b e x).tree = s.tree := rfl
@[simp] theorem State.setDma_ports (s : State) (b e : Nat) (x : DmaSt) : (s.setDma b e x).ports = s.ports := rfl
@[simp] theorem State.setDma_meters (s : State) (b e : Nat) (x : DmaSt) : (s.setDma b e x).meters = s.meters := rfl
@[simp] theorem State.setDma_account (s : State) (b e : Nat) (x : DmaSt) : (s.setDma b e x).account = s.account := rfl
@[simp] theorem State.setDma_boot (s : State) (b e : Nat) (x : DmaSt) : (s.setDma b e x).boot = s.boot := rfl
@[simp] theorem State.setDma_spdm (s : State) (b e : Nat) (x : DmaSt) : (s.setDma b e x).spdm = s.spdm := rfl
@[simp] theorem State.setDma_tunnels (s : State) (b e : Nat) (x : DmaSt) : (s.setDma b e x).tunnels = s.tunnels := rfl
@[simp] theorem State.setDma_tempOff (s : State) (b e : Nat) (x : DmaSt) : (s.setDma b e x).tempOff = s.tempOff := rfl
@[simp] theorem State.setDma_readyOff (s : State) (b e : Nat) (x : DmaSt) : (s.setDma b e x).readyOff = s.readyOff := rfl
@[simp] theorem State.setDma_free (s : State) (b e : Nat) (x : DmaSt) : (s.setDma b e x).free = s.free := rfl
@[simp] theorem State.reg_setDma (s : State) (b e : Nat) (x : DmaSt) (a : Nat) : (s.setDma b e x).reg a = s.reg a := rfl
@[simp] theorem State.rd_setDma (s : State) (b e : Nat) (x : DmaSt) (a : Nat) : (s.setDma b e x).rd a = s.rd a := rfl
@[simp] theorem State.fld_setDma (s : State) (b e : Nat) (x : DmaSt) (a lo len : Nat) : (s.setDma b e x).fld a lo len = s.fld a lo len := rfl
@[simp] theorem State.bit_setDma (s : State) (b e : Nat) (x : DmaSt) (a j : Nat) : (s.setDma b e x).bit a j = s.bit a j := rfl

/-! ### setStream -/

@[simp] theorem State.setStream_pending (s : State) (b n : Nat) (x : StreamSt) : (s.setStream b n x).pending = s.pending := rfl
@[simp] theorem State.setStream_variant (s : State) (b n : Nat) (x : StreamSt) : (s.setStream b n x).variant = s.variant := rfl
@[simp] theorem State.setStream_clk (s : State) (b n : Nat) (x : StreamSt) : (s.setStream b n x).clk = s.clk := rfl
@[simp] theorem State.setStream_regs (s : State) (b n : Nat) (x : StreamSt) : (s.setStream b n x).regs = s.regs := rfl
@[simp] theorem State.setStream_shadow (s : State) (b n : Nat) (x : StreamSt) : (s.setStream b n x).shadow = s.shadow := rfl
@[simp] theorem State.setStream_dirty (s : State) (b n : Nat) (x : StreamSt) : (s.setStream b n x).dirty = s.dirty := rfl
@[simp] theorem State.setStream_latch (s : State) (b n : Nat) (x : StreamSt) : (s.setStream b n x).latch = s.latch := rfl
@[simp] theorem State.setStream_hold (s : State) (b n : Nat) (x : StreamSt) : (s.setStream b n x).hold = s.hold := rfl
@[simp] theorem State.setStream_commits (s : State) (b n : Nat) (x : StreamSt) : (s.setStream b n x).commits = s.commits := rfl
@[simp] theorem State.setStream_ev (s : State) (b n : Nat) (x : StreamSt) : (s.setStream b n x).ev = s.ev := rfl
@[simp] theorem State.setStream_mem (s : State) (b n : Nat) (x : StreamSt) : (s.setStream b n x).mem = s.mem := rfl
@[simp] theorem State.setStream_poison (s : State) (b n : Nat) (x : StreamSt) : (s.setStream b n x).poison = s.poison := rfl
@[simp] theorem State.setStream_queues (s : State) (b n : Nat) (x : StreamSt) : (s.setStream b n x).queues = s.queues := rfl
@[simp] theorem State.setStream_flight (s : State) (b n : Nat) (x : StreamSt) : (s.setStream b n x).flight = s.flight := rfl
@[simp] theorem State.setStream_edges (s : State) (b n : Nat) (x : StreamSt) : (s.setStream b n x).edges = s.edges := rfl
@[simp] theorem State.setStream_seqs (s : State) (b n : Nat) (x : StreamSt) : (s.setStream b n x).seqs = s.seqs := rfl
@[simp] theorem State.setStream_barriers (s : State) (b n : Nat) (x : StreamSt) : (s.setStream b n x).barriers = s.barriers := rfl
@[simp] theorem State.setStream_verdicts (s : State) (b n : Nat) (x : StreamSt) : (s.setStream b n x).verdicts = s.verdicts := rfl
@[simp] theorem State.setStream_serial (s : State) (b n : Nat) (x : StreamSt) : (s.setStream b n x).serial = s.serial := rfl
@[simp] theorem State.setStream_ridge (s : State) (b n : Nat) (x : StreamSt) : (s.setStream b n x).ridge = s.ridge := rfl
@[simp] theorem State.setStream_pkgNum (s : State) (b n : Nat) (x : StreamSt) : (s.setStream b n x).pkgNum = s.pkgNum := rfl
@[simp] theorem State.setStream_ptGen (s : State) (b n : Nat) (x : StreamSt) : (s.setStream b n x).ptGen = s.ptGen := rfl
@[simp] theorem State.setStream_dmas (s : State) (b n : Nat) (x : StreamSt) : (s.setStream b n x).dmas = s.dmas := rfl
@[simp] theorem State.setStream_tones (s : State) (b n : Nat) (x : StreamSt) : (s.setStream b n x).tones = s.tones := rfl
@[simp] theorem State.setStream_dacHold (s : State) (b n : Nat) (x : StreamSt) : (s.setStream b n x).dacHold = s.dacHold := rfl
@[simp] theorem State.setStream_dacAt (s : State) (b n : Nat) (x : StreamSt) : (s.setStream b n x).dacAt = s.dacAt := rfl
@[simp] theorem State.setStream_failLog (s : State) (b n : Nat) (x : StreamSt) : (s.setStream b n x).failLog = s.failLog := rfl
@[simp] theorem State.setStream_caps (s : State) (b n : Nat) (x : StreamSt) : (s.setStream b n x).caps = s.caps := rfl
@[simp] theorem State.setStream_vseen (s : State) (b n : Nat) (x : StreamSt) : (s.setStream b n x).vseen = s.vseen := rfl
@[simp] theorem State.setStream_tius (s : State) (b n : Nat) (x : StreamSt) : (s.setStream b n x).tius = s.tius := rfl
@[simp] theorem State.setStream_fres (s : State) (b n : Nat) (x : StreamSt) : (s.setStream b n x).fres = s.fres := rfl
@[simp] theorem State.setStream_stampIns (s : State) (b n : Nat) (x : StreamSt) : (s.setStream b n x).stampIns = s.stampIns := rfl
@[simp] theorem State.setStream_edgeStamp (s : State) (b n : Nat) (x : StreamSt) : (s.setStream b n x).edgeStamp = s.edgeStamp := rfl
@[simp] theorem State.setStream_recGap (s : State) (b n : Nat) (x : StreamSt) : (s.setStream b n x).recGap = s.recGap := rfl
@[simp] theorem State.setStream_signQ (s : State) (b n : Nat) (x : StreamSt) : (s.setStream b n x).signQ = s.signQ := rfl
@[simp] theorem State.setStream_signSeq (s : State) (b n : Nat) (x : StreamSt) : (s.setStream b n x).signSeq = s.signSeq := rfl
@[simp] theorem State.setStream_recHeld (s : State) (b n : Nat) (x : StreamSt) : (s.setStream b n x).recHeld = s.recHeld := rfl
@[simp] theorem State.setStream_drainPt (s : State) (b n : Nat) (x : StreamSt) : (s.setStream b n x).drainPt = s.drainPt := rfl
@[simp] theorem State.setStream_wakes (s : State) (b n : Nat) (x : StreamSt) : (s.setStream b n x).wakes = s.wakes := rfl
@[simp] theorem State.setStream_cals (s : State) (b n : Nat) (x : StreamSt) : (s.setStream b n x).cals = s.cals := rfl
@[simp] theorem State.setStream_calInsts (s : State) (b n : Nat) (x : StreamSt) : (s.setStream b n x).calInsts = s.calInsts := rfl
@[simp] theorem State.setStream_tb (s : State) (b n : Nat) (x : StreamSt) : (s.setStream b n x).tb = s.tb := rfl
@[simp] theorem State.setStream_sills (s : State) (b n : Nat) (x : StreamSt) : (s.setStream b n x).sills = s.sills := rfl
@[simp] theorem State.setStream_takeovers (s : State) (b n : Nat) (x : StreamSt) : (s.setStream b n x).takeovers = s.takeovers := rfl
@[simp] theorem State.setStream_souts (s : State) (b n : Nat) (x : StreamSt) : (s.setStream b n x).souts = s.souts := rfl
@[simp] theorem State.setStream_ptOff (s : State) (b n : Nat) (x : StreamSt) : (s.setStream b n x).ptOff = s.ptOff := rfl
@[simp] theorem State.setStream_tree (s : State) (b n : Nat) (x : StreamSt) : (s.setStream b n x).tree = s.tree := rfl
@[simp] theorem State.setStream_ports (s : State) (b n : Nat) (x : StreamSt) : (s.setStream b n x).ports = s.ports := rfl
@[simp] theorem State.setStream_meters (s : State) (b n : Nat) (x : StreamSt) : (s.setStream b n x).meters = s.meters := rfl
@[simp] theorem State.setStream_account (s : State) (b n : Nat) (x : StreamSt) : (s.setStream b n x).account = s.account := rfl
@[simp] theorem State.setStream_boot (s : State) (b n : Nat) (x : StreamSt) : (s.setStream b n x).boot = s.boot := rfl
@[simp] theorem State.setStream_spdm (s : State) (b n : Nat) (x : StreamSt) : (s.setStream b n x).spdm = s.spdm := rfl
@[simp] theorem State.setStream_tunnels (s : State) (b n : Nat) (x : StreamSt) : (s.setStream b n x).tunnels = s.tunnels := rfl
@[simp] theorem State.setStream_tempOff (s : State) (b n : Nat) (x : StreamSt) : (s.setStream b n x).tempOff = s.tempOff := rfl
@[simp] theorem State.setStream_readyOff (s : State) (b n : Nat) (x : StreamSt) : (s.setStream b n x).readyOff = s.readyOff := rfl
@[simp] theorem State.setStream_free (s : State) (b n : Nat) (x : StreamSt) : (s.setStream b n x).free = s.free := rfl
@[simp] theorem State.reg_setStream (s : State) (b n : Nat) (x : StreamSt) (a : Nat) : (s.setStream b n x).reg a = s.reg a := rfl
@[simp] theorem State.rd_setStream (s : State) (b n : Nat) (x : StreamSt) (a : Nat) : (s.setStream b n x).rd a = s.rd a := rfl
@[simp] theorem State.fld_setStream (s : State) (b n : Nat) (x : StreamSt) (a lo len : Nat) : (s.setStream b n x).fld a lo len = s.fld a lo len := rfl
@[simp] theorem State.bit_setStream (s : State) (b n : Nat) (x : StreamSt) (a j : Nat) : (s.setStream b n x).bit a j = s.bit a j := rfl

/-! ### setDrain -/

@[simp] theorem State.setDrain_pending (s : State) (k : Nat) (x : Option Nat) : (s.setDrain k x).pending = s.pending := rfl
@[simp] theorem State.setDrain_variant (s : State) (k : Nat) (x : Option Nat) : (s.setDrain k x).variant = s.variant := rfl
@[simp] theorem State.setDrain_clk (s : State) (k : Nat) (x : Option Nat) : (s.setDrain k x).clk = s.clk := rfl
@[simp] theorem State.setDrain_regs (s : State) (k : Nat) (x : Option Nat) : (s.setDrain k x).regs = s.regs := rfl
@[simp] theorem State.setDrain_shadow (s : State) (k : Nat) (x : Option Nat) : (s.setDrain k x).shadow = s.shadow := rfl
@[simp] theorem State.setDrain_dirty (s : State) (k : Nat) (x : Option Nat) : (s.setDrain k x).dirty = s.dirty := rfl
@[simp] theorem State.setDrain_latch (s : State) (k : Nat) (x : Option Nat) : (s.setDrain k x).latch = s.latch := rfl
@[simp] theorem State.setDrain_hold (s : State) (k : Nat) (x : Option Nat) : (s.setDrain k x).hold = s.hold := rfl
@[simp] theorem State.setDrain_commits (s : State) (k : Nat) (x : Option Nat) : (s.setDrain k x).commits = s.commits := rfl
@[simp] theorem State.setDrain_ev (s : State) (k : Nat) (x : Option Nat) : (s.setDrain k x).ev = s.ev := rfl
@[simp] theorem State.setDrain_mem (s : State) (k : Nat) (x : Option Nat) : (s.setDrain k x).mem = s.mem := rfl
@[simp] theorem State.setDrain_poison (s : State) (k : Nat) (x : Option Nat) : (s.setDrain k x).poison = s.poison := rfl
@[simp] theorem State.setDrain_queues (s : State) (k : Nat) (x : Option Nat) : (s.setDrain k x).queues = s.queues := rfl
@[simp] theorem State.setDrain_flight (s : State) (k : Nat) (x : Option Nat) : (s.setDrain k x).flight = s.flight := rfl
@[simp] theorem State.setDrain_edges (s : State) (k : Nat) (x : Option Nat) : (s.setDrain k x).edges = s.edges := rfl
@[simp] theorem State.setDrain_seqs (s : State) (k : Nat) (x : Option Nat) : (s.setDrain k x).seqs = s.seqs := rfl
@[simp] theorem State.setDrain_barriers (s : State) (k : Nat) (x : Option Nat) : (s.setDrain k x).barriers = s.barriers := rfl
@[simp] theorem State.setDrain_verdicts (s : State) (k : Nat) (x : Option Nat) : (s.setDrain k x).verdicts = s.verdicts := rfl
@[simp] theorem State.setDrain_serial (s : State) (k : Nat) (x : Option Nat) : (s.setDrain k x).serial = s.serial := rfl
@[simp] theorem State.setDrain_ridge (s : State) (k : Nat) (x : Option Nat) : (s.setDrain k x).ridge = s.ridge := rfl
@[simp] theorem State.setDrain_pkgNum (s : State) (k : Nat) (x : Option Nat) : (s.setDrain k x).pkgNum = s.pkgNum := rfl
@[simp] theorem State.setDrain_ptGen (s : State) (k : Nat) (x : Option Nat) : (s.setDrain k x).ptGen = s.ptGen := rfl
@[simp] theorem State.setDrain_dmas (s : State) (k : Nat) (x : Option Nat) : (s.setDrain k x).dmas = s.dmas := rfl
@[simp] theorem State.setDrain_tones (s : State) (k : Nat) (x : Option Nat) : (s.setDrain k x).tones = s.tones := rfl
@[simp] theorem State.setDrain_touched (s : State) (k : Nat) (x : Option Nat) : (s.setDrain k x).touched = s.touched := rfl
@[simp] theorem State.setDrain_dacHold (s : State) (k : Nat) (x : Option Nat) : (s.setDrain k x).dacHold = s.dacHold := rfl
@[simp] theorem State.setDrain_dacAt (s : State) (k : Nat) (x : Option Nat) : (s.setDrain k x).dacAt = s.dacAt := rfl
@[simp] theorem State.setDrain_streams (s : State) (k : Nat) (x : Option Nat) : (s.setDrain k x).streams = s.streams := rfl
@[simp] theorem State.setDrain_failLog (s : State) (k : Nat) (x : Option Nat) : (s.setDrain k x).failLog = s.failLog := rfl
@[simp] theorem State.setDrain_caps (s : State) (k : Nat) (x : Option Nat) : (s.setDrain k x).caps = s.caps := rfl
@[simp] theorem State.setDrain_vseen (s : State) (k : Nat) (x : Option Nat) : (s.setDrain k x).vseen = s.vseen := rfl
@[simp] theorem State.setDrain_tius (s : State) (k : Nat) (x : Option Nat) : (s.setDrain k x).tius = s.tius := rfl
@[simp] theorem State.setDrain_fres (s : State) (k : Nat) (x : Option Nat) : (s.setDrain k x).fres = s.fres := rfl
@[simp] theorem State.setDrain_stampIns (s : State) (k : Nat) (x : Option Nat) : (s.setDrain k x).stampIns = s.stampIns := rfl
@[simp] theorem State.setDrain_edgeStamp (s : State) (k : Nat) (x : Option Nat) : (s.setDrain k x).edgeStamp = s.edgeStamp := rfl
@[simp] theorem State.setDrain_recGap (s : State) (k : Nat) (x : Option Nat) : (s.setDrain k x).recGap = s.recGap := rfl
@[simp] theorem State.setDrain_signQ (s : State) (k : Nat) (x : Option Nat) : (s.setDrain k x).signQ = s.signQ := rfl
@[simp] theorem State.setDrain_signSeq (s : State) (k : Nat) (x : Option Nat) : (s.setDrain k x).signSeq = s.signSeq := rfl
@[simp] theorem State.setDrain_recHeld (s : State) (k : Nat) (x : Option Nat) : (s.setDrain k x).recHeld = s.recHeld := rfl
@[simp] theorem State.setDrain_wakes (s : State) (k : Nat) (x : Option Nat) : (s.setDrain k x).wakes = s.wakes := rfl
@[simp] theorem State.setDrain_cals (s : State) (k : Nat) (x : Option Nat) : (s.setDrain k x).cals = s.cals := rfl
@[simp] theorem State.setDrain_calInsts (s : State) (k : Nat) (x : Option Nat) : (s.setDrain k x).calInsts = s.calInsts := rfl
@[simp] theorem State.setDrain_tb (s : State) (k : Nat) (x : Option Nat) : (s.setDrain k x).tb = s.tb := rfl
@[simp] theorem State.setDrain_sills (s : State) (k : Nat) (x : Option Nat) : (s.setDrain k x).sills = s.sills := rfl
@[simp] theorem State.setDrain_takeovers (s : State) (k : Nat) (x : Option Nat) : (s.setDrain k x).takeovers = s.takeovers := rfl
@[simp] theorem State.setDrain_souts (s : State) (k : Nat) (x : Option Nat) : (s.setDrain k x).souts = s.souts := rfl
@[simp] theorem State.setDrain_ptOff (s : State) (k : Nat) (x : Option Nat) : (s.setDrain k x).ptOff = s.ptOff := rfl
@[simp] theorem State.setDrain_tree (s : State) (k : Nat) (x : Option Nat) : (s.setDrain k x).tree = s.tree := rfl
@[simp] theorem State.setDrain_ports (s : State) (k : Nat) (x : Option Nat) : (s.setDrain k x).ports = s.ports := rfl
@[simp] theorem State.setDrain_meters (s : State) (k : Nat) (x : Option Nat) : (s.setDrain k x).meters = s.meters := rfl
@[simp] theorem State.setDrain_account (s : State) (k : Nat) (x : Option Nat) : (s.setDrain k x).account = s.account := rfl
@[simp] theorem State.setDrain_boot (s : State) (k : Nat) (x : Option Nat) : (s.setDrain k x).boot = s.boot := rfl
@[simp] theorem State.setDrain_spdm (s : State) (k : Nat) (x : Option Nat) : (s.setDrain k x).spdm = s.spdm := rfl
@[simp] theorem State.setDrain_tunnels (s : State) (k : Nat) (x : Option Nat) : (s.setDrain k x).tunnels = s.tunnels := rfl
@[simp] theorem State.setDrain_tempOff (s : State) (k : Nat) (x : Option Nat) : (s.setDrain k x).tempOff = s.tempOff := rfl
@[simp] theorem State.setDrain_readyOff (s : State) (k : Nat) (x : Option Nat) : (s.setDrain k x).readyOff = s.readyOff := rfl
@[simp] theorem State.setDrain_free (s : State) (k : Nat) (x : Option Nat) : (s.setDrain k x).free = s.free := rfl
@[simp] theorem State.reg_setDrain (s : State) (k : Nat) (x : Option Nat) (a : Nat) : (s.setDrain k x).reg a = s.reg a := rfl
@[simp] theorem State.rd_setDrain (s : State) (k : Nat) (x : Option Nat) (a : Nat) : (s.setDrain k x).rd a = s.rd a := rfl
@[simp] theorem State.fld_setDrain (s : State) (k : Nat) (x : Option Nat) (a lo len : Nat) : (s.setDrain k x).fld a lo len = s.fld a lo len := rfl
@[simp] theorem State.bit_setDrain (s : State) (k : Nat) (x : Option Nat) (a j : Nat) : (s.setDrain k x).bit a j = s.bit a j := rfl

/-! ### setCal -/

@[simp] theorem State.setCal_pending (s : State) (b : Nat) (x : CalSt) : (s.setCal b x).pending = s.pending := rfl
@[simp] theorem State.setCal_variant (s : State) (b : Nat) (x : CalSt) : (s.setCal b x).variant = s.variant := rfl
@[simp] theorem State.setCal_clk (s : State) (b : Nat) (x : CalSt) : (s.setCal b x).clk = s.clk := rfl
@[simp] theorem State.setCal_regs (s : State) (b : Nat) (x : CalSt) : (s.setCal b x).regs = s.regs := rfl
@[simp] theorem State.setCal_shadow (s : State) (b : Nat) (x : CalSt) : (s.setCal b x).shadow = s.shadow := rfl
@[simp] theorem State.setCal_dirty (s : State) (b : Nat) (x : CalSt) : (s.setCal b x).dirty = s.dirty := rfl
@[simp] theorem State.setCal_latch (s : State) (b : Nat) (x : CalSt) : (s.setCal b x).latch = s.latch := rfl
@[simp] theorem State.setCal_hold (s : State) (b : Nat) (x : CalSt) : (s.setCal b x).hold = s.hold := rfl
@[simp] theorem State.setCal_commits (s : State) (b : Nat) (x : CalSt) : (s.setCal b x).commits = s.commits := rfl
@[simp] theorem State.setCal_ev (s : State) (b : Nat) (x : CalSt) : (s.setCal b x).ev = s.ev := rfl
@[simp] theorem State.setCal_mem (s : State) (b : Nat) (x : CalSt) : (s.setCal b x).mem = s.mem := rfl
@[simp] theorem State.setCal_poison (s : State) (b : Nat) (x : CalSt) : (s.setCal b x).poison = s.poison := rfl
@[simp] theorem State.setCal_queues (s : State) (b : Nat) (x : CalSt) : (s.setCal b x).queues = s.queues := rfl
@[simp] theorem State.setCal_flight (s : State) (b : Nat) (x : CalSt) : (s.setCal b x).flight = s.flight := rfl
@[simp] theorem State.setCal_edges (s : State) (b : Nat) (x : CalSt) : (s.setCal b x).edges = s.edges := rfl
@[simp] theorem State.setCal_seqs (s : State) (b : Nat) (x : CalSt) : (s.setCal b x).seqs = s.seqs := rfl
@[simp] theorem State.setCal_barriers (s : State) (b : Nat) (x : CalSt) : (s.setCal b x).barriers = s.barriers := rfl
@[simp] theorem State.setCal_verdicts (s : State) (b : Nat) (x : CalSt) : (s.setCal b x).verdicts = s.verdicts := rfl
@[simp] theorem State.setCal_serial (s : State) (b : Nat) (x : CalSt) : (s.setCal b x).serial = s.serial := rfl
@[simp] theorem State.setCal_ridge (s : State) (b : Nat) (x : CalSt) : (s.setCal b x).ridge = s.ridge := rfl
@[simp] theorem State.setCal_pkgNum (s : State) (b : Nat) (x : CalSt) : (s.setCal b x).pkgNum = s.pkgNum := rfl
@[simp] theorem State.setCal_ptGen (s : State) (b : Nat) (x : CalSt) : (s.setCal b x).ptGen = s.ptGen := rfl
@[simp] theorem State.setCal_dmas (s : State) (b : Nat) (x : CalSt) : (s.setCal b x).dmas = s.dmas := rfl
@[simp] theorem State.setCal_tones (s : State) (b : Nat) (x : CalSt) : (s.setCal b x).tones = s.tones := rfl
@[simp] theorem State.setCal_touched (s : State) (b : Nat) (x : CalSt) : (s.setCal b x).touched = s.touched := rfl
@[simp] theorem State.setCal_dacHold (s : State) (b : Nat) (x : CalSt) : (s.setCal b x).dacHold = s.dacHold := rfl
@[simp] theorem State.setCal_dacAt (s : State) (b : Nat) (x : CalSt) : (s.setCal b x).dacAt = s.dacAt := rfl
@[simp] theorem State.setCal_streams (s : State) (b : Nat) (x : CalSt) : (s.setCal b x).streams = s.streams := rfl
@[simp] theorem State.setCal_failLog (s : State) (b : Nat) (x : CalSt) : (s.setCal b x).failLog = s.failLog := rfl
@[simp] theorem State.setCal_caps (s : State) (b : Nat) (x : CalSt) : (s.setCal b x).caps = s.caps := rfl
@[simp] theorem State.setCal_vseen (s : State) (b : Nat) (x : CalSt) : (s.setCal b x).vseen = s.vseen := rfl
@[simp] theorem State.setCal_tius (s : State) (b : Nat) (x : CalSt) : (s.setCal b x).tius = s.tius := rfl
@[simp] theorem State.setCal_fres (s : State) (b : Nat) (x : CalSt) : (s.setCal b x).fres = s.fres := rfl
@[simp] theorem State.setCal_stampIns (s : State) (b : Nat) (x : CalSt) : (s.setCal b x).stampIns = s.stampIns := rfl
@[simp] theorem State.setCal_edgeStamp (s : State) (b : Nat) (x : CalSt) : (s.setCal b x).edgeStamp = s.edgeStamp := rfl
@[simp] theorem State.setCal_recGap (s : State) (b : Nat) (x : CalSt) : (s.setCal b x).recGap = s.recGap := rfl
@[simp] theorem State.setCal_signQ (s : State) (b : Nat) (x : CalSt) : (s.setCal b x).signQ = s.signQ := rfl
@[simp] theorem State.setCal_signSeq (s : State) (b : Nat) (x : CalSt) : (s.setCal b x).signSeq = s.signSeq := rfl
@[simp] theorem State.setCal_recHeld (s : State) (b : Nat) (x : CalSt) : (s.setCal b x).recHeld = s.recHeld := rfl
@[simp] theorem State.setCal_drainPt (s : State) (b : Nat) (x : CalSt) : (s.setCal b x).drainPt = s.drainPt := rfl
@[simp] theorem State.setCal_wakes (s : State) (b : Nat) (x : CalSt) : (s.setCal b x).wakes = s.wakes := rfl
@[simp] theorem State.setCal_calInsts (s : State) (b : Nat) (x : CalSt) : (s.setCal b x).calInsts = s.calInsts := rfl
@[simp] theorem State.setCal_tb (s : State) (b : Nat) (x : CalSt) : (s.setCal b x).tb = s.tb := rfl
@[simp] theorem State.setCal_sills (s : State) (b : Nat) (x : CalSt) : (s.setCal b x).sills = s.sills := rfl
@[simp] theorem State.setCal_takeovers (s : State) (b : Nat) (x : CalSt) : (s.setCal b x).takeovers = s.takeovers := rfl
@[simp] theorem State.setCal_souts (s : State) (b : Nat) (x : CalSt) : (s.setCal b x).souts = s.souts := rfl
@[simp] theorem State.setCal_ptOff (s : State) (b : Nat) (x : CalSt) : (s.setCal b x).ptOff = s.ptOff := rfl
@[simp] theorem State.setCal_tree (s : State) (b : Nat) (x : CalSt) : (s.setCal b x).tree = s.tree := rfl
@[simp] theorem State.setCal_ports (s : State) (b : Nat) (x : CalSt) : (s.setCal b x).ports = s.ports := rfl
@[simp] theorem State.setCal_meters (s : State) (b : Nat) (x : CalSt) : (s.setCal b x).meters = s.meters := rfl
@[simp] theorem State.setCal_account (s : State) (b : Nat) (x : CalSt) : (s.setCal b x).account = s.account := rfl
@[simp] theorem State.setCal_boot (s : State) (b : Nat) (x : CalSt) : (s.setCal b x).boot = s.boot := rfl
@[simp] theorem State.setCal_spdm (s : State) (b : Nat) (x : CalSt) : (s.setCal b x).spdm = s.spdm := rfl
@[simp] theorem State.setCal_tunnels (s : State) (b : Nat) (x : CalSt) : (s.setCal b x).tunnels = s.tunnels := rfl
@[simp] theorem State.setCal_tempOff (s : State) (b : Nat) (x : CalSt) : (s.setCal b x).tempOff = s.tempOff := rfl
@[simp] theorem State.setCal_readyOff (s : State) (b : Nat) (x : CalSt) : (s.setCal b x).readyOff = s.readyOff := rfl
@[simp] theorem State.setCal_free (s : State) (b : Nat) (x : CalSt) : (s.setCal b x).free = s.free := rfl
@[simp] theorem State.reg_setCal (s : State) (b : Nat) (x : CalSt) (a : Nat) : (s.setCal b x).reg a = s.reg a := rfl
@[simp] theorem State.rd_setCal (s : State) (b : Nat) (x : CalSt) (a : Nat) : (s.setCal b x).rd a = s.rd a := rfl
@[simp] theorem State.fld_setCal (s : State) (b : Nat) (x : CalSt) (a lo len : Nat) : (s.setCal b x).fld a lo len = s.fld a lo len := rfl
@[simp] theorem State.bit_setCal (s : State) (b : Nat) (x : CalSt) (a j : Nat) : (s.setCal b x).bit a j = s.bit a j := rfl

/-! ### setInst -/

@[simp] theorem State.setInst_pending (s : State) (b item inst : Nat) (x : CalInst) : (s.setInst b item inst x).pending = s.pending := rfl
@[simp] theorem State.setInst_variant (s : State) (b item inst : Nat) (x : CalInst) : (s.setInst b item inst x).variant = s.variant := rfl
@[simp] theorem State.setInst_clk (s : State) (b item inst : Nat) (x : CalInst) : (s.setInst b item inst x).clk = s.clk := rfl
@[simp] theorem State.setInst_regs (s : State) (b item inst : Nat) (x : CalInst) : (s.setInst b item inst x).regs = s.regs := rfl
@[simp] theorem State.setInst_shadow (s : State) (b item inst : Nat) (x : CalInst) : (s.setInst b item inst x).shadow = s.shadow := rfl
@[simp] theorem State.setInst_dirty (s : State) (b item inst : Nat) (x : CalInst) : (s.setInst b item inst x).dirty = s.dirty := rfl
@[simp] theorem State.setInst_latch (s : State) (b item inst : Nat) (x : CalInst) : (s.setInst b item inst x).latch = s.latch := rfl
@[simp] theorem State.setInst_hold (s : State) (b item inst : Nat) (x : CalInst) : (s.setInst b item inst x).hold = s.hold := rfl
@[simp] theorem State.setInst_commits (s : State) (b item inst : Nat) (x : CalInst) : (s.setInst b item inst x).commits = s.commits := rfl
@[simp] theorem State.setInst_ev (s : State) (b item inst : Nat) (x : CalInst) : (s.setInst b item inst x).ev = s.ev := rfl
@[simp] theorem State.setInst_mem (s : State) (b item inst : Nat) (x : CalInst) : (s.setInst b item inst x).mem = s.mem := rfl
@[simp] theorem State.setInst_poison (s : State) (b item inst : Nat) (x : CalInst) : (s.setInst b item inst x).poison = s.poison := rfl
@[simp] theorem State.setInst_queues (s : State) (b item inst : Nat) (x : CalInst) : (s.setInst b item inst x).queues = s.queues := rfl
@[simp] theorem State.setInst_flight (s : State) (b item inst : Nat) (x : CalInst) : (s.setInst b item inst x).flight = s.flight := rfl
@[simp] theorem State.setInst_edges (s : State) (b item inst : Nat) (x : CalInst) : (s.setInst b item inst x).edges = s.edges := rfl
@[simp] theorem State.setInst_seqs (s : State) (b item inst : Nat) (x : CalInst) : (s.setInst b item inst x).seqs = s.seqs := rfl
@[simp] theorem State.setInst_barriers (s : State) (b item inst : Nat) (x : CalInst) : (s.setInst b item inst x).barriers = s.barriers := rfl
@[simp] theorem State.setInst_verdicts (s : State) (b item inst : Nat) (x : CalInst) : (s.setInst b item inst x).verdicts = s.verdicts := rfl
@[simp] theorem State.setInst_serial (s : State) (b item inst : Nat) (x : CalInst) : (s.setInst b item inst x).serial = s.serial := rfl
@[simp] theorem State.setInst_ridge (s : State) (b item inst : Nat) (x : CalInst) : (s.setInst b item inst x).ridge = s.ridge := rfl
@[simp] theorem State.setInst_pkgNum (s : State) (b item inst : Nat) (x : CalInst) : (s.setInst b item inst x).pkgNum = s.pkgNum := rfl
@[simp] theorem State.setInst_ptGen (s : State) (b item inst : Nat) (x : CalInst) : (s.setInst b item inst x).ptGen = s.ptGen := rfl
@[simp] theorem State.setInst_dmas (s : State) (b item inst : Nat) (x : CalInst) : (s.setInst b item inst x).dmas = s.dmas := rfl
@[simp] theorem State.setInst_tones (s : State) (b item inst : Nat) (x : CalInst) : (s.setInst b item inst x).tones = s.tones := rfl
@[simp] theorem State.setInst_touched (s : State) (b item inst : Nat) (x : CalInst) : (s.setInst b item inst x).touched = s.touched := rfl
@[simp] theorem State.setInst_dacHold (s : State) (b item inst : Nat) (x : CalInst) : (s.setInst b item inst x).dacHold = s.dacHold := rfl
@[simp] theorem State.setInst_dacAt (s : State) (b item inst : Nat) (x : CalInst) : (s.setInst b item inst x).dacAt = s.dacAt := rfl
@[simp] theorem State.setInst_streams (s : State) (b item inst : Nat) (x : CalInst) : (s.setInst b item inst x).streams = s.streams := rfl
@[simp] theorem State.setInst_failLog (s : State) (b item inst : Nat) (x : CalInst) : (s.setInst b item inst x).failLog = s.failLog := rfl
@[simp] theorem State.setInst_caps (s : State) (b item inst : Nat) (x : CalInst) : (s.setInst b item inst x).caps = s.caps := rfl
@[simp] theorem State.setInst_vseen (s : State) (b item inst : Nat) (x : CalInst) : (s.setInst b item inst x).vseen = s.vseen := rfl
@[simp] theorem State.setInst_tius (s : State) (b item inst : Nat) (x : CalInst) : (s.setInst b item inst x).tius = s.tius := rfl
@[simp] theorem State.setInst_fres (s : State) (b item inst : Nat) (x : CalInst) : (s.setInst b item inst x).fres = s.fres := rfl
@[simp] theorem State.setInst_stampIns (s : State) (b item inst : Nat) (x : CalInst) : (s.setInst b item inst x).stampIns = s.stampIns := rfl
@[simp] theorem State.setInst_edgeStamp (s : State) (b item inst : Nat) (x : CalInst) : (s.setInst b item inst x).edgeStamp = s.edgeStamp := rfl
@[simp] theorem State.setInst_recGap (s : State) (b item inst : Nat) (x : CalInst) : (s.setInst b item inst x).recGap = s.recGap := rfl
@[simp] theorem State.setInst_signQ (s : State) (b item inst : Nat) (x : CalInst) : (s.setInst b item inst x).signQ = s.signQ := rfl
@[simp] theorem State.setInst_signSeq (s : State) (b item inst : Nat) (x : CalInst) : (s.setInst b item inst x).signSeq = s.signSeq := rfl
@[simp] theorem State.setInst_recHeld (s : State) (b item inst : Nat) (x : CalInst) : (s.setInst b item inst x).recHeld = s.recHeld := rfl
@[simp] theorem State.setInst_drainPt (s : State) (b item inst : Nat) (x : CalInst) : (s.setInst b item inst x).drainPt = s.drainPt := rfl
@[simp] theorem State.setInst_wakes (s : State) (b item inst : Nat) (x : CalInst) : (s.setInst b item inst x).wakes = s.wakes := rfl
@[simp] theorem State.setInst_cals (s : State) (b item inst : Nat) (x : CalInst) : (s.setInst b item inst x).cals = s.cals := rfl
@[simp] theorem State.setInst_tb (s : State) (b item inst : Nat) (x : CalInst) : (s.setInst b item inst x).tb = s.tb := rfl
@[simp] theorem State.setInst_sills (s : State) (b item inst : Nat) (x : CalInst) : (s.setInst b item inst x).sills = s.sills := rfl
@[simp] theorem State.setInst_takeovers (s : State) (b item inst : Nat) (x : CalInst) : (s.setInst b item inst x).takeovers = s.takeovers := rfl
@[simp] theorem State.setInst_souts (s : State) (b item inst : Nat) (x : CalInst) : (s.setInst b item inst x).souts = s.souts := rfl
@[simp] theorem State.setInst_ptOff (s : State) (b item inst : Nat) (x : CalInst) : (s.setInst b item inst x).ptOff = s.ptOff := rfl
@[simp] theorem State.setInst_tree (s : State) (b item inst : Nat) (x : CalInst) : (s.setInst b item inst x).tree = s.tree := rfl
@[simp] theorem State.setInst_ports (s : State) (b item inst : Nat) (x : CalInst) : (s.setInst b item inst x).ports = s.ports := rfl
@[simp] theorem State.setInst_meters (s : State) (b item inst : Nat) (x : CalInst) : (s.setInst b item inst x).meters = s.meters := rfl
@[simp] theorem State.setInst_account (s : State) (b item inst : Nat) (x : CalInst) : (s.setInst b item inst x).account = s.account := rfl
@[simp] theorem State.setInst_boot (s : State) (b item inst : Nat) (x : CalInst) : (s.setInst b item inst x).boot = s.boot := rfl
@[simp] theorem State.setInst_spdm (s : State) (b item inst : Nat) (x : CalInst) : (s.setInst b item inst x).spdm = s.spdm := rfl
@[simp] theorem State.setInst_tunnels (s : State) (b item inst : Nat) (x : CalInst) : (s.setInst b item inst x).tunnels = s.tunnels := rfl
@[simp] theorem State.setInst_tempOff (s : State) (b item inst : Nat) (x : CalInst) : (s.setInst b item inst x).tempOff = s.tempOff := rfl
@[simp] theorem State.setInst_readyOff (s : State) (b item inst : Nat) (x : CalInst) : (s.setInst b item inst x).readyOff = s.readyOff := rfl
@[simp] theorem State.setInst_free (s : State) (b item inst : Nat) (x : CalInst) : (s.setInst b item inst x).free = s.free := rfl
@[simp] theorem State.reg_setInst (s : State) (b item inst : Nat) (x : CalInst) (a : Nat) : (s.setInst b item inst x).reg a = s.reg a := rfl
@[simp] theorem State.rd_setInst (s : State) (b item inst : Nat) (x : CalInst) (a : Nat) : (s.setInst b item inst x).rd a = s.rd a := rfl
@[simp] theorem State.fld_setInst (s : State) (b item inst : Nat) (x : CalInst) (a lo len : Nat) : (s.setInst b item inst x).fld a lo len = s.fld a lo len := rfl
@[simp] theorem State.bit_setInst (s : State) (b item inst : Nat) (x : CalInst) (a j : Nat) : (s.setInst b item inst x).bit a j = s.bit a j := rfl

/-! ### setSill -/

@[simp] theorem State.setSill_pending (s : State) (b k : Nat) (x : Sill) : (s.setSill b k x).pending = s.pending := rfl
@[simp] theorem State.setSill_variant (s : State) (b k : Nat) (x : Sill) : (s.setSill b k x).variant = s.variant := rfl
@[simp] theorem State.setSill_clk (s : State) (b k : Nat) (x : Sill) : (s.setSill b k x).clk = s.clk := rfl
@[simp] theorem State.setSill_regs (s : State) (b k : Nat) (x : Sill) : (s.setSill b k x).regs = s.regs := rfl
@[simp] theorem State.setSill_shadow (s : State) (b k : Nat) (x : Sill) : (s.setSill b k x).shadow = s.shadow := rfl
@[simp] theorem State.setSill_dirty (s : State) (b k : Nat) (x : Sill) : (s.setSill b k x).dirty = s.dirty := rfl
@[simp] theorem State.setSill_latch (s : State) (b k : Nat) (x : Sill) : (s.setSill b k x).latch = s.latch := rfl
@[simp] theorem State.setSill_hold (s : State) (b k : Nat) (x : Sill) : (s.setSill b k x).hold = s.hold := rfl
@[simp] theorem State.setSill_commits (s : State) (b k : Nat) (x : Sill) : (s.setSill b k x).commits = s.commits := rfl
@[simp] theorem State.setSill_ev (s : State) (b k : Nat) (x : Sill) : (s.setSill b k x).ev = s.ev := rfl
@[simp] theorem State.setSill_mem (s : State) (b k : Nat) (x : Sill) : (s.setSill b k x).mem = s.mem := rfl
@[simp] theorem State.setSill_poison (s : State) (b k : Nat) (x : Sill) : (s.setSill b k x).poison = s.poison := rfl
@[simp] theorem State.setSill_queues (s : State) (b k : Nat) (x : Sill) : (s.setSill b k x).queues = s.queues := rfl
@[simp] theorem State.setSill_flight (s : State) (b k : Nat) (x : Sill) : (s.setSill b k x).flight = s.flight := rfl
@[simp] theorem State.setSill_edges (s : State) (b k : Nat) (x : Sill) : (s.setSill b k x).edges = s.edges := rfl
@[simp] theorem State.setSill_seqs (s : State) (b k : Nat) (x : Sill) : (s.setSill b k x).seqs = s.seqs := rfl
@[simp] theorem State.setSill_barriers (s : State) (b k : Nat) (x : Sill) : (s.setSill b k x).barriers = s.barriers := rfl
@[simp] theorem State.setSill_verdicts (s : State) (b k : Nat) (x : Sill) : (s.setSill b k x).verdicts = s.verdicts := rfl
@[simp] theorem State.setSill_serial (s : State) (b k : Nat) (x : Sill) : (s.setSill b k x).serial = s.serial := rfl
@[simp] theorem State.setSill_ridge (s : State) (b k : Nat) (x : Sill) : (s.setSill b k x).ridge = s.ridge := rfl
@[simp] theorem State.setSill_pkgNum (s : State) (b k : Nat) (x : Sill) : (s.setSill b k x).pkgNum = s.pkgNum := rfl
@[simp] theorem State.setSill_ptGen (s : State) (b k : Nat) (x : Sill) : (s.setSill b k x).ptGen = s.ptGen := rfl
@[simp] theorem State.setSill_dmas (s : State) (b k : Nat) (x : Sill) : (s.setSill b k x).dmas = s.dmas := rfl
@[simp] theorem State.setSill_tones (s : State) (b k : Nat) (x : Sill) : (s.setSill b k x).tones = s.tones := rfl
@[simp] theorem State.setSill_touched (s : State) (b k : Nat) (x : Sill) : (s.setSill b k x).touched = s.touched := rfl
@[simp] theorem State.setSill_dacHold (s : State) (b k : Nat) (x : Sill) : (s.setSill b k x).dacHold = s.dacHold := rfl
@[simp] theorem State.setSill_dacAt (s : State) (b k : Nat) (x : Sill) : (s.setSill b k x).dacAt = s.dacAt := rfl
@[simp] theorem State.setSill_streams (s : State) (b k : Nat) (x : Sill) : (s.setSill b k x).streams = s.streams := rfl
@[simp] theorem State.setSill_failLog (s : State) (b k : Nat) (x : Sill) : (s.setSill b k x).failLog = s.failLog := rfl
@[simp] theorem State.setSill_caps (s : State) (b k : Nat) (x : Sill) : (s.setSill b k x).caps = s.caps := rfl
@[simp] theorem State.setSill_vseen (s : State) (b k : Nat) (x : Sill) : (s.setSill b k x).vseen = s.vseen := rfl
@[simp] theorem State.setSill_tius (s : State) (b k : Nat) (x : Sill) : (s.setSill b k x).tius = s.tius := rfl
@[simp] theorem State.setSill_fres (s : State) (b k : Nat) (x : Sill) : (s.setSill b k x).fres = s.fres := rfl
@[simp] theorem State.setSill_stampIns (s : State) (b k : Nat) (x : Sill) : (s.setSill b k x).stampIns = s.stampIns := rfl
@[simp] theorem State.setSill_edgeStamp (s : State) (b k : Nat) (x : Sill) : (s.setSill b k x).edgeStamp = s.edgeStamp := rfl
@[simp] theorem State.setSill_recGap (s : State) (b k : Nat) (x : Sill) : (s.setSill b k x).recGap = s.recGap := rfl
@[simp] theorem State.setSill_signQ (s : State) (b k : Nat) (x : Sill) : (s.setSill b k x).signQ = s.signQ := rfl
@[simp] theorem State.setSill_signSeq (s : State) (b k : Nat) (x : Sill) : (s.setSill b k x).signSeq = s.signSeq := rfl
@[simp] theorem State.setSill_recHeld (s : State) (b k : Nat) (x : Sill) : (s.setSill b k x).recHeld = s.recHeld := rfl
@[simp] theorem State.setSill_drainPt (s : State) (b k : Nat) (x : Sill) : (s.setSill b k x).drainPt = s.drainPt := rfl
@[simp] theorem State.setSill_wakes (s : State) (b k : Nat) (x : Sill) : (s.setSill b k x).wakes = s.wakes := rfl
@[simp] theorem State.setSill_cals (s : State) (b k : Nat) (x : Sill) : (s.setSill b k x).cals = s.cals := rfl
@[simp] theorem State.setSill_calInsts (s : State) (b k : Nat) (x : Sill) : (s.setSill b k x).calInsts = s.calInsts := rfl
@[simp] theorem State.setSill_tb (s : State) (b k : Nat) (x : Sill) : (s.setSill b k x).tb = s.tb := rfl
@[simp] theorem State.setSill_takeovers (s : State) (b k : Nat) (x : Sill) : (s.setSill b k x).takeovers = s.takeovers := rfl
@[simp] theorem State.setSill_souts (s : State) (b k : Nat) (x : Sill) : (s.setSill b k x).souts = s.souts := rfl
@[simp] theorem State.setSill_ptOff (s : State) (b k : Nat) (x : Sill) : (s.setSill b k x).ptOff = s.ptOff := rfl
@[simp] theorem State.setSill_tree (s : State) (b k : Nat) (x : Sill) : (s.setSill b k x).tree = s.tree := rfl
@[simp] theorem State.setSill_ports (s : State) (b k : Nat) (x : Sill) : (s.setSill b k x).ports = s.ports := rfl
@[simp] theorem State.setSill_meters (s : State) (b k : Nat) (x : Sill) : (s.setSill b k x).meters = s.meters := rfl
@[simp] theorem State.setSill_account (s : State) (b k : Nat) (x : Sill) : (s.setSill b k x).account = s.account := rfl
@[simp] theorem State.setSill_boot (s : State) (b k : Nat) (x : Sill) : (s.setSill b k x).boot = s.boot := rfl
@[simp] theorem State.setSill_spdm (s : State) (b k : Nat) (x : Sill) : (s.setSill b k x).spdm = s.spdm := rfl
@[simp] theorem State.setSill_tunnels (s : State) (b k : Nat) (x : Sill) : (s.setSill b k x).tunnels = s.tunnels := rfl
@[simp] theorem State.setSill_tempOff (s : State) (b k : Nat) (x : Sill) : (s.setSill b k x).tempOff = s.tempOff := rfl
@[simp] theorem State.setSill_readyOff (s : State) (b k : Nat) (x : Sill) : (s.setSill b k x).readyOff = s.readyOff := rfl
@[simp] theorem State.setSill_free (s : State) (b k : Nat) (x : Sill) : (s.setSill b k x).free = s.free := rfl
@[simp] theorem State.reg_setSill (s : State) (b k : Nat) (x : Sill) (a : Nat) : (s.setSill b k x).reg a = s.reg a := rfl
@[simp] theorem State.rd_setSill (s : State) (b k : Nat) (x : Sill) (a : Nat) : (s.setSill b k x).rd a = s.rd a := rfl
@[simp] theorem State.fld_setSill (s : State) (b k : Nat) (x : Sill) (a lo len : Nat) : (s.setSill b k x).fld a lo len = s.fld a lo len := rfl
@[simp] theorem State.bit_setSill (s : State) (b k : Nat) (x : Sill) (a j : Nat) : (s.setSill b k x).bit a j = s.bit a j := rfl

/-! ### setPort -/

@[simp] theorem State.setPort_pending (s : State) (b k : Nat) (x : Port) : (s.setPort b k x).pending = s.pending := rfl
@[simp] theorem State.setPort_variant (s : State) (b k : Nat) (x : Port) : (s.setPort b k x).variant = s.variant := rfl
@[simp] theorem State.setPort_clk (s : State) (b k : Nat) (x : Port) : (s.setPort b k x).clk = s.clk := rfl
@[simp] theorem State.setPort_regs (s : State) (b k : Nat) (x : Port) : (s.setPort b k x).regs = s.regs := rfl
@[simp] theorem State.setPort_shadow (s : State) (b k : Nat) (x : Port) : (s.setPort b k x).shadow = s.shadow := rfl
@[simp] theorem State.setPort_dirty (s : State) (b k : Nat) (x : Port) : (s.setPort b k x).dirty = s.dirty := rfl
@[simp] theorem State.setPort_latch (s : State) (b k : Nat) (x : Port) : (s.setPort b k x).latch = s.latch := rfl
@[simp] theorem State.setPort_hold (s : State) (b k : Nat) (x : Port) : (s.setPort b k x).hold = s.hold := rfl
@[simp] theorem State.setPort_commits (s : State) (b k : Nat) (x : Port) : (s.setPort b k x).commits = s.commits := rfl
@[simp] theorem State.setPort_ev (s : State) (b k : Nat) (x : Port) : (s.setPort b k x).ev = s.ev := rfl
@[simp] theorem State.setPort_mem (s : State) (b k : Nat) (x : Port) : (s.setPort b k x).mem = s.mem := rfl
@[simp] theorem State.setPort_poison (s : State) (b k : Nat) (x : Port) : (s.setPort b k x).poison = s.poison := rfl
@[simp] theorem State.setPort_queues (s : State) (b k : Nat) (x : Port) : (s.setPort b k x).queues = s.queues := rfl
@[simp] theorem State.setPort_flight (s : State) (b k : Nat) (x : Port) : (s.setPort b k x).flight = s.flight := rfl
@[simp] theorem State.setPort_edges (s : State) (b k : Nat) (x : Port) : (s.setPort b k x).edges = s.edges := rfl
@[simp] theorem State.setPort_seqs (s : State) (b k : Nat) (x : Port) : (s.setPort b k x).seqs = s.seqs := rfl
@[simp] theorem State.setPort_barriers (s : State) (b k : Nat) (x : Port) : (s.setPort b k x).barriers = s.barriers := rfl
@[simp] theorem State.setPort_verdicts (s : State) (b k : Nat) (x : Port) : (s.setPort b k x).verdicts = s.verdicts := rfl
@[simp] theorem State.setPort_serial (s : State) (b k : Nat) (x : Port) : (s.setPort b k x).serial = s.serial := rfl
@[simp] theorem State.setPort_ridge (s : State) (b k : Nat) (x : Port) : (s.setPort b k x).ridge = s.ridge := rfl
@[simp] theorem State.setPort_pkgNum (s : State) (b k : Nat) (x : Port) : (s.setPort b k x).pkgNum = s.pkgNum := rfl
@[simp] theorem State.setPort_ptGen (s : State) (b k : Nat) (x : Port) : (s.setPort b k x).ptGen = s.ptGen := rfl
@[simp] theorem State.setPort_dmas (s : State) (b k : Nat) (x : Port) : (s.setPort b k x).dmas = s.dmas := rfl
@[simp] theorem State.setPort_tones (s : State) (b k : Nat) (x : Port) : (s.setPort b k x).tones = s.tones := rfl
@[simp] theorem State.setPort_touched (s : State) (b k : Nat) (x : Port) : (s.setPort b k x).touched = s.touched := rfl
@[simp] theorem State.setPort_dacHold (s : State) (b k : Nat) (x : Port) : (s.setPort b k x).dacHold = s.dacHold := rfl
@[simp] theorem State.setPort_dacAt (s : State) (b k : Nat) (x : Port) : (s.setPort b k x).dacAt = s.dacAt := rfl
@[simp] theorem State.setPort_streams (s : State) (b k : Nat) (x : Port) : (s.setPort b k x).streams = s.streams := rfl
@[simp] theorem State.setPort_failLog (s : State) (b k : Nat) (x : Port) : (s.setPort b k x).failLog = s.failLog := rfl
@[simp] theorem State.setPort_caps (s : State) (b k : Nat) (x : Port) : (s.setPort b k x).caps = s.caps := rfl
@[simp] theorem State.setPort_vseen (s : State) (b k : Nat) (x : Port) : (s.setPort b k x).vseen = s.vseen := rfl
@[simp] theorem State.setPort_tius (s : State) (b k : Nat) (x : Port) : (s.setPort b k x).tius = s.tius := rfl
@[simp] theorem State.setPort_fres (s : State) (b k : Nat) (x : Port) : (s.setPort b k x).fres = s.fres := rfl
@[simp] theorem State.setPort_stampIns (s : State) (b k : Nat) (x : Port) : (s.setPort b k x).stampIns = s.stampIns := rfl
@[simp] theorem State.setPort_edgeStamp (s : State) (b k : Nat) (x : Port) : (s.setPort b k x).edgeStamp = s.edgeStamp := rfl
@[simp] theorem State.setPort_recGap (s : State) (b k : Nat) (x : Port) : (s.setPort b k x).recGap = s.recGap := rfl
@[simp] theorem State.setPort_signQ (s : State) (b k : Nat) (x : Port) : (s.setPort b k x).signQ = s.signQ := rfl
@[simp] theorem State.setPort_signSeq (s : State) (b k : Nat) (x : Port) : (s.setPort b k x).signSeq = s.signSeq := rfl
@[simp] theorem State.setPort_recHeld (s : State) (b k : Nat) (x : Port) : (s.setPort b k x).recHeld = s.recHeld := rfl
@[simp] theorem State.setPort_drainPt (s : State) (b k : Nat) (x : Port) : (s.setPort b k x).drainPt = s.drainPt := rfl
@[simp] theorem State.setPort_wakes (s : State) (b k : Nat) (x : Port) : (s.setPort b k x).wakes = s.wakes := rfl
@[simp] theorem State.setPort_cals (s : State) (b k : Nat) (x : Port) : (s.setPort b k x).cals = s.cals := rfl
@[simp] theorem State.setPort_calInsts (s : State) (b k : Nat) (x : Port) : (s.setPort b k x).calInsts = s.calInsts := rfl
@[simp] theorem State.setPort_tb (s : State) (b k : Nat) (x : Port) : (s.setPort b k x).tb = s.tb := rfl
@[simp] theorem State.setPort_sills (s : State) (b k : Nat) (x : Port) : (s.setPort b k x).sills = s.sills := rfl
@[simp] theorem State.setPort_takeovers (s : State) (b k : Nat) (x : Port) : (s.setPort b k x).takeovers = s.takeovers := rfl
@[simp] theorem State.setPort_souts (s : State) (b k : Nat) (x : Port) : (s.setPort b k x).souts = s.souts := rfl
@[simp] theorem State.setPort_ptOff (s : State) (b k : Nat) (x : Port) : (s.setPort b k x).ptOff = s.ptOff := rfl
@[simp] theorem State.setPort_tree (s : State) (b k : Nat) (x : Port) : (s.setPort b k x).tree = s.tree := rfl
@[simp] theorem State.setPort_meters (s : State) (b k : Nat) (x : Port) : (s.setPort b k x).meters = s.meters := rfl
@[simp] theorem State.setPort_account (s : State) (b k : Nat) (x : Port) : (s.setPort b k x).account = s.account := rfl
@[simp] theorem State.setPort_boot (s : State) (b k : Nat) (x : Port) : (s.setPort b k x).boot = s.boot := rfl
@[simp] theorem State.setPort_spdm (s : State) (b k : Nat) (x : Port) : (s.setPort b k x).spdm = s.spdm := rfl
@[simp] theorem State.setPort_tunnels (s : State) (b k : Nat) (x : Port) : (s.setPort b k x).tunnels = s.tunnels := rfl
@[simp] theorem State.setPort_tempOff (s : State) (b k : Nat) (x : Port) : (s.setPort b k x).tempOff = s.tempOff := rfl
@[simp] theorem State.setPort_readyOff (s : State) (b k : Nat) (x : Port) : (s.setPort b k x).readyOff = s.readyOff := rfl
@[simp] theorem State.setPort_free (s : State) (b k : Nat) (x : Port) : (s.setPort b k x).free = s.free := rfl
@[simp] theorem State.reg_setPort (s : State) (b k : Nat) (x : Port) (a : Nat) : (s.setPort b k x).reg a = s.reg a := rfl
@[simp] theorem State.rd_setPort (s : State) (b k : Nat) (x : Port) (a : Nat) : (s.setPort b k x).rd a = s.rd a := rfl
@[simp] theorem State.fld_setPort (s : State) (b k : Nat) (x : Port) (a lo len : Nat) : (s.setPort b k x).fld a lo len = s.fld a lo len := rfl
@[simp] theorem State.bit_setPort (s : State) (b k : Nat) (x : Port) (a j : Nat) : (s.setPort b k x).bit a j = s.bit a j := rfl

/-! ### setTiu -/

@[simp] theorem State.setTiu_pending (s : State) (b u : Nat) (x : Tiu) : (s.setTiu b u x).pending = s.pending := rfl
@[simp] theorem State.setTiu_variant (s : State) (b u : Nat) (x : Tiu) : (s.setTiu b u x).variant = s.variant := rfl
@[simp] theorem State.setTiu_clk (s : State) (b u : Nat) (x : Tiu) : (s.setTiu b u x).clk = s.clk := rfl
@[simp] theorem State.setTiu_regs (s : State) (b u : Nat) (x : Tiu) : (s.setTiu b u x).regs = s.regs := rfl
@[simp] theorem State.setTiu_shadow (s : State) (b u : Nat) (x : Tiu) : (s.setTiu b u x).shadow = s.shadow := rfl
@[simp] theorem State.setTiu_dirty (s : State) (b u : Nat) (x : Tiu) : (s.setTiu b u x).dirty = s.dirty := rfl
@[simp] theorem State.setTiu_latch (s : State) (b u : Nat) (x : Tiu) : (s.setTiu b u x).latch = s.latch := rfl
@[simp] theorem State.setTiu_hold (s : State) (b u : Nat) (x : Tiu) : (s.setTiu b u x).hold = s.hold := rfl
@[simp] theorem State.setTiu_commits (s : State) (b u : Nat) (x : Tiu) : (s.setTiu b u x).commits = s.commits := rfl
@[simp] theorem State.setTiu_ev (s : State) (b u : Nat) (x : Tiu) : (s.setTiu b u x).ev = s.ev := rfl
@[simp] theorem State.setTiu_mem (s : State) (b u : Nat) (x : Tiu) : (s.setTiu b u x).mem = s.mem := rfl
@[simp] theorem State.setTiu_poison (s : State) (b u : Nat) (x : Tiu) : (s.setTiu b u x).poison = s.poison := rfl
@[simp] theorem State.setTiu_queues (s : State) (b u : Nat) (x : Tiu) : (s.setTiu b u x).queues = s.queues := rfl
@[simp] theorem State.setTiu_flight (s : State) (b u : Nat) (x : Tiu) : (s.setTiu b u x).flight = s.flight := rfl
@[simp] theorem State.setTiu_edges (s : State) (b u : Nat) (x : Tiu) : (s.setTiu b u x).edges = s.edges := rfl
@[simp] theorem State.setTiu_seqs (s : State) (b u : Nat) (x : Tiu) : (s.setTiu b u x).seqs = s.seqs := rfl
@[simp] theorem State.setTiu_barriers (s : State) (b u : Nat) (x : Tiu) : (s.setTiu b u x).barriers = s.barriers := rfl
@[simp] theorem State.setTiu_verdicts (s : State) (b u : Nat) (x : Tiu) : (s.setTiu b u x).verdicts = s.verdicts := rfl
@[simp] theorem State.setTiu_serial (s : State) (b u : Nat) (x : Tiu) : (s.setTiu b u x).serial = s.serial := rfl
@[simp] theorem State.setTiu_ridge (s : State) (b u : Nat) (x : Tiu) : (s.setTiu b u x).ridge = s.ridge := rfl
@[simp] theorem State.setTiu_pkgNum (s : State) (b u : Nat) (x : Tiu) : (s.setTiu b u x).pkgNum = s.pkgNum := rfl
@[simp] theorem State.setTiu_ptGen (s : State) (b u : Nat) (x : Tiu) : (s.setTiu b u x).ptGen = s.ptGen := rfl
@[simp] theorem State.setTiu_dmas (s : State) (b u : Nat) (x : Tiu) : (s.setTiu b u x).dmas = s.dmas := rfl
@[simp] theorem State.setTiu_tones (s : State) (b u : Nat) (x : Tiu) : (s.setTiu b u x).tones = s.tones := rfl
@[simp] theorem State.setTiu_dacHold (s : State) (b u : Nat) (x : Tiu) : (s.setTiu b u x).dacHold = s.dacHold := rfl
@[simp] theorem State.setTiu_dacAt (s : State) (b u : Nat) (x : Tiu) : (s.setTiu b u x).dacAt = s.dacAt := rfl
@[simp] theorem State.setTiu_streams (s : State) (b u : Nat) (x : Tiu) : (s.setTiu b u x).streams = s.streams := rfl
@[simp] theorem State.setTiu_failLog (s : State) (b u : Nat) (x : Tiu) : (s.setTiu b u x).failLog = s.failLog := rfl
@[simp] theorem State.setTiu_caps (s : State) (b u : Nat) (x : Tiu) : (s.setTiu b u x).caps = s.caps := rfl
@[simp] theorem State.setTiu_vseen (s : State) (b u : Nat) (x : Tiu) : (s.setTiu b u x).vseen = s.vseen := rfl
@[simp] theorem State.setTiu_fres (s : State) (b u : Nat) (x : Tiu) : (s.setTiu b u x).fres = s.fres := rfl
@[simp] theorem State.setTiu_stampIns (s : State) (b u : Nat) (x : Tiu) : (s.setTiu b u x).stampIns = s.stampIns := rfl
@[simp] theorem State.setTiu_edgeStamp (s : State) (b u : Nat) (x : Tiu) : (s.setTiu b u x).edgeStamp = s.edgeStamp := rfl
@[simp] theorem State.setTiu_recGap (s : State) (b u : Nat) (x : Tiu) : (s.setTiu b u x).recGap = s.recGap := rfl
@[simp] theorem State.setTiu_signQ (s : State) (b u : Nat) (x : Tiu) : (s.setTiu b u x).signQ = s.signQ := rfl
@[simp] theorem State.setTiu_signSeq (s : State) (b u : Nat) (x : Tiu) : (s.setTiu b u x).signSeq = s.signSeq := rfl
@[simp] theorem State.setTiu_recHeld (s : State) (b u : Nat) (x : Tiu) : (s.setTiu b u x).recHeld = s.recHeld := rfl
@[simp] theorem State.setTiu_drainPt (s : State) (b u : Nat) (x : Tiu) : (s.setTiu b u x).drainPt = s.drainPt := rfl
@[simp] theorem State.setTiu_wakes (s : State) (b u : Nat) (x : Tiu) : (s.setTiu b u x).wakes = s.wakes := rfl
@[simp] theorem State.setTiu_cals (s : State) (b u : Nat) (x : Tiu) : (s.setTiu b u x).cals = s.cals := rfl
@[simp] theorem State.setTiu_calInsts (s : State) (b u : Nat) (x : Tiu) : (s.setTiu b u x).calInsts = s.calInsts := rfl
@[simp] theorem State.setTiu_tb (s : State) (b u : Nat) (x : Tiu) : (s.setTiu b u x).tb = s.tb := rfl
@[simp] theorem State.setTiu_sills (s : State) (b u : Nat) (x : Tiu) : (s.setTiu b u x).sills = s.sills := rfl
@[simp] theorem State.setTiu_takeovers (s : State) (b u : Nat) (x : Tiu) : (s.setTiu b u x).takeovers = s.takeovers := rfl
@[simp] theorem State.setTiu_souts (s : State) (b u : Nat) (x : Tiu) : (s.setTiu b u x).souts = s.souts := rfl
@[simp] theorem State.setTiu_ptOff (s : State) (b u : Nat) (x : Tiu) : (s.setTiu b u x).ptOff = s.ptOff := rfl
@[simp] theorem State.setTiu_tree (s : State) (b u : Nat) (x : Tiu) : (s.setTiu b u x).tree = s.tree := rfl
@[simp] theorem State.setTiu_ports (s : State) (b u : Nat) (x : Tiu) : (s.setTiu b u x).ports = s.ports := rfl
@[simp] theorem State.setTiu_meters (s : State) (b u : Nat) (x : Tiu) : (s.setTiu b u x).meters = s.meters := rfl
@[simp] theorem State.setTiu_account (s : State) (b u : Nat) (x : Tiu) : (s.setTiu b u x).account = s.account := rfl
@[simp] theorem State.setTiu_boot (s : State) (b u : Nat) (x : Tiu) : (s.setTiu b u x).boot = s.boot := rfl
@[simp] theorem State.setTiu_spdm (s : State) (b u : Nat) (x : Tiu) : (s.setTiu b u x).spdm = s.spdm := rfl
@[simp] theorem State.setTiu_tunnels (s : State) (b u : Nat) (x : Tiu) : (s.setTiu b u x).tunnels = s.tunnels := rfl
@[simp] theorem State.setTiu_tempOff (s : State) (b u : Nat) (x : Tiu) : (s.setTiu b u x).tempOff = s.tempOff := rfl
@[simp] theorem State.setTiu_readyOff (s : State) (b u : Nat) (x : Tiu) : (s.setTiu b u x).readyOff = s.readyOff := rfl
@[simp] theorem State.setTiu_free (s : State) (b u : Nat) (x : Tiu) : (s.setTiu b u x).free = s.free := rfl
@[simp] theorem State.reg_setTiu (s : State) (b u : Nat) (x : Tiu) (a : Nat) : (s.setTiu b u x).reg a = s.reg a := rfl
@[simp] theorem State.rd_setTiu (s : State) (b u : Nat) (x : Tiu) (a : Nat) : (s.setTiu b u x).rd a = s.rd a := rfl
@[simp] theorem State.fld_setTiu (s : State) (b u : Nat) (x : Tiu) (a lo len : Nat) : (s.setTiu b u x).fld a lo len = s.fld a lo len := rfl
@[simp] theorem State.bit_setTiu (s : State) (b u : Nat) (x : Tiu) (a j : Nat) : (s.setTiu b u x).bit a j = s.bit a j := rfl

/-! ### setFre -/

@[simp] theorem State.setFre_pending (s : State) (b e : Nat) (x : Fre) : (s.setFre b e x).pending = s.pending := rfl
@[simp] theorem State.setFre_variant (s : State) (b e : Nat) (x : Fre) : (s.setFre b e x).variant = s.variant := rfl
@[simp] theorem State.setFre_clk (s : State) (b e : Nat) (x : Fre) : (s.setFre b e x).clk = s.clk := rfl
@[simp] theorem State.setFre_regs (s : State) (b e : Nat) (x : Fre) : (s.setFre b e x).regs = s.regs := rfl
@[simp] theorem State.setFre_shadow (s : State) (b e : Nat) (x : Fre) : (s.setFre b e x).shadow = s.shadow := rfl
@[simp] theorem State.setFre_dirty (s : State) (b e : Nat) (x : Fre) : (s.setFre b e x).dirty = s.dirty := rfl
@[simp] theorem State.setFre_latch (s : State) (b e : Nat) (x : Fre) : (s.setFre b e x).latch = s.latch := rfl
@[simp] theorem State.setFre_hold (s : State) (b e : Nat) (x : Fre) : (s.setFre b e x).hold = s.hold := rfl
@[simp] theorem State.setFre_commits (s : State) (b e : Nat) (x : Fre) : (s.setFre b e x).commits = s.commits := rfl
@[simp] theorem State.setFre_ev (s : State) (b e : Nat) (x : Fre) : (s.setFre b e x).ev = s.ev := rfl
@[simp] theorem State.setFre_mem (s : State) (b e : Nat) (x : Fre) : (s.setFre b e x).mem = s.mem := rfl
@[simp] theorem State.setFre_poison (s : State) (b e : Nat) (x : Fre) : (s.setFre b e x).poison = s.poison := rfl
@[simp] theorem State.setFre_queues (s : State) (b e : Nat) (x : Fre) : (s.setFre b e x).queues = s.queues := rfl
@[simp] theorem State.setFre_flight (s : State) (b e : Nat) (x : Fre) : (s.setFre b e x).flight = s.flight := rfl
@[simp] theorem State.setFre_edges (s : State) (b e : Nat) (x : Fre) : (s.setFre b e x).edges = s.edges := rfl
@[simp] theorem State.setFre_seqs (s : State) (b e : Nat) (x : Fre) : (s.setFre b e x).seqs = s.seqs := rfl
@[simp] theorem State.setFre_barriers (s : State) (b e : Nat) (x : Fre) : (s.setFre b e x).barriers = s.barriers := rfl
@[simp] theorem State.setFre_verdicts (s : State) (b e : Nat) (x : Fre) : (s.setFre b e x).verdicts = s.verdicts := rfl
@[simp] theorem State.setFre_serial (s : State) (b e : Nat) (x : Fre) : (s.setFre b e x).serial = s.serial := rfl
@[simp] theorem State.setFre_ridge (s : State) (b e : Nat) (x : Fre) : (s.setFre b e x).ridge = s.ridge := rfl
@[simp] theorem State.setFre_pkgNum (s : State) (b e : Nat) (x : Fre) : (s.setFre b e x).pkgNum = s.pkgNum := rfl
@[simp] theorem State.setFre_ptGen (s : State) (b e : Nat) (x : Fre) : (s.setFre b e x).ptGen = s.ptGen := rfl
@[simp] theorem State.setFre_dmas (s : State) (b e : Nat) (x : Fre) : (s.setFre b e x).dmas = s.dmas := rfl
@[simp] theorem State.setFre_tones (s : State) (b e : Nat) (x : Fre) : (s.setFre b e x).tones = s.tones := rfl
@[simp] theorem State.setFre_dacHold (s : State) (b e : Nat) (x : Fre) : (s.setFre b e x).dacHold = s.dacHold := rfl
@[simp] theorem State.setFre_dacAt (s : State) (b e : Nat) (x : Fre) : (s.setFre b e x).dacAt = s.dacAt := rfl
@[simp] theorem State.setFre_streams (s : State) (b e : Nat) (x : Fre) : (s.setFre b e x).streams = s.streams := rfl
@[simp] theorem State.setFre_failLog (s : State) (b e : Nat) (x : Fre) : (s.setFre b e x).failLog = s.failLog := rfl
@[simp] theorem State.setFre_caps (s : State) (b e : Nat) (x : Fre) : (s.setFre b e x).caps = s.caps := rfl
@[simp] theorem State.setFre_vseen (s : State) (b e : Nat) (x : Fre) : (s.setFre b e x).vseen = s.vseen := rfl
@[simp] theorem State.setFre_tius (s : State) (b e : Nat) (x : Fre) : (s.setFre b e x).tius = s.tius := rfl
@[simp] theorem State.setFre_stampIns (s : State) (b e : Nat) (x : Fre) : (s.setFre b e x).stampIns = s.stampIns := rfl
@[simp] theorem State.setFre_edgeStamp (s : State) (b e : Nat) (x : Fre) : (s.setFre b e x).edgeStamp = s.edgeStamp := rfl
@[simp] theorem State.setFre_recGap (s : State) (b e : Nat) (x : Fre) : (s.setFre b e x).recGap = s.recGap := rfl
@[simp] theorem State.setFre_signQ (s : State) (b e : Nat) (x : Fre) : (s.setFre b e x).signQ = s.signQ := rfl
@[simp] theorem State.setFre_signSeq (s : State) (b e : Nat) (x : Fre) : (s.setFre b e x).signSeq = s.signSeq := rfl
@[simp] theorem State.setFre_recHeld (s : State) (b e : Nat) (x : Fre) : (s.setFre b e x).recHeld = s.recHeld := rfl
@[simp] theorem State.setFre_drainPt (s : State) (b e : Nat) (x : Fre) : (s.setFre b e x).drainPt = s.drainPt := rfl
@[simp] theorem State.setFre_wakes (s : State) (b e : Nat) (x : Fre) : (s.setFre b e x).wakes = s.wakes := rfl
@[simp] theorem State.setFre_cals (s : State) (b e : Nat) (x : Fre) : (s.setFre b e x).cals = s.cals := rfl
@[simp] theorem State.setFre_calInsts (s : State) (b e : Nat) (x : Fre) : (s.setFre b e x).calInsts = s.calInsts := rfl
@[simp] theorem State.setFre_tb (s : State) (b e : Nat) (x : Fre) : (s.setFre b e x).tb = s.tb := rfl
@[simp] theorem State.setFre_sills (s : State) (b e : Nat) (x : Fre) : (s.setFre b e x).sills = s.sills := rfl
@[simp] theorem State.setFre_takeovers (s : State) (b e : Nat) (x : Fre) : (s.setFre b e x).takeovers = s.takeovers := rfl
@[simp] theorem State.setFre_souts (s : State) (b e : Nat) (x : Fre) : (s.setFre b e x).souts = s.souts := rfl
@[simp] theorem State.setFre_ptOff (s : State) (b e : Nat) (x : Fre) : (s.setFre b e x).ptOff = s.ptOff := rfl
@[simp] theorem State.setFre_tree (s : State) (b e : Nat) (x : Fre) : (s.setFre b e x).tree = s.tree := rfl
@[simp] theorem State.setFre_ports (s : State) (b e : Nat) (x : Fre) : (s.setFre b e x).ports = s.ports := rfl
@[simp] theorem State.setFre_meters (s : State) (b e : Nat) (x : Fre) : (s.setFre b e x).meters = s.meters := rfl
@[simp] theorem State.setFre_account (s : State) (b e : Nat) (x : Fre) : (s.setFre b e x).account = s.account := rfl
@[simp] theorem State.setFre_boot (s : State) (b e : Nat) (x : Fre) : (s.setFre b e x).boot = s.boot := rfl
@[simp] theorem State.setFre_spdm (s : State) (b e : Nat) (x : Fre) : (s.setFre b e x).spdm = s.spdm := rfl
@[simp] theorem State.setFre_tunnels (s : State) (b e : Nat) (x : Fre) : (s.setFre b e x).tunnels = s.tunnels := rfl
@[simp] theorem State.setFre_tempOff (s : State) (b e : Nat) (x : Fre) : (s.setFre b e x).tempOff = s.tempOff := rfl
@[simp] theorem State.setFre_readyOff (s : State) (b e : Nat) (x : Fre) : (s.setFre b e x).readyOff = s.readyOff := rfl
@[simp] theorem State.setFre_free (s : State) (b e : Nat) (x : Fre) : (s.setFre b e x).free = s.free := rfl
@[simp] theorem State.reg_setFre (s : State) (b e : Nat) (x : Fre) (a : Nat) : (s.setFre b e x).reg a = s.reg a := rfl
@[simp] theorem State.rd_setFre (s : State) (b e : Nat) (x : Fre) (a : Nat) : (s.setFre b e x).rd a = s.rd a := rfl
@[simp] theorem State.fld_setFre (s : State) (b e : Nat) (x : Fre) (a lo len : Nat) : (s.setFre b e x).fld a lo len = s.fld a lo len := rfl
@[simp] theorem State.bit_setFre (s : State) (b e : Nat) (x : Fre) (a j : Nat) : (s.setFre b e x).bit a j = s.bit a j := rfl

/-! ### setStampIn -/

@[simp] theorem State.setStampIn_pending (s : State) (b i : Nat) (x : StampIn) : (s.setStampIn b i x).pending = s.pending := rfl
@[simp] theorem State.setStampIn_variant (s : State) (b i : Nat) (x : StampIn) : (s.setStampIn b i x).variant = s.variant := rfl
@[simp] theorem State.setStampIn_clk (s : State) (b i : Nat) (x : StampIn) : (s.setStampIn b i x).clk = s.clk := rfl
@[simp] theorem State.setStampIn_regs (s : State) (b i : Nat) (x : StampIn) : (s.setStampIn b i x).regs = s.regs := rfl
@[simp] theorem State.setStampIn_shadow (s : State) (b i : Nat) (x : StampIn) : (s.setStampIn b i x).shadow = s.shadow := rfl
@[simp] theorem State.setStampIn_dirty (s : State) (b i : Nat) (x : StampIn) : (s.setStampIn b i x).dirty = s.dirty := rfl
@[simp] theorem State.setStampIn_latch (s : State) (b i : Nat) (x : StampIn) : (s.setStampIn b i x).latch = s.latch := rfl
@[simp] theorem State.setStampIn_hold (s : State) (b i : Nat) (x : StampIn) : (s.setStampIn b i x).hold = s.hold := rfl
@[simp] theorem State.setStampIn_commits (s : State) (b i : Nat) (x : StampIn) : (s.setStampIn b i x).commits = s.commits := rfl
@[simp] theorem State.setStampIn_ev (s : State) (b i : Nat) (x : StampIn) : (s.setStampIn b i x).ev = s.ev := rfl
@[simp] theorem State.setStampIn_mem (s : State) (b i : Nat) (x : StampIn) : (s.setStampIn b i x).mem = s.mem := rfl
@[simp] theorem State.setStampIn_poison (s : State) (b i : Nat) (x : StampIn) : (s.setStampIn b i x).poison = s.poison := rfl
@[simp] theorem State.setStampIn_queues (s : State) (b i : Nat) (x : StampIn) : (s.setStampIn b i x).queues = s.queues := rfl
@[simp] theorem State.setStampIn_flight (s : State) (b i : Nat) (x : StampIn) : (s.setStampIn b i x).flight = s.flight := rfl
@[simp] theorem State.setStampIn_edges (s : State) (b i : Nat) (x : StampIn) : (s.setStampIn b i x).edges = s.edges := rfl
@[simp] theorem State.setStampIn_seqs (s : State) (b i : Nat) (x : StampIn) : (s.setStampIn b i x).seqs = s.seqs := rfl
@[simp] theorem State.setStampIn_barriers (s : State) (b i : Nat) (x : StampIn) : (s.setStampIn b i x).barriers = s.barriers := rfl
@[simp] theorem State.setStampIn_verdicts (s : State) (b i : Nat) (x : StampIn) : (s.setStampIn b i x).verdicts = s.verdicts := rfl
@[simp] theorem State.setStampIn_serial (s : State) (b i : Nat) (x : StampIn) : (s.setStampIn b i x).serial = s.serial := rfl
@[simp] theorem State.setStampIn_ridge (s : State) (b i : Nat) (x : StampIn) : (s.setStampIn b i x).ridge = s.ridge := rfl
@[simp] theorem State.setStampIn_pkgNum (s : State) (b i : Nat) (x : StampIn) : (s.setStampIn b i x).pkgNum = s.pkgNum := rfl
@[simp] theorem State.setStampIn_ptGen (s : State) (b i : Nat) (x : StampIn) : (s.setStampIn b i x).ptGen = s.ptGen := rfl
@[simp] theorem State.setStampIn_dmas (s : State) (b i : Nat) (x : StampIn) : (s.setStampIn b i x).dmas = s.dmas := rfl
@[simp] theorem State.setStampIn_tones (s : State) (b i : Nat) (x : StampIn) : (s.setStampIn b i x).tones = s.tones := rfl
@[simp] theorem State.setStampIn_touched (s : State) (b i : Nat) (x : StampIn) : (s.setStampIn b i x).touched = s.touched := rfl
@[simp] theorem State.setStampIn_dacHold (s : State) (b i : Nat) (x : StampIn) : (s.setStampIn b i x).dacHold = s.dacHold := rfl
@[simp] theorem State.setStampIn_dacAt (s : State) (b i : Nat) (x : StampIn) : (s.setStampIn b i x).dacAt = s.dacAt := rfl
@[simp] theorem State.setStampIn_streams (s : State) (b i : Nat) (x : StampIn) : (s.setStampIn b i x).streams = s.streams := rfl
@[simp] theorem State.setStampIn_failLog (s : State) (b i : Nat) (x : StampIn) : (s.setStampIn b i x).failLog = s.failLog := rfl
@[simp] theorem State.setStampIn_caps (s : State) (b i : Nat) (x : StampIn) : (s.setStampIn b i x).caps = s.caps := rfl
@[simp] theorem State.setStampIn_vseen (s : State) (b i : Nat) (x : StampIn) : (s.setStampIn b i x).vseen = s.vseen := rfl
@[simp] theorem State.setStampIn_tius (s : State) (b i : Nat) (x : StampIn) : (s.setStampIn b i x).tius = s.tius := rfl
@[simp] theorem State.setStampIn_fres (s : State) (b i : Nat) (x : StampIn) : (s.setStampIn b i x).fres = s.fres := rfl
@[simp] theorem State.setStampIn_edgeStamp (s : State) (b i : Nat) (x : StampIn) : (s.setStampIn b i x).edgeStamp = s.edgeStamp := rfl
@[simp] theorem State.setStampIn_recGap (s : State) (b i : Nat) (x : StampIn) : (s.setStampIn b i x).recGap = s.recGap := rfl
@[simp] theorem State.setStampIn_signQ (s : State) (b i : Nat) (x : StampIn) : (s.setStampIn b i x).signQ = s.signQ := rfl
@[simp] theorem State.setStampIn_signSeq (s : State) (b i : Nat) (x : StampIn) : (s.setStampIn b i x).signSeq = s.signSeq := rfl
@[simp] theorem State.setStampIn_recHeld (s : State) (b i : Nat) (x : StampIn) : (s.setStampIn b i x).recHeld = s.recHeld := rfl
@[simp] theorem State.setStampIn_drainPt (s : State) (b i : Nat) (x : StampIn) : (s.setStampIn b i x).drainPt = s.drainPt := rfl
@[simp] theorem State.setStampIn_wakes (s : State) (b i : Nat) (x : StampIn) : (s.setStampIn b i x).wakes = s.wakes := rfl
@[simp] theorem State.setStampIn_cals (s : State) (b i : Nat) (x : StampIn) : (s.setStampIn b i x).cals = s.cals := rfl
@[simp] theorem State.setStampIn_calInsts (s : State) (b i : Nat) (x : StampIn) : (s.setStampIn b i x).calInsts = s.calInsts := rfl
@[simp] theorem State.setStampIn_tb (s : State) (b i : Nat) (x : StampIn) : (s.setStampIn b i x).tb = s.tb := rfl
@[simp] theorem State.setStampIn_sills (s : State) (b i : Nat) (x : StampIn) : (s.setStampIn b i x).sills = s.sills := rfl
@[simp] theorem State.setStampIn_takeovers (s : State) (b i : Nat) (x : StampIn) : (s.setStampIn b i x).takeovers = s.takeovers := rfl
@[simp] theorem State.setStampIn_souts (s : State) (b i : Nat) (x : StampIn) : (s.setStampIn b i x).souts = s.souts := rfl
@[simp] theorem State.setStampIn_ptOff (s : State) (b i : Nat) (x : StampIn) : (s.setStampIn b i x).ptOff = s.ptOff := rfl
@[simp] theorem State.setStampIn_tree (s : State) (b i : Nat) (x : StampIn) : (s.setStampIn b i x).tree = s.tree := rfl
@[simp] theorem State.setStampIn_ports (s : State) (b i : Nat) (x : StampIn) : (s.setStampIn b i x).ports = s.ports := rfl
@[simp] theorem State.setStampIn_meters (s : State) (b i : Nat) (x : StampIn) : (s.setStampIn b i x).meters = s.meters := rfl
@[simp] theorem State.setStampIn_account (s : State) (b i : Nat) (x : StampIn) : (s.setStampIn b i x).account = s.account := rfl
@[simp] theorem State.setStampIn_boot (s : State) (b i : Nat) (x : StampIn) : (s.setStampIn b i x).boot = s.boot := rfl
@[simp] theorem State.setStampIn_spdm (s : State) (b i : Nat) (x : StampIn) : (s.setStampIn b i x).spdm = s.spdm := rfl
@[simp] theorem State.setStampIn_tunnels (s : State) (b i : Nat) (x : StampIn) : (s.setStampIn b i x).tunnels = s.tunnels := rfl
@[simp] theorem State.setStampIn_tempOff (s : State) (b i : Nat) (x : StampIn) : (s.setStampIn b i x).tempOff = s.tempOff := rfl
@[simp] theorem State.setStampIn_readyOff (s : State) (b i : Nat) (x : StampIn) : (s.setStampIn b i x).readyOff = s.readyOff := rfl
@[simp] theorem State.setStampIn_free (s : State) (b i : Nat) (x : StampIn) : (s.setStampIn b i x).free = s.free := rfl
@[simp] theorem State.reg_setStampIn (s : State) (b i : Nat) (x : StampIn) (a : Nat) : (s.setStampIn b i x).reg a = s.reg a := rfl
@[simp] theorem State.rd_setStampIn (s : State) (b i : Nat) (x : StampIn) (a : Nat) : (s.setStampIn b i x).rd a = s.rd a := rfl
@[simp] theorem State.fld_setStampIn (s : State) (b i : Nat) (x : StampIn) (a lo len : Nat) : (s.setStampIn b i x).fld a lo len = s.fld a lo len := rfl
@[simp] theorem State.bit_setStampIn (s : State) (b i : Nat) (x : StampIn) (a j : Nat) : (s.setStampIn b i x).bit a j = s.bit a j := rfl

/-! ### setMeter -/

@[simp] theorem State.setMeter_pending (s : State) (b : Nat) (x : Meter) : (s.setMeter b x).pending = s.pending := rfl
@[simp] theorem State.setMeter_variant (s : State) (b : Nat) (x : Meter) : (s.setMeter b x).variant = s.variant := rfl
@[simp] theorem State.setMeter_clk (s : State) (b : Nat) (x : Meter) : (s.setMeter b x).clk = s.clk := rfl
@[simp] theorem State.setMeter_regs (s : State) (b : Nat) (x : Meter) : (s.setMeter b x).regs = s.regs := rfl
@[simp] theorem State.setMeter_shadow (s : State) (b : Nat) (x : Meter) : (s.setMeter b x).shadow = s.shadow := rfl
@[simp] theorem State.setMeter_dirty (s : State) (b : Nat) (x : Meter) : (s.setMeter b x).dirty = s.dirty := rfl
@[simp] theorem State.setMeter_latch (s : State) (b : Nat) (x : Meter) : (s.setMeter b x).latch = s.latch := rfl
@[simp] theorem State.setMeter_hold (s : State) (b : Nat) (x : Meter) : (s.setMeter b x).hold = s.hold := rfl
@[simp] theorem State.setMeter_commits (s : State) (b : Nat) (x : Meter) : (s.setMeter b x).commits = s.commits := rfl
@[simp] theorem State.setMeter_ev (s : State) (b : Nat) (x : Meter) : (s.setMeter b x).ev = s.ev := rfl
@[simp] theorem State.setMeter_mem (s : State) (b : Nat) (x : Meter) : (s.setMeter b x).mem = s.mem := rfl
@[simp] theorem State.setMeter_poison (s : State) (b : Nat) (x : Meter) : (s.setMeter b x).poison = s.poison := rfl
@[simp] theorem State.setMeter_queues (s : State) (b : Nat) (x : Meter) : (s.setMeter b x).queues = s.queues := rfl
@[simp] theorem State.setMeter_flight (s : State) (b : Nat) (x : Meter) : (s.setMeter b x).flight = s.flight := rfl
@[simp] theorem State.setMeter_edges (s : State) (b : Nat) (x : Meter) : (s.setMeter b x).edges = s.edges := rfl
@[simp] theorem State.setMeter_seqs (s : State) (b : Nat) (x : Meter) : (s.setMeter b x).seqs = s.seqs := rfl
@[simp] theorem State.setMeter_barriers (s : State) (b : Nat) (x : Meter) : (s.setMeter b x).barriers = s.barriers := rfl
@[simp] theorem State.setMeter_verdicts (s : State) (b : Nat) (x : Meter) : (s.setMeter b x).verdicts = s.verdicts := rfl
@[simp] theorem State.setMeter_serial (s : State) (b : Nat) (x : Meter) : (s.setMeter b x).serial = s.serial := rfl
@[simp] theorem State.setMeter_ridge (s : State) (b : Nat) (x : Meter) : (s.setMeter b x).ridge = s.ridge := rfl
@[simp] theorem State.setMeter_pkgNum (s : State) (b : Nat) (x : Meter) : (s.setMeter b x).pkgNum = s.pkgNum := rfl
@[simp] theorem State.setMeter_ptGen (s : State) (b : Nat) (x : Meter) : (s.setMeter b x).ptGen = s.ptGen := rfl
@[simp] theorem State.setMeter_dmas (s : State) (b : Nat) (x : Meter) : (s.setMeter b x).dmas = s.dmas := rfl
@[simp] theorem State.setMeter_tones (s : State) (b : Nat) (x : Meter) : (s.setMeter b x).tones = s.tones := rfl
@[simp] theorem State.setMeter_touched (s : State) (b : Nat) (x : Meter) : (s.setMeter b x).touched = s.touched := rfl
@[simp] theorem State.setMeter_dacHold (s : State) (b : Nat) (x : Meter) : (s.setMeter b x).dacHold = s.dacHold := rfl
@[simp] theorem State.setMeter_dacAt (s : State) (b : Nat) (x : Meter) : (s.setMeter b x).dacAt = s.dacAt := rfl
@[simp] theorem State.setMeter_streams (s : State) (b : Nat) (x : Meter) : (s.setMeter b x).streams = s.streams := rfl
@[simp] theorem State.setMeter_failLog (s : State) (b : Nat) (x : Meter) : (s.setMeter b x).failLog = s.failLog := rfl
@[simp] theorem State.setMeter_caps (s : State) (b : Nat) (x : Meter) : (s.setMeter b x).caps = s.caps := rfl
@[simp] theorem State.setMeter_vseen (s : State) (b : Nat) (x : Meter) : (s.setMeter b x).vseen = s.vseen := rfl
@[simp] theorem State.setMeter_tius (s : State) (b : Nat) (x : Meter) : (s.setMeter b x).tius = s.tius := rfl
@[simp] theorem State.setMeter_fres (s : State) (b : Nat) (x : Meter) : (s.setMeter b x).fres = s.fres := rfl
@[simp] theorem State.setMeter_stampIns (s : State) (b : Nat) (x : Meter) : (s.setMeter b x).stampIns = s.stampIns := rfl
@[simp] theorem State.setMeter_edgeStamp (s : State) (b : Nat) (x : Meter) : (s.setMeter b x).edgeStamp = s.edgeStamp := rfl
@[simp] theorem State.setMeter_recGap (s : State) (b : Nat) (x : Meter) : (s.setMeter b x).recGap = s.recGap := rfl
@[simp] theorem State.setMeter_signQ (s : State) (b : Nat) (x : Meter) : (s.setMeter b x).signQ = s.signQ := rfl
@[simp] theorem State.setMeter_signSeq (s : State) (b : Nat) (x : Meter) : (s.setMeter b x).signSeq = s.signSeq := rfl
@[simp] theorem State.setMeter_recHeld (s : State) (b : Nat) (x : Meter) : (s.setMeter b x).recHeld = s.recHeld := rfl
@[simp] theorem State.setMeter_drainPt (s : State) (b : Nat) (x : Meter) : (s.setMeter b x).drainPt = s.drainPt := rfl
@[simp] theorem State.setMeter_wakes (s : State) (b : Nat) (x : Meter) : (s.setMeter b x).wakes = s.wakes := rfl
@[simp] theorem State.setMeter_cals (s : State) (b : Nat) (x : Meter) : (s.setMeter b x).cals = s.cals := rfl
@[simp] theorem State.setMeter_calInsts (s : State) (b : Nat) (x : Meter) : (s.setMeter b x).calInsts = s.calInsts := rfl
@[simp] theorem State.setMeter_tb (s : State) (b : Nat) (x : Meter) : (s.setMeter b x).tb = s.tb := rfl
@[simp] theorem State.setMeter_sills (s : State) (b : Nat) (x : Meter) : (s.setMeter b x).sills = s.sills := rfl
@[simp] theorem State.setMeter_takeovers (s : State) (b : Nat) (x : Meter) : (s.setMeter b x).takeovers = s.takeovers := rfl
@[simp] theorem State.setMeter_souts (s : State) (b : Nat) (x : Meter) : (s.setMeter b x).souts = s.souts := rfl
@[simp] theorem State.setMeter_ptOff (s : State) (b : Nat) (x : Meter) : (s.setMeter b x).ptOff = s.ptOff := rfl
@[simp] theorem State.setMeter_tree (s : State) (b : Nat) (x : Meter) : (s.setMeter b x).tree = s.tree := rfl
@[simp] theorem State.setMeter_ports (s : State) (b : Nat) (x : Meter) : (s.setMeter b x).ports = s.ports := rfl
@[simp] theorem State.setMeter_account (s : State) (b : Nat) (x : Meter) : (s.setMeter b x).account = s.account := rfl
@[simp] theorem State.setMeter_boot (s : State) (b : Nat) (x : Meter) : (s.setMeter b x).boot = s.boot := rfl
@[simp] theorem State.setMeter_spdm (s : State) (b : Nat) (x : Meter) : (s.setMeter b x).spdm = s.spdm := rfl
@[simp] theorem State.setMeter_tunnels (s : State) (b : Nat) (x : Meter) : (s.setMeter b x).tunnels = s.tunnels := rfl
@[simp] theorem State.setMeter_tempOff (s : State) (b : Nat) (x : Meter) : (s.setMeter b x).tempOff = s.tempOff := rfl
@[simp] theorem State.setMeter_readyOff (s : State) (b : Nat) (x : Meter) : (s.setMeter b x).readyOff = s.readyOff := rfl
@[simp] theorem State.setMeter_free (s : State) (b : Nat) (x : Meter) : (s.setMeter b x).free = s.free := rfl
@[simp] theorem State.reg_setMeter (s : State) (b : Nat) (x : Meter) (a : Nat) : (s.setMeter b x).reg a = s.reg a := rfl
@[simp] theorem State.rd_setMeter (s : State) (b : Nat) (x : Meter) (a : Nat) : (s.setMeter b x).rd a = s.rd a := rfl
@[simp] theorem State.fld_setMeter (s : State) (b : Nat) (x : Meter) (a lo len : Nat) : (s.setMeter b x).fld a lo len = s.fld a lo len := rfl
@[simp] theorem State.bit_setMeter (s : State) (b : Nat) (x : Meter) (a j : Nat) : (s.setMeter b x).bit a j = s.bit a j := rfl

/-! ### setTakeover -/

@[simp] theorem State.setTakeover_pending (s : State) (b : Nat) (x : Option (Nat × Bool)) : (s.setTakeover b x).pending = s.pending := rfl
@[simp] theorem State.setTakeover_variant (s : State) (b : Nat) (x : Option (Nat × Bool)) : (s.setTakeover b x).variant = s.variant := rfl
@[simp] theorem State.setTakeover_clk (s : State) (b : Nat) (x : Option (Nat × Bool)) : (s.setTakeover b x).clk = s.clk := rfl
@[simp] theorem State.setTakeover_regs (s : State) (b : Nat) (x : Option (Nat × Bool)) : (s.setTakeover b x).regs = s.regs := rfl
@[simp] theorem State.setTakeover_shadow (s : State) (b : Nat) (x : Option (Nat × Bool)) : (s.setTakeover b x).shadow = s.shadow := rfl
@[simp] theorem State.setTakeover_dirty (s : State) (b : Nat) (x : Option (Nat × Bool)) : (s.setTakeover b x).dirty = s.dirty := rfl
@[simp] theorem State.setTakeover_latch (s : State) (b : Nat) (x : Option (Nat × Bool)) : (s.setTakeover b x).latch = s.latch := rfl
@[simp] theorem State.setTakeover_hold (s : State) (b : Nat) (x : Option (Nat × Bool)) : (s.setTakeover b x).hold = s.hold := rfl
@[simp] theorem State.setTakeover_commits (s : State) (b : Nat) (x : Option (Nat × Bool)) : (s.setTakeover b x).commits = s.commits := rfl
@[simp] theorem State.setTakeover_ev (s : State) (b : Nat) (x : Option (Nat × Bool)) : (s.setTakeover b x).ev = s.ev := rfl
@[simp] theorem State.setTakeover_mem (s : State) (b : Nat) (x : Option (Nat × Bool)) : (s.setTakeover b x).mem = s.mem := rfl
@[simp] theorem State.setTakeover_poison (s : State) (b : Nat) (x : Option (Nat × Bool)) : (s.setTakeover b x).poison = s.poison := rfl
@[simp] theorem State.setTakeover_queues (s : State) (b : Nat) (x : Option (Nat × Bool)) : (s.setTakeover b x).queues = s.queues := rfl
@[simp] theorem State.setTakeover_flight (s : State) (b : Nat) (x : Option (Nat × Bool)) : (s.setTakeover b x).flight = s.flight := rfl
@[simp] theorem State.setTakeover_edges (s : State) (b : Nat) (x : Option (Nat × Bool)) : (s.setTakeover b x).edges = s.edges := rfl
@[simp] theorem State.setTakeover_seqs (s : State) (b : Nat) (x : Option (Nat × Bool)) : (s.setTakeover b x).seqs = s.seqs := rfl
@[simp] theorem State.setTakeover_barriers (s : State) (b : Nat) (x : Option (Nat × Bool)) : (s.setTakeover b x).barriers = s.barriers := rfl
@[simp] theorem State.setTakeover_verdicts (s : State) (b : Nat) (x : Option (Nat × Bool)) : (s.setTakeover b x).verdicts = s.verdicts := rfl
@[simp] theorem State.setTakeover_serial (s : State) (b : Nat) (x : Option (Nat × Bool)) : (s.setTakeover b x).serial = s.serial := rfl
@[simp] theorem State.setTakeover_ridge (s : State) (b : Nat) (x : Option (Nat × Bool)) : (s.setTakeover b x).ridge = s.ridge := rfl
@[simp] theorem State.setTakeover_pkgNum (s : State) (b : Nat) (x : Option (Nat × Bool)) : (s.setTakeover b x).pkgNum = s.pkgNum := rfl
@[simp] theorem State.setTakeover_ptGen (s : State) (b : Nat) (x : Option (Nat × Bool)) : (s.setTakeover b x).ptGen = s.ptGen := rfl
@[simp] theorem State.setTakeover_dmas (s : State) (b : Nat) (x : Option (Nat × Bool)) : (s.setTakeover b x).dmas = s.dmas := rfl
@[simp] theorem State.setTakeover_tones (s : State) (b : Nat) (x : Option (Nat × Bool)) : (s.setTakeover b x).tones = s.tones := rfl
@[simp] theorem State.setTakeover_touched (s : State) (b : Nat) (x : Option (Nat × Bool)) : (s.setTakeover b x).touched = s.touched := rfl
@[simp] theorem State.setTakeover_dacHold (s : State) (b : Nat) (x : Option (Nat × Bool)) : (s.setTakeover b x).dacHold = s.dacHold := rfl
@[simp] theorem State.setTakeover_dacAt (s : State) (b : Nat) (x : Option (Nat × Bool)) : (s.setTakeover b x).dacAt = s.dacAt := rfl
@[simp] theorem State.setTakeover_streams (s : State) (b : Nat) (x : Option (Nat × Bool)) : (s.setTakeover b x).streams = s.streams := rfl
@[simp] theorem State.setTakeover_failLog (s : State) (b : Nat) (x : Option (Nat × Bool)) : (s.setTakeover b x).failLog = s.failLog := rfl
@[simp] theorem State.setTakeover_caps (s : State) (b : Nat) (x : Option (Nat × Bool)) : (s.setTakeover b x).caps = s.caps := rfl
@[simp] theorem State.setTakeover_vseen (s : State) (b : Nat) (x : Option (Nat × Bool)) : (s.setTakeover b x).vseen = s.vseen := rfl
@[simp] theorem State.setTakeover_tius (s : State) (b : Nat) (x : Option (Nat × Bool)) : (s.setTakeover b x).tius = s.tius := rfl
@[simp] theorem State.setTakeover_fres (s : State) (b : Nat) (x : Option (Nat × Bool)) : (s.setTakeover b x).fres = s.fres := rfl
@[simp] theorem State.setTakeover_stampIns (s : State) (b : Nat) (x : Option (Nat × Bool)) : (s.setTakeover b x).stampIns = s.stampIns := rfl
@[simp] theorem State.setTakeover_edgeStamp (s : State) (b : Nat) (x : Option (Nat × Bool)) : (s.setTakeover b x).edgeStamp = s.edgeStamp := rfl
@[simp] theorem State.setTakeover_recGap (s : State) (b : Nat) (x : Option (Nat × Bool)) : (s.setTakeover b x).recGap = s.recGap := rfl
@[simp] theorem State.setTakeover_signQ (s : State) (b : Nat) (x : Option (Nat × Bool)) : (s.setTakeover b x).signQ = s.signQ := rfl
@[simp] theorem State.setTakeover_signSeq (s : State) (b : Nat) (x : Option (Nat × Bool)) : (s.setTakeover b x).signSeq = s.signSeq := rfl
@[simp] theorem State.setTakeover_recHeld (s : State) (b : Nat) (x : Option (Nat × Bool)) : (s.setTakeover b x).recHeld = s.recHeld := rfl
@[simp] theorem State.setTakeover_drainPt (s : State) (b : Nat) (x : Option (Nat × Bool)) : (s.setTakeover b x).drainPt = s.drainPt := rfl
@[simp] theorem State.setTakeover_wakes (s : State) (b : Nat) (x : Option (Nat × Bool)) : (s.setTakeover b x).wakes = s.wakes := rfl
@[simp] theorem State.setTakeover_cals (s : State) (b : Nat) (x : Option (Nat × Bool)) : (s.setTakeover b x).cals = s.cals := rfl
@[simp] theorem State.setTakeover_calInsts (s : State) (b : Nat) (x : Option (Nat × Bool)) : (s.setTakeover b x).calInsts = s.calInsts := rfl
@[simp] theorem State.setTakeover_tb (s : State) (b : Nat) (x : Option (Nat × Bool)) : (s.setTakeover b x).tb = s.tb := rfl
@[simp] theorem State.setTakeover_sills (s : State) (b : Nat) (x : Option (Nat × Bool)) : (s.setTakeover b x).sills = s.sills := rfl
@[simp] theorem State.setTakeover_souts (s : State) (b : Nat) (x : Option (Nat × Bool)) : (s.setTakeover b x).souts = s.souts := rfl
@[simp] theorem State.setTakeover_ptOff (s : State) (b : Nat) (x : Option (Nat × Bool)) : (s.setTakeover b x).ptOff = s.ptOff := rfl
@[simp] theorem State.setTakeover_tree (s : State) (b : Nat) (x : Option (Nat × Bool)) : (s.setTakeover b x).tree = s.tree := rfl
@[simp] theorem State.setTakeover_ports (s : State) (b : Nat) (x : Option (Nat × Bool)) : (s.setTakeover b x).ports = s.ports := rfl
@[simp] theorem State.setTakeover_meters (s : State) (b : Nat) (x : Option (Nat × Bool)) : (s.setTakeover b x).meters = s.meters := rfl
@[simp] theorem State.setTakeover_account (s : State) (b : Nat) (x : Option (Nat × Bool)) : (s.setTakeover b x).account = s.account := rfl
@[simp] theorem State.setTakeover_boot (s : State) (b : Nat) (x : Option (Nat × Bool)) : (s.setTakeover b x).boot = s.boot := rfl
@[simp] theorem State.setTakeover_spdm (s : State) (b : Nat) (x : Option (Nat × Bool)) : (s.setTakeover b x).spdm = s.spdm := rfl
@[simp] theorem State.setTakeover_tunnels (s : State) (b : Nat) (x : Option (Nat × Bool)) : (s.setTakeover b x).tunnels = s.tunnels := rfl
@[simp] theorem State.setTakeover_tempOff (s : State) (b : Nat) (x : Option (Nat × Bool)) : (s.setTakeover b x).tempOff = s.tempOff := rfl
@[simp] theorem State.setTakeover_readyOff (s : State) (b : Nat) (x : Option (Nat × Bool)) : (s.setTakeover b x).readyOff = s.readyOff := rfl
@[simp] theorem State.setTakeover_free (s : State) (b : Nat) (x : Option (Nat × Bool)) : (s.setTakeover b x).free = s.free := rfl
@[simp] theorem State.reg_setTakeover (s : State) (b : Nat) (x : Option (Nat × Bool)) (a : Nat) : (s.setTakeover b x).reg a = s.reg a := rfl
@[simp] theorem State.rd_setTakeover (s : State) (b : Nat) (x : Option (Nat × Bool)) (a : Nat) : (s.setTakeover b x).rd a = s.rd a := rfl
@[simp] theorem State.fld_setTakeover (s : State) (b : Nat) (x : Option (Nat × Bool)) (a lo len : Nat) : (s.setTakeover b x).fld a lo len = s.fld a lo len := rfl
@[simp] theorem State.bit_setTakeover (s : State) (b : Nat) (x : Option (Nat × Bool)) (a j : Nat) : (s.setTakeover b x).bit a j = s.bit a j := rfl

/-! ### setBarrier -/

@[simp] theorem State.setBarrier_pending (s : State) (i : Nat) (x : Option Barrier) : (s.setBarrier i x).pending = s.pending := rfl
@[simp] theorem State.setBarrier_variant (s : State) (i : Nat) (x : Option Barrier) : (s.setBarrier i x).variant = s.variant := rfl
@[simp] theorem State.setBarrier_clk (s : State) (i : Nat) (x : Option Barrier) : (s.setBarrier i x).clk = s.clk := rfl
@[simp] theorem State.setBarrier_regs (s : State) (i : Nat) (x : Option Barrier) : (s.setBarrier i x).regs = s.regs := rfl
@[simp] theorem State.setBarrier_shadow (s : State) (i : Nat) (x : Option Barrier) : (s.setBarrier i x).shadow = s.shadow := rfl
@[simp] theorem State.setBarrier_dirty (s : State) (i : Nat) (x : Option Barrier) : (s.setBarrier i x).dirty = s.dirty := rfl
@[simp] theorem State.setBarrier_latch (s : State) (i : Nat) (x : Option Barrier) : (s.setBarrier i x).latch = s.latch := rfl
@[simp] theorem State.setBarrier_hold (s : State) (i : Nat) (x : Option Barrier) : (s.setBarrier i x).hold = s.hold := rfl
@[simp] theorem State.setBarrier_commits (s : State) (i : Nat) (x : Option Barrier) : (s.setBarrier i x).commits = s.commits := rfl
@[simp] theorem State.setBarrier_ev (s : State) (i : Nat) (x : Option Barrier) : (s.setBarrier i x).ev = s.ev := rfl
@[simp] theorem State.setBarrier_mem (s : State) (i : Nat) (x : Option Barrier) : (s.setBarrier i x).mem = s.mem := rfl
@[simp] theorem State.setBarrier_poison (s : State) (i : Nat) (x : Option Barrier) : (s.setBarrier i x).poison = s.poison := rfl
@[simp] theorem State.setBarrier_queues (s : State) (i : Nat) (x : Option Barrier) : (s.setBarrier i x).queues = s.queues := rfl
@[simp] theorem State.setBarrier_flight (s : State) (i : Nat) (x : Option Barrier) : (s.setBarrier i x).flight = s.flight := rfl
@[simp] theorem State.setBarrier_edges (s : State) (i : Nat) (x : Option Barrier) : (s.setBarrier i x).edges = s.edges := rfl
@[simp] theorem State.setBarrier_seqs (s : State) (i : Nat) (x : Option Barrier) : (s.setBarrier i x).seqs = s.seqs := rfl
@[simp] theorem State.setBarrier_verdicts (s : State) (i : Nat) (x : Option Barrier) : (s.setBarrier i x).verdicts = s.verdicts := rfl
@[simp] theorem State.setBarrier_serial (s : State) (i : Nat) (x : Option Barrier) : (s.setBarrier i x).serial = s.serial := rfl
@[simp] theorem State.setBarrier_ridge (s : State) (i : Nat) (x : Option Barrier) : (s.setBarrier i x).ridge = s.ridge := rfl
@[simp] theorem State.setBarrier_pkgNum (s : State) (i : Nat) (x : Option Barrier) : (s.setBarrier i x).pkgNum = s.pkgNum := rfl
@[simp] theorem State.setBarrier_ptGen (s : State) (i : Nat) (x : Option Barrier) : (s.setBarrier i x).ptGen = s.ptGen := rfl
@[simp] theorem State.setBarrier_dmas (s : State) (i : Nat) (x : Option Barrier) : (s.setBarrier i x).dmas = s.dmas := rfl
@[simp] theorem State.setBarrier_tones (s : State) (i : Nat) (x : Option Barrier) : (s.setBarrier i x).tones = s.tones := rfl
@[simp] theorem State.setBarrier_touched (s : State) (i : Nat) (x : Option Barrier) : (s.setBarrier i x).touched = s.touched := rfl
@[simp] theorem State.setBarrier_dacHold (s : State) (i : Nat) (x : Option Barrier) : (s.setBarrier i x).dacHold = s.dacHold := rfl
@[simp] theorem State.setBarrier_dacAt (s : State) (i : Nat) (x : Option Barrier) : (s.setBarrier i x).dacAt = s.dacAt := rfl
@[simp] theorem State.setBarrier_streams (s : State) (i : Nat) (x : Option Barrier) : (s.setBarrier i x).streams = s.streams := rfl
@[simp] theorem State.setBarrier_failLog (s : State) (i : Nat) (x : Option Barrier) : (s.setBarrier i x).failLog = s.failLog := rfl
@[simp] theorem State.setBarrier_caps (s : State) (i : Nat) (x : Option Barrier) : (s.setBarrier i x).caps = s.caps := rfl
@[simp] theorem State.setBarrier_vseen (s : State) (i : Nat) (x : Option Barrier) : (s.setBarrier i x).vseen = s.vseen := rfl
@[simp] theorem State.setBarrier_tius (s : State) (i : Nat) (x : Option Barrier) : (s.setBarrier i x).tius = s.tius := rfl
@[simp] theorem State.setBarrier_fres (s : State) (i : Nat) (x : Option Barrier) : (s.setBarrier i x).fres = s.fres := rfl
@[simp] theorem State.setBarrier_stampIns (s : State) (i : Nat) (x : Option Barrier) : (s.setBarrier i x).stampIns = s.stampIns := rfl
@[simp] theorem State.setBarrier_edgeStamp (s : State) (i : Nat) (x : Option Barrier) : (s.setBarrier i x).edgeStamp = s.edgeStamp := rfl
@[simp] theorem State.setBarrier_recGap (s : State) (i : Nat) (x : Option Barrier) : (s.setBarrier i x).recGap = s.recGap := rfl
@[simp] theorem State.setBarrier_signQ (s : State) (i : Nat) (x : Option Barrier) : (s.setBarrier i x).signQ = s.signQ := rfl
@[simp] theorem State.setBarrier_signSeq (s : State) (i : Nat) (x : Option Barrier) : (s.setBarrier i x).signSeq = s.signSeq := rfl
@[simp] theorem State.setBarrier_recHeld (s : State) (i : Nat) (x : Option Barrier) : (s.setBarrier i x).recHeld = s.recHeld := rfl
@[simp] theorem State.setBarrier_drainPt (s : State) (i : Nat) (x : Option Barrier) : (s.setBarrier i x).drainPt = s.drainPt := rfl
@[simp] theorem State.setBarrier_wakes (s : State) (i : Nat) (x : Option Barrier) : (s.setBarrier i x).wakes = s.wakes := rfl
@[simp] theorem State.setBarrier_cals (s : State) (i : Nat) (x : Option Barrier) : (s.setBarrier i x).cals = s.cals := rfl
@[simp] theorem State.setBarrier_calInsts (s : State) (i : Nat) (x : Option Barrier) : (s.setBarrier i x).calInsts = s.calInsts := rfl
@[simp] theorem State.setBarrier_tb (s : State) (i : Nat) (x : Option Barrier) : (s.setBarrier i x).tb = s.tb := rfl
@[simp] theorem State.setBarrier_sills (s : State) (i : Nat) (x : Option Barrier) : (s.setBarrier i x).sills = s.sills := rfl
@[simp] theorem State.setBarrier_takeovers (s : State) (i : Nat) (x : Option Barrier) : (s.setBarrier i x).takeovers = s.takeovers := rfl
@[simp] theorem State.setBarrier_souts (s : State) (i : Nat) (x : Option Barrier) : (s.setBarrier i x).souts = s.souts := rfl
@[simp] theorem State.setBarrier_ptOff (s : State) (i : Nat) (x : Option Barrier) : (s.setBarrier i x).ptOff = s.ptOff := rfl
@[simp] theorem State.setBarrier_tree (s : State) (i : Nat) (x : Option Barrier) : (s.setBarrier i x).tree = s.tree := rfl
@[simp] theorem State.setBarrier_ports (s : State) (i : Nat) (x : Option Barrier) : (s.setBarrier i x).ports = s.ports := rfl
@[simp] theorem State.setBarrier_meters (s : State) (i : Nat) (x : Option Barrier) : (s.setBarrier i x).meters = s.meters := rfl
@[simp] theorem State.setBarrier_account (s : State) (i : Nat) (x : Option Barrier) : (s.setBarrier i x).account = s.account := rfl
@[simp] theorem State.setBarrier_boot (s : State) (i : Nat) (x : Option Barrier) : (s.setBarrier i x).boot = s.boot := rfl
@[simp] theorem State.setBarrier_spdm (s : State) (i : Nat) (x : Option Barrier) : (s.setBarrier i x).spdm = s.spdm := rfl
@[simp] theorem State.setBarrier_tunnels (s : State) (i : Nat) (x : Option Barrier) : (s.setBarrier i x).tunnels = s.tunnels := rfl
@[simp] theorem State.setBarrier_tempOff (s : State) (i : Nat) (x : Option Barrier) : (s.setBarrier i x).tempOff = s.tempOff := rfl
@[simp] theorem State.setBarrier_readyOff (s : State) (i : Nat) (x : Option Barrier) : (s.setBarrier i x).readyOff = s.readyOff := rfl
@[simp] theorem State.setBarrier_free (s : State) (i : Nat) (x : Option Barrier) : (s.setBarrier i x).free = s.free := rfl
@[simp] theorem State.reg_setBarrier (s : State) (i : Nat) (x : Option Barrier) (a : Nat) : (s.setBarrier i x).reg a = s.reg a := rfl
@[simp] theorem State.rd_setBarrier (s : State) (i : Nat) (x : Option Barrier) (a : Nat) : (s.setBarrier i x).rd a = s.rd a := rfl
@[simp] theorem State.fld_setBarrier (s : State) (i : Nat) (x : Option Barrier) (a lo len : Nat) : (s.setBarrier i x).fld a lo len = s.fld a lo len := rfl
@[simp] theorem State.bit_setBarrier (s : State) (i : Nat) (x : Option Barrier) (a j : Nat) : (s.setBarrier i x).bit a j = s.bit a j := rfl

/-! ### setMbx -/

@[simp] theorem State.setMbx_pending (s : State) (b : Nat) (x : Option Mbx) : (s.setMbx b x).pending = s.pending := rfl
@[simp] theorem State.setMbx_variant (s : State) (b : Nat) (x : Option Mbx) : (s.setMbx b x).variant = s.variant := rfl
@[simp] theorem State.setMbx_clk (s : State) (b : Nat) (x : Option Mbx) : (s.setMbx b x).clk = s.clk := rfl
@[simp] theorem State.setMbx_regs (s : State) (b : Nat) (x : Option Mbx) : (s.setMbx b x).regs = s.regs := rfl
@[simp] theorem State.setMbx_shadow (s : State) (b : Nat) (x : Option Mbx) : (s.setMbx b x).shadow = s.shadow := rfl
@[simp] theorem State.setMbx_dirty (s : State) (b : Nat) (x : Option Mbx) : (s.setMbx b x).dirty = s.dirty := rfl
@[simp] theorem State.setMbx_latch (s : State) (b : Nat) (x : Option Mbx) : (s.setMbx b x).latch = s.latch := rfl
@[simp] theorem State.setMbx_hold (s : State) (b : Nat) (x : Option Mbx) : (s.setMbx b x).hold = s.hold := rfl
@[simp] theorem State.setMbx_commits (s : State) (b : Nat) (x : Option Mbx) : (s.setMbx b x).commits = s.commits := rfl
@[simp] theorem State.setMbx_ev (s : State) (b : Nat) (x : Option Mbx) : (s.setMbx b x).ev = s.ev := rfl
@[simp] theorem State.setMbx_mem (s : State) (b : Nat) (x : Option Mbx) : (s.setMbx b x).mem = s.mem := rfl
@[simp] theorem State.setMbx_poison (s : State) (b : Nat) (x : Option Mbx) : (s.setMbx b x).poison = s.poison := rfl
@[simp] theorem State.setMbx_queues (s : State) (b : Nat) (x : Option Mbx) : (s.setMbx b x).queues = s.queues := rfl
@[simp] theorem State.setMbx_flight (s : State) (b : Nat) (x : Option Mbx) : (s.setMbx b x).flight = s.flight := rfl
@[simp] theorem State.setMbx_edges (s : State) (b : Nat) (x : Option Mbx) : (s.setMbx b x).edges = s.edges := rfl
@[simp] theorem State.setMbx_seqs (s : State) (b : Nat) (x : Option Mbx) : (s.setMbx b x).seqs = s.seqs := rfl
@[simp] theorem State.setMbx_barriers (s : State) (b : Nat) (x : Option Mbx) : (s.setMbx b x).barriers = s.barriers := rfl
@[simp] theorem State.setMbx_verdicts (s : State) (b : Nat) (x : Option Mbx) : (s.setMbx b x).verdicts = s.verdicts := rfl
@[simp] theorem State.setMbx_serial (s : State) (b : Nat) (x : Option Mbx) : (s.setMbx b x).serial = s.serial := rfl
@[simp] theorem State.setMbx_ridge (s : State) (b : Nat) (x : Option Mbx) : (s.setMbx b x).ridge = s.ridge := rfl
@[simp] theorem State.setMbx_pkgNum (s : State) (b : Nat) (x : Option Mbx) : (s.setMbx b x).pkgNum = s.pkgNum := rfl
@[simp] theorem State.setMbx_ptGen (s : State) (b : Nat) (x : Option Mbx) : (s.setMbx b x).ptGen = s.ptGen := rfl
@[simp] theorem State.setMbx_dmas (s : State) (b : Nat) (x : Option Mbx) : (s.setMbx b x).dmas = s.dmas := rfl
@[simp] theorem State.setMbx_tones (s : State) (b : Nat) (x : Option Mbx) : (s.setMbx b x).tones = s.tones := rfl
@[simp] theorem State.setMbx_touched (s : State) (b : Nat) (x : Option Mbx) : (s.setMbx b x).touched = s.touched := rfl
@[simp] theorem State.setMbx_dacHold (s : State) (b : Nat) (x : Option Mbx) : (s.setMbx b x).dacHold = s.dacHold := rfl
@[simp] theorem State.setMbx_dacAt (s : State) (b : Nat) (x : Option Mbx) : (s.setMbx b x).dacAt = s.dacAt := rfl
@[simp] theorem State.setMbx_streams (s : State) (b : Nat) (x : Option Mbx) : (s.setMbx b x).streams = s.streams := rfl
@[simp] theorem State.setMbx_failLog (s : State) (b : Nat) (x : Option Mbx) : (s.setMbx b x).failLog = s.failLog := rfl
@[simp] theorem State.setMbx_caps (s : State) (b : Nat) (x : Option Mbx) : (s.setMbx b x).caps = s.caps := rfl
@[simp] theorem State.setMbx_vseen (s : State) (b : Nat) (x : Option Mbx) : (s.setMbx b x).vseen = s.vseen := rfl
@[simp] theorem State.setMbx_tius (s : State) (b : Nat) (x : Option Mbx) : (s.setMbx b x).tius = s.tius := rfl
@[simp] theorem State.setMbx_fres (s : State) (b : Nat) (x : Option Mbx) : (s.setMbx b x).fres = s.fres := rfl
@[simp] theorem State.setMbx_stampIns (s : State) (b : Nat) (x : Option Mbx) : (s.setMbx b x).stampIns = s.stampIns := rfl
@[simp] theorem State.setMbx_edgeStamp (s : State) (b : Nat) (x : Option Mbx) : (s.setMbx b x).edgeStamp = s.edgeStamp := rfl
@[simp] theorem State.setMbx_recGap (s : State) (b : Nat) (x : Option Mbx) : (s.setMbx b x).recGap = s.recGap := rfl
@[simp] theorem State.setMbx_signQ (s : State) (b : Nat) (x : Option Mbx) : (s.setMbx b x).signQ = s.signQ := rfl
@[simp] theorem State.setMbx_signSeq (s : State) (b : Nat) (x : Option Mbx) : (s.setMbx b x).signSeq = s.signSeq := rfl
@[simp] theorem State.setMbx_recHeld (s : State) (b : Nat) (x : Option Mbx) : (s.setMbx b x).recHeld = s.recHeld := rfl
@[simp] theorem State.setMbx_drainPt (s : State) (b : Nat) (x : Option Mbx) : (s.setMbx b x).drainPt = s.drainPt := rfl
@[simp] theorem State.setMbx_wakes (s : State) (b : Nat) (x : Option Mbx) : (s.setMbx b x).wakes = s.wakes := rfl
@[simp] theorem State.setMbx_cals (s : State) (b : Nat) (x : Option Mbx) : (s.setMbx b x).cals = s.cals := rfl
@[simp] theorem State.setMbx_calInsts (s : State) (b : Nat) (x : Option Mbx) : (s.setMbx b x).calInsts = s.calInsts := rfl
@[simp] theorem State.setMbx_tb (s : State) (b : Nat) (x : Option Mbx) : (s.setMbx b x).tb = s.tb := rfl
@[simp] theorem State.setMbx_sills (s : State) (b : Nat) (x : Option Mbx) : (s.setMbx b x).sills = s.sills := rfl
@[simp] theorem State.setMbx_takeovers (s : State) (b : Nat) (x : Option Mbx) : (s.setMbx b x).takeovers = s.takeovers := rfl
@[simp] theorem State.setMbx_souts (s : State) (b : Nat) (x : Option Mbx) : (s.setMbx b x).souts = s.souts := rfl
@[simp] theorem State.setMbx_ptOff (s : State) (b : Nat) (x : Option Mbx) : (s.setMbx b x).ptOff = s.ptOff := rfl
@[simp] theorem State.setMbx_tree (s : State) (b : Nat) (x : Option Mbx) : (s.setMbx b x).tree = s.tree := rfl
@[simp] theorem State.setMbx_ports (s : State) (b : Nat) (x : Option Mbx) : (s.setMbx b x).ports = s.ports := rfl
@[simp] theorem State.setMbx_meters (s : State) (b : Nat) (x : Option Mbx) : (s.setMbx b x).meters = s.meters := rfl
@[simp] theorem State.setMbx_account (s : State) (b : Nat) (x : Option Mbx) : (s.setMbx b x).account = s.account := rfl
@[simp] theorem State.setMbx_spdm (s : State) (b : Nat) (x : Option Mbx) : (s.setMbx b x).spdm = s.spdm := rfl
@[simp] theorem State.setMbx_tunnels (s : State) (b : Nat) (x : Option Mbx) : (s.setMbx b x).tunnels = s.tunnels := rfl
@[simp] theorem State.setMbx_tempOff (s : State) (b : Nat) (x : Option Mbx) : (s.setMbx b x).tempOff = s.tempOff := rfl
@[simp] theorem State.setMbx_readyOff (s : State) (b : Nat) (x : Option Mbx) : (s.setMbx b x).readyOff = s.readyOff := rfl
@[simp] theorem State.setMbx_free (s : State) (b : Nat) (x : Option Mbx) : (s.setMbx b x).free = s.free := rfl
@[simp] theorem State.reg_setMbx (s : State) (b : Nat) (x : Option Mbx) (a : Nat) : (s.setMbx b x).reg a = s.reg a := rfl
@[simp] theorem State.rd_setMbx (s : State) (b : Nat) (x : Option Mbx) (a : Nat) : (s.setMbx b x).rd a = s.rd a := rfl
@[simp] theorem State.fld_setMbx (s : State) (b : Nat) (x : Option Mbx) (a lo len : Nat) : (s.setMbx b x).fld a lo len = s.fld a lo len := rfl
@[simp] theorem State.bit_setMbx (s : State) (b : Nat) (x : Option Mbx) (a j : Nat) : (s.setMbx b x).bit a j = s.bit a j := rfl

/-! ### setSout -/

@[simp] theorem State.setSout_pending (s : State) (b n : Nat) (x : SillOut) : (s.setSout b n x).pending = s.pending := rfl
@[simp] theorem State.setSout_variant (s : State) (b n : Nat) (x : SillOut) : (s.setSout b n x).variant = s.variant := rfl
@[simp] theorem State.setSout_clk (s : State) (b n : Nat) (x : SillOut) : (s.setSout b n x).clk = s.clk := rfl
@[simp] theorem State.setSout_regs (s : State) (b n : Nat) (x : SillOut) : (s.setSout b n x).regs = s.regs := rfl
@[simp] theorem State.setSout_shadow (s : State) (b n : Nat) (x : SillOut) : (s.setSout b n x).shadow = s.shadow := rfl
@[simp] theorem State.setSout_dirty (s : State) (b n : Nat) (x : SillOut) : (s.setSout b n x).dirty = s.dirty := rfl
@[simp] theorem State.setSout_latch (s : State) (b n : Nat) (x : SillOut) : (s.setSout b n x).latch = s.latch := rfl
@[simp] theorem State.setSout_hold (s : State) (b n : Nat) (x : SillOut) : (s.setSout b n x).hold = s.hold := rfl
@[simp] theorem State.setSout_commits (s : State) (b n : Nat) (x : SillOut) : (s.setSout b n x).commits = s.commits := rfl
@[simp] theorem State.setSout_ev (s : State) (b n : Nat) (x : SillOut) : (s.setSout b n x).ev = s.ev := rfl
@[simp] theorem State.setSout_mem (s : State) (b n : Nat) (x : SillOut) : (s.setSout b n x).mem = s.mem := rfl
@[simp] theorem State.setSout_poison (s : State) (b n : Nat) (x : SillOut) : (s.setSout b n x).poison = s.poison := rfl
@[simp] theorem State.setSout_queues (s : State) (b n : Nat) (x : SillOut) : (s.setSout b n x).queues = s.queues := rfl
@[simp] theorem State.setSout_flight (s : State) (b n : Nat) (x : SillOut) : (s.setSout b n x).flight = s.flight := rfl
@[simp] theorem State.setSout_edges (s : State) (b n : Nat) (x : SillOut) : (s.setSout b n x).edges = s.edges := rfl
@[simp] theorem State.setSout_seqs (s : State) (b n : Nat) (x : SillOut) : (s.setSout b n x).seqs = s.seqs := rfl
@[simp] theorem State.setSout_barriers (s : State) (b n : Nat) (x : SillOut) : (s.setSout b n x).barriers = s.barriers := rfl
@[simp] theorem State.setSout_verdicts (s : State) (b n : Nat) (x : SillOut) : (s.setSout b n x).verdicts = s.verdicts := rfl
@[simp] theorem State.setSout_serial (s : State) (b n : Nat) (x : SillOut) : (s.setSout b n x).serial = s.serial := rfl
@[simp] theorem State.setSout_ridge (s : State) (b n : Nat) (x : SillOut) : (s.setSout b n x).ridge = s.ridge := rfl
@[simp] theorem State.setSout_pkgNum (s : State) (b n : Nat) (x : SillOut) : (s.setSout b n x).pkgNum = s.pkgNum := rfl
@[simp] theorem State.setSout_ptGen (s : State) (b n : Nat) (x : SillOut) : (s.setSout b n x).ptGen = s.ptGen := rfl
@[simp] theorem State.setSout_dmas (s : State) (b n : Nat) (x : SillOut) : (s.setSout b n x).dmas = s.dmas := rfl
@[simp] theorem State.setSout_tones (s : State) (b n : Nat) (x : SillOut) : (s.setSout b n x).tones = s.tones := rfl
@[simp] theorem State.setSout_touched (s : State) (b n : Nat) (x : SillOut) : (s.setSout b n x).touched = s.touched := rfl
@[simp] theorem State.setSout_dacHold (s : State) (b n : Nat) (x : SillOut) : (s.setSout b n x).dacHold = s.dacHold := rfl
@[simp] theorem State.setSout_dacAt (s : State) (b n : Nat) (x : SillOut) : (s.setSout b n x).dacAt = s.dacAt := rfl
@[simp] theorem State.setSout_streams (s : State) (b n : Nat) (x : SillOut) : (s.setSout b n x).streams = s.streams := rfl
@[simp] theorem State.setSout_failLog (s : State) (b n : Nat) (x : SillOut) : (s.setSout b n x).failLog = s.failLog := rfl
@[simp] theorem State.setSout_caps (s : State) (b n : Nat) (x : SillOut) : (s.setSout b n x).caps = s.caps := rfl
@[simp] theorem State.setSout_vseen (s : State) (b n : Nat) (x : SillOut) : (s.setSout b n x).vseen = s.vseen := rfl
@[simp] theorem State.setSout_tius (s : State) (b n : Nat) (x : SillOut) : (s.setSout b n x).tius = s.tius := rfl
@[simp] theorem State.setSout_fres (s : State) (b n : Nat) (x : SillOut) : (s.setSout b n x).fres = s.fres := rfl
@[simp] theorem State.setSout_stampIns (s : State) (b n : Nat) (x : SillOut) : (s.setSout b n x).stampIns = s.stampIns := rfl
@[simp] theorem State.setSout_edgeStamp (s : State) (b n : Nat) (x : SillOut) : (s.setSout b n x).edgeStamp = s.edgeStamp := rfl
@[simp] theorem State.setSout_recGap (s : State) (b n : Nat) (x : SillOut) : (s.setSout b n x).recGap = s.recGap := rfl
@[simp] theorem State.setSout_signQ (s : State) (b n : Nat) (x : SillOut) : (s.setSout b n x).signQ = s.signQ := rfl
@[simp] theorem State.setSout_signSeq (s : State) (b n : Nat) (x : SillOut) : (s.setSout b n x).signSeq = s.signSeq := rfl
@[simp] theorem State.setSout_recHeld (s : State) (b n : Nat) (x : SillOut) : (s.setSout b n x).recHeld = s.recHeld := rfl
@[simp] theorem State.setSout_drainPt (s : State) (b n : Nat) (x : SillOut) : (s.setSout b n x).drainPt = s.drainPt := rfl
@[simp] theorem State.setSout_wakes (s : State) (b n : Nat) (x : SillOut) : (s.setSout b n x).wakes = s.wakes := rfl
@[simp] theorem State.setSout_cals (s : State) (b n : Nat) (x : SillOut) : (s.setSout b n x).cals = s.cals := rfl
@[simp] theorem State.setSout_calInsts (s : State) (b n : Nat) (x : SillOut) : (s.setSout b n x).calInsts = s.calInsts := rfl
@[simp] theorem State.setSout_tb (s : State) (b n : Nat) (x : SillOut) : (s.setSout b n x).tb = s.tb := rfl
@[simp] theorem State.setSout_sills (s : State) (b n : Nat) (x : SillOut) : (s.setSout b n x).sills = s.sills := rfl
@[simp] theorem State.setSout_takeovers (s : State) (b n : Nat) (x : SillOut) : (s.setSout b n x).takeovers = s.takeovers := rfl
@[simp] theorem State.setSout_ptOff (s : State) (b n : Nat) (x : SillOut) : (s.setSout b n x).ptOff = s.ptOff := rfl
@[simp] theorem State.setSout_tree (s : State) (b n : Nat) (x : SillOut) : (s.setSout b n x).tree = s.tree := rfl
@[simp] theorem State.setSout_ports (s : State) (b n : Nat) (x : SillOut) : (s.setSout b n x).ports = s.ports := rfl
@[simp] theorem State.setSout_meters (s : State) (b n : Nat) (x : SillOut) : (s.setSout b n x).meters = s.meters := rfl
@[simp] theorem State.setSout_account (s : State) (b n : Nat) (x : SillOut) : (s.setSout b n x).account = s.account := rfl
@[simp] theorem State.setSout_boot (s : State) (b n : Nat) (x : SillOut) : (s.setSout b n x).boot = s.boot := rfl
@[simp] theorem State.setSout_spdm (s : State) (b n : Nat) (x : SillOut) : (s.setSout b n x).spdm = s.spdm := rfl
@[simp] theorem State.setSout_tunnels (s : State) (b n : Nat) (x : SillOut) : (s.setSout b n x).tunnels = s.tunnels := rfl
@[simp] theorem State.setSout_tempOff (s : State) (b n : Nat) (x : SillOut) : (s.setSout b n x).tempOff = s.tempOff := rfl
@[simp] theorem State.setSout_readyOff (s : State) (b n : Nat) (x : SillOut) : (s.setSout b n x).readyOff = s.readyOff := rfl
@[simp] theorem State.setSout_free (s : State) (b n : Nat) (x : SillOut) : (s.setSout b n x).free = s.free := rfl
@[simp] theorem State.reg_setSout (s : State) (b n : Nat) (x : SillOut) (a : Nat) : (s.setSout b n x).reg a = s.reg a := rfl
@[simp] theorem State.rd_setSout (s : State) (b n : Nat) (x : SillOut) (a : Nat) : (s.setSout b n x).rd a = s.rd a := rfl
@[simp] theorem State.fld_setSout (s : State) (b n : Nat) (x : SillOut) (a lo len : Nat) : (s.setSout b n x).fld a lo len = s.fld a lo len := rfl
@[simp] theorem State.bit_setSout (s : State) (b n : Nat) (x : SillOut) (a j : Nat) : (s.setSout b n x).bit a j = s.bit a j := rfl

end Sys2Proof.Machine
end

