-- ==== Sys2Proof/Laws/Get.lean ====
section
/-!
SUPPORT. Laws/Get.lean: what each part of the state reads after a write to it, after a write to another, and after the
operations on registers, health codes and events.
-/

set_option Elab.async false

namespace Sys2Proof.Machine


/-! ### edge -/

@[simp] theorem State.edge_setEdge_same (s : State) (b ch : Nat) (x : EdgeSt) : (s.setEdge b ch x).edge b ch = x := by
  simp [State.edge, State.setEdge]
theorem State.edge_setEdge_ne (s : State) (b ch b' ch' : Nat) (x : EdgeSt) (h : b' * 32 + ch' ≠ b * 32 + ch) : (s.setEdge b ch x).edge b' ch' = s.edge b' ch' := by
  simp [State.edge, State.setEdge, mapGet_mapSet_ne _ _ _ h]
@[simp] theorem State.edge_setQueue (s : State) (lane' : Nat) (x : List Peg) (b ch : Nat) : (s.setQueue lane' x).edge b ch = s.edge b ch := rfl
@[simp] theorem State.edge_setFlight (s : State) (lane' : Nat) (x : List Peg) (b ch : Nat) : (s.setFlight lane' x).edge b ch = s.edge b ch := rfl
@[simp] theorem State.edge_setSeq (s : State) (k' : Nat) (x : SeqSt) (b ch : Nat) : (s.setSeq k' x).edge b ch = s.edge b ch := rfl
@[simp] theorem State.edge_setTone (s : State) (lane' : Nat) (x : ToneSt) (b ch : Nat) : (s.setTone lane' x).edge b ch = s.edge b ch := rfl
@[simp] theorem State.edge_setCap (s : State) (b' i' : Nat) (x : CapSt) (b ch : Nat) : (s.setCap b' i' x).edge b ch = s.edge b ch := rfl
@[simp] theorem State.edge_setDma (s : State) (b' e' : Nat) (x : DmaSt) (b ch : Nat) : (s.setDma b' e' x).edge b ch = s.edge b ch := rfl
@[simp] theorem State.edge_setStream (s : State) (b' n' : Nat) (x : StreamSt) (b ch : Nat) : (s.setStream b' n' x).edge b ch = s.edge b ch := rfl
@[simp] theorem State.edge_setDrain (s : State) (k' : Nat) (x : Option Nat) (b ch : Nat) : (s.setDrain k' x).edge b ch = s.edge b ch := rfl
@[simp] theorem State.edge_setCal (s : State) (b' : Nat) (x : CalSt) (b ch : Nat) : (s.setCal b' x).edge b ch = s.edge b ch := rfl
@[simp] theorem State.edge_setInst (s : State) (b' item' inst' : Nat) (x : CalInst) (b ch : Nat) : (s.setInst b' item' inst' x).edge b ch = s.edge b ch := rfl
@[simp] theorem State.edge_setSill (s : State) (b' k' : Nat) (x : Sill) (b ch : Nat) : (s.setSill b' k' x).edge b ch = s.edge b ch := rfl
@[simp] theorem State.edge_setPort (s : State) (b' k' : Nat) (x : Port) (b ch : Nat) : (s.setPort b' k' x).edge b ch = s.edge b ch := rfl
@[simp] theorem State.edge_setTiu (s : State) (b' u' : Nat) (x : Tiu) (b ch : Nat) : (s.setTiu b' u' x).edge b ch = s.edge b ch := rfl
@[simp] theorem State.edge_setFre (s : State) (b' e' : Nat) (x : Fre) (b ch : Nat) : (s.setFre b' e' x).edge b ch = s.edge b ch := rfl
@[simp] theorem State.edge_setStampIn (s : State) (b' i' : Nat) (x : StampIn) (b ch : Nat) : (s.setStampIn b' i' x).edge b ch = s.edge b ch := rfl
@[simp] theorem State.edge_setMeter (s : State) (b' : Nat) (x : Meter) (b ch : Nat) : (s.setMeter b' x).edge b ch = s.edge b ch := rfl
@[simp] theorem State.edge_setTakeover (s : State) (b' : Nat) (x : Option (Nat × Bool)) (b ch : Nat) : (s.setTakeover b' x).edge b ch = s.edge b ch := rfl
@[simp] theorem State.edge_setBarrier (s : State) (i' : Nat) (x : Option Barrier) (b ch : Nat) : (s.setBarrier i' x).edge b ch = s.edge b ch := rfl
@[simp] theorem State.edge_setMbx (s : State) (b' : Nat) (x : Option Mbx) (b ch : Nat) : (s.setMbx b' x).edge b ch = s.edge b ch := rfl
@[simp] theorem State.edge_setSout (s : State) (b' n' : Nat) (x : SillOut) (b ch : Nat) : (s.setSout b' n' x).edge b ch = s.edge b ch := rfl
@[simp] theorem State.edge_keep (s x : State) (b ch : Nat) : (s.keep x).edge b ch = x.edge b ch := rfl
@[simp] theorem State.edge_keepMem (s x : State) (b ch : Nat) : (s.keepMem x).edge b ch = x.edge b ch := rfl
@[simp] theorem State.edge_setReg (s : State) (oa : Nat) (ow : Word) (b ch : Nat) : (s.setReg oa ow).edge b ch = s.edge b ch := by
  simp [State.edge]
@[simp] theorem State.edge_wr (s : State) (oa ov : Nat) (b ch : Nat) : (s.wr oa ov).edge b ch = s.edge b ch := by
  simp [State.edge]
@[simp] theorem State.edge_setFld (s : State) (oa olo olen ov : Nat) (b ch : Nat) : (s.setFld oa olo olen ov).edge b ch = s.edge b ch := by
  simp [State.edge]
@[simp] theorem State.edge_setBit (s : State) (oa oi : Nat) (oc : Bool) (b ch : Nat) : (s.setBit oa oi oc).edge b ch = s.edge b ch := by
  simp [State.edge]
@[simp] theorem State.edge_count (s : State) (oa ov : Nat) (b ch : Nat) : (s.count oa ov).edge b ch = s.edge b ch := by
  simp [State.edge]
@[simp] theorem State.edge_bump (s : State) (oa : Nat) (b ch : Nat) : (s.bump oa).edge b ch = s.edge b ch := by
  simp [State.edge]
@[simp] theorem State.edge_wr80 (s : State) (oa ov : Nat) (b ch : Nat) : (s.wr80 oa ov).edge b ch = s.edge b ch := by
  simp [State.edge]
@[simp] theorem State.edge_wr64 (s : State) (oa ov : Nat) (b ch : Nat) : (s.wr64 oa ov).edge b ch = s.edge b ch := by
  simp [State.edge]
@[simp] theorem State.edge_latchHealth (s : State) (opg oc : Nat) (b ch : Nat) : (s.latchHealth opg oc).edge b ch = s.edge b ch := by
  simp [State.edge]
@[simp] theorem State.edge_fire (s : State) (ov : Nat) (b ch : Nat) : (s.fire ov).edge b ch = s.edge b ch := by
  simp [State.edge]
@[simp] theorem State.edge_raiseAt (s : State) (opg oi opt od : Nat) (of : Bool) (b ch : Nat) : (s.raiseAt opg oi opt od of).edge b ch = s.edge b ch := by
  simp [State.edge]
@[simp] theorem State.edge_raise (s : State) (opg oi : Nat) (b ch : Nat) : (s.raise opg oi).edge b ch = s.edge b ch := by
  simp [State.edge]
@[simp] theorem State.edge_standing (s : State) (opg oc : Nat) (oon : Bool) (b ch : Nat) : (s.standing opg oc oon).edge b ch = s.edge b ch := by
  simp [State.edge]
@[simp] theorem State.edge_category (s : State) (oc og : Nat) (oon : Bool) (b ch : Nat) : (s.category oc og oon).edge b ch = s.edge b ch := by
  simp [State.edge]
@[simp] theorem State.edge_settle (s : State)  (b ch : Nat) : (s.settle ).edge b ch = s.edge b ch := by
  simp [State.edge]
@[simp] theorem State.edge_arrive (s : State) (t : PT) (b ch : Nat) : (s.arrive t).edge b ch = s.edge b ch := by
  simp [State.edge]

/-! ### queue -/

@[simp] theorem State.queue_setQueue_same (s : State) (lane : Nat) (x : List Peg) : (s.setQueue lane x).queue lane = x := by
  simp [State.queue, State.setQueue]
theorem State.queue_setQueue_ne (s : State) (lane lane' : Nat) (x : List Peg) (h : lane' ≠ lane) : (s.setQueue lane x).queue lane' = s.queue lane' := by
  simp [State.queue, State.setQueue, mapGet_mapSet_ne _ _ _ h]
@[simp] theorem State.queue_setEdge (s : State) (b' ch' : Nat) (x : EdgeSt) (lane : Nat) : (s.setEdge b' ch' x).queue lane = s.queue lane := rfl
@[simp] theorem State.queue_setFlight (s : State) (lane' : Nat) (x : List Peg) (lane : Nat) : (s.setFlight lane' x).queue lane = s.queue lane := rfl
@[simp] theorem State.queue_setSeq (s : State) (k' : Nat) (x : SeqSt) (lane : Nat) : (s.setSeq k' x).queue lane = s.queue lane := rfl
@[simp] theorem State.queue_setTone (s : State) (lane' : Nat) (x : ToneSt) (lane : Nat) : (s.setTone lane' x).queue lane = s.queue lane := rfl
@[simp] theorem State.queue_setCap (s : State) (b' i' : Nat) (x : CapSt) (lane : Nat) : (s.setCap b' i' x).queue lane = s.queue lane := rfl
@[simp] theorem State.queue_setDma (s : State) (b' e' : Nat) (x : DmaSt) (lane : Nat) : (s.setDma b' e' x).queue lane = s.queue lane := rfl
@[simp] theorem State.queue_setStream (s : State) (b' n' : Nat) (x : StreamSt) (lane : Nat) : (s.setStream b' n' x).queue lane = s.queue lane := rfl
@[simp] theorem State.queue_setDrain (s : State) (k' : Nat) (x : Option Nat) (lane : Nat) : (s.setDrain k' x).queue lane = s.queue lane := rfl
@[simp] theorem State.queue_setCal (s : State) (b' : Nat) (x : CalSt) (lane : Nat) : (s.setCal b' x).queue lane = s.queue lane := rfl
@[simp] theorem State.queue_setInst (s : State) (b' item' inst' : Nat) (x : CalInst) (lane : Nat) : (s.setInst b' item' inst' x).queue lane = s.queue lane := rfl
@[simp] theorem State.queue_setSill (s : State) (b' k' : Nat) (x : Sill) (lane : Nat) : (s.setSill b' k' x).queue lane = s.queue lane := rfl
@[simp] theorem State.queue_setPort (s : State) (b' k' : Nat) (x : Port) (lane : Nat) : (s.setPort b' k' x).queue lane = s.queue lane := rfl
@[simp] theorem State.queue_setTiu (s : State) (b' u' : Nat) (x : Tiu) (lane : Nat) : (s.setTiu b' u' x).queue lane = s.queue lane := rfl
@[simp] theorem State.queue_setFre (s : State) (b' e' : Nat) (x : Fre) (lane : Nat) : (s.setFre b' e' x).queue lane = s.queue lane := rfl
@[simp] theorem State.queue_setStampIn (s : State) (b' i' : Nat) (x : StampIn) (lane : Nat) : (s.setStampIn b' i' x).queue lane = s.queue lane := rfl
@[simp] theorem State.queue_setMeter (s : State) (b' : Nat) (x : Meter) (lane : Nat) : (s.setMeter b' x).queue lane = s.queue lane := rfl
@[simp] theorem State.queue_setTakeover (s : State) (b' : Nat) (x : Option (Nat × Bool)) (lane : Nat) : (s.setTakeover b' x).queue lane = s.queue lane := rfl
@[simp] theorem State.queue_setBarrier (s : State) (i' : Nat) (x : Option Barrier) (lane : Nat) : (s.setBarrier i' x).queue lane = s.queue lane := rfl
@[simp] theorem State.queue_setMbx (s : State) (b' : Nat) (x : Option Mbx) (lane : Nat) : (s.setMbx b' x).queue lane = s.queue lane := rfl
@[simp] theorem State.queue_setSout (s : State) (b' n' : Nat) (x : SillOut) (lane : Nat) : (s.setSout b' n' x).queue lane = s.queue lane := rfl
@[simp] theorem State.queue_keep (s x : State) (lane : Nat) : (s.keep x).queue lane = x.queue lane := rfl
@[simp] theorem State.queue_keepMem (s x : State) (lane : Nat) : (s.keepMem x).queue lane = x.queue lane := rfl
@[simp] theorem State.queue_setReg (s : State) (oa : Nat) (ow : Word) (lane : Nat) : (s.setReg oa ow).queue lane = s.queue lane := by
  simp [State.queue]
@[simp] theorem State.queue_wr (s : State) (oa ov : Nat) (lane : Nat) : (s.wr oa ov).queue lane = s.queue lane := by
  simp [State.queue]
@[simp] theorem State.queue_setFld (s : State) (oa olo olen ov : Nat) (lane : Nat) : (s.setFld oa olo olen ov).queue lane = s.queue lane := by
  simp [State.queue]
@[simp] theorem State.queue_setBit (s : State) (oa oi : Nat) (oc : Bool) (lane : Nat) : (s.setBit oa oi oc).queue lane = s.queue lane := by
  simp [State.queue]
@[simp] theorem State.queue_count (s : State) (oa ov : Nat) (lane : Nat) : (s.count oa ov).queue lane = s.queue lane := by
  simp [State.queue]
@[simp] theorem State.queue_bump (s : State) (oa : Nat) (lane : Nat) : (s.bump oa).queue lane = s.queue lane := by
  simp [State.queue]
@[simp] theorem State.queue_wr80 (s : State) (oa ov : Nat) (lane : Nat) : (s.wr80 oa ov).queue lane = s.queue lane := by
  simp [State.queue]
@[simp] theorem State.queue_wr64 (s : State) (oa ov : Nat) (lane : Nat) : (s.wr64 oa ov).queue lane = s.queue lane := by
  simp [State.queue]
@[simp] theorem State.queue_latchHealth (s : State) (opg oc : Nat) (lane : Nat) : (s.latchHealth opg oc).queue lane = s.queue lane := by
  simp [State.queue]
@[simp] theorem State.queue_fire (s : State) (ov : Nat) (lane : Nat) : (s.fire ov).queue lane = s.queue lane := by
  simp [State.queue]
@[simp] theorem State.queue_raiseAt (s : State) (opg oi opt od : Nat) (of : Bool) (lane : Nat) : (s.raiseAt opg oi opt od of).queue lane = s.queue lane := by
  simp [State.queue]
@[simp] theorem State.queue_raise (s : State) (opg oi : Nat) (lane : Nat) : (s.raise opg oi).queue lane = s.queue lane := by
  simp [State.queue]
@[simp] theorem State.queue_standing (s : State) (opg oc : Nat) (oon : Bool) (lane : Nat) : (s.standing opg oc oon).queue lane = s.queue lane := by
  simp [State.queue]
@[simp] theorem State.queue_category (s : State) (oc og : Nat) (oon : Bool) (lane : Nat) : (s.category oc og oon).queue lane = s.queue lane := by
  simp [State.queue]
@[simp] theorem State.queue_settle (s : State)  (lane : Nat) : (s.settle ).queue lane = s.queue lane := by
  simp [State.queue]
@[simp] theorem State.queue_arrive (s : State) (t : PT) (lane : Nat) : (s.arrive t).queue lane = s.queue lane := by
  simp [State.queue]

/-! ### inFlight -/

@[simp] theorem State.inFlight_setFlight_same (s : State) (lane : Nat) (x : List Peg) : (s.setFlight lane x).inFlight lane = x := by
  simp [State.inFlight, State.setFlight]
theorem State.inFlight_setFlight_ne (s : State) (lane lane' : Nat) (x : List Peg) (h : lane' ≠ lane) : (s.setFlight lane x).inFlight lane' = s.inFlight lane' := by
  simp [State.inFlight, State.setFlight, mapGet_mapSet_ne _ _ _ h]
@[simp] theorem State.inFlight_setEdge (s : State) (b' ch' : Nat) (x : EdgeSt) (lane : Nat) : (s.setEdge b' ch' x).inFlight lane = s.inFlight lane := rfl
@[simp] theorem State.inFlight_setQueue (s : State) (lane' : Nat) (x : List Peg) (lane : Nat) : (s.setQueue lane' x).inFlight lane = s.inFlight lane := rfl
@[simp] theorem State.inFlight_setSeq (s : State) (k' : Nat) (x : SeqSt) (lane : Nat) : (s.setSeq k' x).inFlight lane = s.inFlight lane := rfl
@[simp] theorem State.inFlight_setTone (s : State) (lane' : Nat) (x : ToneSt) (lane : Nat) : (s.setTone lane' x).inFlight lane = s.inFlight lane := rfl
@[simp] theorem State.inFlight_setCap (s : State) (b' i' : Nat) (x : CapSt) (lane : Nat) : (s.setCap b' i' x).inFlight lane = s.inFlight lane := rfl
@[simp] theorem State.inFlight_setDma (s : State) (b' e' : Nat) (x : DmaSt) (lane : Nat) : (s.setDma b' e' x).inFlight lane = s.inFlight lane := rfl
@[simp] theorem State.inFlight_setStream (s : State) (b' n' : Nat) (x : StreamSt) (lane : Nat) : (s.setStream b' n' x).inFlight lane = s.inFlight lane := rfl
@[simp] theorem State.inFlight_setDrain (s : State) (k' : Nat) (x : Option Nat) (lane : Nat) : (s.setDrain k' x).inFlight lane = s.inFlight lane := rfl
@[simp] theorem State.inFlight_setCal (s : State) (b' : Nat) (x : CalSt) (lane : Nat) : (s.setCal b' x).inFlight lane = s.inFlight lane := rfl
@[simp] theorem State.inFlight_setInst (s : State) (b' item' inst' : Nat) (x : CalInst) (lane : Nat) : (s.setInst b' item' inst' x).inFlight lane = s.inFlight lane := rfl
@[simp] theorem State.inFlight_setSill (s : State) (b' k' : Nat) (x : Sill) (lane : Nat) : (s.setSill b' k' x).inFlight lane = s.inFlight lane := rfl
@[simp] theorem State.inFlight_setPort (s : State) (b' k' : Nat) (x : Port) (lane : Nat) : (s.setPort b' k' x).inFlight lane = s.inFlight lane := rfl
@[simp] theorem State.inFlight_setTiu (s : State) (b' u' : Nat) (x : Tiu) (lane : Nat) : (s.setTiu b' u' x).inFlight lane = s.inFlight lane := rfl
@[simp] theorem State.inFlight_setFre (s : State) (b' e' : Nat) (x : Fre) (lane : Nat) : (s.setFre b' e' x).inFlight lane = s.inFlight lane := rfl
@[simp] theorem State.inFlight_setStampIn (s : State) (b' i' : Nat) (x : StampIn) (lane : Nat) : (s.setStampIn b' i' x).inFlight lane = s.inFlight lane := rfl
@[simp] theorem State.inFlight_setMeter (s : State) (b' : Nat) (x : Meter) (lane : Nat) : (s.setMeter b' x).inFlight lane = s.inFlight lane := rfl
@[simp] theorem State.inFlight_setTakeover (s : State) (b' : Nat) (x : Option (Nat × Bool)) (lane : Nat) : (s.setTakeover b' x).inFlight lane = s.inFlight lane := rfl
@[simp] theorem State.inFlight_setBarrier (s : State) (i' : Nat) (x : Option Barrier) (lane : Nat) : (s.setBarrier i' x).inFlight lane = s.inFlight lane := rfl
@[simp] theorem State.inFlight_setMbx (s : State) (b' : Nat) (x : Option Mbx) (lane : Nat) : (s.setMbx b' x).inFlight lane = s.inFlight lane := rfl
@[simp] theorem State.inFlight_setSout (s : State) (b' n' : Nat) (x : SillOut) (lane : Nat) : (s.setSout b' n' x).inFlight lane = s.inFlight lane := rfl
@[simp] theorem State.inFlight_keep (s x : State) (lane : Nat) : (s.keep x).inFlight lane = x.inFlight lane := rfl
@[simp] theorem State.inFlight_keepMem (s x : State) (lane : Nat) : (s.keepMem x).inFlight lane = x.inFlight lane := rfl
@[simp] theorem State.inFlight_setReg (s : State) (oa : Nat) (ow : Word) (lane : Nat) : (s.setReg oa ow).inFlight lane = s.inFlight lane := by
  simp [State.inFlight]
@[simp] theorem State.inFlight_wr (s : State) (oa ov : Nat) (lane : Nat) : (s.wr oa ov).inFlight lane = s.inFlight lane := by
  simp [State.inFlight]
@[simp] theorem State.inFlight_setFld (s : State) (oa olo olen ov : Nat) (lane : Nat) : (s.setFld oa olo olen ov).inFlight lane = s.inFlight lane := by
  simp [State.inFlight]
@[simp] theorem State.inFlight_setBit (s : State) (oa oi : Nat) (oc : Bool) (lane : Nat) : (s.setBit oa oi oc).inFlight lane = s.inFlight lane := by
  simp [State.inFlight]
@[simp] theorem State.inFlight_count (s : State) (oa ov : Nat) (lane : Nat) : (s.count oa ov).inFlight lane = s.inFlight lane := by
  simp [State.inFlight]
@[simp] theorem State.inFlight_bump (s : State) (oa : Nat) (lane : Nat) : (s.bump oa).inFlight lane = s.inFlight lane := by
  simp [State.inFlight]
@[simp] theorem State.inFlight_wr80 (s : State) (oa ov : Nat) (lane : Nat) : (s.wr80 oa ov).inFlight lane = s.inFlight lane := by
  simp [State.inFlight]
@[simp] theorem State.inFlight_wr64 (s : State) (oa ov : Nat) (lane : Nat) : (s.wr64 oa ov).inFlight lane = s.inFlight lane := by
  simp [State.inFlight]
@[simp] theorem State.inFlight_latchHealth (s : State) (opg oc : Nat) (lane : Nat) : (s.latchHealth opg oc).inFlight lane = s.inFlight lane := by
  simp [State.inFlight]
@[simp] theorem State.inFlight_fire (s : State) (ov : Nat) (lane : Nat) : (s.fire ov).inFlight lane = s.inFlight lane := by
  simp [State.inFlight]
@[simp] theorem State.inFlight_raiseAt (s : State) (opg oi opt od : Nat) (of : Bool) (lane : Nat) : (s.raiseAt opg oi opt od of).inFlight lane = s.inFlight lane := by
  simp [State.inFlight]
@[simp] theorem State.inFlight_raise (s : State) (opg oi : Nat) (lane : Nat) : (s.raise opg oi).inFlight lane = s.inFlight lane := by
  simp [State.inFlight]
@[simp] theorem State.inFlight_standing (s : State) (opg oc : Nat) (oon : Bool) (lane : Nat) : (s.standing opg oc oon).inFlight lane = s.inFlight lane := by
  simp [State.inFlight]
@[simp] theorem State.inFlight_category (s : State) (oc og : Nat) (oon : Bool) (lane : Nat) : (s.category oc og oon).inFlight lane = s.inFlight lane := by
  simp [State.inFlight]
@[simp] theorem State.inFlight_settle (s : State)  (lane : Nat) : (s.settle ).inFlight lane = s.inFlight lane := by
  simp [State.inFlight]
@[simp] theorem State.inFlight_arrive (s : State) (t : PT) (lane : Nat) : (s.arrive t).inFlight lane = s.inFlight lane := by
  simp [State.inFlight]

/-! ### seq -/

@[simp] theorem State.seq_setSeq_same (s : State) (k : Nat) (x : SeqSt) : (s.setSeq k x).seq k = x := by
  simp [State.seq, State.setSeq]
theorem State.seq_setSeq_ne (s : State) (k k' : Nat) (x : SeqSt) (h : k' ≠ k) : (s.setSeq k x).seq k' = s.seq k' := by
  simp [State.seq, State.setSeq, mapGet_mapSet_ne _ _ _ h]
@[simp] theorem State.seq_setEdge (s : State) (b' ch' : Nat) (x : EdgeSt) (k : Nat) : (s.setEdge b' ch' x).seq k = s.seq k := rfl
@[simp] theorem State.seq_setQueue (s : State) (lane' : Nat) (x : List Peg) (k : Nat) : (s.setQueue lane' x).seq k = s.seq k := rfl
@[simp] theorem State.seq_setFlight (s : State) (lane' : Nat) (x : List Peg) (k : Nat) : (s.setFlight lane' x).seq k = s.seq k := rfl
@[simp] theorem State.seq_setTone (s : State) (lane' : Nat) (x : ToneSt) (k : Nat) : (s.setTone lane' x).seq k = s.seq k := rfl
@[simp] theorem State.seq_setCap (s : State) (b' i' : Nat) (x : CapSt) (k : Nat) : (s.setCap b' i' x).seq k = s.seq k := rfl
@[simp] theorem State.seq_setDma (s : State) (b' e' : Nat) (x : DmaSt) (k : Nat) : (s.setDma b' e' x).seq k = s.seq k := rfl
@[simp] theorem State.seq_setStream (s : State) (b' n' : Nat) (x : StreamSt) (k : Nat) : (s.setStream b' n' x).seq k = s.seq k := rfl
@[simp] theorem State.seq_setDrain (s : State) (k' : Nat) (x : Option Nat) (k : Nat) : (s.setDrain k' x).seq k = s.seq k := rfl
@[simp] theorem State.seq_setCal (s : State) (b' : Nat) (x : CalSt) (k : Nat) : (s.setCal b' x).seq k = s.seq k := rfl
@[simp] theorem State.seq_setInst (s : State) (b' item' inst' : Nat) (x : CalInst) (k : Nat) : (s.setInst b' item' inst' x).seq k = s.seq k := rfl
@[simp] theorem State.seq_setSill (s : State) (b' k' : Nat) (x : Sill) (k : Nat) : (s.setSill b' k' x).seq k = s.seq k := rfl
@[simp] theorem State.seq_setPort (s : State) (b' k' : Nat) (x : Port) (k : Nat) : (s.setPort b' k' x).seq k = s.seq k := rfl
@[simp] theorem State.seq_setTiu (s : State) (b' u' : Nat) (x : Tiu) (k : Nat) : (s.setTiu b' u' x).seq k = s.seq k := rfl
@[simp] theorem State.seq_setFre (s : State) (b' e' : Nat) (x : Fre) (k : Nat) : (s.setFre b' e' x).seq k = s.seq k := rfl
@[simp] theorem State.seq_setStampIn (s : State) (b' i' : Nat) (x : StampIn) (k : Nat) : (s.setStampIn b' i' x).seq k = s.seq k := rfl
@[simp] theorem State.seq_setMeter (s : State) (b' : Nat) (x : Meter) (k : Nat) : (s.setMeter b' x).seq k = s.seq k := rfl
@[simp] theorem State.seq_setTakeover (s : State) (b' : Nat) (x : Option (Nat × Bool)) (k : Nat) : (s.setTakeover b' x).seq k = s.seq k := rfl
@[simp] theorem State.seq_setBarrier (s : State) (i' : Nat) (x : Option Barrier) (k : Nat) : (s.setBarrier i' x).seq k = s.seq k := rfl
@[simp] theorem State.seq_setMbx (s : State) (b' : Nat) (x : Option Mbx) (k : Nat) : (s.setMbx b' x).seq k = s.seq k := rfl
@[simp] theorem State.seq_setSout (s : State) (b' n' : Nat) (x : SillOut) (k : Nat) : (s.setSout b' n' x).seq k = s.seq k := rfl
@[simp] theorem State.seq_keep (s x : State) (k : Nat) : (s.keep x).seq k = x.seq k := rfl
@[simp] theorem State.seq_keepMem (s x : State) (k : Nat) : (s.keepMem x).seq k = x.seq k := rfl
@[simp] theorem State.seq_setReg (s : State) (oa : Nat) (ow : Word) (k : Nat) : (s.setReg oa ow).seq k = s.seq k := by
  simp [State.seq]
@[simp] theorem State.seq_wr (s : State) (oa ov : Nat) (k : Nat) : (s.wr oa ov).seq k = s.seq k := by
  simp [State.seq]
@[simp] theorem State.seq_setFld (s : State) (oa olo olen ov : Nat) (k : Nat) : (s.setFld oa olo olen ov).seq k = s.seq k := by
  simp [State.seq]
@[simp] theorem State.seq_setBit (s : State) (oa oi : Nat) (oc : Bool) (k : Nat) : (s.setBit oa oi oc).seq k = s.seq k := by
  simp [State.seq]
@[simp] theorem State.seq_count (s : State) (oa ov : Nat) (k : Nat) : (s.count oa ov).seq k = s.seq k := by
  simp [State.seq]
@[simp] theorem State.seq_bump (s : State) (oa : Nat) (k : Nat) : (s.bump oa).seq k = s.seq k := by
  simp [State.seq]
@[simp] theorem State.seq_wr80 (s : State) (oa ov : Nat) (k : Nat) : (s.wr80 oa ov).seq k = s.seq k := by
  simp [State.seq]
@[simp] theorem State.seq_wr64 (s : State) (oa ov : Nat) (k : Nat) : (s.wr64 oa ov).seq k = s.seq k := by
  simp [State.seq]
@[simp] theorem State.seq_latchHealth (s : State) (opg oc : Nat) (k : Nat) : (s.latchHealth opg oc).seq k = s.seq k := by
  simp [State.seq]
@[simp] theorem State.seq_fire (s : State) (ov : Nat) (k : Nat) : (s.fire ov).seq k = s.seq k := by
  simp [State.seq]
@[simp] theorem State.seq_raiseAt (s : State) (opg oi opt od : Nat) (of : Bool) (k : Nat) : (s.raiseAt opg oi opt od of).seq k = s.seq k := by
  simp [State.seq]
@[simp] theorem State.seq_raise (s : State) (opg oi : Nat) (k : Nat) : (s.raise opg oi).seq k = s.seq k := by
  simp [State.seq]
@[simp] theorem State.seq_standing (s : State) (opg oc : Nat) (oon : Bool) (k : Nat) : (s.standing opg oc oon).seq k = s.seq k := by
  simp [State.seq]
@[simp] theorem State.seq_category (s : State) (oc og : Nat) (oon : Bool) (k : Nat) : (s.category oc og oon).seq k = s.seq k := by
  simp [State.seq]
@[simp] theorem State.seq_settle (s : State)  (k : Nat) : (s.settle ).seq k = s.seq k := by
  simp [State.seq]
@[simp] theorem State.seq_arrive (s : State) (t : PT) (k : Nat) : (s.arrive t).seq k = s.seq k := by
  simp [State.seq]

/-! ### tone -/

@[simp] theorem State.tone_setTone_same (s : State) (lane : Nat) (x : ToneSt) : (s.setTone lane x).tone lane = x := by
  simp [State.tone, State.setTone]
theorem State.tone_setTone_ne (s : State) (lane lane' : Nat) (x : ToneSt) (h : lane' ≠ lane) : (s.setTone lane x).tone lane' = s.tone lane' := by
  simp [State.tone, State.setTone, mapGet_mapSet_ne _ _ _ h]
@[simp] theorem State.tone_setEdge (s : State) (b' ch' : Nat) (x : EdgeSt) (lane : Nat) : (s.setEdge b' ch' x).tone lane = s.tone lane := rfl
@[simp] theorem State.tone_setQueue (s : State) (lane' : Nat) (x : List Peg) (lane : Nat) : (s.setQueue lane' x).tone lane = s.tone lane := rfl
@[simp] theorem State.tone_setFlight (s : State) (lane' : Nat) (x : List Peg) (lane : Nat) : (s.setFlight lane' x).tone lane = s.tone lane := rfl
@[simp] theorem State.tone_setSeq (s : State) (k' : Nat) (x : SeqSt) (lane : Nat) : (s.setSeq k' x).tone lane = s.tone lane := rfl
@[simp] theorem State.tone_setCap (s : State) (b' i' : Nat) (x : CapSt) (lane : Nat) : (s.setCap b' i' x).tone lane = s.tone lane := rfl
@[simp] theorem State.tone_setDma (s : State) (b' e' : Nat) (x : DmaSt) (lane : Nat) : (s.setDma b' e' x).tone lane = s.tone lane := rfl
@[simp] theorem State.tone_setStream (s : State) (b' n' : Nat) (x : StreamSt) (lane : Nat) : (s.setStream b' n' x).tone lane = s.tone lane := rfl
@[simp] theorem State.tone_setDrain (s : State) (k' : Nat) (x : Option Nat) (lane : Nat) : (s.setDrain k' x).tone lane = s.tone lane := rfl
@[simp] theorem State.tone_setCal (s : State) (b' : Nat) (x : CalSt) (lane : Nat) : (s.setCal b' x).tone lane = s.tone lane := rfl
@[simp] theorem State.tone_setInst (s : State) (b' item' inst' : Nat) (x : CalInst) (lane : Nat) : (s.setInst b' item' inst' x).tone lane = s.tone lane := rfl
@[simp] theorem State.tone_setSill (s : State) (b' k' : Nat) (x : Sill) (lane : Nat) : (s.setSill b' k' x).tone lane = s.tone lane := rfl
@[simp] theorem State.tone_setPort (s : State) (b' k' : Nat) (x : Port) (lane : Nat) : (s.setPort b' k' x).tone lane = s.tone lane := rfl
@[simp] theorem State.tone_setTiu (s : State) (b' u' : Nat) (x : Tiu) (lane : Nat) : (s.setTiu b' u' x).tone lane = s.tone lane := rfl
@[simp] theorem State.tone_setFre (s : State) (b' e' : Nat) (x : Fre) (lane : Nat) : (s.setFre b' e' x).tone lane = s.tone lane := rfl
@[simp] theorem State.tone_setStampIn (s : State) (b' i' : Nat) (x : StampIn) (lane : Nat) : (s.setStampIn b' i' x).tone lane = s.tone lane := rfl
@[simp] theorem State.tone_setMeter (s : State) (b' : Nat) (x : Meter) (lane : Nat) : (s.setMeter b' x).tone lane = s.tone lane := rfl
@[simp] theorem State.tone_setTakeover (s : State) (b' : Nat) (x : Option (Nat × Bool)) (lane : Nat) : (s.setTakeover b' x).tone lane = s.tone lane := rfl
@[simp] theorem State.tone_setBarrier (s : State) (i' : Nat) (x : Option Barrier) (lane : Nat) : (s.setBarrier i' x).tone lane = s.tone lane := rfl
@[simp] theorem State.tone_setMbx (s : State) (b' : Nat) (x : Option Mbx) (lane : Nat) : (s.setMbx b' x).tone lane = s.tone lane := rfl
@[simp] theorem State.tone_setSout (s : State) (b' n' : Nat) (x : SillOut) (lane : Nat) : (s.setSout b' n' x).tone lane = s.tone lane := rfl
@[simp] theorem State.tone_keep (s x : State) (lane : Nat) : (s.keep x).tone lane = x.tone lane := rfl
@[simp] theorem State.tone_keepMem (s x : State) (lane : Nat) : (s.keepMem x).tone lane = x.tone lane := rfl
@[simp] theorem State.tone_setReg (s : State) (oa : Nat) (ow : Word) (lane : Nat) : (s.setReg oa ow).tone lane = s.tone lane := by
  simp [State.tone]
@[simp] theorem State.tone_wr (s : State) (oa ov : Nat) (lane : Nat) : (s.wr oa ov).tone lane = s.tone lane := by
  simp [State.tone]
@[simp] theorem State.tone_setFld (s : State) (oa olo olen ov : Nat) (lane : Nat) : (s.setFld oa olo olen ov).tone lane = s.tone lane := by
  simp [State.tone]
@[simp] theorem State.tone_setBit (s : State) (oa oi : Nat) (oc : Bool) (lane : Nat) : (s.setBit oa oi oc).tone lane = s.tone lane := by
  simp [State.tone]
@[simp] theorem State.tone_count (s : State) (oa ov : Nat) (lane : Nat) : (s.count oa ov).tone lane = s.tone lane := by
  simp [State.tone]
@[simp] theorem State.tone_bump (s : State) (oa : Nat) (lane : Nat) : (s.bump oa).tone lane = s.tone lane := by
  simp [State.tone]
@[simp] theorem State.tone_wr80 (s : State) (oa ov : Nat) (lane : Nat) : (s.wr80 oa ov).tone lane = s.tone lane := by
  simp [State.tone]
@[simp] theorem State.tone_wr64 (s : State) (oa ov : Nat) (lane : Nat) : (s.wr64 oa ov).tone lane = s.tone lane := by
  simp [State.tone]
@[simp] theorem State.tone_latchHealth (s : State) (opg oc : Nat) (lane : Nat) : (s.latchHealth opg oc).tone lane = s.tone lane := by
  simp [State.tone]
@[simp] theorem State.tone_fire (s : State) (ov : Nat) (lane : Nat) : (s.fire ov).tone lane = s.tone lane := by
  simp [State.tone]
@[simp] theorem State.tone_raiseAt (s : State) (opg oi opt od : Nat) (of : Bool) (lane : Nat) : (s.raiseAt opg oi opt od of).tone lane = s.tone lane := by
  simp [State.tone]
@[simp] theorem State.tone_raise (s : State) (opg oi : Nat) (lane : Nat) : (s.raise opg oi).tone lane = s.tone lane := by
  simp [State.tone]
@[simp] theorem State.tone_standing (s : State) (opg oc : Nat) (oon : Bool) (lane : Nat) : (s.standing opg oc oon).tone lane = s.tone lane := by
  simp [State.tone]
@[simp] theorem State.tone_category (s : State) (oc og : Nat) (oon : Bool) (lane : Nat) : (s.category oc og oon).tone lane = s.tone lane := by
  simp [State.tone]
@[simp] theorem State.tone_settle (s : State)  (lane : Nat) : (s.settle ).tone lane = s.tone lane := by
  simp [State.tone]
@[simp] theorem State.tone_arrive (s : State) (t : PT) (lane : Nat) : (s.arrive t).tone lane = s.tone lane := by
  simp [State.tone]

/-! ### cap -/

@[simp] theorem State.cap_setCap_same (s : State) (b i : Nat) (x : CapSt) : (s.setCap b i x).cap b i = x := by
  simp [State.cap, State.setCap]
theorem State.cap_setCap_ne (s : State) (b i b' i' : Nat) (x : CapSt) (h : b' * 4 + i' ≠ b * 4 + i) : (s.setCap b i x).cap b' i' = s.cap b' i' := by
  simp [State.cap, State.setCap, mapGet_mapSet_ne _ _ _ h]
@[simp] theorem State.cap_setEdge (s : State) (b' ch' : Nat) (x : EdgeSt) (b i : Nat) : (s.setEdge b' ch' x).cap b i = s.cap b i := rfl
@[simp] theorem State.cap_setQueue (s : State) (lane' : Nat) (x : List Peg) (b i : Nat) : (s.setQueue lane' x).cap b i = s.cap b i := rfl
@[simp] theorem State.cap_setFlight (s : State) (lane' : Nat) (x : List Peg) (b i : Nat) : (s.setFlight lane' x).cap b i = s.cap b i := rfl
@[simp] theorem State.cap_setSeq (s : State) (k' : Nat) (x : SeqSt) (b i : Nat) : (s.setSeq k' x).cap b i = s.cap b i := rfl
@[simp] theorem State.cap_setTone (s : State) (lane' : Nat) (x : ToneSt) (b i : Nat) : (s.setTone lane' x).cap b i = s.cap b i := rfl
@[simp] theorem State.cap_setDma (s : State) (b' e' : Nat) (x : DmaSt) (b i : Nat) : (s.setDma b' e' x).cap b i = s.cap b i := rfl
@[simp] theorem State.cap_setStream (s : State) (b' n' : Nat) (x : StreamSt) (b i : Nat) : (s.setStream b' n' x).cap b i = s.cap b i := rfl
@[simp] theorem State.cap_setDrain (s : State) (k' : Nat) (x : Option Nat) (b i : Nat) : (s.setDrain k' x).cap b i = s.cap b i := rfl
@[simp] theorem State.cap_setCal (s : State) (b' : Nat) (x : CalSt) (b i : Nat) : (s.setCal b' x).cap b i = s.cap b i := rfl
@[simp] theorem State.cap_setInst (s : State) (b' item' inst' : Nat) (x : CalInst) (b i : Nat) : (s.setInst b' item' inst' x).cap b i = s.cap b i := rfl
@[simp] theorem State.cap_setSill (s : State) (b' k' : Nat) (x : Sill) (b i : Nat) : (s.setSill b' k' x).cap b i = s.cap b i := rfl
@[simp] theorem State.cap_setPort (s : State) (b' k' : Nat) (x : Port) (b i : Nat) : (s.setPort b' k' x).cap b i = s.cap b i := rfl
@[simp] theorem State.cap_setTiu (s : State) (b' u' : Nat) (x : Tiu) (b i : Nat) : (s.setTiu b' u' x).cap b i = s.cap b i := rfl
@[simp] theorem State.cap_setFre (s : State) (b' e' : Nat) (x : Fre) (b i : Nat) : (s.setFre b' e' x).cap b i = s.cap b i := rfl
@[simp] theorem State.cap_setStampIn (s : State) (b' i' : Nat) (x : StampIn) (b i : Nat) : (s.setStampIn b' i' x).cap b i = s.cap b i := rfl
@[simp] theorem State.cap_setMeter (s : State) (b' : Nat) (x : Meter) (b i : Nat) : (s.setMeter b' x).cap b i = s.cap b i := rfl
@[simp] theorem State.cap_setTakeover (s : State) (b' : Nat) (x : Option (Nat × Bool)) (b i : Nat) : (s.setTakeover b' x).cap b i = s.cap b i := rfl
@[simp] theorem State.cap_setBarrier (s : State) (i' : Nat) (x : Option Barrier) (b i : Nat) : (s.setBarrier i' x).cap b i = s.cap b i := rfl
@[simp] theorem State.cap_setMbx (s : State) (b' : Nat) (x : Option Mbx) (b i : Nat) : (s.setMbx b' x).cap b i = s.cap b i := rfl
@[simp] theorem State.cap_setSout (s : State) (b' n' : Nat) (x : SillOut) (b i : Nat) : (s.setSout b' n' x).cap b i = s.cap b i := rfl
@[simp] theorem State.cap_keep (s x : State) (b i : Nat) : (s.keep x).cap b i = x.cap b i := rfl
@[simp] theorem State.cap_keepMem (s x : State) (b i : Nat) : (s.keepMem x).cap b i = x.cap b i := rfl
@[simp] theorem State.cap_setReg (s : State) (oa : Nat) (ow : Word) (b i : Nat) : (s.setReg oa ow).cap b i = s.cap b i := by
  simp [State.cap]
@[simp] theorem State.cap_wr (s : State) (oa ov : Nat) (b i : Nat) : (s.wr oa ov).cap b i = s.cap b i := by
  simp [State.cap]
@[simp] theorem State.cap_setFld (s : State) (oa olo olen ov : Nat) (b i : Nat) : (s.setFld oa olo olen ov).cap b i = s.cap b i := by
  simp [State.cap]
@[simp] theorem State.cap_setBit (s : State) (oa oi : Nat) (oc : Bool) (b i : Nat) : (s.setBit oa oi oc).cap b i = s.cap b i := by
  simp [State.cap]
@[simp] theorem State.cap_count (s : State) (oa ov : Nat) (b i : Nat) : (s.count oa ov).cap b i = s.cap b i := by
  simp [State.cap]
@[simp] theorem State.cap_bump (s : State) (oa : Nat) (b i : Nat) : (s.bump oa).cap b i = s.cap b i := by
  simp [State.cap]
@[simp] theorem State.cap_wr80 (s : State) (oa ov : Nat) (b i : Nat) : (s.wr80 oa ov).cap b i = s.cap b i := by
  simp [State.cap]
@[simp] theorem State.cap_wr64 (s : State) (oa ov : Nat) (b i : Nat) : (s.wr64 oa ov).cap b i = s.cap b i := by
  simp [State.cap]
@[simp] theorem State.cap_latchHealth (s : State) (opg oc : Nat) (b i : Nat) : (s.latchHealth opg oc).cap b i = s.cap b i := by
  simp [State.cap]
@[simp] theorem State.cap_fire (s : State) (ov : Nat) (b i : Nat) : (s.fire ov).cap b i = s.cap b i := by
  simp [State.cap]
@[simp] theorem State.cap_raiseAt (s : State) (opg oi opt od : Nat) (of : Bool) (b i : Nat) : (s.raiseAt opg oi opt od of).cap b i = s.cap b i := by
  simp [State.cap]
@[simp] theorem State.cap_raise (s : State) (opg oi : Nat) (b i : Nat) : (s.raise opg oi).cap b i = s.cap b i := by
  simp [State.cap]
@[simp] theorem State.cap_standing (s : State) (opg oc : Nat) (oon : Bool) (b i : Nat) : (s.standing opg oc oon).cap b i = s.cap b i := by
  simp [State.cap]
@[simp] theorem State.cap_category (s : State) (oc og : Nat) (oon : Bool) (b i : Nat) : (s.category oc og oon).cap b i = s.cap b i := by
  simp [State.cap]
@[simp] theorem State.cap_settle (s : State)  (b i : Nat) : (s.settle ).cap b i = s.cap b i := by
  simp [State.cap]
@[simp] theorem State.cap_arrive (s : State) (t : PT) (b i : Nat) : (s.arrive t).cap b i = s.cap b i := by
  simp [State.cap]

/-! ### dma -/

@[simp] theorem State.dma_setDma_same (s : State) (b e : Nat) (x : DmaSt) : (s.setDma b e x).dma b e = x := by
  simp [State.dma, State.setDma]
theorem State.dma_setDma_ne (s : State) (b e b' e' : Nat) (x : DmaSt) (h : b' * 16 + e' ≠ b * 16 + e) : (s.setDma b e x).dma b' e' = s.dma b' e' := by
  simp [State.dma, State.setDma, mapGet_mapSet_ne _ _ _ h]
@[simp] theorem State.dma_setEdge (s : State) (b' ch' : Nat) (x : EdgeSt) (b e : Nat) : (s.setEdge b' ch' x).dma b e = s.dma b e := rfl
@[simp] theorem State.dma_setQueue (s : State) (lane' : Nat) (x : List Peg) (b e : Nat) : (s.setQueue lane' x).dma b e = s.dma b e := rfl
@[simp] theorem State.dma_setFlight (s : State) (lane' : Nat) (x : List Peg) (b e : Nat) : (s.setFlight lane' x).dma b e = s.dma b e := rfl
@[simp] theorem State.dma_setSeq (s : State) (k' : Nat) (x : SeqSt) (b e : Nat) : (s.setSeq k' x).dma b e = s.dma b e := rfl
@[simp] theorem State.dma_setTone (s : State) (lane' : Nat) (x : ToneSt) (b e : Nat) : (s.setTone lane' x).dma b e = s.dma b e := rfl
@[simp] theorem State.dma_setCap (s : State) (b' i' : Nat) (x : CapSt) (b e : Nat) : (s.setCap b' i' x).dma b e = s.dma b e := rfl
@[simp] theorem State.dma_setStream (s : State) (b' n' : Nat) (x : StreamSt) (b e : Nat) : (s.setStream b' n' x).dma b e = s.dma b e := rfl
@[simp] theorem State.dma_setDrain (s : State) (k' : Nat) (x : Option Nat) (b e : Nat) : (s.setDrain k' x).dma b e = s.dma b e := rfl
@[simp] theorem State.dma_setCal (s : State) (b' : Nat) (x : CalSt) (b e : Nat) : (s.setCal b' x).dma b e = s.dma b e := rfl
@[simp] theorem State.dma_setInst (s : State) (b' item' inst' : Nat) (x : CalInst) (b e : Nat) : (s.setInst b' item' inst' x).dma b e = s.dma b e := rfl
@[simp] theorem State.dma_setSill (s : State) (b' k' : Nat) (x : Sill) (b e : Nat) : (s.setSill b' k' x).dma b e = s.dma b e := rfl
@[simp] theorem State.dma_setPort (s : State) (b' k' : Nat) (x : Port) (b e : Nat) : (s.setPort b' k' x).dma b e = s.dma b e := rfl
@[simp] theorem State.dma_setTiu (s : State) (b' u' : Nat) (x : Tiu) (b e : Nat) : (s.setTiu b' u' x).dma b e = s.dma b e := rfl
@[simp] theorem State.dma_setFre (s : State) (b' e' : Nat) (x : Fre) (b e : Nat) : (s.setFre b' e' x).dma b e = s.dma b e := rfl
@[simp] theorem State.dma_setStampIn (s : State) (b' i' : Nat) (x : StampIn) (b e : Nat) : (s.setStampIn b' i' x).dma b e = s.dma b e := rfl
@[simp] theorem State.dma_setMeter (s : State) (b' : Nat) (x : Meter) (b e : Nat) : (s.setMeter b' x).dma b e = s.dma b e := rfl
@[simp] theorem State.dma_setTakeover (s : State) (b' : Nat) (x : Option (Nat × Bool)) (b e : Nat) : (s.setTakeover b' x).dma b e = s.dma b e := rfl
@[simp] theorem State.dma_setBarrier (s : State) (i' : Nat) (x : Option Barrier) (b e : Nat) : (s.setBarrier i' x).dma b e = s.dma b e := rfl
@[simp] theorem State.dma_setMbx (s : State) (b' : Nat) (x : Option Mbx) (b e : Nat) : (s.setMbx b' x).dma b e = s.dma b e := rfl
@[simp] theorem State.dma_setSout (s : State) (b' n' : Nat) (x : SillOut) (b e : Nat) : (s.setSout b' n' x).dma b e = s.dma b e := rfl
@[simp] theorem State.dma_keep (s x : State) (b e : Nat) : (s.keep x).dma b e = x.dma b e := rfl
@[simp] theorem State.dma_keepMem (s x : State) (b e : Nat) : (s.keepMem x).dma b e = x.dma b e := rfl
@[simp] theorem State.dma_setReg (s : State) (oa : Nat) (ow : Word) (b e : Nat) : (s.setReg oa ow).dma b e = s.dma b e := by
  simp [State.dma]
@[simp] theorem State.dma_wr (s : State) (oa ov : Nat) (b e : Nat) : (s.wr oa ov).dma b e = s.dma b e := by
  simp [State.dma]
@[simp] theorem State.dma_setFld (s : State) (oa olo olen ov : Nat) (b e : Nat) : (s.setFld oa olo olen ov).dma b e = s.dma b e := by
  simp [State.dma]
@[simp] theorem State.dma_setBit (s : State) (oa oi : Nat) (oc : Bool) (b e : Nat) : (s.setBit oa oi oc).dma b e = s.dma b e := by
  simp [State.dma]
@[simp] theorem State.dma_count (s : State) (oa ov : Nat) (b e : Nat) : (s.count oa ov).dma b e = s.dma b e := by
  simp [State.dma]
@[simp] theorem State.dma_bump (s : State) (oa : Nat) (b e : Nat) : (s.bump oa).dma b e = s.dma b e := by
  simp [State.dma]
@[simp] theorem State.dma_wr80 (s : State) (oa ov : Nat) (b e : Nat) : (s.wr80 oa ov).dma b e = s.dma b e := by
  simp [State.dma]
@[simp] theorem State.dma_wr64 (s : State) (oa ov : Nat) (b e : Nat) : (s.wr64 oa ov).dma b e = s.dma b e := by
  simp [State.dma]
@[simp] theorem State.dma_latchHealth (s : State) (opg oc : Nat) (b e : Nat) : (s.latchHealth opg oc).dma b e = s.dma b e := by
  simp [State.dma]
@[simp] theorem State.dma_fire (s : State) (ov : Nat) (b e : Nat) : (s.fire ov).dma b e = s.dma b e := by
  simp [State.dma]
@[simp] theorem State.dma_raiseAt (s : State) (opg oi opt od : Nat) (of : Bool) (b e : Nat) : (s.raiseAt opg oi opt od of).dma b e = s.dma b e := by
  simp [State.dma]
@[simp] theorem State.dma_raise (s : State) (opg oi : Nat) (b e : Nat) : (s.raise opg oi).dma b e = s.dma b e := by
  simp [State.dma]
@[simp] theorem State.dma_standing (s : State) (opg oc : Nat) (oon : Bool) (b e : Nat) : (s.standing opg oc oon).dma b e = s.dma b e := by
  simp [State.dma]
@[simp] theorem State.dma_category (s : State) (oc og : Nat) (oon : Bool) (b e : Nat) : (s.category oc og oon).dma b e = s.dma b e := by
  simp [State.dma]
@[simp] theorem State.dma_settle (s : State)  (b e : Nat) : (s.settle ).dma b e = s.dma b e := by
  simp [State.dma]
@[simp] theorem State.dma_arrive (s : State) (t : PT) (b e : Nat) : (s.arrive t).dma b e = s.dma b e := by
  simp [State.dma]

/-! ### stream -/

@[simp] theorem State.stream_setStream_same (s : State) (b n : Nat) (x : StreamSt) : (s.setStream b n x).stream b n = x := by
  simp [State.stream, State.setStream]
theorem State.stream_setStream_ne (s : State) (b n b' n' : Nat) (x : StreamSt) (h : b' * 16 + n' ≠ b * 16 + n) : (s.setStream b n x).stream b' n' = s.stream b' n' := by
  simp [State.stream, State.setStream, mapGet_mapSet_ne _ _ _ h]
@[simp] theorem State.stream_setEdge (s : State) (b' ch' : Nat) (x : EdgeSt) (b n : Nat) : (s.setEdge b' ch' x).stream b n = s.stream b n := rfl
@[simp] theorem State.stream_setQueue (s : State) (lane' : Nat) (x : List Peg) (b n : Nat) : (s.setQueue lane' x).stream b n = s.stream b n := rfl
@[simp] theorem State.stream_setFlight (s : State) (lane' : Nat) (x : List Peg) (b n : Nat) : (s.setFlight lane' x).stream b n = s.stream b n := rfl
@[simp] theorem State.stream_setSeq (s : State) (k' : Nat) (x : SeqSt) (b n : Nat) : (s.setSeq k' x).stream b n = s.stream b n := rfl
@[simp] theorem State.stream_setTone (s : State) (lane' : Nat) (x : ToneSt) (b n : Nat) : (s.setTone lane' x).stream b n = s.stream b n := rfl
@[simp] theorem State.stream_setCap (s : State) (b' i' : Nat) (x : CapSt) (b n : Nat) : (s.setCap b' i' x).stream b n = s.stream b n := rfl
@[simp] theorem State.stream_setDma (s : State) (b' e' : Nat) (x : DmaSt) (b n : Nat) : (s.setDma b' e' x).stream b n = s.stream b n := rfl
@[simp] theorem State.stream_setDrain (s : State) (k' : Nat) (x : Option Nat) (b n : Nat) : (s.setDrain k' x).stream b n = s.stream b n := rfl
@[simp] theorem State.stream_setCal (s : State) (b' : Nat) (x : CalSt) (b n : Nat) : (s.setCal b' x).stream b n = s.stream b n := rfl
@[simp] theorem State.stream_setInst (s : State) (b' item' inst' : Nat) (x : CalInst) (b n : Nat) : (s.setInst b' item' inst' x).stream b n = s.stream b n := rfl
@[simp] theorem State.stream_setSill (s : State) (b' k' : Nat) (x : Sill) (b n : Nat) : (s.setSill b' k' x).stream b n = s.stream b n := rfl
@[simp] theorem State.stream_setPort (s : State) (b' k' : Nat) (x : Port) (b n : Nat) : (s.setPort b' k' x).stream b n = s.stream b n := rfl
@[simp] theorem State.stream_setTiu (s : State) (b' u' : Nat) (x : Tiu) (b n : Nat) : (s.setTiu b' u' x).stream b n = s.stream b n := rfl
@[simp] theorem State.stream_setFre (s : State) (b' e' : Nat) (x : Fre) (b n : Nat) : (s.setFre b' e' x).stream b n = s.stream b n := rfl
@[simp] theorem State.stream_setStampIn (s : State) (b' i' : Nat) (x : StampIn) (b n : Nat) : (s.setStampIn b' i' x).stream b n = s.stream b n := rfl
@[simp] theorem State.stream_setMeter (s : State) (b' : Nat) (x : Meter) (b n : Nat) : (s.setMeter b' x).stream b n = s.stream b n := rfl
@[simp] theorem State.stream_setTakeover (s : State) (b' : Nat) (x : Option (Nat × Bool)) (b n : Nat) : (s.setTakeover b' x).stream b n = s.stream b n := rfl
@[simp] theorem State.stream_setBarrier (s : State) (i' : Nat) (x : Option Barrier) (b n : Nat) : (s.setBarrier i' x).stream b n = s.stream b n := rfl
@[simp] theorem State.stream_setMbx (s : State) (b' : Nat) (x : Option Mbx) (b n : Nat) : (s.setMbx b' x).stream b n = s.stream b n := rfl
@[simp] theorem State.stream_setSout (s : State) (b' n' : Nat) (x : SillOut) (b n : Nat) : (s.setSout b' n' x).stream b n = s.stream b n := rfl
@[simp] theorem State.stream_keep (s x : State) (b n : Nat) : (s.keep x).stream b n = x.stream b n := rfl
@[simp] theorem State.stream_keepMem (s x : State) (b n : Nat) : (s.keepMem x).stream b n = x.stream b n := rfl
@[simp] theorem State.stream_setReg (s : State) (oa : Nat) (ow : Word) (b n : Nat) : (s.setReg oa ow).stream b n = s.stream b n := by
  simp [State.stream]
@[simp] theorem State.stream_wr (s : State) (oa ov : Nat) (b n : Nat) : (s.wr oa ov).stream b n = s.stream b n := by
  simp [State.stream]
@[simp] theorem State.stream_setFld (s : State) (oa olo olen ov : Nat) (b n : Nat) : (s.setFld oa olo olen ov).stream b n = s.stream b n := by
  simp [State.stream]
@[simp] theorem State.stream_setBit (s : State) (oa oi : Nat) (oc : Bool) (b n : Nat) : (s.setBit oa oi oc).stream b n = s.stream b n := by
  simp [State.stream]
@[simp] theorem State.stream_count (s : State) (oa ov : Nat) (b n : Nat) : (s.count oa ov).stream b n = s.stream b n := by
  simp [State.stream]
@[simp] theorem State.stream_bump (s : State) (oa : Nat) (b n : Nat) : (s.bump oa).stream b n = s.stream b n := by
  simp [State.stream]
@[simp] theorem State.stream_wr80 (s : State) (oa ov : Nat) (b n : Nat) : (s.wr80 oa ov).stream b n = s.stream b n := by
  simp [State.stream]
@[simp] theorem State.stream_wr64 (s : State) (oa ov : Nat) (b n : Nat) : (s.wr64 oa ov).stream b n = s.stream b n := by
  simp [State.stream]
@[simp] theorem State.stream_latchHealth (s : State) (opg oc : Nat) (b n : Nat) : (s.latchHealth opg oc).stream b n = s.stream b n := by
  simp [State.stream]
@[simp] theorem State.stream_fire (s : State) (ov : Nat) (b n : Nat) : (s.fire ov).stream b n = s.stream b n := by
  simp [State.stream]
@[simp] theorem State.stream_raiseAt (s : State) (opg oi opt od : Nat) (of : Bool) (b n : Nat) : (s.raiseAt opg oi opt od of).stream b n = s.stream b n := by
  simp [State.stream]
@[simp] theorem State.stream_raise (s : State) (opg oi : Nat) (b n : Nat) : (s.raise opg oi).stream b n = s.stream b n := by
  simp [State.stream]
@[simp] theorem State.stream_standing (s : State) (opg oc : Nat) (oon : Bool) (b n : Nat) : (s.standing opg oc oon).stream b n = s.stream b n := by
  simp [State.stream]
@[simp] theorem State.stream_category (s : State) (oc og : Nat) (oon : Bool) (b n : Nat) : (s.category oc og oon).stream b n = s.stream b n := by
  simp [State.stream]
@[simp] theorem State.stream_settle (s : State)  (b n : Nat) : (s.settle ).stream b n = s.stream b n := by
  simp [State.stream]
@[simp] theorem State.stream_arrive (s : State) (t : PT) (b n : Nat) : (s.arrive t).stream b n = s.stream b n := by
  simp [State.stream]

/-! ### drainAt -/

@[simp] theorem State.drainAt_setDrain_same (s : State) (k : Nat) (x : Option Nat) : (s.setDrain k x).drainAt k = x := by
  simp [State.drainAt, State.setDrain]
theorem State.drainAt_setDrain_ne (s : State) (k k' : Nat) (x : Option Nat) (h : k' ≠ k) : (s.setDrain k x).drainAt k' = s.drainAt k' := by
  simp [State.drainAt, State.setDrain, mapGet_mapSet_ne _ _ _ h]
@[simp] theorem State.drainAt_setEdge (s : State) (b' ch' : Nat) (x : EdgeSt) (k : Nat) : (s.setEdge b' ch' x).drainAt k = s.drainAt k := rfl
@[simp] theorem State.drainAt_setQueue (s : State) (lane' : Nat) (x : List Peg) (k : Nat) : (s.setQueue lane' x).drainAt k = s.drainAt k := rfl
@[simp] theorem State.drainAt_setFlight (s : State) (lane' : Nat) (x : List Peg) (k : Nat) : (s.setFlight lane' x).drainAt k = s.drainAt k := rfl
@[simp] theorem State.drainAt_setSeq (s : State) (k' : Nat) (x : SeqSt) (k : Nat) : (s.setSeq k' x).drainAt k = s.drainAt k := rfl
@[simp] theorem State.drainAt_setTone (s : State) (lane' : Nat) (x : ToneSt) (k : Nat) : (s.setTone lane' x).drainAt k = s.drainAt k := rfl
@[simp] theorem State.drainAt_setCap (s : State) (b' i' : Nat) (x : CapSt) (k : Nat) : (s.setCap b' i' x).drainAt k = s.drainAt k := rfl
@[simp] theorem State.drainAt_setDma (s : State) (b' e' : Nat) (x : DmaSt) (k : Nat) : (s.setDma b' e' x).drainAt k = s.drainAt k := rfl
@[simp] theorem State.drainAt_setStream (s : State) (b' n' : Nat) (x : StreamSt) (k : Nat) : (s.setStream b' n' x).drainAt k = s.drainAt k := rfl
@[simp] theorem State.drainAt_setCal (s : State) (b' : Nat) (x : CalSt) (k : Nat) : (s.setCal b' x).drainAt k = s.drainAt k := rfl
@[simp] theorem State.drainAt_setInst (s : State) (b' item' inst' : Nat) (x : CalInst) (k : Nat) : (s.setInst b' item' inst' x).drainAt k = s.drainAt k := rfl
@[simp] theorem State.drainAt_setSill (s : State) (b' k' : Nat) (x : Sill) (k : Nat) : (s.setSill b' k' x).drainAt k = s.drainAt k := rfl
@[simp] theorem State.drainAt_setPort (s : State) (b' k' : Nat) (x : Port) (k : Nat) : (s.setPort b' k' x).drainAt k = s.drainAt k := rfl
@[simp] theorem State.drainAt_setTiu (s : State) (b' u' : Nat) (x : Tiu) (k : Nat) : (s.setTiu b' u' x).drainAt k = s.drainAt k := rfl
@[simp] theorem State.drainAt_setFre (s : State) (b' e' : Nat) (x : Fre) (k : Nat) : (s.setFre b' e' x).drainAt k = s.drainAt k := rfl
@[simp] theorem State.drainAt_setStampIn (s : State) (b' i' : Nat) (x : StampIn) (k : Nat) : (s.setStampIn b' i' x).drainAt k = s.drainAt k := rfl
@[simp] theorem State.drainAt_setMeter (s : State) (b' : Nat) (x : Meter) (k : Nat) : (s.setMeter b' x).drainAt k = s.drainAt k := rfl
@[simp] theorem State.drainAt_setTakeover (s : State) (b' : Nat) (x : Option (Nat × Bool)) (k : Nat) : (s.setTakeover b' x).drainAt k = s.drainAt k := rfl
@[simp] theorem State.drainAt_setBarrier (s : State) (i' : Nat) (x : Option Barrier) (k : Nat) : (s.setBarrier i' x).drainAt k = s.drainAt k := rfl
@[simp] theorem State.drainAt_setMbx (s : State) (b' : Nat) (x : Option Mbx) (k : Nat) : (s.setMbx b' x).drainAt k = s.drainAt k := rfl
@[simp] theorem State.drainAt_setSout (s : State) (b' n' : Nat) (x : SillOut) (k : Nat) : (s.setSout b' n' x).drainAt k = s.drainAt k := rfl
@[simp] theorem State.drainAt_keep (s x : State) (k : Nat) : (s.keep x).drainAt k = x.drainAt k := rfl
@[simp] theorem State.drainAt_keepMem (s x : State) (k : Nat) : (s.keepMem x).drainAt k = x.drainAt k := rfl
@[simp] theorem State.drainAt_setReg (s : State) (oa : Nat) (ow : Word) (k : Nat) : (s.setReg oa ow).drainAt k = s.drainAt k := by
  simp [State.drainAt]
@[simp] theorem State.drainAt_wr (s : State) (oa ov : Nat) (k : Nat) : (s.wr oa ov).drainAt k = s.drainAt k := by
  simp [State.drainAt]
@[simp] theorem State.drainAt_setFld (s : State) (oa olo olen ov : Nat) (k : Nat) : (s.setFld oa olo olen ov).drainAt k = s.drainAt k := by
  simp [State.drainAt]
@[simp] theorem State.drainAt_setBit (s : State) (oa oi : Nat) (oc : Bool) (k : Nat) : (s.setBit oa oi oc).drainAt k = s.drainAt k := by
  simp [State.drainAt]
@[simp] theorem State.drainAt_count (s : State) (oa ov : Nat) (k : Nat) : (s.count oa ov).drainAt k = s.drainAt k := by
  simp [State.drainAt]
@[simp] theorem State.drainAt_bump (s : State) (oa : Nat) (k : Nat) : (s.bump oa).drainAt k = s.drainAt k := by
  simp [State.drainAt]
@[simp] theorem State.drainAt_wr80 (s : State) (oa ov : Nat) (k : Nat) : (s.wr80 oa ov).drainAt k = s.drainAt k := by
  simp [State.drainAt]
@[simp] theorem State.drainAt_wr64 (s : State) (oa ov : Nat) (k : Nat) : (s.wr64 oa ov).drainAt k = s.drainAt k := by
  simp [State.drainAt]
@[simp] theorem State.drainAt_latchHealth (s : State) (opg oc : Nat) (k : Nat) : (s.latchHealth opg oc).drainAt k = s.drainAt k := by
  simp [State.drainAt]
@[simp] theorem State.drainAt_fire (s : State) (ov : Nat) (k : Nat) : (s.fire ov).drainAt k = s.drainAt k := by
  simp [State.drainAt]
@[simp] theorem State.drainAt_raiseAt (s : State) (opg oi opt od : Nat) (of : Bool) (k : Nat) : (s.raiseAt opg oi opt od of).drainAt k = s.drainAt k := by
  simp [State.drainAt]
@[simp] theorem State.drainAt_raise (s : State) (opg oi : Nat) (k : Nat) : (s.raise opg oi).drainAt k = s.drainAt k := by
  simp [State.drainAt]
@[simp] theorem State.drainAt_standing (s : State) (opg oc : Nat) (oon : Bool) (k : Nat) : (s.standing opg oc oon).drainAt k = s.drainAt k := by
  simp [State.drainAt]
@[simp] theorem State.drainAt_category (s : State) (oc og : Nat) (oon : Bool) (k : Nat) : (s.category oc og oon).drainAt k = s.drainAt k := by
  simp [State.drainAt]
@[simp] theorem State.drainAt_settle (s : State)  (k : Nat) : (s.settle ).drainAt k = s.drainAt k := by
  simp [State.drainAt]
@[simp] theorem State.drainAt_arrive (s : State) (t : PT) (k : Nat) : (s.arrive t).drainAt k = s.drainAt k := by
  simp [State.drainAt]

/-! ### cal -/

@[simp] theorem State.cal_setCal_same (s : State) (b : Nat) (x : CalSt) : (s.setCal b x).cal b = x := by
  simp [State.cal, State.setCal]
theorem State.cal_setCal_ne (s : State) (b b' : Nat) (x : CalSt) (h : b' ≠ b) : (s.setCal b x).cal b' = s.cal b' := by
  simp [State.cal, State.setCal, mapGet_mapSet_ne _ _ _ h]
@[simp] theorem State.cal_setEdge (s : State) (b' ch' : Nat) (x : EdgeSt) (b : Nat) : (s.setEdge b' ch' x).cal b = s.cal b := rfl
@[simp] theorem State.cal_setQueue (s : State) (lane' : Nat) (x : List Peg) (b : Nat) : (s.setQueue lane' x).cal b = s.cal b := rfl
@[simp] theorem State.cal_setFlight (s : State) (lane' : Nat) (x : List Peg) (b : Nat) : (s.setFlight lane' x).cal b = s.cal b := rfl
@[simp] theorem State.cal_setSeq (s : State) (k' : Nat) (x : SeqSt) (b : Nat) : (s.setSeq k' x).cal b = s.cal b := rfl
@[simp] theorem State.cal_setTone (s : State) (lane' : Nat) (x : ToneSt) (b : Nat) : (s.setTone lane' x).cal b = s.cal b := rfl
@[simp] theorem State.cal_setCap (s : State) (b' i' : Nat) (x : CapSt) (b : Nat) : (s.setCap b' i' x).cal b = s.cal b := rfl
@[simp] theorem State.cal_setDma (s : State) (b' e' : Nat) (x : DmaSt) (b : Nat) : (s.setDma b' e' x).cal b = s.cal b := rfl
@[simp] theorem State.cal_setStream (s : State) (b' n' : Nat) (x : StreamSt) (b : Nat) : (s.setStream b' n' x).cal b = s.cal b := rfl
@[simp] theorem State.cal_setDrain (s : State) (k' : Nat) (x : Option Nat) (b : Nat) : (s.setDrain k' x).cal b = s.cal b := rfl
@[simp] theorem State.cal_setInst (s : State) (b' item' inst' : Nat) (x : CalInst) (b : Nat) : (s.setInst b' item' inst' x).cal b = s.cal b := rfl
@[simp] theorem State.cal_setSill (s : State) (b' k' : Nat) (x : Sill) (b : Nat) : (s.setSill b' k' x).cal b = s.cal b := rfl
@[simp] theorem State.cal_setPort (s : State) (b' k' : Nat) (x : Port) (b : Nat) : (s.setPort b' k' x).cal b = s.cal b := rfl
@[simp] theorem State.cal_setTiu (s : State) (b' u' : Nat) (x : Tiu) (b : Nat) : (s.setTiu b' u' x).cal b = s.cal b := rfl
@[simp] theorem State.cal_setFre (s : State) (b' e' : Nat) (x : Fre) (b : Nat) : (s.setFre b' e' x).cal b = s.cal b := rfl
@[simp] theorem State.cal_setStampIn (s : State) (b' i' : Nat) (x : StampIn) (b : Nat) : (s.setStampIn b' i' x).cal b = s.cal b := rfl
@[simp] theorem State.cal_setMeter (s : State) (b' : Nat) (x : Meter) (b : Nat) : (s.setMeter b' x).cal b = s.cal b := rfl
@[simp] theorem State.cal_setTakeover (s : State) (b' : Nat) (x : Option (Nat × Bool)) (b : Nat) : (s.setTakeover b' x).cal b = s.cal b := rfl
@[simp] theorem State.cal_setBarrier (s : State) (i' : Nat) (x : Option Barrier) (b : Nat) : (s.setBarrier i' x).cal b = s.cal b := rfl
@[simp] theorem State.cal_setMbx (s : State) (b' : Nat) (x : Option Mbx) (b : Nat) : (s.setMbx b' x).cal b = s.cal b := rfl
@[simp] theorem State.cal_setSout (s : State) (b' n' : Nat) (x : SillOut) (b : Nat) : (s.setSout b' n' x).cal b = s.cal b := rfl
@[simp] theorem State.cal_keep (s x : State) (b : Nat) : (s.keep x).cal b = x.cal b := rfl
@[simp] theorem State.cal_keepMem (s x : State) (b : Nat) : (s.keepMem x).cal b = x.cal b := rfl
@[simp] theorem State.cal_setReg (s : State) (oa : Nat) (ow : Word) (b : Nat) : (s.setReg oa ow).cal b = s.cal b := by
  simp [State.cal]
@[simp] theorem State.cal_wr (s : State) (oa ov : Nat) (b : Nat) : (s.wr oa ov).cal b = s.cal b := by
  simp [State.cal]
@[simp] theorem State.cal_setFld (s : State) (oa olo olen ov : Nat) (b : Nat) : (s.setFld oa olo olen ov).cal b = s.cal b := by
  simp [State.cal]
@[simp] theorem State.cal_setBit (s : State) (oa oi : Nat) (oc : Bool) (b : Nat) : (s.setBit oa oi oc).cal b = s.cal b := by
  simp [State.cal]
@[simp] theorem State.cal_count (s : State) (oa ov : Nat) (b : Nat) : (s.count oa ov).cal b = s.cal b := by
  simp [State.cal]
@[simp] theorem State.cal_bump (s : State) (oa : Nat) (b : Nat) : (s.bump oa).cal b = s.cal b := by
  simp [State.cal]
@[simp] theorem State.cal_wr80 (s : State) (oa ov : Nat) (b : Nat) : (s.wr80 oa ov).cal b = s.cal b := by
  simp [State.cal]
@[simp] theorem State.cal_wr64 (s : State) (oa ov : Nat) (b : Nat) : (s.wr64 oa ov).cal b = s.cal b := by
  simp [State.cal]
@[simp] theorem State.cal_latchHealth (s : State) (opg oc : Nat) (b : Nat) : (s.latchHealth opg oc).cal b = s.cal b := by
  simp [State.cal]
@[simp] theorem State.cal_fire (s : State) (ov : Nat) (b : Nat) : (s.fire ov).cal b = s.cal b := by
  simp [State.cal]
@[simp] theorem State.cal_raiseAt (s : State) (opg oi opt od : Nat) (of : Bool) (b : Nat) : (s.raiseAt opg oi opt od of).cal b = s.cal b := by
  simp [State.cal]
@[simp] theorem State.cal_raise (s : State) (opg oi : Nat) (b : Nat) : (s.raise opg oi).cal b = s.cal b := by
  simp [State.cal]
@[simp] theorem State.cal_standing (s : State) (opg oc : Nat) (oon : Bool) (b : Nat) : (s.standing opg oc oon).cal b = s.cal b := by
  simp [State.cal]
@[simp] theorem State.cal_category (s : State) (oc og : Nat) (oon : Bool) (b : Nat) : (s.category oc og oon).cal b = s.cal b := by
  simp [State.cal]
@[simp] theorem State.cal_settle (s : State)  (b : Nat) : (s.settle ).cal b = s.cal b := by
  simp [State.cal]
@[simp] theorem State.cal_arrive (s : State) (t : PT) (b : Nat) : (s.arrive t).cal b = s.cal b := by
  simp [State.cal]

/-! ### calInst -/

@[simp] theorem State.calInst_setInst_same (s : State) (b item inst : Nat) (x : CalInst) : (s.setInst b item inst x).calInst b item inst = x := by
  simp [State.calInst, State.setInst]
theorem State.calInst_setInst_ne (s : State) (b item inst b' item' inst' : Nat) (x : CalInst) (h : b' * 65536 + instKey item' inst' ≠ b * 65536 + instKey item inst) : (s.setInst b item inst x).calInst b' item' inst' = s.calInst b' item' inst' := by
  simp [State.calInst, State.setInst, mapGet_mapSet_ne _ _ _ h]
@[simp] theorem State.calInst_setEdge (s : State) (b' ch' : Nat) (x : EdgeSt) (b item inst : Nat) : (s.setEdge b' ch' x).calInst b item inst = s.calInst b item inst := rfl
@[simp] theorem State.calInst_setQueue (s : State) (lane' : Nat) (x : List Peg) (b item inst : Nat) : (s.setQueue lane' x).calInst b item inst = s.calInst b item inst := rfl
@[simp] theorem State.calInst_setFlight (s : State) (lane' : Nat) (x : List Peg) (b item inst : Nat) : (s.setFlight lane' x).calInst b item inst = s.calInst b item inst := rfl
@[simp] theorem State.calInst_setSeq (s : State) (k' : Nat) (x : SeqSt) (b item inst : Nat) : (s.setSeq k' x).calInst b item inst = s.calInst b item inst := rfl
@[simp] theorem State.calInst_setTone (s : State) (lane' : Nat) (x : ToneSt) (b item inst : Nat) : (s.setTone lane' x).calInst b item inst = s.calInst b item inst := rfl
@[simp] theorem State.calInst_setCap (s : State) (b' i' : Nat) (x : CapSt) (b item inst : Nat) : (s.setCap b' i' x).calInst b item inst = s.calInst b item inst := rfl
@[simp] theorem State.calInst_setDma (s : State) (b' e' : Nat) (x : DmaSt) (b item inst : Nat) : (s.setDma b' e' x).calInst b item inst = s.calInst b item inst := rfl
@[simp] theorem State.calInst_setStream (s : State) (b' n' : Nat) (x : StreamSt) (b item inst : Nat) : (s.setStream b' n' x).calInst b item inst = s.calInst b item inst := rfl
@[simp] theorem State.calInst_setDrain (s : State) (k' : Nat) (x : Option Nat) (b item inst : Nat) : (s.setDrain k' x).calInst b item inst = s.calInst b item inst := rfl
@[simp] theorem State.calInst_setCal (s : State) (b' : Nat) (x : CalSt) (b item inst : Nat) : (s.setCal b' x).calInst b item inst = s.calInst b item inst := rfl
@[simp] theorem State.calInst_setSill (s : State) (b' k' : Nat) (x : Sill) (b item inst : Nat) : (s.setSill b' k' x).calInst b item inst = s.calInst b item inst := rfl
@[simp] theorem State.calInst_setPort (s : State) (b' k' : Nat) (x : Port) (b item inst : Nat) : (s.setPort b' k' x).calInst b item inst = s.calInst b item inst := rfl
@[simp] theorem State.calInst_setTiu (s : State) (b' u' : Nat) (x : Tiu) (b item inst : Nat) : (s.setTiu b' u' x).calInst b item inst = s.calInst b item inst := rfl
@[simp] theorem State.calInst_setFre (s : State) (b' e' : Nat) (x : Fre) (b item inst : Nat) : (s.setFre b' e' x).calInst b item inst = s.calInst b item inst := rfl
@[simp] theorem State.calInst_setStampIn (s : State) (b' i' : Nat) (x : StampIn) (b item inst : Nat) : (s.setStampIn b' i' x).calInst b item inst = s.calInst b item inst := rfl
@[simp] theorem State.calInst_setMeter (s : State) (b' : Nat) (x : Meter) (b item inst : Nat) : (s.setMeter b' x).calInst b item inst = s.calInst b item inst := rfl
@[simp] theorem State.calInst_setTakeover (s : State) (b' : Nat) (x : Option (Nat × Bool)) (b item inst : Nat) : (s.setTakeover b' x).calInst b item inst = s.calInst b item inst := rfl
@[simp] theorem State.calInst_setBarrier (s : State) (i' : Nat) (x : Option Barrier) (b item inst : Nat) : (s.setBarrier i' x).calInst b item inst = s.calInst b item inst := rfl
@[simp] theorem State.calInst_setMbx (s : State) (b' : Nat) (x : Option Mbx) (b item inst : Nat) : (s.setMbx b' x).calInst b item inst = s.calInst b item inst := rfl
@[simp] theorem State.calInst_setSout (s : State) (b' n' : Nat) (x : SillOut) (b item inst : Nat) : (s.setSout b' n' x).calInst b item inst = s.calInst b item inst := rfl
@[simp] theorem State.calInst_keep (s x : State) (b item inst : Nat) : (s.keep x).calInst b item inst = x.calInst b item inst := rfl
@[simp] theorem State.calInst_keepMem (s x : State) (b item inst : Nat) : (s.keepMem x).calInst b item inst = x.calInst b item inst := rfl
@[simp] theorem State.calInst_setReg (s : State) (oa : Nat) (ow : Word) (b item inst : Nat) : (s.setReg oa ow).calInst b item inst = s.calInst b item inst := by
  simp [State.calInst]
@[simp] theorem State.calInst_wr (s : State) (oa ov : Nat) (b item inst : Nat) : (s.wr oa ov).calInst b item inst = s.calInst b item inst := by
  simp [State.calInst]
@[simp] theorem State.calInst_setFld (s : State) (oa olo olen ov : Nat) (b item inst : Nat) : (s.setFld oa olo olen ov).calInst b item inst = s.calInst b item inst := by
  simp [State.calInst]
@[simp] theorem State.calInst_setBit (s : State) (oa oi : Nat) (oc : Bool) (b item inst : Nat) : (s.setBit oa oi oc).calInst b item inst = s.calInst b item inst := by
  simp [State.calInst]
@[simp] theorem State.calInst_count (s : State) (oa ov : Nat) (b item inst : Nat) : (s.count oa ov).calInst b item inst = s.calInst b item inst := by
  simp [State.calInst]
@[simp] theorem State.calInst_bump (s : State) (oa : Nat) (b item inst : Nat) : (s.bump oa).calInst b item inst = s.calInst b item inst := by
  simp [State.calInst]
@[simp] theorem State.calInst_wr80 (s : State) (oa ov : Nat) (b item inst : Nat) : (s.wr80 oa ov).calInst b item inst = s.calInst b item inst := by
  simp [State.calInst]
@[simp] theorem State.calInst_wr64 (s : State) (oa ov : Nat) (b item inst : Nat) : (s.wr64 oa ov).calInst b item inst = s.calInst b item inst := by
  simp [State.calInst]
@[simp] theorem State.calInst_latchHealth (s : State) (opg oc : Nat) (b item inst : Nat) : (s.latchHealth opg oc).calInst b item inst = s.calInst b item inst := by
  simp [State.calInst]
@[simp] theorem State.calInst_fire (s : State) (ov : Nat) (b item inst : Nat) : (s.fire ov).calInst b item inst = s.calInst b item inst := by
  simp [State.calInst]
@[simp] theorem State.calInst_raiseAt (s : State) (opg oi opt od : Nat) (of : Bool) (b item inst : Nat) : (s.raiseAt opg oi opt od of).calInst b item inst = s.calInst b item inst := by
  simp [State.calInst]
@[simp] theorem State.calInst_raise (s : State) (opg oi : Nat) (b item inst : Nat) : (s.raise opg oi).calInst b item inst = s.calInst b item inst := by
  simp [State.calInst]
@[simp] theorem State.calInst_standing (s : State) (opg oc : Nat) (oon : Bool) (b item inst : Nat) : (s.standing opg oc oon).calInst b item inst = s.calInst b item inst := by
  simp [State.calInst]
@[simp] theorem State.calInst_category (s : State) (oc og : Nat) (oon : Bool) (b item inst : Nat) : (s.category oc og oon).calInst b item inst = s.calInst b item inst := by
  simp [State.calInst]
@[simp] theorem State.calInst_settle (s : State)  (b item inst : Nat) : (s.settle ).calInst b item inst = s.calInst b item inst := by
  simp [State.calInst]
@[simp] theorem State.calInst_arrive (s : State) (t : PT) (b item inst : Nat) : (s.arrive t).calInst b item inst = s.calInst b item inst := by
  simp [State.calInst]

/-! ### sill -/

@[simp] theorem State.sill_setSill_same (s : State) (b k : Nat) (x : Sill) : (s.setSill b k x).sill b k = x := by
  simp [State.sill, State.setSill]
theorem State.sill_setSill_ne (s : State) (b k b' k' : Nat) (x : Sill) (h : b' * 2 + k' ≠ b * 2 + k) : (s.setSill b k x).sill b' k' = s.sill b' k' := by
  simp [State.sill, State.setSill, mapGet_mapSet_ne _ _ _ h]
@[simp] theorem State.sill_setEdge (s : State) (b' ch' : Nat) (x : EdgeSt) (b k : Nat) : (s.setEdge b' ch' x).sill b k = s.sill b k := rfl
@[simp] theorem State.sill_setQueue (s : State) (lane' : Nat) (x : List Peg) (b k : Nat) : (s.setQueue lane' x).sill b k = s.sill b k := rfl
@[simp] theorem State.sill_setFlight (s : State) (lane' : Nat) (x : List Peg) (b k : Nat) : (s.setFlight lane' x).sill b k = s.sill b k := rfl
@[simp] theorem State.sill_setSeq (s : State) (k' : Nat) (x : SeqSt) (b k : Nat) : (s.setSeq k' x).sill b k = s.sill b k := rfl
@[simp] theorem State.sill_setTone (s : State) (lane' : Nat) (x : ToneSt) (b k : Nat) : (s.setTone lane' x).sill b k = s.sill b k := rfl
@[simp] theorem State.sill_setCap (s : State) (b' i' : Nat) (x : CapSt) (b k : Nat) : (s.setCap b' i' x).sill b k = s.sill b k := rfl
@[simp] theorem State.sill_setDma (s : State) (b' e' : Nat) (x : DmaSt) (b k : Nat) : (s.setDma b' e' x).sill b k = s.sill b k := rfl
@[simp] theorem State.sill_setStream (s : State) (b' n' : Nat) (x : StreamSt) (b k : Nat) : (s.setStream b' n' x).sill b k = s.sill b k := rfl
@[simp] theorem State.sill_setDrain (s : State) (k' : Nat) (x : Option Nat) (b k : Nat) : (s.setDrain k' x).sill b k = s.sill b k := rfl
@[simp] theorem State.sill_setCal (s : State) (b' : Nat) (x : CalSt) (b k : Nat) : (s.setCal b' x).sill b k = s.sill b k := rfl
@[simp] theorem State.sill_setInst (s : State) (b' item' inst' : Nat) (x : CalInst) (b k : Nat) : (s.setInst b' item' inst' x).sill b k = s.sill b k := rfl
@[simp] theorem State.sill_setPort (s : State) (b' k' : Nat) (x : Port) (b k : Nat) : (s.setPort b' k' x).sill b k = s.sill b k := rfl
@[simp] theorem State.sill_setTiu (s : State) (b' u' : Nat) (x : Tiu) (b k : Nat) : (s.setTiu b' u' x).sill b k = s.sill b k := rfl
@[simp] theorem State.sill_setFre (s : State) (b' e' : Nat) (x : Fre) (b k : Nat) : (s.setFre b' e' x).sill b k = s.sill b k := rfl
@[simp] theorem State.sill_setStampIn (s : State) (b' i' : Nat) (x : StampIn) (b k : Nat) : (s.setStampIn b' i' x).sill b k = s.sill b k := rfl
@[simp] theorem State.sill_setMeter (s : State) (b' : Nat) (x : Meter) (b k : Nat) : (s.setMeter b' x).sill b k = s.sill b k := rfl
@[simp] theorem State.sill_setTakeover (s : State) (b' : Nat) (x : Option (Nat × Bool)) (b k : Nat) : (s.setTakeover b' x).sill b k = s.sill b k := rfl
@[simp] theorem State.sill_setBarrier (s : State) (i' : Nat) (x : Option Barrier) (b k : Nat) : (s.setBarrier i' x).sill b k = s.sill b k := rfl
@[simp] theorem State.sill_setMbx (s : State) (b' : Nat) (x : Option Mbx) (b k : Nat) : (s.setMbx b' x).sill b k = s.sill b k := rfl
@[simp] theorem State.sill_setSout (s : State) (b' n' : Nat) (x : SillOut) (b k : Nat) : (s.setSout b' n' x).sill b k = s.sill b k := rfl
@[simp] theorem State.sill_keep (s x : State) (b k : Nat) : (s.keep x).sill b k = x.sill b k := rfl
@[simp] theorem State.sill_keepMem (s x : State) (b k : Nat) : (s.keepMem x).sill b k = x.sill b k := rfl
@[simp] theorem State.sill_setReg (s : State) (oa : Nat) (ow : Word) (b k : Nat) : (s.setReg oa ow).sill b k = s.sill b k := by
  simp [State.sill]
@[simp] theorem State.sill_wr (s : State) (oa ov : Nat) (b k : Nat) : (s.wr oa ov).sill b k = s.sill b k := by
  simp [State.sill]
@[simp] theorem State.sill_setFld (s : State) (oa olo olen ov : Nat) (b k : Nat) : (s.setFld oa olo olen ov).sill b k = s.sill b k := by
  simp [State.sill]
@[simp] theorem State.sill_setBit (s : State) (oa oi : Nat) (oc : Bool) (b k : Nat) : (s.setBit oa oi oc).sill b k = s.sill b k := by
  simp [State.sill]
@[simp] theorem State.sill_count (s : State) (oa ov : Nat) (b k : Nat) : (s.count oa ov).sill b k = s.sill b k := by
  simp [State.sill]
@[simp] theorem State.sill_bump (s : State) (oa : Nat) (b k : Nat) : (s.bump oa).sill b k = s.sill b k := by
  simp [State.sill]
@[simp] theorem State.sill_wr80 (s : State) (oa ov : Nat) (b k : Nat) : (s.wr80 oa ov).sill b k = s.sill b k := by
  simp [State.sill]
@[simp] theorem State.sill_wr64 (s : State) (oa ov : Nat) (b k : Nat) : (s.wr64 oa ov).sill b k = s.sill b k := by
  simp [State.sill]
@[simp] theorem State.sill_latchHealth (s : State) (opg oc : Nat) (b k : Nat) : (s.latchHealth opg oc).sill b k = s.sill b k := by
  simp [State.sill]
@[simp] theorem State.sill_fire (s : State) (ov : Nat) (b k : Nat) : (s.fire ov).sill b k = s.sill b k := by
  simp [State.sill]
@[simp] theorem State.sill_raiseAt (s : State) (opg oi opt od : Nat) (of : Bool) (b k : Nat) : (s.raiseAt opg oi opt od of).sill b k = s.sill b k := by
  simp [State.sill]
@[simp] theorem State.sill_raise (s : State) (opg oi : Nat) (b k : Nat) : (s.raise opg oi).sill b k = s.sill b k := by
  simp [State.sill]
@[simp] theorem State.sill_standing (s : State) (opg oc : Nat) (oon : Bool) (b k : Nat) : (s.standing opg oc oon).sill b k = s.sill b k := by
  simp [State.sill]
@[simp] theorem State.sill_category (s : State) (oc og : Nat) (oon : Bool) (b k : Nat) : (s.category oc og oon).sill b k = s.sill b k := by
  simp [State.sill]
@[simp] theorem State.sill_settle (s : State)  (b k : Nat) : (s.settle ).sill b k = s.sill b k := by
  simp [State.sill]
@[simp] theorem State.sill_arrive (s : State) (t : PT) (b k : Nat) : (s.arrive t).sill b k = s.sill b k := by
  simp [State.sill]

/-! ### port -/

@[simp] theorem State.port_setPort_same (s : State) (b k : Nat) (x : Port) : (s.setPort b k x).port b k = x := by
  simp [State.port, State.setPort]
theorem State.port_setPort_ne (s : State) (b k b' k' : Nat) (x : Port) (h : b' * 2 + k' ≠ b * 2 + k) : (s.setPort b k x).port b' k' = s.port b' k' := by
  simp [State.port, State.setPort, mapGet_mapSet_ne _ _ _ h]
@[simp] theorem State.port_setEdge (s : State) (b' ch' : Nat) (x : EdgeSt) (b k : Nat) : (s.setEdge b' ch' x).port b k = s.port b k := rfl
@[simp] theorem State.port_setQueue (s : State) (lane' : Nat) (x : List Peg) (b k : Nat) : (s.setQueue lane' x).port b k = s.port b k := rfl
@[simp] theorem State.port_setFlight (s : State) (lane' : Nat) (x : List Peg) (b k : Nat) : (s.setFlight lane' x).port b k = s.port b k := rfl
@[simp] theorem State.port_setSeq (s : State) (k' : Nat) (x : SeqSt) (b k : Nat) : (s.setSeq k' x).port b k = s.port b k := rfl
@[simp] theorem State.port_setTone (s : State) (lane' : Nat) (x : ToneSt) (b k : Nat) : (s.setTone lane' x).port b k = s.port b k := rfl
@[simp] theorem State.port_setCap (s : State) (b' i' : Nat) (x : CapSt) (b k : Nat) : (s.setCap b' i' x).port b k = s.port b k := rfl
@[simp] theorem State.port_setDma (s : State) (b' e' : Nat) (x : DmaSt) (b k : Nat) : (s.setDma b' e' x).port b k = s.port b k := rfl
@[simp] theorem State.port_setStream (s : State) (b' n' : Nat) (x : StreamSt) (b k : Nat) : (s.setStream b' n' x).port b k = s.port b k := rfl
@[simp] theorem State.port_setDrain (s : State) (k' : Nat) (x : Option Nat) (b k : Nat) : (s.setDrain k' x).port b k = s.port b k := rfl
@[simp] theorem State.port_setCal (s : State) (b' : Nat) (x : CalSt) (b k : Nat) : (s.setCal b' x).port b k = s.port b k := rfl
@[simp] theorem State.port_setInst (s : State) (b' item' inst' : Nat) (x : CalInst) (b k : Nat) : (s.setInst b' item' inst' x).port b k = s.port b k := rfl
@[simp] theorem State.port_setSill (s : State) (b' k' : Nat) (x : Sill) (b k : Nat) : (s.setSill b' k' x).port b k = s.port b k := rfl
@[simp] theorem State.port_setTiu (s : State) (b' u' : Nat) (x : Tiu) (b k : Nat) : (s.setTiu b' u' x).port b k = s.port b k := rfl
@[simp] theorem State.port_setFre (s : State) (b' e' : Nat) (x : Fre) (b k : Nat) : (s.setFre b' e' x).port b k = s.port b k := rfl
@[simp] theorem State.port_setStampIn (s : State) (b' i' : Nat) (x : StampIn) (b k : Nat) : (s.setStampIn b' i' x).port b k = s.port b k := rfl
@[simp] theorem State.port_setMeter (s : State) (b' : Nat) (x : Meter) (b k : Nat) : (s.setMeter b' x).port b k = s.port b k := rfl
@[simp] theorem State.port_setTakeover (s : State) (b' : Nat) (x : Option (Nat × Bool)) (b k : Nat) : (s.setTakeover b' x).port b k = s.port b k := rfl
@[simp] theorem State.port_setBarrier (s : State) (i' : Nat) (x : Option Barrier) (b k : Nat) : (s.setBarrier i' x).port b k = s.port b k := rfl
@[simp] theorem State.port_setMbx (s : State) (b' : Nat) (x : Option Mbx) (b k : Nat) : (s.setMbx b' x).port b k = s.port b k := rfl
@[simp] theorem State.port_setSout (s : State) (b' n' : Nat) (x : SillOut) (b k : Nat) : (s.setSout b' n' x).port b k = s.port b k := rfl
@[simp] theorem State.port_keep (s x : State) (b k : Nat) : (s.keep x).port b k = x.port b k := rfl
@[simp] theorem State.port_keepMem (s x : State) (b k : Nat) : (s.keepMem x).port b k = x.port b k := rfl
@[simp] theorem State.port_setReg (s : State) (oa : Nat) (ow : Word) (b k : Nat) : (s.setReg oa ow).port b k = s.port b k := by
  simp [State.port]
@[simp] theorem State.port_wr (s : State) (oa ov : Nat) (b k : Nat) : (s.wr oa ov).port b k = s.port b k := by
  simp [State.port]
@[simp] theorem State.port_setFld (s : State) (oa olo olen ov : Nat) (b k : Nat) : (s.setFld oa olo olen ov).port b k = s.port b k := by
  simp [State.port]
@[simp] theorem State.port_setBit (s : State) (oa oi : Nat) (oc : Bool) (b k : Nat) : (s.setBit oa oi oc).port b k = s.port b k := by
  simp [State.port]
@[simp] theorem State.port_count (s : State) (oa ov : Nat) (b k : Nat) : (s.count oa ov).port b k = s.port b k := by
  simp [State.port]
@[simp] theorem State.port_bump (s : State) (oa : Nat) (b k : Nat) : (s.bump oa).port b k = s.port b k := by
  simp [State.port]
@[simp] theorem State.port_wr80 (s : State) (oa ov : Nat) (b k : Nat) : (s.wr80 oa ov).port b k = s.port b k := by
  simp [State.port]
@[simp] theorem State.port_wr64 (s : State) (oa ov : Nat) (b k : Nat) : (s.wr64 oa ov).port b k = s.port b k := by
  simp [State.port]
@[simp] theorem State.port_latchHealth (s : State) (opg oc : Nat) (b k : Nat) : (s.latchHealth opg oc).port b k = s.port b k := by
  simp [State.port]
@[simp] theorem State.port_fire (s : State) (ov : Nat) (b k : Nat) : (s.fire ov).port b k = s.port b k := by
  simp [State.port]
@[simp] theorem State.port_raiseAt (s : State) (opg oi opt od : Nat) (of : Bool) (b k : Nat) : (s.raiseAt opg oi opt od of).port b k = s.port b k := by
  simp [State.port]
@[simp] theorem State.port_raise (s : State) (opg oi : Nat) (b k : Nat) : (s.raise opg oi).port b k = s.port b k := by
  simp [State.port]
@[simp] theorem State.port_standing (s : State) (opg oc : Nat) (oon : Bool) (b k : Nat) : (s.standing opg oc oon).port b k = s.port b k := by
  simp [State.port]
@[simp] theorem State.port_category (s : State) (oc og : Nat) (oon : Bool) (b k : Nat) : (s.category oc og oon).port b k = s.port b k := by
  simp [State.port]
@[simp] theorem State.port_settle (s : State)  (b k : Nat) : (s.settle ).port b k = s.port b k := by
  simp [State.port]
@[simp] theorem State.port_arrive (s : State) (t : PT) (b k : Nat) : (s.arrive t).port b k = s.port b k := by
  simp [State.port]

/-! ### tiu -/

@[simp] theorem State.tiu_setTiu_same (s : State) (b u : Nat) (x : Tiu) : (s.setTiu b u x).tiu b u = x := by
  simp [State.tiu, State.setTiu]
theorem State.tiu_setTiu_ne (s : State) (b u b' u' : Nat) (x : Tiu) (h : b' * 4 + u' ≠ b * 4 + u) : (s.setTiu b u x).tiu b' u' = s.tiu b' u' := by
  simp [State.tiu, State.setTiu, mapGet_mapSet_ne _ _ _ h]
@[simp] theorem State.tiu_setEdge (s : State) (b' ch' : Nat) (x : EdgeSt) (b u : Nat) : (s.setEdge b' ch' x).tiu b u = s.tiu b u := rfl
@[simp] theorem State.tiu_setQueue (s : State) (lane' : Nat) (x : List Peg) (b u : Nat) : (s.setQueue lane' x).tiu b u = s.tiu b u := rfl
@[simp] theorem State.tiu_setFlight (s : State) (lane' : Nat) (x : List Peg) (b u : Nat) : (s.setFlight lane' x).tiu b u = s.tiu b u := rfl
@[simp] theorem State.tiu_setSeq (s : State) (k' : Nat) (x : SeqSt) (b u : Nat) : (s.setSeq k' x).tiu b u = s.tiu b u := rfl
@[simp] theorem State.tiu_setTone (s : State) (lane' : Nat) (x : ToneSt) (b u : Nat) : (s.setTone lane' x).tiu b u = s.tiu b u := rfl
@[simp] theorem State.tiu_setCap (s : State) (b' i' : Nat) (x : CapSt) (b u : Nat) : (s.setCap b' i' x).tiu b u = s.tiu b u := rfl
@[simp] theorem State.tiu_setDma (s : State) (b' e' : Nat) (x : DmaSt) (b u : Nat) : (s.setDma b' e' x).tiu b u = s.tiu b u := rfl
@[simp] theorem State.tiu_setStream (s : State) (b' n' : Nat) (x : StreamSt) (b u : Nat) : (s.setStream b' n' x).tiu b u = s.tiu b u := rfl
@[simp] theorem State.tiu_setDrain (s : State) (k' : Nat) (x : Option Nat) (b u : Nat) : (s.setDrain k' x).tiu b u = s.tiu b u := rfl
@[simp] theorem State.tiu_setCal (s : State) (b' : Nat) (x : CalSt) (b u : Nat) : (s.setCal b' x).tiu b u = s.tiu b u := rfl
@[simp] theorem State.tiu_setInst (s : State) (b' item' inst' : Nat) (x : CalInst) (b u : Nat) : (s.setInst b' item' inst' x).tiu b u = s.tiu b u := rfl
@[simp] theorem State.tiu_setSill (s : State) (b' k' : Nat) (x : Sill) (b u : Nat) : (s.setSill b' k' x).tiu b u = s.tiu b u := rfl
@[simp] theorem State.tiu_setPort (s : State) (b' k' : Nat) (x : Port) (b u : Nat) : (s.setPort b' k' x).tiu b u = s.tiu b u := rfl
@[simp] theorem State.tiu_setFre (s : State) (b' e' : Nat) (x : Fre) (b u : Nat) : (s.setFre b' e' x).tiu b u = s.tiu b u := rfl
@[simp] theorem State.tiu_setStampIn (s : State) (b' i' : Nat) (x : StampIn) (b u : Nat) : (s.setStampIn b' i' x).tiu b u = s.tiu b u := rfl
@[simp] theorem State.tiu_setMeter (s : State) (b' : Nat) (x : Meter) (b u : Nat) : (s.setMeter b' x).tiu b u = s.tiu b u := rfl
@[simp] theorem State.tiu_setTakeover (s : State) (b' : Nat) (x : Option (Nat × Bool)) (b u : Nat) : (s.setTakeover b' x).tiu b u = s.tiu b u := rfl
@[simp] theorem State.tiu_setBarrier (s : State) (i' : Nat) (x : Option Barrier) (b u : Nat) : (s.setBarrier i' x).tiu b u = s.tiu b u := rfl
@[simp] theorem State.tiu_setMbx (s : State) (b' : Nat) (x : Option Mbx) (b u : Nat) : (s.setMbx b' x).tiu b u = s.tiu b u := rfl
@[simp] theorem State.tiu_setSout (s : State) (b' n' : Nat) (x : SillOut) (b u : Nat) : (s.setSout b' n' x).tiu b u = s.tiu b u := rfl
@[simp] theorem State.tiu_keep (s x : State) (b u : Nat) : (s.keep x).tiu b u = x.tiu b u := rfl
@[simp] theorem State.tiu_keepMem (s x : State) (b u : Nat) : (s.keepMem x).tiu b u = x.tiu b u := rfl
@[simp] theorem State.tiu_setReg (s : State) (oa : Nat) (ow : Word) (b u : Nat) : (s.setReg oa ow).tiu b u = s.tiu b u := by
  simp [State.tiu]
@[simp] theorem State.tiu_wr (s : State) (oa ov : Nat) (b u : Nat) : (s.wr oa ov).tiu b u = s.tiu b u := by
  simp [State.tiu]
@[simp] theorem State.tiu_setFld (s : State) (oa olo olen ov : Nat) (b u : Nat) : (s.setFld oa olo olen ov).tiu b u = s.tiu b u := by
  simp [State.tiu]
@[simp] theorem State.tiu_setBit (s : State) (oa oi : Nat) (oc : Bool) (b u : Nat) : (s.setBit oa oi oc).tiu b u = s.tiu b u := by
  simp [State.tiu]
@[simp] theorem State.tiu_count (s : State) (oa ov : Nat) (b u : Nat) : (s.count oa ov).tiu b u = s.tiu b u := by
  simp [State.tiu]
@[simp] theorem State.tiu_bump (s : State) (oa : Nat) (b u : Nat) : (s.bump oa).tiu b u = s.tiu b u := by
  simp [State.tiu]
@[simp] theorem State.tiu_wr80 (s : State) (oa ov : Nat) (b u : Nat) : (s.wr80 oa ov).tiu b u = s.tiu b u := by
  simp [State.tiu]
@[simp] theorem State.tiu_wr64 (s : State) (oa ov : Nat) (b u : Nat) : (s.wr64 oa ov).tiu b u = s.tiu b u := by
  simp [State.tiu]
@[simp] theorem State.tiu_latchHealth (s : State) (opg oc : Nat) (b u : Nat) : (s.latchHealth opg oc).tiu b u = s.tiu b u := by
  simp [State.tiu]
@[simp] theorem State.tiu_fire (s : State) (ov : Nat) (b u : Nat) : (s.fire ov).tiu b u = s.tiu b u := by
  simp [State.tiu]
@[simp] theorem State.tiu_raiseAt (s : State) (opg oi opt od : Nat) (of : Bool) (b u : Nat) : (s.raiseAt opg oi opt od of).tiu b u = s.tiu b u := by
  simp [State.tiu]
@[simp] theorem State.tiu_raise (s : State) (opg oi : Nat) (b u : Nat) : (s.raise opg oi).tiu b u = s.tiu b u := by
  simp [State.tiu]
@[simp] theorem State.tiu_standing (s : State) (opg oc : Nat) (oon : Bool) (b u : Nat) : (s.standing opg oc oon).tiu b u = s.tiu b u := by
  simp [State.tiu]
@[simp] theorem State.tiu_category (s : State) (oc og : Nat) (oon : Bool) (b u : Nat) : (s.category oc og oon).tiu b u = s.tiu b u := by
  simp [State.tiu]
@[simp] theorem State.tiu_settle (s : State)  (b u : Nat) : (s.settle ).tiu b u = s.tiu b u := by
  simp [State.tiu]
@[simp] theorem State.tiu_arrive (s : State) (t : PT) (b u : Nat) : (s.arrive t).tiu b u = s.tiu b u := by
  simp [State.tiu]

/-! ### fre -/

@[simp] theorem State.fre_setFre_same (s : State) (b e : Nat) (x : Fre) : (s.setFre b e x).fre b e = x := by
  simp [State.fre, State.setFre]
theorem State.fre_setFre_ne (s : State) (b e b' e' : Nat) (x : Fre) (h : b' * 2 + e' ≠ b * 2 + e) : (s.setFre b e x).fre b' e' = s.fre b' e' := by
  simp [State.fre, State.setFre, mapGet_mapSet_ne _ _ _ h]
@[simp] theorem State.fre_setEdge (s : State) (b' ch' : Nat) (x : EdgeSt) (b e : Nat) : (s.setEdge b' ch' x).fre b e = s.fre b e := rfl
@[simp] theorem State.fre_setQueue (s : State) (lane' : Nat) (x : List Peg) (b e : Nat) : (s.setQueue lane' x).fre b e = s.fre b e := rfl
@[simp] theorem State.fre_setFlight (s : State) (lane' : Nat) (x : List Peg) (b e : Nat) : (s.setFlight lane' x).fre b e = s.fre b e := rfl
@[simp] theorem State.fre_setSeq (s : State) (k' : Nat) (x : SeqSt) (b e : Nat) : (s.setSeq k' x).fre b e = s.fre b e := rfl
@[simp] theorem State.fre_setTone (s : State) (lane' : Nat) (x : ToneSt) (b e : Nat) : (s.setTone lane' x).fre b e = s.fre b e := rfl
@[simp] theorem State.fre_setCap (s : State) (b' i' : Nat) (x : CapSt) (b e : Nat) : (s.setCap b' i' x).fre b e = s.fre b e := rfl
@[simp] theorem State.fre_setDma (s : State) (b' e' : Nat) (x : DmaSt) (b e : Nat) : (s.setDma b' e' x).fre b e = s.fre b e := rfl
@[simp] theorem State.fre_setStream (s : State) (b' n' : Nat) (x : StreamSt) (b e : Nat) : (s.setStream b' n' x).fre b e = s.fre b e := rfl
@[simp] theorem State.fre_setDrain (s : State) (k' : Nat) (x : Option Nat) (b e : Nat) : (s.setDrain k' x).fre b e = s.fre b e := rfl
@[simp] theorem State.fre_setCal (s : State) (b' : Nat) (x : CalSt) (b e : Nat) : (s.setCal b' x).fre b e = s.fre b e := rfl
@[simp] theorem State.fre_setInst (s : State) (b' item' inst' : Nat) (x : CalInst) (b e : Nat) : (s.setInst b' item' inst' x).fre b e = s.fre b e := rfl
@[simp] theorem State.fre_setSill (s : State) (b' k' : Nat) (x : Sill) (b e : Nat) : (s.setSill b' k' x).fre b e = s.fre b e := rfl
@[simp] theorem State.fre_setPort (s : State) (b' k' : Nat) (x : Port) (b e : Nat) : (s.setPort b' k' x).fre b e = s.fre b e := rfl
@[simp] theorem State.fre_setTiu (s : State) (b' u' : Nat) (x : Tiu) (b e : Nat) : (s.setTiu b' u' x).fre b e = s.fre b e := rfl
@[simp] theorem State.fre_setStampIn (s : State) (b' i' : Nat) (x : StampIn) (b e : Nat) : (s.setStampIn b' i' x).fre b e = s.fre b e := rfl
@[simp] theorem State.fre_setMeter (s : State) (b' : Nat) (x : Meter) (b e : Nat) : (s.setMeter b' x).fre b e = s.fre b e := rfl
@[simp] theorem State.fre_setTakeover (s : State) (b' : Nat) (x : Option (Nat × Bool)) (b e : Nat) : (s.setTakeover b' x).fre b e = s.fre b e := rfl
@[simp] theorem State.fre_setBarrier (s : State) (i' : Nat) (x : Option Barrier) (b e : Nat) : (s.setBarrier i' x).fre b e = s.fre b e := rfl
@[simp] theorem State.fre_setMbx (s : State) (b' : Nat) (x : Option Mbx) (b e : Nat) : (s.setMbx b' x).fre b e = s.fre b e := rfl
@[simp] theorem State.fre_setSout (s : State) (b' n' : Nat) (x : SillOut) (b e : Nat) : (s.setSout b' n' x).fre b e = s.fre b e := rfl
@[simp] theorem State.fre_keep (s x : State) (b e : Nat) : (s.keep x).fre b e = x.fre b e := rfl
@[simp] theorem State.fre_keepMem (s x : State) (b e : Nat) : (s.keepMem x).fre b e = x.fre b e := rfl
@[simp] theorem State.fre_setReg (s : State) (oa : Nat) (ow : Word) (b e : Nat) : (s.setReg oa ow).fre b e = s.fre b e := by
  simp [State.fre]
@[simp] theorem State.fre_wr (s : State) (oa ov : Nat) (b e : Nat) : (s.wr oa ov).fre b e = s.fre b e := by
  simp [State.fre]
@[simp] theorem State.fre_setFld (s : State) (oa olo olen ov : Nat) (b e : Nat) : (s.setFld oa olo olen ov).fre b e = s.fre b e := by
  simp [State.fre]
@[simp] theorem State.fre_setBit (s : State) (oa oi : Nat) (oc : Bool) (b e : Nat) : (s.setBit oa oi oc).fre b e = s.fre b e := by
  simp [State.fre]
@[simp] theorem State.fre_count (s : State) (oa ov : Nat) (b e : Nat) : (s.count oa ov).fre b e = s.fre b e := by
  simp [State.fre]
@[simp] theorem State.fre_bump (s : State) (oa : Nat) (b e : Nat) : (s.bump oa).fre b e = s.fre b e := by
  simp [State.fre]
@[simp] theorem State.fre_wr80 (s : State) (oa ov : Nat) (b e : Nat) : (s.wr80 oa ov).fre b e = s.fre b e := by
  simp [State.fre]
@[simp] theorem State.fre_wr64 (s : State) (oa ov : Nat) (b e : Nat) : (s.wr64 oa ov).fre b e = s.fre b e := by
  simp [State.fre]
@[simp] theorem State.fre_latchHealth (s : State) (opg oc : Nat) (b e : Nat) : (s.latchHealth opg oc).fre b e = s.fre b e := by
  simp [State.fre]
@[simp] theorem State.fre_fire (s : State) (ov : Nat) (b e : Nat) : (s.fire ov).fre b e = s.fre b e := by
  simp [State.fre]
@[simp] theorem State.fre_raiseAt (s : State) (opg oi opt od : Nat) (of : Bool) (b e : Nat) : (s.raiseAt opg oi opt od of).fre b e = s.fre b e := by
  simp [State.fre]
@[simp] theorem State.fre_raise (s : State) (opg oi : Nat) (b e : Nat) : (s.raise opg oi).fre b e = s.fre b e := by
  simp [State.fre]
@[simp] theorem State.fre_standing (s : State) (opg oc : Nat) (oon : Bool) (b e : Nat) : (s.standing opg oc oon).fre b e = s.fre b e := by
  simp [State.fre]
@[simp] theorem State.fre_category (s : State) (oc og : Nat) (oon : Bool) (b e : Nat) : (s.category oc og oon).fre b e = s.fre b e := by
  simp [State.fre]
@[simp] theorem State.fre_settle (s : State)  (b e : Nat) : (s.settle ).fre b e = s.fre b e := by
  simp [State.fre]
@[simp] theorem State.fre_arrive (s : State) (t : PT) (b e : Nat) : (s.arrive t).fre b e = s.fre b e := by
  simp [State.fre]

/-! ### stampIn -/

@[simp] theorem State.stampIn_setStampIn_same (s : State) (b i : Nat) (x : StampIn) : (s.setStampIn b i x).stampIn b i = x := by
  simp [State.stampIn, State.setStampIn]
theorem State.stampIn_setStampIn_ne (s : State) (b i b' i' : Nat) (x : StampIn) (h : b' * 8 + i' ≠ b * 8 + i) : (s.setStampIn b i x).stampIn b' i' = s.stampIn b' i' := by
  simp [State.stampIn, State.setStampIn, mapGet_mapSet_ne _ _ _ h]
@[simp] theorem State.stampIn_setEdge (s : State) (b' ch' : Nat) (x : EdgeSt) (b i : Nat) : (s.setEdge b' ch' x).stampIn b i = s.stampIn b i := rfl
@[simp] theorem State.stampIn_setQueue (s : State) (lane' : Nat) (x : List Peg) (b i : Nat) : (s.setQueue lane' x).stampIn b i = s.stampIn b i := rfl
@[simp] theorem State.stampIn_setFlight (s : State) (lane' : Nat) (x : List Peg) (b i : Nat) : (s.setFlight lane' x).stampIn b i = s.stampIn b i := rfl
@[simp] theorem State.stampIn_setSeq (s : State) (k' : Nat) (x : SeqSt) (b i : Nat) : (s.setSeq k' x).stampIn b i = s.stampIn b i := rfl
@[simp] theorem State.stampIn_setTone (s : State) (lane' : Nat) (x : ToneSt) (b i : Nat) : (s.setTone lane' x).stampIn b i = s.stampIn b i := rfl
@[simp] theorem State.stampIn_setCap (s : State) (b' i' : Nat) (x : CapSt) (b i : Nat) : (s.setCap b' i' x).stampIn b i = s.stampIn b i := rfl
@[simp] theorem State.stampIn_setDma (s : State) (b' e' : Nat) (x : DmaSt) (b i : Nat) : (s.setDma b' e' x).stampIn b i = s.stampIn b i := rfl
@[simp] theorem State.stampIn_setStream (s : State) (b' n' : Nat) (x : StreamSt) (b i : Nat) : (s.setStream b' n' x).stampIn b i = s.stampIn b i := rfl
@[simp] theorem State.stampIn_setDrain (s : State) (k' : Nat) (x : Option Nat) (b i : Nat) : (s.setDrain k' x).stampIn b i = s.stampIn b i := rfl
@[simp] theorem State.stampIn_setCal (s : State) (b' : Nat) (x : CalSt) (b i : Nat) : (s.setCal b' x).stampIn b i = s.stampIn b i := rfl
@[simp] theorem State.stampIn_setInst (s : State) (b' item' inst' : Nat) (x : CalInst) (b i : Nat) : (s.setInst b' item' inst' x).stampIn b i = s.stampIn b i := rfl
@[simp] theorem State.stampIn_setSill (s : State) (b' k' : Nat) (x : Sill) (b i : Nat) : (s.setSill b' k' x).stampIn b i = s.stampIn b i := rfl
@[simp] theorem State.stampIn_setPort (s : State) (b' k' : Nat) (x : Port) (b i : Nat) : (s.setPort b' k' x).stampIn b i = s.stampIn b i := rfl
@[simp] theorem State.stampIn_setTiu (s : State) (b' u' : Nat) (x : Tiu) (b i : Nat) : (s.setTiu b' u' x).stampIn b i = s.stampIn b i := rfl
@[simp] theorem State.stampIn_setFre (s : State) (b' e' : Nat) (x : Fre) (b i : Nat) : (s.setFre b' e' x).stampIn b i = s.stampIn b i := rfl
@[simp] theorem State.stampIn_setMeter (s : State) (b' : Nat) (x : Meter) (b i : Nat) : (s.setMeter b' x).stampIn b i = s.stampIn b i := rfl
@[simp] theorem State.stampIn_setTakeover (s : State) (b' : Nat) (x : Option (Nat × Bool)) (b i : Nat) : (s.setTakeover b' x).stampIn b i = s.stampIn b i := rfl
@[simp] theorem State.stampIn_setBarrier (s : State) (i' : Nat) (x : Option Barrier) (b i : Nat) : (s.setBarrier i' x).stampIn b i = s.stampIn b i := rfl
@[simp] theorem State.stampIn_setMbx (s : State) (b' : Nat) (x : Option Mbx) (b i : Nat) : (s.setMbx b' x).stampIn b i = s.stampIn b i := rfl
@[simp] theorem State.stampIn_setSout (s : State) (b' n' : Nat) (x : SillOut) (b i : Nat) : (s.setSout b' n' x).stampIn b i = s.stampIn b i := rfl
@[simp] theorem State.stampIn_keep (s x : State) (b i : Nat) : (s.keep x).stampIn b i = x.stampIn b i := rfl
@[simp] theorem State.stampIn_keepMem (s x : State) (b i : Nat) : (s.keepMem x).stampIn b i = x.stampIn b i := rfl
@[simp] theorem State.stampIn_setReg (s : State) (oa : Nat) (ow : Word) (b i : Nat) : (s.setReg oa ow).stampIn b i = s.stampIn b i := by
  simp [State.stampIn]
@[simp] theorem State.stampIn_wr (s : State) (oa ov : Nat) (b i : Nat) : (s.wr oa ov).stampIn b i = s.stampIn b i := by
  simp [State.stampIn]
@[simp] theorem State.stampIn_setFld (s : State) (oa olo olen ov : Nat) (b i : Nat) : (s.setFld oa olo olen ov).stampIn b i = s.stampIn b i := by
  simp [State.stampIn]
@[simp] theorem State.stampIn_setBit (s : State) (oa oi : Nat) (oc : Bool) (b i : Nat) : (s.setBit oa oi oc).stampIn b i = s.stampIn b i := by
  simp [State.stampIn]
@[simp] theorem State.stampIn_count (s : State) (oa ov : Nat) (b i : Nat) : (s.count oa ov).stampIn b i = s.stampIn b i := by
  simp [State.stampIn]
@[simp] theorem State.stampIn_bump (s : State) (oa : Nat) (b i : Nat) : (s.bump oa).stampIn b i = s.stampIn b i := by
  simp [State.stampIn]
@[simp] theorem State.stampIn_wr80 (s : State) (oa ov : Nat) (b i : Nat) : (s.wr80 oa ov).stampIn b i = s.stampIn b i := by
  simp [State.stampIn]
@[simp] theorem State.stampIn_wr64 (s : State) (oa ov : Nat) (b i : Nat) : (s.wr64 oa ov).stampIn b i = s.stampIn b i := by
  simp [State.stampIn]
@[simp] theorem State.stampIn_latchHealth (s : State) (opg oc : Nat) (b i : Nat) : (s.latchHealth opg oc).stampIn b i = s.stampIn b i := by
  simp [State.stampIn]
@[simp] theorem State.stampIn_fire (s : State) (ov : Nat) (b i : Nat) : (s.fire ov).stampIn b i = s.stampIn b i := by
  simp [State.stampIn]
@[simp] theorem State.stampIn_raiseAt (s : State) (opg oi opt od : Nat) (of : Bool) (b i : Nat) : (s.raiseAt opg oi opt od of).stampIn b i = s.stampIn b i := by
  simp [State.stampIn]
@[simp] theorem State.stampIn_raise (s : State) (opg oi : Nat) (b i : Nat) : (s.raise opg oi).stampIn b i = s.stampIn b i := by
  simp [State.stampIn]
@[simp] theorem State.stampIn_standing (s : State) (opg oc : Nat) (oon : Bool) (b i : Nat) : (s.standing opg oc oon).stampIn b i = s.stampIn b i := by
  simp [State.stampIn]
@[simp] theorem State.stampIn_category (s : State) (oc og : Nat) (oon : Bool) (b i : Nat) : (s.category oc og oon).stampIn b i = s.stampIn b i := by
  simp [State.stampIn]
@[simp] theorem State.stampIn_settle (s : State)  (b i : Nat) : (s.settle ).stampIn b i = s.stampIn b i := by
  simp [State.stampIn]
@[simp] theorem State.stampIn_arrive (s : State) (t : PT) (b i : Nat) : (s.arrive t).stampIn b i = s.stampIn b i := by
  simp [State.stampIn]

/-! ### meter -/

@[simp] theorem State.meter_setMeter_same (s : State) (b : Nat) (x : Meter) : (s.setMeter b x).meter b = x := by
  simp [State.meter, State.setMeter]
theorem State.meter_setMeter_ne (s : State) (b b' : Nat) (x : Meter) (h : b' ≠ b) : (s.setMeter b x).meter b' = s.meter b' := by
  simp [State.meter, State.setMeter, mapGet_mapSet_ne _ _ _ h]
@[simp] theorem State.meter_setEdge (s : State) (b' ch' : Nat) (x : EdgeSt) (b : Nat) : (s.setEdge b' ch' x).meter b = s.meter b := rfl
@[simp] theorem State.meter_setQueue (s : State) (lane' : Nat) (x : List Peg) (b : Nat) : (s.setQueue lane' x).meter b = s.meter b := rfl
@[simp] theorem State.meter_setFlight (s : State) (lane' : Nat) (x : List Peg) (b : Nat) : (s.setFlight lane' x).meter b = s.meter b := rfl
@[simp] theorem State.meter_setSeq (s : State) (k' : Nat) (x : SeqSt) (b : Nat) : (s.setSeq k' x).meter b = s.meter b := rfl
@[simp] theorem State.meter_setTone (s : State) (lane' : Nat) (x : ToneSt) (b : Nat) : (s.setTone lane' x).meter b = s.meter b := rfl
@[simp] theorem State.meter_setCap (s : State) (b' i' : Nat) (x : CapSt) (b : Nat) : (s.setCap b' i' x).meter b = s.meter b := rfl
@[simp] theorem State.meter_setDma (s : State) (b' e' : Nat) (x : DmaSt) (b : Nat) : (s.setDma b' e' x).meter b = s.meter b := rfl
@[simp] theorem State.meter_setStream (s : State) (b' n' : Nat) (x : StreamSt) (b : Nat) : (s.setStream b' n' x).meter b = s.meter b := rfl
@[simp] theorem State.meter_setDrain (s : State) (k' : Nat) (x : Option Nat) (b : Nat) : (s.setDrain k' x).meter b = s.meter b := rfl
@[simp] theorem State.meter_setCal (s : State) (b' : Nat) (x : CalSt) (b : Nat) : (s.setCal b' x).meter b = s.meter b := rfl
@[simp] theorem State.meter_setInst (s : State) (b' item' inst' : Nat) (x : CalInst) (b : Nat) : (s.setInst b' item' inst' x).meter b = s.meter b := rfl
@[simp] theorem State.meter_setSill (s : State) (b' k' : Nat) (x : Sill) (b : Nat) : (s.setSill b' k' x).meter b = s.meter b := rfl
@[simp] theorem State.meter_setPort (s : State) (b' k' : Nat) (x : Port) (b : Nat) : (s.setPort b' k' x).meter b = s.meter b := rfl
@[simp] theorem State.meter_setTiu (s : State) (b' u' : Nat) (x : Tiu) (b : Nat) : (s.setTiu b' u' x).meter b = s.meter b := rfl
@[simp] theorem State.meter_setFre (s : State) (b' e' : Nat) (x : Fre) (b : Nat) : (s.setFre b' e' x).meter b = s.meter b := rfl
@[simp] theorem State.meter_setStampIn (s : State) (b' i' : Nat) (x : StampIn) (b : Nat) : (s.setStampIn b' i' x).meter b = s.meter b := rfl
@[simp] theorem State.meter_setTakeover (s : State) (b' : Nat) (x : Option (Nat × Bool)) (b : Nat) : (s.setTakeover b' x).meter b = s.meter b := rfl
@[simp] theorem State.meter_setBarrier (s : State) (i' : Nat) (x : Option Barrier) (b : Nat) : (s.setBarrier i' x).meter b = s.meter b := rfl
@[simp] theorem State.meter_setMbx (s : State) (b' : Nat) (x : Option Mbx) (b : Nat) : (s.setMbx b' x).meter b = s.meter b := rfl
@[simp] theorem State.meter_setSout (s : State) (b' n' : Nat) (x : SillOut) (b : Nat) : (s.setSout b' n' x).meter b = s.meter b := rfl
@[simp] theorem State.meter_keep (s x : State) (b : Nat) : (s.keep x).meter b = x.meter b := rfl
@[simp] theorem State.meter_keepMem (s x : State) (b : Nat) : (s.keepMem x).meter b = x.meter b := rfl
@[simp] theorem State.meter_setReg (s : State) (oa : Nat) (ow : Word) (b : Nat) : (s.setReg oa ow).meter b = s.meter b := by
  simp [State.meter]
@[simp] theorem State.meter_wr (s : State) (oa ov : Nat) (b : Nat) : (s.wr oa ov).meter b = s.meter b := by
  simp [State.meter]
@[simp] theorem State.meter_setFld (s : State) (oa olo olen ov : Nat) (b : Nat) : (s.setFld oa olo olen ov).meter b = s.meter b := by
  simp [State.meter]
@[simp] theorem State.meter_setBit (s : State) (oa oi : Nat) (oc : Bool) (b : Nat) : (s.setBit oa oi oc).meter b = s.meter b := by
  simp [State.meter]
@[simp] theorem State.meter_count (s : State) (oa ov : Nat) (b : Nat) : (s.count oa ov).meter b = s.meter b := by
  simp [State.meter]
@[simp] theorem State.meter_bump (s : State) (oa : Nat) (b : Nat) : (s.bump oa).meter b = s.meter b := by
  simp [State.meter]
@[simp] theorem State.meter_wr80 (s : State) (oa ov : Nat) (b : Nat) : (s.wr80 oa ov).meter b = s.meter b := by
  simp [State.meter]
@[simp] theorem State.meter_wr64 (s : State) (oa ov : Nat) (b : Nat) : (s.wr64 oa ov).meter b = s.meter b := by
  simp [State.meter]
@[simp] theorem State.meter_latchHealth (s : State) (opg oc : Nat) (b : Nat) : (s.latchHealth opg oc).meter b = s.meter b := by
  simp [State.meter]
@[simp] theorem State.meter_fire (s : State) (ov : Nat) (b : Nat) : (s.fire ov).meter b = s.meter b := by
  simp [State.meter]
@[simp] theorem State.meter_raiseAt (s : State) (opg oi opt od : Nat) (of : Bool) (b : Nat) : (s.raiseAt opg oi opt od of).meter b = s.meter b := by
  simp [State.meter]
@[simp] theorem State.meter_raise (s : State) (opg oi : Nat) (b : Nat) : (s.raise opg oi).meter b = s.meter b := by
  simp [State.meter]
@[simp] theorem State.meter_standing (s : State) (opg oc : Nat) (oon : Bool) (b : Nat) : (s.standing opg oc oon).meter b = s.meter b := by
  simp [State.meter]
@[simp] theorem State.meter_category (s : State) (oc og : Nat) (oon : Bool) (b : Nat) : (s.category oc og oon).meter b = s.meter b := by
  simp [State.meter]
@[simp] theorem State.meter_settle (s : State)  (b : Nat) : (s.settle ).meter b = s.meter b := by
  simp [State.meter]
@[simp] theorem State.meter_arrive (s : State) (t : PT) (b : Nat) : (s.arrive t).meter b = s.meter b := by
  simp [State.meter]

/-! ### takeover -/

@[simp] theorem State.takeover_setTakeover_same (s : State) (b : Nat) (x : Option (Nat × Bool)) : (s.setTakeover b x).takeover b = x := by
  simp [State.takeover, State.setTakeover]
theorem State.takeover_setTakeover_ne (s : State) (b b' : Nat) (x : Option (Nat × Bool)) (h : b' ≠ b) : (s.setTakeover b x).takeover b' = s.takeover b' := by
  simp [State.takeover, State.setTakeover, mapGet_mapSet_ne _ _ _ h]
@[simp] theorem State.takeover_setEdge (s : State) (b' ch' : Nat) (x : EdgeSt) (b : Nat) : (s.setEdge b' ch' x).takeover b = s.takeover b := rfl
@[simp] theorem State.takeover_setQueue (s : State) (lane' : Nat) (x : List Peg) (b : Nat) : (s.setQueue lane' x).takeover b = s.takeover b := rfl
@[simp] theorem State.takeover_setFlight (s : State) (lane' : Nat) (x : List Peg) (b : Nat) : (s.setFlight lane' x).takeover b = s.takeover b := rfl
@[simp] theorem State.takeover_setSeq (s : State) (k' : Nat) (x : SeqSt) (b : Nat) : (s.setSeq k' x).takeover b = s.takeover b := rfl
@[simp] theorem State.takeover_setTone (s : State) (lane' : Nat) (x : ToneSt) (b : Nat) : (s.setTone lane' x).takeover b = s.takeover b := rfl
@[simp] theorem State.takeover_setCap (s : State) (b' i' : Nat) (x : CapSt) (b : Nat) : (s.setCap b' i' x).takeover b = s.takeover b := rfl
@[simp] theorem State.takeover_setDma (s : State) (b' e' : Nat) (x : DmaSt) (b : Nat) : (s.setDma b' e' x).takeover b = s.takeover b := rfl
@[simp] theorem State.takeover_setStream (s : State) (b' n' : Nat) (x : StreamSt) (b : Nat) : (s.setStream b' n' x).takeover b = s.takeover b := rfl
@[simp] theorem State.takeover_setDrain (s : State) (k' : Nat) (x : Option Nat) (b : Nat) : (s.setDrain k' x).takeover b = s.takeover b := rfl
@[simp] theorem State.takeover_setCal (s : State) (b' : Nat) (x : CalSt) (b : Nat) : (s.setCal b' x).takeover b = s.takeover b := rfl
@[simp] theorem State.takeover_setInst (s : State) (b' item' inst' : Nat) (x : CalInst) (b : Nat) : (s.setInst b' item' inst' x).takeover b = s.takeover b := rfl
@[simp] theorem State.takeover_setSill (s : State) (b' k' : Nat) (x : Sill) (b : Nat) : (s.setSill b' k' x).takeover b = s.takeover b := rfl
@[simp] theorem State.takeover_setPort (s : State) (b' k' : Nat) (x : Port) (b : Nat) : (s.setPort b' k' x).takeover b = s.takeover b := rfl
@[simp] theorem State.takeover_setTiu (s : State) (b' u' : Nat) (x : Tiu) (b : Nat) : (s.setTiu b' u' x).takeover b = s.takeover b := rfl
@[simp] theorem State.takeover_setFre (s : State) (b' e' : Nat) (x : Fre) (b : Nat) : (s.setFre b' e' x).takeover b = s.takeover b := rfl
@[simp] theorem State.takeover_setStampIn (s : State) (b' i' : Nat) (x : StampIn) (b : Nat) : (s.setStampIn b' i' x).takeover b = s.takeover b := rfl
@[simp] theorem State.takeover_setMeter (s : State) (b' : Nat) (x : Meter) (b : Nat) : (s.setMeter b' x).takeover b = s.takeover b := rfl
@[simp] theorem State.takeover_setBarrier (s : State) (i' : Nat) (x : Option Barrier) (b : Nat) : (s.setBarrier i' x).takeover b = s.takeover b := rfl
@[simp] theorem State.takeover_setMbx (s : State) (b' : Nat) (x : Option Mbx) (b : Nat) : (s.setMbx b' x).takeover b = s.takeover b := rfl
@[simp] theorem State.takeover_setSout (s : State) (b' n' : Nat) (x : SillOut) (b : Nat) : (s.setSout b' n' x).takeover b = s.takeover b := rfl
@[simp] theorem State.takeover_keep (s x : State) (b : Nat) : (s.keep x).takeover b = x.takeover b := rfl
@[simp] theorem State.takeover_keepMem (s x : State) (b : Nat) : (s.keepMem x).takeover b = x.takeover b := rfl
@[simp] theorem State.takeover_setReg (s : State) (oa : Nat) (ow : Word) (b : Nat) : (s.setReg oa ow).takeover b = s.takeover b := by
  simp [State.takeover]
@[simp] theorem State.takeover_wr (s : State) (oa ov : Nat) (b : Nat) : (s.wr oa ov).takeover b = s.takeover b := by
  simp [State.takeover]
@[simp] theorem State.takeover_setFld (s : State) (oa olo olen ov : Nat) (b : Nat) : (s.setFld oa olo olen ov).takeover b = s.takeover b := by
  simp [State.takeover]
@[simp] theorem State.takeover_setBit (s : State) (oa oi : Nat) (oc : Bool) (b : Nat) : (s.setBit oa oi oc).takeover b = s.takeover b := by
  simp [State.takeover]
@[simp] theorem State.takeover_count (s : State) (oa ov : Nat) (b : Nat) : (s.count oa ov).takeover b = s.takeover b := by
  simp [State.takeover]
@[simp] theorem State.takeover_bump (s : State) (oa : Nat) (b : Nat) : (s.bump oa).takeover b = s.takeover b := by
  simp [State.takeover]
@[simp] theorem State.takeover_wr80 (s : State) (oa ov : Nat) (b : Nat) : (s.wr80 oa ov).takeover b = s.takeover b := by
  simp [State.takeover]
@[simp] theorem State.takeover_wr64 (s : State) (oa ov : Nat) (b : Nat) : (s.wr64 oa ov).takeover b = s.takeover b := by
  simp [State.takeover]
@[simp] theorem State.takeover_latchHealth (s : State) (opg oc : Nat) (b : Nat) : (s.latchHealth opg oc).takeover b = s.takeover b := by
  simp [State.takeover]
@[simp] theorem State.takeover_fire (s : State) (ov : Nat) (b : Nat) : (s.fire ov).takeover b = s.takeover b := by
  simp [State.takeover]
@[simp] theorem State.takeover_raiseAt (s : State) (opg oi opt od : Nat) (of : Bool) (b : Nat) : (s.raiseAt opg oi opt od of).takeover b = s.takeover b := by
  simp [State.takeover]
@[simp] theorem State.takeover_raise (s : State) (opg oi : Nat) (b : Nat) : (s.raise opg oi).takeover b = s.takeover b := by
  simp [State.takeover]
@[simp] theorem State.takeover_standing (s : State) (opg oc : Nat) (oon : Bool) (b : Nat) : (s.standing opg oc oon).takeover b = s.takeover b := by
  simp [State.takeover]
@[simp] theorem State.takeover_category (s : State) (oc og : Nat) (oon : Bool) (b : Nat) : (s.category oc og oon).takeover b = s.takeover b := by
  simp [State.takeover]
@[simp] theorem State.takeover_settle (s : State)  (b : Nat) : (s.settle ).takeover b = s.takeover b := by
  simp [State.takeover]
@[simp] theorem State.takeover_arrive (s : State) (t : PT) (b : Nat) : (s.arrive t).takeover b = s.takeover b := by
  simp [State.takeover]

/-! ### barrier -/

@[simp] theorem State.barrier_setBarrier_same (s : State) (i : Nat) (x : Option Barrier) : (s.setBarrier i x).barrier i = x := by
  simp [State.barrier, State.setBarrier]
theorem State.barrier_setBarrier_ne (s : State) (i i' : Nat) (x : Option Barrier) (h : i' ≠ i) : (s.setBarrier i x).barrier i' = s.barrier i' := by
  simp [State.barrier, State.setBarrier, mapGet_mapSet_ne _ _ _ h]
@[simp] theorem State.barrier_setEdge (s : State) (b' ch' : Nat) (x : EdgeSt) (i : Nat) : (s.setEdge b' ch' x).barrier i = s.barrier i := rfl
@[simp] theorem State.barrier_setQueue (s : State) (lane' : Nat) (x : List Peg) (i : Nat) : (s.setQueue lane' x).barrier i = s.barrier i := rfl
@[simp] theorem State.barrier_setFlight (s : State) (lane' : Nat) (x : List Peg) (i : Nat) : (s.setFlight lane' x).barrier i = s.barrier i := rfl
@[simp] theorem State.barrier_setSeq (s : State) (k' : Nat) (x : SeqSt) (i : Nat) : (s.setSeq k' x).barrier i = s.barrier i := rfl
@[simp] theorem State.barrier_setTone (s : State) (lane' : Nat) (x : ToneSt) (i : Nat) : (s.setTone lane' x).barrier i = s.barrier i := rfl
@[simp] theorem State.barrier_setCap (s : State) (b' i' : Nat) (x : CapSt) (i : Nat) : (s.setCap b' i' x).barrier i = s.barrier i := rfl
@[simp] theorem State.barrier_setDma (s : State) (b' e' : Nat) (x : DmaSt) (i : Nat) : (s.setDma b' e' x).barrier i = s.barrier i := rfl
@[simp] theorem State.barrier_setStream (s : State) (b' n' : Nat) (x : StreamSt) (i : Nat) : (s.setStream b' n' x).barrier i = s.barrier i := rfl
@[simp] theorem State.barrier_setDrain (s : State) (k' : Nat) (x : Option Nat) (i : Nat) : (s.setDrain k' x).barrier i = s.barrier i := rfl
@[simp] theorem State.barrier_setCal (s : State) (b' : Nat) (x : CalSt) (i : Nat) : (s.setCal b' x).barrier i = s.barrier i := rfl
@[simp] theorem State.barrier_setInst (s : State) (b' item' inst' : Nat) (x : CalInst) (i : Nat) : (s.setInst b' item' inst' x).barrier i = s.barrier i := rfl
@[simp] theorem State.barrier_setSill (s : State) (b' k' : Nat) (x : Sill) (i : Nat) : (s.setSill b' k' x).barrier i = s.barrier i := rfl
@[simp] theorem State.barrier_setPort (s : State) (b' k' : Nat) (x : Port) (i : Nat) : (s.setPort b' k' x).barrier i = s.barrier i := rfl
@[simp] theorem State.barrier_setTiu (s : State) (b' u' : Nat) (x : Tiu) (i : Nat) : (s.setTiu b' u' x).barrier i = s.barrier i := rfl
@[simp] theorem State.barrier_setFre (s : State) (b' e' : Nat) (x : Fre) (i : Nat) : (s.setFre b' e' x).barrier i = s.barrier i := rfl
@[simp] theorem State.barrier_setStampIn (s : State) (b' i' : Nat) (x : StampIn) (i : Nat) : (s.setStampIn b' i' x).barrier i = s.barrier i := rfl
@[simp] theorem State.barrier_setMeter (s : State) (b' : Nat) (x : Meter) (i : Nat) : (s.setMeter b' x).barrier i = s.barrier i := rfl
@[simp] theorem State.barrier_setTakeover (s : State) (b' : Nat) (x : Option (Nat × Bool)) (i : Nat) : (s.setTakeover b' x).barrier i = s.barrier i := rfl
@[simp] theorem State.barrier_setMbx (s : State) (b' : Nat) (x : Option Mbx) (i : Nat) : (s.setMbx b' x).barrier i = s.barrier i := rfl
@[simp] theorem State.barrier_setSout (s : State) (b' n' : Nat) (x : SillOut) (i : Nat) : (s.setSout b' n' x).barrier i = s.barrier i := rfl
@[simp] theorem State.barrier_keep (s x : State) (i : Nat) : (s.keep x).barrier i = x.barrier i := rfl
@[simp] theorem State.barrier_keepMem (s x : State) (i : Nat) : (s.keepMem x).barrier i = x.barrier i := rfl
@[simp] theorem State.barrier_setReg (s : State) (oa : Nat) (ow : Word) (i : Nat) : (s.setReg oa ow).barrier i = s.barrier i := by
  simp [State.barrier]
@[simp] theorem State.barrier_wr (s : State) (oa ov : Nat) (i : Nat) : (s.wr oa ov).barrier i = s.barrier i := by
  simp [State.barrier]
@[simp] theorem State.barrier_setFld (s : State) (oa olo olen ov : Nat) (i : Nat) : (s.setFld oa olo olen ov).barrier i = s.barrier i := by
  simp [State.barrier]
@[simp] theorem State.barrier_setBit (s : State) (oa oi : Nat) (oc : Bool) (i : Nat) : (s.setBit oa oi oc).barrier i = s.barrier i := by
  simp [State.barrier]
@[simp] theorem State.barrier_count (s : State) (oa ov : Nat) (i : Nat) : (s.count oa ov).barrier i = s.barrier i := by
  simp [State.barrier]
@[simp] theorem State.barrier_bump (s : State) (oa : Nat) (i : Nat) : (s.bump oa).barrier i = s.barrier i := by
  simp [State.barrier]
@[simp] theorem State.barrier_wr80 (s : State) (oa ov : Nat) (i : Nat) : (s.wr80 oa ov).barrier i = s.barrier i := by
  simp [State.barrier]
@[simp] theorem State.barrier_wr64 (s : State) (oa ov : Nat) (i : Nat) : (s.wr64 oa ov).barrier i = s.barrier i := by
  simp [State.barrier]
@[simp] theorem State.barrier_latchHealth (s : State) (opg oc : Nat) (i : Nat) : (s.latchHealth opg oc).barrier i = s.barrier i := by
  simp [State.barrier]
@[simp] theorem State.barrier_fire (s : State) (ov : Nat) (i : Nat) : (s.fire ov).barrier i = s.barrier i := by
  simp [State.barrier]
@[simp] theorem State.barrier_raiseAt (s : State) (opg oi opt od : Nat) (of : Bool) (i : Nat) : (s.raiseAt opg oi opt od of).barrier i = s.barrier i := by
  simp [State.barrier]
@[simp] theorem State.barrier_raise (s : State) (opg oi : Nat) (i : Nat) : (s.raise opg oi).barrier i = s.barrier i := by
  simp [State.barrier]
@[simp] theorem State.barrier_standing (s : State) (opg oc : Nat) (oon : Bool) (i : Nat) : (s.standing opg oc oon).barrier i = s.barrier i := by
  simp [State.barrier]
@[simp] theorem State.barrier_category (s : State) (oc og : Nat) (oon : Bool) (i : Nat) : (s.category oc og oon).barrier i = s.barrier i := by
  simp [State.barrier]
@[simp] theorem State.barrier_settle (s : State)  (i : Nat) : (s.settle ).barrier i = s.barrier i := by
  simp [State.barrier]
@[simp] theorem State.barrier_arrive (s : State) (t : PT) (i : Nat) : (s.arrive t).barrier i = s.barrier i := by
  simp [State.barrier]

/-! ### mbx -/

@[simp] theorem State.mbx_setMbx_same (s : State) (b : Nat) (x : Option Mbx) : (s.setMbx b x).mbx b = x := by
  simp [State.mbx, State.setMbx]
theorem State.mbx_setMbx_ne (s : State) (b b' : Nat) (x : Option Mbx) (h : b' ≠ b) : (s.setMbx b x).mbx b' = s.mbx b' := by
  simp [State.mbx, State.setMbx, mapGet_mapSet_ne _ _ _ h]
@[simp] theorem State.mbx_setEdge (s : State) (b' ch' : Nat) (x : EdgeSt) (b : Nat) : (s.setEdge b' ch' x).mbx b = s.mbx b := rfl
@[simp] theorem State.mbx_setQueue (s : State) (lane' : Nat) (x : List Peg) (b : Nat) : (s.setQueue lane' x).mbx b = s.mbx b := rfl
@[simp] theorem State.mbx_setFlight (s : State) (lane' : Nat) (x : List Peg) (b : Nat) : (s.setFlight lane' x).mbx b = s.mbx b := rfl
@[simp] theorem State.mbx_setSeq (s : State) (k' : Nat) (x : SeqSt) (b : Nat) : (s.setSeq k' x).mbx b = s.mbx b := rfl
@[simp] theorem State.mbx_setTone (s : State) (lane' : Nat) (x : ToneSt) (b : Nat) : (s.setTone lane' x).mbx b = s.mbx b := rfl
@[simp] theorem State.mbx_setCap (s : State) (b' i' : Nat) (x : CapSt) (b : Nat) : (s.setCap b' i' x).mbx b = s.mbx b := rfl
@[simp] theorem State.mbx_setDma (s : State) (b' e' : Nat) (x : DmaSt) (b : Nat) : (s.setDma b' e' x).mbx b = s.mbx b := rfl
@[simp] theorem State.mbx_setStream (s : State) (b' n' : Nat) (x : StreamSt) (b : Nat) : (s.setStream b' n' x).mbx b = s.mbx b := rfl
@[simp] theorem State.mbx_setDrain (s : State) (k' : Nat) (x : Option Nat) (b : Nat) : (s.setDrain k' x).mbx b = s.mbx b := rfl
@[simp] theorem State.mbx_setCal (s : State) (b' : Nat) (x : CalSt) (b : Nat) : (s.setCal b' x).mbx b = s.mbx b := rfl
@[simp] theorem State.mbx_setInst (s : State) (b' item' inst' : Nat) (x : CalInst) (b : Nat) : (s.setInst b' item' inst' x).mbx b = s.mbx b := rfl
@[simp] theorem State.mbx_setSill (s : State) (b' k' : Nat) (x : Sill) (b : Nat) : (s.setSill b' k' x).mbx b = s.mbx b := rfl
@[simp] theorem State.mbx_setPort (s : State) (b' k' : Nat) (x : Port) (b : Nat) : (s.setPort b' k' x).mbx b = s.mbx b := rfl
@[simp] theorem State.mbx_setTiu (s : State) (b' u' : Nat) (x : Tiu) (b : Nat) : (s.setTiu b' u' x).mbx b = s.mbx b := rfl
@[simp] theorem State.mbx_setFre (s : State) (b' e' : Nat) (x : Fre) (b : Nat) : (s.setFre b' e' x).mbx b = s.mbx b := rfl
@[simp] theorem State.mbx_setStampIn (s : State) (b' i' : Nat) (x : StampIn) (b : Nat) : (s.setStampIn b' i' x).mbx b = s.mbx b := rfl
@[simp] theorem State.mbx_setMeter (s : State) (b' : Nat) (x : Meter) (b : Nat) : (s.setMeter b' x).mbx b = s.mbx b := rfl
@[simp] theorem State.mbx_setTakeover (s : State) (b' : Nat) (x : Option (Nat × Bool)) (b : Nat) : (s.setTakeover b' x).mbx b = s.mbx b := rfl
@[simp] theorem State.mbx_setBarrier (s : State) (i' : Nat) (x : Option Barrier) (b : Nat) : (s.setBarrier i' x).mbx b = s.mbx b := rfl
@[simp] theorem State.mbx_setSout (s : State) (b' n' : Nat) (x : SillOut) (b : Nat) : (s.setSout b' n' x).mbx b = s.mbx b := rfl
@[simp] theorem State.mbx_keep (s x : State) (b : Nat) : (s.keep x).mbx b = x.mbx b := rfl
@[simp] theorem State.mbx_keepMem (s x : State) (b : Nat) : (s.keepMem x).mbx b = x.mbx b := rfl
@[simp] theorem State.mbx_setReg (s : State) (oa : Nat) (ow : Word) (b : Nat) : (s.setReg oa ow).mbx b = s.mbx b := by
  simp [State.mbx]
@[simp] theorem State.mbx_wr (s : State) (oa ov : Nat) (b : Nat) : (s.wr oa ov).mbx b = s.mbx b := by
  simp [State.mbx]
@[simp] theorem State.mbx_setFld (s : State) (oa olo olen ov : Nat) (b : Nat) : (s.setFld oa olo olen ov).mbx b = s.mbx b := by
  simp [State.mbx]
@[simp] theorem State.mbx_setBit (s : State) (oa oi : Nat) (oc : Bool) (b : Nat) : (s.setBit oa oi oc).mbx b = s.mbx b := by
  simp [State.mbx]
@[simp] theorem State.mbx_count (s : State) (oa ov : Nat) (b : Nat) : (s.count oa ov).mbx b = s.mbx b := by
  simp [State.mbx]
@[simp] theorem State.mbx_bump (s : State) (oa : Nat) (b : Nat) : (s.bump oa).mbx b = s.mbx b := by
  simp [State.mbx]
@[simp] theorem State.mbx_wr80 (s : State) (oa ov : Nat) (b : Nat) : (s.wr80 oa ov).mbx b = s.mbx b := by
  simp [State.mbx]
@[simp] theorem State.mbx_wr64 (s : State) (oa ov : Nat) (b : Nat) : (s.wr64 oa ov).mbx b = s.mbx b := by
  simp [State.mbx]
@[simp] theorem State.mbx_latchHealth (s : State) (opg oc : Nat) (b : Nat) : (s.latchHealth opg oc).mbx b = s.mbx b := by
  simp [State.mbx]
@[simp] theorem State.mbx_fire (s : State) (ov : Nat) (b : Nat) : (s.fire ov).mbx b = s.mbx b := by
  simp [State.mbx]
@[simp] theorem State.mbx_raiseAt (s : State) (opg oi opt od : Nat) (of : Bool) (b : Nat) : (s.raiseAt opg oi opt od of).mbx b = s.mbx b := by
  simp [State.mbx]
@[simp] theorem State.mbx_raise (s : State) (opg oi : Nat) (b : Nat) : (s.raise opg oi).mbx b = s.mbx b := by
  simp [State.mbx]
@[simp] theorem State.mbx_standing (s : State) (opg oc : Nat) (oon : Bool) (b : Nat) : (s.standing opg oc oon).mbx b = s.mbx b := by
  simp [State.mbx]
@[simp] theorem State.mbx_category (s : State) (oc og : Nat) (oon : Bool) (b : Nat) : (s.category oc og oon).mbx b = s.mbx b := by
  simp [State.mbx]
@[simp] theorem State.mbx_settle (s : State)  (b : Nat) : (s.settle ).mbx b = s.mbx b := by
  simp [State.mbx]
@[simp] theorem State.mbx_arrive (s : State) (t : PT) (b : Nat) : (s.arrive t).mbx b = s.mbx b := by
  simp [State.mbx]

/-! ### sout -/

@[simp] theorem State.sout_setSout_same (s : State) (b n : Nat) (x : SillOut) : (s.setSout b n x).sout b n = x := by
  simp [State.sout, State.setSout]
theorem State.sout_setSout_ne (s : State) (b n b' n' : Nat) (x : SillOut) (h : b' * 16 + n' ≠ b * 16 + n) : (s.setSout b n x).sout b' n' = s.sout b' n' := by
  simp [State.sout, State.setSout, mapGet_mapSet_ne _ _ _ h]
@[simp] theorem State.sout_setEdge (s : State) (b' ch' : Nat) (x : EdgeSt) (b n : Nat) : (s.setEdge b' ch' x).sout b n = s.sout b n := rfl
@[simp] theorem State.sout_setQueue (s : State) (lane' : Nat) (x : List Peg) (b n : Nat) : (s.setQueue lane' x).sout b n = s.sout b n := rfl
@[simp] theorem State.sout_setFlight (s : State) (lane' : Nat) (x : List Peg) (b n : Nat) : (s.setFlight lane' x).sout b n = s.sout b n := rfl
@[simp] theorem State.sout_setSeq (s : State) (k' : Nat) (x : SeqSt) (b n : Nat) : (s.setSeq k' x).sout b n = s.sout b n := rfl
@[simp] theorem State.sout_setTone (s : State) (lane' : Nat) (x : ToneSt) (b n : Nat) : (s.setTone lane' x).sout b n = s.sout b n := rfl
@[simp] theorem State.sout_setCap (s : State) (b' i' : Nat) (x : CapSt) (b n : Nat) : (s.setCap b' i' x).sout b n = s.sout b n := rfl
@[simp] theorem State.sout_setDma (s : State) (b' e' : Nat) (x : DmaSt) (b n : Nat) : (s.setDma b' e' x).sout b n = s.sout b n := rfl
@[simp] theorem State.sout_setStream (s : State) (b' n' : Nat) (x : StreamSt) (b n : Nat) : (s.setStream b' n' x).sout b n = s.sout b n := rfl
@[simp] theorem State.sout_setDrain (s : State) (k' : Nat) (x : Option Nat) (b n : Nat) : (s.setDrain k' x).sout b n = s.sout b n := rfl
@[simp] theorem State.sout_setCal (s : State) (b' : Nat) (x : CalSt) (b n : Nat) : (s.setCal b' x).sout b n = s.sout b n := rfl
@[simp] theorem State.sout_setInst (s : State) (b' item' inst' : Nat) (x : CalInst) (b n : Nat) : (s.setInst b' item' inst' x).sout b n = s.sout b n := rfl
@[simp] theorem State.sout_setSill (s : State) (b' k' : Nat) (x : Sill) (b n : Nat) : (s.setSill b' k' x).sout b n = s.sout b n := rfl
@[simp] theorem State.sout_setPort (s : State) (b' k' : Nat) (x : Port) (b n : Nat) : (s.setPort b' k' x).sout b n = s.sout b n := rfl
@[simp] theorem State.sout_setTiu (s : State) (b' u' : Nat) (x : Tiu) (b n : Nat) : (s.setTiu b' u' x).sout b n = s.sout b n := rfl
@[simp] theorem State.sout_setFre (s : State) (b' e' : Nat) (x : Fre) (b n : Nat) : (s.setFre b' e' x).sout b n = s.sout b n := rfl
@[simp] theorem State.sout_setStampIn (s : State) (b' i' : Nat) (x : StampIn) (b n : Nat) : (s.setStampIn b' i' x).sout b n = s.sout b n := rfl
@[simp] theorem State.sout_setMeter (s : State) (b' : Nat) (x : Meter) (b n : Nat) : (s.setMeter b' x).sout b n = s.sout b n := rfl
@[simp] theorem State.sout_setTakeover (s : State) (b' : Nat) (x : Option (Nat × Bool)) (b n : Nat) : (s.setTakeover b' x).sout b n = s.sout b n := rfl
@[simp] theorem State.sout_setBarrier (s : State) (i' : Nat) (x : Option Barrier) (b n : Nat) : (s.setBarrier i' x).sout b n = s.sout b n := rfl
@[simp] theorem State.sout_setMbx (s : State) (b' : Nat) (x : Option Mbx) (b n : Nat) : (s.setMbx b' x).sout b n = s.sout b n := rfl
@[simp] theorem State.sout_keep (s x : State) (b n : Nat) : (s.keep x).sout b n = x.sout b n := rfl
@[simp] theorem State.sout_keepMem (s x : State) (b n : Nat) : (s.keepMem x).sout b n = x.sout b n := rfl
@[simp] theorem State.sout_setReg (s : State) (oa : Nat) (ow : Word) (b n : Nat) : (s.setReg oa ow).sout b n = s.sout b n := by
  simp [State.sout]
@[simp] theorem State.sout_wr (s : State) (oa ov : Nat) (b n : Nat) : (s.wr oa ov).sout b n = s.sout b n := by
  simp [State.sout]
@[simp] theorem State.sout_setFld (s : State) (oa olo olen ov : Nat) (b n : Nat) : (s.setFld oa olo olen ov).sout b n = s.sout b n := by
  simp [State.sout]
@[simp] theorem State.sout_setBit (s : State) (oa oi : Nat) (oc : Bool) (b n : Nat) : (s.setBit oa oi oc).sout b n = s.sout b n := by
  simp [State.sout]
@[simp] theorem State.sout_count (s : State) (oa ov : Nat) (b n : Nat) : (s.count oa ov).sout b n = s.sout b n := by
  simp [State.sout]
@[simp] theorem State.sout_bump (s : State) (oa : Nat) (b n : Nat) : (s.bump oa).sout b n = s.sout b n := by
  simp [State.sout]
@[simp] theorem State.sout_wr80 (s : State) (oa ov : Nat) (b n : Nat) : (s.wr80 oa ov).sout b n = s.sout b n := by
  simp [State.sout]
@[simp] theorem State.sout_wr64 (s : State) (oa ov : Nat) (b n : Nat) : (s.wr64 oa ov).sout b n = s.sout b n := by
  simp [State.sout]
@[simp] theorem State.sout_latchHealth (s : State) (opg oc : Nat) (b n : Nat) : (s.latchHealth opg oc).sout b n = s.sout b n := by
  simp [State.sout]
@[simp] theorem State.sout_fire (s : State) (ov : Nat) (b n : Nat) : (s.fire ov).sout b n = s.sout b n := by
  simp [State.sout]
@[simp] theorem State.sout_raiseAt (s : State) (opg oi opt od : Nat) (of : Bool) (b n : Nat) : (s.raiseAt opg oi opt od of).sout b n = s.sout b n := by
  simp [State.sout]
@[simp] theorem State.sout_raise (s : State) (opg oi : Nat) (b n : Nat) : (s.raise opg oi).sout b n = s.sout b n := by
  simp [State.sout]
@[simp] theorem State.sout_standing (s : State) (opg oc : Nat) (oon : Bool) (b n : Nat) : (s.standing opg oc oon).sout b n = s.sout b n := by
  simp [State.sout]
@[simp] theorem State.sout_category (s : State) (oc og : Nat) (oon : Bool) (b n : Nat) : (s.category oc og oon).sout b n = s.sout b n := by
  simp [State.sout]
@[simp] theorem State.sout_settle (s : State)  (b n : Nat) : (s.settle ).sout b n = s.sout b n := by
  simp [State.sout]
@[simp] theorem State.sout_arrive (s : State) (t : PT) (b n : Nat) : (s.arrive t).sout b n = s.sout b n := by
  simp [State.sout]

/-! ### Shots: only the sequencers change -/

theorem State.updShot_seqs (s : State) (o : Option Owner) (f : Shot → Shot) :
    s.updShot o f = { s with seqs := (s.updShot o f).seqs } := by
  unfold State.updShot
  split
  · rfl
  · split <;> rfl

@[simp] theorem State.updShot_pending (s : State) (o : Option Owner) (f : Shot → Shot) : (s.updShot o f).pending = s.pending := by rw [State.updShot_seqs]
@[simp] theorem State.updShot_variant (s : State) (o : Option Owner) (f : Shot → Shot) : (s.updShot o f).variant = s.variant := by rw [State.updShot_seqs]
@[simp] theorem State.updShot_clk (s : State) (o : Option Owner) (f : Shot → Shot) : (s.updShot o f).clk = s.clk := by rw [State.updShot_seqs]
@[simp] theorem State.updShot_regs (s : State) (o : Option Owner) (f : Shot → Shot) : (s.updShot o f).regs = s.regs := by rw [State.updShot_seqs]
@[simp] theorem State.updShot_shadow (s : State) (o : Option Owner) (f : Shot → Shot) : (s.updShot o f).shadow = s.shadow := by rw [State.updShot_seqs]
@[simp] theorem State.updShot_dirty (s : State) (o : Option Owner) (f : Shot → Shot) : (s.updShot o f).dirty = s.dirty := by rw [State.updShot_seqs]
@[simp] theorem State.updShot_latch (s : State) (o : Option Owner) (f : Shot → Shot) : (s.updShot o f).latch = s.latch := by rw [State.updShot_seqs]
@[simp] theorem State.updShot_hold (s : State) (o : Option Owner) (f : Shot → Shot) : (s.updShot o f).hold = s.hold := by rw [State.updShot_seqs]
@[simp] theorem State.updShot_commits (s : State) (o : Option Owner) (f : Shot → Shot) : (s.updShot o f).commits = s.commits := by rw [State.updShot_seqs]
@[simp] theorem State.updShot_ev (s : State) (o : Option Owner) (f : Shot → Shot) : (s.updShot o f).ev = s.ev := by rw [State.updShot_seqs]
@[simp] theorem State.updShot_mem (s : State) (o : Option Owner) (f : Shot → Shot) : (s.updShot o f).mem = s.mem := by rw [State.updShot_seqs]
@[simp] theorem State.updShot_poison (s : State) (o : Option Owner) (f : Shot → Shot) : (s.updShot o f).poison = s.poison := by rw [State.updShot_seqs]
@[simp] theorem State.updShot_queues (s : State) (o : Option Owner) (f : Shot → Shot) : (s.updShot o f).queues = s.queues := by rw [State.updShot_seqs]
@[simp] theorem State.updShot_flight (s : State) (o : Option Owner) (f : Shot → Shot) : (s.updShot o f).flight = s.flight := by rw [State.updShot_seqs]
@[simp] theorem State.updShot_edges (s : State) (o : Option Owner) (f : Shot → Shot) : (s.updShot o f).edges = s.edges := by rw [State.updShot_seqs]
@[simp] theorem State.updShot_barriers (s : State) (o : Option Owner) (f : Shot → Shot) : (s.updShot o f).barriers = s.barriers := by rw [State.updShot_seqs]
@[simp] theorem State.updShot_verdicts (s : State) (o : Option Owner) (f : Shot → Shot) : (s.updShot o f).verdicts = s.verdicts := by rw [State.updShot_seqs]
@[simp] theorem State.updShot_serial (s : State) (o : Option Owner) (f : Shot → Shot) : (s.updShot o f).serial = s.serial := by rw [State.updShot_seqs]
@[simp] theorem State.updShot_ridge (s : State) (o : Option Owner) (f : Shot → Shot) : (s.updShot o f).ridge = s.ridge := by rw [State.updShot_seqs]
@[simp] theorem State.updShot_pkgNum (s : State) (o : Option Owner) (f : Shot → Shot) : (s.updShot o f).pkgNum = s.pkgNum := by rw [State.updShot_seqs]
@[simp] theorem State.updShot_ptGen (s : State) (o : Option Owner) (f : Shot → Shot) : (s.updShot o f).ptGen = s.ptGen := by rw [State.updShot_seqs]
@[simp] theorem State.updShot_dmas (s : State) (o : Option Owner) (f : Shot → Shot) : (s.updShot o f).dmas = s.dmas := by rw [State.updShot_seqs]
@[simp] theorem State.updShot_tones (s : State) (o : Option Owner) (f : Shot → Shot) : (s.updShot o f).tones = s.tones := by rw [State.updShot_seqs]
@[simp] theorem State.updShot_touched (s : State) (o : Option Owner) (f : Shot → Shot) : (s.updShot o f).touched = s.touched := by rw [State.updShot_seqs]
@[simp] theorem State.updShot_dacHold (s : State) (o : Option Owner) (f : Shot → Shot) : (s.updShot o f).dacHold = s.dacHold := by rw [State.updShot_seqs]
@[simp] theorem State.updShot_dacAt (s : State) (o : Option Owner) (f : Shot → Shot) : (s.updShot o f).dacAt = s.dacAt := by rw [State.updShot_seqs]
@[simp] theorem State.updShot_streams (s : State) (o : Option Owner) (f : Shot → Shot) : (s.updShot o f).streams = s.streams := by rw [State.updShot_seqs]
@[simp] theorem State.updShot_failLog (s : State) (o : Option Owner) (f : Shot → Shot) : (s.updShot o f).failLog = s.failLog := by rw [State.updShot_seqs]
@[simp] theorem State.updShot_caps (s : State) (o : Option Owner) (f : Shot → Shot) : (s.updShot o f).caps = s.caps := by rw [State.updShot_seqs]
@[simp] theorem State.updShot_vseen (s : State) (o : Option Owner) (f : Shot → Shot) : (s.updShot o f).vseen = s.vseen := by rw [State.updShot_seqs]
@[simp] theorem State.updShot_tius (s : State) (o : Option Owner) (f : Shot → Shot) : (s.updShot o f).tius = s.tius := by rw [State.updShot_seqs]
@[simp] theorem State.updShot_fres (s : State) (o : Option Owner) (f : Shot → Shot) : (s.updShot o f).fres = s.fres := by rw [State.updShot_seqs]
@[simp] theorem State.updShot_stampIns (s : State) (o : Option Owner) (f : Shot → Shot) : (s.updShot o f).stampIns = s.stampIns := by rw [State.updShot_seqs]
@[simp] theorem State.updShot_edgeStamp (s : State) (o : Option Owner) (f : Shot → Shot) : (s.updShot o f).edgeStamp = s.edgeStamp := by rw [State.updShot_seqs]
@[simp] theorem State.updShot_recGap (s : State) (o : Option Owner) (f : Shot → Shot) : (s.updShot o f).recGap = s.recGap := by rw [State.updShot_seqs]
@[simp] theorem State.updShot_signQ (s : State) (o : Option Owner) (f : Shot → Shot) : (s.updShot o f).signQ = s.signQ := by rw [State.updShot_seqs]
@[simp] theorem State.updShot_signSeq (s : State) (o : Option Owner) (f : Shot → Shot) : (s.updShot o f).signSeq = s.signSeq := by rw [State.updShot_seqs]
@[simp] theorem State.updShot_recHeld (s : State) (o : Option Owner) (f : Shot → Shot) : (s.updShot o f).recHeld = s.recHeld := by rw [State.updShot_seqs]
@[simp] theorem State.updShot_drainPt (s : State) (o : Option Owner) (f : Shot → Shot) : (s.updShot o f).drainPt = s.drainPt := by rw [State.updShot_seqs]
@[simp] theorem State.updShot_wakes (s : State) (o : Option Owner) (f : Shot → Shot) : (s.updShot o f).wakes = s.wakes := by rw [State.updShot_seqs]
@[simp] theorem State.updShot_cals (s : State) (o : Option Owner) (f : Shot → Shot) : (s.updShot o f).cals = s.cals := by rw [State.updShot_seqs]
@[simp] theorem State.updShot_calInsts (s : State) (o : Option Owner) (f : Shot → Shot) : (s.updShot o f).calInsts = s.calInsts := by rw [State.updShot_seqs]
@[simp] theorem State.updShot_tb (s : State) (o : Option Owner) (f : Shot → Shot) : (s.updShot o f).tb = s.tb := by rw [State.updShot_seqs]
@[simp] theorem State.updShot_sills (s : State) (o : Option Owner) (f : Shot → Shot) : (s.updShot o f).sills = s.sills := by rw [State.updShot_seqs]
@[simp] theorem State.updShot_takeovers (s : State) (o : Option Owner) (f : Shot → Shot) : (s.updShot o f).takeovers = s.takeovers := by rw [State.updShot_seqs]
@[simp] theorem State.updShot_souts (s : State) (o : Option Owner) (f : Shot → Shot) : (s.updShot o f).souts = s.souts := by rw [State.updShot_seqs]
@[simp] theorem State.updShot_ptOff (s : State) (o : Option Owner) (f : Shot → Shot) : (s.updShot o f).ptOff = s.ptOff := by rw [State.updShot_seqs]
@[simp] theorem State.updShot_tree (s : State) (o : Option Owner) (f : Shot → Shot) : (s.updShot o f).tree = s.tree := by rw [State.updShot_seqs]
@[simp] theorem State.updShot_ports (s : State) (o : Option Owner) (f : Shot → Shot) : (s.updShot o f).ports = s.ports := by rw [State.updShot_seqs]
@[simp] theorem State.updShot_meters (s : State) (o : Option Owner) (f : Shot → Shot) : (s.updShot o f).meters = s.meters := by rw [State.updShot_seqs]
@[simp] theorem State.updShot_account (s : State) (o : Option Owner) (f : Shot → Shot) : (s.updShot o f).account = s.account := by rw [State.updShot_seqs]
@[simp] theorem State.updShot_boot (s : State) (o : Option Owner) (f : Shot → Shot) : (s.updShot o f).boot = s.boot := by rw [State.updShot_seqs]
@[simp] theorem State.updShot_spdm (s : State) (o : Option Owner) (f : Shot → Shot) : (s.updShot o f).spdm = s.spdm := by rw [State.updShot_seqs]
@[simp] theorem State.updShot_tunnels (s : State) (o : Option Owner) (f : Shot → Shot) : (s.updShot o f).tunnels = s.tunnels := by rw [State.updShot_seqs]
@[simp] theorem State.updShot_tempOff (s : State) (o : Option Owner) (f : Shot → Shot) : (s.updShot o f).tempOff = s.tempOff := by rw [State.updShot_seqs]
@[simp] theorem State.updShot_readyOff (s : State) (o : Option Owner) (f : Shot → Shot) : (s.updShot o f).readyOff = s.readyOff := by rw [State.updShot_seqs]
@[simp] theorem State.updShot_free (s : State) (o : Option Owner) (f : Shot → Shot) : (s.updShot o f).free = s.free := by rw [State.updShot_seqs]
@[simp] theorem State.reg_updShot (s : State) (o : Option Owner) (f : Shot → Shot) (a : Nat) : (s.updShot o f).reg a = s.reg a := by rw [State.updShot_seqs]; rfl
@[simp] theorem State.rd_updShot (s : State) (o : Option Owner) (f : Shot → Shot) (a : Nat) : (s.updShot o f).rd a = s.rd a := by rw [State.updShot_seqs]; rfl
@[simp] theorem State.fld_updShot (s : State) (o : Option Owner) (f : Shot → Shot) (a lo len : Nat) : (s.updShot o f).fld a lo len = s.fld a lo len := by rw [State.updShot_seqs]; rfl
@[simp] theorem State.bit_updShot (s : State) (o : Option Owner) (f : Shot → Shot) (a j : Nat) : (s.updShot o f).bit a j = s.bit a j := by rw [State.updShot_seqs]; rfl
@[simp] theorem State.edge_updShot (s : State) (o : Option Owner) (f : Shot → Shot) (b' ch' : Nat) : (s.updShot o f).edge b' ch' = s.edge b' ch' := by rw [State.updShot_seqs]; rfl
@[simp] theorem State.queue_updShot (s : State) (o : Option Owner) (f : Shot → Shot) (lane' : Nat) : (s.updShot o f).queue lane' = s.queue lane' := by rw [State.updShot_seqs]; rfl
@[simp] theorem State.inFlight_updShot (s : State) (o : Option Owner) (f : Shot → Shot) (lane' : Nat) : (s.updShot o f).inFlight lane' = s.inFlight lane' := by rw [State.updShot_seqs]; rfl
@[simp] theorem State.tone_updShot (s : State) (o : Option Owner) (f : Shot → Shot) (lane' : Nat) : (s.updShot o f).tone lane' = s.tone lane' := by rw [State.updShot_seqs]; rfl
@[simp] theorem State.cap_updShot (s : State) (o : Option Owner) (f : Shot → Shot) (b' i' : Nat) : (s.updShot o f).cap b' i' = s.cap b' i' := by rw [State.updShot_seqs]; rfl
@[simp] theorem State.dma_updShot (s : State) (o : Option Owner) (f : Shot → Shot) (b' e' : Nat) : (s.updShot o f).dma b' e' = s.dma b' e' := by rw [State.updShot_seqs]; rfl
@[simp] theorem State.stream_updShot (s : State) (o : Option Owner) (f : Shot → Shot) (b' n' : Nat) : (s.updShot o f).stream b' n' = s.stream b' n' := by rw [State.updShot_seqs]; rfl
@[simp] theorem State.drainAt_updShot (s : State) (o : Option Owner) (f : Shot → Shot) (k' : Nat) : (s.updShot o f).drainAt k' = s.drainAt k' := by rw [State.updShot_seqs]; rfl
@[simp] theorem State.cal_updShot (s : State) (o : Option Owner) (f : Shot → Shot) (b' : Nat) : (s.updShot o f).cal b' = s.cal b' := by rw [State.updShot_seqs]; rfl
@[simp] theorem State.calInst_updShot (s : State) (o : Option Owner) (f : Shot → Shot) (b' item' inst' : Nat) : (s.updShot o f).calInst b' item' inst' = s.calInst b' item' inst' := by rw [State.updShot_seqs]; rfl
@[simp] theorem State.sill_updShot (s : State) (o : Option Owner) (f : Shot → Shot) (b' k' : Nat) : (s.updShot o f).sill b' k' = s.sill b' k' := by rw [State.updShot_seqs]; rfl
@[simp] theorem State.port_updShot (s : State) (o : Option Owner) (f : Shot → Shot) (b' k' : Nat) : (s.updShot o f).port b' k' = s.port b' k' := by rw [State.updShot_seqs]; rfl
@[simp] theorem State.tiu_updShot (s : State) (o : Option Owner) (f : Shot → Shot) (b' u' : Nat) : (s.updShot o f).tiu b' u' = s.tiu b' u' := by rw [State.updShot_seqs]; rfl
@[simp] theorem State.fre_updShot (s : State) (o : Option Owner) (f : Shot → Shot) (b' e' : Nat) : (s.updShot o f).fre b' e' = s.fre b' e' := by rw [State.updShot_seqs]; rfl
@[simp] theorem State.stampIn_updShot (s : State) (o : Option Owner) (f : Shot → Shot) (b' i' : Nat) : (s.updShot o f).stampIn b' i' = s.stampIn b' i' := by rw [State.updShot_seqs]; rfl
@[simp] theorem State.meter_updShot (s : State) (o : Option Owner) (f : Shot → Shot) (b' : Nat) : (s.updShot o f).meter b' = s.meter b' := by rw [State.updShot_seqs]; rfl
@[simp] theorem State.takeover_updShot (s : State) (o : Option Owner) (f : Shot → Shot) (b' : Nat) : (s.updShot o f).takeover b' = s.takeover b' := by rw [State.updShot_seqs]; rfl
@[simp] theorem State.barrier_updShot (s : State) (o : Option Owner) (f : Shot → Shot) (i' : Nat) : (s.updShot o f).barrier i' = s.barrier i' := by rw [State.updShot_seqs]; rfl
@[simp] theorem State.mbx_updShot (s : State) (o : Option Owner) (f : Shot → Shot) (b' : Nat) : (s.updShot o f).mbx b' = s.mbx b' := by rw [State.updShot_seqs]; rfl
@[simp] theorem State.sout_updShot (s : State) (o : Option Owner) (f : Shot → Shot) (b' n' : Nat) : (s.updShot o f).sout b' n' = s.sout b' n' := by rw [State.updShot_seqs]; rfl
@[simp] theorem State.flagShot_pending (s : State) (o : Option Owner) (n : Nat) : (s.flagShot o n).pending = s.pending := by simp [State.flagShot]
@[simp] theorem State.flagShot_variant (s : State) (o : Option Owner) (n : Nat) : (s.flagShot o n).variant = s.variant := by simp [State.flagShot]
@[simp] theorem State.flagShot_clk (s : State) (o : Option Owner) (n : Nat) : (s.flagShot o n).clk = s.clk := by simp [State.flagShot]
@[simp] theorem State.flagShot_regs (s : State) (o : Option Owner) (n : Nat) : (s.flagShot o n).regs = s.regs := by simp [State.flagShot]
@[simp] theorem State.flagShot_shadow (s : State) (o : Option Owner) (n : Nat) : (s.flagShot o n).shadow = s.shadow := by simp [State.flagShot]
@[simp] theorem State.flagShot_dirty (s : State) (o : Option Owner) (n : Nat) : (s.flagShot o n).dirty = s.dirty := by simp [State.flagShot]
@[simp] theorem State.flagShot_latch (s : State) (o : Option Owner) (n : Nat) : (s.flagShot o n).latch = s.latch := by simp [State.flagShot]
@[simp] theorem State.flagShot_hold (s : State) (o : Option Owner) (n : Nat) : (s.flagShot o n).hold = s.hold := by simp [State.flagShot]
@[simp] theorem State.flagShot_commits (s : State) (o : Option Owner) (n : Nat) : (s.flagShot o n).commits = s.commits := by simp [State.flagShot]
@[simp] theorem State.flagShot_ev (s : State) (o : Option Owner) (n : Nat) : (s.flagShot o n).ev = s.ev := by simp [State.flagShot]
@[simp] theorem State.flagShot_mem (s : State) (o : Option Owner) (n : Nat) : (s.flagShot o n).mem = s.mem := by simp [State.flagShot]
@[simp] theorem State.flagShot_poison (s : State) (o : Option Owner) (n : Nat) : (s.flagShot o n).poison = s.poison := by simp [State.flagShot]
@[simp] theorem State.flagShot_queues (s : State) (o : Option Owner) (n : Nat) : (s.flagShot o n).queues = s.queues := by simp [State.flagShot]
@[simp] theorem State.flagShot_flight (s : State) (o : Option Owner) (n : Nat) : (s.flagShot o n).flight = s.flight := by simp [State.flagShot]
@[simp] theorem State.flagShot_edges (s : State) (o : Option Owner) (n : Nat) : (s.flagShot o n).edges = s.edges := by simp [State.flagShot]
@[simp] theorem State.flagShot_barriers (s : State) (o : Option Owner) (n : Nat) : (s.flagShot o n).barriers = s.barriers := by simp [State.flagShot]
@[simp] theorem State.flagShot_verdicts (s : State) (o : Option Owner) (n : Nat) : (s.flagShot o n).verdicts = s.verdicts := by simp [State.flagShot]
@[simp] theorem State.flagShot_serial (s : State) (o : Option Owner) (n : Nat) : (s.flagShot o n).serial = s.serial := by simp [State.flagShot]
@[simp] theorem State.flagShot_ridge (s : State) (o : Option Owner) (n : Nat) : (s.flagShot o n).ridge = s.ridge := by simp [State.flagShot]
@[simp] theorem State.flagShot_pkgNum (s : State) (o : Option Owner) (n : Nat) : (s.flagShot o n).pkgNum = s.pkgNum := by simp [State.flagShot]
@[simp] theorem State.flagShot_ptGen (s : State) (o : Option Owner) (n : Nat) : (s.flagShot o n).ptGen = s.ptGen := by simp [State.flagShot]
@[simp] theorem State.flagShot_dmas (s : State) (o : Option Owner) (n : Nat) : (s.flagShot o n).dmas = s.dmas := by simp [State.flagShot]
@[simp] theorem State.flagShot_tones (s : State) (o : Option Owner) (n : Nat) : (s.flagShot o n).tones = s.tones := by simp [State.flagShot]
@[simp] theorem State.flagShot_touched (s : State) (o : Option Owner) (n : Nat) : (s.flagShot o n).touched = s.touched := by simp [State.flagShot]
@[simp] theorem State.flagShot_dacHold (s : State) (o : Option Owner) (n : Nat) : (s.flagShot o n).dacHold = s.dacHold := by simp [State.flagShot]
@[simp] theorem State.flagShot_dacAt (s : State) (o : Option Owner) (n : Nat) : (s.flagShot o n).dacAt = s.dacAt := by simp [State.flagShot]
@[simp] theorem State.flagShot_streams (s : State) (o : Option Owner) (n : Nat) : (s.flagShot o n).streams = s.streams := by simp [State.flagShot]
@[simp] theorem State.flagShot_failLog (s : State) (o : Option Owner) (n : Nat) : (s.flagShot o n).failLog = s.failLog := by simp [State.flagShot]
@[simp] theorem State.flagShot_caps (s : State) (o : Option Owner) (n : Nat) : (s.flagShot o n).caps = s.caps := by simp [State.flagShot]
@[simp] theorem State.flagShot_vseen (s : State) (o : Option Owner) (n : Nat) : (s.flagShot o n).vseen = s.vseen := by simp [State.flagShot]
@[simp] theorem State.flagShot_tius (s : State) (o : Option Owner) (n : Nat) : (s.flagShot o n).tius = s.tius := by simp [State.flagShot]
@[simp] theorem State.flagShot_fres (s : State) (o : Option Owner) (n : Nat) : (s.flagShot o n).fres = s.fres := by simp [State.flagShot]
@[simp] theorem State.flagShot_stampIns (s : State) (o : Option Owner) (n : Nat) : (s.flagShot o n).stampIns = s.stampIns := by simp [State.flagShot]
@[simp] theorem State.flagShot_edgeStamp (s : State) (o : Option Owner) (n : Nat) : (s.flagShot o n).edgeStamp = s.edgeStamp := by simp [State.flagShot]
@[simp] theorem State.flagShot_recGap (s : State) (o : Option Owner) (n : Nat) : (s.flagShot o n).recGap = s.recGap := by simp [State.flagShot]
@[simp] theorem State.flagShot_signQ (s : State) (o : Option Owner) (n : Nat) : (s.flagShot o n).signQ = s.signQ := by simp [State.flagShot]
@[simp] theorem State.flagShot_signSeq (s : State) (o : Option Owner) (n : Nat) : (s.flagShot o n).signSeq = s.signSeq := by simp [State.flagShot]
@[simp] theorem State.flagShot_recHeld (s : State) (o : Option Owner) (n : Nat) : (s.flagShot o n).recHeld = s.recHeld := by simp [State.flagShot]
@[simp] theorem State.flagShot_drainPt (s : State) (o : Option Owner) (n : Nat) : (s.flagShot o n).drainPt = s.drainPt := by simp [State.flagShot]
@[simp] theorem State.flagShot_wakes (s : State) (o : Option Owner) (n : Nat) : (s.flagShot o n).wakes = s.wakes := by simp [State.flagShot]
@[simp] theorem State.flagShot_cals (s : State) (o : Option Owner) (n : Nat) : (s.flagShot o n).cals = s.cals := by simp [State.flagShot]
@[simp] theorem State.flagShot_calInsts (s : State) (o : Option Owner) (n : Nat) : (s.flagShot o n).calInsts = s.calInsts := by simp [State.flagShot]
@[simp] theorem State.flagShot_tb (s : State) (o : Option Owner) (n : Nat) : (s.flagShot o n).tb = s.tb := by simp [State.flagShot]
@[simp] theorem State.flagShot_sills (s : State) (o : Option Owner) (n : Nat) : (s.flagShot o n).sills = s.sills := by simp [State.flagShot]
@[simp] theorem State.flagShot_takeovers (s : State) (o : Option Owner) (n : Nat) : (s.flagShot o n).takeovers = s.takeovers := by simp [State.flagShot]
@[simp] theorem State.flagShot_souts (s : State) (o : Option Owner) (n : Nat) : (s.flagShot o n).souts = s.souts := by simp [State.flagShot]
@[simp] theorem State.flagShot_ptOff (s : State) (o : Option Owner) (n : Nat) : (s.flagShot o n).ptOff = s.ptOff := by simp [State.flagShot]
@[simp] theorem State.flagShot_tree (s : State) (o : Option Owner) (n : Nat) : (s.flagShot o n).tree = s.tree := by simp [State.flagShot]
@[simp] theorem State.flagShot_ports (s : State) (o : Option Owner) (n : Nat) : (s.flagShot o n).ports = s.ports := by simp [State.flagShot]
@[simp] theorem State.flagShot_meters (s : State) (o : Option Owner) (n : Nat) : (s.flagShot o n).meters = s.meters := by simp [State.flagShot]
@[simp] theorem State.flagShot_account (s : State) (o : Option Owner) (n : Nat) : (s.flagShot o n).account = s.account := by simp [State.flagShot]
@[simp] theorem State.flagShot_boot (s : State) (o : Option Owner) (n : Nat) : (s.flagShot o n).boot = s.boot := by simp [State.flagShot]
@[simp] theorem State.flagShot_spdm (s : State) (o : Option Owner) (n : Nat) : (s.flagShot o n).spdm = s.spdm := by simp [State.flagShot]
@[simp] theorem State.flagShot_tunnels (s : State) (o : Option Owner) (n : Nat) : (s.flagShot o n).tunnels = s.tunnels := by simp [State.flagShot]
@[simp] theorem State.flagShot_tempOff (s : State) (o : Option Owner) (n : Nat) : (s.flagShot o n).tempOff = s.tempOff := by simp [State.flagShot]
@[simp] theorem State.flagShot_readyOff (s : State) (o : Option Owner) (n : Nat) : (s.flagShot o n).readyOff = s.readyOff := by simp [State.flagShot]
@[simp] theorem State.flagShot_free (s : State) (o : Option Owner) (n : Nat) : (s.flagShot o n).free = s.free := by simp [State.flagShot]
@[simp] theorem State.reg_flagShot (s : State) (o : Option Owner) (n : Nat) (a : Nat) : (s.flagShot o n).reg a = s.reg a := by simp [State.flagShot]
@[simp] theorem State.rd_flagShot (s : State) (o : Option Owner) (n : Nat) (a : Nat) : (s.flagShot o n).rd a = s.rd a := by simp [State.flagShot]
@[simp] theorem State.fld_flagShot (s : State) (o : Option Owner) (n : Nat) (a lo len : Nat) : (s.flagShot o n).fld a lo len = s.fld a lo len := by simp [State.flagShot]
@[simp] theorem State.bit_flagShot (s : State) (o : Option Owner) (n : Nat) (a j : Nat) : (s.flagShot o n).bit a j = s.bit a j := by simp [State.flagShot]
@[simp] theorem State.edge_flagShot (s : State) (o : Option Owner) (n : Nat) (b' ch' : Nat) : (s.flagShot o n).edge b' ch' = s.edge b' ch' := by simp [State.flagShot]
@[simp] theorem State.queue_flagShot (s : State) (o : Option Owner) (n : Nat) (lane' : Nat) : (s.flagShot o n).queue lane' = s.queue lane' := by simp [State.flagShot]
@[simp] theorem State.inFlight_flagShot (s : State) (o : Option Owner) (n : Nat) (lane' : Nat) : (s.flagShot o n).inFlight lane' = s.inFlight lane' := by simp [State.flagShot]
@[simp] theorem State.tone_flagShot (s : State) (o : Option Owner) (n : Nat) (lane' : Nat) : (s.flagShot o n).tone lane' = s.tone lane' := by simp [State.flagShot]
@[simp] theorem State.cap_flagShot (s : State) (o : Option Owner) (n : Nat) (b' i' : Nat) : (s.flagShot o n).cap b' i' = s.cap b' i' := by simp [State.flagShot]
@[simp] theorem State.dma_flagShot (s : State) (o : Option Owner) (n : Nat) (b' e' : Nat) : (s.flagShot o n).dma b' e' = s.dma b' e' := by simp [State.flagShot]
@[simp] theorem State.stream_flagShot (s : State) (o : Option Owner) (n : Nat) (b' n' : Nat) : (s.flagShot o n).stream b' n' = s.stream b' n' := by simp [State.flagShot]
@[simp] theorem State.drainAt_flagShot (s : State) (o : Option Owner) (n : Nat) (k' : Nat) : (s.flagShot o n).drainAt k' = s.drainAt k' := by simp [State.flagShot]
@[simp] theorem State.cal_flagShot (s : State) (o : Option Owner) (n : Nat) (b' : Nat) : (s.flagShot o n).cal b' = s.cal b' := by simp [State.flagShot]
@[simp] theorem State.calInst_flagShot (s : State) (o : Option Owner) (n : Nat) (b' item' inst' : Nat) : (s.flagShot o n).calInst b' item' inst' = s.calInst b' item' inst' := by simp [State.flagShot]
@[simp] theorem State.sill_flagShot (s : State) (o : Option Owner) (n : Nat) (b' k' : Nat) : (s.flagShot o n).sill b' k' = s.sill b' k' := by simp [State.flagShot]
@[simp] theorem State.port_flagShot (s : State) (o : Option Owner) (n : Nat) (b' k' : Nat) : (s.flagShot o n).port b' k' = s.port b' k' := by simp [State.flagShot]
@[simp] theorem State.tiu_flagShot (s : State) (o : Option Owner) (n : Nat) (b' u' : Nat) : (s.flagShot o n).tiu b' u' = s.tiu b' u' := by simp [State.flagShot]
@[simp] theorem State.fre_flagShot (s : State) (o : Option Owner) (n : Nat) (b' e' : Nat) : (s.flagShot o n).fre b' e' = s.fre b' e' := by simp [State.flagShot]
@[simp] theorem State.stampIn_flagShot (s : State) (o : Option Owner) (n : Nat) (b' i' : Nat) : (s.flagShot o n).stampIn b' i' = s.stampIn b' i' := by simp [State.flagShot]
@[simp] theorem State.meter_flagShot (s : State) (o : Option Owner) (n : Nat) (b' : Nat) : (s.flagShot o n).meter b' = s.meter b' := by simp [State.flagShot]
@[simp] theorem State.takeover_flagShot (s : State) (o : Option Owner) (n : Nat) (b' : Nat) : (s.flagShot o n).takeover b' = s.takeover b' := by simp [State.flagShot]
@[simp] theorem State.barrier_flagShot (s : State) (o : Option Owner) (n : Nat) (i' : Nat) : (s.flagShot o n).barrier i' = s.barrier i' := by simp [State.flagShot]
@[simp] theorem State.mbx_flagShot (s : State) (o : Option Owner) (n : Nat) (b' : Nat) : (s.flagShot o n).mbx b' = s.mbx b' := by simp [State.flagShot]
@[simp] theorem State.sout_flagShot (s : State) (o : Option Owner) (n : Nat) (b' n' : Nat) : (s.flagShot o n).sout b' n' = s.sout b' n' := by simp [State.flagShot]
@[simp] theorem State.noteEff_pending (s : State) (o : Option Owner) (n : Nat) : (s.noteEff o n).pending = s.pending := by simp [State.noteEff]
@[simp] theorem State.noteEff_variant (s : State) (o : Option Owner) (n : Nat) : (s.noteEff o n).variant = s.variant := by simp [State.noteEff]
@[simp] theorem State.noteEff_clk (s : State) (o : Option Owner) (n : Nat) : (s.noteEff o n).clk = s.clk := by simp [State.noteEff]
@[simp] theorem State.noteEff_regs (s : State) (o : Option Owner) (n : Nat) : (s.noteEff o n).regs = s.regs := by simp [State.noteEff]
@[simp] theorem State.noteEff_shadow (s : State) (o : Option Owner) (n : Nat) : (s.noteEff o n).shadow = s.shadow := by simp [State.noteEff]
@[simp] theorem State.noteEff_dirty (s : State) (o : Option Owner) (n : Nat) : (s.noteEff o n).dirty = s.dirty := by simp [State.noteEff]
@[simp] theorem State.noteEff_latch (s : State) (o : Option Owner) (n : Nat) : (s.noteEff o n).latch = s.latch := by simp [State.noteEff]
@[simp] theorem State.noteEff_hold (s : State) (o : Option Owner) (n : Nat) : (s.noteEff o n).hold = s.hold := by simp [State.noteEff]
@[simp] theorem State.noteEff_commits (s : State) (o : Option Owner) (n : Nat) : (s.noteEff o n).commits = s.commits := by simp [State.noteEff]
@[simp] theorem State.noteEff_ev (s : State) (o : Option Owner) (n : Nat) : (s.noteEff o n).ev = s.ev := by simp [State.noteEff]
@[simp] theorem State.noteEff_mem (s : State) (o : Option Owner) (n : Nat) : (s.noteEff o n).mem = s.mem := by simp [State.noteEff]
@[simp] theorem State.noteEff_poison (s : State) (o : Option Owner) (n : Nat) : (s.noteEff o n).poison = s.poison := by simp [State.noteEff]
@[simp] theorem State.noteEff_queues (s : State) (o : Option Owner) (n : Nat) : (s.noteEff o n).queues = s.queues := by simp [State.noteEff]
@[simp] theorem State.noteEff_flight (s : State) (o : Option Owner) (n : Nat) : (s.noteEff o n).flight = s.flight := by simp [State.noteEff]
@[simp] theorem State.noteEff_edges (s : State) (o : Option Owner) (n : Nat) : (s.noteEff o n).edges = s.edges := by simp [State.noteEff]
@[simp] theorem State.noteEff_barriers (s : State) (o : Option Owner) (n : Nat) : (s.noteEff o n).barriers = s.barriers := by simp [State.noteEff]
@[simp] theorem State.noteEff_verdicts (s : State) (o : Option Owner) (n : Nat) : (s.noteEff o n).verdicts = s.verdicts := by simp [State.noteEff]
@[simp] theorem State.noteEff_serial (s : State) (o : Option Owner) (n : Nat) : (s.noteEff o n).serial = s.serial := by simp [State.noteEff]
@[simp] theorem State.noteEff_ridge (s : State) (o : Option Owner) (n : Nat) : (s.noteEff o n).ridge = s.ridge := by simp [State.noteEff]
@[simp] theorem State.noteEff_pkgNum (s : State) (o : Option Owner) (n : Nat) : (s.noteEff o n).pkgNum = s.pkgNum := by simp [State.noteEff]
@[simp] theorem State.noteEff_ptGen (s : State) (o : Option Owner) (n : Nat) : (s.noteEff o n).ptGen = s.ptGen := by simp [State.noteEff]
@[simp] theorem State.noteEff_dmas (s : State) (o : Option Owner) (n : Nat) : (s.noteEff o n).dmas = s.dmas := by simp [State.noteEff]
@[simp] theorem State.noteEff_tones (s : State) (o : Option Owner) (n : Nat) : (s.noteEff o n).tones = s.tones := by simp [State.noteEff]
@[simp] theorem State.noteEff_touched (s : State) (o : Option Owner) (n : Nat) : (s.noteEff o n).touched = s.touched := by simp [State.noteEff]
@[simp] theorem State.noteEff_dacHold (s : State) (o : Option Owner) (n : Nat) : (s.noteEff o n).dacHold = s.dacHold := by simp [State.noteEff]
@[simp] theorem State.noteEff_dacAt (s : State) (o : Option Owner) (n : Nat) : (s.noteEff o n).dacAt = s.dacAt := by simp [State.noteEff]
@[simp] theorem State.noteEff_streams (s : State) (o : Option Owner) (n : Nat) : (s.noteEff o n).streams = s.streams := by simp [State.noteEff]
@[simp] theorem State.noteEff_failLog (s : State) (o : Option Owner) (n : Nat) : (s.noteEff o n).failLog = s.failLog := by simp [State.noteEff]
@[simp] theorem State.noteEff_caps (s : State) (o : Option Owner) (n : Nat) : (s.noteEff o n).caps = s.caps := by simp [State.noteEff]
@[simp] theorem State.noteEff_vseen (s : State) (o : Option Owner) (n : Nat) : (s.noteEff o n).vseen = s.vseen := by simp [State.noteEff]
@[simp] theorem State.noteEff_tius (s : State) (o : Option Owner) (n : Nat) : (s.noteEff o n).tius = s.tius := by simp [State.noteEff]
@[simp] theorem State.noteEff_fres (s : State) (o : Option Owner) (n : Nat) : (s.noteEff o n).fres = s.fres := by simp [State.noteEff]
@[simp] theorem State.noteEff_stampIns (s : State) (o : Option Owner) (n : Nat) : (s.noteEff o n).stampIns = s.stampIns := by simp [State.noteEff]
@[simp] theorem State.noteEff_edgeStamp (s : State) (o : Option Owner) (n : Nat) : (s.noteEff o n).edgeStamp = s.edgeStamp := by simp [State.noteEff]
@[simp] theorem State.noteEff_recGap (s : State) (o : Option Owner) (n : Nat) : (s.noteEff o n).recGap = s.recGap := by simp [State.noteEff]
@[simp] theorem State.noteEff_signQ (s : State) (o : Option Owner) (n : Nat) : (s.noteEff o n).signQ = s.signQ := by simp [State.noteEff]
@[simp] theorem State.noteEff_signSeq (s : State) (o : Option Owner) (n : Nat) : (s.noteEff o n).signSeq = s.signSeq := by simp [State.noteEff]
@[simp] theorem State.noteEff_recHeld (s : State) (o : Option Owner) (n : Nat) : (s.noteEff o n).recHeld = s.recHeld := by simp [State.noteEff]
@[simp] theorem State.noteEff_drainPt (s : State) (o : Option Owner) (n : Nat) : (s.noteEff o n).drainPt = s.drainPt := by simp [State.noteEff]
@[simp] theorem State.noteEff_wakes (s : State) (o : Option Owner) (n : Nat) : (s.noteEff o n).wakes = s.wakes := by simp [State.noteEff]
@[simp] theorem State.noteEff_cals (s : State) (o : Option Owner) (n : Nat) : (s.noteEff o n).cals = s.cals := by simp [State.noteEff]
@[simp] theorem State.noteEff_calInsts (s : State) (o : Option Owner) (n : Nat) : (s.noteEff o n).calInsts = s.calInsts := by simp [State.noteEff]
@[simp] theorem State.noteEff_tb (s : State) (o : Option Owner) (n : Nat) : (s.noteEff o n).tb = s.tb := by simp [State.noteEff]
@[simp] theorem State.noteEff_sills (s : State) (o : Option Owner) (n : Nat) : (s.noteEff o n).sills = s.sills := by simp [State.noteEff]
@[simp] theorem State.noteEff_takeovers (s : State) (o : Option Owner) (n : Nat) : (s.noteEff o n).takeovers = s.takeovers := by simp [State.noteEff]
@[simp] theorem State.noteEff_souts (s : State) (o : Option Owner) (n : Nat) : (s.noteEff o n).souts = s.souts := by simp [State.noteEff]
@[simp] theorem State.noteEff_ptOff (s : State) (o : Option Owner) (n : Nat) : (s.noteEff o n).ptOff = s.ptOff := by simp [State.noteEff]
@[simp] theorem State.noteEff_tree (s : State) (o : Option Owner) (n : Nat) : (s.noteEff o n).tree = s.tree := by simp [State.noteEff]
@[simp] theorem State.noteEff_ports (s : State) (o : Option Owner) (n : Nat) : (s.noteEff o n).ports = s.ports := by simp [State.noteEff]
@[simp] theorem State.noteEff_meters (s : State) (o : Option Owner) (n : Nat) : (s.noteEff o n).meters = s.meters := by simp [State.noteEff]
@[simp] theorem State.noteEff_account (s : State) (o : Option Owner) (n : Nat) : (s.noteEff o n).account = s.account := by simp [State.noteEff]
@[simp] theorem State.noteEff_boot (s : State) (o : Option Owner) (n : Nat) : (s.noteEff o n).boot = s.boot := by simp [State.noteEff]
@[simp] theorem State.noteEff_spdm (s : State) (o : Option Owner) (n : Nat) : (s.noteEff o n).spdm = s.spdm := by simp [State.noteEff]
@[simp] theorem State.noteEff_tunnels (s : State) (o : Option Owner) (n : Nat) : (s.noteEff o n).tunnels = s.tunnels := by simp [State.noteEff]
@[simp] theorem State.noteEff_tempOff (s : State) (o : Option Owner) (n : Nat) : (s.noteEff o n).tempOff = s.tempOff := by simp [State.noteEff]
@[simp] theorem State.noteEff_readyOff (s : State) (o : Option Owner) (n : Nat) : (s.noteEff o n).readyOff = s.readyOff := by simp [State.noteEff]
@[simp] theorem State.noteEff_free (s : State) (o : Option Owner) (n : Nat) : (s.noteEff o n).free = s.free := by simp [State.noteEff]
@[simp] theorem State.reg_noteEff (s : State) (o : Option Owner) (n : Nat) (a : Nat) : (s.noteEff o n).reg a = s.reg a := by simp [State.noteEff]
@[simp] theorem State.rd_noteEff (s : State) (o : Option Owner) (n : Nat) (a : Nat) : (s.noteEff o n).rd a = s.rd a := by simp [State.noteEff]
@[simp] theorem State.fld_noteEff (s : State) (o : Option Owner) (n : Nat) (a lo len : Nat) : (s.noteEff o n).fld a lo len = s.fld a lo len := by simp [State.noteEff]
@[simp] theorem State.bit_noteEff (s : State) (o : Option Owner) (n : Nat) (a j : Nat) : (s.noteEff o n).bit a j = s.bit a j := by simp [State.noteEff]
@[simp] theorem State.edge_noteEff (s : State) (o : Option Owner) (n : Nat) (b' ch' : Nat) : (s.noteEff o n).edge b' ch' = s.edge b' ch' := by simp [State.noteEff]
@[simp] theorem State.queue_noteEff (s : State) (o : Option Owner) (n : Nat) (lane' : Nat) : (s.noteEff o n).queue lane' = s.queue lane' := by simp [State.noteEff]
@[simp] theorem State.inFlight_noteEff (s : State) (o : Option Owner) (n : Nat) (lane' : Nat) : (s.noteEff o n).inFlight lane' = s.inFlight lane' := by simp [State.noteEff]
@[simp] theorem State.tone_noteEff (s : State) (o : Option Owner) (n : Nat) (lane' : Nat) : (s.noteEff o n).tone lane' = s.tone lane' := by simp [State.noteEff]
@[simp] theorem State.cap_noteEff (s : State) (o : Option Owner) (n : Nat) (b' i' : Nat) : (s.noteEff o n).cap b' i' = s.cap b' i' := by simp [State.noteEff]
@[simp] theorem State.dma_noteEff (s : State) (o : Option Owner) (n : Nat) (b' e' : Nat) : (s.noteEff o n).dma b' e' = s.dma b' e' := by simp [State.noteEff]
@[simp] theorem State.stream_noteEff (s : State) (o : Option Owner) (n : Nat) (b' n' : Nat) : (s.noteEff o n).stream b' n' = s.stream b' n' := by simp [State.noteEff]
@[simp] theorem State.drainAt_noteEff (s : State) (o : Option Owner) (n : Nat) (k' : Nat) : (s.noteEff o n).drainAt k' = s.drainAt k' := by simp [State.noteEff]
@[simp] theorem State.cal_noteEff (s : State) (o : Option Owner) (n : Nat) (b' : Nat) : (s.noteEff o n).cal b' = s.cal b' := by simp [State.noteEff]
@[simp] theorem State.calInst_noteEff (s : State) (o : Option Owner) (n : Nat) (b' item' inst' : Nat) : (s.noteEff o n).calInst b' item' inst' = s.calInst b' item' inst' := by simp [State.noteEff]
@[simp] theorem State.sill_noteEff (s : State) (o : Option Owner) (n : Nat) (b' k' : Nat) : (s.noteEff o n).sill b' k' = s.sill b' k' := by simp [State.noteEff]
@[simp] theorem State.port_noteEff (s : State) (o : Option Owner) (n : Nat) (b' k' : Nat) : (s.noteEff o n).port b' k' = s.port b' k' := by simp [State.noteEff]
@[simp] theorem State.tiu_noteEff (s : State) (o : Option Owner) (n : Nat) (b' u' : Nat) : (s.noteEff o n).tiu b' u' = s.tiu b' u' := by simp [State.noteEff]
@[simp] theorem State.fre_noteEff (s : State) (o : Option Owner) (n : Nat) (b' e' : Nat) : (s.noteEff o n).fre b' e' = s.fre b' e' := by simp [State.noteEff]
@[simp] theorem State.stampIn_noteEff (s : State) (o : Option Owner) (n : Nat) (b' i' : Nat) : (s.noteEff o n).stampIn b' i' = s.stampIn b' i' := by simp [State.noteEff]
@[simp] theorem State.meter_noteEff (s : State) (o : Option Owner) (n : Nat) (b' : Nat) : (s.noteEff o n).meter b' = s.meter b' := by simp [State.noteEff]
@[simp] theorem State.takeover_noteEff (s : State) (o : Option Owner) (n : Nat) (b' : Nat) : (s.noteEff o n).takeover b' = s.takeover b' := by simp [State.noteEff]
@[simp] theorem State.barrier_noteEff (s : State) (o : Option Owner) (n : Nat) (i' : Nat) : (s.noteEff o n).barrier i' = s.barrier i' := by simp [State.noteEff]
@[simp] theorem State.mbx_noteEff (s : State) (o : Option Owner) (n : Nat) (b' : Nat) : (s.noteEff o n).mbx b' = s.mbx b' := by simp [State.noteEff]
@[simp] theorem State.sout_noteEff (s : State) (o : Option Owner) (n : Nat) (b' n' : Nat) : (s.noteEff o n).sout b' n' = s.sout b' n' := by simp [State.noteEff]

end Sys2Proof.Machine
end

