-- ==== Sys2Proof/Laws/Ops.lean ====
section
/-!
SUPPORT. Laws/Ops.lean: what a command leaves of the state its effect makes, and one lemma for each shared operation.
-/

set_option Elab.async false

namespace Sys2Proof.Machine

/-- What a command without memories leaves: its effect on everything but the queue, the variant, PT, the ridge, the memories and
FAULT_N. -/
theorem State.keep_settle (u x : State) : u.keep x.settle =
    { x with pending := u.pending, variant := u.variant, clk := u.clk, ridge := u.ridge, mem := u.mem, ev := x.settle.ev } := by
  obtain ⟨e, h⟩ := x.settle_ev
  rw [h]
  rfl

/-- What a command that reaches the memories leaves. -/
theorem State.keepMem_settle (u x : State) : u.keepMem x.settle =
    { x with pending := u.pending, variant := u.variant, clk := u.clk, ridge := u.ridge, ev := x.settle.ev } := by
  obtain ⟨e, h⟩ := x.settle_ev
  rw [h]
  rfl

/-- A command without memories answers what its effect leaves. -/
theorem runAt_next {s x : State} {t : PT} {f : State → State} {P : State → Prop} (hf : f (s.arrive t) = x)
    (h : P ((s.arrive t).keep x.settle)) : ∃ s', runAt t s f = .next s' ∧ P s' := ⟨_, rfl, by rw [hf]; exact h⟩

/-- A command that reaches the memories answers what its effect leaves. -/
theorem runMem_next {s x : State} {t : PT} {f : State → State} {P : State → Prop} (hf : f (s.arrive t) = x)
    (h : P ((s.arrive t).keepMem x.settle)) : ∃ s', runMem t s f = .next s' ∧ P s' := ⟨_, rfl, by rw [hf]; exact h⟩

/-- A command of a page that is present and not locked has its effect. -/
theorem State.command_takes {s : State} {b pg : Nat} (h : s.takes b pg) (f : State → State) :
    (s.onlyIf (s.has b) fun s => s.command pg f) = f s := by
  simp [State.onlyIf, State.command, h.1, h.2]

/-- A command that starts work has its effect on a page that takes it. -/
theorem State.command_starts {s : State} {b pg : Nat} (h : s.starts b pg) (f : State → State) :
    (s.onlyIf (s.has b) fun s => s.startCmd pg f) = f s := by
  simp [State.onlyIf, State.startCmd, State.command, h.1.1, h.1.2, h.2]

/-! ### Registers left alone -/

theorem State.sameRegs_refl (u : State) (l : List Nat) : u.sameRegs u l := fun _ _ => rfl

theorem State.sameRegs_of {u s s' : State} {l : List Nat} (h : u.sameRegs s l) (hr : s'.regs = s.regs)
    (hv : s'.variant = s.variant) : u.sameRegs s' l := fun a ha => (State.reg_congr a hr hv).trans (h a ha)

theorem State.sameRegs_wr {u s : State} {l : List Nat} {a : Nat} (h : u.sameRegs s l) (ha : a ∈ l) (v : Nat) :
    u.sameRegs (s.wr a v) l := fun c hc =>
  (State.reg_setReg_ne s _ (by rintro rfl; exact hc ha)).trans (h c hc)

theorem State.sameRegs_setFld {u s : State} {l : List Nat} {a : Nat} (h : u.sameRegs s l) (ha : a ∈ l) (lo len v : Nat) :
    u.sameRegs (s.setFld a lo len v) l := State.sameRegs_wr h ha _

theorem State.sameRegs_setBit {u s : State} {l : List Nat} {a : Nat} (h : u.sameRegs s l) (ha : a ∈ l) (i : Nat) (b : Bool) :
    u.sameRegs (s.setBit a i b) l := State.sameRegs_wr h ha _

theorem State.sameRegs_count {u s : State} {l : List Nat} {a : Nat} (h : u.sameRegs s l) (ha : a ∈ l) (n : Nat) :
    u.sameRegs (s.count a n) l := State.sameRegs_wr h ha _

theorem State.sameRegs_bump {u s : State} {l : List Nat} {a : Nat} (h : u.sameRegs s l) (ha : a ∈ l) :
    u.sameRegs (s.bump a) l := State.sameRegs_wr h ha _

/-- What a command's outcome leaves of the registers is what its effect leaves of them. -/
theorem State.sameRegs_keep {u x : State} {l : List Nat} (h : u.sameRegs x l) (hv : x.variant = u.variant) :
    u.sameRegs (u.keep x.settle) l := fun a ha => by
  rw [State.reg_keep _ _ _ (by simp [hv]), State.reg_settle]; exact h a ha

theorem State.rd_wr (s : State) (a c v : Nat) : (s.wr a v).rd c = if c = a then v % 2 ^ 32 else s.rd c := by
  split
  · next h => subst h; simp
  · next h => exact s.rd_wr_ne v h

/-- A field of a register after a write to a register. -/
theorem State.fld_wr (s : State) (a c v lo len : Nat) :
    (s.wr a v).fld c lo len = if c = a then bits (v % 2 ^ 32) lo len else s.fld c lo len := by
  unfold State.fld
  rw [State.rd_wr]
  split <;> rfl

theorem State.bit_wr (s : State) (a c v i : Nat) :
    (s.wr a v).bit c i = if c = a then bitAt (v % 2 ^ 32) i else s.bit c i := by
  unfold State.bit
  rw [State.rd_wr]
  split <;> rfl

/-- A bit after a bit was put. -/
theorem State.bit_setBit (s : State) (a c : Nat) {i : Nat} (j : Nat) (b : Bool) (h : i < 32) :
    (s.setBit a i b).bit c j = if c = a then (if j = i then b else s.bit a j) else s.bit c j := by
  split
  · next hc =>
    subst hc
    split
    · next hj => subst hj; exact s.bit_setBit_same _ _ _ h
    · next hj => exact s.bit_setBit_ne _ _ h hj
  · next hc => simp [State.bit, State.rd_setBit_ne s i b hc]

/-! ### Frames of folds -/

/-- What each step of a fold leaves as it was, the fold leaves. -/
theorem foldl_frame {α β : Type} (g : State → β) (f : State → α → State) (h : ∀ s a, g (f s a) = g s) (l : List α) (s : State) :
    g (l.foldl f s) = g s := by
  induction l generalizing s with
  | nil => rfl
  | cons a l ih => exact (ih (f s a)).trans (h s a)

/-- A state with its instruments, the instants its lanes fell idle and its event state set aside. -/
def State.sansInstruments (s : State) : State := { s with tius := [], fres := [], touched := [], ev := State.reset.ev }

theorem State.sans_raise (s : State) (pg i : Nat) : (s.raise pg i).sansInstruments = s.sansInstruments := by
  obtain ⟨e, he⟩ := State.raiseAt_ev s pg i s.now 0 false
  rw [State.raise, he]
  rfl

/-- The conditions gathered for measurements change only the instruments, when they fell idle, and the event state (R252). -/
theorem State.tbGather_sans (s0 s : State) (x : Nat) : (State.tbGather s0 s x).sansInstruments = s.sansInstruments := by
  unfold State.tbGather
  refine foldl_frame State.sansInstruments _ (fun s b => ?_) _ _
  dsimp only
  split
  · rw [State.sans_raise]
    refine (foldl_frame State.sansInstruments _ ?_ _ _).trans (foldl_frame State.sansInstruments _ ?_ _ _)
    · intro s e; rfl
    · intro s u; split <;> rfl
  · refine (foldl_frame State.sansInstruments _ ?_ _ _).trans (foldl_frame State.sansInstruments _ ?_ _ _)
    · intro s e; rfl
    · intro s u; split <;> rfl

/-- The conditions gathered for measurements change only the instruments, when they fell idle, and the event state. -/
theorem State.tbGather_only (s0 s : State) (x : Nat) : State.tbGather s0 s x =
    { s with
      tius := (State.tbGather s0 s x).tius, fres := (State.tbGather s0 s x).fres
      touched := (State.tbGather s0 s x).touched, ev := (State.tbGather s0 s x).ev } := by
  have h := State.tbGather_sans s0 s x
  generalize State.tbGather s0 s x = y at h ⊢
  cases y
  cases s
  simp only [State.sansInstruments, State.mk.injEq] at h ⊢
  simp_all

/-! ### Edge channels -/

/-- A channel that runs nothing is as it is at any later instant. -/
theorem EdgeSt.upto_idle {e : EdgeSt} (h : e.idle = true) (rest : Bool) (p : Nat) : e.upto rest p = e := by
  simp only [EdgeSt.idle, Bool.and_eq_true, Option.isNone_iff_eq_none] at h
  simp [EdgeSt.upto, h]

/-- A channel that runs nothing and made no transition within 1 600 kerfs blocks no peg (R102). -/
theorem EdgeSt.blocks_idle {e : EdgeSt} {p : Nat} (h : e.idle = true) (hs : e.spaced p = true) (mv oc : Bool) :
    e.blocks p mv oc = .free := by
  simp only [EdgeSt.idle, Bool.and_eq_true, Option.isNone_iff_eq_none] at h
  unfold EdgeSt.spaced at hs
  unfold EdgeSt.blocks
  rw [h.1]
  cases hl : e.lastTrans
  · rfl
  · simp only [hl, decide_eq_true_eq] at hs
    simp only
    rw [if_neg]
    simp
    omega

/-- A due head is popped. -/
theorem State.popPeg_due {s : State} {lane : Nat} {p : Peg} {q : List Peg} {a : Nat} (h : s.due lane p q a) :
    s.popPeg lane (fun p => p.action == a) = some (p, s.setQueue lane q) := by
  obtain ⟨hq, hp, ha, -⟩ := h
  simp [State.popPeg, hq, hp, ha]

/-- An edge peg that meets no block is applied (R100). -/
theorem State.edgeApply_free {s : State} {b ch a : Nat} {p : Peg} {q : List Peg} (h : s.due (laneAddr b 0 ch) p q a)
    (mv : EdgeSt → Peg → Bool) (oc : Bool) (f : State → Peg → EdgeSt → State)
    (hb : ((s.edge b ch).upto (s.chRest b ch) p.pt).blocks p.pt (mv ((s.edge b ch).upto (s.chRest b ch) p.pt) p) oc = .free) :
    s.edgeApply b ch a mv oc f =
      ((f (s.setQueue (laneAddr b 0 ch) q) p ((s.edge b ch).upto (s.chRest b ch) p.pt)).noteEff p.owner p.pt).setEdge b ch
        { (f (s.setQueue (laneAddr b 0 ch) q) p ((s.edge b ch).upto (s.chRest b ch) p.pt)).edge b ch with
          drv := p.owner.map fun (o : Owner) => o.seq } := by
  have hf : (s.setQueue (laneAddr b 0 ch) q).laneFault (laneAddr b 0 ch) = false := h.2.2.2
  have he : ((s.setQueue (laneAddr b 0 ch) q).edge b ch).upto ((s.setQueue (laneAddr b 0 ch) q).chRest b ch) p.pt =
    (s.edge b ch).upto (s.chRest b ch) p.pt := rfl
  unfold State.edgeApply
  simp only [State.popPeg_due h, hf, Bool.false_eq_true, if_false, he, hb, State.edge_noteEff]

/-- A due edge peg at a pin at rest is applied. -/
theorem State.edgeApply_due {s : State} {b ch a : Nat} {p : Peg} {q : List Peg} (h : s.edgeDue b ch p q a)
    (mv : EdgeSt → Peg → Bool) (oc : Bool) (f : State → Peg → EdgeSt → State) :
    s.edgeApply b ch a mv oc f =
      ((f (s.setQueue (laneAddr b 0 ch) q) p (s.edge b ch)).noteEff p.owner p.pt).setEdge b ch
        { (f (s.setQueue (laneAddr b 0 ch) q) p (s.edge b ch)).edge b ch with
          drv := p.owner.map fun (o : Owner) => o.seq } := by
  have hu := EdgeSt.upto_idle h.2.1 (s.chRest b ch) p.pt
  have := State.edgeApply_free h.1 mv oc f (by rw [hu]; exact EdgeSt.blocks_idle h.2.1 h.2.2 _ _)
  rwa [hu] at this

end Sys2Proof.Machine
end

