-- ==== Sys2Proof/Laws/Run.lean ====
section
/-!
SUPPORT. Laws/Run.lean: the memories of BAR2 (a read after a write, and the form every write keeps), and how PT moves.
-/

set_option Elab.async false

namespace Sys2Proof.Machine

/-! ### Memories (R17, R368) -/

/-- A byte of a memory reads as last written. -/
theorem State.memByte_setByte_same (s : State) (a : Nat) (v : Byte) (h : s.memHas a = true) :
    (s.setByte a v).memByte a = v := by
  simp [State.setByte, State.memByte, h]

/-- A write of a byte leaves every other byte as it was. -/
theorem State.memByte_setByte_ne (s : State) {a x : Nat} (v : Byte) (h : x ≠ a) : (s.setByte a v).memByte x = s.memByte x := by
  unfold State.setByte State.memByte
  split
  · exact mapGet_mapSet_ne _ _ _ h
  · rfl

/-- An offset beyond the memories ignores a write (R368). -/
theorem State.setByte_hole (s : State) (a : Nat) (v : Byte) (h : s.memHas a = false) : s.setByte a v = s := by
  simp [State.setByte, h]

/-- A write of a byte changes the memories only. -/
theorem State.setByte_only (s : State) (a : Nat) (v : Byte) : s.setByte a v = { s with mem := (s.setByte a v).mem } := by
  unfold State.setByte
  split <;> rfl

/-- What is populated does not move with a write. -/
theorem State.memHas_setByte (s : State) (a x : Nat) (v : Byte) : (s.setByte a v).memHas x = s.memHas x := by
  rw [State.setByte_only]; rfl

/-- A write of a byte keeps the canonical form. -/
theorem State.wf_setByte (s : State) (a : Nat) (v : Byte) (h : Memory.wf s.mem = true) : Memory.wf (s.setByte a v).mem = true := by
  unfold State.setByte
  split
  · exact mapWf_mapSet _ _ _ _ h
  · exact h

/-- A write of bytes keeps the canonical form. -/
theorem State.wf_memWr (s : State) (a : Nat) (l : List Byte) (h : Memory.wf s.mem = true) : Memory.wf (s.memWr a l).mem = true := by
  induction l generalizing s a with
  | nil => exact h
  | cons v r ih => exact ih _ _ (s.wf_setByte a v h)

/-- A write of bytes changes the memories only. -/
theorem State.memWr_only (s : State) (a : Nat) (l : List Byte) : s.memWr a l = { s with mem := (s.memWr a l).mem } := by
  induction l generalizing s a with
  | nil => rfl
  | cons v r ih =>
    unfold State.memWr
    rw [ih, State.setByte_only s a v]

/-- A write of bytes leaves every byte outside its range as it was. -/
theorem State.memByte_memWr_ne (s : State) (a : Nat) (l : List Byte) {x : Nat} (h : x < a ∨ a + l.length ≤ x) :
    (s.memWr a l).memByte x = s.memByte x := by
  induction l generalizing s a with
  | nil => rfl
  | cons v r ih =>
    simp only [List.length_cons] at h
    unfold State.memWr
    rw [ih _ _ (by omega), State.memByte_setByte_ne _ _ (by omega)]

/-- A byte that a write of bytes reaches reads as written. -/
theorem State.memByte_memWr (s : State) (a : Nat) (l : List Byte) (i : Nat) (hi : i < l.length) (h : s.memHas (a + i) = true) :
    (s.memWr a l).memByte (a + i) = l[i] := by
  induction l generalizing s a i with
  | nil => simp at hi
  | cons v r ih =>
    unfold State.memWr
    cases i with
    | zero => rw [State.memByte_memWr_ne _ _ _ (by omega)]; exact s.memByte_setByte_same a v h
    | succ i =>
      have := ih (s.setByte a v) (a + 1) i (by simpa using hi) (by rw [State.memHas_setByte]; simpa [Nat.add_assoc, Nat.add_comm 1] using h)
      simpa [Nat.add_assoc, Nat.add_comm 1] using this

/-! ### PT (R30, R31) -/

/-- PT never moves back when a command arrives. -/
theorem State.now_le_arrive (s : State) (t : PT) : s.clk.now ≤ (s.arrive t).clk.now := by
  unfold State.arrive
  split
  · exact Nat.le_max_left _ _
  · exact Nat.le_refl _

/-- PT stays below 2^80 when a command arrives. -/
theorem State.clkOk_arrive (s : State) (t : PT) (h : s.clkOk = true) : (s.arrive t).clkOk = true := by
  have ht := t.isLt
  unfold State.clkOk State.arrive at *
  split
  · next hr =>
    simp only [Bool.and_eq_true, decide_eq_true_eq, hr, Bool.true_or, and_true] at h ⊢
    exact max_lt h ht
  · exact h

end Sys2Proof.Machine
end

