-- ==== Sys2Proof/WellFormed.lean ====
section
/-!
DEFINITION. WellFormed.lean: the checks on a command's operands beyond their types: a page that the page directory lists
(R403), a register offset of a 32-bit word (R367), a BAR2 write within the window (R368), a lane that exists (R39), a
calibration instance that exists (R262), a VERDICT frame's number of entries (R351), and the lengths of series of samples that a
rule fixes (R75, R114, R203, R239, R316).
-/

namespace Sys2Proof

/-- The page directory lists the page (R403, R405). -/
def Page.listed : Page → Bool
  | .bent _ p => decide (p.val < 0x1E) || decide (0x20 ≤ p.val)
  | .pkg _ => true

/-- A BAR0 offset names a 32-bit word (R367). -/
def wordOffset (a : Nat) : Bool := a % 4 == 0

/-- A BAR2 write has bytes and stays within the window (R368). -/
def bar2Fits (a n : Nat) : Bool := decide (0 < n) && decide (a + n ≤ 0x400000000)

/-- A lane of a kind exists (R39). -/
def laneListed (kind idx : Nat) : Bool :=
  decide (idx < [32, 64, 64, 16, 4, 16, 8, 64].getD kind 0)

/-- An instance of a calibration item exists on some bent (R262). -/
def instListed (item inst : Nat) : Bool :=
  decide (1 ≤ item) && decide (inst < [0, 36, 36, 36, 36, 32, 8, 12, 12, 12, 12, 12, 20, 20, 16, 16, 2, 2, 2, 1].getD item 0)

/-- A command is well formed. -/
def Instr.wf : Instr → Bool
  | .registerWrite _ addr _ _ => wordOffset addr
  | .ptHoldWrite _ _ addr _ => wordOffset addr
  | .ptLoWrite _ _ addr _ => wordOffset addr
  | .readLatch _ _ addr => wordOffset addr
  | .bar2Write _ addr data => bar2Fits addr data.length
  | .bar2Read _ _ _ => true
  | .commit _ pg _ => pg.listed
  | .commitCancel _ pg => pg.listed
  | .commitApply _ pg => pg.listed
  | .pageEnable _ pg => pg.listed
  | .pageDisable _ pg => pg.listed
  | .pageDrain _ pg => pg.listed
  | .pageFence _ pg => pg.listed
  | .pageSelftest _ pg => pg.listed
  | .pageLock _ pg => pg.listed
  | .hclr _ pg => pg.listed
  | .selftestDone _ pg _ => pg.listed
  | .drainDone _ pg => pg.listed
  | .evtPendClear _ pg _ _ => pg.listed
  | .evtForce _ pg _ _ => pg.listed
  | .evtEnWrite _ pg _ _ => pg.listed
  | .holdoffExpiry _ _ => true
  | .clrCounts _ pg _ => pg.listed
  | .countClr _ _ => true
  | .scrub _ _ _ _ => true
  | .pegAccept _ _ kind idx _ _ => laneListed kind idx
  | .marker _ _ _ => true
  | .alarmArm _ _ => true
  | .alarmDisarm _ _ => true
  | .alarm _ _ => true
  | .ppsEdge _ _ => true
  | .ppsMissing _ => true
  | .sourceQualified _ _ _ => true
  | .srcLost _ _ => true
  | .switchCmd _ _ => true
  | .switched _ _ => true
  | .steeringDone _ => true
  | .ocxoReadyChange _ _ => true
  | .warmSettled _ => true
  | .ageUpdate _ => true
  | .lockWindow _ _ _ _ _ => true
  | .refLos _ _ _ => true
  | .twinWatch _ _ skews errA errB => skews.length == 64 && errA.length == 64 && errB.length == 64
  | .takeover _ _ => true
  | .sillReacquireTimeout _ _ _ => true
  | .swap _ _ _ => true
  | .restart _ _ _ => true
  | .unpark _ _ _ => true
  | .holdLimit _ _ => true
  | .pullDone _ _ => true
  | .phaseStep _ _ _ _ => true
  | .phaseDone _ => true
  | .relock _ _ _ _ _ => true
  | .relockDone _ => true
  | .set _ _ _ => true
  | .pulse _ _ _ => true
  | .burst _ _ _ => true
  | .clockStart _ _ _ => true
  | .clockStop _ _ _ => true
  | .rest _ _ _ => true
  | .arm _ _ _ => true
  | .disarm _ _ _ => true
  | .trigger _ _ _ _ => true
  | .chStop _ _ _ => true
  | .chDrain _ _ _ => true
  | .chResense _ _ _ => true
  | .chArm _ _ _ => true
  | .chDisarm _ _ _ => true
  | .sensingDone _ _ _ sensed => sensed.samples.length == 64
  | .disableHoldEnd _ _ _ _ => true
  | .pinFault _ _ _ => true
  | .spareTakeover _ _ _ => true
  | .thrWindow _ _ _ _ _ _ => true
  | .vectorFail _ _ _ _ _ => true
  | .seqStart _ _ _ => true
  | .estimateDone _ _ _ => true
  | .seqHalt _ _ _ => true
  | .seqStop _ _ _ => true
  | .seqMove _ _ _ => true
  | .admitRequest _ _ _ => true
  | .stepFetch _ _ _ _ => true
  | .pegStep _ _ _ => true
  | .playStep _ _ _ => true
  | .segmentStep _ _ _ => true
  | .captureStep _ _ _ => true
  | .waitStep _ _ _ => true
  | .branch _ _ _ => true
  | .loopStep _ _ _ => true
  | .callStep _ _ _ => true
  | .returnStep _ _ _ => true
  | .syncStep _ _ _ => true
  | .syncTimeout _ _ => true
  | .setStep _ _ _ => true
  | .endShot _ _ _ => true
  | .haltStep _ _ _ => true
  | .await _ _ _ => true
  | .awaitTimeout _ _ _ => true
  | .shotTrigger _ _ _ _ _ _ _ => true
  | .verdictDelivery _ _ _ _ _ _ _ => true
  | .verdictTimeout _ _ _ => true
  | .parityFault _ _ _ => true
  | .shotDone _ _ _ _ => true
  | .segmentPeg _ _ _ => true
  | .strStart _ _ _ => true
  | .strStop _ _ _ => true
  | .strDrain _ _ _ => true
  | .strJump _ _ _ => true
  | .ringReset _ _ _ => true
  | .ringWrWrite _ _ _ _ => true
  | .segmentCommit _ _ _ => true
  | .segmentBoundary _ _ _ _ _ => true
  | .underrun _ _ _ => true
  | .fillEnd _ _ _ => true
  | .ownedStreamEnd _ _ _ => true
  | .clrFail _ _ => true
  | .playPeg _ _ _ _ _ _ _ => true
  | .frameAdd _ _ _ _ => true
  | .frameSet _ _ _ _ => true
  | .stopPeg _ _ _ _ => true
  | .toneStop _ _ _ _ => true
  | .toneDrain _ _ _ _ => true
  | .flxStop _ _ _ => true
  | .flxDrain _ _ _ => true
  | .outFault _ _ _ _ => true
  | .window _ _ _ => true
  | .heldWindowStart _ _ _ => true
  | .windowEnd _ _ _ _ => true
  | .contStart _ _ _ => true
  | .contStop _ _ _ => true
  | .capContStart _ _ _ => true
  | .capContStop _ _ _ => true
  | .contBlock _ _ _ _ => true
  | .inject _ _ _ => true
  | .capStop _ _ _ => true
  | .capDrain _ _ _ => true
  | .rotate _ _ _ => true
  | .rotation _ _ _ => true
  | .sliceSwap _ _ _ => true
  | .sliceCalDone _ _ _ => true
  | .shadowBlock _ _ _ spare other => spare.length == 4096 && other.length == 4096
  | .pulseWidthEvent _ _ _ _ _ => true
  | .inFault _ _ _ => true
  | .verdictFrame _ _ _ entries => decide (entries.length ≤ 3)
  | .stamp _ _ _ _ _ _ _ _ _ => true
  | .lathWithdrawal _ _ _ _ => true
  | .lathReturn _ _ _ hits _ => hits.length == 160
  | .tiuArmPeg _ _ _ => true
  | .tiuDisarmPeg _ _ _ => true
  | .tiuArm _ _ _ => true
  | .tiuDisarm _ _ _ => true
  | .tiuClr _ _ _ => true
  | .tiuMeasurement _ _ _ => true
  | .tiuTimeout _ _ _ => true
  | .gate _ _ _ => true
  | .freStopPeg _ _ _ => true
  | .freGate _ _ _ => true
  | .freStop _ _ _ => true
  | .freClr _ _ _ => true
  | .gateEnd _ _ _ => true
  | .gateDone _ _ _ => true
  | .signDone _ _ => true
  | .calStart _ _ _ => true
  | .calMeasurement _ _ item inst _ _ _ => instListed item inst
  | .correctionApply _ _ item inst => instListed item inst
  | .forcedApply _ _ item inst => instListed item inst
  | .trestleTakeover _ _ _ => true
  | .trestleReturn _ _ _ => true
  | .takeoverAbandon _ _ _ => true
  | .reinterpolate _ _ => true
  | .calStale _ _ item inst => instListed item inst
  | .pwrupDone _ _ => true
  | .pwrupTimeout _ _ => true
  | .runPass _ _ => true
  | .runItem _ _ => true
  | .store _ _ _ _ => true
  | .autoStore _ _ _ _ => true
  | .storeRetry _ _ _ _ => true
  | .storeDone _ _ => true
  | .storeStall _ _ => true
  | .shimCancel _ _ => true
  | .delete _ _ => true
  | .reload _ _ => true
  | .bentFence _ _ => true
  | .bentUnfence _ _ => true
  | .bentDrain _ _ => true
  | .fwSwitch _ _ => true
  | .foremanStop _ _ => true
  | .foremanRestart _ _ _ => true
  | .tunnelledWrite _ _ _ addr _ => wordOffset addr
  | .resetN _ _ => true
  | .por _ => true
  | .perstN _ _ => true
  | .pwrFail _ => true
  | .pwrRestored _ => true
  | .creditUpdate _ _ _ => true
  | .lowMargin _ => true
  | .telemRead _ _ _ rails _ => rails.length == 4
  | .groupIdle _ _ _ => true
  | .groupWake _ _ _ => true
  | .wakeDone _ _ _ => true
  | .paceSample _ _ _ _ _ => true
  | .paceRaise _ _ => true
  | .paceLower _ _ => true
  | .avsFault _ _ => true
  | .clrPeak _ _ => true
  | .election _ => true
  | .migrate _ => true
  | .heartbeat _ _ => true
  | .heartbeatLoss _ => true
  | .purlinHandover _ => true
  | .skewDone _ _ => true
  | .purlinMarker _ _ _ => true
  | .reskew _ => true
  | .join _ _ => true
  | .joinComplete _ _ _ _ => true
  | .leave _ => true
  | .tenonLost _ => true
  | .timeExchange _ _ => true
  | .timeFrame _ _ _ _ _ _ => true
  | .eventFrame _ _ _ _ _ _ _ _ _ _ => true
  | .regFrame _ _ _ _ _ _ _ addr _ => wordOffset addr
  | .bulkFrame _ _ _ _ _ _ _ => true
  | .retrain _ _ _ _ => true
  | .trainingDone _ _ _ _ _ _ _ _ _ _ => true
  | .asymCal _ _ _ => true
  | .asymDone _ _ _ _ _ => true
  | .raccWrite _ => true
  | .raccRead _ => true
  | .raccDone _ _ => true
  | .raccTimeout _ => true
  | .sidePortEnable _ _ _ _ => true
  | .headWrite _ _ _ _ _ => true
  | .dmaDescriptor _ _ _ _ _ => true
  | .dmaFlush _ _ _ => true
  | .dmaReset _ _ _ => true
  | .version _ _ => true
  | .fwOpen _ _ => true
  | .fwWrite _ _ => true
  | .fwClose _ _ => true
  | .cfgOpen _ _ _ _ => true
  | .cfgWrite _ _ _ _ => true
  | .cfgClose _ _ _ _ => true
  | .flashRead _ _ => true
  | .mbxDone _ _ _ => true
  | .getVersion _ => true
  | .getCapabilities _ => true
  | .negotiateAlgorithms _ _ _ => true
  | .getDigests _ => true
  | .getCertificate _ _ _ _ => true
  | .challenge _ _ _ => true
  | .getMeasurements _ _ _ => true
  | .ownerSet _ => true
  | .ownerClear _ => true
  | .tempSample _ _ _ => true
  | .railAlert _ _ _ => true
  | .bist _ _ _ _ => true
  | .sourceActivity _ _ _ _ => true
  | .overrangeSample _ _ _ => true
  | .ringGranuleTaken _ _ _ _ _ => true
  | .linkUp _ _ _ => true
  | .frameCrcFail _ _ _ _ _ => true
  | .sidePortDown _ _ => true
  | .foremanStart _ _ => true
  | .railInBand _ _ _ => true

end Sys2Proof
end

