-- ==== Sys2Proof/Tests/Slice0.lean ====
section
/-!
SUPPORT. Tests/Slice0.lean: ill-formed commands that the checks refuse, commands on small states with the results the spec
gives, and for every statement with hypotheses a state and operands that meet them (each clause has its own).
-/

set_option Elab.async false

namespace Sys2Proof.Tests

open Sys2Proof Sys2Proof.Machine

/-- A GY-8 whose PT has run for one second at N = 1 600, with some registers written. -/
def st (l : List (Nat × Nat)) : State :=
  { State.reset with
    clk := { now := secK, running := true, n := 1600, o := 0 },
    regs := l.foldl (fun m e => mapSet (resetWord .gy8) m e.1 (BitVec.ofNat 32 e.2)) [] }

/-- The same, as a command that names PT 0 finds it. -/
abbrev fd (s : State) : State := s.arrive 0

/-- A peg that is due. -/
def pg0 (payload : Nat) : Peg := { pt := 16000, payload := payload, owner := none, trig := false }

/-! ### Ill-formed commands -/

theorem test_wf_page : (Instr.pageEnable 0 (.bent 0 0x1E)).wf = false ∧
  (Instr.pageEnable 0 (.bent 0 0x1D)).wf = true := by decide
theorem test_wf_register : (Instr.registerWrite 0 2 true 0).wf = false ∧ (Instr.registerWrite 0 4 true 0).wf = true := by decide
theorem test_wf_bar2 : (Instr.bar2Write 0 0x3FFFFFFFF [0, 0]).wf = false ∧ (Instr.bar2Write 0 0 []).wf = false ∧
    (Instr.bar2Write 0 0x3FFFFFFFF [0]).wf = true := by decide
theorem test_wf_lane : (Instr.pegAccept 0 0 4 4 (.whole .good 0) 0).wf = false ∧
    (Instr.pegAccept 0 0 4 3 (.whole .good 0) 0).wf = true := by decide
theorem test_wf_instance : (Instr.calStale 0 0 0 0).wf = false ∧ (Instr.calStale 0 0 0x13 1).wf = false ∧
    (Instr.calStale 0 0 0x13 0).wf = true := by decide
theorem test_wf_frame : (Instr.verdictFrame 0 0 0 [(0, 0, 0, 0), (0, 0, 0, 0), (0, 0, 0, 0), (0, 0, 0, 0)]).wf = false ∧
    (Instr.verdictFrame 0 0 0 [(0, 0, 0, 0)]).wf = true := by decide
theorem test_wf_sensing : (Instr.sensingDone 0 0 3 ⟨[0], 12⟩).wf = false ∧
    (Instr.sensingDone 0 0 3 ⟨List.replicate 64 0, 12⟩).wf = true := by decide
theorem test_wf_twin : (Instr.twinWatch 0 0 (List.replicate 63 0) (List.replicate 64 0) (List.replicate 64 0)).wf = false ∧
    (Instr.twinWatch 0 0 (List.replicate 64 0) (List.replicate 64 0) (List.replicate 64 0)).wf = true := by decide
theorem test_wf_shadow : (Instr.shadowBlock 0 0 0 [0] [0]).wf = false := by decide
theorem test_wf_laths : (Instr.lathReturn 0 0 0 [0] true).wf = false ∧
  (Instr.lathReturn 0 0 0 (List.replicate 160 0) true).wf = true := by
  decide +kernel
theorem test_wf_telemetry : (Instr.telemRead 0 0 true [(0, 0)] 0).wf = false ∧
    (Instr.telemRead 0 0 true [(0, 0), (0, 0), (0, 0), (0, 0)] 0).wf = true := by decide

/-! ### Edge channels, time, stamps -/

theorem wit_EdgePegs :
    (fd { st [] with queues := [(3, [pg0 0x11])] }).edgeDue 0 3 (pg0 0x11) [] 1 ∧
    ((fd { st [] with queues := [(3, [pg0 0x64002])] }).edgeDue 0 3 (pg0 0x64002) [] 2 ∧
      (fd { st [] with queues := [(3, [pg0 0x64002])] }).voidOf (pg0 0x64002).owner = none) ∧
    (fd { st [] with queues := [(0x1003, [pg0 0x23, pg0 0x11])] }).edgeDue 1 3 (pg0 0x23) [pg0 0x11] 3 ∧
    ((fd { st [(bp 0 4 + Off.EDGE_PAT_PERIOD_LO 1, 3200)] with queues := [(3, [pg0 0x24])] }).edgeDue 0 3 (pg0 0x24) [] 4 ∧
      ((fd (st [(bp 0 4 + Off.EDGE_PAT_PERIOD_LO 1, 3200)])).pattern 0 3 (bits (pg0 0x24).payload 5 3)).1 % 1600 = 0) ∧
    (fd { st [] with queues := [(31, [pg0 6])] }).edgeDue 0 31 (pg0 6) [] 6 ∧
    (fd { st [] with queues := [(3, [pg0 7])] }).due 3 (pg0 7) [] 7 ∧
    (fd { st [(chStat 0 3, 8)] with queues := [(3, [pg0 8])] }).due 3 (pg0 8) [] 8 := by
  unfold State.edgeDue State.due; decide +kernel

/-- A clock that a CLOCK_STOP peg meets. -/
def clockSt : State :=
  { st [] with
    queues := [(3, [pg0 5])],
    edges := [(3, { EdgeSt.init with
      eff := some { start := 0, period := 3200, width := 1600, count := none, clock := true, owner := none, trig := false } })] }

theorem wit_EdgePegs_clockStop : (fd clockSt).due 3 (pg0 5) [] 5 ∧
    ∃ f, ((fd clockSt).edge 0 3).eff = some f ∧ ((fd clockSt).edge 0 3).restAt = none ∧ f.clock = true ∧ f.count = none :=
  ⟨by unfold State.due; decide +kernel, _, rfl, rfl, rfl, rfl⟩

/-- A live TRIGGERED channel 3 armed on RECEIVE pin 4. -/
def trigSt (policy : Nat) : State :=
  fd (st [(chCtrl 0 3, 2 + policy * 64), (chStat 0 3, 9), (bp 0 4 + Off.EDGE_CH_TRIG_SRC 3, 0x89), (chCtrl 0 4, 4),
    (chStat 0 4, 1), (calPg 0 + Off.CAL_CAL_STAT, 2)])

theorem wit_EdgeTriggers :
    ((trigSt 0).chMode 0 3 = 2 ∧ (trigSt 0).chOn 0 3 = true ∧ (trigSt 0).trigUsable 0 3 false = true ∧
      (trigSt 0).armedAt 0 3 5 = true ∧ (trigSt 0).laneFault 3 = false ∧ (trigSt 0).fld (chCtrl 0 3) 6 2 = 0 ∧
      (trigSt 0).trigPending 0 3 = 0 ∧ (trigSt 0).bit (edgePg 0 3 + Off.EDGE_CH_TRIG_SRC 3) 7 = true) ∧
    ((trigSt 1).chMode 0 3 = 2 ∧ (trigSt 1).chOn 0 3 = true ∧ (trigSt 1).trigUsable 0 3 false = true ∧
      (trigSt 1).armedAt 0 3 5 = true ∧ (trigSt 1).laneFault 3 = false ∧ (trigSt 1).fld (chCtrl 0 3) 6 2 = 1 ∧
      (trigSt 1).trigPending 0 3 < 4) ∧
    (((trigSt 0).has 0 = true ∧ (trigSt 0).locked (edgePg 0 3) = false) ∧ (trigSt 0).fenced (edgePg 0 3) = false) ∧
    (trigSt 0).bit (chStat 0 3) 3 = true := by decide +kernel

theorem wit_EdgeChannelCommands :
    ((trigSt 0).has 0 = true ∧ (trigSt 0).locked (edgePg 0 3) = false ∧ (trigSt 0).chLive 0 3 = true) ∧
    ((((fd (st [])).has 0 = true ∧ (fd (st [])).locked (edgePg 0 9) = false) ∧ (fd (st [])).fenced (edgePg 0 9) = false) ∧
      (fd (st [])).chLive 0 9 = false ∧ ((fd (st [])).edge 0 9).senseEnd = none ∧ (fd (st [])).chMode 0 9 = 0 ∧
      (fd (st [])).bit (chStat 0 9) 13 = false ∧ (fd (st [])).bit (chCtrl 0 9) 8 = false) ∧
    (let u := fd (st [(bp 0 5 + 8, 1), (chCtrl 0 9, 1)])
     ((u.has 0 = true ∧ u.locked (edgePg 0 9) = false) ∧ u.fenced (edgePg 0 9) = false) ∧ u.chLive 0 9 = false ∧
       (u.edge 0 9).senseEnd = none ∧ u.chMode 0 9 ≠ 0 ∧ u.enabled (edgePg 0 9) = true ∧ u.bit (chStat 0 9) 13 = false ∧
       u.bit (chCtrl 0 9) 8 = false) ∧
    (let u := fd (st [(chCtrl 0 9, 0x300)])
     u.chLive 0 9 = false ∧ (u.edge 0 9).senseEnd = none ∧ u.chMode 0 9 = 0 ∧ u.bit (chStat 0 9) 13 = false ∧
       u.bit (chCtrl 0 9) 8 = true) ∧
    (let u := fd { st [] with edges := [(9, { EdgeSt.init with senseEnd := some 5, senseLive := true })] }
     (u.edge 0 9).senseEnd = some 5 ∧ 5 ≤ u.now ∧ (u.edge 0 9).senseLive = true) ∧
    (let u := fd { st [] with edges := [(31, { EdgeSt.init with holdEnd := some 5, driving := true })] }
     (u.edge 0 31).holdEnd = some 5 ∧ 5 ≤ u.now) := by decide +kernel

theorem wit_EdgeService :
    ((trigSt 0).chLive 0 3 = true ∧ (trigSt 0).laneFault 3 = false) ∧
    (let u := fd { st [(bp 0 4 + Off.EDGE_GRP_CTRL, 2)] with
       calInsts := [(instKey 2 7, { CalInst.init with faulty := true })] }
     u.has 0 = true ∧ (u.calInst 0 2 7).faulty = true ∧ u.bit (edgePg 0 7 + Off.EDGE_GRP_CTRL) 1 = true ∧
       u.fld (edgePg 0 7 + Off.EDGE_GRP_STAT) 3 2 = 0 ∧
       u.fld (edgePg 0 7 + Off.EDGE_GRP_STAT) 8 8 = 0 ∧ u.clearTick 0 7 = true) ∧
    (let u := fd (st [(chStat 0 3, 1), (bp 0 4 + Off.EDGE_CH_RCV_CFG 3, 0)])
     u.chLive 0 3 = true ∧ u.bit (edgePg 0 3 + Off.EDGE_CH_RCV_CFG 3) 0 = false ∧
       (u.edge 0 3).thrAt + 2 ^ u.fld (edgePg 0 3 + Off.EDGE_CH_RCV_CFG 3) 20 4 * usK ≤ u.now) := by decide +kernel

theorem wit_TimePage :
    (let u := fd (st [(timePg 0 + Off.TIME_ALARM_PT_LO, 0), (timePg 0 + Off.TIME_ALARM_PT_LO + 4, 0x10000)])
     (u.has 0 = true ∧ u.locked (timePg 0) = false) ∧
       u.ptOf (u.tick u.now + 80) ≤ u.rd80 (timePg 0 + Off.TIME_ALARM_PT_LO)) ∧
    (let u := fd (st [])
     (u.has 0 = true ∧ u.locked (timePg 0) = false) ∧
       u.rd80 (timePg 0 + Off.TIME_ALARM_PT_LO) < u.ptOf (u.tick u.now + 80)) ∧
    (let u := fd (st [(timePg 0 + Off.TIME_ALARM_CTRL, 1)])
     u.bit (timePg 0 + Off.TIME_ALARM_CTRL) 0 = true ∧ u.rd80 (timePg 0 + Off.TIME_ALARM_PT_LO) ≤ u.now) ∧
    (let u := fd (st [(timePg 0 + Off.TIME_ALARM_CTRL, 1)])
     (Fin.ofNat 0x4000000 0x3088).val = timePg 0 + Off.TIME_ALARM_PT_LO ∧ (u.has 0 = true ∧ u.locked (timePg 0) = false) ∧
       u.bit (timePg 0 + Off.TIME_ALARM_CTRL) 0 = true ∧ (5 : Nat) < u.ptOf (u.tick u.now + 80)) ∧
    (let u := fd { st [(timePg 0 + Off.TIME_PPS_CTRL, 1)] with tb := { Tb.init with ppsNext := some 5 } }
     u.ppsOn = true ∧ u.clk.running = true ∧ false = u.bit (timePg u.ridge + Off.TIME_PPS_CTRL) 1 ∧ u.tb.ppsNext = some 5 ∧
       5 + u.ppsWindow < u.now) ∧
    (let u := fd { st [(stampPg 0 + Off.STAMP_TIU_START_SRC 1, 2 + 4 * 63)] with
       queues := [(0x73F, [pg0 0])], tius := [(1, { Tiu.init with armed := true })] }
     (u.queue (laneAddr 0 7 63) = pg0 0 :: [] ∧ (pg0 0).pt ≤ u.now) ∧ (u.tiu 0 1).armed = true ∧
       srcKey (u.rd (stampPg 0 + Off.STAMP_TIU_START_SRC 1)) = (2, 63, 0)) := by decide +kernel

/-- Stamp input 7 enabled for both edges on an enabled STAMP page, with two laths in service. -/
def stampSt : State := st [(calPg 0 + Off.CAL_CAL_STAT, 2), (stampPg 0 + 8, 1), (stampPg 0 + Off.STAMP_IN_CFG 7, 7), (stampPg 0 + Off.STAMP_IN_STAT 7, 6)]

theorem wit_StampInputs :
    (let u := fd stampSt
     u.srcUsable 0 (0, 7, 1) = true ∧ u.fld (grpStat 0 12) 0 2 = 0 ∧ u.lathsKept 0 7 (u.readings 0 7 0 [10, 11, 12, 13]) ≠ [] ∧
       (u.stampIn 0 7).last = none) ∧
    (let u := fd { stampSt with stampIns := [(7, { StampIn.init with last := some 5 })] }
     u.srcUsable 0 (0, 7, 0) = true ∧ (u.stampIn 0 7).last = some 5 ∧ 0 < 5 + 40000) ∧
    (let u := fd (st [(chCtrl 0 30, 4), (chStat 0 30, 1), (calPg 0 + Off.CAL_CAL_STAT, 2)])
     u.chMode 0 30 = 4 ∧ u.chOn 0 30 = true ∧ mapGet (fun _ => none) u.edgeStamp 30 = none) ∧
    (let u := fd { stampSt with stampIns := [(7, { StampIn.init with withdrawn := some (3, 5) })] }
     (u.stampIn 0 7).withdrawn = some (3, 5) ∧ 3 < 4) ∧
    (let u := fd (st [(calPg 0 + Off.CAL_CAL_CTRL, 3), (bp 0 0x1D + Off.FOREMAN_FM_STAT, 1), (stampPg 0 + Off.STAMP_LATH_CTRL, 1),
       (stampPg 0 + Off.STAMP_IN_STAT 7, 0x1E)])
     u.bgRuns 0 = true ∧ u.bit (stampPg 0 + Off.STAMP_LATH_CTRL) 0 = true ∧ u.fld (stampPg 0 + Off.STAMP_IN_STAT 7) 1 4 = 0xF ∧
       u.fld (stampPg 0 + Off.STAMP_IN_STAT 7) 5 4 = 0 ∧ u.marginFor 500 = true) := by decide +kernel

theorem wit_IntervalUnits :
    (let u := fd { st [] with queues := [(0x603, [pg0 1])] }
     (u.queue (armLane 0 3) = pg0 1 :: [] ∧ (pg0 1).pt ≤ u.now) ∧ (pg0 1).action = 1) ∧
    (let u := fd { st [] with queues := [(0x603, [pg0 2])] }
     (u.queue (armLane 0 3) = pg0 2 :: [] ∧ (pg0 2).pt ≤ u.now) ∧ (pg0 2).action = 2) ∧
    (let u := fd stampSt
     ((u.has 0 = true ∧ u.locked (stampPg 0) = false) ∧ u.fenced (stampPg 0) = false) ∧ u.enabled (stampPg 0) = true) ∧
    (let u := fd { st [] with tius := [(3, { Tiu.init with armed := true, starts := [10], stops := [12] })] }
     u.tiuPick 0 3 = (some 10, some 12) ∧ (u.tiu 0 3).armed = true) ∧
    (let u := fd { st [(stampPg 0 + Off.STAMP_TIU_TIMEOUT 3, 1)] with tius := [(3, { Tiu.init with armed := true })] }
     (u.tiu 0 3).armed = true ∧ u.rd (stampPg 0 + Off.STAMP_TIU_TIMEOUT 3) ≠ 0 ∧ (u.tiuPick 0 3).2 = none ∧
       (u.tiu 0 3).arm + u.rd (stampPg 0 + Off.STAMP_TIU_TIMEOUT 3) * usK ≤ u.now) := by decide +kernel

/-- A gate with four stamps. -/
def gate4 : Gate :=
  { start := 0, stop := 16000, p0 := 16000, decim := 1, t0 := some 0, tPrev := 4800, nPrev := 3, nFirst := 0, nLast := 3, m := 4,
    sn := 6, snn := 14, sr := 0, snr := 0, srr := 0, range := false, limit := false, trunc := false, gapped := false,
    late := false, owner := none, tb := 0 }

theorem wit_FrequencyEngines :
    (let u := fd { st [] with queues := [(0x605, [pg0 3])] }
     (u.queue (armLane 0 (4 + 1)) = pg0 3 :: [] ∧ (pg0 3).pt ≤ u.now) ∧ (pg0 3).action = 3) ∧
    (let u := fd { st [] with queues := [(0x605, [pg0 4])] }
     (u.queue (armLane 0 (4 + 1)) = pg0 4 :: [] ∧ (pg0 4).pt ≤ u.now) ∧ (pg0 4).action = 4) ∧
    (let u := fd (st [])
     (u.has 0 = true ∧ u.locked (freqPg 0) = false) ∧ u.fenced (freqPg 0) = false) ∧
    (let u := fd { st [(freqPg 0 + Off.FREQ_FRE_CTRL 1, 1)] with fres := [(1, { Fre.init with gate := some gate4 })] }
     (u.fre 0 1).gate = some gate4 ∧ gate4.stop ≤ u.now ∧ u.bit (freqPg 0 + Off.FREQ_FRE_CTRL 1) 0 = true ∧
       (u.fre 0 1).draining = false) ∧
    (let u := fd { st [] with fres := [(1, { Fre.init with done := [gate4, gate4] })] }
     (u.fre 0 1).done = [gate4, gate4] ∧ gate4.range = false ∧ 3 ≤ gate4.m ∧
       0 ≤ (gateFit gate4 (u.rd64 (freqPg 0 + Off.FREQ_FRE_NOMINAL_LO 1))).1 ∧
       (gateFit gate4 (u.rd64 (freqPg 0 + Off.FREQ_FRE_NOMINAL_LO 1))).1 < 2 ^ 64) ∧
    (let u := fd { st [] with fres := [(1, { Fre.init with done := [{ gate4 with m := 2 }] })] }
     (u.fre 0 1).done = [{ gate4 with m := 2 }] ∧ ({ gate4 with m := 2 } : Gate).m < 3) ∧
    (let u := fd { st [] with signQ := [(0, [1])] }
     (u.signQ.find? fun x => x.1 == 0) = some (0, [1])) := by decide +kernel

/-! ### Timebase, sills, calibration -/

/-- A running package whose timebase shows a word in SRC_STAT. -/
abbrev srcSt (w : Nat) : State := st [(srcStat, w)]

theorem wit_TimebaseSources :
    (let u := fd { srcSt 0x1003 with clk := Clk.reset }
     u.has u.ridge = true ∧ u.mayQualify 0 = true ∧ u.qualified 0 = false ∧ u.clk.running = false) ∧
    (let u := fd { srcSt 0x4003 with tb := { Tb.init with since := [(2, some 0)] } }
     u.mayQualify 2 = true ∧ u.qualified 2 = false ∧ u.clk.running = true ∧ u.passedLong 2 = true ∧
       u.freqOk 2 49999999000000 = true ∧ u.freqOk 2 50000001000000 = true ∧ 2 ∈ u.srcOrder ∧ u.joined = false ∧
       u.tb.switchTo = none ∧ u.srcNow = 3 ∧ u.tb.lost ≠ some 2) ∧
    (let u := fd (srcSt 0x4500)
     u.srcFails 0 (fun c => [10000000000000, 0, 50000000000000].getD c 0) = true ∧ u.clk.running = true ∧ u.inForce? = some 0 ∧
       u.joined = false ∧ u.tb.switchTo = none ∧ (u.setBit srcStat (8 + 0) false).bestSource = some 2) ∧
    (let u := fd (srcSt 0x0402)
     u.srcFails 2 (fun c => [0, 0, 0].getD c 0) = true ∧ u.stands tbPg 0x4F = false ∧ u.clk.running = true ∧ u.joined = false ∧
       u.tb.switchTo = none ∧ u.inForce? = some 2 ∧ (u.setBit srcStat (8 + 2) false).bestSource = none) ∧
    (let u := fd (srcSt 0x5500)
     u.locked tbPg = false ∧ u.qualified 2 = true ∧ u.clk.running = true ∧ u.joined = false ∧ u.inForce? ≠ some 2 ∧
       u.qualified 1 = false) ∧
    (let u := fd { srcSt 0x5503 with clk := Clk.reset }
     u.locked tbPg = false ∧ u.qualified 2 = true ∧ u.clk.running = false ∧ u.joined = false) ∧
    (let u := fd { srcSt 0x5500 with tb := { Tb.init with switchTo := some 2 } }
     u.tb.switchTo = some 2 ∧ u.qualified 2 = true ∧ u.clk.running = true) ∧
    (let u := fd { srcSt 0x5500 with tb := { Tb.init with switchTo := some 0 } }
     u.tb.switchTo = some 0 ∧ u.qualified 0 = true ∧ u.clk.running = true ∧ u.bestSource = some 0) ∧
    (let u := fd (srcSt 0x5504)
     u.has u.ridge = true ∧ u.bit srcStat 2 = true ∧ u.steerNow = 0) ∧
    (let u := fd { srcSt 0x13 with tb := { Tb.init with ready := some 5 }, clk := { State.reset.clk with running := true, now := 400 * secK } }
     u.tb.ready = some 5 ∧ u.tb.settled = false ∧ 5 + u.rd (tbPg + Off.TIMEBASE_WARM_SETTLE) * (1000 * usK) ≤ u.now) := by
  decide +kernel

/-- The update edges of one lock window, one in each `d` kerfs. -/
def edges256 (d : Nat) : List Nat := (List.range 256).map fun i => d * (i + 1)

/-- An elected ridge before its first lock, its frequency acquired on the 50 MHz crystal, one good window short of the lock. -/
def lockSt : State :=
  { st [(srcStat, 0x4003), (sillPg 0 0 + Off.SILL_LOCK_WIN, 0x408), (sillStat 0 0, 0x30000)] with
    clk := Clk.reset, tree := { Tree.init with elected := true }, sills := [(0, { Sill.init with good := 3, lastUpd := some (0, 0) })] }

theorem wit_SillLockAndLoss :
    (let u := fd lockSt
     u.has u.ridge = true ∧ u.windowStarts 0 0 (edges256 320000) = true ∧ edges256 320000 ≠ []) ∧
    (let u := fd { st [(srcStat, 0x4402), (sillPg 1 0 + Off.SILL_LOCK_WIN, 0x408), (sillStat 1 0, 0x30000)] with
       tree := { Tree.init with elected := true }, sills := [(2, { Sill.init with lastUpd := some (0, 0) })] }
     edges256 256000 ≠ [] ∧ u.window 1 0 (edges256 256000) = some (0, 65536 * 1280) ∧ u.windowCounts 1 0 = true ∧
       u.windowOk 1 0 (0, 65536 * 1280) = true ∧ (u.sill 1 0).good + 1 < u.fld (u.sillCfg 1 0 + Off.SILL_LOCK_WIN) 8 8 ∧
       (u.sill 1 1).fired = false) ∧
    (let u := fd (st [(sillStat 1 1, 3), (sillStat 1 0, 0x40001)])
     u.has 1 = true ∧ u.clk.running = true ∧ u.hasActive 1 = true ∧ u.bit (sillStat 1 (u.activeSill 1)) 3 = false ∧
       u.bit (sillStat 1 (1 - u.activeSill 1)) 7 = false ∧ u.acqState 1 (1 - u.activeSill 1) ≠ 0 ∧
       (trimmed (u.period 1 (1 - u.activeSill 1)) (u.sill 1 (1 - u.activeSill 1)).trim [-40000]).1.getLast? = some (-40000)) := by
  decide +kernel

theorem wit_SillTakeover :
    (let u := fd (st [(sillStat 0 0, 3), (sillStat 0 1, 5), (sillPg 0 1 + Off.SILL_SILL_CTRL, 0x1A4)])
     (u.has 0 = true ∧ u.locked (sillPg 0 0) = false) ∧ u.hasActive 0 = true ∧ u.shadowOk 0 false = true) ∧
    (let u := fd (st [])
     (u.has 0 = true ∧ u.locked (sillPg 0 0) = false) ∧ u.shadowOk 0 false = false) ∧
    (let u := fd (st [])
     u.has 0 = true ∧ u.locked (sillPg 0 1) = false) ∧
    (let u := fd { st [(sillStat 0 0, 3)] with takeovers := [(0, some (5, false))] }
     u.takeover 0 = some (5, false) ∧ 5 ≤ u.now) ∧
    (let u := fd { st [] with sills := [(1, { Sill.init with acq := some 0 })] }
     (u.sill 0 1).acq = some 0 ∧ 0 + secK ≤ u.now ∧ u.bit (sillStat 0 (1 - 1)) 7 = false) := by decide +kernel

theorem wit_SillHoldAndPhase :
    (let u := fd (st [(sillStat 0 0, 0xA), (sillPg 0 0 + Off.SILL_HOLD_LIMIT, 1), (sillPg 0 0 + Off.SILL_SILL_CTRL, 0)])
     u.has 0 = true ∧ u.bit (sillStat 0 (u.activeSill 0)) 3 = true ∧ u.bit (sillStat 0 (u.activeSill 0)) 4 = false ∧
       u.rd (u.sillCfg 0 (u.activeSill 0) + Off.SILL_HOLD_LIMIT) ≠ 0 ∧
       (u.sill 0 (u.activeSill 0)).coastAt + u.rd (u.sillCfg 0 (u.activeSill 0) + Off.SILL_HOLD_LIMIT) * secK ≤ u.now ∧
       u.bit (u.sillCfg 0 (u.activeSill 0) + Off.SILL_SILL_CTRL) 3 = false) ∧
    (let u := fd { st [(sillStat 0 0, 0xA)] with seqs := [(0, { SeqSt.init with phase := .inShot, parkReq := true })] }
     (u.has 0 = true ∧ u.locked (sillPg 0 0) = false) ∧ (∀ q ∈ u.holdSeqs 0, (u.seq q).phase ≠ .parked) ∧
       u.bit (sillStat 0 (u.activeSill 0)) 3 = true) ∧
    (let u := fd { st [(sillStat 0 0, 0xA)] with seqs := [(15, { SeqSt.init with phase := .parked, parkReq := true, first := false })] }
     (0 : Nat) = u.ridge ∧ 15 = seqNo 0 15 ∧ (u.seq 15).phase = .parked ∧ (u.seq 15).moveReq = false ∧ (u.seq 15).owed = [] ∧
       (u.seq 15).tail = [] ∧ u.seqEnds 15 = false ∧ u.shotMode 15 = 0 ∧ (u.seq 15).first = false ∧
       (∀ j ∈ u.holdSeqs 0, j ≠ 15 → (u.seq j).phase ≠ .parked)) ∧
    (let u := fd (st [(sillStat 0 0, 2), (sillPg 0 0 + Off.SILL_PULL_LEFT, 5)])
     u.rd (sillPg 0 (u.activeSill 0) + Off.SILL_PULL_LEFT) ≠ 0 ∧ u.pullOver 0 = true) ∧
    (let u := fd (st [(sillPg 0 0 + Off.SILL_PHASE_LEFT, 1)])
     (u.has 0 = true ∧ u.locked (sillPg 0 0) = false) ∧ (0 : Nat) = u.ridge ∧ u.bit (sillStat 0 (u.activeSill 0)) 5 = false ∧
       -(2 ^ 31 : Int) ≤ u.phaseNow + (0 : BitVec 24).toInt ∧ u.phaseNow + (0 : BitVec 24).toInt < 2 ^ 31 ∧
       u.rd (u.phaseLeft u.ridge) ≠ 0 ∧ u.phaseNow = 0) ∧
    (let u := fd (st [])
     (u.has 1 = true ∧ u.locked (sillPg 1 0) = false) ∧ (1 : Nat) ≠ u.ridge) := by decide +kernel

theorem wit_Relock :
    (let u := fd (st [(sillStat 0 0, 3)])
     (u.has 0 = true ∧ u.locked (sillPg 0 0) = false) ∧ u.relockBar 0 = none ∧ 1456 ≤ (1456 : BitVec 11).toNat ∧
       (1456 : BitVec 11).toNat ≤ 2000 ∧ (1455 : BitVec 11).toNat < 1456 ∧ 2000 < (2001 : BitVec 11).toNat) ∧
    (let u := fd (st [])
     (u.has 0 = true ∧ u.locked (sillPg 0 0) = false) ∧ u.relockBar 0 = some 0x47) ∧
    (let u := fd { st [(srcStat, 0x4402), (sillPg 0 0 + Off.SILL_LOCK_WIN, 0x408), (sillStat 0 0, 0x30022)] with
       tb := { Tb.init with relock := some (2000, none) }, tree := { State.reset.tree with elected := true },
       sills := [(0, { Sill.init with good := 3, lastUpd := some (0, 0) })] }
     u.tb.relock = some (2000, none) ∧ (0 : Nat) = u.ridge ∧ 0 = u.activeSill 0 ∧ u.bit (sillStat 0 0) 1 = true ∧
       u.windowLocks 0 0 (edges256 320000) = true) ∧
    (let u := fd { st [(sillStat 0 0, 0x23)] with tb := { Tb.init with relock := some (2000, some 32000) } }
     u.tb.relock = some (2000, some 32000)) := by decide +kernel

/-- A bent whose background calibration runs, with the trestle of group 0 free. -/
abbrev bgRegs : List (Nat × Nat) :=
  [(calPg 0 + Off.CAL_CAL_CTRL, 3), (calStat 0, 2), (bp 0 0x1D + Off.FOREMAN_FM_STAT, 1), (bp 0 4 + Off.EDGE_GRP_CTRL, 1)]

/-- An edge engine's calibration in a step. -/
abbrev engineOp (step : Nat) : BgOp := { cls := 0, item := 0, inst := 3, step := step, since := 0, done := [], cost := 20 }

theorem wit_CalBackground :
    (let u := fd (st bgRegs)
     u.bgRuns 0 = true ∧ u.pwrup 0 = true ∧ u.bgOp 0 0 = none ∧ u.bgPick 0 0 = some (0, 0) ∧ u.marginFor (bgCost 0 0) = true) ∧
    (let u := fd (st (bgRegs ++ [(sillStat 0 0, 3), (sillStat 0 1, 5)]))
     u.bgPick 0 5 = some (0x10, 1) ∧ u.bgOp 0 5 = none ∧ u.marginFor (bgCost 5 0x10) = true) ∧
    (let u := fd { st bgRegs with cals := [(0, { CalSt.init with ops := [engineOp 2] })] }
     u.bgOp 0 0 = some (engineOp 2) ∧ (engineOp 2).step = 2 ∧ (engineOp 2).inst / 8 = 0 ∧
       u.clearTick 0 (engineOp 2).inst = true ∧
       u.fld (edgePg 0 (engineOp 2).inst + Off.EDGE_GRP_STAT) 3 2 = 0 ∧
         u.fld (edgePg 0 (engineOp 2).inst + Off.EDGE_GRP_STAT) 8 8 = 0 ∧
       (engineOp 2).item = 0 ∧ (engineOp 2).since + u.calWaitMax 0 ≤ u.now) ∧
    (let u := fd { st bgRegs with cals := [(0, { CalSt.init with ops := [engineOp 4] })] }
     u.bgOp 0 0 = some (engineOp 4) ∧ (engineOp 4).step = 4 ∧ (engineOp 4).item = 0 ∧ (engineOp 4).inst / 8 = 0 ∧
       u.clearTick 0 (engineOp 4).inst = true ∧ u.foremanRuns 0 = true) := by decide +kernel

/-- A working set of one point written in the field. -/
def fieldCal : CalSt := { CalSt.init with work := [{ temp := 0, pt := 0, gen := 0, factory := false, vals := [] }] }

/-- A measurement of 16 equal vernier steps. -/
abbrev steps (x : Int) : List Int := List.replicate 16 x

theorem wit_CalMeasurement :
    (let u := fd { st [(calStat 0, 1), (shimStat 0, 0x80)] with cals := [(0, fieldCal)] }
     u.has 0 = true ∧ u.instExists 0 2 35 = true ∧ u.bit (calStat 0) 0 = true ∧ itemP 2 = true ∧
       (steps 20).length = itemElems 2 ∧ u.withinAbs 0 2 35 (steps 20) = true ∧ u.bit (shimStat 0) 7 = true ∧
       u.bit (shimStat 0) 0 = false ∧ u.withinAbs 0 2 35 (steps 29) = false) ∧
    (let u := fd { st [(calStat 0, 1), (shimStat 0, 8)] with cals := [(0, fieldCal)] }
     u.has 0 = true ∧ u.instExists 0 2 35 = true ∧ u.bit (calStat 0) 0 = true ∧ itemP 2 = true ∧
       u.withinAbs 0 2 35 (steps 6) = true ∧ u.bit (shimStat 0) 7 = false ∧ u.withinChange 0 2 35 (steps 6) = true ∧
       u.withinAbs 0 2 35 (steps 28) = true ∧ u.withinChange 0 2 35 (steps 28) = false ∧
       (u.calInst 0 2 35).rejects + 1 < u.fld (calPg 0 + Off.CAL_REJECT_LIMIT) 0 4) ∧
    (let u := fd { st [(calStat 0, 1)] with calInsts := [(instKey 2 35, { CalInst.init with rejects := 14 })] }
     u.instExists 0 2 35 = true ∧
       u.fld (calPg 0 + Off.CAL_REJECT_LIMIT) 0 4 ≤ (u.calInst 0 2 35).rejects + 1) := by decide +kernel

theorem wit_CalCorrections :
    (let u := fd { st [(calPg 0 + Off.CAL_CAL_BOUNDARY, 0)] with calInsts := [(instKey 2 35, { CalInst.init with pend := some 5 })] }
     (u.calInst 0 2 35).pend = some 5 ∧ u.calBoundary 0 2 35 5 = true ∧ u.calKind 0 (itemClass 2) < 3) ∧
    (let u := fd { st [] with calInsts := [(65536 + instKey 0x13 0, { CalInst.init with pend := some 5 })] }
     (u.calInst 1 0x13 0).pend = some 5 ∧ u.calBoundary 1 0x13 0 5 = true ∧ u.calKind 1 (itemClass 0x13) < 3) ∧
    (let u := fd { st [(calPg 0 + Off.CAL_CAL_WAIT_MAX, 1)] with calInsts := [(instKey 2 35, { CalInst.init with pend := some 5 })] }
     (u.calInst 0 2 35).pend = some 5 ∧ u.granCeil (5 + u.calWaitMax 0) ≤ u.now ∧ ∀ e ∈ u.seqs, e.2.phase ≠ .gateHold) ∧
    (let u := fd (st (bgRegs ++ [(calPg 0 + Off.CAL_TEMP_NOW, 0x7F)]))
     u.has 0 = true ∧ u.foremanRuns 0 = true ∧ u.bit (calPg 0 + Off.CAL_CAL_CTRL) 1 = true ∧ u.fenced (calPg 0) = false ∧
       u.fld (calPg 0 + Off.CAL_TEMP_STEP) 0 6 ≤ (u.tempNow 0 - u.tempInterp 0).natAbs) ∧
    (let u := fd (st [(calStat 1, 2), (calPg 1 + Off.CAL_CAL_MAX_AGE, 1)])
     u.has 1 = true ∧ u.instExists 1 0x13 0 = true ∧ u.pwrup 1 = true ∧ (u.calInst 1 0x13 0).stale = false ∧
       (u.calInst 1 0x13 0).since + u.rd (calPg 1 + Off.CAL_CAL_MAX_AGE) * secK ≤ u.now) := by decide +kernel

/-- A bent of which every instance has had a rejected measurement. -/
def measuredSt : State :=
  { st [(calStat 0, 1), (bp 0 0x1D + Off.FOREMAN_FM_STAT, 1)] with
    calInsts := ((st []).allInsts 0).map fun e => (instKey e.1 e.2, { CalInst.init with rejects := 1 }) }

theorem wit_PowerUpCalibration :
    (let u := fd measuredSt
     u.bit (calStat 0) 0 = true ∧ u.foremanRuns 0 = true ∧ u.allMeasured 0 = true) ∧
    (let u := fd { st [(calStat 0, 1)] with cals := [(0, { CalSt.init with lockAt := some 5 })] }
     u.bit (calStat 0) 0 = true ∧ (u.cal 0).lockAt = some 5 ∧ 5 + 400 * 1000 * usK ≤ u.now) ∧
    (let u := fd (st [(calPg 0 + Off.CAL_CAL_SEL, 0x2302)])
     ((u.has 0 = true ∧ u.locked (calPg 0) = false) ∧ u.fenced (calPg 0) = false) ∧
       2 = bits (u.rd (calPg 0 + Off.CAL_CAL_SEL)) 0 8 ∧ 35 = bits (u.rd (calPg 0 + Off.CAL_CAL_SEL)) 8 8 ∧
       u.instExists 0 2 35 = true ∧ (u.calInst 0 2 35).faulty = false) ∧
    (let u := fd (st [(calPg 0 + Off.CAL_CAL_SEL, 0x2402)])
     2 = bits (u.rd (calPg 0 + Off.CAL_CAL_SEL)) 0 8 ∧ 36 = bits (u.rd (calPg 0 + Off.CAL_CAL_SEL)) 8 8 ∧
       u.instExists 0 2 36 = false) := by decide +kernel

theorem wit_StoreStarts :
    (let u := fd { st [(calStat 0, 2), (bp 0 0x1D + Off.FOREMAN_FM_STAT, 1), (shimPg 0 + Off.SHIMSTORE_SHIM_CTRL, 0x1801)] with
       cals := [(0, { CalSt.init with autoAt := some 5, storeReq := true })] }
     u.bit (shimStat 0) 0 = false ∧ u.pwrup 0 = true ∧ u.otherStores 0 = false ∧
       ((u.has 0 = true ∧ u.locked (shimPg 0) = false) ∧ u.fenced (shimPg 0) = false) ∧ u.enabled (shimPg 0) = true ∧
       u.draining (shimPg 0) = false ∧ (u.holdUp 0 5000000 1 300).2 = true ∧ (u.holdUp 0 2500000 1 300).2 = false ∧
       (u.cal 0).autoAt = some 5 ∧ u.storeRuns 0 = true ∧ u.bit (shimPg 0 + Off.SHIMSTORE_SHIM_CTRL) 0 = true ∧ 5 ≤ u.now ∧
       (u.cal 0).storeReq = true ∧ u.bit (shimStat 0) 1 = false ∧ (∀ c, c < 0 → u.bit (shimStat c) 2 = false)) ∧
    (let u := fd (st [(calStat 7, 2), (shimStat 7, 2), (shimPg 7 + Off.SHIMSTORE_RETRY_MS, 1000)])
     (u.cal 7).storeAt + u.rd (shimPg 7 + Off.SHIMSTORE_RETRY_MS) * (1000 * usK) ≤ u.now ∧
       (∀ c, c < 7 → u.bit (shimStat c) 2 = false)) := by decide +kernel

theorem wit_StoreEnds :
    (let u := fd { st [(shimStat 0, 1)] with cals := [(0, { CalSt.init with prep := some (TrimCopy.made 3) })] }
     (u.cal 0).prep = some (TrimCopy.made 3) ∧ u.bit (shimStat 0) 0 = true ∧
       (u.cal 0).storeAt + 100 * 1000 * usK ≤ u.now) ∧
    (let u := fd (st [(shimStat 0, 2)])
     (u.has 0 = true ∧ u.locked (shimPg 0) = false) ∧ u.bit (shimStat 0) 1 = true) ∧
    (let u := fd { st [(shimPg 0 + Off.SHIMSTORE_SHIM_SEL, 4)] with cals := [(0, { CalSt.init with work := factoryPoints })] }
     4 = u.fld (shimPg 0 + Off.SHIMSTORE_SHIM_SEL) 0 3 ∧ (u.has 0 = true ∧ u.locked (shimPg 0) = false) ∧
       4 < (u.cal 0).work.length ∧ 3 ≤ (u.cal 0).work.length) ∧
    (let u := fd { st [(shimPg 0 + Off.SHIMSTORE_SHIM_SEL, 1)] with cals := [(0, { CalSt.init with work := factoryPoints.take 2 })] }
     1 = u.fld (shimPg 0 + Off.SHIMSTORE_SHIM_SEL) 0 3 ∧ 1 < (u.cal 0).work.length ∧
       (u.cal 0).work.length < 3) := by decide +kernel

/-! ### Sequencers -/

/-- A shot that has just been admitted. -/
def shot0 : Shot :=
  { num := 1, start := 16000, admitAt := 0, entry := 0, seed := 1, snap := 0, flags := 0, est := 5, replays := 0, frameEnd := false,
    stretchG := 0, branchPath := 0, branchCount := 0, lateVerdicts := 0, states := 0, verdicts := 0, timedOut := false, voidPt := none,
    noReplay := false, fillOnly := false, cutPt := none, poison := none, cEnd := 16000, effEnd := 0, energy := 0 }

/-- A sequencer in a shot, with a step fetched. -/
abbrev inShot (w : Nat) : SeqSt := { SeqSt.init with phase := .inShot, shot := some shot0, cursor := secK, cur := some w }

/-- A GY-8 with sequencer 0 of bent 0 in a state. -/
abbrev sq (l : List (Nat × Nat)) (x : SeqSt) : State := { st l with seqs := [(0, x)] }

theorem wit_SequencerCommands :
    (let u := fd (st [(seqPg 0 + 8, 1)])
     (u.has 0 = true ∧ u.locked (seqPg 0) = false) ∧ u.enabled (seqPg 0) = true ∧ u.fenced (seqPg 0) = false ∧
       (u.seq 0).running = false) ∧
    (let u := fd { sq [(seqPg 0 + 8, 1)] { SeqSt.init with phase := .estimating } with mem := [(12, 0x80), (15, 6)] }
     (u.has 0 = true ∧ u.locked (seqPg 0) = false) ∧ (u.seq 0).running = true ∧ (u.seq 0).phase = .estimating ∧
       u.estimate 0 = none ∧
       u.rd (seqPg 0 + Off.SEQ_EST_OVERRIDE) = 0 ∧ (u.seq 0).phase ≠ .halted) ∧
    (let u := fd { sq [] { SeqSt.init with phase := .estimating } with mem := [(15, 13)] }
     (u.seq 0).phase = .estimating ∧ (u.estimate 0).isSome = true ∧ (u.seq 0).moveReq = false) ∧
    (let u := fd (sq [] (inShot 0))
     (u.has 0 = true ∧ u.locked (seqPg 0) = false) ∧ (u.seq 0).phase = .inShot ∧ (u.seq 0).shot.isSome = true) ∧
    (let u := fd (sq [] { SeqSt.init with phase := .planned, next := some 5 })
     (u.seq 0).phase = .planned ∧ (u.seq 0).shot = none ∧ (u.seq 0).tail = [] ∧ (u.seq 0).owed = []) ∧
    (let u := fd (sq [(seqPg 0 + Off.SEQ_MOVE_TARGET, 1), (seqPg 1 + 12, 2)] (inShot 0))
     ((u.has 0 = true ∧ u.locked (seqPg 0) = false) ∧ u.fenced (seqPg 0) = false) ∧ (u.seq 0).running = true ∧
       (u.seq 0).phase ≠ .halting ∧ u.moveOk 0 = true) ∧
    (let u := fd (st [])
     ((u.has 7 = true ∧ u.locked (seqPg 127) = false) ∧ u.fenced (seqPg 127) = false) ∧ (u.seq 127).running = false) := by
  decide +kernel

/-- The only admission request is that of sequencer 0 of bent 0 for S = 5, and nothing holds it. -/
abbrev admits (u : State) : Prop :=
  (u.seq 0).next = some 5 ∧ u.admitDue 0 = true ∧ (u.seqs.any fun e => u.admitDue e.1 && u.before e.1 0) = false ∧
    u.tallyHold 0 = false ∧ u.seqEnds 0 = false

theorem wit_SequencerAdmission :
    (let u := fd (sq [(pkgp 3 + Off.LEDGER_LEDGER_CTRL, 0)] { SeqSt.init with phase := .planned, next := some 5, est := 3 })
     admits u ∧ (u.seq 0).owed = [] ∧ u.bit (pkgp 3 + Off.LEDGER_LEDGER_CTRL) 0 = false) ∧
    (let u := fd (sq [(pkgp 3 + Off.LEDGER_LEDGER_CTRL, 1)] { SeqSt.init with phase := .planned, next := some 5, est := 100000 })
     admits u ∧ (u.seq 0).est ≤ u.rd (pkgp 3 + Off.LEDGER_RESERVOIR) ∧
       (((u.seq 0).est : Nat) : Int) ≤ u.credit - ((u.committed : Nat) : Int) - ((u.reserved 0 : Nat) : Int)) ∧
    (let u := fd (sq [(pkgp 3 + Off.LEDGER_LEDGER_CTRL, 0)] { SeqSt.init with phase := .planned, next := some 5, owed := [shot0] })
     admits u ∧ (u.seq 0).owed = [shot0]) ∧
    (let u := fd (sq [(pkgp 3 + Off.LEDGER_LEDGER_CTRL, 1), (pkgp 3 + Off.LEDGER_COMMITTED_LO, 1)]
       { SeqSt.init with phase := .planned, next := some 5, est := 100000 })
     admits u ∧ (u.seq 0).est ≤ u.rd (pkgp 3 + Off.LEDGER_RESERVOIR) ∧
       u.credit - ((u.committed : Nat) : Int) - ((u.reserved 0 : Nat) : Int) < (((u.seq 0).est : Nat) : Int) ∧
       u.bit (seqPg 0 + Off.SEQ_SEQ_CTRL) 1 = false) ∧
    (let u := fd (sq [(pkgp 3 + Off.LEDGER_LEDGER_CTRL, 1), (pkgp 3 + Off.LEDGER_COMMITTED_LO, 1), (seqPg 0 + Off.SEQ_SEQ_CTRL, 2)]
       { SeqSt.init with phase := .planned, next := some 5, est := 100000 })
     admits u ∧ (u.seq 0).est ≤ u.rd (pkgp 3 + Off.LEDGER_RESERVOIR) ∧
       u.credit - ((u.committed : Nat) : Int) - ((u.reserved 0 : Nat) : Int) < (((u.seq 0).est : Nat) : Int) ∧
       u.bit (pkgp 3 + Off.LEDGER_LEDGER_CTRL) 0 = true ∧ u.bit (seqPg 0 + Off.SEQ_SEQ_CTRL) 1 = true ∧
         (u.seq 0).owed = []) := by decide +kernel

/-- A timed step of an opcode for lane 3 (or 0x100 × kind) at an offset. -/
abbrev timed (op lane ofs : Nat) : Nat := op * 2 ^ 120 + lane * 2 ^ 105 + ofs * 2 ^ 80

theorem wit_SequencerIssue :
    (let u := fd { sq [] { inShot 0 with cur := none } with mem := [(15, 12)] }
     (u.seq 0).phase = .inShot ∧ (u.seq 0).cur = none ∧ u.pegWaits 0 = false ∧ (u.seq 0).stepAddr < 131072 ∧
       12 * 2 ^ 120 = u.memRd (stepAddrOf 0 (u.seq 0).stepAddr) 16 ∧ u.poisoned (stepAddrOf 0 (u.seq 0).stepAddr) 16 = false ∧
       stReserved (12 * 2 ^ 120) = false) ∧
    (let u := fd (sq [] (inShot (timed 1 3 7)))
     ((u.seq 0).phase = .inShot ∧ (u.seq 0).cur = some (timed 1 3 7) ∧ stOp (timed 1 3 7) = 1) ∧
       u.laneValid (stLane (timed 1 3 7)) = true ∧ ptAdd (u.seq 0).cursor (stOfs (timed 1 3 7)) ≤ u.now + u.leadMax 0) ∧
    (let u := fd (sq [] (inShot (timed 2 0x100 7)))
     u.laneValid (stLane (timed 2 0x100 7)) = true ∧ ptAdd (u.seq 0).cursor (stOfs (timed 2 0x100 7)) ≤ u.now + u.leadMax 0) ∧
    (let u := fd (sq [] (inShot (timed 3 0x50F 7)))
     stOp (timed 3 0x50F 7) = 3 ∧ u.laneValid (stLane (timed 3 0x50F 7)) = true ∧
       u.granCeil (ptAdd (u.seq 0).cursor (stOfs (timed 3 0x50F 7))) ≤ u.now + u.leadMax 0) ∧
    (let u := fd (sq [] (inShot (timed 4 0x403 7)))
     stOp (timed 4 0x403 7) = 4 ∧ u.laneValid (stLane (timed 4 0x403 7)) = true ∧
       ptAdd (u.seq 0).cursor (stOfs (timed 4 0x403 7)) ≤ u.now + u.leadMax 0) ∧
    (let u := fd (sq [] { inShot (timed 1 3 7) with cursor := 2 * secK })
     u.laneValid (stLane (timed 1 3 7)) = true ∧ u.now + u.leadMax 0 < ptAdd (u.seq 0).cursor (stOfs (timed 1 3 7))) ∧
    (let u := fd (sq [] { inShot (timed 3 0x500 7) with cursor := 2 * secK })
     u.laneValid (stLane (timed 3 0x500 7)) = true ∧
       u.now + u.leadMax 0 < u.granCeil (ptAdd (u.seq 0).cursor (stOfs (timed 3 0x500 7)))) := by
  decide +kernel

/-- A verdict on ID 5 with state 1 that arrived in time at the sequencer. -/
def verd5 : Arrival := { rec_ := { vid := 5, byte := 1, endTick := 10, serial := 0 }, tick := 11 }

/-- A BRANCH on verdict 5 within reach of its arrival. -/
def branch5 : Nat := 6 * 2 ^ 120 + 5 * 2 ^ 111 + 2 * 2 ^ 107 + 0xFFFFFF * 2 ^ 40

/-- A sequencer at that BRANCH, its decision tick past. -/
def branchSq (arr : List Arrival) (cursor : Nat) : SeqSt := { inShot branch5 with cursor := cursor, arrivals := arr }

theorem wit_SequencerControl :
    (let u := fd (sq [] (inShot (5 * 2 ^ 120 + 2 * 2 ^ 116 + 9)))
     (u.seq 0).phase = .inShot ∧ (u.seq 0).cur = some (5 * 2 ^ 120 + 2 * 2 ^ 116 + 9) ∧
       stOp (5 * 2 ^ 120 + 2 * 2 ^ 116 + 9) = 5) ∧
    (let u := fd (sq [] (inShot (6 * 2 ^ 120 + 2 ^ 103 + 9)))
     (u.seq 0).cur = some (6 * 2 ^ 120 + 2 ^ 103 + 9) ∧ stOp (6 * 2 ^ 120 + 2 ^ 103 + 9) = 6 ∧
       bits (6 * 2 ^ 120 + 2 ^ 103 + 9) 103 2 = 1) ∧
    (let u := fd (sq [(seqP 0 3, 7)] (inShot (6 * 2 ^ 120 + 2 * 2 ^ 103 + 3 * 2 ^ 99 + 9)))
     (u.seq 0).cur = some (6 * 2 ^ 120 + 2 * 2 ^ 103 + 3 * 2 ^ 99 + 9) ∧
       bits (6 * 2 ^ 120 + 2 * 2 ^ 103 + 3 * 2 ^ 99 + 9) 103 2 = 2) ∧
    (let u := fd (sq [(seqPg 0 + Off.SEQ_DECIDE_LEAD, 0)] (branchSq [verd5] 16000000))
     stOp branch5 = 6 ∧ bits branch5 103 2 = 0 ∧ u.deciding 0 branch5 = some (verd5, false)) ∧
    (let u := fd (sq [] { inShot (7 * 2 ^ 120 + 9) with curAddr := 4, stack := [.loop 4 1] })
     stOp (7 * 2 ^ 120 + 9) = 7 ∧ (u.seq 0).stack = [.loop (u.seq 0).curAddr 1]) ∧
    (let u := fd (sq [] (inShot (7 * 2 ^ 120 + 3 * 2 ^ 88 + 9)))
     (u.seq 0).stack = [] ∧ (u.seq 0).stack.length < 16 ∧ 3 = bits (7 * 2 ^ 120 + 3 * 2 ^ 88 + 9) 88 24) ∧
    (let u := fd (sq [] (inShot (8 * 2 ^ 120 + 9)))
     stOp (8 * 2 ^ 120 + 9) = 8 ∧ (u.seq 0).stack.length < 16) ∧
    (let u := fd (sq [] { inShot (9 * 2 ^ 120) with stack := [.call 77] })
     stOp (9 * 2 ^ 120) = 9 ∧ (u.seq 0).stack = [.call 77]) ∧
    (let u := fd (sq [] (inShot (11 * 2 ^ 120 + 15 * 2 ^ 116 + 3 * 2 ^ 112 + 5 * 2 ^ 32 + 10)))
     (u.seq 0).cur = some (11 * 2 ^ 120 + 15 * 2 ^ 116 + 3 * 2 ^ 112 + 5 * 2 ^ 32 + 10) ∧
       stOp (11 * 2 ^ 120 + 15 * 2 ^ 116 + 3 * 2 ^ 112 + 5 * 2 ^ 32 + 10) = 11) := by decide +kernel

/-- A SYNC of two at barrier 63, and an AWAIT of the falling edge of pin 4 for at most one granule. -/
def sync2 : Nat := 10 * 2 ^ 120 + 63 * 2 ^ 114 + 2 * 2 ^ 106
def await4 : Nat := 14 * 2 ^ 120 + 2 ^ 117 + 4 * 2 ^ 112 + 2 ^ 111 + 2 ^ 24 + 40

theorem wit_SequencerWaits :
    (let u := fd (sq [] (inShot sync2))
     ((u.seq 0).phase = .inShot ∧ (u.seq 0).cur = some sync2 ∧ stOp sync2 = 10) ∧ (u.seq 0).syncWait = false ∧
       u.barrier (bits sync2 114 6) = none ∧ 1 < bits sync2 106 8) ∧
    (let u := fd { sq [] (inShot sync2) with barriers := [(63, some { count := 2, waiting := [(1, 5, 0)] })] }
     u.barrier (bits sync2 114 6) = some { count := bits sync2 106 8, waiting := [(1, 5, 0)] } ∧ bits sync2 106 8 ≤ 2) ∧
    (let u := fd { sq [] (inShot sync2) with barriers := [(63, some { count := 3, waiting := [(0, 5, 7)] })] }
     ((u.seq 0).phase = .inShot ∧ (u.seq 0).cur = some sync2 ∧ stOp sync2 = 10) ∧ (u.seq 0).syncWait = false ∧
       u.barrier (bits sync2 114 6) = some { count := 3, waiting := [(0, 5, 7)] } ∧ 3 ≠ bits sync2 106 8 ∧
       u.noEffects { seq := 0, shot := shot0.num } = true) ∧
    (let u := fd { sq [] { inShot sync2 with syncWait := true } with
       barriers := [(63, some { count := 2, waiting := [(0, 5, 7)] })] }
     u.barrier 63 = some { count := 2, waiting := [(0, 5, 7)] } ∧ (u.seq 0).syncWait = true ∧ 7 ≠ 0 ∧ 7 < u.now ∧
       u.noEffects { seq := 0, shot := shot0.num } = true) ∧
    (let u := fd (sq [] (inShot await4))
     stOp await4 = 14 ∧ bits await4 118 2 ≠ 1 ∧ (u.seq 0).heard = []) ∧
    (let u := fd (sq [] { inShot await4 with cursor := 5, heard := [(awaitKey await4, 100)] })
     ((u.seq 0).heard.find? fun e => e.1 == awaitKey await4 && u.awaitTakes (u.seq 0) await4 e.2) =
       some (awaitKey await4, 100)) ∧
    (let u := fd (sq [] { inShot await4 with cursor := 5, awaitWait := true })
     u.shotMode 0 ≠ 2 ∧ u.awaitLimit (u.seq 0) await4 = some 256005 ∧ (u.seq 0).awaitWait = true ∧
       256005 + 60 * u.clk.n ≤ u.now ∧
       bits await4 118 2 = 0 ∧ bitAt await4 117 = true ∧ bits await4 112 5 = 4 ∧ bitAt await4 111 = true ∧
         (u.seq 0).cursor ≤ 100 ∧
       100 ≤ 256005) ∧
    (let u := fd (sq [(seqPg 0 + Off.SEQ_SHOT_START, 2 + 3 * 8)] { SeqSt.init with phase := .trigWait })
     (u.seq 0).awaitWait = false ∧ (u.seq 0).phase = .trigWait ∧ u.shotMode 0 = 2 ∧
       bitAt (u.rd (seqPg 0 + Off.SEQ_SHOT_START)) 2 = false ∧ bits (u.rd (seqPg 0 + Off.SEQ_SHOT_START)) 3 5 = 3 ∧
       bitAt (u.rd (seqPg 0 + Off.SEQ_SHOT_START)) 8 = false ∧ u.knownEnd (u.seq 0) ≤ 100) := by decide +kernel

theorem wit_ShotEnds :
    (let u := fd (sq [] (inShot (12 * 2 ^ 120 + 2 ^ 119)))
     stOp (12 * 2 ^ 120 + 2 ^ 119) = 12 ∧ (u.seq 0).shot = some shot0 ∧ (u.seq 0).stack = [] ∧ (u.seq 0).moveReq = false ∧
       u.streams = []) ∧
    (let u := fd (sq [] (inShot (13 * 2 ^ 120)))
     stOp (13 * 2 ^ 120) = 13 ∧ (u.seq 0).shot = some shot0 ∧ (u.seq 0).stack = []) ∧
    (let u := fd (sq [] { SeqSt.init with phase := .planned, tail := [shot0] })
     (u.seq 0).tail = [shot0] ∧ u.pegsResolved { seq := 0, shot := shot0.num } = true ∧ u.tallyHold 0 = false ∧ u.has 0 = true ∧
       shot0.voidPt = none ∧ (u.seq 0).phase = .planned) ∧
    (let u := fd (sq [(contPg 0 + Off.CONTINUITY_CONT_CTRL, 1)] { SeqSt.init with phase := .voidWait, tail := [{ shot0 with voidPt := some 20000 }] })
     (u.seq 0).tail = [{ shot0 with voidPt := some 20000 }] ∧ u.pegsResolved { seq := 0, shot := shot0.num } = true ∧
       shot0.noReplay = false ∧ shot0.replays < u.fld (contPg 0 + Off.CONTINUITY_CONT_CTRL) 0 4 ∧
       u.cVoid { shot0 with voidPt := some 20000 } ≤ u.now) ∧
    (let u := fd (sq [] (branchSq [] 16000))
     stOp branch5 = 6 ∧ u.deciding 0 branch5 = none ∧ u.deadline 0 + u.verdictTimeout 0 ≤ u.tick u.now ∧
       u.noEffects { seq := 0, shot := shot0.num } = true) ∧
    (let u := fd (sq [] { branchSq [] 16000 with shot := some { shot0 with timedOut := true } })
     u.deciding 0 branch5 = none ∧ ((u.seq 0).shot.map fun h => h.timedOut) = some true) := by decide +kernel

/-! ### Streams, tones, capture inputs -/

/-- Stream 15 of bent 0 in a state, of a kind, with a segment table of four descriptors. -/
abbrev sg (kind : Nat) (l : List (Nat × Nat)) (x : StreamSt) : State :=
  { st ([(segPg 0 + 8, 1), (segPg 0 + Off.SEGMENT_STR_CFG 15, kind + 0x100 * 2 ^ 16), (segPg 0 + Off.SEGMENT_SEG_TABLE_COUNT, 4)] ++ l)
    with streams := [(15, x)] }

/-- A stream that plays a segment with a descriptor until an instant. -/
abbrev plays (d end_ : Nat) : StreamSt := { StreamSt.init with seg := some 0, desc := d, segStart := 16000, endPt := end_ }

/-- A fill of a ring granule that has not come, and one whose granule was written. -/
abbrev fill0 : Fill := { from_ := 256000, j := 0, avail := none, desc := 4, jumpAt := none, next := none }
abbrev fill1 : Fill := { fill0 with avail := some 256001 }

theorem wit_SegmentChains :
    (let u := fd { sg 1 [] (plays 4 (2 * secK)) with queues := [(0x50F, [pg0 3])] }
     (u.queue (laneAddr 0 5 15) = pg0 3 :: [] ∧ (pg0 3).pt ≤ u.now) ∧ u.strKind 0 15 ≠ 0 ∧ (u.stream 0 15).seg.isSome = true ∧
       (u.stream 0 15).succ ≠ some none) ∧
    (let u := fd { sg 1 [] { StreamSt.init with succ := some (some (3, 4, false)), segStart := 16000 } with queues := [(0x50F, [pg0 3])] }
     (u.stream 0 15).seg = none ∧ (u.stream 0 15).succ = some (some (3, 4, false)) ∧ (u.stream 0 15).segStart = (pg0 3).pt ∧
       3 = bits (pg0 3).payload 0 16 ∧ targetOk 0 (u.rd (segPg 0 + Off.SEGMENT_STR_CFG 15)) = true ∧ u.strDrives 0 15 = true ∧
       ((u.tone (u.strTarget 0 15)).upto (pg0 3).pt).pulse = none ∧ u.holder (u.strTarget 0 15) = none ∧
       u.ownedEnd (pg0 3).owner = none) ∧
    (let u := fd (sg 1 [] (plays (2 ^ 24 + 4) (secK + 768000)))
     (u.stream 0 15).seg.isSome = true ∧ (u.stream 0 15).fill = none ∧ u.poison = [] ∧
       u.segEnd (u.stream 0 15) = some (secK + 768000) ∧ (u.stream 0 15).succ = none ∧ (u.stream 0 15).drain = false ∧
       secK + 768000 ≤ u.now + 3 * u.gK ∧ (u.stream 0 15).jump = none ∧
         (u.stream 0 15).follow = some (none, [])) := by decide +kernel

theorem wit_SegmentChains_next :
    (let u := fd { sg 1 [] (plays (4 + 3 * 2 ^ 32) secK) with mem := [(0x2000030, 4)] }
     (u.stream 0 15).jump = none ∧ (u.stream 0 15).follow = some (some 3, []) ∧ u.readDesc 0 15 3 = .inl 4) ∧
    (let u := fd { sg 1 [] { plays 4 (2 * secK) with endPt := secK + 768000, jump := some (secK, 3) } with mem := [(0x2000030, 4), (0x2000033, 0xC)] }
     (u.stream 0 15).jump = some (secK, 3) ∧ secK + 3 * u.gK ≤ secK + 768000 ∧ u.readDesc 0 15 3 = .inl (4 + 0xC * 2 ^ 24) ∧
       bitAt (4 + 0xC * 2 ^ 24) 26 = true ∧ bitAt (4 + 0xC * 2 ^ 24) 27 = true) := by decide +kernel

theorem wit_SegmentChains_fill :
    (let u := fd { sg 1 [] { plays (2 ^ 25 + 4) (2 * secK) with fill := some fill0, jump := some (secK, 3) } with mem := [(0x2000030, 4)] }
     (u.stream 0 15).fill = some fill0 ∧ fill0.jumpAt = none ∧ fill0.avail = none ∧ (u.stream 0 15).jump = some (secK, 3) ∧
       u.fillJumpAt fill0 secK ≤ u.now + 3 * u.gK ∧ u.poison = [] ∧ u.readDesc 0 15 3 = .inl 4 ∧ bitAt 4 26 = false) ∧
    (let u := fd (sg 1 [] { plays 4 secK with succ := some (some (3, 4, true)) })
     (u.stream 0 15).seg.isSome = true ∧ (u.stream 0 15).fill = none ∧ (u.stream 0 15).endPt ≤ u.now ∧
       (u.stream 0 15).endAt = none ∧
       (u.stream 0 15).jump = none ∧ u.has 0 = true ∧ targetOk 0 (u.rd (segPg 0 + Off.SEGMENT_STR_CFG 15)) = true ∧
         u.poison = [] ∧
       (u.stream 0 15).succ = some (some (3, 4, true))) ∧
    (let u := fd (sg 1 [] { plays 4 secK with succ := some none })
     (u.stream 0 15).endPt ≤ u.now ∧ (u.stream 0 15).succ = some none) := by decide +kernel

theorem wit_StreamCommands :
    (let u := fd (sg 1 [] StreamSt.init)
     ((u.has 0 = true ∧ u.locked (segPg 0) = false) ∧ u.fenced (segPg 0) = false) ∧ (u.stream 0 15).seg = none) ∧
    (let u := fd (sg 1 [] { plays 4 (2 * secK) with owner := some { seq := 0, shot := 1 }, endAt := some 5 })
     ((u.has 0 = true ∧ u.locked (segPg 0) = false) ∧ u.fenced (segPg 0) = false) ∧ (u.stream 0 15).seg.isSome = true ∧
       targetOk 0 (u.rd (segPg 0 + Off.SEGMENT_STR_CFG 15)) = true ∧ u.poison = [] ∧ (u.stream 0 15).endAt = some 5 ∧
         5 ≤ u.now ∧ (u.stream 0 15).owner.isSome = true) ∧
    (let u := fd (sg 1 [(segPg 0 + Off.SEGMENT_STR_RING_SIZE 15, 8), (segPg 0 + Off.SEGMENT_STR_RING_WR 15, 0xFFFFFFFE),
       (segPg 0 + Off.SEGMENT_STR_RING_REL 15, 0xFFFFFFFC)] StreamSt.init)
     let old := u.rd (segPg 0 + Off.SEGMENT_STR_RING_WR 15)
     let rel := u.ringRel 0 15
     u.has 0 = true ∧
     (old + 2 ^ 32 - rel) % 2 ^ 32 + (4 + 2 ^ 32 - old) % 2 ^ 32 ≤ u.fld (segPg 0 + Off.SEGMENT_STR_RING_SIZE 15) 0 24 ∧
       u.fld (segPg 0 + Off.SEGMENT_STR_RING_SIZE 15) 0 24 < (old + 2 ^ 32 - rel) % 2 ^ 32 + (5 + 2 ^ 32 - old) % 2 ^ 32 ∧
       (5 + 2 ^ 32 - old) % 2 ^ 32 ≠ 0) := by decide +kernel

theorem wit_RingsAndFails :
    (let u := fd (sg 1 [(segPg 0 + Off.SEGMENT_STR_RING_SIZE 15, 8), (segPg 0 + Off.SEGMENT_STR_RING_WR 15, 2)]
       (plays (2 ^ 25 + 4) (secK + 4 * 256000)))
     (u.stream 0 15).seg.isSome = true ∧ descRing (u.stream 0 15).desc = true ∧
       (u.stream 0 15).taken < descLen (u.stream 0 15).desc ∧ u.dueAt (u.stream 0 15) (u.stream 0 15).taken ≤ u.now ∧
       u.ringLevel 0 15 ≠ 0 ∧ (u.stream 0 15).fill = none ∧ (u.stream 0 15).endAt = none ∧
         targetOk 0 (u.rd (segPg 0 + Off.SEGMENT_STR_CFG 15)) = true ∧
       u.firstPoison (u.slotAddr 0 15 (u.rd (segPg 0 + Off.SEGMENT_STR_RING_RD 15))) (kindBytes (u.strKind 0 15)) = none) ∧
    (let u := fd { sg 1 [(segPg 0 + Off.SEGMENT_STR_RING_SIZE 15, 8), (segPg 0 + Off.SEGMENT_STR_FILL_SEG 15, 1)]
       (plays (2 ^ 25 + 4) (secK + 4 * 256000)) with mem := [(0x2000010, 4)] }
     u.missingAt 0 15 (u.stream 0 15) = some secK ∧ secK ≤ u.now + 2 * u.gK ∧ (u.stream 0 15).fill = none ∧
       (u.stream 0 15).endAt = none ∧
       u.bit (segPg 0 + Off.SEGMENT_STR_CFG 15) 4 = false ∧ (u.stream 0 15).owner = none ∧
       u.readDesc 0 15 (u.fld (segPg 0 + Off.SEGMENT_STR_FILL_SEG 15) 0 16) = .inl 4 ∧ descRing 4 = false) ∧
    (let u := fd { sg 1 [(segPg 0 + Off.SEGMENT_STR_RING_SIZE 15, 8), (segPg 0 + Off.SEGMENT_STR_RING_WR 15, 1),
       (segPg 0 + Off.SEGMENT_STR_FILL_SEG 15, 1)] { plays (2 ^ 25 + 4) (secK + 2 * 256000) with fill := some fill1 } with
       mem := [(0x2000010, 4)] }
     (u.missingAt 0 15 (u.stream 0 15)).isSome = true ∧ (∀ x ∈ u.missingAt 0 15 (u.stream 0 15), x ≤ u.now + 2 * u.gK) ∧
       (u.stream 0 15).fill = some fill1 ∧ u.bit (segPg 0 + Off.SEGMENT_STR_CFG 15) 4 = false ∧ (u.stream 0 15).owner = none ∧
       u.readDesc 0 15 (u.fld (segPg 0 + Off.SEGMENT_STR_FILL_SEG 15) 0 16) = .inl 4) ∧
    (let u := fd (sg 1 [] { plays (2 ^ 25 + 4) secK with fill := some fill1 })
     (u.stream 0 15).seg.isSome = true ∧ targetOk 0 (u.rd (segPg 0 + Off.SEGMENT_STR_CFG 15)) = true ∧ u.poison = [] ∧
       fill1.avail = some 256001 ∧ fill1.jumpAt = none ∧
       u.resumeAt fill1 256001 ≤ u.now ∧ (u.stream 0 15).endAt = none) ∧
    (let u := fd (st [])
     u.has 0 = true ∧ u.locked (segPg 0) = false) ∧
    (let u := fd { sg 3 [(calStat 0, 2), (chCtrl 0 31, 3), (chStat 0 31, 1), (edgePg 0 31 + Off.EDGE_CH_VEC_CTRL 7, 15 + 31 * 16)]
       (plays 4 (256000 * 5)) with streams := [(15, { plays 4 (256000 * 5) with segStart := 256000 })], mem := [(0x200000B, 0x40)] }
     bits (u.vecCtrl 0 31) 0 4 = 15 ∧ u.vecOn 0 31 = true ∧ u.strKind 0 15 = 3 ∧
       u.clk.o + 32 * 5 * u.clk.n + bits (u.vecCtrl 0 31) 16 14 + u.fld (segPg 0 + Off.SEGMENT_STR_VEC_STROBE 15) 0 14 ≤ u.now ∧
       u.vecCode 0 15 (bits (u.vecCtrl 0 31) 16 14) 32 (bits (u.vecCtrl 0 31) 4 5) = some 2) := by decide +kernel

/-- A PLAY of a shape of 64 samples, and a pulse of it. -/
def play64 : Nat := 1 + 2 ^ 64 * (64 * 2 ^ 32)
def pulse0 : Pulse := { start := 16000, stop := 2 * secK, taper := none, payload := play64, owner := none, stream := none }

theorem wit_ToneLanes :
    (let u := fd { st [] with queues := [(0x13F, [pg0 play64])] }
     u.toneLane? 0 1 63 = some 0x13F ∧ (u.queue 0x13F = pg0 play64 :: [] ∧ (pg0 play64).pt ≤ u.now ∧ (pg0 play64).action = 1 ∧
       u.laneFault 0x13F = false) ∧ u.holder 0x13F = none ∧ ((u.tone 0x13F).upto (pg0 play64).pt).pulse = none ∧
       (pg0 play64).poisoned 0x13F = false ∧ u.voidOf (pg0 play64).owner = none ∧
       shapeWords (isFlux 0x13F) (bits (pg0 play64).payload 64 64) ≤ u.unread 0x13F (pg0 play64).pt 64) ∧
    (let u := fd (st [])
     let p := { pg0 play64 with pt := u.now }
     u.unread 0x13F p.pt 0 < shapeWords (isFlux 0x13F) (bits p.payload 64 64) ∧
       (u.playAgain 0x13F (u.unread 0x13F p.pt 0) p).poisoned 0x13F = false) ∧
    (let u := fd (st [(convCtrl 0x13F, 1), (tonePg 0x13F + 8, 1)])
     u.emits 0x13F = true ∧ 0 < u.clk.n) ∧
    (let u := fd { st [] with queues := [(0x30F, [pg0 play64])] }
     u.toneLane? 0 3 15 = some 0x30F ∧ isFlux 0x30F = true ∧ u.holder 0x30F = none ∧ (pg0 play64).poisoned 0x30F = false) ∧
    (let u := fd { st [] with queues := [(0x100, [pg0 (2 + 0xFFFF * 2 ^ 32)])] }
     u.toneLane? 0 1 0 = some 0x100 ∧ (u.queue 0x100 = pg0 (2 + 0xFFFF * 2 ^ 32) :: [] ∧
       (pg0 (2 + 0xFFFF * 2 ^ 32)).action = 2 ∧ u.laneFault 0x100 = false)) ∧
    (let u := fd { st [] with queues := [(0x200, [pg0 3])] }
     u.toneLane? 0 2 0 = some 0x200 ∧ (pg0 3).action = 3 ∧ u.laneFault 0x200 = false) ∧
    (let u := fd { st [] with queues := [(0x100, [pg0 4])], tones := [(0x100, { ToneSt.init with pulse := some pulse0 })] }
     (u.queue 0x100 = pg0 4 :: [] ∧ (pg0 4).action = 4 ∧ u.laneFault 0x100 = false) ∧ u.holder 0x100 = none ∧
       ((u.tone 0x100).upto (pg0 4).pt).pulse = some pulse0 ∧ pulse0.taper = none ∧ u.locked (tonePg 0x100) = false ∧
       isFlux 0x100 = false ∧ ((u.tone 0x100).upto u.now).pulse = some pulse0 ∧ u.outFault 0x100 = false) ∧
    (let u := fd (st [])
     u.locked (tonePg 0x30F) = false ∧ u.has 0 = true ∧ 0x30F = laneAddr 0 3 15) := by decide +kernel

/-- A window of an input, and one that is held. -/
def win0 : Window :=
  { first := 16000, len := 4, mask := 0, store := 1, demods := [], late := false, injected := false, trunc := false, ovr := false,
    suspect := false, coasted := false, warming := false, peg := 0, owner := none }
def held0 : HeldWin :=
  { p := 16000, from_ := 16000, len := 4, mask := 0, store := 1, peg := 0, owner := none, late := false, counted := false, queued := true }

/-- Capture input 3 of bent 0, enabled, in a state. -/
abbrev cp (l : List (Nat × Nat)) (c : CapSt) : State :=
  { st ([(capPg 0 3 + 8, 1), (capPg 0 3 + Off.CAP_CAP_CTRL, 1)] ++ l) with caps := [(3, c)] }

theorem wit_CaptureWindows :
    (let u := fd { cp [] CapSt.init with queues := [(0x403, [pg0 (1 + 16 + 4 * 256)])] }
     (u.queue (laneAddr 0 4 3) = pg0 (1 + 16 + 4 * 256) :: [] ∧ (pg0 (1 + 16 + 4 * 256)).pt ≤ u.now ∧
       (pg0 (1 + 16 + 4 * 256)).action = 1 ∧ u.laneFault (laneAddr 0 4 3) = false) ∧ (u.cap 0 3).inj = none ∧
       u.injBlock 0 3 0 1 (u.sampleCeil 16000) 4 = none ∧ (u.runningAt 0 3 (u.sampleCeil 16000)).length < 4 ∧
       (∀ w ∈ u.runningAt 0 3 (u.sampleCeil 16000), w.clashes 0 1 = false) ∧
         (u.cap 0 3).contUses 0 (u.sampleCeil 16000) = false ∧
       u.voidOf (pg0 (1 + 16 + 4 * 256)).owner = none) ∧
    (let u := fd (cp [] { CapSt.init with held := [held0] })
     (u.cap 0 3).inj = none ∧ u.findHeld 0 3 (u.cap 0 3).held [] = some (held0, 16000) ∧ u.voidOf held0.owner = none) ∧
    (let u := fd (cp [] { CapSt.init with wins := [win0] })
     u.has 0 = true ∧ u.fld (grpStat 0 (7 + 3)) 0 2 = 0 ∧ u.relockHeld = false ∧ (u.cap 0 3).inj = none ∧ (u.has 0 = true ∧
       u.locked (capPg 0 3) = false) ∧
       u.capOn 0 3 = true ∧ u.fenced (capPg 0 3) = false ∧ u.capFault 0 3 = false ∧
         (∀ w ∈ (u.cap 0 3).wins, w.injected = false)) ∧
    (let u := fd (cp [] { CapSt.init with inj := some (2 * secK) })
     (u.cap 0 3).inj = some (2 * secK) ∧ u.now < 2 * secK ∧ u.capOn 0 3 = true ∧ u.fenced (capPg 0 3) = false ∧
       u.capFault 0 3 = false) ∧
    (let u := fd (cp [(calStat 0, 2), (capPg 0 3 + Off.CAP_PWE_CTRL, 1 + 2 * 7), (capPg 0 3 + Off.CAP_PWE_MIN, 1), (capPg 0 3 + Off.CAP_PWE_MAX, 2),
       (stampPg 0 + 8, 1), (stampPg 0 + Off.STAMP_IN_CFG 7, 7)] CapSt.init)
     bitAt (u.rd (capPg 0 3 + Off.CAP_PWE_CTRL)) 0 = true ∧ false = bitAt (u.rd (capPg 0 3 + Off.CAP_PWE_CTRL)) 4 ∧
       u.fenced (capPg 0 3) = false ∧ u.fenced (stampPg 0) = false ∧ u.capOn 0 3 = true ∧ (u.cap 0 3).drainAt = none ∧
       u.draining (capPg 0 3) = false ∧ u.enabled (stampPg 0) = true ∧
       u.bit (stampPg 0 + Off.STAMP_IN_CFG (bits (u.rd (capPg 0 3 + Off.CAP_PWE_CTRL)) 1 3)) 0 = true ∧
       u.srcUsable 0 (0, bits (u.rd (capPg 0 3 + Off.CAP_PWE_CTRL)) 1 3, 0) = true ∧
       u.srcUsable 0 (0, bits (u.rd (capPg 0 3 + Off.CAP_PWE_CTRL)) 1 3, 1) = true ∧
       u.rd (capPg 0 3 + Off.CAP_PWE_MIN) * 16 ≤ 132 - 100 ∧
         132 - 100 ≤ u.rd (capPg 0 3 + Off.CAP_PWE_MAX) * 16) := by decide +kernel

/-- A demodulator that neither weighs nor decides. -/
def demod15 : Demod :=
  { d := 15, ctrl := 0, freq := 0, phase := 0, weight := 0, bnd0 := 0, bnd0c := 0, bnd1 := 0, bnd1c := 0, conf := 0, shape := none }

theorem wit_CaptureResults :
    (let u := fd (cp [] { CapSt.init with wins := [win0] })
     (u.cap 0 3).inj = none ∧ u.endedWin 0 3 = some win0 ∧ win0.demods = [] ∧ win0.store ≠ 0) ∧
    (let u := fd (cp [] { CapSt.init with wins := [{ win0 with demods := [demod15] }] })
     u.endedWin 0 3 = some { win0 with demods := [demod15] } ∧ demod15.d < 16 ∧
       u.vidImported (16 * 3 + 15) = false) := by decide +kernel

/-- Continuous capture whose block is over. -/
def cont0 : Cont :=
  { next := 256000, src := 0, demod := 0, dest := 0, dec := 0, stop := some (256000 + 160 * 1600), cut := false, owner := none, ovr := false,
    suspect := false, coasted := false, warming := false }

theorem wit_CaptureContinuous :
    (let u := fd { cp [] CapSt.init with queues := [(0x403, [pg0 2])] }
     (u.queue (laneAddr 0 4 3) = pg0 2 :: [] ∧ (pg0 2).action = 2 ∧ u.laneFault (laneAddr 0 4 3) = false) ∧
       (u.cap 0 3).inj = none ∧
       (u.cap 0 3).cont = none ∧ u.voidOf (pg0 2).owner = none ∧ u.capOn 0 3 = true ∧ u.capFault 0 3 = false ∧
       ((u.has 0 = true ∧ u.locked (capPg 0 3) = false) ∧ u.fenced (capPg 0 3) = false)) ∧
    (let u := fd { cp [] { CapSt.init with cont := some cont0 } with queues := [(0x403, [pg0 3])] }
     (u.queue (laneAddr 0 4 3) = pg0 3 :: [] ∧ (pg0 3).action = 3 ∧ u.laneFault (laneAddr 0 4 3) = false) ∧
       (u.cap 0 3).cont = some cont0 ∧ cont0.src = 0 ∧ 0 < u.clk.n ∧ cont0.next + 160 * u.clk.n ≤ u.now ∧
       cont0.stop = some (cont0.next + 160 * u.clk.n)) := by decide +kernel

/-- Input 3 with its spare free and rotation enabled. -/
abbrev rotRegs : List (Nat × Nat) := [(capPg 0 3 + Off.CAP_ROT_CTRL, 0x10001), (capPg 0 3 + Off.CAP_SLICE_STAT, 0x24)]

/-- A verdict of VID 511. -/
def v511 : VRec := { vid := 511, byte := 1, endTick := 10, serial := 0 }

theorem wit_CaptureSlices :
    (let u := fd (cp (bgRegs ++ rotRegs) { CapSt.init with rotReq := true })
     (u.has 0 = true ∧ u.locked (capPg 0 3) = false) ∧ (u.cap 0 3).rotReq = true ∧ u.rotOk 0 3 = true) ∧
    (let u := fd (cp (bgRegs ++ rotRegs) CapSt.init)
     u.bgRuns 0 = true ∧ (u.cap 0 3).lastRot + u.fld (capPg 0 3 + Off.CAP_ROT_CTRL) 0 16 * 1000 * usK ≤ u.now ∧
       u.rotOk 0 3 = true) ∧
    (let u := fd (cp [(capPg 0 3 + Off.CAP_ROT_CTRL, 0)] CapSt.init)
     (u.has 0 = true ∧ u.locked (capPg 0 3) = false) ∧ u.rotOk 0 3 = false) ∧
    (let u := fd (cp rotRegs { CapSt.init with rot := some { role := 1, blocks := 2, swapped := false, spared := false, ready := 0 } })
     u.sliceOf 0 3 2 = some 2 ∧ u.sliceOf 0 3 1 = some 1 ∧ (u.cap 0 3).inj = none ∧
       (∀ w ∈ (u.cap 0 3).wins, w.injected = false) ∧
       u.granCeil 0 ≤ u.now ∧ u.noSpare 0 3 = false ∧ u.fld (grpStat 0 (7 + 3)) 0 2 = 0 ∧ u.relockHeld = false ∧
       (u.cap 0 3).vote = none) ∧
    (let u := fd (cp rotRegs { CapSt.init with rot := some { role := 0, blocks := 2, swapped := false, spared := true, ready := 0 } })
     u.sliceOf 0 3 2 = some 2 ∧ u.sliceOf 0 3 0 = some 0) ∧
    (let u := fd (cp [(capPg 0 3 + Off.CAP_SLICE_STAT, 0x2C)]
       { CapSt.init with rot := some { role := 1, blocks := 2, swapped := true, spared := false, ready := 0 } })
     u.sliceOf 0 3 3 = some 1 ∧ u.sliceFailed 0 3 1 = false) ∧
    (let u := fd (cp rotRegs CapSt.init)
     (u.cap 0 3).rot = none ∧ (u.sliceOf 0 3 2).isSome = true ∧ u.noSpare 0 3 = false ∧ (u.cap 0 3).vote = none ∧
       u.relockHeld = false ∧
         4096 * u.fld (capPg 0 3 + Off.CAP_PLAUS_TOL) 0 8 < (([10000000] : List Int).foldl (fun a d => a + d) 0).natAbs) ∧
    (let u := fd { st [] with verdicts := [v511] }
     u.nextVerdict 127 511 = some v511 ∧ u.has 7 = true ∧ u.bit (bp 7 0x18 + Off.CONTINUITY_CONT_STAT) 0 = false ∧
       (511 / 64 : Nat) = 7 ∧
       (u.seq 127).awaitWait = false) := by decide +kernel

theorem wit_EnergyAccount :
    (let u := fd { st [] with account := { Account.init with us := 999 } }
     999 ≤ u.account.us ∧ u.clk.running = true ∧ u.now / usK ≠ u.account.upd ∧
       -(2 ^ 63 * (ujU : Int)) ≤ u.nextCredit (total ((List.range u.variant.bents).map fun b => total (u.railUse b (railsOf [7] b))) +
         7 * 65536)) ∧
    (let u := fd { st [] with account := { Account.init with upd := 1000000 } }
     u.clk.running = true ∧ u.now / usK = u.account.upd) ∧
    (let u := fd State.reset
     u.clk.running = false) ∧
    (let u := fd { st [(ledgerPg + Off.LEDGER_BG_RESERVE, 0x7FFFFFFF)] with account := { Account.init with lowAt := some 0 } }
     u.account.lowAt = some 0 ∧ u.account.lowDone = false ∧ u.margin < 0 ∧ 0 + secK ≤ u.now) ∧
    (let u := fd { st [(energyPg 0 + Off.ENERGY_TELEM_CTRL, 1)] with meters := [(0, { Meter.init with fails := 2 })] }
     u.has 0 = true ∧ u.bit (energyPg 0 + Off.ENERGY_TELEM_CTRL) 0 = true ∧ u.telemDue 0 = true ∧ (u.meter 0).fails = 2 ∧
       (0 : Nat) = u.ridge ∧
       (u.has 0 = true ∧ u.locked (energyPg 0) = false)) := by decide +kernel

theorem wit_GroupsAndPace :
    (let u := fd (st [(calStat 0, 2), (energyPg 0 + Off.ENERGY_GRP_CTRL 0, 2)])
     u.groupTarget 0 0 = 2 ∧ u.idleLong 0 0 = true ∧ u.has 0 = true ∧ u.pwrup 0 = true ∧ u.bentNow 0 < 3 ∧
       u.fld (grpStat 0 0) 0 2 < 2 ∧ u.wakeAt 0 0 = none ∧
       u.groupIdle 0 0 = true) ∧
    (let u := fd { st [(grpStat 0 12, 3)] with meters := [(0, { Meter.init with unforced := 0x1000 })] }
     u.bentNow 0 < 3 ∧ bitAt (u.meter 0).unforced 12 = true ∧ u.fld (grpStat 0 12) 0 2 ≠ 0 ∧ u.wakeAt 0 12 = none) ∧
    (let u := fd { st [(grpStat 0 12, 3), (bentStat 0, 0xB)] with wakes := [(12, some 5), (13, some 5)] }
     u.wakeAt 0 12 = some 5 ∧ u.wakeAt 0 13 = some 5 ∧ 5 ≤ u.now) ∧
    (let u := fd { st [(sillStat 0 0, 3), (pacePg 0 + Off.PACE_PACE_CTRL, 0x501), (pacePg 0 + Off.PACE_PACE_STAT, 9)] with
       meters := [(0, { Meter.init with above := some 0 })] }
     u.paceLoop 0 = true ∧ u.now / usK ≠ (u.meter 0).paced ∧ (u.meter 0).raised = none ∧
       100 * u.rd (pacePg 0 + Off.PACE_PACE_NOW) < u.paceTarget 0 ∧
       (u.meter 0).above = some 0 ∧ 0 + 1000 * usK ≤ u.now ∧
         u.bit (pacePg 0 + Off.PACE_PACE_STAT) 0 = true) := by decide +kernel

/-! ### Pages, pegs on their way, registers, memories, commits -/

theorem wit_PageControl :
    (let u := fd (st [(bp 0 4 + 8, 0x101)])
     pageRow? u.variant (bp 0 4) = bentPage 4 ∧ u.locked (bp 0 4) = true) ∧
    (let u := fd (st [(bp 0 4 + 8, 4)])
     pageRow? u.variant (bp 0 4) = bentPage 4 ∧ u.locked (bp 0 4) = false ∧ u.fenced (bp 0 4) = true) ∧
    (let u := fd (st [(chCtrl 0 7, 1)])
     ((bentPage 4).map fun r => (r.fixed, r.fence)) = some (false, true) ∧ u.locked (bp 0 4) = false ∧
       u.fenced (bp 0 4) = false ∧
       u.chMode 0 7 ≠ 0 ∧ u.chLive 0 7 = false ∧ (u.edge 0 7).senseEnd = none ∧ u.bit (chStat 0 7) 13 = false ∧
       u.bit (chCtrl 0 7) 8 = false ∧ u.draining (bp 0 4) = false) ∧
    (let u := fd (st [])
     ((bentPage 3).map fun r => r.fixed) = some true ∧ u.locked (bp 0 3) = false ∧ u.fenced (bp 0 3) = false) ∧
    (let u := fd (st [(bp 0 4 + 8, 1), (chStat 0 7, 1)])
     u.enabled (bp 0 4) = true ∧ pageNo (bp 0 4) < 0x20 ∧ u.chLive 0 7 = true) ∧
    (let u := fd (st [(seqPg 15 + 8, 1)])
     ((bentPage 0x2F).map fun r => r.fixed) = some false ∧ u.enabled (bp 0 0x2F) = true ∧ bp 0 0x2F = seqPg (seqNo 0 15) ∧
       (u.seq (seqNo 0 15)).phase = .halted ∧ (u.seq (seqNo 0 15)).owed = []) := by decide +kernel

theorem wit_SelftestsAndDrains :
    (let u := fd (st [(bp 0 4 + 12, 2)])
     u.locked (bp 0 4) = false ∧ u.fenced (bp 0 4) = false ∧ u.testRefused (bp 0 4) .edge = none) ∧
    (let u := fd (st [])
     u.drained (bp 0 0x13) = false ∧ u.testRefused (bp 0 0x13) .cap = some 0x83) ∧
    (let u := fd (st [(bp 0 4 + 12, 8)])
     u.bit (bp 0 4 + Off.PG_PAGE_STAT) 3 = true) ∧
    (let u := fd (st [(pkgp 3 + 8, 3)])
     u.draining (pkgp 3) = true) ∧
    (let u := fd { st [(bp 0 4 + 8, 3)] with edges := [(7, { EdgeSt.init with drainAt := some 5 })] }
     u.drainAsked 0 4 = true ∧ u.pageIdle 0 4 = true ∧
       (∀ l ∈ pageLanes 0 4, u.laneOwed l = false ∧ u.chMode 0 (laneIdx l) ≠ 3 ∧
         ((u.edge 0 (laneIdx l)).upto (u.chRest 0 (laneIdx l)) u.now).restAt = none ∧
         ((u.edge 0 (laneIdx l)).upto (u.chRest 0 (laneIdx l)) u.now).onAt ≤ u.now ∧
         ((u.edge 0 (laneIdx l)).upto (u.chRest 0 (laneIdx l)) u.now).base = u.chRest 0 (laneIdx l)) ∧
       ((u.edge 0 7).drainAt).isSome = true) := by decide +kernel

theorem wit_PageEvents :
    (let u := fd (st [])
     pageRow? u.variant (bp 0 0x16) = bentPage 0x16 ∧ u.locked (bp 0 0x16) = false ∧
       eventBits ⟨.cal, 0, 0, true, false, true, 8⟩ false 0x180 = [7]) ∧
    (let u := fd { st [] with ev := { State.reset.ev with holdoff := [(1151, some { until_ := 5, again := true })] } }
     mapGet (fun _ => none) u.ev.holdoff 1151 = some { until_ := 5, again := true } ∧ 5 ≤ u.now ∧
       u.ev.msixWord (4 * 1151 + 3) % 2 = 1) ∧
    (let u := fd { st [] with ev := { State.reset.ev with holdoff := [(1, some { until_ := 5, again := true })], msix := [(7, 0)] } }
     mapGet (fun _ => none) u.ev.holdoff 1 = some { until_ := 5, again := true } ∧ u.ev.msixWord (4 * 1 + 3) % 2 = 0) ∧
    (let u := fd { st [] with ev := { State.reset.ev with holdoff := [(1, some { until_ := 5, again := false })] } }
     mapGet (fun _ => none) u.ev.holdoff 1 = some { until_ := 5, again := false }) ∧
    (let u := fd (st [])
     u.memHas (mb 7 0x60FFFFF) = true ∧ u.poisoned (mb 7 0x60FFFFF) 1 = false ∧
       u.memHas (mb 7 0x6100000) = false) := by decide +kernel

/-- A peg of sequencer 16 (bent 1). -/
def pegB1 : Peg := { pt := secK + 800 * 1600, payload := 0x11, owner := some { seq := 16, shot := 1 }, trig := false }

theorem wit_PegAcceptance :
    (let u := fd { st [(conPg 0 + Off.CONTINUITY_CONT_STAT, 1)] with flight := [(3, [pegB1])] }
     u.laneValid 3 = true ∧ u.inFlight 3 = [pegB1] ∧ 16 / 16 ≠ 0 ∧ u.bit (conPg 0 + Off.CONTINUITY_CONT_STAT) 0 = true) ∧
    (let u := fd { st [(chStat 0 3, 1), (chCtrl 0 3, 1)] with flight := [(3, [pg0 0x11])], queues := [(3, List.replicate 64 pegB1)] }
     (pg0 0x11).fromBent 3 = 0 ∧ u.laneFull 3 = true) ∧
    (let u := fd { st [(bp 0 4 + 8, 5)] with flight := [(3, [pg0 0x11])] }
     u.inFlight 3 = [pg0 0x11] ∧ u.fenced (lanePg 3) = true) ∧
    (let u := fd { st [(bp 0 4 + 8, 1), (chStat 0 3, 1), (chCtrl 0 3, 1), (calStat 0, 2)] with flight := [(3, [pegB1])] }
     u.bit (conPg 0 + Off.CONTINUITY_CONT_STAT) 0 = false ∧ u.laneFull 3 = false ∧ u.fenced (lanePg 3) = false ∧
       u.laneEnabled 3 = true ∧ u.laneFault 3 = false ∧ u.drainRefuses 3 pegB1 = false ∧ u.checkPeg 3 pegB1 = .inr pegB1 ∧
       pegB1.poisoned 3 = false ∧ u.unwoken 3 = false ∧
       u.laneGroup 3 = some 11 ∧ u.fld (grpStat 0 11) 0 2 = 0 ∧ u.wakeAt 0 11 = none ∧ u.queue 3 = [] ∧
       u.clk.o + (u.tick u.now + laneLead 3) * u.clk.n ≤ pegB1.pt ∧ u.liveAt 3 0 ≤ pegB1.pt) ∧
    (let u := fd { st [(bp 0 4 + 8, 1), (chStat 0 3, 1), (chCtrl 0 3, 1), (calStat 0, 2)] with flight := [(3, [pg0 0x11])] }
     u.laneEnabled 3 = true ∧ u.checkPeg 3 (pg0 0x11) = .inr (pg0 0x11) ∧ u.laneFull 3 = false ∧ u.fenced (lanePg 3) = false ∧
       u.laneFault 3 = false ∧ u.drainRefuses 3 (pg0 0x11) = false ∧ (pg0 0x11).poisoned 3 = false ∧ u.unwoken 3 = false ∧
       u.laneGroup 3 = some 11 ∧ u.fld (grpStat 0 11) 0 2 = 0 ∧ u.wakeAt 0 11 = none ∧ u.queue 3 = [] ∧
       (pg0 0x11).pt < u.clk.o + (u.tick u.now + laneLead 3) * u.clk.n ∧ u.latePolicy 3 = 0) ∧
    (let u := fd { st [] with flight := [(0x73F, [pg0 0])] }
     u.laneValid 0x73F = true ∧ u.laneGroup 0x73F = none ∧ u.laneFull 0x73F = false ∧ u.laneFault 0x73F = false ∧
       u.drainRefuses 0x73F (pg0 0) = false ∧ (pg0 0).poisoned 0x73F = false ∧ u.unwoken 0x73F = false ∧
         u.laneEnabled 0x73F = true ∧ u.checkPeg 0x73F (pg0 0) = .inr (pg0 0) ∧
       (pg0 0).pt < u.clk.o + (u.tick u.now + laneLead 0x73F) * u.clk.n ∧ u.latePolicy 0x73F = 0) := by decide +kernel

theorem wit_RegisterAccess :
    (let u := fd (st [])
     (pageRow? u.variant (bp 0 4 + 0x100)).isSome = true ∧
       ((regRow? u.variant (chCtrl 0 0)).map fun r => (r.own, r.acc)) = some (false, .rs) ∧
       ((regRow? u.variant (calPg 0 + Off.CAL_CAL_SEL)).map fun r => (r.own, r.acc)) = some (false, .rw) ∧
       ((regRow? u.variant (calStat 0)).map fun r => (r.own, r.acc)) = some (false, .ro) ∧
       ((regRow? u.variant (capPg 0 3 + Off.CAP_CAP_FLAGS)).map fun r => (r.own, r.acc)) = some (false, .w1c) ∧
       u.locked (pageOf (chCtrl 0 0)) = false) ∧
    (let u := fd (st [(bp 0 4 + 8, 0x100)])
     u.locked (pageOf (chCtrl 0 0)) = true ∧ lockFree .edge 0x100 = false) ∧
    (let u := fd (st [])
     ptWord .time Off.TIME_ALARM_PT_LO = some (Off.TIME_ALARM_PT_LO, 0) ∧
       ptWord .time (Off.TIME_ALARM_PT_LO + 8) = some (Off.TIME_ALARM_PT_LO, 2) ∧ u.locked (timePg 0) = false ∧
       ((regRow? u.variant (timePg 0 + Off.TIME_ALARM_PT_LO)).map fun r => r.acc) = some .rw ∧
       ptWord .timebase Off.TIMEBASE_AGE_EPOCH_LO = some (Off.TIMEBASE_AGE_EPOCH_LO, 0) ∧
       ((regRow? u.variant (tbPg + Off.TIMEBASE_AGE_EPOCH_LO)).map fun r => r.acc) = some .rs) := by decide +kernel

theorem wit_Bar2Access :
    (let u := fd (st [])
     (∀ k, k < 3 → u.poisoned (0x1FFFFE + k) 1 = false) ∧ (0x1FFFF8 : Nat) % 8 = 0 ∧ u.memHas 0x1FFFF8 = true ∧
       u.memHas 0x200000 = false ∧ u.poisoned 0x1FFFF8 1 = false) ∧
    (let u := fd { st [] with poison := [(0x3FFFF, true)] }
     (0x1FFFF8 : Nat) % 8 + 7 ≤ 8 ∧ u.poisoned 0x1FFFF8 1 = true) := by decide +kernel

/-- A page whose first lock is past. -/
abbrev lockedIn (s : State) : State := { s with cals := [(0, { CalSt.init with lockAt := some 0 })] }

theorem wit_PageCommits :
    (let u := fd (lockedIn (st []))
     u.hasLocked (calPg 0) = true ∧ u.pageSnap (calPg 0) .cal = [] ∧ stagesP .cal [] = false ∧ u.changesTiming [] = false ∧
       u.pendingOf (calPg 0) = [] ∧ ((pageRow? u.variant (calPg 0)).map fun r => r.kind) = some .cal) ∧
    (let u := fd { lockedIn (st []) with shadow := [(seqP 0 0, 5)], dirty := [(seqP 0 0, true)] }
     u.hasLocked (seqPg 0) = true ∧ stagesP .seq (u.pageSnap (seqPg 0) .seq) = true) ∧
    (let u := fd { lockedIn (st []) with shadow := [(sillPg 0 0 + Off.SILL_LOOP_BW, 5), (chCtrl 0 0, 1)] }
     stagesP .edge (u.pageSnap (edgePg 0 0) .edge) = false ∧ u.changesTiming (u.pageSnap (edgePg 0 0) .edge) = true) ∧
    (let u := fd { lockedIn (st []) with commits := List.replicate 4 ⟨calPg 0, 2, 0, 0, []⟩ }
     4 ≤ (u.pendingOf (calPg 0)).length ∧ (u.pendingOf (calPg 0)).head? = some ⟨calPg 0, 2, 0, 0, []⟩ ∧
       u.boundaryOf ⟨calPg 0, 2, 0, 0, []⟩ = some 256000 ∧ ∀ e ∈ u.seqs, (u.seq e.1).phase ≠ .gateHold) ∧
    (let u := fd (st [])
     u.hasLocked (calPg 0) = false) := by decide +kernel

/-! ### Continuity, foremen, ridge, tree -/

theorem wit_BentCommands :
    (let u := fd (st [(conPg 1 + Off.CONTINUITY_CONT_STAT, 1)])
     (u.has 1 = true ∧ u.locked (conPg 1) = false) ∧ (1 : Nat) ≠ u.ridge ∧ u.bentFenced 1 = true ∧
       u.bit (hierPg + Off.HIER_CAND) (8 + 1) = false) ∧
    (let u := fd (st [])
     u.bentFenced 7 = false ∧ u.worker = false ∧ (∀ q, q < 16 → (u.seq (7 * 16 + q)).phase = .halted ∧
       (u.seq (7 * 16 + q)).owed = []) ∧
       u.bentFenced 0 = false ∧ (0 : Nat) = u.ridge ∧ u.tree.mig = none ∧ u.nextCand 0 = none) ∧
    (let u := fd (st [(hierPg + Off.HIER_CAND, 0x20282)])
     u.nextCand 0 = some 1) ∧
    (let u := fd (st [(conPg 1 + Off.CONTINUITY_CONT_STAT, 1), (hierPg + Off.HIER_CAND, 0x200)])
     u.bit (hierPg + Off.HIER_CAND) (8 + 1) = true ∧ u.bentFenced 1 = true) ∧
    (let u := fd { st [] with tunnels := [(256, 9)] }
     u.server (calStat 0) = 0 ∧ u.has 0 = true ∧ tunnelNew (mapGet (fun _ => 0) u.tunnels (0 * 257 + 256)) 9 = false ∧
       tunnelNew (mapGet (fun _ => 0) u.tunnels (0 * 257 + 256)) 10 = true ∧
       ((regRow? u.variant (calStat 0)).map fun r => (r.own, r.acc)) = some (false, .ro)) := by decide +kernel

theorem wit_Foremen :
    (let u := fd (st [(fmPg 0 + Off.FOREMAN_FM_STAT, 1)])
     u.has 0 = true ∧ u.foremanRuns 0 = true ∧ (u.cal 0).ops = [] ∧ (0 : Nat) = u.ridge ∧ u.locked (conPg 0) = false ∧
       u.boot.switch = none ∧
       ((List.range u.variant.bents).find? fun x => u.foremanRuns x || (u.downAt x).isSome) = some 0) ∧
    (let u := fd { st [] with boot := { Boot.init with downAt := [(0, some (secK - 200 * 1000 * usK))] } }
     u.downAt 0 = some (secK - 200 * 1000 * usK) ∧ u.boot.switch = none ∧ u.now ≤ (secK - 200 * 1000 * usK) + 200 * 1000 * usK ∧
       u.mbxBusy 0 = false) ∧
    (let u := fd { st [] with boot := { Boot.init with downAt := [(0, some 0)] } }
     u.downAt 0 = some 0 ∧ 0 + 200 * 1000 * usK < u.now) := by decide +kernel

/-- A bank that is marked bad does not verify; whether another does rests on Config.ecdsaVerify. -/
theorem wit_Foremen_bank :
    (fd { st [] with boot := { Boot.init with bad := [(1, true)] } }).bankOk 1 none = false := rfl

theorem wit_Foremen_bankOk (h : (fd (st [])).bankOk 1 ((fd (st [])).ownerHash 0) = true) :
    (fd (st [(fmPg 0 + Off.FOREMAN_FM_STAT, 1)])).bankOk (1 - (fd (st [(fmPg 0 + Off.FOREMAN_FM_STAT, 1)])).bankOf 0)
      ((fd (st [(fmPg 0 + Off.FOREMAN_FM_STAT, 1)])).ownerHash 0) = true := h

theorem wit_RidgeRole :
    (let u := fd (st [(hierPg + Off.HIER_CAND, 0x28082)])
     u.tree.elected = false ∧ u.firstCandidate = some 1 ∧ u.boot.preloads = []) ∧
    (let u := fd { st [(hierPg + Off.HIER_CAND, 0x20282), (hierPg + Off.HIER_MIG_TARGET, 1)] with tree := { Tree.init with elected := true } }
     u.tree.elected = true ∧ u.fld (hierPg + Off.HIER_MIG_TARGET) 0 3 = 1 ∧ u.locked hierPg = false ∧ u.candidate 1 = true ∧
       1 ≠ u.ridge ∧ u.tree.mig = none ∧ u.clk.running = true ∧ u.tree.lastHb + 10 * usK ≤ u.now ∧ u.nextCand u.ridge = some 1 ∧
       u.has u.ridge = true ∧ u.worker = false ∧
       (∀ q, q < 16 → (u.seq (u.ridge * 16 + q)).phase = .halted ∧ (u.seq (u.ridge * 16 + q)).owed = []) ∧
       u.locked purlinPg = false ∧ u.tree.skew = 0) ∧
    (let u := fd { st [] with tree := { Tree.init with lastHb := secK } }
     u.candidate 0 = false ∧ u.now < u.tree.lastHb + 10 * usK) ∧
    (let u := fd { st [] with tree := { Tree.init with elected := true, mig := some ⟨1, false, false, 5⟩, skew := 2 } }
     u.migTo = some ⟨1, false, false, 5⟩ ∧ u.has u.ridge = true ∧ u.tree.skew ≠ 0) ∧
    (let u := fd (st [(purlinPg + Off.PURLIN_PURLIN_CTRL, 0)])
     u.has 7 = true ∧ (7 : Nat) ≠ u.ridge ∧ u.clk.running = true ∧ u.bentFenced 7 = false ∧ (12800 : Int).natAbs ≤ 8 * u.clk.n ∧
       u.bit (sillStat 7 (u.activeSill 7)) 3 = false ∧ 8 * u.clk.n < (12801 : Int).natAbs ∧
       u.bit (purlinPg + Off.PURLIN_PURLIN_CTRL) 0 = false) ∧
    (let u := fd (st [(conPg 7 + Off.CONTINUITY_CONT_STAT, 1)])
     u.has 7 = true ∧ (7 : Nat) ≠ u.ridge ∧ u.clk.running = true ∧ u.bentFenced 7 = true) ∧
    (let u := fd (st [(purlinPg + Off.PURLIN_PURLIN_CTRL, 1)])
     u.bit (purlinPg + Off.PURLIN_PURLIN_CTRL) 0 = true ∧ u.worker = false ∧
       (∀ q, q < 16 → (u.seq (7 * 16 + q)).phase = .halted ∧ (u.seq (7 * 16 + q)).owed = [])) := by decide +kernel

/-- A worker whose tenon (port 15) has trained with a peer. -/
abbrev wk (l : List (Nat × Nat)) (p : Peer) : State :=
  { st ([(hierCtrl, 0xF01), (hierStat, 0x20), (portStat 7 1, 0x3D)] ++ l) with
    ports := [(15, { Port.init with peer := some p })] }

/-- A mortise's package at the root, and one of a level too deep. -/
abbrev rootPeer : Peer := { pkg := 0, n := 1600, level := 0, ordinal := 3 }
abbrev deepPeer : Peer := { pkg := 17, n := 1600, level := 2, ordinal := 3 }

theorem wit_TreeMembership :
    (let u := fd (wk [] deepPeer)
     u.has u.ridge = true ∧ u.locked hierPg = false ∧ u.tenonPeer = some deepPeer ∧ u.worker = true ∧ u.bit hierStat 5 = true ∧
       u.joined = false ∧ u.tree.join = none ∧ 2 ≤ deepPeer.level) ∧
    (let u := fd (wk [] { rootPeer with n := 2000 })
     u.tenonPeer = some { rootPeer with n := 2000 } ∧ (2000 : Nat) ≠ u.clk.n) ∧
    (let u := fd (wk [(srcStat, 0x4402)] rootPeer)
     u.tenonPeer = some rootPeer ∧ rootPeer.n = u.clk.n ∧ u.joinBusy = false ∧ u.clk.running = true ∧ u.srcNow < 3) ∧
    (let u := fd (wk [(hierCtrl, 0xF03)] rootPeer)
     u.bit hierCtrl 1 = true ∧ u.tenonPeer = some rootPeer ∧ u.joinBusy = false ∧ 3 ≤ u.srcNow) ∧
    (let u := fd (st [(portStat 0 0, 0x3D), (hierCtrl, 0xF00)])
     u.portUp (0 / 2) (0 % 2) = true ∧ u.isTenon 0 = false ∧ 0 ≠ u.tenonPort) ∧
    (let u := fd { wk [(sillStat 0 0, 3)] rootPeer with tree := { Tree.init with join := some 5, avg := true } }
     u.joins = true ∧ u.tenonPeer = some rootPeer) ∧
    (let u := fd { wk [(sillStat 0 0, 3), (bp 0 4 + 8, 1), (chCtrl 0 0, 1), (chStat 0 0, 1), (calStat 0, 2)] rootPeer with
       tree := { Tree.init with join := some 5, avg := true } }
     u.joinReady = true ∧ u.joinBusy = true) ∧
    (let u := fd (wk [(hierStat, 0x30)] rootPeer)
     u.locked hierPg = false ∧ u.joined = true) ∧
    (let u := fd (wk [] rootPeer)
     u.worker = true ∧ u.bit hierStat 5 = true ∧ u.portUp (u.tenonNow / 2) (u.tenonNow % 2) = true) ∧
    (let u := fd (st [(hierCtrl, 0xF01), (hierStat, 0x20)])
     u.portUp (u.tenonNow / 2) (u.tenonNow % 2) = false ∧ u.standby = none) := by decide +kernel

theorem wit_TreeMembership_standby :
    (let u := fd (st [(hierCtrl, 0x1EF01), (hierStat, 0x20), (portStat 7 0, 0x3D)])
     u.worker = true ∧ u.portUp (u.tenonNow / 2) (u.tenonNow % 2) = false ∧ u.standby = some 14) ∧
    (let u := fd (st [(hierCtrl, 0xF01), (portStat 7 1, 0x3D)])
     u.portUp (u.tenonNow / 2) (u.tenonNow % 2) = true ∧ u.bit hierStat 5 = false) := by decide +kernel

theorem wit_PortTraining :
    (let u := fd (st [(fliudPg 0 + Off.FLIUD_PORT_CTRL 1, 1)])
     u.has 0 = true ∧ u.portOn 0 1 = true ∧ u.portUp 0 1 = false ∧ u.bit (portStat 0 1) 12 = false ∧
       u.bit (portStat 0 1) 13 = false ∧
       u.locked (fliudPg 0) = false) ∧
    (let u := fd { st [(fliudPg 0 + Off.FLIUD_PORT_CTRL 1, 0x10001), (portStat 0 1, 0x3D)] with
       ports := [(1, { Port.init with errs := List.replicate 17 (2, secK) })] }
     u.laneBad 0 1 = true ∧ u.portUp 0 1 = true ∧ u.portOn 0 1 = true ∧ u.bit (fliudPg 0 + Off.FLIUD_PORT_CTRL 1) 16 = true ∧
       ((List.range 4).find? fun i => bitAt (u.portLanes 0 1) i) = some 0 ∧ 3 ≤ laneCount (putLane (u.portLanes 0 1) 0 false) ∧
       u.locked (fliudPg 0) = false ∧ u.fenced (fliudPg 0) = false) ∧
    (let u := fd (st [(portStat 0 1, 0x1000)])
     u.bit (portStat 0 1) 12 = true ∧ u.portUp 0 1 = false ∧ (∀ i, i < 4 → u.bit (portStat 0 1) (6 + i) = false) ∧
       3 ≤ laneCount 7 ∧ laneCount 3 < 3 ∧ u.worker = false) ∧
    (let u := fd { st [(portStat 0 1, 0x1000 + 0x1D)] with ports := [(1, { Port.init with lane := some 3, asym := some 3 })] }
     u.bit (portStat 0 1) 12 = true ∧ u.portUp 0 1 = true ∧ (u.port 0 1).lane = some 3 ∧ (u.port 0 1).todo = 0 ∧
       3 ≤ laneCount (putLane (u.portLanes 0 1) 3 true) ∧ (u.port 0 1).asym = some 3 ∧
         (u.port 0 1).asymTodo = 0) := by decide +kernel

theorem wit_TreeFrames :
    (let u := fd (st [(portStat 0 1, 0x3D), (hierPg + Off.HIER_CHILDREN, 2)])
     u.portUp (1 / 2) (1 % 2) = true ∧ u.bit (hierPg + Off.HIER_CHILDREN) 1 = true ∧ u.has 0 = true ∧
       mapGet (fun _ => 0) (u.port 0 1).frames 12 = 0 ∧ u.pkgNum = 0 ∧
       (∀ c, c < 8 → ∀ i, i < 64 → bitAt (u.rd (fliudPg c + Off.FLIUD_IMP i)) 0 = false)) ∧
    (let u := fd (wk [(hierCtrl, 0x10200F01)] rootPeer)
     u.portUp 7 1 = true ∧ u.isTenon 15 = true ∧ (u.port 7 1).n + 1 < 2 ^ u.fld hierCtrl 20 4 ∧ 15 = u.tenonNow) ∧
    (let u := fd (st [(portStat 0 1, 0x3D)])
     u.portUp (1 / 2) (1 % 2) = true ∧ u.mortise 1 = true ∧ u.now / usK ≠ (u.port 0 1).timed) ∧
    (let u := fd (wk [(hierCtrl, 0x10000F01)] rootPeer)
     u.isTenon 15 = true ∧ 2 ^ u.fld hierCtrl 20 4 ≤ (u.port 7 1).n + 1 ∧ 15 = u.tenonNow) ∧
    (let u := fd (st [(portStat 0 1, 0x3D), (evr + Off.EVENTS_EVR_SIZE, 4)])
     mapGet (fun _ => 0) (u.port 0 1).frames 11 = 0 ∧ u.worker = false ∧ u.rd (evr + Off.EVENTS_EVR_SIZE) ≠ 0 ∧
       u.ev.perstLow = false ∧
       (u.ev.wr + 2 ^ 32 - u.rd (evr + Off.EVENTS_EVR_RD)) % 2 ^ 32 < 2 ^ u.rd (evr + Off.EVENTS_EVR_SIZE)) ∧
    (let u := fd { st [(portStat 0 1, 0x3D), (evPg 0 + Off.EVENTS_DMA_CTRL 15, 1 + 7 * 4)] with
       dmas := [(15, { DmaSt.init with descs := [⟨0x1000, 4096, 0, 0, false, false, false, false⟩] })] }
     u.dmaFor u.ridge 7 = some 15 ∧
       1 + 16 ≤ DmaSt.room { u.dma u.ridge 15 with descs := (u.dma u.ridge 15).descs.takeWhile fun d => !d.bad true }) ∧
    (let u := fd (st [(portStat 0 1, 0x3D), (fliudPg 7 + Off.FLIUD_IMP 63, 1 + 5 * 2 + 511 * 512)])
     u.has 7 = true ∧ bitAt (u.rd (fliudPg 7 + Off.FLIUD_IMP 63)) 0 = true ∧
       bits (u.rd (fliudPg 7 + Off.FLIUD_IMP 63)) 1 8 = 5 ∧
       bits (u.rd (fliudPg 7 + Off.FLIUD_IMP 63)) 9 9 = 511) ∧
    (let u := fd { st [] with tree := { Tree.init with racc := some (0, true) } }
     u.tree.racc = some (0, true) ∧ 0 + 1000 * usK ≤ u.now ∧ u.locked hierPg = false) := by decide +kernel

/-! ### Host interface, resets, start and power -/

/-- A DMA engine of bent 0 that copies (source 8) or streams (source 0), with a descriptor. -/
abbrev dm (ctrl : Nat) (d : Desc) : State :=
  { st [(evPg 0 + Off.EVENTS_DMA_CTRL 15, ctrl)] with dmas := [(15, { DmaSt.init with descs := [d] })] }

theorem wit_HostStreams :
    (let u := fd { st [] with tree := { Tree.init with elected := true } }
     u.has 0 = true ∧ u.locked (evPg 0) = false ∧ (0 : Nat) = u.ridge ∧ u.tree.elected = true ∧ (7 : Nat) ≠ u.ridge) ∧
    (let u := fd (st [(evPg 7 + Off.EVENTS_SIDE_STAT, 0x43), (evPg 7 + Off.EVENTS_DMA_CTRL 15, 0x41)])
     u.bit (evPg 7 + Off.EVENTS_SIDE_STAT) 0 = true ∧ u.bit (evPg 7 + Off.EVENTS_DMA_CTRL 15) 6 = true ∧
       u.dmaRuns 7 15 = true) ∧
    (let d : Desc := ⟨0x1000, 16, 0, 16, false, false, false, false⟩
     let u := fd (dm 1 d)
     (u.dma 0 15).descs = [d] ∧ u.dmaRuns 0 15 = true ∧ u.bit (evPg 0 + Off.EVENTS_DMA_CTRL 15) 1 = false ∧ d.bad true = false ∧
       d.len ≤ d.filled ∧ d.filled ≠ 0 ∧
       (u.dma 0 15).lastRec + u.fld (evPg 0 + Off.EVENTS_DMA_CTRL 15) 8 8 * usK ≤ u.now) ∧
    (let d : Desc := ⟨0x1001, 16, 0, 0, false, false, false, false⟩
     let u := fd (dm 1 d)
     (u.dma 0 15).descs = [d] ∧ d.bad true = true) ∧
    (let d : Desc := ⟨0x1000, 16 + 0x1FFFF0 * 2 ^ 32, 0, 0, false, false, false, false⟩
     let u := fd (dm (1 + 2 + 32) d)
     (u.dma 0 15).descs = [d] ∧ u.bit (evPg 0 + Off.EVENTS_DMA_CTRL 15) 1 = true ∧ d.bad false = false ∧
       u.fld (evPg 0 + Off.EVENTS_DMA_CTRL 15) 2 4 = 8 ∧ oneMemory (bits d.w1 32 32) d.len = true ∧ bitAt d.w1 25 = false ∧
       (∀ i, i < d.len → u.poisoned (mb 0 (bits d.w1 32 32) + i) 1 = false) ∧ (∀ x ∈ u.seqs, (u.seq x.1).phase ≠ .voidWait)) ∧
    (let d : Desc := ⟨0x1000, 16 + 0x1FFFF4 * 2 ^ 32, 0, 0, false, false, false, false⟩
     let u := fd (dm (1 + 2 + 32) d)
     (u.dma 0 15).descs = [d] ∧ d.bad false = false ∧ oneMemory (bits d.w1 32 32) d.len = false) := by decide +kernel

theorem wit_Mailbox :
    (let u := fd (st [(fmPg 0 + Off.FOREMAN_FM_STAT, 1), (fmPg 0 + Off.FOREMAN_MBX_ARG0, 0x100000)])
     (u.has 0 = true ∧ u.locked (fmPg 0) = false) ∧ u.foremanRuns 0 = true ∧ u.mbxBusy 0 = false ∧ u.flashCheck 0 = 0 ∧
       (u.mbxArg 0).2 ≤ 2048 ∧ (u.mbxArg 0).1 + (u.mbxArg 0).2 ≤ bankSize ∧ 0x100000 ≤ (u.mbxArg 0).1 ∧
       384 ≤ (u.mbxArg 0).1 ∧ u.pwrGood = true ∧ 2 * 1000 * (200000 * 1) ≤ 5000000 * 5000000 - 6250000000000 ∧
       (u.mbxArg 0).1 + (u.mbxArg 0).2 ≤ 0x2000000) ∧
    (let u := fd (st [(fmPg 0 + Off.FOREMAN_FM_STAT, 1), (fmPg 0 + Off.FOREMAN_MBX_ARG0, 0x1000)])
     (u.mbxArg 0).1 + (u.mbxArg 0).2 ≤ copySize ∧ 0x64 ≤ (u.mbxArg 0).1 ∧ (u.mbxArg 0).1 ≤ copySize) ∧
    (let u := fd (st [(fmPg 1 + Off.FOREMAN_FM_STAT, 1), (mbxStat 1, 1)])
     (u.has 1 = true ∧ u.locked (fmPg 1) = false) ∧ u.foremanRuns 1 = true ∧ u.mbxBusy 1 = true) ∧
    (let u := fd (st [(fmPg 1 + Off.FOREMAN_FM_STAT, 1)])
     u.flashCheck 1 ≠ 0 ∧ u.mbxBusy 1 = false) ∧
    (let u := fd (st [(fmPg 0 + Off.FOREMAN_FM_STAT, 1), (fmPg 0 + Off.FOREMAN_MBX_ARG0, bankSize), (fmPg 0 + Off.FOREMAN_MBX_LEN, 1)])
     u.flashCheck 0 = 0 ∧ bankSize < (u.mbxArg 0).1 + (u.mbxArg 0).2 ∧ (u.mbxArg 0).2 ≤ 2048) ∧
    (let u := fd { st [(fmPg 0 + Off.FOREMAN_FM_STAT, 1), (mbxStat 0, 1)] with boot := { Boot.init with mbx := [(0, some ⟨0x11, 0, 0, 1, [7]⟩)] } }
     u.mbx 0 = some ⟨0x11, 0, 0, 1, [7]⟩ ∧ u.foremanRuns 0 = true) := by decide +kernel

theorem wit_Attestation :
    (let u := fd { st [(fmPg 0 + Off.FOREMAN_FM_STAT, 1)] with tree := { Tree.init with elected := true }, spdm := { stage := 3, answer := none } }
     u.spdmUp = true ∧ 3 ≤ u.spdm.stage) ∧
    (let u := fd { st [(fmPg 0 + Off.FOREMAN_FM_STAT, 1)] with tree := { Tree.init with elected := true } }
     u.spdmUp = true ∧ u.spdm.stage < 1) ∧
    (let u := fd (st [])
     u.spdmUp = false ∧ u.locked identPg = false ∧ u.boot.owner = none) ∧
    (let u := fd (st [(identPg + 8, 0x101)])
     u.locked identPg = true) := by decide +kernel

theorem wit_Resets :
    (let u := fd (st [])
     u.ev.perstLow = false ∧ u.has 7 = true ∧ volatileMem (mb 7 0) = false ∧ perstReg (evr + Off.EVENTS_EVR_SIZE) = true ∧
       perstReg (calStat 0) = false) := by decide +kernel

theorem wit_StartAndPower :
    (let u := fd { st [(fmPg 0 + Off.FOREMAN_FM_STAT, 1)] with boot := { Boot.init with up := true } }
     u.boot.up = true ∧ u.has 0 = true ∧ setHas u.boot.bisted 0 = false ∧ (true && u.foremanRuns 0) = true ∧
       u.boot.preloads = [] ∧
       (true && u.foremanRuns 7) = false ∧ u.worker = false ∧
       (∀ q, q < 16 → (u.seq (7 * 16 + q)).phase = .halted ∧ (u.seq (7 * 16 + q)).owed = [])) ∧
    (let u := fd { st [] with boot := { Boot.init with bad := [(0, true), (1, true)] } }
     u.boot.up = false ∧ u.has 7 = true ∧ mapGet (fun _ => 0) u.boot.banks 7 = 0) ∧
    (let u := fd (st [])
     setHas u.tempOff (7 * 4 + 1) = false ∧ u.railOk 7 3 1000 = false ∧ u.railOk 7 3 1200 = true ∧
       (-1000 : Int) < u.tempLimit 7 1 ∧ u.tempLimit 7 2 < (32767 : Int) ∧
       u.bit (bp 7 0 + Off.BENT_RAIL_STAT) 3 = false ∧ u.pwrGood = true ∧
       (∀ b, b < 8 → u.bit (shimStat b) 0 = false ∧ u.mbx b = none)) ∧
    (let u := fd { st [(pkgp 0 + Off.PKG_PWR_STAT, 0)] with cals := [(7, { CalSt.init with storeReq := true })] }
     u.pwrGood = false ∧ u.has 7 = true ∧ (u.cal 7).storeReq = true) := by decide +kernel

/-- Whether a bank verifies rests on Config.ecdsaVerify, and banks that are marked bad do not. -/
theorem wit_StartAndPower_banks :
    (fd { st [] with boot := { Boot.init with bad := [(0, true), (1, true)] } }).bankOk 0 none = false ∧
      (fd { st [] with boot := { Boot.init with bad := [(0, true), (1, true)] } }).bankOk (1 - 0) none = false := ⟨rfl, rfl⟩

/-! ### The block as a whole -/

theorem wit_StepRunsTheQueue :
    ({ st [] with pending := [.ageUpdate 0] } : State).pending = [.ageUpdate 0] ∧ (st []).pending = [] ∧
      (st []).clk.running = true ∧ (st []).clk.now + (st []).clk.n < 2 ^ 80 ∧ State.reset.pending = [] ∧
      State.reset.clk.running = false := by decide +kernel

theorem wit_EveryStepAnswers : State.reset.clkOk = true ∧ State.reset.has State.reset.ridge = true ∧ (st []).clkOk = true := by
  decide +kernel

theorem wit_PtNeverStepsBack : ∃ s', exec (.hclr 5 (.pkg 0)) (st []) = .next s' ∧ (st []).clk.running = true := ⟨_, rfl, rfl⟩

theorem wit_PtNeverStepsBack_relock :
    (let s := { st [(srcStat, 0x4402), (sillPg 0 0 + Off.SILL_LOCK_WIN, 0x408), (sillStat 0 0, 0x30022)] with
       tb := { Tb.init with relock := some (2000, none) }, tree := { State.reset.tree with elected := true },
       sills := [(0, { Sill.init with good := 3, lastUpd := some (0, 0) })] }
     s.clk.running = true ∧ (s.arrive 0).windowRelocks 0 0 (edges256 320000) = true ∧ s.tb.relock = some (2000, none) ∧
       (s.arrive 0).windowRelocks 0 1 [] = false) := by decide +kernel

theorem wit_LateCounts :
    (st []).laneValid 0x703F = false ∧ (st []).laneValid 0x773F = true ∧ (st []).laneValid 3 = true ∧
      (({ st [] with queues := [(3, [pg0 1])] } : State).queue 3).any (fun x => x.pt == (pg0 2).pt) = true ∧
        (st []).has 7 = true ∧
      ((fd (st [])).has 7 = true ∧ (fd (st [])).locked (timePg 7) = false) := by decide +kernel

theorem wit_BentDrained : ((fd (st [])).has 7 = true ∧ (fd (st [])).locked (conPg 7) = false) := by decide +kernel

/-- That a foreman runs after the first start rests on Config.ecdsaVerify: on the board's image being a signed one. -/
theorem wit_NewPart : (0 : Nat) < 8 ∧ ∃ s', exec (.foremanStart 0 []) State.reset = .next s' := ⟨by decide, _, rfl⟩


/-! ### Results the spec's examples give -/

/-- Does the command answer a next state that meets a condition? -/
def yields (c : Instr) (s : State) (p : State → Bool) : Bool :=
  match exec c s with
  | .next s' => p s'
  | _ => false

/-- "Example: finding one register and its events": PAGE_ID of bent 5 SEQ9, and BENT_INFO of bent 5. -/
theorem test_directory : State.reset.value 0x1429000 = 0x00200901 ∧
  State.reset.value 0x1400040 = 0x0008A11D := by decide +kernel

/-- "Example: ageing across a restart": thirty days at −2 500 parts in 10^12 a day. -/
theorem test_ageing :
    yields (.ageUpdate 41473600000000000000)
      (st [(tbPg + Off.TIMEBASE_AGE_RATE, 0xFFFFF63C), (tbPg + Off.TIMEBASE_AGE_EPOCH_LO, 1600000000000000 % 2 ^ 32),
        (tbPg + Off.TIMEBASE_AGE_EPOCH_LO + 4, 1600000000000000 / 2 ^ 32)])
      (fun s => s.rd (tbPg + Off.TIMEBASE_AGE_CORR) == 0xFB879740) = true := by decide +kernel

/-- "Example: asymmetry of a 3 m link": t2 − t1 = 237 600 and t4 − t3 = 237 400, after reversal 238 600 and 236 400 kerfs. -/
theorem test_asymmetry :
    yields (.asymDone 0 0 0 200 2200)
      { st [(hierCtrl, 0xF00), (portStat 0 0, 0x1000 + 0x1D)] with ports := [(0, { Port.init with asym := some 0 })] }
      (fun s => s.rd (fliudPg 0 + Off.FLIUD_PORT_ASYM 0 0) == 0xFFFFFC18) = true := by decide +kernel

/-- The late peg of "Example: one late edge peg under each policy": 200 ticks ahead, 25 ps into its tick,
a pulse of 10 ns. -/
def latePeg : Peg :=
  { pt := secK + 200 * 1600 + 400, payload := 2 + 256 * 160000, owner := none, trig := false }

/-- Bent 2 EDGE9 live in OUTPUT mode under a late policy, with that peg on its way. -/
def lateSt (policy : Nat) : State :=
  { st [(bp 2 5 + 8, 1), (chStat 2 9, 1), (chCtrl 2 9, 1 + 16 * policy), (calStat 2, 2)] with flight := [(0x2009, [latePeg])] }

theorem test_late_drop :
    yields (.pegAccept 0 2 0 9 (.whole .good 0) 0) (lateSt 0) (fun s => s.queue 0x2009 == [] &&
      s.rd (bp 2 5 + Off.EDGE_CH_LATE_COUNT 1) == 1) = true := by decide +kernel

theorem test_late_slip :
    yields (.pegAccept 0 2 0 9 (.whole .good 0) 0) (lateSt 1)
      (fun s => (s.queue 0x2009).map (fun p => p.pt) == [secK + 240 * 1600 + 400]) = true := by decide +kernel

/-- R72's figures: a ramp of 1 ppm/ms leaves 10.7 fs of phase error at the reset bandwidth and 10.7 ns at 100 Hz. -/
theorem test_ramp_lag :
    (rampLag 100000 181 (10 ^ 12) + 50) / 100 = 107 ∧
      (rampLag 100 181 (10 ^ 12) + 50000000) / 100000000 = 107 := by decide +kernel

/-- R97 on a peg 412 kerfs into tick 7 of a lattice of 1600 kerfs whose path takes 2 kerfs: tap 25, vernier step 10. -/
theorem test_placement (s : State) (b ch : Nat) (hd : s.pathDelay b ch = 32) (hn : s.clk.n = 1600) (ho : s.clk.o = 5) :
    s.place b ch (5 + 7 * 1600 + 412) = { tick := 7, ofs := 410, tap := 25, vern := 10 } := by
  simp only [State.place, hd, hn, ho]
  decide
end Sys2Proof.Tests
end

section
/-!
PROOFS, support. What every command of a page keeps: the event state through a vector's message and through FAULT_N, the
registers and the frame of a command's outcome, folds of register writes, and what a page's number says of its kind.
-/

namespace Sys2Proof.Machine

/-! ### The event state (R370, R378, R379) -/

/-- A vector's message reaches host memory, its pending bit and its count, and nothing else. -/
theorem EvSt.message_only (e : EvSt) (v : Nat) : ∃ h p n, e.message v = { e with host := h, pba := p, sent := n } := by
  unfold EvSt.message
  split
  · exact ⟨e.host, _, e.sent, rfl⟩
  · exact ⟨_, _, _, rfl⟩

/-- A trigger of a vector reaches, beyond its message, the vector's holdoff. -/
theorem EvSt.fire_only (e : EvSt) (v now hold : Nat) :
    ∃ h p n o, e.fire v now hold = { e with host := h, pba := p, sent := n, holdoff := o } := by
  obtain ⟨h, p, n, hm⟩ := e.message_only v
  unfold EvSt.fire
  rw [hm]
  split
  · split
    · exact ⟨e.host, e.pba, e.sent, _, rfl⟩
    · exact ⟨h, p, n, _, rfl⟩
  · exact ⟨h, p, n, _, rfl⟩

/-- FAULT_N following its categories reaches its own level and what a trigger of vector 0 reaches. -/
theorem State.settle_only (s : State) : ∃ h p n o f, s.settle =
    { s with ev := { s.ev with host := h, pba := p, sent := n, holdoff := o, faultN := f } } := by
  unfold State.settle
  split
  · exact ⟨s.ev.host, s.ev.pba, s.ev.sent, s.ev.holdoff, s.ev.faultN, rfl⟩
  · obtain ⟨h, p, n, o, he⟩ := s.ev.fire_only 0 s.now (s.holdK 0)
    exact ⟨h, p, n, o, s.wantFault, by rw [he]⟩

@[simp] theorem State.settle_ev_latched (s : State) : s.settle.ev.latched = s.ev.latched := by
  obtain ⟨_, _, _, _, _, h⟩ := s.settle_only; rw [h]
@[simp] theorem State.settle_ev_raw (s : State) : s.settle.ev.raw = s.ev.raw := by
  obtain ⟨_, _, _, _, _, h⟩ := s.settle_only; rw [h]
@[simp] theorem State.settle_ev_standing (s : State) : s.settle.ev.standing = s.ev.standing := by
  obtain ⟨_, _, _, _, _, h⟩ := s.settle_only; rw [h]
@[simp] theorem State.settle_ev_wr (s : State) : s.settle.ev.wr = s.ev.wr := by
  obtain ⟨_, _, _, _, _, h⟩ := s.settle_only; rw [h]
@[simp] theorem State.settle_ev_perstLow (s : State) : s.settle.ev.perstLow = s.ev.perstLow := by
  obtain ⟨_, _, _, _, _, h⟩ := s.settle_only; rw [h]

/-- FAULT_N that is released and not yet evaluated stays as it is (R379). -/
theorem State.settle_released {s : State} (hon : s.ev.faultOn = false) (hn : s.ev.faultN = false) : s.settle = s := by
  simp [State.settle, State.wantFault, hon, hn]

@[simp] theorem State.isLatched_latchHealth_same (s : State) (pg c : Nat) : (s.latchHealth pg c).isLatched pg c = true := by
  simp [State.isLatched, State.latchHealth]

/-- A code latched stays latched when another is. -/
theorem State.isLatched_latchHealth_mono {s : State} {pg c : Nat} (h : s.isLatched pg c = true) (pg' c' : Nat) :
    (s.latchHealth pg' c').isLatched pg c = true := by
  by_cases he : pg * 256 + c = pg' * 256 + c'
  · simp [State.isLatched, State.latchHealth, he]
  · simpa [State.isLatched, State.latchHealth, setHas_setPut_ne _ _ he] using h

@[simp] theorem State.isLatched_wr (s : State) (a v pg c : Nat) : (s.wr a v).isLatched pg c = s.isLatched pg c := rfl

/-! ### A command's outcome -/

@[simp] theorem State.isLatched_keep_settle (u x : State) (pg c : Nat) :
    (u.keep x.settle).isLatched pg c = x.isLatched pg c := by simp [State.isLatched]
@[simp] theorem State.isLatched_keepMem_settle (u x : State) (pg c : Nat) :
    (u.keepMem x.settle).isLatched pg c = x.isLatched pg c := by simp [State.isLatched]

/-- A register after a command without memories. -/
theorem State.reg_keep_settle {u x : State} (hv : x.variant = u.variant) (a : Nat) : (u.keep x.settle).reg a = x.reg a := by
  simp [hv]

/-- A register after a command that reaches the memories. -/
theorem State.reg_keepMem_settle {u x : State} (hv : x.variant = u.variant) (a : Nat) :
    (u.keepMem x.settle).reg a = x.reg a := by simp [hv]

/-- Two states whose register at an offset is the same word read the same number there. -/
theorem State.rd_of_reg {s u : State} {a : Nat} (h : s.reg a = u.reg a) : s.rd a = u.rd a := by
  unfold State.rd; rw [h]

/-- Two states whose register at an offset is the same word read the same bits there. -/
theorem State.bit_of_reg {s u : State} {a : Nat} (h : s.reg a = u.reg a) (i : Nat) : s.bit a i = u.bit a i := by
  unfold State.bit; rw [State.rd_of_reg h]

theorem State.reg_wr_ne (s : State) {a c : Nat} (v : Nat) (h : c ≠ a) : (s.wr a v).reg c = s.reg c :=
  s.reg_setReg_ne _ h

theorem State.reg_setBit_ne (s : State) {a c : Nat} (i : Nat) (b : Bool) (h : c ≠ a) : (s.setBit a i b).reg c = s.reg c :=
  s.reg_setReg_ne _ h

theorem State.reg_bump_ne (s : State) {a c : Nat} (h : c ≠ a) : (s.bump a).reg c = s.reg c := s.reg_setReg_ne _ h

/-- Only registers in force and the event state differ. -/
def State.onlyRegs (u x : State) : Prop := ∃ r e, x = { u with regs := r, ev := e }

theorem State.onlyRegs.refl (u : State) : u.onlyRegs u := ⟨u.regs, u.ev, rfl⟩

theorem State.onlyRegs.trans {u x y : State} (h : u.onlyRegs x) (k : x.onlyRegs y) : u.onlyRegs y := by
  obtain ⟨_, _, rfl⟩ := h
  obtain ⟨r, e, rfl⟩ := k
  exact ⟨r, e, rfl⟩

theorem State.onlyRegs.variant {u x : State} (h : u.onlyRegs x) : x.variant = u.variant := by
  obtain ⟨_, _, rfl⟩ := h; rfl

theorem State.onlyRegs_wr (u : State) (a v : Nat) : u.onlyRegs (u.wr a v) := ⟨_, _, rfl⟩

theorem State.onlyRegs_bump (u : State) (a : Nat) : u.onlyRegs (u.bump a) := ⟨_, _, rfl⟩

theorem State.onlyRegs_latchHealth (u : State) (pg c : Nat) : u.onlyRegs (u.latchHealth pg c) := ⟨_, _, rfl⟩

theorem State.onlyRegs_raiseAt (u : State) (pg i pt d : Nat) (f : Bool) : u.onlyRegs (u.raiseAt pg i pt d f) := by
  obtain ⟨e, h⟩ := u.raiseAt_ev pg i pt d f
  exact ⟨u.regs, e, h⟩

theorem State.onlyRegs_standing (u : State) (pg c : Nat) (on : Bool) : u.onlyRegs (u.standing pg c on) := by
  obtain ⟨e, h⟩ := u.standing_ev pg c on
  exact ⟨u.regs, e, h⟩

theorem State.onlyRegs_foldl {α : Type} {f : State → α → State} (h : ∀ (s : State) a, s.onlyRegs (f s a)) (l : List α)
    (s : State) : s.onlyRegs (l.foldl f s) := by
  induction l generalizing s with
  | nil => exact .refl s
  | cons a l ih => exact (h s a).trans (ih _)

/-- What a command's effect leaves beside registers and the event state, its outcome leaves. -/
theorem State.onlyRegs.keep {u x : State} (h : u.onlyRegs x) : u.keep x.settle =
    { u with regs := (u.keep x.settle).regs, ev := (u.keep x.settle).ev } := by
  obtain ⟨r, e, rfl⟩ := h
  rw [State.keep_settle]

/-- So does the outcome of a command that reaches the memories. -/
theorem State.onlyRegs.keepMem {u x : State} (h : u.onlyRegs x) : u.keepMem x.settle =
    { u with regs := (u.keepMem x.settle).regs, ev := (u.keepMem x.settle).ev } := by
  obtain ⟨r, e, rfl⟩ := h
  rw [State.keepMem_settle]

/-! ### A tested word (R6) -/

/-- A word put in force, with health code 0x01 where one of its fields failed its test. -/
def State.putTested (s : State) (pg a : Nat) (x : Nat × Bool) : State :=
  if x.2 then (s.wr a x.1).latchHealth pg 0x01 else s.wr a x.1

theorem State.onlyRegs_putTested (s : State) (pg a : Nat) (x : Nat × Bool) : s.onlyRegs (s.putTested pg a x) := by
  unfold State.putTested
  split
  · exact (s.onlyRegs_wr a _).trans (State.onlyRegs_latchHealth _ _ _)
  · exact s.onlyRegs_wr a _

theorem State.reg_putTested (s : State) (pg a c : Nat) (x : Nat × Bool) : (s.putTested pg a x).reg c = (s.wr a x.1).reg c := by
  unfold State.putTested
  split <;> rfl

theorem State.rd_putTested_same (s : State) (pg a : Nat) (x : Nat × Bool) : (s.putTested pg a x).rd a = x.1 % 2 ^ 32 :=
  (State.rd_of_reg (s.reg_putTested pg a a x)).trans (s.rd_wr_same a _)

theorem State.reg_putTested_ne (s : State) (pg : Nat) {a c : Nat} (x : Nat × Bool) (h : c ≠ a) :
    (s.putTested pg a x).reg c = s.reg c := (s.reg_putTested pg a c x).trans (s.reg_setReg_ne _ h)

theorem State.isLatched_putTested (s : State) (pg a : Nat) {x : Nat × Bool} (h : x.2 = true) :
    (s.putTested pg a x).isLatched pg 0x01 = true := by simp [State.putTested, h]

/-- What is latched stays latched. -/
theorem State.isLatched_putTested_mono {s : State} {pg a c : Nat} (x : Nat × Bool) (h : s.isLatched pg c = true) :
    (s.putTested pg a x).isLatched pg c = true := by
  unfold State.putTested
  split
  · exact State.isLatched_latchHealth_mono h pg 0x01
  · exact h

/-! ### Folds of register writes -/

/-- A fold whose steps each write one register leaves the others alone. -/
theorem foldl_reg_ne {g : State → Nat → State} {f : Nat → Nat} (hg : ∀ s b a, a ≠ f b → (g s b).reg a = s.reg a)
    {l : List Nat} {a : Nat} (ha : ∀ b ∈ l, a ≠ f b) (s : State) : (l.foldl g s).reg a = s.reg a := by
  induction l generalizing s with
  | nil => rfl
  | cons b l ih =>
    exact (ih (fun c hc => ha c (List.mem_cons_of_mem b hc)) (g s b)).trans (hg s b a (ha b List.mem_cons_self))

/-- In such a fold over distinct registers each register is what its own step makes of what it was. -/
theorem foldl_reg_at {g : State → Nat → State} {f : Nat → Nat} (hg : ∀ s b a, a ≠ f b → (g s b).reg a = s.reg a)
    (hf : Function.Injective f) {l : List Nat} (hl : l.Nodup) {b : Nat} (hb : b ∈ l) (s : State) :
    ∃ x : State, x.reg (f b) = s.reg (f b) ∧ (l.foldl g s).reg (f b) = (g x b).reg (f b) := by
  induction l generalizing s with
  | nil => simp at hb
  | cons c l ih =>
    obtain ⟨hc, hl⟩ := List.nodup_cons.mp hl
    by_cases h : b = c
    · subst h
      have hfr : ∀ d ∈ l, f b ≠ f d := fun d hd he => hc (hf he ▸ hd)
      exact ⟨s, rfl, foldl_reg_ne hg hfr _⟩
    · obtain ⟨x, hx, hs⟩ := ih hl (List.mem_of_ne_of_mem h hb) (g s c)
      exact ⟨x, hx.trans (hg s c _ fun he => h (hf he)), hs⟩

/-- A map without the keys that fail a test. -/
theorem mapGet_filter {α : Type} (d : Nat → α) (m : SMap α) (p : Nat → Bool) (k : Nat) :
    mapGet d (m.filter fun e => p e.1) k = if p k then mapGet d m k else d k := by
  induction m with
  | nil => simp [mapGet]
  | cons e m ih =>
    obtain ⟨j, v⟩ := e
    by_cases hj : j = k
    · subst hj
      cases hp : p j <;> simp [hp, mapGet, ih]
    · cases hp : p j <;> simp [hp, mapGet, ih, hj]

/-! ### Pages (R403, R405) -/

/-- An offset of a page belongs to the page. -/
theorem pageOf_add {pg o : Nat} (hpg : pg % 0x1000 = 0) (ho : o < 0x1000) : pageOf (pg + o) = pg := by
  unfold pageOf; omega

/-- The page directory of a bent ends before page 0x30 (R403). -/
theorem bentPage_lt {p : Nat} {r : PageRow} (h : bentPage p = some r) : p < 0x30 := by
  by_contra hp
  simp (disch := omega) only [bentPage, if_neg] at h
  cases h

/-- What the page number of a bent's page says of its kind (R403). -/
theorem bentPage_kind {p : Nat} {r : PageRow} (h : bentPage p = some r) :
    (r.kind = .events ↔ p = 0x1C) ∧ (r.kind = .time ↔ p = 3) ∧ (r.kind = .sill ↔ p = 1 ∨ p = 2) ∧
      (r.kind = .tone ↔ 8 ≤ p ∧ p < 0xC) ∧ (r.kind = .probe ↔ p = 0xC) ∧ (r.kind = .flux ↔ p = 0xD ∨ p = 0xE) := by
  have hp := bentPage_lt h
  revert p r
  suffices table : ∀ p < 0x30, ∀ r ∈ bentPage p, _ from fun {p r} h hp => table p hp r h
  decide

/-- No package page is of a kind that the bents have. -/
theorem pkgPage_kind {q : Nat} {r : PageRow} (h : pkgPage q = some r) :
    q < 6 ∧ r.kind ≠ .events ∧ r.kind ≠ .time ∧ r.kind ≠ .sill ∧ r.kind ≠ .tone ∧ r.kind ≠ .probe ∧ r.kind ≠ .flux := by
  unfold pkgPage at h
  split_ifs at h <;> obtain rfl := Option.some.inj h <;> simp only [ne_eq, reduceCtorEq, not_false_eq_true, and_true] <;> omega

theorem pageRow?_bent {v : Variant} {a : Nat} {pr : PageRow} (h : pageRow? v a = some pr) (hp : isPkg a = false) :
    bentPage (pageNo a) = some pr := by
  unfold pageRow? at h
  rw [hp] at h
  simp only [Bool.false_eq_true, if_false, Option.ite_none_right_eq_some] at h
  exact h.2

theorem pageRow?_pkg {v : Variant} {a : Nat} {pr : PageRow} (h : pageRow? v a = some pr) (hp : isPkg a = true) :
    pkgPage (pageNo a) = some pr := by
  unfold pageRow? at h
  rw [hp] at h
  simp only [if_true, Option.ite_none_right_eq_some] at h
  exact h.2

/-- Only registers of EVENTS and TIME pages stand once for all bents (R36, R385). -/
theorem canon_eq {v : Variant} {a : Nat} {pr : PageRow} (h : pageRow? v a = some pr) (he : pr.kind ≠ .events)
    (ht : pr.kind ≠ .time) : canon a = a := by
  cases hp : isPkg a with
  | true => simp [canon, hp]
  | false =>
    obtain ⟨ke, kt, -⟩ := bentPage_kind (pageRow?_bent h hp)
    have hne : pageNo a ≠ 0x1C := fun e => he (ke.mpr e)
    have hnt : pageNo a ≠ 3 := fun e => ht (kt.mpr e)
    simp [canon, hp, hne, hnt]

/-- Only registers of a SILLB page mirror others (R91). -/
theorem mirrored_of_not_sill (s : State) {v : Variant} {a : Nat} {pr : PageRow} (h : pageRow? v a = some pr)
    (hk : pr.kind ≠ .sill) : s.mirrored a = false := by
  cases hp : isPkg a with
  | true => simp [State.mirrored, hp]
  | false =>
    obtain ⟨-, -, ks, -⟩ := bentPage_kind (pageRow?_bent h hp)
    have hn : pageNo a ≠ 2 := fun e => hk (ks.mpr (.inr e))
    simp [State.mirrored, hn]

/-- Only TONE, PROBE and FLUX pages have converters (R174). -/
theorem pageConvs_of_kind {v : Variant} {a : Nat} {pr : PageRow} (h : pageRow? v a = some pr) (ht : pr.kind ≠ .tone)
    (hp : pr.kind ≠ .probe) (hf : pr.kind ≠ .flux) : pageConvs (bentOf a) (pageNo a) = [] := by
  have hno : ¬ (8 ≤ pageNo a ∧ pageNo a < 0xC) ∧ pageNo a ≠ 0xC ∧ ¬ (pageNo a = 0xD ∨ pageNo a = 0xE) := by
    cases hk : isPkg a with
    | true =>
      obtain ⟨hq, -⟩ := pkgPage_kind (pageRow?_pkg h hk)
      omega
    | false =>
      obtain ⟨-, -, -, kt, kp, kf⟩ := bentPage_kind (pageRow?_bent h hk)
      exact ⟨fun e => ht (kt.mpr e), fun e => hp (kp.mpr e), fun e => hf (kf.mpr e)⟩
  obtain ⟨h1, h2, h3⟩ := hno
  simp [pageConvs, h1, h2, h3]

/-- The page of an offset of a bent's window, by bent and page number. -/
theorem bp_bentOf {a : Nat} (hp : isPkg a = false) : bp (bentOf a) (pageNo a) = pageOf a := by
  unfold bp bentOf pageNo pageOf
  rw [hp]
  simp only [Bool.false_eq_true, if_false]
  omega

end Sys2Proof.Machine
end

section
/-!
PROOFS. Register accesses (R5, R6, R25, R367, R378, R399): a write by access code, the hold registers and the latches.
-/

namespace Sys2Proof.Machine

/-! ### Rows with a command of their own -/

/-- PAGE_CTRL, SIDE_CTRL and MBX_CMD have commands of their own, so that no other row stands at their offsets. -/
theorem regRow?_commandRow {v : Variant} {a : Nat} {pr : PageRow} {r : RegRow} (hp : pageRow? v a = some pr)
    (hr : regRow? v a = some r) (ho : r.own = false) : a % 0x1000 ≠ Off.PG_PAGE_CTRL ∧
      ¬ (pr.kind = .events ∧ a % 0x1000 = Off.EVENTS_SIDE_CTRL) ∧
      ¬ (pr.kind = .foreman ∧ a % 0x1000 = Off.FOREMAN_MBX_CMD) := by
  simp only [regRow?, hp, Option.ite_none_right_eq_some] at hr
  obtain ⟨-, hr⟩ := hr
  refine ⟨fun e => ?_, fun ⟨hk, e⟩ => ?_, fun ⟨hk, e⟩ => ?_⟩
  · rw [e] at hr
    obtain rfl := Option.some.inj ((show pr.kind.row? Off.PG_PAGE_CTRL = some _ from rfl).symm.trans hr)
    cases ho
  · rw [hk, e] at hr
    obtain rfl := Option.some.inj ((show PageKind.row? .events Off.EVENTS_SIDE_CTRL = some _ from rfl).symm.trans hr)
    cases ho
  · rw [hk, e] at hr
    obtain rfl := Option.some.inj ((show PageKind.row? .foreman Off.FOREMAN_MBX_CMD = some _ from rfl).symm.trans hr)
    cases ho

/-! ### A register by its access code -/

section Access

variable {s : State} {pr : PageRow} {r : RegRow} {a : Nat} (hp : pageRow? s.variant a = some pr)
  (hr : regRow? s.variant a = some r) (ho : r.own = false)

include hp hr ho

/-- An RW register takes the bits a write reaches. -/
theorem State.regTake_rw (hacc : r.acc = .rw) (v : Nat) : s.regTake pr r a v =
    (if (r.take (s.rd (canon a)) v).2 then s.latchHealth (pageOf a) 0x01 else s).rwTake pr a
      (r.take (s.rd (canon a)) v).1 := by
  obtain ⟨hc, he, hf⟩ := regRow?_commandRow hp hr ho
  simp [State.regTake, hc, he, hf, ho, hacc]

/-- An RS register stages them. -/
theorem State.regTake_rs (hacc : r.acc = .rs) (v : Nat) : s.regTake pr r a v = s.stage pr r a v := by
  obtain ⟨hc, he, hf⟩ := regRow?_commandRow hp hr ho
  simp [State.regTake, hc, he, hf, ho, hacc]

/-- A W1C register clears the bits written 1; those of converters show first what has clipped until then. -/
theorem State.regTake_w1c (hacc : r.acc = .w1c) (v : Nat) : s.regTake pr r a v =
    (s.syncPage (bentOf a) (pageNo a) s.now).wr a
      ((s.syncPage (bentOf a) (pageNo a) s.now).rd a &&& (0xFFFFFFFF ^^^ v)) := by
  obtain ⟨hc, he, hf⟩ := regRow?_commandRow hp hr ho
  by_cases hk : pr.kind = .tone ∨ pr.kind = .probe ∨ pr.kind = .flux
  · have hk' : (pr.kind == .tone || pr.kind == .probe || pr.kind == .flux) = true := by simpa [or_assoc] using hk
    simp [State.regTake, hc, he, hf, ho, hacc, hk']
  · obtain ⟨h1, h2, h3⟩ : pr.kind ≠ .tone ∧ pr.kind ≠ .probe ∧ pr.kind ≠ .flux := by simpa using hk
    simp [State.regTake, hc, he, hf, ho, hacc, h1, h2, h3, State.syncPage, pageConvs_of_kind hp h1 h2 h3]

/-- A read-only register ignores a write. -/
theorem State.regTake_ro (hacc : r.acc = .ro) (v : Nat) : s.regTake pr r a v = s := by
  obtain ⟨hc, he, hf⟩ := regRow?_commandRow hp hr ho
  simp [State.regTake, hc, he, hf, ho, hacc]

end Access

/-- On most pages an RW register takes its tested word as it is. -/
theorem State.rwTake_plain (s : State) {pr : PageRow} (he : pr.kind ≠ .events) (ht : pr.kind ≠ .time)
    (hc : pr.kind ≠ .continuity) (hf : pr.kind ≠ .foreman) (a v : Nat) : s.rwTake pr a v = s.wr a v := by
  unfold State.rwTake
  dsimp only
  split
  · next h => exact absurd h he
  · next h => exact absurd h ht
  · next h => exact absurd h hc
  · next h => exact absurd h hf
  · rfl

/-- A word masked by a number is the word masked by the number's low 32 bits. -/
theorem toNat_and_nat (v : Word) (m : Nat) : v.toNat &&& m = (v &&& BitVec.ofNat 32 m).toNat := by
  have hlt : v.toNat &&& m < 2 ^ 32 := Nat.lt_of_le_of_lt Nat.and_le_left v.isLt
  rw [← Nat.mod_eq_of_lt hlt, Nat.and_mod_two_pow, Nat.mod_eq_of_lt v.isLt, BitVec.toNat_and, BitVec.toNat_ofNat]

/-- There an RW register takes the bits a write reaches, with the fields that pass their tests. -/
theorem State.regTake_rw_plain {s : State} {pr : PageRow} {r : RegRow} {a : Nat} (hp : pageRow? s.variant a = some pr)
    (hr : regRow? s.variant a = some r) (ho : r.own = false) (hacc : r.acc = .rw) (he : pr.kind ≠ .events)
    (ht : pr.kind ≠ .time) (hc : pr.kind ≠ .continuity) (hf : pr.kind ≠ .foreman) (v : Nat) :
    s.regTake pr r a v = s.putTested (pageOf a) a (r.take (s.rd a) v) := by
  rw [State.regTake_rw hp hr ho hacc, canon_eq hp he ht, State.rwTake_plain _ he ht hc hf, State.putTested]
  split <;> rfl

/-- The bits that a write reaches and those it leaves make a 32-bit word. -/
theorem merged_lt (v w : Word) (m : Nat) : (v.toNat &&& m) + (w.toNat &&& (0xFFFFFFFF ^^^ m)) < 2 ^ 32 := by
  rw [toNat_and_nat, toNat_and_nat, ← BitVec.toNat_add_of_and_eq_zero]
  · exact BitVec.isLt _
  · have hall : BitVec.ofNat 32 (0xFFFFFFFF ^^^ m) = ~~~ BitVec.ofNat 32 m := by
      rw [BitVec.ofNat_xor]
      exact BitVec.allOnes_xor
    rw [hall]
    ext i hi
    simp
    tauto

/-- A write to an RS register of a page but SILL stages the bits it reaches. -/
theorem State.stage_plain (s : State) {v : Variant} {pr : PageRow} {a : Nat} (hp : pageRow? v a = some pr)
    (hk : pr.kind ≠ .sill) (r : RegRow) (n : Nat) : s.stage pr r a n =
      s.setStaged a (BitVec.ofNat 32 ((n &&& r.wmask) + ((s.staged a).toNat &&& (0xFFFFFFFF ^^^ r.wmask)))) := by
  simp [State.stage, hk, mirrored_of_not_sill s hp hk]

@[simp] theorem State.staged_setStaged_same (s : State) (a : Nat) (w : Word) : (s.setStaged a w).staged a = w := by
  simp [State.staged, State.setStaged]

theorem State.staged_setStaged_ne (s : State) {a c : Nat} (w : Word) (h : c ≠ a) :
    (s.setStaged a w).staged c = s.staged c := by
  simp [State.staged, State.setStaged, mapGet_mapSet_ne _ _ _ h]

/-- A staged word after a command without memories. -/
theorem State.staged_keep_settle {u x : State} (hv : x.variant = u.variant) (a : Nat) :
    (u.keep x.settle).staged a = x.staged a := by simp [State.staged, hv]

/-! ### What converters have clipped (log entry 176) -/

/-- Only registers of a page, the samples accounted for, and the event state differ. -/
def State.onlyClips (u x : State) (pg : Nat) : Prop :=
  (∃ r d e, x = { u with regs := r, dacAt := d, ev := e }) ∧ u.samePages x [pg]

theorem State.onlyClips.refl (u : State) (pg : Nat) : u.onlyClips u pg := ⟨⟨u.regs, u.dacAt, u.ev, rfl⟩, fun _ _ => rfl⟩

theorem State.onlyClips.trans {u x y : State} {pg : Nat} (h : u.onlyClips x pg) (k : x.onlyClips y pg) : u.onlyClips y pg := by
  obtain ⟨⟨_, _, _, rfl⟩, hr⟩ := h
  obtain ⟨⟨r, d, e, rfl⟩, kr⟩ := k
  exact ⟨⟨r, d, e, rfl⟩, fun a ha => (kr a ha).trans (hr a ha)⟩

theorem State.onlyClips.variant {u x : State} {pg : Nat} (h : u.onlyClips x pg) : x.variant = u.variant := by
  obtain ⟨⟨_, _, _, rfl⟩, -⟩ := h; rfl

theorem State.onlyClips_wr (u : State) {pg a : Nat} (h : pageOf a = pg) (v : Nat) : u.onlyClips (u.wr a v) pg :=
  ⟨⟨_, u.dacAt, u.ev, rfl⟩, fun c hc => u.reg_setReg_ne _ fun e => hc (by simp [e, h])⟩

theorem State.onlyClips_raiseAt (u : State) (pg p i pt d : Nat) (f : Bool) : u.onlyClips (u.raiseAt p i pt d f) pg := by
  obtain ⟨e, h⟩ := u.raiseAt_ev p i pt d f
  exact ⟨⟨u.regs, u.dacAt, e, h⟩, fun a _ => u.reg_raiseAt p i pt d f a⟩

/-- The page of a tone or flux lane starts a page. -/
theorem tonePg_mod (lane : Nat) : tonePg lane % 0x1000 = 0 := by
  unfold tonePg
  dsimp only
  split_ifs <;> unfold bp <;> omega

/-- The DAC block of a lane lies on its page. -/
theorem toneDac_lt (lane : Nat) : toneDac lane < 16 := by unfold toneDac; split_ifs <;> unfold laneIdx <;> omega

theorem pageOf_toneFlags (lane : Nat) : pageOf (toneFlags lane) = tonePg lane := by
  have hd := toneDac_lt lane
  unfold toneFlags
  split_ifs
  · exact pageOf_add (tonePg_mod lane) (by unfold Off.FLUX_FLX_FLAGS; omega)
  · exact pageOf_add (tonePg_mod lane) (by unfold Off.TONE_DAC_FLAGS; omega)

theorem pageOf_clipCount (lane : Nat) : pageOf (clipCount lane) = tonePg lane := by
  have hd := toneDac_lt lane
  unfold clipCount
  split_ifs
  · exact pageOf_add (tonePg_mod lane) (by unfold Off.FLUX_FLX_CLIP_COUNT; omega)
  · exact pageOf_add (tonePg_mod lane) (by unfold Off.TONE_DAC_CLIP_COUNT; omega)

theorem pageOf_dacPeak (lane : Nat) : pageOf (tonePg lane + Off.TONE_DAC_PEAK (toneDac lane)) = tonePg lane := by
  have hd := toneDac_lt lane
  exact pageOf_add (tonePg_mod lane) (by unfold Off.TONE_DAC_PEAK; omega)

/-- A flag of a lane sets on its page and raises its event. -/
theorem State.onlyClips_clipFlag (u : State) (lane pt : Nat) : u.onlyClips (u.clipFlag lane pt) (tonePg lane) := by
  unfold State.clipFlag
  dsimp only
  split
  · exact .refl u _
  · exact (u.onlyClips_wr (pageOf_toneFlags lane) _).trans (State.onlyClips_raiseAt _ _ _ _ _ _ _)

/-- What a run clipped is counted, flagged and leaves its peak on the lane's page. -/
theorem State.onlyClips_putClips (u : State) (lane : Nat) (c : Clips) : u.onlyClips (u.putClips lane c) (tonePg lane) := by
  have hpeak : ∀ v, u.onlyClips (if isFlux lane then u else u.wr (tonePg lane + Off.TONE_DAC_PEAK (toneDac lane)) v)
      (tonePg lane) := fun v => by
    split
    · exact .refl u _
    · exact u.onlyClips_wr (pageOf_dacPeak lane) v
  unfold State.putClips
  dsimp only
  split
  · exact hpeak _
  · exact (hpeak _).trans ((State.onlyClips_wr _ (pageOf_clipCount lane) _).trans (State.onlyClips_clipFlag _ _ _))

/-- The samples of a converter accounted for reach its lane's page only. -/
theorem State.onlyClips_dacSync (u : State) (lane x : Nat) : u.onlyClips (u.dacSync lane x) (tonePg lane) := by
  have hat : ∀ d, u.onlyClips { u with dacAt := d } (tonePg lane) := fun d => ⟨⟨u.regs, d, u.ev, rfl⟩, fun _ _ => rfl⟩
  unfold State.dacSync
  dsimp only
  split
  · exact .refl u _
  split
  · split
    · exact (hat _).trans (State.onlyClips_putClips _ _ _)
    · exact hat _
  split
  · exact (hat _).trans (State.onlyClips_putClips _ _ _)
  · exact (hat _).trans (State.onlyClips_putClips _ _ _)

/-- The lanes of a page's converters are on the page. -/
theorem tonePg_pageConvs {b p lane : Nat} (h : lane ∈ pageConvs b p) : tonePg lane = bp b p := by
  unfold pageConvs at h
  split_ifs at h with h1 h2 h3
  · obtain ⟨i, hi, rfl⟩ := List.mem_map.mp h
    rw [List.mem_range] at hi
    have hk : laneKind (laneAddr b 1 ((p - 8) * 16 + 4 * i)) = 1 := by unfold laneKind laneAddr; omega
    simp only [tonePg, hk, if_true, bp]
    unfold laneBent laneIdx laneAddr
    omega
  · obtain ⟨i, hi, rfl⟩ := List.mem_map.mp h
    rw [List.mem_range] at hi
    have hk : laneKind (laneAddr b 2 (16 * i)) = 2 := by unfold laneKind laneAddr; omega
    simp only [tonePg, hk, bp, show ¬ 2 = 1 by decide, if_true, if_false]
    unfold laneBent laneAddr
    omega
  · obtain ⟨i, hi, rfl⟩ := List.mem_map.mp h
    rw [List.mem_range] at hi
    have hk : laneKind (laneAddr b 3 ((p - 0xD) * 8 + i)) = 3 := by unfold laneKind laneAddr; omega
    simp only [tonePg, hk, bp, show ¬ 3 = 1 by decide, show ¬ 3 = 2 by decide, if_false]
    unfold laneBent laneIdx laneAddr
    omega
  · simp at h

/-- The converters of a page accounted for reach that page only. -/
theorem State.onlyClips_syncPage (u : State) (b p x : Nat) : u.onlyClips (u.syncPage b p x) (bp b p) := by
  have key : ∀ (l : List Nat) (s : State), (∀ y ∈ l, tonePg y = bp b p) →
      s.onlyClips (l.foldl (fun s l => s.dacSync l x) s) (bp b p) := by
    intro l
    induction l with
    | nil => exact fun s _ => .refl s _
    | cons y l ih =>
      intro s h
      refine .trans ?_ (ih _ fun z hz => h z (List.mem_cons_of_mem y hz))
      exact h y List.mem_cons_self ▸ s.onlyClips_dacSync y x
  exact key _ u fun y hy => tonePg_pageConvs hy

/-- The page of a register and the converters accounted for before it is written (log entry 176). -/
theorem State.onlyClips_pageOf (u : State) {a : Nat} {pr : PageRow} (h : pageRow? u.variant a = some pr) (x : Nat) :
    u.onlyClips (u.syncPage (bentOf a) (pageNo a) x) (pageOf a) := by
  cases hp : isPkg a with
  | false => exact bp_bentOf hp ▸ u.onlyClips_syncPage _ _ x
  | true =>
    obtain ⟨-, -, -, -, ht, hpr, hf⟩ := pkgPage_kind (pageRow?_pkg h hp)
    rw [State.syncPage, pageConvs_of_kind h ht hpr hf]
    exact .refl u _

/-! ### Register writes -/

/-- A register write answers what its effect leaves. -/
theorem registerWrite_next {s u x : State} {t : PT} {addr : Fin 0x4000000} {full : Bool} {v : Word} {a : Nat}
    {P : State → Prop} (hu : u = s.arrive t) (ha : a = addr.val / 4 * 4) (hx : u.regWrite a full v.toNat = x)
    (h : P (u.keep x.settle)) : ∃ s', exec (.registerWrite t addr full v) s = .next s' ∧ P s' := by
  subst hu ha
  exact runAt_next (f := fun s => s.regWrite (addr.val / 4 * 4) full v.toNat) hx h

section Write

variable {s : State} {pr : PageRow} {a : Nat} (ha : a < 0x3000000) (hp : pageRow? s.variant a = some pr)

include ha hp

/-- A write with a byte enable missing latches 0x08 (R5). -/
theorem State.regWrite_partial (v : Nat) : s.regWrite a false v = s.latchHealth (pageOf a) 0x08 := by
  have hn : ¬ (0x3000000 ≤ a ∧ a < 0x3008000) := by omega
  simp [State.regWrite, hn, hp]

/-- A write to a locked page latches 0x04 (R399). -/
theorem State.regWrite_locked {r : RegRow} (hr : regRow? s.variant a = some r) (ho : r.own = false)
    (hl : s.locked (pageOf a) = true) (hf : lockFree pr.kind (a % 0x1000) = false) (v : Nat) :
    s.regWrite a true v = s.latchHealth (pageOf a) 0x04 := by
  have hn : ¬ (0x3000000 ≤ a ∧ a < 0x3008000) := by omega
  simp [State.regWrite, hn, hp, hr, ho, hl, hf]

/-- A write to a page that is not locked is taken by the register's access code. -/
theorem State.regWrite_unlocked {r : RegRow} (hr : regRow? s.variant a = some r) (hl : s.locked (pageOf a) = false)
    (v : Nat) : s.regWrite a true v = s.regTake pr r a v := by
  have hn : ¬ (0x3000000 ≤ a ∧ a < 0x3008000) := by omega
  simp [State.regWrite, hn, hp, hr, hl]

end Write

end Sys2Proof.Machine
end

section
/-!
PROOFS. PT-valued registers (R25): the hold registers, the alarm armed anew (R49), and the latches of a read.
-/

namespace Sys2Proof.Machine

/-! ### Hold registers and staged or taken values -/

/-- A held word is a 32-bit word. -/
theorem State.held_lt (s : State) (w : Writer) (a : Nat) : s.held w a < 2 ^ 32 := BitVec.isLt _

/-- The hold register of a writer takes a word `_MID` (1) or `_HI` (2). -/
def State.putHold (s : State) (w : Writer) (a i : Nat) (v : Word) : State :=
  { s with hold := mapSet (fun _ => 0) s.hold (ownKey w a) (BitVec.ofNat 32 (v.toNat % (if i = 2 then 2 ^ 16 else 2 ^ 32))) }

theorem State.held_putHold (s : State) (w : Writer) (a i : Nat) (v : Word) :
    (s.putHold w a i v).held w a = v.toNat % (if i = 2 then 2 ^ 16 else 2 ^ 32) := by
  simp only [State.held, State.putHold, mapGet_mapSet_same, BitVec.toNat_ofNat]
  split <;> omega

/-- A write of `_MID` or `_HI` answers what its hold register leaves. -/
theorem ptHoldWrite_next {s u : State} {t : PT} {w : Writer} {addr : Fin 0x4000000} {v : Word} {a lo i : Nat} {pr : PageRow}
    {P : State → Prop} (hu : u = s.arrive t) (ha : a = addr.val / 4 * 4) (hp : pageRow? u.variant a = some pr)
    (hw : ptWord pr.kind (a % 0x1000) = some (lo, i)) (hl : u.locked (pageOf a) = false) (hi : i ≠ 0)
    (h : P (u.keep (u.putHold w a i v).settle)) :
    ∃ s', exec (.ptHoldWrite t w addr v) s = .next s' ∧ P s' := by
  subst hu ha
  rw [exec_ptHoldWrite]
  refine runAt_next ?_ h
  rw [State.arrive_variant] at hp
  simp [hp, hw, hi, State.command, hl, State.putHold]

/-- The value that a `_LO` write of a PT register puts in force, its `_MID` and `_HI` from the hold registers. -/
def State.putPt (s : State) (w : Writer) (a : Nat) (v : Word) : State :=
  ((s.setReg a v).wr (a + 4) (s.held w (a + 4))).wr (a + 8) (s.held w (a + 8))

/-- The value in force, an armed alarm armed anew at it (R49). -/
def State.takePt (s : State) (w : Writer) (pr : PageRow) (a : Nat) (v : Word) : State :=
  if pr.kind == .time && (s.putPt w a v).bit (pageOf a + Off.TIME_ALARM_CTRL) 0 then (s.putPt w a v).alarmArm (bentOf a)
  else s.putPt w a v

/-- The value that a `_LO` write of a PT register stages. -/
def State.stagePt (s : State) (w : Writer) (a : Nat) (v : Word) : State :=
  ((s.setStaged a v).setStaged (a + 4) (BitVec.ofNat 32 (s.held w (a + 4)))).setStaged (a + 8)
    (BitVec.ofNat 32 (s.held w (a + 8)))

theorem State.putPt_reg (s : State) (w : Writer) (a : Nat) (v : Word) : (s.putPt w a v).reg a = v := by
  rw [State.putPt, State.wr, State.reg_setReg_ne _ _ (by omega), State.wr, State.reg_setReg_ne _ _ (by omega),
    State.reg_setReg_same]

theorem State.putPt_rd_mid (s : State) (w : Writer) (a : Nat) (v : Word) :
    (s.putPt w a v).rd (a + 4) = s.held w (a + 4) := by
  rw [State.putPt, State.rd_wr_ne _ _ (by omega), State.rd_wr_same, Nat.mod_eq_of_lt (s.held_lt w _)]

theorem State.putPt_rd_hi (s : State) (w : Writer) (a : Nat) (v : Word) :
    (s.putPt w a v).rd (a + 8) = s.held w (a + 8) := by
  rw [State.putPt, State.rd_wr_same, Nat.mod_eq_of_lt (s.held_lt w _)]

theorem State.putPt_reg_ne (s : State) (w : Writer) {a c : Nat} (v : Word) (hc : c ∉ [a, a + 4, a + 8]) :
    (s.putPt w a v).reg c = s.reg c := by
  simp only [List.mem_cons, List.not_mem_nil, or_false, not_or] at hc
  obtain ⟨h0, h4, h8⟩ := hc
  rw [State.putPt, State.wr, State.reg_setReg_ne _ _ h8, State.wr, State.reg_setReg_ne _ _ h4, State.reg_setReg_ne _ _ h0]

theorem State.stagePt_staged (s : State) (w : Writer) (a : Nat) (v : Word) : (s.stagePt w a v).staged a = v := by
  rw [State.stagePt, State.staged_setStaged_ne _ _ (by omega), State.staged_setStaged_ne _ _ (by omega),
    State.staged_setStaged_same]

theorem State.stagePt_staged_mid (s : State) (w : Writer) (a : Nat) (v : Word) :
    ((s.stagePt w a v).staged (a + 4)).toNat = s.held w (a + 4) := by
  rw [State.stagePt, State.staged_setStaged_ne _ _ (by omega), State.staged_setStaged_same, BitVec.toNat_ofNat,
    Nat.mod_eq_of_lt (s.held_lt w _)]

theorem State.stagePt_staged_hi (s : State) (w : Writer) (a : Nat) (v : Word) :
    ((s.stagePt w a v).staged (a + 8)).toNat = s.held w (a + 8) := by
  rw [State.stagePt, State.staged_setStaged_same, BitVec.toNat_ofNat, Nat.mod_eq_of_lt (s.held_lt w _)]

/-- A `_LO` write of a staged PT register answers what staging its value leaves. -/
theorem ptLoWrite_next_staged {s u : State} {t : PT} {w : Writer} {addr : Fin 0x4000000} {v : Word} {a lo : Nat}
    {pr : PageRow} {r : RegRow} {P : State → Prop} (hu : u = s.arrive t) (ha : a = addr.val / 4 * 4)
    (hp : pageRow? u.variant a = some pr) (hw : ptWord pr.kind (a % 0x1000) = some (lo, 0))
    (hl : u.locked (pageOf a) = false) (hr : regRow? u.variant a = some r) (hacc : r.acc = .rs)
    (h : P (u.keep (u.stagePt w a v).settle)) : ∃ s', exec (.ptLoWrite t w addr v) s = .next s' ∧ P s' := by
  subst hu ha
  rw [exec_ptLoWrite]
  refine runAt_next ?_ h
  rw [State.arrive_variant] at hp hr
  simp [hp, hw, hr, hacc, State.command, hl, State.stagePt]

/-- A `_LO` write of a PT register in force answers what its value leaves. -/
theorem ptLoWrite_next_taken {s u : State} {t : PT} {w : Writer} {addr : Fin 0x4000000} {v : Word} {a lo : Nat}
    {pr : PageRow} {r : RegRow} {P : State → Prop} (hu : u = s.arrive t) (ha : a = addr.val / 4 * 4)
    (hp : pageRow? u.variant a = some pr) (hw : ptWord pr.kind (a % 0x1000) = some (lo, 0))
    (hl : u.locked (pageOf a) = false) (hr : regRow? u.variant a = some r) (hacc : r.acc = .rw)
    (h : P (u.keep (u.takePt w pr a v).settle)) : ∃ s', exec (.ptLoWrite t w addr v) s = .next s' ∧ P s' := by
  subst hu ha
  rw [exec_ptLoWrite]
  refine runAt_next ?_ h
  rw [State.arrive_variant] at hp hr
  simp [hp, hw, hr, hacc, State.command, hl, State.takePt, State.putPt]

/-! ### The alarm -/

theorem State.onlyRegs_putPt (s : State) (w : Writer) (a : Nat) (v : Word) : s.onlyRegs (s.putPt w a v) := ⟨_, _, rfl⟩

/-- Arming the alarm writes ALARM_CTRL and may raise ALARM. -/
theorem State.onlyRegs_alarmArm (s : State) (b : Nat) : s.onlyRegs (s.alarmArm b) := by
  unfold State.alarmArm
  dsimp only
  split
  · exact s.onlyRegs_wr _ _
  · exact (s.onlyRegs_wr _ _).trans (State.onlyRegs_raiseAt _ _ _ _ _ _)

theorem State.alarmArm_reg_ne (s : State) {b a : Nat} (h : a ≠ timePg b + Off.TIME_ALARM_CTRL) :
    (s.alarmArm b).reg a = s.reg a := by
  unfold State.alarmArm
  dsimp only
  split
  · exact s.reg_setReg_ne _ h
  · rw [State.reg_raiseAt]
    exact s.reg_setReg_ne _ h

/-- The TIME page of the bent a TIME register belongs to is its page. -/
theorem timePg_bentOf {v : Variant} {a : Nat} {pr : PageRow} (h : pageRow? v a = some pr) (hk : pr.kind = .time) :
    timePg (bentOf a) = pageOf a := by
  cases hp : isPkg a with
  | true => exact absurd hk (pkgPage_kind (pageRow?_pkg h hp)).2.2.1
  | false =>
    obtain ⟨-, kt, -⟩ := bentPage_kind (pageRow?_bent h hp)
    rw [← bp_bentOf hp, kt.mp hk]

/-- The writable PT register of a TIME page is ALARM_PT. -/
theorem ptWord_time_lo {off lo : Nat} (h : ptWord .time off = some (lo, 0)) : off = Off.TIME_ALARM_PT_LO := by
  simp only [ptWord, blk, Off.TIME_ALARM_PT_LO, Option.map_eq_some_iff, Option.ite_none_right_eq_some, Option.some.injEq,
    Prod.mk.injEq] at h ⊢
  obtain ⟨i, ⟨hb, hi⟩, -, rfl⟩ := h
  omega

theorem State.onlyRegs_takePt (s : State) (w : Writer) (pr : PageRow) (a : Nat) (v : Word) :
    s.onlyRegs (s.takePt w pr a v) := by
  unfold State.takePt
  split
  · exact (s.onlyRegs_putPt w a v).trans (State.onlyRegs_alarmArm _ _)
  · exact s.onlyRegs_putPt w a v

/-- Beside the value itself, only ALARM_CTRL of an armed alarm can change. -/
theorem State.takePt_reg (s : State) (w : Writer) {pr : PageRow} {a c : Nat} (v : Word)
    (hp : pageRow? s.variant a = some pr)
    (hc : c = pageOf a + Off.TIME_ALARM_CTRL → pr.kind ≠ .time ∨ (s.putPt w a v).bit c 0 = false) :
    (s.takePt w pr a v).reg c = (s.putPt w a v).reg c := by
  unfold State.takePt
  split
  · next h =>
    simp only [Bool.and_eq_true, beq_iff_eq] at h
    obtain ⟨hk, hb⟩ := h
    refine State.alarmArm_reg_ne _ fun e => ?_
    rw [timePg_bentOf hp hk] at e
    rcases hc e with hn | hn
    · exact hn hk
    · rw [e, hb] at hn
      cases hn
  · rfl

/-- The words of a TIME page's writable PT register are not ALARM_CTRL. -/
theorem ne_alarmCtrl {pr : PageRow} {a lo c : Nat} (hw : ptWord pr.kind (a % 0x1000) = some (lo, 0))
    (hk : pr.kind = .time) (hc : c ∈ [a, a + 4, a + 8]) : c ≠ pageOf a + Off.TIME_ALARM_CTRL := by
  rw [hk] at hw
  have hoff := ptWord_time_lo hw
  simp only [List.mem_cons, List.not_mem_nil, or_false] at hc
  unfold Off.TIME_ALARM_PT_LO at hoff
  unfold pageOf Off.TIME_ALARM_CTRL
  omega

/-- The words of the value itself are in force as put. -/
theorem State.takePt_reg_word (s : State) (w : Writer) {pr : PageRow} {a lo c : Nat} (v : Word)
    (hp : pageRow? s.variant a = some pr) (hw : ptWord pr.kind (a % 0x1000) = some (lo, 0)) (hc : c ∈ [a, a + 4, a + 8]) :
    (s.takePt w pr a v).reg c = (s.putPt w a v).reg c := by
  refine s.takePt_reg w v hp fun e => ?_
  by_cases hk : pr.kind = .time
  · exact absurd e (ne_alarmCtrl hw hk hc)
  · exact .inl hk

/-- A register that is no word of the value, and not ALARM_CTRL of an armed alarm, stays as it was. -/
theorem State.takePt_reg_ne (s : State) (w : Writer) {pr : PageRow} {a c : Nat} (v : Word)
    (hp : pageRow? s.variant a = some pr) (hc : c ∉ [a, a + 4, a + 8])
    (hx : c = pageOf a + Off.TIME_ALARM_CTRL → pr.kind ≠ .time ∨ s.bit c 0 = false) :
    (s.takePt w pr a v).reg c = s.reg c := by
  have hput := s.putPt_reg_ne w v hc
  rw [s.takePt_reg w v hp fun e => (hx e).imp_right fun hb => (State.bit_of_reg hput 0).trans hb, hput]

/-! ### Latches -/

/-- Words put under distinct keys: each reads as put. -/
theorem mapGet_foldl_mapSet {α : Type} [DecidableEq α] (d : Nat → α) {key : Nat → Nat} (hkey : Function.Injective key)
    (g : Nat → α) {l : List Nat} (m : SMap α) {y : Nat} (hy : y ∈ l ∨ mapGet d m (key y) = g y) :
    mapGet d (l.foldl (fun m y => mapSet d m (key y) (g y)) m) (key y) = g y := by
  induction l generalizing m with
  | nil => simpa using hy
  | cons z l ih =>
    refine ih _ ?_
    by_cases hz : y = z
    · subst hz
      exact .inr (mapGet_mapSet_same d m _ _)
    · rw [mapGet_mapSet_ne d m _ fun e => hz (hkey e)]
      simpa [hz] using hy

/-- A reader's latches of two registers are two. -/
theorem ownKey_injective (w : Writer) : Function.Injective (ownKey w) := by
  intro a c h
  simp only [ownKey] at h
  omega

/-- The registers that a read of a latching register latches. -/
def latchedBy (r : RegRow) (a : Nat) : List Nat := (List.range r.latches).map fun i => a + 4 * (i + 1)

/-- A read of a latching register latches the words that follow it for the reader. -/
theorem State.latchRead_eq (s : State) (w : Writer) {a : Nat} {r : RegRow} (hr : regRow? s.variant a = some r) :
    s.latchRead w a = { s with latch := (latchedBy r a).foldl (fun m y =>
      mapSet (fun _ => 0) m (ownKey w y) (BitVec.ofNat 32 (s.value y))) s.latch } := by
  have key : ∀ (l : List Nat) (x : State), l.foldl (fun (x : State) y =>
      { x with latch := mapSet (fun _ => 0) x.latch (ownKey w y) (BitVec.ofNat 32 (s.value y)) }) x =
      { x with latch := l.foldl (fun m y => mapSet (fun _ => 0) m (ownKey w y) (BitVec.ofNat 32 (s.value y))) x.latch } := by
    intro l
    induction l with
    | nil => exact fun x => rfl
    | cons y l ih => exact fun x => ih _
  simp only [State.latchRead, hr, State.each]
  exact key _ s

/-- A read of a register answers what its latches leave. -/
theorem readLatch_next {s u x : State} {t : PT} {w : Writer} {addr : Fin 0x4000000} {a : Nat} {P : State → Prop}
    (hu : u = s.arrive t) (ha : a = addr.val / 4 * 4) (hx : u.latchRead w a = x) (h : P (u.keep x.settle)) :
    ∃ s', exec (.readLatch t w addr) s = .next s' ∧ P s' := by
  subst hu ha
  exact runAt_next (f := fun s => s.latchRead w (addr.val / 4 * 4)) hx h

end Sys2Proof.Machine
end

section
/-!
PROOFS. The statement about register accesses (R5, R6, R25, R367, R378, R399).
-/

namespace Sys2Proof.Machine

section Write

variable {s u : State} {t : PT} {addr : Fin 0x4000000} {v : Word} {a : Nat} {pr : PageRow} {r : RegRow}
  (hu : u = s.arrive t) (ha : a = addr.val / 4 * 4) (hlt : a < 0x3000000) (hp : pageRow? u.variant a = some pr)
  (hr : regRow? u.variant a = some r) (ho : r.own = false) (hl : u.locked (pageOf a) = false)

include hu ha hlt hp hr ho hl

/-- A write to an RW register (R5, R6). -/
theorem registerWrite_rw (hacc : r.acc = .rw) (he : pr.kind ≠ .events) (ht : pr.kind ≠ .time) (hc : pr.kind ≠ .continuity)
    (hf : pr.kind ≠ .foreman) : ∃ s', exec (.registerWrite t addr true v) s = .next s' ∧
      s'.rd a = (r.take (u.rd a) v.toNat).1 % 2 ^ 32 ∧
      ((r.take (u.rd a) v.toNat).2 = true → s'.isLatched (pageOf a) 0x01 = true) ∧ u.sameRegs s' [a] ∧
      s' = { u with regs := s'.regs, ev := s'.ev } := by
  have hx := (u.regWrite_unlocked hlt hp hr hl v.toNat).trans (State.regTake_rw_plain hp hr ho hacc he ht hc hf v.toNat)
  have honly := u.onlyRegs_putTested (pageOf a) a (r.take (u.rd a) v.toNat)
  have hreg := State.reg_keep_settle honly.variant
  refine registerWrite_next hu ha hx ⟨?_, fun h => ?_, fun c hc => ?_, honly.keep⟩
  · exact (State.rd_of_reg (hreg a)).trans (u.rd_putTested_same _ a _)
  · rw [State.isLatched_keep_settle]
    exact u.isLatched_putTested _ a h
  · exact (hreg c).trans (u.reg_putTested_ne _ _ (by simpa using hc))

/-- A write to an RS register of a page but SILL (R5). -/
theorem registerWrite_rs (hacc : r.acc = .rs) (hk : pr.kind ≠ .sill) :
    ∃ s', exec (.registerWrite t addr true v) s = .next s' ∧
      (s'.staged a).toNat = (v.toNat &&& r.wmask) + ((u.staged a).toNat &&& (0xFFFFFFFF ^^^ r.wmask)) ∧
      (∀ c, s'.reg c = u.reg c) ∧ s' = { u with shadow := s'.shadow, dirty := s'.dirty, ev := s'.ev } := by
  have hx := u.regWrite_unlocked hlt hp hr hl v.toNat
  rw [State.regTake_rs hp hr ho hacc, u.stage_plain hp hk] at hx
  refine registerWrite_next hu ha hx ⟨?_, fun c => (State.reg_keep_settle (by rfl) c).trans rfl, ?_⟩
  · rw [State.staged_keep_settle (by rfl), State.staged_setStaged_same, BitVec.toNat_ofNat,
      Nat.mod_eq_of_lt (merged_lt v (u.staged a) r.wmask)]
  · rw [State.keep_settle]
    rfl

/-- A write to a W1C register (R5). -/
theorem registerWrite_w1c (hacc : r.acc = .w1c) {x : State} (hx : x = u.syncPage (bentOf a) (pageNo a) u.now) :
    ∃ s', exec (.registerWrite t addr true v) s = .next s' ∧ s'.rd a = x.rd a &&& (0xFFFFFFFF ^^^ v.toNat) ∧
      x.sameRegs s' [a] ∧ u.samePages s' [pageOf a] ∧ s' = { u with regs := s'.regs, dacAt := s'.dacAt, ev := s'.ev } := by
  have hw := u.regWrite_unlocked hlt hp hr hl v.toNat
  rw [State.regTake_w1c hp hr ho hacc, ← hx] at hw
  have hclips : u.onlyClips x (pageOf a) := hx ▸ u.onlyClips_pageOf hp u.now
  have hall := hclips.trans (x.onlyClips_wr rfl (x.rd a &&& (0xFFFFFFFF ^^^ v.toNat)))
  have hreg := State.reg_keep_settle hall.variant
  refine registerWrite_next hu ha hw ⟨?_, fun c hc => ?_, fun c hc => (hreg c).trans (hall.2 c hc), ?_⟩
  · rw [State.rd_of_reg (hreg a), State.rd_wr_same]
    exact Nat.mod_eq_of_lt (Nat.lt_of_le_of_lt Nat.and_le_left (x.rd_lt a))
  · exact (hreg c).trans (x.reg_setReg_ne _ (by simpa using hc))
  · obtain ⟨⟨_, _, _, he⟩, -⟩ := hall
    rw [he, State.keep_settle]

/-- A write to a read-only register (R5). -/
theorem registerWrite_ro (hacc : r.acc = .ro) :
    ∃ s', exec (.registerWrite t addr true v) s = .next s' ∧ s' = { u with ev := s'.ev } := by
  have hx := u.regWrite_unlocked hlt hp hr hl v.toNat
  rw [State.regTake_ro hp hr ho hacc] at hx
  exact registerWrite_next hu ha hx (by rw [State.keep_settle])

end Write

/-- Settles O40: each access code by what it takes, the hold registers and latches by what a map reads after a write. -/
theorem registerAccess : Obligations.RegisterAccess := by
  intro s u t addr v a pr hu ha hlt hp
  refine ⟨?_, fun r hr ho hl hf => ?_, fun r hr ho hl => ⟨?_, ?_, ?_, ?_⟩, fun w lo i hw hl => ⟨fun hi => ?_, ?_⟩,
    fun w r hr => ?_⟩
  · exact registerWrite_next hu ha (u.regWrite_partial hlt hp v.toNat) ⟨by simp, by rw [State.keep_settle]; rfl⟩
  · exact registerWrite_next hu ha (u.regWrite_locked hlt hp hr ho hl hf v.toNat) ⟨by simp, by rw [State.keep_settle]; rfl⟩
  · exact registerWrite_rw hu ha hlt hp hr ho hl
  · exact registerWrite_rs hu ha hlt hp hr ho hl
  · refine fun x hacc hx => ⟨fun h1 h2 h3 => ?_, registerWrite_w1c hu ha hlt hp hr ho hl hacc hx⟩
    rw [hx, State.syncPage, pageConvs_of_kind hp h1 h2 h3]
    rfl
  · exact registerWrite_ro hu ha hlt hp hr ho hl
  · refine ptHoldWrite_next hu ha hp hw hl hi ⟨?_, by rw [State.keep_settle]; rfl⟩
    rw [State.keep_settle]
    exact u.held_putHold w a i v
  · rintro r rfl hr
    refine ⟨fun hacc => ?_, fun hacc => ?_⟩
    · refine ptLoWrite_next_staged hu ha hp hw hl hr hacc ?_
      rw [State.keep_settle]
      exact ⟨u.stagePt_staged w a v, u.stagePt_staged_mid w a v, u.stagePt_staged_hi w a v, rfl⟩
    · have hreg := State.reg_keep_settle (u.onlyRegs_takePt w pr a v).variant
      have hword : ∀ c ∈ [a, a + 4, a + 8], (u.keep (u.takePt w pr a v).settle).reg c = (u.putPt w a v).reg c :=
        fun c hc => (hreg c).trans (u.takePt_reg_word w v hp hw hc)
      refine ptLoWrite_next_taken hu ha hp hw hl hr hacc ⟨?_, ?_, ?_, fun c hc hx => ?_, (u.onlyRegs_takePt w pr a v).keep⟩
      · exact (hword a (by simp)).trans (u.putPt_reg w a v)
      · exact (State.rd_of_reg (hword (a + 4) (by simp))).trans (u.putPt_rd_mid w a v)
      · exact (State.rd_of_reg (hword (a + 8) (by simp))).trans (u.putPt_rd_hi w a v)
      · exact (hreg c).trans (u.takePt_reg_ne w v hp hc hx)
  · refine readLatch_next hu ha (u.latchRead_eq w hr) ?_
    rw [State.keep_settle]
    refine ⟨fun i hi => ?_, rfl⟩
    have hmem : a + 4 * (i + 1) ∈ latchedBy r a := List.mem_map.mpr ⟨i, List.mem_range.mpr hi, rfl⟩
    exact congrArg BitVec.toNat (mapGet_foldl_mapSet _ (ownKey_injective w) (fun y => BitVec.ofNat 32 (u.value y)) u.latch
      (.inl hmem))

end Sys2Proof.Machine
end

section
/-!
PROOFS. The state right after reset (R7, R24, R30, R310), and what POR, RESET_N and PERST_N reset and keep (R310, R311, R365,
R399, R416).
-/

namespace Sys2Proof.Machine

/-! ### PAGE_CTRL in reset -/

theorem resetNat_pageCtrl_le (v : Variant) {a : Nat} (ha : a % 0x1000 = Off.PG_PAGE_CTRL) : resetNat v a ≤ 1 := by
  unfold resetNat
  split
  · exact Nat.zero_le 1
  · next pr _ => cases pr.enable <;> simp [ha, b2n]

/-- PAGE_CTRL resets with no bit but ENABLE set (R369). -/
theorem bitAt_resetWord_pageCtrl (v : Variant) {pg i : Nat} (hpg : pg % 0x1000 = 0) (hi : i ≠ 0) :
    bitAt (resetWord v (pg + Off.PG_PAGE_CTRL)).toNat i = false := by
  have hle : resetNat v (pg + Off.PG_PAGE_CTRL) ≤ 1 := resetNat_pageCtrl_le v (by unfold Off.PG_PAGE_CTRL; omega)
  have hpow : 2 ^ 1 ≤ 2 ^ i := Nat.pow_le_pow_right (by omega) (by omega)
  refine Nat.testBit_lt_two_pow ?_
  rw [resetWord, BitVec.toNat_ofNat]
  omega

theorem mod_of_mem_allPages {s : State} {pg : Nat} (h : pg ∈ s.allPages) : pg % 0x1000 = 0 := by
  simp only [State.allPages, List.mem_append, List.mem_flatMap, List.mem_map] at h
  rcases h with ⟨b, -, p, -, rfl⟩ | ⟨q, -, rfl⟩
  · unfold bp; omega
  · unfold pkgp; omega

/-- Settles O55: the fixed state by evaluation, the pages by what PAGE_CTRL resets to. -/
theorem resetState : Obligations.ResetState := by
  refine ⟨rfl, rfl, rfl, rfl, rfl, fun pg hpg => ?_, by decide +kernel, by decide +kernel, by decide +kernel⟩
  have hbit := fun i hi => bitAt_resetWord_pageCtrl .gy8 (i := i) (mod_of_mem_allPages hpg) hi
  exact ⟨hbit 8 (by decide), hbit 2 (by decide), hbit 1 (by decide)⟩

/-! ### POR and RESET_N (R310, R399, R416) -/

/-- A byte that a reset does not lose reads as before. -/
theorem State.memLost_byte (s : State) {lost : Nat → Bool} {a : Nat} (h : lost a = false) :
    mapGet memReset (s.memLost lost).1 a = s.memByte a := by
  have key : ∀ (l : SMap Byte) (x : SMap Byte × Nat), mapGet memReset (l.foldl (fun (x : SMap Byte × Nat) e =>
      if lost e.1 then (mapSet memReset x.1 e.1 (BitVec.ofNat 8 (Config.freeValue x.2)), x.2 + 1) else x) x).1 a =
      mapGet memReset x.1 a := by
    intro l
    induction l with
    | nil => exact fun x => rfl
    | cons e l ih =>
      refine fun x => (ih _).trans ?_
      dsimp only
      split
      · next he => exact mapGet_mapSet_ne _ _ _ fun ha => by rw [ha, he] at h; cases h
      · rfl
  exact key s.mem (s.mem, s.free)

/-- What a reset puts in place of the state, its registers in force at their reset values. -/
def State.restartBase (s : State) (por : Bool) : State :=
  { State.fresh s.variant with
    mem := (s.memLost fun a => por || volatileMem a).1, free := (s.memLost fun a => por || volatileMem a).2
    ev := { (State.fresh s.variant).ev with host := s.ev.host, sent := s.ev.sent, perstLow := s.ev.perstLow }
    ptGen := s.ptGen, pkgNum := 0, cals := s.trimStores, boot := s.bootKept por
    poison := if por then [] else s.poison.filter fun e => !volatileMem (e.1 * 8)
    signSeq := if por then [] else s.signSeq
    meters := if por then [] else s.meters.foldl (fun (m : SMap Meter) (e : Nat × Meter) =>
      mapSet (fun _ => Meter.init) m e.1 { Meter.init with rails := e.2.rails }) []
    account := if por then Account.init else { Account.init with used := s.account.used } }

/-- The registers that show pins. -/
def State.restartPins (s x : State) : State :=
  (x.setBit (pkgp 0 + Off.PKG_PWR_STAT) 0 s.pwrGood).setBit srcStat 11 (s.bit srcStat 11)

/-- LOCK of the pages that were locked. -/
def State.restartLocks (s x : State) : State :=
  (s.allPages.filter s.locked).foldl (fun x pg => x.setBit (pg + Off.PG_PAGE_CTRL) 8 true) x

/-- OCXO_READY that is high counts from the reset. -/
def State.restartReady (s x : State) : State := if s.bit srcStat 11 then { x with tb := { x.tb with ready := some 0 } } else x

/-- The cause of the reset, on every bent. -/
def State.restartCause (s x : State) (cause : Nat) : State :=
  (List.range s.variant.bents).foldl (fun x b => x.wr (conPg b + Off.CONTINUITY_LAST_RESET) cause) x

/-- A reset in its parts. -/
theorem State.restart_eq (s : State) (por : Bool) : s.restart por =
    s.restartCause (s.restartReady (if por then s.restartPins (s.restartBase por)
      else s.restartLocks (s.restartPins (s.restartBase por)))) (if por then 1 else 2) := by
  unfold State.restartLocks
  rw [List.foldl_filter]
  rfl

/-- Only registers in force and the timebase differ. -/
def State.onlyForce (u x : State) : Prop := ∃ r t, x = { u with regs := r, tb := t }

theorem State.onlyForce.trans {u x y : State} (h : u.onlyForce x) (k : x.onlyForce y) : u.onlyForce y := by
  obtain ⟨_, _, rfl⟩ := h
  obtain ⟨r, t, rfl⟩ := k
  exact ⟨r, t, rfl⟩

theorem State.onlyForce_foldl {g : State → Nat → State} (h : ∀ (s : State) b, s.onlyForce (g s b)) (l : List Nat) (s : State) :
    s.onlyForce (l.foldl g s) := by
  induction l generalizing s with
  | nil => exact ⟨s.regs, s.tb, rfl⟩
  | cons b l ih => exact (h s b).trans (ih _)

/-- Beyond its base a reset reaches only registers and the timebase. -/
theorem State.onlyForce_restart (s : State) (por : Bool) : (s.restartBase por).onlyForce (s.restart por) := by
  have hpins : (s.restartBase por).onlyForce (s.restartPins (s.restartBase por)) := ⟨_, _, rfl⟩
  have hlocks : ∀ x : State, x.onlyForce (s.restartLocks x) := State.onlyForce_foldl (fun x pg => ⟨_, x.tb, rfl⟩) _
  have hready : ∀ x : State, x.onlyForce (s.restartReady x) := fun x => by
    unfold State.restartReady
    split
    · exact ⟨x.regs, _, rfl⟩
    · exact ⟨x.regs, x.tb, rfl⟩
  have hcause : ∀ (x : State) n, x.onlyForce (s.restartCause x n) :=
    fun x n => State.onlyForce_foldl (fun x b => ⟨_, x.tb, rfl⟩) _ x
  rw [State.restart_eq]
  refine .trans ?_ ((hready _).trans (hcause _ _))
  split
  · exact hpins
  · exact hpins.trans (hlocks _)

theorem conPg_injective (o : Nat) : Function.Injective fun b => conPg b + o := by
  intro b c h
  simp only [conPg, bp] at h
  omega

theorem State.restartReady_reg (s x : State) (a : Nat) : (s.restartReady x).reg a = x.reg a := by
  unfold State.restartReady
  split <;> rfl

theorem State.restartCause_reg (s x : State) (n : Nat) {a : Nat} (hc : ∀ b, a ≠ conPg b + Off.CONTINUITY_LAST_RESET) :
    (s.restartCause x n).reg a = x.reg a :=
  foldl_reg_ne (fun x _ _ h => x.reg_wr_ne n h) (fun b _ => hc b) x

theorem State.restartLocks_reg (s x : State) {a : Nat}
    (hl : ∀ pg ∈ s.allPages, s.locked pg = true → a ≠ pg + Off.PG_PAGE_CTRL) : (s.restartLocks x).reg a = x.reg a :=
  foldl_reg_ne (fun x _ _ h => x.reg_setBit_ne 8 true h)
    (fun pg hpg => hl pg (List.mem_of_mem_filter hpg) (List.mem_filter.mp hpg).2) x

/-- A register that shows neither the cause of a reset nor LOCK is as the pins leave it. -/
theorem State.restart_reg_pins (s : State) {por : Bool} {a : Nat} (hc : ∀ b, a ≠ conPg b + Off.CONTINUITY_LAST_RESET)
    (hl : por = true ∨ ∀ pg ∈ s.allPages, s.locked pg = true → a ≠ pg + Off.PG_PAGE_CTRL) :
    (s.restart por).reg a = (s.restartPins (s.restartBase por)).reg a := by
  rw [State.restart_eq, s.restartCause_reg _ _ hc, State.restartReady_reg]
  split
  · rfl
  · next hpor => exact s.restartLocks_reg _ (hl.resolve_left hpor)

/-- A register that shows no pin either resets (R7). -/
theorem State.restart_reg (s : State) {por : Bool} {a : Nat} (hp : a ≠ pkgp 0 + Off.PKG_PWR_STAT) (hs : a ≠ srcStat)
    (hc : ∀ b, a ≠ conPg b + Off.CONTINUITY_LAST_RESET)
    (hl : por = true ∨ ∀ pg ∈ s.allPages, s.locked pg = true → a ≠ pg + Off.PG_PAGE_CTRL) :
    (s.restart por).reg a = resetWord s.variant a :=
  (s.restart_reg_pins hc hl).trans ((State.reg_setBit_ne _ _ _ hs).trans (State.reg_setBit_ne _ _ _ hp))

/-- LAST_RESET of every bent tells the reset's cause (R310). -/
theorem State.restart_lastReset (s : State) (por : Bool) {b : Nat} (hb : s.has b = true) :
    (s.restart por).rd (conPg b + Off.CONTINUITY_LAST_RESET) = if por then 1 else 2 := by
  rw [State.restart_eq, State.restartCause]
  obtain ⟨x, -, hx⟩ := foldl_reg_at (fun (x : State) _ _ h => x.reg_wr_ne (if por then 1 else 2) h)
    (conPg_injective Off.CONTINUITY_LAST_RESET) List.nodup_range (List.mem_range.mpr (of_decide_eq_true hb)) _
  refine (State.rd_of_reg hx).trans ((x.rd_wr_same _ _).trans ?_)
  split <;> rfl

/-- A bit that a fold sets, or that was set, is set. -/
theorem bit_foldl_setBit {f : Nat → Nat} {i : Nat} (hi : i < 32) {l : List Nat} {c : Nat} (x : State)
    (h : c ∈ l ∨ x.bit (f c) i = true) : (l.foldl (fun x b => x.setBit (f b) i true) x).bit (f c) i = true := by
  induction l generalizing x with
  | nil => simpa using h
  | cons b l ih =>
    refine ih _ ?_
    rw [State.bit_setBit _ _ _ _ _ hi]
    rcases h with h | h
    · rcases List.mem_cons.mp h with rfl | h
      · exact .inr (by simp)
      · exact .inl h
    · exact .inr (by split <;> simp [h])

/-- LOCK outlives RESET_N and not POR (R399). -/
theorem State.restart_locked (s : State) (por : Bool) {pg : Nat} (hpg : pg ∈ s.allPages) :
    (s.restart por).locked pg = (!por && s.locked pg) := by
  have hmod := mod_of_mem_allPages hpg
  have hp : pg + Off.PG_PAGE_CTRL ≠ pkgp 0 + Off.PKG_PWR_STAT := by unfold Off.PG_PAGE_CTRL Off.PKG_PWR_STAT pkgp; omega
  have hs : pg + Off.PG_PAGE_CTRL ≠ srcStat := by
    unfold Off.PG_PAGE_CTRL srcStat Off.TIMEBASE_SRC_STAT tbPg pkgp; omega
  have hc : ∀ b, pg + Off.PG_PAGE_CTRL ≠ conPg b + Off.CONTINUITY_LAST_RESET := fun b => by
    unfold Off.PG_PAGE_CTRL Off.CONTINUITY_LAST_RESET conPg bp; omega
  by_cases hk : por = false ∧ s.locked pg = true
  · obtain ⟨rfl, hl⟩ := hk
    have hmem : pg ∈ s.allPages.filter s.locked := List.mem_filter.mpr ⟨hpg, hl⟩
    rw [hl, State.locked, State.restart_eq, State.bit_of_reg (s.restartCause_reg _ _ hc),
      State.bit_of_reg (s.restartReady_reg _ _)]
    exact bit_foldl_setBit (f := fun pg => pg + Off.PG_PAGE_CTRL) (by decide) _ (.inl hmem)
  · have hreset : (s.restart por).reg (pg + Off.PG_PAGE_CTRL) = resetWord s.variant (pg + Off.PG_PAGE_CTRL) := by
      refine s.restart_reg hp hs hc ?_
      cases por with
      | true => exact .inl rfl
      | false => exact .inr fun q _ hq e => hk ⟨rfl, by rwa [Nat.add_right_cancel e]⟩
    have hclear : (s.restart por).locked pg = false := by
      rw [State.locked, State.bit, State.rd, hreset]
      exact bitAt_resetWord_pageCtrl _ hmod (by decide)
    rw [hclear]
    cases por <;> simp_all

/-- PWR_GOOD shows its pin (R310). -/
theorem State.restart_pwrGood (s : State) (por : Bool) : (s.restart por).pwrGood = s.pwrGood := by
  have hl : ∀ pg ∈ s.allPages, s.locked pg = true → pkgp 0 + Off.PKG_PWR_STAT ≠ pg + Off.PG_PAGE_CTRL := fun pg hpg _ => by
    have hmod := mod_of_mem_allPages hpg
    unfold Off.PG_PAGE_CTRL Off.PKG_PWR_STAT pkgp; omega
  have hc : ∀ b, pkgp 0 + Off.PKG_PWR_STAT ≠ conPg b + Off.CONTINUITY_LAST_RESET := fun b => by
    unfold Off.PKG_PWR_STAT Off.CONTINUITY_LAST_RESET conPg bp pkgp; omega
  have hs : pkgp 0 + Off.PKG_PWR_STAT ≠ srcStat := by decide
  exact (State.bit_of_reg (s.restart_reg_pins hc (.inr hl)) 0).trans
    ((State.bit_of_reg (State.reg_setBit_ne _ _ _ hs) 0).trans (State.bit_setBit_same _ _ _ _ (by decide)))

/-- FAULT_N is released after a reset. -/
theorem State.restart_settle (s : State) (por : Bool) : (s.restart por).settle = s.restart por := by
  obtain ⟨r, t, h⟩ := s.onlyForce_restart por
  exact State.settle_released (by rw [h]; rfl) (by rw [h]; rfl)

/-- POR and a long pulse of RESET_N answer the state after a reset, with the queue, PT at 0 and bent 0 as the ridge. -/
theorem reset_next {s u : State} {t : PT} {c : Instr} {por : Bool} {P : State → Prop} (hu : u = s.arrive t)
    (hc : c = .resetN t true ∧ por = false ∨ c = .por t ∧ por = true)
    (h : P { u.restart por with pending := u.pending, variant := u.variant, clk := Clk.reset, ridge := 0 }) :
    ∃ s', exec c s = .next s' ∧ P s' := by
  subst hu
  have hs := ((s.arrive t).restart_settle por)
  rcases hc with ⟨rfl, rfl⟩ | ⟨rfl, rfl⟩
  · exact ⟨_, rfl, by rw [← hs] at h; exact h⟩
  · exact ⟨_, rfl, by rw [← hs] at h; exact h⟩

/-! ### A short pulse of RESET_N (R311) -/

/-- A short pulse of RESET_N answers what its counts leave. -/
theorem glitch_next {s u : State} {t : PT} {P : State → Prop} (hu : u = s.arrive t)
    (h : P (u.keepMem (State.settle ((List.range u.variant.bents).foldl
      (fun s b => s.bump (conPg b + Off.CONTINUITY_RESET_GLITCH_COUNT)) u)))) :
    ∃ s', exec (.resetN t false) s = .next s' ∧ P s' := by
  subst hu
  exact ⟨_, rfl, h⟩

/-! ### PERST_N (R310, R365) -/

/-- The host interface after PERST_N, but for the counts. -/
def State.perstBase (s : State) : State :=
  { s with
    ev := { s.ev with
      wr := 0, lost := 0, rseq := 0, gap := true, losing := false, holdoff := [], msix := [], pba := [], perstLow := true }
    dmas := [], regs := s.regs.filter fun e => !perstReg e.1, spdm := { stage := 0, answer := none } }

/-- PERST_N is counted on a bent, and its halted engines are none any more. -/
def State.perstCount (s : State) (b : Nat) : State :=
  (s.standing (evPg b) 0x31 false).bump (conPg b + Off.CONTINUITY_PERST_COUNT)

/-- PERST_N falling answers what the reset of the host interface leaves. -/
theorem perst_next {s u : State} {t : PT} {P : State → Prop} (hu : u = s.arrive t) (hl : u.ev.perstLow = false)
    (h : P (u.keep ((List.range u.variant.bents).foldl State.perstCount u.perstBase).settle)) :
    ∃ s', exec (.perstN t true) s = .next s' ∧ P s' := by
  subst hu
  rw [exec_perstN]
  refine runAt_next ?_ h
  dsimp only
  rw [hl]
  rfl

theorem State.perstBase_reg (s : State) (a : Nat) :
    s.perstBase.reg a = if perstReg a then resetWord s.variant a else s.reg a := by
  refine (mapGet_filter _ s.regs (fun a => !perstReg a) a).trans ?_
  cases perstReg a <;> rfl

theorem State.perstCount_reg_ne (s : State) {b a : Nat} (h : a ≠ conPg b + Off.CONTINUITY_PERST_COUNT) :
    (s.perstCount b).reg a = s.reg a := (State.reg_setReg_ne _ _ h).trans (s.reg_standing _ _ _ a)

/-- Counting PERST_N touches no event but 0x31. -/
theorem State.perstCount_ev (s : State) (b : Nat) : (s.perstCount b).ev =
    { s.ev with standing := setPut s.ev.standing (evPg b * 256 + 0x31) false } := by
  simp [State.perstCount, State.standing]

/-- CONTINUITY registers are not of the host interface. -/
theorem perstReg_conPg (b : Nat) : perstReg (conPg b + Off.CONTINUITY_PERST_COUNT) = false := by
  have hno : isPkg (conPg b + Off.CONTINUITY_PERST_COUNT) = false → pageNo (conPg b + Off.CONTINUITY_PERST_COUNT) = 0x18 :=
    fun h => by
      unfold pageNo
      rw [h]
      simp only [Bool.false_eq_true, if_false]
      unfold conPg bp Off.CONTINUITY_PERST_COUNT
      omega
  cases h : isPkg (conPg b + Off.CONTINUITY_PERST_COUNT) with
  | true => simp [perstReg, h]
  | false => simp [perstReg, hno h]

theorem State.onlyRegs_perstCount (s : State) (b : Nat) : s.onlyRegs (s.perstCount b) :=
  (s.onlyRegs_standing _ _ _).trans (State.onlyRegs_bump _ _)

end Sys2Proof.Machine
end

section
/-!
PROOFS. The statement about resets (R7, R310, R311, R365, R399, R416).
-/

namespace Sys2Proof.Machine

/-- Counts of distinct registers, one per bent, each go up by one. -/
theorem rd_foldl_count {g : State → Nat → State} {o n b : Nat} (hb : b < n)
    (hne : ∀ s b a, a ≠ conPg b + o → (g s b).reg a = s.reg a)
    (hat : ∀ s b, (g s b).rd (conPg b + o) = satAdd (s.rd (conPg b + o)) 1) (s : State) :
    ((List.range n).foldl g s).rd (conPg b + o) = satAdd (s.rd (conPg b + o)) 1 := by
  obtain ⟨x, hx, hs⟩ := foldl_reg_at hne (conPg_injective o) List.nodup_range (List.mem_range.mpr hb) s
  exact (State.rd_of_reg hs).trans ((hat x b).trans (by rw [State.rd_of_reg hx]))

/-- The state after POR or RESET_N, register by register and part by part (R7, R310, R399). -/
theorem reset_registers {s u : State} {t : PT} {c : Instr} {por : Bool} (hu : u = s.arrive t)
    (hc : c = .resetN t true ∧ por = false ∨ c = .por t ∧ por = true) : ∃ s', exec c s = .next s' ∧
      (∀ a, a ≠ pkgp 0 + Off.PKG_PWR_STAT → a ≠ srcStat → (∀ b, a ≠ conPg b + Off.CONTINUITY_LAST_RESET) →
        (por = true ∨ pageOf a ∉ u.allPages ∨ a % 0x1000 ≠ Off.PG_PAGE_CTRL) → s'.reg a = resetWord u.variant a) ∧
      (∀ pg ∈ u.allPages, s'.locked pg = (!por && u.locked pg)) ∧
      (∀ b, u.has b = true → s'.rd (conPg b + Off.CONTINUITY_LAST_RESET) = if por then 1 else 2) ∧
      s'.pwrGood = u.pwrGood ∧ s'.clk = Clk.reset ∧ s'.ridge = 0 ∧ s'.tree = Tree.init ∧ s'.ptGen = u.ptGen ∧
      s'.queues = [] ∧ s'.flight = [] ∧ s'.edges = [] ∧ s'.seqs = [] ∧ s'.streams = [] ∧ s'.tones = [] ∧ s'.caps = [] ∧
      s'.dmas = [] ∧ s'.ev.host = u.ev.host ∧ s'.ev.raw = [] ∧ s'.boot.flash = u.boot.flash ∧ s'.boot.up = false ∧
      (por = false → ∀ a, volatileMem a = false → s'.memByte a = u.memByte a) ∧
      s'.boot.owner = (if por && u.boot.clear then none else u.boot.owner) ∧ s'.pending = u.pending := by
  obtain ⟨r, tb, h⟩ := u.onlyForce_restart por
  have hreg : ∀ a, State.reg { u.restart por with pending := u.pending, variant := u.variant, clk := Clk.reset, ridge := 0 } a =
      (u.restart por).reg a := fun a => State.reg_congr a rfl (congrArg State.variant h).symm
  refine reset_next hu hc ⟨fun a hp hs hl ha => ?_, fun pg hpg => ?_, fun b hb => ?_, ?_, rfl, rfl, congrArg State.tree h,
    (congrArg State.ptGen h).trans rfl, congrArg State.queues h, congrArg State.flight h, congrArg State.edges h, congrArg State.seqs h,
    congrArg State.streams h, congrArg State.tones h, congrArg State.caps h, congrArg State.dmas h,
    congrArg (fun x => x.ev.host) h, congrArg (fun x => x.ev.raw) h, congrArg (fun x => x.boot.flash) h,
    congrArg (fun x => x.boot.up) h, fun hpor a ha => ?_, congrArg (fun x => x.boot.owner) h, rfl⟩
  · refine (hreg a).trans (u.restart_reg hp hs hl (ha.imp_right fun ha pg hpg _ e => ?_))
    have hmod := mod_of_mem_allPages hpg
    have hctrl : Off.PG_PAGE_CTRL < 0x1000 := by decide
    rcases ha with ha | ha
    · exact ha (by rwa [e, pageOf_add hmod hctrl])
    · omega
  · exact (State.bit_of_reg (hreg _) 8).trans (u.restart_locked por hpg)
  · exact (State.rd_of_reg (hreg _)).trans (u.restart_lastReset por hb)
  · exact (State.bit_of_reg (hreg _) 0).trans (u.restart_pwrGood por)
  · subst hpor
    exact (congrArg (fun x => x.memByte a) h).trans (u.memLost_byte (by simp [ha]))

/-- What PERST_N resets and counts (R310, R365). -/
theorem perst_registers {s u : State} {t : PT} (hu : u = s.arrive t) (hl : u.ev.perstLow = false) :
    ∃ s', exec (.perstN t true) s = .next s' ∧ s'.ev.perstLow = true ∧ s'.ev.wr = 0 ∧ s'.dmas = [] ∧
      (∀ a, perstReg a = true → s'.reg a = resetWord u.variant a) ∧
      (∀ b, u.has b = true → s'.rd (conPg b + Off.CONTINUITY_PERST_COUNT) =
        satAdd (u.rd (conPg b + Off.CONTINUITY_PERST_COUNT)) 1) ∧
      (∀ a, perstReg a = false → (∀ b, a ≠ conPg b + Off.CONTINUITY_PERST_COUNT) → s'.reg a = u.reg a) ∧
      s' = { u with regs := s'.regs, dmas := s'.dmas, spdm := s'.spdm, ev := s'.ev } := by
  have honly := State.onlyRegs_foldl State.onlyRegs_perstCount (List.range u.variant.bents) u.perstBase
  have hreg := State.reg_keep_settle (u := u) honly.variant
  have hbase : ∀ a, (∀ b, a ≠ conPg b + Off.CONTINUITY_PERST_COUNT) →
      ((List.range u.variant.bents).foldl State.perstCount u.perstBase).reg a = u.perstBase.reg a := fun a ha =>
    foldl_reg_ne (f := fun b => conPg b + Off.CONTINUITY_PERST_COUNT) (fun s _ _ h => s.perstCount_reg_ne h)
      (fun b _ => ha b) _
  have hkept : ∀ a, perstReg a = false → u.perstBase.reg a = u.reg a := fun a ha => by simp [State.perstBase_reg, ha]
  refine perst_next hu hl ⟨?_, ?_, ?_, fun a ha => ?_, fun b hb => ?_, fun a ha hne => ?_, ?_⟩
  · rw [State.keep_ev, State.settle_ev_perstLow]
    exact foldl_frame (fun x => x.ev.perstLow) State.perstCount (fun s b => by rw [s.perstCount_ev b]) _ u.perstBase
  · rw [State.keep_ev, State.settle_ev_wr]
    exact foldl_frame (fun x => x.ev.wr) State.perstCount (fun s b => by rw [s.perstCount_ev b]) _ u.perstBase
  · rw [State.keep_dmas, State.settle_dmas]
    obtain ⟨r, e, he⟩ := honly
    exact (congrArg State.dmas he).trans rfl
  · have hne : ∀ b, a ≠ conPg b + Off.CONTINUITY_PERST_COUNT := fun b e => by
      rw [e, perstReg_conPg] at ha
      cases ha
    rw [hreg, hbase a hne, State.perstBase_reg, if_pos ha]
  · rw [State.rd_of_reg (hreg _), rd_foldl_count (of_decide_eq_true hb) (fun s b a h => s.perstCount_reg_ne h)
      (fun s b => by simp [State.perstCount]), State.rd_of_reg (hkept _ (perstReg_conPg b))]
  · rw [hreg, hbase a hne, hkept a ha]
  · obtain ⟨r, e, he⟩ := honly
    rw [he, State.keep_settle]
    rfl

/-- Settles O52: a reset by its parts, the counts by folds over distinct registers, PERST_N by what its filter keeps. -/
theorem resets : Obligations.Resets := by
  intro s u t hu
  refine ⟨?_, fun c por hc => reset_registers hu hc, fun hl => perst_registers hu hl, ?_⟩
  · have honly := State.onlyRegs_foldl (fun s b => s.onlyRegs_bump (conPg b + Off.CONTINUITY_RESET_GLITCH_COUNT))
      (List.range u.variant.bents) u
    refine glitch_next hu ⟨fun b hb => ?_, honly.keepMem⟩
    rw [State.rd_of_reg (State.reg_keepMem_settle honly.variant _)]
    exact rd_foldl_count (of_decide_eq_true hb) (fun s b a h => s.reg_bump_ne h) (fun s b => s.rd_bump_same _) u
  · subst hu
    rw [exec_perstN]
    refine runAt_next (x := { s.arrive t with ev := { (s.arrive t).ev with perstLow := false } }) rfl ⟨?_, ?_⟩
    · simp
    · rw [State.keep_settle]

end Sys2Proof.Machine
end

section
/-!
PROOFS. Commits (R6, R21, R144, R372, R373): what a request does in each of its cases, what a snapshot does on a page whose apply
has no effect beside its registers, and what cancels a request.
-/

namespace Sys2Proof.Machine

/-! ### A request and its cases -/

/-- A request to a page that is not locked answers what the request leaves. -/
theorem commit_next {s u x : State} {t : PT} {pg : Page} {kind : Fin 16} {pr : PageRow} {a : Nat} {P : State → Prop}
    (hu : u = s.arrive t) (ha : a = pageBase pg) (hp : pageRow? u.variant a = some pr) (hl : u.locked a = false)
    (hx : u.commitRequest a pr kind = x) (h : P (u.keepMem x.settle)) :
    ∃ s', exec (.commit t pg kind) s = .next s' ∧ P s' := by
  subst hu ha
  rw [exec_commit]
  refine runMem_next ?_ h
  rw [← hx]
  simp only [State.onPage, hp, State.command, hl, Bool.false_eq_true, if_false]

section Request

variable {s : State} {a : Nat} {pr : PageRow} {kind : Nat}

/-- A reserved kind is refused with 0x01. -/
theorem State.commitRequest_reserved (hk : 4 < kind) : s.commitRequest a pr kind = s.latchHealth a 0x01 := by
  simp [State.commitRequest, hk]

/-- A request that stages P registers and is for no gate is refused with 0x54 (R144). -/
theorem State.commitRequest_ungated (hk : kind < 3) (hlock : s.hasLocked a = true)
    (hP : stagesP pr.kind (s.pageSnap a pr.kind) = true) : s.commitRequest a pr kind = s.latchHealth a 0x54 := by
  have h4 : ¬ 4 < kind := by omega
  have h3 : kind ≠ 3 := by omega
  have h4' : kind ≠ 4 := by omega
  simp [State.commitRequest, h4, hlock, hP, h3, h4']

/-- A request for now that changes a timing-affecting field is refused with 0x02 (R373). -/
theorem State.commitRequest_timing (hk : kind = 0) (hlock : s.hasLocked a = true)
    (hP : stagesP pr.kind (s.pageSnap a pr.kind) = false) (ht : s.changesTiming (s.pageSnap a pr.kind) = true) :
    s.commitRequest a pr kind = s.latchHealth a 0x02 := by
  simp [State.commitRequest, hk, hlock, hP, ht]

/-- After the first lock a request that its snapshot's tests let pass is refused as a fifth, applies at once, or waits. -/
theorem State.commitRequest_accepted (hk : kind ≤ 4) (hlock : s.hasLocked a = true)
    (hP : stagesP pr.kind (s.pageSnap a pr.kind) = false ∨ 3 ≤ kind)
    (ht : kind ≠ 0 ∨ s.changesTiming (s.pageSnap a pr.kind) = false) :
    s.commitRequest a pr kind =
      if 4 ≤ (s.pendingOf a).length then s.latchHealth a 0x03
      else if kind = 0 ∧ s.pendingOf a = [] then (s.taken a).applySnap a (s.pageSnap a pr.kind) s.now
      else { s.taken a with
        commits := s.commits ++ [{ page := a, kind := kind, at_ := s.now, from_ := 0, snap := s.pageSnap a pr.kind }] } := by
  have h4 : ¬ 4 < kind := by omega
  have hP' : ¬ ((stagesP pr.kind (s.pageSnap a pr.kind) = true ∧ kind ≠ 3) ∧ kind ≠ 4) := fun ⟨⟨h, h3⟩, h4'⟩ => by
    rcases hP with hP | hP
    · rw [h] at hP; cases hP
    · omega
  have ht' : ¬ (kind = 0 ∧ s.changesTiming (s.pageSnap a pr.kind) = true) := fun ⟨h0, h⟩ => by
    rcases ht with ht | ht
    · exact ht h0
    · rw [h] at ht; cases ht
  simp [State.commitRequest, h4, hlock, hP', ht']

end Request

/-- What the snapshot of a page takes is no longer staged since the last request, and all else is. -/
theorem State.setHas_taken (s : State) (a c : Nat) :
    setHas (s.taken a).dirty c = true ↔ setHas s.dirty c = true ∧ pageOf c ≠ a := by
  have h : setHas (s.taken a).dirty c = if pageOf c != a then setHas s.dirty c else false :=
    mapGet_filter (fun _ => false) s.dirty (fun k => pageOf k != a) c
  rw [h]
  by_cases hc : pageOf c = a <;> simp [hc]

/-! ### A snapshot in force (R6, R372) -/

/-- The pages whose apply has no effect beside its registers, and that no boundary or lane of the page concerns. -/
def settingsKind (k : PageKind) : Prop := k = .cal ∨ k = .shimstore ∨ k = .continuity ∨ k = .purlin

theorem State.applyReg_some {s : State} {pg : Nat} {e : Staged} {r : RegRow} (h : regRow? s.variant e.addr = some r) :
    s.applyReg pg e = s.putTested pg e.addr (r.take (s.rd e.addr) e.val.toNat) := by
  simp only [State.applyReg, h, State.putTested]

theorem State.applyReg_none {s : State} {pg : Nat} {e : Staged} (h : regRow? s.variant e.addr = none) :
    s.applyReg pg e = s := by
  simp only [State.applyReg, h]

theorem State.onlyRegs_applyReg (s : State) (pg : Nat) (e : Staged) : s.onlyRegs (s.applyReg pg e) := by
  cases h : regRow? s.variant e.addr with
  | none => rw [State.applyReg_none h]; exact .refl s
  | some r => rw [State.applyReg_some h]; exact s.onlyRegs_putTested pg _ _

theorem State.reg_applyReg_ne (s : State) (pg : Nat) {e : Staged} {c : Nat} (hc : c ≠ e.addr) :
    (s.applyReg pg e).reg c = s.reg c := by
  cases h : regRow? s.variant e.addr with
  | none => rw [State.applyReg_none h]
  | some r => rw [State.applyReg_some h]; exact s.reg_putTested_ne pg _ hc

theorem State.isLatched_applyReg_mono {s : State} {pg c : Nat} (e : Staged) (hc : s.isLatched pg c = true) :
    (s.applyReg pg e).isLatched pg c = true := by
  cases h : regRow? s.variant e.addr with
  | none => rw [State.applyReg_none h]; exact hc
  | some r => rw [State.applyReg_some h]; exact State.isLatched_putTested_mono _ hc

/-- The staged registers of a snapshot take effect one after the other. -/
def State.putSnap (s : State) (pg : Nat) (l : List Staged) : State := l.foldl (fun s e => s.applyReg pg e) s

theorem State.onlyRegs_putSnap (s : State) (pg : Nat) (l : List Staged) : s.onlyRegs (s.putSnap pg l) :=
  State.onlyRegs_foldl (fun s e => s.onlyRegs_applyReg pg e) l s

theorem State.reg_putSnap_ne (s : State) (pg : Nat) {l : List Staged} {c : Nat} (hc : c ∉ l.map fun e => e.addr) :
    (s.putSnap pg l).reg c = s.reg c := by
  induction l generalizing s with
  | nil => rfl
  | cons e l ih =>
    rw [List.map_cons] at hc
    exact (ih (s.applyReg pg e) (List.not_mem_of_not_mem_cons hc)).trans (s.reg_applyReg_ne pg (List.ne_of_not_mem_cons hc))

theorem State.isLatched_putSnap_mono {s : State} {pg c : Nat} (l : List Staged) (h : s.isLatched pg c = true) :
    (s.putSnap pg l).isLatched pg c = true := by
  induction l generalizing s with
  | nil => exact h
  | cons e l ih => exact ih (State.isLatched_applyReg_mono e h)

/-- Each register of a snapshot, staged once, becomes its staged word as its fields' tests let it, and a field that fails its
test latches 0x01. -/
theorem State.putSnap_at {s : State} (pg : Nat) {l : List Staged} (hl : (l.map fun e => e.addr).Nodup) {e : Staged} (he : e ∈ l)
    {r : RegRow} (hr : regRow? s.variant e.addr = some r) :
    (s.putSnap pg l).rd e.addr = (r.take (s.rd e.addr) e.val.toNat).1 % 2 ^ 32 ∧
      ((r.take (s.rd e.addr) e.val.toNat).2 = true → (s.putSnap pg l).isLatched pg 0x01 = true) := by
  induction l generalizing s with
  | nil => simp at he
  | cons d l ih =>
    obtain ⟨hd, hl⟩ := List.nodup_cons.mp (List.map_cons ▸ hl)
    have hs : s.putSnap pg (d :: l) = (s.applyReg pg d).putSnap pg l := rfl
    rw [hs]
    rcases List.mem_cons.mp he with rfl | he
    · rw [State.applyReg_some hr]
      refine ⟨?_, fun h => State.isLatched_putSnap_mono l (s.isLatched_putTested pg _ h)⟩
      exact (State.rd_of_reg (State.reg_putSnap_ne _ pg hd)).trans (s.rd_putTested_same pg _ _)
    · have hne : e.addr ≠ d.addr := fun h => hd (h ▸ List.mem_map_of_mem he)
      have hv : regRow? (s.applyReg pg d).variant e.addr = some r := by rw [(s.onlyRegs_applyReg pg d).variant]; exact hr
      have hrd : (s.applyReg pg d).rd e.addr = s.rd e.addr := State.rd_of_reg (s.reg_applyReg_ne pg hne)
      rw [← hrd]
      exact ih hl he hv

/-- A snapshot of such a page takes effect, PAGE_SEQ counts it, and COMMIT_STAT holds the instant. -/
theorem State.applySnap_settings {s : State} {pg : Nat} {pr : PageRow} (hp : pageRow? s.variant pg = some pr)
    (hk : settingsKind pr.kind) (snap : List Staged) (x : Nat) :
    s.applySnap pg snap x =
      ((s.putSnap pg snap).wr (pg + Off.PG_PAGE_SEQ) ((s.putSnap pg snap).rd (pg + Off.PG_PAGE_SEQ) + 1)).wr
        (pg + Off.PG_COMMIT_STAT) (x % 2 ^ 32) := by
  have hsync : (if isPkg pg then s else s.syncPage (bentOf pg) (pageNo pg) s.now) = s := by
    rw [State.syncPage, pageConvs_of_kind hp] <;> rcases hk with h | h | h | h <;> simp [h]
  have hedge : ∀ y o : State, y.idleEdge o pg pr.kind = y := fun y o => by
    rcases hk with h | h | h | h <;> simp [State.idleEdge, h]
  have hpage : ∀ (y o : State) (w : List Nat), y.applyPage o pg pr.kind w = y := fun y o w => by
    rcases hk with h | h | h | h <;> simp [State.applyPage, h]
  simp only [State.applySnap, hp, hsync, hpage, hedge, State.putSnap]

/-! ### The registers of a snapshot (R372) -/

/-- The offsets of the registers that a page kind stages. -/
def stagedOffs (k : PageKind) : List Nat :=
  (k.rows.filter fun r => r.acc == .rs && r.wmask != 0).flatMap fun r =>
    (List.range r.count).map fun i => r.base + r.stride * i

theorem stagedRegs_eq (pg : Nat) (k : PageKind) : stagedRegs pg k = (stagedOffs k).map (pg + ·) := by
  simp [stagedRegs, stagedOffs, List.map_flatMap, Function.comp_def, Nat.add_assoc]

/-- The registers that such a page stages are distinct, and none is of the common header (R369). -/
theorem stagedOffs_settings {k : PageKind} (hk : settingsKind k) : (stagedOffs k).Nodup ∧ ∀ o ∈ stagedOffs k, 0x40 ≤ o := by
  rcases hk with rfl | rfl | rfl | rfl <;> decide

theorem State.pageSnap_addrs (s : State) (pg : Nat) (k : PageKind) :
    ((s.pageSnap pg k).map fun e => e.addr).Sublist ((stagedOffs k).map (pg + ·)) := by
  rw [← stagedRegs_eq]
  have h := (List.filter_sublist (l := (stagedRegs pg k).map fun a =>
    ({ addr := a, val := s.staged a, dirty := setHas s.dirty a } : Staged)) (p := fun e =>
      e.dirty || (e.val != s.reg e.addr && !s.onlyWritten k e.addr))).map fun e => e.addr
  simpa [State.pageSnap, Function.comp_def] using h

/-- A snapshot of such a page stages each register once. -/
theorem State.pageSnap_nodup (s : State) (pg : Nat) {k : PageKind} (hk : settingsKind k) :
    ((s.pageSnap pg k).map fun e => e.addr).Nodup :=
  (s.pageSnap_addrs pg k).nodup ((stagedOffs_settings hk).1.map (add_right_injective pg))

/-- A snapshot of such a page stages no register of the common header. -/
theorem State.pageSnap_above (s : State) (pg : Nat) {k : PageKind} (hk : settingsKind k) :
    ∀ c ∈ (s.pageSnap pg k).map fun e => e.addr, pg + 0x40 ≤ c := fun c hc => by
  obtain ⟨o, ho, rfl⟩ := List.mem_map.mp ((s.pageSnap_addrs pg k).subset hc)
  exact Nat.add_le_add_left ((stagedOffs_settings hk).2 o ho) pg

/-- What a snapshot that took effect at an instant leaves: each register it stages at its tested word, PAGE_SEQ one further,
COMMIT_STAT at the instant, and no other register touched. -/
structure State.snapTaken (s y : State) (pg : Nat) (l : List Staged) (x : Nat) : Prop where
  staged : ∀ e ∈ l, ∀ r, regRow? s.variant e.addr = some r →
    y.rd e.addr = (r.take (s.rd e.addr) e.val.toNat).1 % 2 ^ 32 ∧
      ((r.take (s.rd e.addr) e.val.toNat).2 = true → y.isLatched pg 0x01 = true)
  pageSeq : y.rd (pg + Off.PG_PAGE_SEQ) = (s.rd (pg + Off.PG_PAGE_SEQ) + 1) % 2 ^ 32
  commitStat : y.rd (pg + Off.PG_COMMIT_STAT) = x % 2 ^ 32
  others : s.sameRegs y ((pg + Off.PG_PAGE_SEQ) :: (pg + Off.PG_COMMIT_STAT) :: l.map fun e => e.addr)
  frame : s.onlyRegs y

/-- Such a page's snapshot of distinct registers above the common header takes effect. -/
theorem State.applySnap_taken {s : State} {pg : Nat} {pr : PageRow} (hp : pageRow? s.variant pg = some pr)
    (hk : settingsKind pr.kind) {l : List Staged} (hl : (l.map fun e => e.addr).Nodup)
    (hlo : ∀ c ∈ l.map fun e => e.addr, pg + 0x40 ≤ c) (x : Nat) : s.snapTaken (s.applySnap pg l x) pg l x := by
  rw [State.applySnap_settings hp hk]
  have hoff : Off.PG_COMMIT_STAT < Off.PG_PAGE_SEQ ∧ Off.PG_PAGE_SEQ < 0x40 := by decide
  have hseq : pg + Off.PG_PAGE_SEQ ∉ l.map fun e => e.addr := fun h => by have := hlo _ h; omega
  have hne : pg + Off.PG_PAGE_SEQ ≠ pg + Off.PG_COMMIT_STAT := by omega
  refine ⟨fun e he r hr => ?_, ?_, ?_, fun c hc => ?_, ?_⟩
  · have hc := hlo _ (List.mem_map_of_mem he)
    have h1 : e.addr ≠ pg + Off.PG_PAGE_SEQ := by omega
    have h2 : e.addr ≠ pg + Off.PG_COMMIT_STAT := by omega
    obtain ⟨hrd, hlat⟩ := State.putSnap_at pg hl he hr
    refine ⟨?_, fun h => ?_⟩
    · exact (State.rd_of_reg ((State.reg_wr_ne _ _ h2).trans (State.reg_wr_ne _ _ h1))).trans hrd
    · simpa using hlat h
  · rw [State.rd_of_reg (State.reg_wr_ne _ _ hne), State.rd_wr_same, State.rd_of_reg (s.reg_putSnap_ne pg hseq)]
  · rw [State.rd_wr_same, Nat.mod_mod]
  · simp only [List.mem_cons, not_or] at hc
    obtain ⟨h1, h2, h3⟩ := hc
    exact ((State.reg_wr_ne _ _ h2).trans (State.reg_wr_ne _ _ h1)).trans (s.reg_putSnap_ne pg h3)
  · exact ((s.onlyRegs_putSnap pg l).trans (State.onlyRegs_wr _ _ _)).trans (State.onlyRegs_wr _ _ _)

/-- What a snapshot leaves, the command's outcome leaves. -/
theorem State.snapTaken.outcome {s u y : State} {pg x : Nat} {l cs} {d : KSet} (hs : s = { u with commits := cs, dirty := d })
    (h : s.snapTaken y pg l x) : s.snapTaken (u.keepMem y.settle) pg l x := by
  obtain ⟨hst, hseq, hstat, hoth, hfr⟩ := h
  have hv : y.variant = u.variant := by rw [hfr.variant, hs]
  have hreg : ∀ c, (u.keepMem y.settle).reg c = y.reg c := State.reg_keepMem_settle hv
  refine ⟨fun e he r hr => ?_, ?_, ?_, fun c hc => (hreg c).trans (hoth c hc), ?_⟩
  · obtain ⟨hrd, hlat⟩ := hst e he r hr
    exact ⟨(State.rd_of_reg (hreg _)).trans hrd, fun h => by simpa using hlat h⟩
  · exact (State.rd_of_reg (hreg _)).trans hseq
  · exact (State.rd_of_reg (hreg _)).trans hstat
  · obtain ⟨r, e, rfl⟩ := hfr
    subst hs
    rw [State.keepMem_settle]
    exact ⟨r, _, rfl⟩

/-! ### Requests that apply at once -/

section AtOnce

variable {s : State} {a : Nat} {pr : PageRow} {kind x : Nat}

/-- Before the first lock a request applies at its arrival; so does a request for now with no other before it (R373, R428). -/
theorem State.commitRequest_atOnce
    (h : s.hasLocked a = false ∧ kind ≤ 4 ∧ x = 0 ∨ s.hasLocked a = true ∧ kind = 0 ∧
      s.changesTiming (s.pageSnap a pr.kind) = false ∧ s.pendingOf a = [] ∧ x = s.now)
    (hk : settingsKind pr.kind) :
    s.commitRequest a pr kind = (s.taken a).applySnap a (s.pageSnap a pr.kind) x := by
  rcases h with ⟨hlock, h4, rfl⟩ | ⟨hlock, rfl, ht, hn, rfl⟩
  · have h4 : ¬ 4 < kind := by omega
    simp [State.commitRequest, h4, hlock]
  · have hP : stagesP pr.kind (s.pageSnap a pr.kind) = false := by
      rcases hk with h | h | h | h <;> simp [stagesP, h]
    rw [State.commitRequest_accepted (by omega) hlock (.inl hP) (.inr ht)]
    simp [hn]

end AtOnce

/-! ### CANCEL (R180, R372) -/

/-- Staged writes given back to the next request. -/
theorem setHas_foldl_put (l : List Nat) (m : KSet) (x : Nat) :
    setHas (l.foldl (fun m a => setPut m a true) m) x = true ↔ setHas m x = true ∨ x ∈ l := by
  induction l generalizing m with
  | nil => simp
  | cons a l ih =>
    rw [List.foldl_cons, ih]
    by_cases h : x = a
    · simp [h]
    · simp [setHas_setPut_ne m true h, h]

/-- With no sequencer held at its end of shot none is released (R138). -/
theorem State.releaseHeld_of_none {s : State} (h : ∀ e ∈ s.seqs, (s.seq e.1).phase ≠ .gateHold) (x : Nat) :
    s.releaseHeld x = s := by
  unfold State.releaseHeld
  refine List.foldlRecOn (motive := fun y => y = s) s.seqs _ rfl fun y hy e he => ?_
  subst hy
  simp [h e he]

theorem State.commitCancel_of_none {s : State} (h : ∀ e ∈ s.seqs, (s.seq e.1).phase ≠ .gateHold) (pg : Nat) :
    s.commitCancel pg = { s with
      commits := s.commits.filter fun c => c.page != pg
      dirty := (s.heldWrites pg).foldl (fun l a => setPut l a true) s.dirty } := by
  unfold State.commitCancel
  apply State.releaseHeld_of_none
  exact h

/-! ### The boundary of the oldest request (R372) -/

/-- A pending commit of a page cannot apply before an instant. -/
def Commit.after (pg x : Nat) (d : Commit) : Commit := if d.page = pg then { d with from_ := x } else d

@[simp] theorem Commit.after_page (pg x : Nat) (d : Commit) : (d.after pg x).page = d.page := by
  unfold Commit.after
  split <;> rfl

/-- A request for now, for a quiet page or for a granule boundary applies at its boundary. -/
theorem State.commitApply_due {s : State} {pg x : Nat} {c : Commit} {q : List Commit} (hp : s.pendingOf pg = c :: q)
    (hx : s.boundaryOf c = some x) (hk : c.kind ≤ 2) :
    s.commitApply pg = { s with commits := (s.commits.erase c).map (Commit.after pg x) }.applySnap pg c.snap x := by
  have h3 : ¬ (c.kind = 3 ∨ c.kind = 4) := by omega
  simp only [State.commitApply, hp, hx, if_neg h3]
  rfl

/-- Once the oldest pending commit applied, the page's others wait, none to apply before it. -/
theorem pendingOf_after {l q : List Commit} {c : Commit} {pg : Nat} (h : l.filter (fun d => d.page == pg) = c :: q) (x : Nat) :
    ((l.erase c).map (Commit.after pg x)).filter (fun d => d.page == pg) = q.map (Commit.after pg x) := by
  rw [List.filter_map]
  have hq : (l.erase c).filter (fun d => d.page == pg) = q := by
    rw [← List.erase_filter, h, List.erase_cons_head]
  simp only [Function.comp_def, Commit.after_page, hq]

/-! ### The commands' outcomes -/

section Outcomes

variable {s u : State} {t : PT} {pg : Page} {pr : PageRow} {a : Nat} (hu : u = s.arrive t) (ha : a = pageBase pg)
  (hp : pageRow? u.variant a = some pr)

include hu ha hp

/-- A request that is refused latches its code and nothing else. -/
theorem commit_refused (hl : u.locked a = false) {kind : Fin 16} {c : Nat} (h : u.commitRequest a pr kind = u.latchHealth a c) :
    ∃ s', exec (.commit t pg kind) s = .next s' ∧ s'.isLatched a c = true ∧ s' = { u with ev := s'.ev } := by
  refine commit_next hu ha hp hl h ⟨by simp, ?_⟩
  rw [State.keepMem_settle]
  rfl

/-- A request that waits takes its page's staged writes with it. -/
theorem commit_waits (hl : u.locked a = false) {kind : Fin 16} {c : Commit}
    (h : u.commitRequest a pr kind = { u.taken a with commits := u.commits ++ [c] }) :
    ∃ s', exec (.commit t pg kind) s = .next s' ∧ s'.commits = u.commits ++ [c] ∧
      (∀ x, (setHas s'.dirty x = true ↔ setHas u.dirty x = true ∧ pageOf x ≠ a)) ∧
      s' = { u with commits := s'.commits, dirty := s'.dirty, ev := s'.ev } := by
  refine commit_next hu ha hp hl h ?_
  rw [State.keepMem_settle]
  exact ⟨rfl, u.setHas_taken a, rfl⟩

/-- A request that applies at once puts its snapshot in force. -/
theorem commit_atOnce (hl : u.locked a = false) (hk : settingsKind pr.kind) {kind : Fin 16} {x : Nat}
    (h : u.commitRequest a pr kind = (u.taken a).applySnap a (u.pageSnap a pr.kind) x) :
    ∃ s', exec (.commit t pg kind) s = .next s' ∧ (u.taken a).snapTaken s' a (u.pageSnap a pr.kind) x :=
  commit_next hu ha hp hl h
    ((State.applySnap_taken (s := u.taken a) hp hk (u.pageSnap_nodup a hk) (u.pageSnap_above a hk) x).outcome rfl)

/-- CANCEL discards a page's pending requests and gives back what they staged. -/
theorem commitCancel_discards (hl : u.locked a = false) (h : ∀ e ∈ u.seqs, (u.seq e.1).phase ≠ .gateHold) :
    ∃ s', exec (.commitCancel t pg) s = .next s' ∧ s'.pendingOf a = [] ∧
      (∀ c, c.page ≠ a → (c ∈ s'.commits ↔ c ∈ u.commits)) ∧
      (∀ x, (setHas s'.dirty x = true ↔ setHas u.dirty x = true ∨ x ∈ u.heldWrites a)) ∧
      s' = { u with commits := s'.commits, dirty := s'.dirty, ev := s'.ev } := by
  rw [exec_commitCancel]
  refine runAt_next (x := u.commitCancel a) ?_ ?_
  · simp only [← hu, ← ha, State.onPage, hp, State.command, hl, Bool.false_eq_true, if_false]
  · rw [State.commitCancel_of_none h, State.keep_settle, ← hu]
    refine ⟨?_, fun c hc => ?_, fun x => setHas_foldl_put _ u.dirty x, rfl⟩
    · simp [State.pendingOf]
    · simp [hc]

/-- COMMIT_APPLY has the effect of its page's oldest pending request. -/
theorem commitApply_next {x : State} {P : State → Prop} (hx : u.commitApply a = x) (h : P (u.keepMem x.settle)) :
    ∃ s', exec (.commitApply t pg) s = .next s' ∧ P s' := by
  rw [exec_commitApply]
  refine runMem_next ?_ (hu ▸ h)
  simp only [← hu, ← ha, State.onPage, hp, hx]

/-- With none pending COMMIT_APPLY does nothing. -/
theorem commitApply_none (hn : u.pendingOf a = []) :
    ∃ s', exec (.commitApply t pg) s = .next s' ∧ s' = { u with ev := s'.ev } := by
  refine commitApply_next hu ha hp (x := u) (by simp only [State.commitApply, hn]) ?_
  rw [State.keepMem_settle]

/-- At its boundary the oldest pending request applies, and the page's others wait for a later one. -/
theorem commitApply_applies {c : Commit} {q : List Commit} {x : Nat} (hc : u.pendingOf a = c :: q) (hk : settingsKind pr.kind)
    (h2 : c.kind ≤ 2) (hx : u.boundaryOf c = some x) (hsn : c.snap = []) :
    ∃ s', exec (.commitApply t pg) s = .next s' ∧ s'.pendingOf a = q.map (Commit.after a x) ∧
      State.snapTaken { u with commits := (u.commits.erase c).map (Commit.after a x) } s' a [] x := by
  refine commitApply_next hu ha hp (State.commitApply_due hc hx h2) ?_
  rw [hsn]
  have ht := (State.applySnap_taken (s := { u with commits := (u.commits.erase c).map (Commit.after a x) }) hp hk
    (l := []) (by simp) (by simp) x).outcome (u := u) rfl
  refine ⟨?_, ht⟩
  obtain ⟨r, e, hfr⟩ := ht.frame
  rw [hfr]
  exact pendingOf_after hc x

end Outcomes

/-- Settles O42: a request's cases are those of `commitRequest_accepted` and of its refusals; a snapshot's registers are distinct,
so each becomes its own tested word. -/
theorem pageCommits : Obligations.PageCommits := by
  intro s u t pg pr a snap hu ha hp hsnap
  subst hsnap
  refine ⟨fun hl => ⟨fun kind => ⟨fun hk => ?_, fun hk hlock hP => ?_, fun hk hlock hP ht => ?_, fun hk hlock hP ht => ?_,
    fun x hset hx => ?_⟩, fun hg => ?_⟩, fun hn => ?_, fun c q x hc hset h2 hsn hx => ?_⟩
  · exact commit_refused hu ha hp hl (State.commitRequest_reserved hk)
  · exact commit_refused hu ha hp hl (State.commitRequest_ungated hk hlock hP)
  · exact commit_refused hu ha hp hl (State.commitRequest_timing hk hlock hP ht)
  · have hreq := State.commitRequest_accepted hk hlock hP ht
    refine ⟨fun hn => ?_, fun hn h0 => ?_⟩
    · exact commit_refused hu ha hp hl (hreq.trans (if_pos hn))
    · have h0 : ¬ (kind.val = 0 ∧ u.pendingOf a = []) := fun ⟨hz, he⟩ => h0.elim (· hz) (· he)
      exact commit_waits hu ha hp hl (hreq.trans ((if_neg (by omega)).trans (if_neg h0)))
  · obtain ⟨s', hs', hst, hseq, hstat, hoth, r, e, hfr⟩ := commit_atOnce hu ha hp hl hset (State.commitRequest_atOnce hx hset)
    refine ⟨s', hs', hst, hseq, hstat, ?_, hoth, ?_⟩ <;> rw [hfr] <;> rfl
  · obtain ⟨s', hs', hpend, hcom, hdirty, hfr⟩ := commitCancel_discards hu ha hp hl hg
    exact ⟨s', hs', rfl, hpend, hcom, hdirty, hfr⟩
  · exact commitApply_none hu ha hp hn
  · obtain ⟨s', hs', hpend, -, hseq, hstat, hoth, r, e, hfr⟩ := commitApply_applies hu ha hp hc hset h2 hx hsn
    refine ⟨s', hs', ?_, fun d hd => ?_, hseq, hstat, hoth, ?_⟩
    · simp [hpend, hc]
    · obtain ⟨d, hdq, rfl⟩ := List.mem_map.mp (hpend ▸ hd)
      have hd' : d ∈ u.pendingOf a := hc ▸ List.mem_cons_of_mem c hdq
      have hpage : d.page = a := by simpa using (List.mem_filter.mp hd').2
      simp [Commit.after, hpage]
    · rw [hfr]

end Sys2Proof.Machine
end

section
/-!
PROOFS. Events and ECC checks (R17, R18, R370): what an event raised leaves of RAW and of the standing codes, and what the check of
a word of BAR2 finds.
-/

namespace Sys2Proof.Machine

/-! ### RAW and the standing codes -/

@[simp] theorem EvSt.hostWr_raw (e : EvSt) (a v : Nat) : (e.hostWr a v).raw = e.raw := by rw [EvSt.hostWr]
@[simp] theorem EvSt.hostWr_standing (e : EvSt) (a v : Nat) : (e.hostWr a v).standing = e.standing := by rw [EvSt.hostWr]
@[simp] theorem EvSt.hostWr64_raw (e : EvSt) (a v : Nat) : (e.hostWr64 a v).raw = e.raw := by simp [EvSt.hostWr64]
@[simp] theorem EvSt.hostWr64_standing (e : EvSt) (a v : Nat) : (e.hostWr64 a v).standing = e.standing := by
  simp [EvSt.hostWr64]

/-- The ring's counts put beside an event state reach neither RAW nor a standing code. -/
theorem State.ring_raw_standing {s : State} {e : EvSt} (hr : e.raw = s.ev.raw) (hs : e.standing = s.ev.standing) (w q : Nat)
    (g l : Bool) : ({ s with ev := { e with wr := w, rseq := q, gap := g, losing := l } } : State).ev.raw = s.ev.raw ∧
      ({ s with ev := { e with wr := w, rseq := q, gap := g, losing := l } } : State).ev.standing = s.ev.standing := ⟨hr, hs⟩

/-- A trigger of a vector reaches neither RAW nor a standing code. -/
@[simp] theorem State.fire_ev_raw (s : State) (v : Nat) : (s.fire v).ev.raw = s.ev.raw := by
  obtain ⟨_, _, _, _, h⟩ := s.ev.fire_only v s.now (s.holdK v)
  rw [State.fire, h]
@[simp] theorem State.fire_ev_standing (s : State) (v : Nat) : (s.fire v).ev.standing = s.ev.standing := by
  obtain ⟨_, _, _, _, h⟩ := s.ev.fire_only v s.now (s.holdK v)
  rw [State.fire, h]

/-- A record reaches neither. -/
theorem State.record_raw_standing (s : State) (pt w d g : Nat) :
    (s.record pt w d g).ev.raw = s.ev.raw ∧ (s.record pt w d g).ev.standing = s.ev.standing := by
  unfold State.record
  dsimp only
  split
  · simp
  split
  · simp
  split
  · split <;> simp [State.latchHealth]
  · generalize hx : EvSt.hostWr64 _ _ _ = x
    have hraw : x.raw = s.ev.raw := by rw [← hx]; simp
    have hstand : x.standing = s.ev.standing := by rw [← hx]; simp
    split
    · simp [hraw, hstand]
    · exact State.ring_raw_standing hraw hstand _ _ _ _

/-- An event raised sets its own bit of RAW, and no standing code (R370). -/
theorem State.raiseAt_raw_standing (s : State) (pg i pt d : Nat) (f : Bool) :
    (s.raiseAt pg i pt d f).ev.raw = setPut s.ev.raw (pg * 64 + i) true ∧
      (s.raiseAt pg i pt d f).ev.standing = s.ev.standing := by
  unfold State.raiseAt
  dsimp only
  split
  · split
    · exact State.record_raw_standing _ _ _ _ _
    · obtain ⟨hr, hs⟩ := State.record_raw_standing { s with ev := { s.ev with
        raw := setPut s.ev.raw (pg * 64 + i) true, up := s.ev.up + b2n (s.evEn pg i && s.sendsUp 3) } } pt
        (sourceId pg i * 2 ^ 16 + s.pkgNum * 2 ^ 32 + b2n f * 2 ^ 40 + s.health pg * 2 ^ 48) d s.genNow
      exact ⟨(State.fire_ev_raw _ _).trans hr, (State.fire_ev_standing _ _).trans hs⟩
  · exact ⟨rfl, rfl⟩

@[simp] theorem State.raised_raiseAt_same (s : State) (pg i pt d : Nat) (f : Bool) :
    (s.raiseAt pg i pt d f).raised pg i = true := by
  rw [State.raised, (s.raiseAt_raw_standing pg i pt d f).1, setHas_setPut_same]

@[simp] theorem State.raised_raise_same (s : State) (pg i : Nat) : (s.raise pg i).raised pg i = true :=
  s.raised_raiseAt_same pg i s.now 0 false

/-- An event raised before stays raised. -/
theorem State.raised_raise_mono {s : State} {pg i : Nat} (h : s.raised pg i = true) (pg' i' : Nat) :
    (s.raise pg' i').raised pg i = true := by
  rw [State.raised, State.raise, (s.raiseAt_raw_standing pg' i' s.now 0 false).1]
  by_cases he : pg * 64 + i = pg' * 64 + i'
  · rw [he, setHas_setPut_same]
  · rw [setHas_setPut_ne _ _ he]; exact h

@[simp] theorem State.raised_latchHealth (s : State) (pg c pg' i : Nat) :
    (s.latchHealth pg c).raised pg' i = s.raised pg' i := rfl

theorem State.onlyRegs_category (u : State) (c b : Nat) (on : Bool) : u.onlyRegs (u.category c b on) := ⟨_, _, rfl⟩

@[simp] theorem State.stands_raise (s : State) (pg i pg' c : Nat) : (s.raise pg i).stands pg' c = s.stands pg' c := by
  rw [State.stands, State.raise, (s.raiseAt_raw_standing pg i s.now 0 false).2, ← State.stands]

/-- A standing code that has been set stands. -/
@[simp] theorem State.stands_standing_same (s : State) (pg c : Nat) (on : Bool) : (s.standing pg c on).stands pg c = on := by
  unfold State.standing
  dsimp only
  split
  · rw [State.stands_raise]
    exact setHas_setPut_same _ _ _
  · exact setHas_setPut_same _ _ _

@[simp] theorem State.settle_ev_cats (s : State) : s.settle.ev.cats = s.ev.cats := by
  obtain ⟨_, _, _, _, _, h⟩ := s.settle_only; rw [h]

@[simp] theorem State.raised_keep_settle (u x : State) (pg i : Nat) : (u.keep x.settle).raised pg i = x.raised pg i := by
  simp [State.raised]

@[simp] theorem State.stands_keep_settle (u x : State) (pg c : Nat) : (u.keep x.settle).stands pg c = x.stands pg c := by
  simp [State.stands]

/-! ### Poison marks (R18) -/

/-- The mark of the ECC word at an offset. -/
theorem State.poisoned_one (s : State) (a : Nat) : s.poisoned a 1 = s.poison.any fun e => e.1 == a / 8 := by
  unfold State.poisoned
  congr 1
  funext e
  rw [Bool.eq_iff_iff]
  simp
  omega

/-- A set lists the keys it has. -/
theorem any_of_setHas {m : KSet} {k : Nat} (h : setHas m k = true) : (m.any fun e => e.1 == k) = true := by
  induction m with
  | nil => cases h
  | cons e m ih =>
    obtain ⟨j, v⟩ := e
    by_cases hj : j = k
    · simp [hj]
    · have hm : setHas m k = true := by simpa [setHas, mapGet, hj] using h
      simp only [List.any_cons, ih hm, Bool.or_true]

/-- A word that has been marked is poisoned. -/
theorem State.poisoned_mark (s : State) (a : Nat) :
    ({ s with poison := setPut s.poison (a / 8) true } : State).poisoned a 1 = true := by
  rw [State.poisoned_one]
  exact any_of_setHas (m := setPut s.poison (a / 8) true) (setHas_setPut_same _ _ _)

@[simp] theorem State.poisoned_keep_settle (u x : State) (a n : Nat) : (u.keep x.settle).poisoned a n = x.poisoned a n := by
  simp [State.poisoned]

/-! ### The check of a word (R17, R18) -/

/-- A corrected error counts on the CONTINUITY page of its bent and raises its event. -/
theorem State.eccRead_corrected (s : State) (a : Nat) {pg : Nat} (hpg : pg = bp (a / 0x80000000) 0x18) :
    (s.eccRead a .corrected).rd (pg + Off.CONTINUITY_ECC_CORR_COUNT) =
        satAdd (s.rd (pg + Off.CONTINUITY_ECC_CORR_COUNT)) 1 ∧
      (s.eccRead a .corrected).raised pg 0 = true ∧
      s.sameRegs (s.eccRead a .corrected) [pg + Off.CONTINUITY_ECC_CORR_COUNT] ∧
      s.onlyRegs (s.eccRead a .corrected) := by
  subst hpg
  refine ⟨?_, ?_, fun c hc => ?_, ?_⟩
  · simp [State.eccRead]
  · simp [State.eccRead]
  · rw [State.eccRead, State.reg_raise, State.reg_bump_ne _ (by simpa using hc)]
  · exact (s.onlyRegs_bump _).trans (State.onlyRegs_raiseAt _ _ _ _ _ _)

/-- An uncorrectable error counts there, poisons the word, shows where, and stands as 0xD0. -/
theorem State.eccRead_uncorrectable (s : State) (a : Nat) {pg : Nat} (hpg : pg = bp (a / 0x80000000) 0x18) :
    (s.eccRead a .uncorrectable).rd (pg + Off.CONTINUITY_ECC_UNCORR_COUNT) =
        satAdd (s.rd (pg + Off.CONTINUITY_ECC_UNCORR_COUNT)) 1 ∧
      (s.eccRead a .uncorrectable).poisoned a 1 = true ∧ (s.eccRead a .uncorrectable).stands pg 0xD0 = true ∧
      (s.eccRead a .uncorrectable).raised pg 1 = true ∧
      s.sameRegs (s.eccRead a .uncorrectable) [pg + Off.CONTINUITY_ECC_UNCORR_COUNT, pg + Off.CONTINUITY_POISON_ADDR] ∧
      ∃ r e p, s.eccRead a .uncorrectable = { s with regs := r, ev := e, poison := p } := by
  subst hpg
  have hne : bp (a / 0x80000000) 0x18 + Off.CONTINUITY_ECC_UNCORR_COUNT ≠
      bp (a / 0x80000000) 0x18 + Off.CONTINUITY_POISON_ADDR := by
    simp [Off.CONTINUITY_ECC_UNCORR_COUNT, Off.CONTINUITY_POISON_ADDR]
  refine ⟨?_, ?_, ?_, ?_, fun c hc => ?_, ?_⟩
  · simp only [State.eccRead, State.rd_raise, State.rd_standing, State.rd_wr_ne _ _ hne, State.rd_bump_same]
    rfl
  · have hp : ∀ y : State, y.poison = setPut s.poison (a / 8) true → y.poisoned a 1 = true := fun y hy => by
      rw [State.poisoned, hy]; exact s.poisoned_mark a
    exact hp _ (by simp [State.eccRead])
  · simp [State.eccRead]
  · simp [State.eccRead]
  · simp only [List.mem_cons, List.not_mem_nil, or_false, not_or] at hc
    rw [State.eccRead, State.reg_raise, State.reg_standing, State.reg_wr_ne _ _ hc.2, State.reg_bump_ne _ hc.1]
    rfl
  · obtain ⟨r, e, h⟩ := ((((State.onlyRegs_bump { s with poison := setPut s.poison (a / 8) true } _).trans
      (State.onlyRegs_wr _ _ _)).trans (State.onlyRegs_standing _ _ _ _)).trans (State.onlyRegs_raiseAt _ _ _ _ _ _))
    exact ⟨r, e, _, h⟩

/-- The check of a word that a memory holds and that is not poisoned, by the host's read or by the scrubber, has its effect. -/
theorem eccCheck_next {s u : State} {t : PT} {c : Instr} {a : Nat} {ecc : Ecc} {P : State → Prop} (hu : u = s.arrive t)
    (hc : exec c s = runAt t s fun s => if s.memHas a && !s.poisoned a 1 then s.eccRead a ecc else s)
    (hm : u.memHas a = true) (hp : u.poisoned a 1 = false) (h : P (u.keep (u.eccRead a ecc).settle)) :
    ∃ s', exec c s = .next s' ∧ P s' := by
  subst hu
  rw [hc]
  exact runAt_next (by simp [hm, hp]) h

section EccCheck

variable {s u : State} {t : PT} {c : Instr} {a pg : Nat} {ecc : Ecc} (hu : u = s.arrive t)
  (hc : exec c s = runAt t s fun s => if s.memHas a && !s.poisoned a 1 then s.eccRead a ecc else s)
  (hm : u.memHas a = true) (hp : u.poisoned a 1 = false) (hpg : pg = bp (a / 0x80000000) 0x18)

include hu hc hm hp

/-- It finds no error. -/
theorem eccCheck_good (he : ecc = .good) : ∃ s', exec c s = .next s' ∧ s' = { u with ev := s'.ev } := by
  subst he
  refine eccCheck_next hu hc hm hp ?_
  rw [State.eccRead, State.keep_settle]

include hpg

/-- It corrects one. -/
theorem eccCheck_corrected (he : ecc = .corrected) : ∃ s', exec c s = .next s' ∧
    s'.rd (pg + Off.CONTINUITY_ECC_CORR_COUNT) = satAdd (u.rd (pg + Off.CONTINUITY_ECC_CORR_COUNT)) 1 ∧
    s'.raised pg 0 = true ∧ u.sameRegs s' [pg + Off.CONTINUITY_ECC_CORR_COUNT] ∧
    s' = { u with regs := s'.regs, ev := s'.ev } := by
  subst he
  obtain ⟨hcount, hraised, hsame, honly⟩ := u.eccRead_corrected a hpg
  refine eccCheck_next hu hc hm hp ⟨?_, ?_, State.sameRegs_keep hsame honly.variant, honly.keep⟩
  · rw [State.rd_of_reg (State.reg_keep_settle honly.variant _), hcount]
  · rw [State.raised_keep_settle, hraised]

/-- It finds one that it cannot correct. -/
theorem eccCheck_uncorrectable (he : ecc = .uncorrectable) : ∃ s', exec c s = .next s' ∧
    s'.rd (pg + Off.CONTINUITY_ECC_UNCORR_COUNT) = satAdd (u.rd (pg + Off.CONTINUITY_ECC_UNCORR_COUNT)) 1 ∧
    s'.poisoned a 1 = true ∧ s'.stands pg 0xD0 = true ∧ s'.raised pg 1 = true ∧
    u.sameRegs s' [pg + Off.CONTINUITY_ECC_UNCORR_COUNT, pg + Off.CONTINUITY_POISON_ADDR] ∧
    s' = { u with regs := s'.regs, ev := s'.ev, poison := s'.poison } := by
  subst he
  obtain ⟨hcount, hpoison, hstands, hraised, hsame, r, e, p, hx⟩ := u.eccRead_uncorrectable a hpg
  have hvariant : (u.eccRead a .uncorrectable).variant = u.variant := by rw [hx]
  refine eccCheck_next hu hc hm hp ⟨?_, ?_, ?_, ?_, State.sameRegs_keep hsame hvariant, ?_⟩
  · rw [State.rd_of_reg (State.reg_keep_settle hvariant _), hcount]
  · rw [State.poisoned_keep_settle, hpoison]
  · rw [State.stands_keep_settle, hstands]
  · rw [State.raised_keep_settle, hraised]
  · rw [hx, State.keep_settle]

end EccCheck

end Sys2Proof.Machine
end

section
/-!
PROOFS. Bar2Access (R17, R18, R368): the stores a plan or an account of converters leaves alone, a write of one ECC word, a write of
bytes word by word, and a host's access.
-/

namespace Sys2Proof.Machine

/-! ### What lies outside a plan's reach -/

/-- The variant, the memories of BAR2 with their poison marks, and the queues of the lanes. -/
def State.stores (s : State) : Variant × SMap Byte × KSet × SMap (List Peg) := (s.variant, s.mem, s.poison, s.queues)

theorem State.memHas_of_stores {s u : State} (h : s.stores = u.stores) (a : Nat) : s.memHas a = u.memHas a := by
  simp only [State.stores, Prod.mk.injEq] at h
  simp [State.memHas, State.has, h]

theorem State.memByte_of_stores {s u : State} (h : s.stores = u.stores) (a : Nat) : s.memByte a = u.memByte a := by
  simp only [State.stores, Prod.mk.injEq] at h
  simp [State.memByte, h]

theorem State.poisoned_of_stores {s u : State} (h : s.stores = u.stores) (a n : Nat) : s.poisoned a n = u.poisoned a n := by
  simp only [State.stores, Prod.mk.injEq] at h
  simp [State.poisoned, h]

@[simp] theorem State.stores_setSeq (s : State) (k : Nat) (x : SeqSt) : (s.setSeq k x).stores = s.stores := rfl
@[simp] theorem State.stores_setReg (s : State) (a : Nat) (w : Word) : (s.setReg a w).stores = s.stores := rfl
@[simp] theorem State.stores_wr (s : State) (a v : Nat) : (s.wr a v).stores = s.stores := rfl
@[simp] theorem State.stores_setDrained (s : State) (pg : Nat) (b : Bool) : (s.setDrained pg b).stores = s.stores := rfl
@[simp] theorem State.stores_latchHealth (s : State) (pg c : Nat) : (s.latchHealth pg c).stores = s.stores := rfl
@[simp] theorem State.stores_standing (s : State) (pg c : Nat) (on : Bool) : (s.standing pg c on).stores = s.stores := by
  simp [State.stores]

/-- What a sequencer does when nothing is left reaches no store. -/
theorem State.stores_seqFinish (s : State) (k : Nat) : (s.seqFinish k).stores = s.stores := by
  unfold State.seqFinish
  dsimp only
  split <;> rfl

/-- A cut effect reaches no store. -/
theorem State.stores_edgeCut (s : State) (b ch : Nat) : (s.edgeCut b ch).stores = s.stores := by
  unfold State.edgeCut
  dsimp only
  split <;> rfl

/-- Pins that go to rest reach no store. -/
theorem State.stores_parkPins (s : State) (k : Nat) : (s.parkPins k).stores = s.stores := by
  refine foldl_frame State.stores _ (fun s e => ?_) _ _
  dsimp only
  split
  · exact s.stores_edgeCut _ _
  · rfl

/-- A sequencer that parks reaches no store. -/
theorem State.stores_park (s : State) (k : Nat) : (s.park k).stores = s.stores := by
  unfold State.park
  dsimp only
  split
  · exact State.stores_parkPins _ k
  · rfl

/-- The start of the next shot reaches no store. -/
theorem State.stores_planStart (s : State) (k floor : Nat) : (s.planStart k floor).stores = s.stores := by
  unfold State.planStart
  dsimp only
  split
  · rfl
  split
  · rfl
  split <;> rfl

/-- What a sequencer does between shots reaches no store. -/
theorem State.stores_planHere (s : State) (k floor : Nat) : (s.planHere k floor).stores = s.stores := by
  unfold State.planHere
  dsimp only
  split
  · rfl
  split
  · exact s.stores_seqFinish k
  split
  · exact s.stores_park k
  split
  · rfl
  · exact s.stores_planStart k floor

/-- A move reaches no store. -/
theorem State.stores_doMove (s : State) (k floor : Nat) : (s.doMove k floor).stores = s.stores := by
  unfold State.doMove
  extract_lets _ s1 j s2 x y s3 s4 s5 s6
  have h1 : s1.stores = s.stores := rfl
  split
  · have h2 : s2.stores = s.stores := (s1.stores_planHere k floor).trans h1
    have h3 : s3.stores = s2.stores := foldl_frame State.stores _ (fun y i => y.stores_setReg (seqP j i) (y.reg (seqP k i))) _ s2
    have h6 : s6.stores = s4.stores := by rw [State.stores_setDrained, State.stores_standing, State.stores_setSeq]
    have h4 : s4.stores = s.stores := (s3.stores_wr _ _).trans (h3.trans h2)
    split
    · rw [State.stores_setDrained, State.stores_setSeq, h6, h4]
    · rw [State.stores_setSeq, h6, h4]
  · rw [State.stores_planHere, State.stores_latchHealth, h1]

/-- So a plan of the next shot reaches no store. -/
theorem State.stores_planNext (s : State) (k floor : Nat) : (s.planNext k floor).stores = s.stores := by
  unfold State.planNext
  dsimp only
  split
  · exact s.stores_doMove k floor
  · exact s.stores_planHere k floor

/-- Nor do the replays planned once a poisoned word has been rewritten. -/
theorem State.stores_poisonCleared (s : State) : s.poisonCleared.stores = s.stores := by
  refine foldl_frame State.stores _ (fun s e => ?_) _ _
  dsimp only
  split
  · exact s.stores_planNext _ _
  · rfl

/-- Nor do the samples of a bent's converters accounted for. -/
theorem State.stores_syncBent (s : State) (b x : Nat) : (s.syncBent b x).stores = s.stores := by
  refine foldl_frame State.stores _ (fun s i => ?_) _ _
  obtain ⟨⟨r, d, e, h⟩, -⟩ := s.onlyClips_syncPage b (8 + i) x
  rw [h]
  rfl

/-! ### ECC words -/

/-- A memory holds all of an ECC word or none of it. -/
theorem memAt?_word {a c : Nat} (h : a / 8 = c / 8) : memAt? a = memAt? c := by
  have hal : ∀ m ∈ memories, m.1 % 8 = 0 ∧ m.2.1 % 8 = 0 := by decide
  refine List.find?_congr fun m hm => ?_
  obtain ⟨h1, h2⟩ := hal m hm
  rw [Bool.eq_iff_iff]
  simp only [Bool.and_eq_true, decide_eq_true_eq]
  omega

theorem State.memHas_word (s : State) {a c : Nat} (h : a / 8 = c / 8) : s.memHas a = s.memHas c := by
  have hb : a / 0x80000000 = c / 0x80000000 := by omega
  rw [State.memHas, State.memHas, hb, memAt?_word (show a % 0x80000000 / 8 = c % 0x80000000 / 8 by omega)]

/-- A mark taken away leaves the other marks. -/
theorem State.clearPoison_only (s : State) (w : Nat) :
    ∃ e, s.clearPoison w = { s with poison := mapErase s.poison w, ev := e } := by
  have hp : setPut s.poison w false = mapErase s.poison w := by simp [setPut, mapSet]
  unfold State.clearPoison
  rw [hp]
  dsimp only
  split
  · exact ⟨s.ev, rfl⟩
  · obtain ⟨e, h⟩ := State.standing_ev { s with poison := mapErase s.poison w } (bp (w * 8 / 0x80000000) 0x18) 0xD0 false
    exact ⟨e, h⟩

/-- A word whose mark has been taken away is not poisoned. -/
theorem State.poisoned_clearPoison (s : State) (a : Nat) : (s.clearPoison (a / 8)).poisoned a 1 = false := by
  obtain ⟨e, h⟩ := s.clearPoison_only (a / 8)
  rw [State.poisoned_one, h]
  simpa using mapErase_keys s.poison (a / 8)

/-- A word without a mark keeps the marks as they are. -/
theorem mapErase_unmarked {s : State} {a : Nat} (h : s.poisoned a 1 = false) : mapErase s.poison (a / 8) = s.poison := by
  rw [State.poisoned_one] at h
  exact List.filter_eq_self.mpr (by simpa using h)

/-- The bytes of a whole write of a word are stored, and its mark goes. -/
theorem State.wordWrite_whole {s : State} {a : Nat} {l : List Byte} (hm : s.memHas a = true) (hl : l.length = 8) :
    s.wordWrite a l = (s.memWr a l).clearPoison (a / 8) := by
  simp [State.wordWrite, hm, hl]

/-- A write of a part of a poisoned word is discarded. -/
theorem State.wordWrite_part_poisoned {s : State} {a : Nat} {l : List Byte} (hl : l.length < 8) (hp : s.poisoned a 1 = true) :
    s.wordWrite a l = s := by
  have hne : l.length ≠ 8 := by omega
  simp [State.wordWrite, hne, hp]

/-- A write of a word leaves the variant. -/
theorem State.wordWrite_variant (s : State) (a : Nat) (l : List Byte) : (s.wordWrite a l).variant = s.variant := by
  have hw : (s.memWr a l).variant = s.variant := by rw [State.memWr_only]
  obtain ⟨e, hc⟩ := (s.memWr a l).clearPoison_only (a / 8)
  unfold State.wordWrite
  split
  · rfl
  split
  · rw [hc]; exact hw
  split
  · rfl
  · exact hw

/-! ### Bytes stored -/

/-- Bytes have been stored from an offset on where a memory is, and the rest of the stores is as it was. -/
def State.stored (u s : State) (a : Nat) (l : List Byte) : Prop :=
  (∀ k, k < l.length → s.memByte (a + k) = if u.memHas (a + k) then l.getD k 0 else u.memByte (a + k)) ∧
    u.sameBytes s a l.length ∧ s.poison = u.poison ∧ s.queues = u.queues ∧ s.variant = u.variant

theorem State.stored.nil (u : State) (a : Nat) : u.stored u a [] :=
  ⟨fun _ hk => absurd hk (Nat.not_lt_zero _), fun _ _ => rfl, rfl, rfl, rfl⟩

/-- What has been stored shows in the stores alone. -/
theorem State.stored.of_stores {u s v y : State} {a : Nat} {l : List Byte} (h : v.stored y a l) (hv : v.stores = u.stores)
    (hy : s.stores = y.stores) : u.stored s a l := by
  obtain ⟨hb, hs, hp, hq, hvar⟩ := h
  have hbyte : ∀ x, s.memByte x = y.memByte x := State.memByte_of_stores hy
  have hbyte' : ∀ x, v.memByte x = u.memByte x := State.memByte_of_stores hv
  have hrest := hv
  have hrest' := hy
  simp only [State.stores, Prod.mk.injEq] at hrest hrest'
  refine ⟨fun k hk => ?_, fun x hx => ?_, ?_, ?_, ?_⟩
  · rw [hbyte, hb k hk, State.memHas_of_stores hv, hbyte']
  · rw [hbyte, hs x hx, hbyte']
  all_goals simp [*]

/-- Bytes stored one range after the other. -/
theorem State.stored.append {u x y : State} {a : Nat} {l r : List Byte} (h : u.stored x a l)
    (k : x.stored y (a + l.length) r) : u.stored y a (l ++ r) := by
  obtain ⟨hb, hs, hp, hq, hv⟩ := h
  obtain ⟨kb, ks, kp, kq, kv⟩ := k
  have hhas : ∀ c, x.memHas c = u.memHas c := fun c => by simp [State.memHas, State.has, hv]
  refine ⟨fun i hi => ?_, fun c hc => ?_, kp.trans hp, kq.trans hq, kv.trans hv⟩
  · by_cases hil : i < l.length
    · rw [ks _ (.inl (by omega)), hb i hil, List.getD_append _ _ _ _ hil]
    · obtain ⟨j, rfl⟩ : ∃ j, i = l.length + j := ⟨i - l.length, by omega⟩
      have hj : j < r.length := by simpa using hi
      rw [← Nat.add_assoc, kb j hj, hhas, hs _ (.inr (by omega)), List.getD_append_right _ _ _ _ (by omega)]
      simp
  · rw [List.length_append] at hc
    rw [ks c (by omega), hs c (by omega)]

/-- A memory takes the bytes written to it. -/
theorem State.memWr_stored {s : State} {a : Nat} {l : List Byte} (hm : ∀ k < l.length, s.memHas (a + k) = true) :
    s.stored (s.memWr a l) a l := by
  refine ⟨fun k hk => ?_, fun x hx => s.memByte_memWr_ne a l hx, ?_, ?_, ?_⟩
  · rw [s.memByte_memWr a l k hk (hm k hk), if_pos (hm k hk), List.getD_eq_getElem _ _ hk]
  all_goals rw [State.memWr_only]

/-- A write within an unpoisoned word stores its bytes. -/
theorem State.wordWrite_stored {s : State} {a : Nat} {l : List Byte} (hl : a % 8 + l.length ≤ 8) (hp : s.poisoned a 1 = false) :
    s.stored (s.wordWrite a l) a l := by
  have hword : ∀ k < l.length, s.memHas (a + k) = s.memHas a := fun k hk => s.memHas_word (by omega)
  cases hm : s.memHas a with
  | false =>
    rw [State.wordWrite, hm]
    exact ⟨fun k hk => by rw [hword k hk, hm]; rfl, fun _ _ => rfl, rfl, rfl, rfl⟩
  | true =>
    have hst := State.memWr_stored (l := l) fun k hk => (hword k hk).trans hm
    by_cases h8 : l.length = 8
    · obtain ⟨e, hc⟩ := (s.memWr a l).clearPoison_only (a / 8)
      obtain ⟨hb, hs, hpo, hq, hv⟩ := hst
      have herase : mapErase (s.memWr a l).poison (a / 8) = s.poison := by rw [hpo, mapErase_unmarked hp]
      rw [State.wordWrite_whole hm h8, hc]
      exact ⟨hb, hs, herase, hq, hv⟩
    · simpa [State.wordWrite, hm, h8, hp] using hst

/-! ### Writes word by word -/

theorem State.memStore_nil (s : State) (a n : Nat) : s.memStore a [] n = s := by
  cases n <;> rfl

theorem State.memStore_variant (n : Nat) (s : State) (a : Nat) (l : List Byte) : (s.memStore a l n).variant = s.variant := by
  induction n generalizing s a l with
  | zero => rfl
  | succ n ih =>
    unfold State.memStore
    split
    · rfl
    · exact (ih _ _ _).trans (s.wordWrite_variant _ _)

/-- A write within one word. -/
theorem State.memStore_word (s : State) {a : Nat} {l : List Byte} (hne : 0 < l.length) (hl : a % 8 + l.length ≤ 8) (n : Nat) :
    s.memStore a l (n + 1) = s.wordWrite a l := by
  have hemp : l.isEmpty = false := by simpa using List.length_pos_iff.mp hne
  have hk : l.length ≤ 8 - a % 8 := by omega
  simp [State.memStore, hemp, List.take_of_length_le hk, List.drop_eq_nil_of_le hk, State.memStore_nil]

/-- A write that meets no poisoned word stores its bytes. -/
theorem State.memStore_stored (n : Nat) {s : State} {a : Nat} {l : List Byte} (hn : l.length < n)
    (hp : ∀ k < l.length, s.poisoned (a + k) 1 = false) : s.stored (s.memStore a l n) a l := by
  induction n generalizing s a l with
  | zero => omega
  | succ n ih =>
    rcases Nat.eq_zero_or_pos l.length with h0 | hpos
    · rw [List.length_eq_zero_iff.mp h0, State.memStore_nil]
      exact .nil s a
    · have hp0 : s.poisoned a 1 = false := hp 0 hpos
      by_cases hl : a % 8 + l.length ≤ 8
      · rw [s.memStore_word hpos hl n]
        exact State.wordWrite_stored hl hp0
      · have hemp : l.isEmpty = false := by simpa using List.length_pos_iff.mp hpos
        have hlen : (l.take (8 - a % 8)).length = 8 - a % 8 := List.length_take_of_le (by omega)
        have hfirst : s.stored (s.wordWrite a (l.take (8 - a % 8))) a (l.take (8 - a % 8)) :=
          State.wordWrite_stored (by omega) hp0
        have hrest : (s.wordWrite a (l.take (8 - a % 8))).stored (s.memStore a l (n + 1)) (a + (l.take (8 - a % 8)).length)
            (l.drop (8 - a % 8)) := by
          obtain ⟨-, -, hpo, -, -⟩ := hfirst
          rw [hlen, State.memStore, hemp]
          refine ih (by simp; omega) fun k hk => ?_
          rw [State.poisoned, hpo, ← State.poisoned, Nat.add_assoc]
          exact hp _ (by simp at hk; omega)
        simpa using hfirst.append hrest

/-! ### A host's accesses -/

/-- A host write stores its bytes in the state its accounts leave, which differs in no store; the replays it frees are planned after
it and reach none. -/
theorem bar2Write_next {s u : State} {t : PT} {addr : Fin 0x400000000} {data : List Byte} (hu : u = s.arrive t) :
    ∃ s' v : State, exec (.bar2Write t addr data) s = .next s' ∧ v.stores = u.stores ∧
      s'.stores = (v.memStore addr data (data.length + 1)).stores := by
  have hv : ∃ v : State, v.stores = u.stores ∧
      u.hostStore addr data = (v.memStore addr data (data.length + 1)).poisonCleared := by
    unfold State.hostStore
    dsimp only
    split
    · exact ⟨_, u.stores_syncBent _ _, rfl⟩
    · exact ⟨u, rfl, rfl⟩
  obtain ⟨v, hvu, hst⟩ := hv
  have hvar : (v.memStore addr data (data.length + 1)).variant = u.variant :=
    (v.memStore_variant _ _ _).trans (congrArg Prod.fst hvu)
  obtain ⟨s', hs', hs⟩ := runMem_next (f := fun s => s.hostStore addr data)
    (P := fun s' => s'.stores = (v.memStore addr data (data.length + 1)).stores) (hu ▸ hst) (by
      have hcl := State.stores_poisonCleared (v.memStore addr data (data.length + 1))
      simp only [State.stores, Prod.mk.injEq] at hcl ⊢
      simp [← hu, hvar, hcl])
  exact ⟨s', v, hs', hvu, hs⟩

/-- A read of a word outside the memories returns 0, not poisoned. -/
theorem State.bar2Word_hole {s : State} {a : Nat} (h : s.memHas a = false) : s.bar2Word a = (List.replicate 8 0, false) := by
  simp [State.bar2Word, h]

theorem State.bar2Word_poisoned {s : State} {a : Nat} (h : s.memHas a = true) : (s.bar2Word a).2 = s.poisoned a 1 := by
  simp [State.bar2Word, h]

/-- A host write that meets no poisoned word stores its bytes. -/
theorem bar2Write_stores {s u : State} {t : PT} {addr : Fin 0x400000000} {data : List Byte} (hu : u = s.arrive t)
    (hp : ∀ k, k < data.length → u.poisoned (addr + k) 1 = false) :
    ∃ s', exec (.bar2Write t addr data) s = .next s' ∧ u.stored s' addr data := by
  obtain ⟨s', v, hs', hv, hst⟩ := bar2Write_next (addr := addr) (data := data) hu
  have hclean := v.memStore_stored (data.length + 1) (a := addr) (l := data) (Nat.lt_succ_self _) fun k hk =>
    (State.poisoned_of_stores hv _ _).trans (hp k hk)
  exact ⟨s', hs', hclean.of_stores hv hst⟩

/-- A host write within one word does what the word's write does. -/
theorem bar2Write_word {s u : State} {t : PT} {addr : Fin 0x400000000} {data : List Byte} (hu : u = s.arrive t)
    (hne : 0 < data.length) (hl : addr.val % 8 + data.length ≤ 8) :
    ∃ s' v : State, exec (.bar2Write t addr data) s = .next s' ∧ v.stores = u.stores ∧
      s'.stores = (v.wordWrite addr data).stores := by
  obtain ⟨s', v, hs', hv, hst⟩ := bar2Write_next (addr := addr) (data := data) hu
  exact ⟨s', v, hs', hv, by rw [hst, v.memStore_word hne hl]⟩

/-- Settles O41: a write falls into words, each stored, merged or discarded; a read's check is `eccRead`. -/
theorem bar2Access : Obligations.Bar2Access := by
  intro s u t addr hu
  refine ⟨fun data hp => ?_, fun data ha hl hm => ?_, fun data hne hl h8 hp => ?_, State.bar2Word_hole, fun hm hp => ⟨?_, ?_, ?_⟩⟩
  · obtain ⟨s', hs', hb, hsame, hpo, hq, -⟩ := bar2Write_stores hu hp
    exact ⟨s', hs', hb, hsame, hpo, hq⟩
  · obtain ⟨s', v, hs', hv, hst⟩ := bar2Write_word (addr := addr) (data := data) hu (by omega) (by omega)
    have hmv : ∀ k < data.length, v.memHas (addr + k) = true := fun k hk =>
      (State.memHas_of_stores hv _).trans ((u.memHas_word (by omega)).trans hm)
    obtain ⟨hb, hsame, -, -, -⟩ := State.memWr_stored hmv
    have hw := State.wordWrite_whole (l := data) ((State.memHas_of_stores hv _).trans hm) hl
    obtain ⟨e, hc⟩ := (v.memWr addr data).clearPoison_only (addr / 8)
    have hbyte : ∀ x, s'.memByte x = (v.memWr addr data).memByte x := fun x => by
      rw [State.memByte_of_stores hst, hw, hc]; rfl
    refine ⟨s', hs', fun k hk => ?_, ?_, fun x hx => ?_⟩
    · rw [hbyte, hb k (hl ▸ hk), if_pos (hmv k (hl ▸ hk))]
    · rw [State.poisoned_of_stores hst, hw, State.poisoned_clearPoison]
    · rw [hbyte, hsame x (hl ▸ hx), State.memByte_of_stores hv]
  · obtain ⟨s', v, hs', hv, hst⟩ := bar2Write_word (data := data) hu hne hl
    rw [State.wordWrite_part_poisoned h8 ((State.poisoned_of_stores hv _ _).trans hp)] at hst
    have hall := hst.trans hv
    exact ⟨s', hs', fun x => State.memByte_of_stores hall x, congrArg (fun p => p.2.2.1) hall⟩
  · exact eccCheck_good hu (exec_bar2Read t addr _ s) hm hp rfl
  · exact eccCheck_corrected hu (exec_bar2Read t addr _ s) hm hp rfl rfl
  · obtain ⟨s', hs', -, hpoison, hstands, -, -, hx⟩ := eccCheck_uncorrectable hu (exec_bar2Read t addr _ s) hm hp rfl rfl
    have hword : s'.memHas addr = true := by
      rw [hx]
      exact hm
    refine ⟨s', hs', ?_, hstands, by rw [hx], hx⟩
    rw [State.bar2Word_poisoned hword, hpoison]

end Sys2Proof.Machine
end

section
/-!
PROOFS. Foremen (R22, R308, R312, R386, R388, R394): a foreman that stops, one that comes up on a bank and is counted, and a
firmware switch that reaches its first bent.
-/

namespace Sys2Proof.Machine

/-! ### Registers of the FOREMAN and CONTINUITY pages -/

/-- Registers of bents that differ in page or in offset are different registers. -/
theorem bp_add_ne {b c p q o r : Nat} (hp : p * 0x1000 + o < 0x400000) (hq : q * 0x1000 + r < 0x400000)
    (h : p * 0x1000 + o ≠ q * 0x1000 + r) : bp b p + o ≠ bp c q + r := by
  intro he
  have hmod : ∀ x y : Nat, y < 0x400000 → (x * 0x400000 + y) % 0x400000 = y := fun x y hy => by
    rw [Nat.mul_add_mod_self_right, Nat.mod_eq_of_lt hy]
  rw [bp, bp, Nat.add_assoc, Nat.add_assoc] at he
  exact h ((hmod b _ hp).symm.trans ((congrArg (· % 0x400000) he).trans (hmod c _ hq)))

/-- A field just put, bit by bit. -/
theorem State.bit_setFld_same (s : State) (a lo len v : Nat) {i : Nat} (hi : i < 32) : (s.setFld a lo len v).bit a i =
    if i < lo then s.bit a i else if i < lo + len then bitAt v (i - lo) else s.bit a i := by
  have hmod : ∀ x : Nat, bitAt (x % 2 ^ 32) i = bitAt x i := fun x => by
    rw [bitAt, Nat.testBit_mod_two_pow, decide_eq_true hi, Bool.true_and, bitAt]
  rw [State.setFld, State.bit_wr, if_pos rfl, hmod, bitAt_putBits]
  rfl

/-- Registers left alone but for some of a few pages leave the other pages alone. -/
theorem State.sameRegs.pages {u s : State} {l pgs : List Nat} (h : u.sameRegs s l) (hl : ∀ a ∈ l, pageOf a ∈ pgs) :
    u.samePages s pgs := fun a ha => h a fun hm => ha (hl a hm)

/-- What the foremen keep is not in a register. -/
theorem State.reg_boot (s : State) (x : Boot) (a : Nat) : ({ s with boot := x } : State).reg a = s.reg a := rfl

/-- Registers put, and what the foremen keep, beside a state. -/
theorem State.putBoot_only {s y : State} {r : SMap Word} (h : y = { s with regs := r }) (bt : Boot) :
    ∃ r bt', ({ y with boot := bt } : State) = { s with regs := r, boot := bt' } := ⟨r, bt, by rw [h]⟩

theorem State.onlyRegs.downAt {u x : State} (h : u.onlyRegs x) (b : Nat) : x.downAt b = u.downAt b := by
  obtain ⟨_, _, rfl⟩ := h; rfl

theorem State.onlyRegs.queues {u x : State} (h : u.onlyRegs x) : x.queues = u.queues := by
  obtain ⟨_, _, rfl⟩ := h; rfl

theorem State.sameRegs.trans {u x y : State} {l m : List Nat} (h : u.sameRegs x l) (k : x.sameRegs y m) :
    u.sameRegs y (l ++ m) := fun a ha => by
  rw [List.mem_append, not_or] at ha
  exact (k a ha.2).trans (h a ha.1)

@[simp] theorem State.downAt_keep_settle (u x : State) (b : Nat) : (u.keep x.settle).downAt b = x.downAt b := by
  simp [State.downAt]

/-! ### A foreman that stops (R22, R394) -/

/-- Without background operations nothing pauses. -/
theorem State.bgStop_idle {s : State} {b : Nat} (h : (s.cal b).ops = []) : s.bgStop b = s := by
  simp [State.bgStop, h]

/-- What a foreman that stops shows, on its page and on CONTINUITY, and what it abandons. -/
theorem State.foremanStop_idle {s : State} {b : Nat} (h : (s.cal b).ops = []) :
    (s.foremanStop b).bit (fmPg b + Off.FOREMAN_FM_STAT) 0 = false ∧
      (s.foremanStop b).bit (conPg b + Off.CONTINUITY_CONT_STAT) 1 = false ∧ (s.foremanStop b).downAt b = some s.now ∧
      (b = s.ridge → (s.foremanStop b).spdm = { stage := 0, answer := none }) ∧
      s.sameRegs (s.foremanStop b) [fmPg b + Off.FOREMAN_FM_STAT, conPg b + Off.CONTINUITY_CONT_STAT] ∧
      ∃ r bt sp, s.foremanStop b = { s with regs := r, boot := bt, spdm := sp } := by
  have hne : fmPg b + Off.FOREMAN_FM_STAT ≠ conPg b + Off.CONTINUITY_CONT_STAT :=
    bp_add_ne (by decide) (by decide) (by decide)
  have hregs : s.sameRegs ((s.setBit (fmPg b + Off.FOREMAN_FM_STAT) 0 false).setBit (conPg b + Off.CONTINUITY_CONT_STAT) 1 false)
      [fmPg b + Off.FOREMAN_FM_STAT, conPg b + Off.CONTINUITY_CONT_STAT] :=
    State.sameRegs_setBit (State.sameRegs_setBit (s.sameRegs_refl _) (by simp) _ _) (by simp) _ _
  have hfm := State.bit_setBit (s.setBit (fmPg b + Off.FOREMAN_FM_STAT) 0 false) (conPg b + Off.CONTINUITY_CONT_STAT)
    (fmPg b + Off.FOREMAN_FM_STAT) 0 false (i := 1) (by decide)
  rw [if_neg hne, State.bit_setBit_same _ _ _ _ (by decide)] at hfm
  have hcon := State.bit_setBit_same (s.setBit (fmPg b + Off.FOREMAN_FM_STAT) 0 false) (conPg b + Off.CONTINUITY_CONT_STAT) 1
    false (by decide)
  unfold State.foremanStop
  rw [State.bgStop_idle h]
  dsimp only
  by_cases hr : b = s.ridge
  · rw [if_pos hr]
    exact ⟨hfm, hcon, by simp [State.downAt], fun _ => rfl, hregs, _, _, _, rfl⟩
  · rw [if_neg hr]
    exact ⟨hfm, hcon, by simp [State.downAt], fun h => absurd h hr, hregs, _, _, s.spdm, rfl⟩

/-! ### A foreman that comes back (R386, R388) -/

/-- What a foreman up on a bank shows. -/
theorem State.foremanUp_shows (s : State) (b k : Nat) :
    (s.foremanUp b k).rd (fmPg b + Off.FOREMAN_FM_STAT) = (1 + 2 * k + s.version k * 2 ^ 16) % 2 ^ 32 ∧
      (s.foremanUp b k).bit (conPg b + Off.CONTINUITY_CONT_STAT) 1 = true ∧ (s.foremanUp b k).downAt b = none ∧
      s.sameRegs (s.foremanUp b k) [fmPg b + Off.FOREMAN_FM_STAT, conPg b + Off.CONTINUITY_CONT_STAT,
        conPg b + Off.CONTINUITY_FW_STAT] ∧
      ∃ r bt, s.foremanUp b k = { s with regs := r, boot := bt } := by
  obtain ⟨hfc, hff, hcf⟩ : fmPg b + Off.FOREMAN_FM_STAT ≠ conPg b + Off.CONTINUITY_CONT_STAT ∧
      fmPg b + Off.FOREMAN_FM_STAT ≠ conPg b + Off.CONTINUITY_FW_STAT ∧
      conPg b + Off.CONTINUITY_CONT_STAT ≠ conPg b + Off.CONTINUITY_FW_STAT :=
    ⟨bp_add_ne (by decide) (by decide) (by decide), bp_add_ne (by decide) (by decide) (by decide),
      bp_add_ne (by decide) (by decide) (by decide)⟩
  unfold State.foremanUp
  extract_lets v s1 a s2 f s3
  have hregs : s.sameRegs s3 [fmPg b + Off.FOREMAN_FM_STAT, a, f] :=
    State.sameRegs_wr (State.sameRegs_setBit (State.sameRegs_setBit (State.sameRegs_wr (s.sameRegs_refl _) (by simp) _)
      (by simp) _ _) (by simp) _ _) (by simp) _
  have hfm : s3.rd (fmPg b + Off.FOREMAN_FM_STAT) = (1 + 2 * k + v * 2 ^ 16) % 2 ^ 32 := by
    rw [State.rd_wr_ne _ _ hff, State.rd_setBit_ne _ _ _ hfc, State.rd_setBit_ne _ _ _ hfc, State.rd_wr_same]
  have hcon : s3.bit a 1 = true := by
    rw [State.bit_wr, if_neg hcf, State.bit_setBit_ne _ _ _ (by decide) (by decide), State.bit_setBit_same _ _ _ _ (by decide)]
  have hboot : ∀ (x : Boot) (c : Nat), ({ s3 with boot := x } : State).reg c = s3.reg c := fun x => s3.reg_boot x
  obtain ⟨r, hr⟩ : ∃ r, s3 = { s with regs := r } := ⟨_, rfl⟩
  refine ⟨?_, ?_, ?_, fun c hc => ?_, ?_⟩
  · rw [← hfm, State.rd_of_reg (hboot _ _)]
  · rw [← hcon, State.bit_of_reg (hboot _ _)]
  · simp [State.downAt]
  · rw [hboot, hregs c hc]
  · exact State.putBoot_only hr _

/-- What a foreman that has come back counts and raises, its mailbox idle. -/
theorem State.foremanBack_idle {s : State} {b : Nat} (h : s.mbxBusy b = false) :
    (s.foremanBack b).rd (conPg b + Off.CONTINUITY_FOREMAN_RESTARTS) =
        satAdd (s.rd (conPg b + Off.CONTINUITY_FOREMAN_RESTARTS)) 1 ∧
      (s.foremanBack b).raised (conPg b) 2 = true ∧ (s.foremanBack b).raised (fmPg b) 1 = true ∧
      s.sameRegs (s.foremanBack b) [conPg b + Off.CONTINUITY_FOREMAN_RESTARTS] ∧ s.onlyRegs (s.foremanBack b) := by
  have hne : mbxStat b ≠ conPg b + Off.CONTINUITY_FOREMAN_RESTARTS := bp_add_ne (by decide) (by decide) (by decide)
  have hbusy : ((((s.category 6 b false).bump (conPg b + Off.CONTINUITY_FOREMAN_RESTARTS)).raise (conPg b) 2).mbxBusy b) =
      false := by
    rw [State.mbxBusy, State.bit_raise, State.bit, State.rd_bump_ne _ hne]
    exact h
  have hx : s.foremanBack b =
      (((s.category 6 b false).bump (conPg b + Off.CONTINUITY_FOREMAN_RESTARTS)).raise (conPg b) 2).raise (fmPg b) 1 := by
    simp [State.foremanBack, hbusy]
  rw [hx]
  refine ⟨?_, ?_, ?_, fun c hc => ?_, ?_⟩
  · simp
  · exact State.raised_raise_mono (State.raised_raise_same _ _ _) _ _
  · simp
  · rw [State.reg_raise, State.reg_raise, State.reg_bump_ne _ (by simpa using hc), State.reg_category]
  · exact (((State.onlyRegs_category _ _ _ _).trans (State.onlyRegs_bump _ _)).trans
      (State.onlyRegs_raiseAt _ _ _ _ _ _)).trans (State.onlyRegs_raiseAt _ _ _ _ _ _)

theorem State.bankOf_lt (s : State) (b : Nat) : s.bankOf b < 2 := by
  unfold State.bankOf State.fld bits
  exact Nat.mod_lt _ (by decide)

theorem State.version_lt (s : State) (k : Nat) : s.version k < 2 ^ 16 := by
  unfold State.version
  exact Nat.mod_lt _ (by decide)

/-- A foreman that comes up on its bank and is counted, its mailbox idle. -/
theorem State.foremanReturn_idle {s x y : State} {b : Nat} (h : s.mbxBusy b = false) (hy : y = s.foremanUp b (s.bankOf b))
    (hx : x = y.foremanBack b) :
    x.downAt b = none ∧ x.rd (fmPg b + Off.FOREMAN_FM_STAT) = 1 + 2 * s.bankOf b + s.version (s.bankOf b) * 2 ^ 16 ∧
      x.bit (conPg b + Off.CONTINUITY_CONT_STAT) 1 = true ∧
      x.rd (conPg b + Off.CONTINUITY_FOREMAN_RESTARTS) = satAdd (s.rd (conPg b + Off.CONTINUITY_FOREMAN_RESTARTS)) 1 ∧
      x.raised (conPg b) 2 = true ∧ x.raised (fmPg b) 1 = true ∧ s.samePages x [fmPg b, conPg b] ∧
      x.variant = s.variant ∧ x.queues = s.queues := by
  obtain ⟨hfm, hcon, hdown, hregs, r, bt, hup⟩ := s.foremanUp_shows b (s.bankOf b)
  rw [← hy] at hfm hcon hdown hregs hup
  clear hy
  have hlist : ∀ a, a ≠ fmPg b + Off.FOREMAN_FM_STAT → a ≠ conPg b + Off.CONTINUITY_CONT_STAT →
      a ≠ conPg b + Off.CONTINUITY_FW_STAT → y.reg a = s.reg a := fun a h1 h2 h3 => hregs a (by simp [h1, h2, h3])
  have hbusy : y.mbxBusy b = false :=
    (State.bit_of_reg (hlist _ (bp_add_ne (by decide) (by decide) (by decide)) (bp_add_ne (by decide) (by decide) (by decide))
      (bp_add_ne (by decide) (by decide) (by decide))) 0).trans h
  obtain ⟨hcount, hcev, hfev, hback, honly⟩ := State.foremanBack_idle hbusy
  rw [← hx] at hcount hcev hfev hback honly
  clear hx
  have hkeep : ∀ a, a ≠ conPg b + Off.CONTINUITY_FOREMAN_RESTARTS → x.reg a = y.reg a := fun a ha => hback a (by simpa using ha)
  have hsame := hregs.trans hback
  refine ⟨?_, ?_, ?_, ?_, hcev, hfev, hsame.pages fun a ha => ?_, ?_, ?_⟩
  · rw [honly.downAt, hdown]
  · have hbank := s.bankOf_lt b
    have hver := s.version_lt (s.bankOf b)
    rw [State.rd_of_reg (hkeep _ (bp_add_ne (by decide) (by decide) (by decide))), hfm, Nat.mod_eq_of_lt (by omega)]
  · rw [State.bit_of_reg (hkeep _ (bp_add_ne (by decide) (by decide) (by decide))), hcon]
  · rw [hcount, State.rd_of_reg (hlist _ (bp_add_ne (by decide) (by decide) (by decide))
      (bp_add_ne (by decide) (by decide) (by decide)) (bp_add_ne (by decide) (by decide) (by decide)))]
  · have hpg : ∀ p o, o < 0x1000 → pageOf (bp b p + o) = bp b p := fun p o ho => pageOf_add (by unfold bp; omega) ho
    simp only [List.cons_append, List.nil_append, List.mem_cons, List.not_mem_nil, or_false] at ha
    rcases ha with rfl | rfl | rfl | rfl <;> rw [hpg _ _ (by decide)] <;> simp
  · rw [honly.variant, hup]
  · rw [honly.queues, hup]

/-! ### FOREMAN_RESTART (R22, R308, R379) -/

section Restart

variable {s u : State} {t : PT} {b : Fin 8} {d : Nat} (hu : u = s.arrive t) (hd : u.downAt b = some d)
  (hsw : u.boot.switch = none)

include hu hd

/-- One that has not come up while its time lasts changes nothing. -/
theorem foremanRestart_waits (hd' : u.now ≤ d + 200 * 1000 * usK) :
    ∃ s', exec (.foremanRestart t b false) s = .next s' ∧ s' = { u with ev := s'.ev } := by
  have hlate : ¬ d + 200 * 1000 * usK < u.now := by omega
  rw [exec_foremanRestart, execForemanRestart]
  exact runAt_next (x := u) (by rw [← hu]; simp [hd, hlate]) (by rw [← hu, State.keep_settle])

include hsw

/-- A foreman that comes up in time comes up on its bank and is counted. -/
theorem foremanRestart_up (hd' : u.now ≤ d + 200 * 1000 * usK) {P : State → Prop}
    (h : P (u.keep ((u.foremanUp b (u.bankOf b)).foremanBack b).settle)) :
    ∃ s', exec (.foremanRestart t b true) s = .next s' ∧ P s' := by
  have hlate : ¬ d + 200 * 1000 * usK < u.now := by omega
  rw [exec_foremanRestart, execForemanRestart]
  exact runAt_next (by rw [← hu]; simp [hd, hsw, hlate]) (hu ▸ h)

/-- One whose time is over raises its category of FAULT_N. -/
theorem foremanRestart_late (hd' : d + 200 * 1000 * usK < u.now) :
    ∃ s', exec (.foremanRestart t b false) s = .next s' ∧ setHas s'.ev.cats (6 * 64 + b) = true ∧
      s' = { u with ev := s'.ev } := by
  rw [exec_foremanRestart, execForemanRestart]
  refine runAt_next (x := u.category 6 b true) (by rw [← hu]; simp [hd, hsw, hd']) ⟨?_, ?_⟩
  · simp [State.category]
  · rw [← hu, State.keep_settle]; rfl

end Restart

/-! ### FW_SWITCH (R308, R397) -/

/-- A switch goes on to the first bent that has a foreman, which stops. -/
theorem State.switchNext_first {s : State} {k c : Nat}
    (hc : ((List.range s.variant.bents).find? fun x => s.foremanRuns x || (s.downAt x).isSome) = some c)
    (hr : s.foremanRuns c = true) : s.switchNext k 0 =
      { s.foremanStop c with boot := { (s.foremanStop c).boot with switch := some (c, k) } } := by
  have hc' : ((List.range s.variant.bents).find? fun x => decide (0 ≤ x) && (s.foremanRuns x || (s.downAt x).isSome)) =
      some c := by simpa using hc
  rw [State.switchNext, hc']
  simp [hr]

/-- What a switch that reaches its first foreman leaves, from a state where FW_STAT shows it busy. -/
theorem State.switchNext_shows {y x : State} {k c : Nat} (hx : x = y.switchNext k 0)
    (hc : ((List.range y.variant.bents).find? fun x => y.foremanRuns x || (y.downAt x).isSome) = some c)
    (hr : y.foremanRuns c = true) (ho : (y.cal c).ops = []) :
    x.boot.switch = some (c, k) ∧ (∀ b, x.reg (conPg b + Off.CONTINUITY_FW_STAT) = y.reg (conPg b + Off.CONTINUITY_FW_STAT)) ∧
      x.bit (fmPg c + Off.FOREMAN_FM_STAT) 0 = false ∧ x.downAt c = some y.now ∧ x.variant = y.variant := by
  obtain ⟨hfm, -, hat, -, hregs, r, bt, sp, hz⟩ := State.foremanStop_idle ho
  rw [State.switchNext_first hc hr] at hx
  generalize y.foremanStop c = z at hx hfm hat hregs hz
  subst hx
  refine ⟨rfl, fun b => ?_, ?_, hat, ?_⟩
  · refine (z.reg_boot _ _).trans (hregs _ ?_)
    have h1 : conPg b + Off.CONTINUITY_FW_STAT ≠ fmPg c + Off.FOREMAN_FM_STAT :=
      bp_add_ne (by decide) (by decide) (by decide)
    have h2 : conPg b + Off.CONTINUITY_FW_STAT ≠ conPg c + Off.CONTINUITY_CONT_STAT :=
      bp_add_ne (by decide) (by decide) (by decide)
    simp only [List.mem_cons, h1, h2, List.not_mem_nil, or_self, not_false_eq_true]
  · rw [State.bit_of_reg (z.reg_boot _ _), hfm]
  · rw [hz]

/-- The state in which the ridge's FW_STAT shows a switch under way has the foremen of the state before. -/
theorem State.fwStat_foremen {s y : State} {b : Nat} (hy : y = s.setFld (conPg b + Off.CONTINUITY_FW_STAT) 1 2 1) :
    (∀ x, y.foremanRuns x = s.foremanRuns x) ∧ (∀ x, y.downAt x = s.downAt x) ∧ (∀ x, y.cal x = s.cal x) ∧
      y.now = s.now ∧ y.variant = s.variant ∧ y.bit (conPg b + Off.CONTINUITY_FW_STAT) 1 = true ∧
      y.bit (conPg b + Off.CONTINUITY_FW_STAT) 2 = false := by
  subst hy
  refine ⟨fun x => ?_, fun x => by simp [State.downAt], fun x => by simp, by simp [State.now], by simp, ?_, ?_⟩
  · exact State.bit_of_reg (s.reg_setReg_ne _ (bp_add_ne (by decide) (by decide) (by decide))) 0
  · rw [State.bit_setFld_same _ _ _ _ _ (by decide)]; rfl
  · rw [State.bit_setFld_same _ _ _ _ _ (by decide)]; rfl

section Switch

variable {s u : State} {t : PT} {b : Fin 8} (hu : u = s.arrive t) (hb : u.has b = true) (hridge : b.val = u.ridge)
  (hlock : u.locked (conPg b) = false) (hsw : u.boot.switch = none)

include hu hb hridge hlock hsw

/-- FW_SWITCH into a bank that does not verify is refused with 0xD3. -/
theorem fwSwitch_refused (hbad : u.bankOk (1 - u.bankOf b) (u.ownerHash b) = false) :
    ∃ s', exec (.fwSwitch t b) s = .next s' ∧ s'.isLatched (conPg b) 0xD3 = true ∧ s'.raised identPg 1 = true ∧
      s' = { u with ev := s'.ev } := by
  rw [exec_fwSwitch, execFwSwitch]
  refine runAt_next (x := u.verifyFail.latchHealth (conPg b) 0xD3) ?_ ?_
  · rw [← hu, State.command_takes ⟨hb, hlock⟩]
    simp [← hridge, hsw, hbad]
  · rw [← hu]
    refine ⟨by simp, ?_, ?_⟩
    · rw [State.raised_keep_settle, State.raised_latchHealth, State.verifyFail, State.raised_latchHealth,
        State.raised_raise_same]
    · obtain ⟨e, he⟩ := u.raiseAt_ev identPg 1 u.now 0 false
      rw [State.keep_settle, State.verifyFail, State.raise, he]
      rfl

/-- FW_SWITCH into a bank that verifies shows itself and goes on to the first bent. -/
theorem fwSwitch_goes (hok : u.bankOk (1 - u.bankOf b) (u.ownerHash b) = true) {P : State → Prop}
    (h : P (u.keep (((u.setFld (conPg b + Off.CONTINUITY_FW_STAT) 1 2 1).switchNext (1 - u.bankOf b) 0).settle))) :
    ∃ s', exec (.fwSwitch t b) s = .next s' ∧ P s' := by
  rw [exec_fwSwitch, execFwSwitch]
  refine runAt_next ?_ (hu ▸ h)
  rw [← hu, State.command_takes ⟨hb, hlock⟩]
  simp [← hridge, hsw, hok]

end Switch

section Shows

variable {s u : State} {t : PT} {b : Fin 8} (hu : u = s.arrive t) (hb : u.has b = true)

include hu

include hb in
/-- FOREMAN_STOP of a foreman that has no calibration under way: the outcome of `foremanStop_idle`. -/
theorem foremanStop_shows (hr : u.foremanRuns b = true) (hops : (u.cal b).ops = []) :
    ∃ s', exec (.foremanStop t b) s = .next s' ∧
      s'.bit (fmPg b + Off.FOREMAN_FM_STAT) 0 = false ∧ s'.bit (conPg b + Off.CONTINUITY_CONT_STAT) 1 = false ∧
      s'.downAt b = some u.now ∧ (b.val = u.ridge → s'.spdm = { stage := 0, answer := none }) ∧
      u.sameRegs s' [fmPg b + Off.FOREMAN_FM_STAT, conPg b + Off.CONTINUITY_CONT_STAT] ∧
      s' = { u with regs := s'.regs, boot := s'.boot, spdm := s'.spdm, ev := s'.ev } := by
  obtain ⟨hfm, hcon, hdown, hspdm, hregs, r, bt, sp, hx⟩ := State.foremanStop_idle hops
  rw [exec_foremanStop, execForemanStop]
  refine runAt_next (x := u.foremanStop b) (by rw [← hu]; simp [hb, hr]) ?_
  rw [← hu]
  generalize u.foremanStop b = x at hfm hcon hdown hspdm hregs hx
  have hv : x.variant = u.variant := by rw [hx]
  refine ⟨?_, ?_, ?_, fun h => ?_, State.sameRegs_keep hregs hv, ?_⟩
  · rw [State.bit_of_reg (State.reg_keep_settle hv _), hfm]
  · rw [State.bit_of_reg (State.reg_keep_settle hv _), hcon]
  · rw [State.downAt_keep_settle, hdown]
  · rw [← hspdm h]; simp
  · rw [State.keep_settle, hx]

/-- FOREMAN_RESTART within 200 ms, without a mailbox command to end: the outcome of `foremanReturn_idle`. -/
theorem foremanRestart_shows {d : Nat} (hd : u.downAt b = some d) (hsw : u.boot.switch = none)
    (hle : u.now ≤ d + 200 * 1000 * usK) (hmb : u.mbxBusy b = false) :
    ∃ s', exec (.foremanRestart t b true) s = .next s' ∧ s'.downAt b = none ∧
      s'.rd (fmPg b + Off.FOREMAN_FM_STAT) = 1 + 2 * u.bankOf b + u.version (u.bankOf b) * 2 ^ 16 ∧
      s'.bit (conPg b + Off.CONTINUITY_CONT_STAT) 1 = true ∧
      s'.rd (conPg b + Off.CONTINUITY_FOREMAN_RESTARTS) = satAdd (u.rd (conPg b + Off.CONTINUITY_FOREMAN_RESTARTS)) 1 ∧
      s'.raised (conPg b) 2 = true ∧ s'.raised (fmPg b) 1 = true ∧ s'.mem = u.mem ∧ s'.queues = u.queues ∧
      u.samePages s' [fmPg b, conPg b] := by
  obtain ⟨x, hx⟩ : ∃ x, x = (u.foremanUp b (u.bankOf b)).foremanBack b := ⟨_, rfl⟩
  obtain ⟨hdown, hfm, hcon, hcount, hcev, hfev, hpages, hv, hq⟩ := State.foremanReturn_idle hmb rfl hx
  have hreg := State.reg_keep_settle hv
  refine foremanRestart_up hu hd hsw hle ?_
  rw [← hx]
  refine ⟨?_, ?_, ?_, ?_, ?_, ?_, rfl, ?_, fun a ha => ?_⟩
  · rw [State.downAt_keep_settle, hdown]
  · rw [State.rd_of_reg (hreg _), hfm]
  · rw [State.bit_of_reg (hreg _), hcon]
  · rw [State.rd_of_reg (hreg _), hcount]
  · rw [State.raised_keep_settle, hcev]
  · rw [State.raised_keep_settle, hfev]
  · rw [← hq]; simp
  · rw [hreg, hpages a ha]

include hb in
/-- FW_SWITCH into a bank that verifies, where the first foreman of the package runs: the outcome of `switchNext_shows`. -/
theorem fwSwitch_shows {c : Nat} (hridge : b.val = u.ridge) (hlock : u.locked (conPg b) = false) (hsw : u.boot.switch = none)
    (hok : u.bankOk (1 - u.bankOf b) (u.ownerHash b) = true)
    (hfind : ((List.range u.variant.bents).find? fun x => u.foremanRuns x || (u.downAt x).isSome) = some c)
    (hrun : u.foremanRuns c = true) (hops : (u.cal c).ops = []) : ∃ s', exec (.fwSwitch t b) s = .next s' ∧
      s'.boot.switch = some (c, 1 - u.bankOf b) ∧ s'.bit (conPg b + Off.CONTINUITY_FW_STAT) 1 = true ∧
      s'.bit (conPg b + Off.CONTINUITY_FW_STAT) 2 = false ∧ s'.bit (fmPg c + Off.FOREMAN_FM_STAT) 0 = false ∧
      s'.downAt c = some u.now := by
  obtain ⟨y, hy⟩ : ∃ y, y = u.setFld (conPg b + Off.CONTINUITY_FW_STAT) 1 2 1 := ⟨_, rfl⟩
  obtain ⟨hruns, hdown, hcal, hnow, hyv, h1, h2⟩ := State.fwStat_foremen hy
  obtain ⟨x, hx⟩ : ∃ x, x = y.switchNext (1 - u.bankOf b) 0 := ⟨_, rfl⟩
  obtain ⟨hswitch, hfw, hfm, hat, hv⟩ := State.switchNext_shows hx (c := c)
    (by rw [hyv]; simpa only [hruns, hdown] using hfind) (by rw [hruns, hrun]) (by rw [hcal, hops])
  have hreg := State.reg_keep_settle (hv.trans hyv)
  refine fwSwitch_goes hu hb hridge hlock hsw hok ?_
  rw [← hy, ← hx]
  refine ⟨?_, ?_, ?_, ?_, ?_⟩
  · rw [← hswitch]; simp
  · rw [State.bit_of_reg (hreg _), State.bit_of_reg (hfw b), h1]
  · rw [State.bit_of_reg (hreg _), State.bit_of_reg (hfw b), h2]
  · rw [State.bit_of_reg (hreg _), hfm]
  · rw [State.downAt_keep_settle, hat, hnow]

end Shows

/-- Settles O44: a foreman stops, restarts in time, in vain or too late, and FW_SWITCH is refused or stops the first one. -/
theorem foremen : Obligations.Foremen := fun _ _ _ _ hu hb =>
  ⟨foremanStop_shows hu hb,
    fun _ hd hsw => ⟨fun hle => ⟨foremanRestart_shows hu hd hsw hle, foremanRestart_waits hu hd hle⟩,
      foremanRestart_late hu hd hsw⟩,
    fun hridge hlock hsw => ⟨fwSwitch_refused hu hb hridge hlock hsw, fun _ => fwSwitch_shows hu hb hridge hlock hsw⟩⟩

end Sys2Proof.Machine
end

section
/-!
PROOFS. PageEvents (R17, R124, R370, R378): the event registers of a page, the counts that CLR_COUNTS clears, a vector's holdoff
and the scrubber.
-/

namespace Sys2Proof.Machine

/-! ### Commands of a page -/

/-- A command of a page that the directory lists answers what its effect on the page leaves. -/
theorem pageCommand_next {s u x : State} {t : PT} {c : Instr} {pg : Page} {r : PageRow} {f : State → PageRow → State}
    {P : State → Prop} (hu : u = s.arrive t) (hc : exec c s = runAt t s fun s => s.onPage pg f)
    (hp : pageRow? u.variant (pageBase pg) = some r) (hx : f u r = x) (h : P (u.keep x.settle)) :
    ∃ s', exec c s = .next s' ∧ P s' := by
  rw [hc]
  exact runAt_next (by rw [← hu, State.onPage, hp]; exact hx) (hu ▸ h)

/-- A command written to a page that is not locked has its effect (R399). -/
theorem State.command_unlocked {s : State} {pg : Nat} (h : s.locked pg = false) (f : State → State) : s.command pg f = f s := by
  simp [State.command, h]

theorem pageBase_mod (pg : Page) : pageBase pg % 0x1000 = 0 := by
  cases pg <;> simp only [pageBase, bp, pkgp] <;> omega

/-- What a command's effect leaves beside the event state, its outcome leaves. -/
theorem State.onlyRegs.keep_ev {u x : State} (h : u.onlyRegs x) (hr : x.regs = u.regs) :
    u.keep x.settle = { u with ev := (u.keep x.settle).ev } := by
  obtain ⟨r, e, rfl⟩ := h
  obtain rfl : r = u.regs := hr
  rw [State.keep_settle]

/-! ### RAW (R370) -/

section Raw

variable {g : State → Nat → State} {pg : Nat} {b : Bool} (hg : ∀ s i, (g s i).ev.raw = setPut s.ev.raw (pg * 64 + i) b)

include hg

/-- A fold that puts event bits of a page puts those of its list and no others. -/
theorem setHas_foldl_raw (l : List Nat) (s : State) (k : Nat) :
    setHas (l.foldl g s).ev.raw k = if ∃ i ∈ l, k = pg * 64 + i then b else setHas s.ev.raw k := by
  induction l generalizing s with
  | nil => simp
  | cons i l ih =>
    rw [List.foldl_cons, ih, hg]
    by_cases hl : ∃ j ∈ l, k = pg * 64 + j
    · have hcons : ∃ j ∈ i :: l, k = pg * 64 + j := hl.imp fun j hj => ⟨List.mem_cons_of_mem i hj.1, hj.2⟩
      rw [if_pos hl, if_pos hcons]
    · by_cases hi : k = pg * 64 + i
      · rw [if_neg hl, if_pos ⟨i, List.mem_cons_self, hi⟩, hi, setHas_setPut_same]
      · have hcons : ¬ ∃ j ∈ i :: l, k = pg * 64 + j := by
          rintro ⟨j, hj, hk⟩
          rcases List.mem_cons.mp hj with rfl | hj
          · exact hi hk
          · exact hl ⟨j, hj, hk⟩
        rw [if_neg hl, if_neg hcons, setHas_setPut_ne _ _ hi]

/-- So each source of the list stands as put, and every other bit of RAW as it was. -/
theorem raised_foldl_raw (l : List Nat) (s : State) : (∀ i ∈ l, (l.foldl g s).raised pg i = b) ∧
    ∀ k, (∀ i ∈ l, k ≠ pg * 64 + i) → setHas (l.foldl g s).ev.raw k = setHas s.ev.raw k :=
  ⟨fun i hi => (setHas_foldl_raw hg l s _).trans (if_pos ⟨i, hi, rfl⟩),
    fun k hk => (setHas_foldl_raw hg l s k).trans (if_neg fun ⟨i, hi, he⟩ => hk i hi he)⟩

end Raw

/-- A command that puts the RAW bits a word names puts those and no others, and reaches only the events. -/
theorem eventBits_next {s u : State} {t : PT} {c : Instr} {pg : Page} {r : PageRow} {hi b : Bool} {v : Word}
    {f : State → PageRow → State} {g : State → Nat → State} (hu : u = s.arrive t)
    (hc : exec c s = runAt t s fun s => s.onPage pg f) (hp : pageRow? u.variant (pageBase pg) = some r)
    (hf : f u r = (eventBits r hi v).foldl g u)
    (hg : ∀ s i, (g s i).ev.raw = setPut s.ev.raw (pageBase pg * 64 + i) b) (hev : ∀ s i, ∃ e, g s i = { s with ev := e }) :
    ∃ s', exec c s = .next s' ∧ (∀ i ∈ eventBits r hi v, s'.raised (pageBase pg) i = b) ∧
      (∀ k, (∀ i ∈ eventBits r hi v, k ≠ pageBase pg * 64 + i) → setHas s'.ev.raw k = setHas u.ev.raw k) ∧
      s' = { u with ev := s'.ev } := by
  obtain ⟨hin, hout⟩ := raised_foldl_raw hg (eventBits r hi v) u
  have honly : u.onlyRegs ((eventBits r hi v).foldl g u) :=
    State.onlyRegs_foldl (fun s i => (hev s i).imp' (fun _ => s.regs) fun e he => ⟨e, he⟩) _ u
  have hregs : ((eventBits r hi v).foldl g u).regs = u.regs :=
    foldl_frame State.regs g (fun s i => by obtain ⟨e, he⟩ := hev s i; rw [he]) _ u
  refine pageCommand_next hu hc hp hf ⟨fun i h => ?_, fun k h => ?_, honly.keep_ev hregs⟩
  · rw [State.raised_keep_settle]
    exact hin i h
  · rw [State.keep_ev, State.settle_ev_raw]
    exact hout k h

/-! ### EVT_EN (R370) -/

/-- Distinct powers of two, added up from the least, set their own bits. -/
theorem testBit_foldl_two_pow {l : List Nat} (hl : l.SortedLT) (i : Nat) :
    (l.foldl (fun m i => m + 2 ^ i) 0).testBit i = decide (i ∈ l) := by
  have hsum : l.foldl (fun m i => m + 2 ^ i) 0 = (l.map fun i => 2 ^ i).sum := by
    rw [List.sum_eq_foldl, List.foldl_map]
  rw [hsum, Bool.eq_iff_iff, ← Nat.mem_bitIndices, Nat.bitIndices_sum_map_two_pow hl, decide_eq_true_eq]

/-- The bits within their word of the sources that an event register's word names. -/
theorem eventBits_mod (r : PageRow) (hi : Bool) (v : Word) : (eventBits r hi v).map (· % 32) =
    (List.range 32).filter fun i => bitAt v.toNat i && decide (i + 32 * b2n hi < r.events) := by
  have hback : ∀ i ∈ (List.range 32).filter fun i => bitAt v.toNat i && decide (i + 32 * b2n hi < r.events),
      ((· % 32) ∘ (· + 32 * b2n hi)) i = id i := fun i hmem => by
    have hlt : i < 32 := List.mem_range.mp (List.mem_filter.mp hmem).1
    simp only [Function.comp_apply, Nat.add_mul_mod_self_left, Nat.mod_eq_of_lt hlt, id]
  have hpred : (fun i => ((fun i => decide (i < r.events)) ∘ fun i => i + 32 * b2n hi) i && bitAt v.toNat i) =
      fun i => bitAt v.toNat i && decide (i + 32 * b2n hi < r.events) := funext fun i => Bool.and_comm _ _
  rw [eventBits, List.filter_map, List.map_map, List.filter_filter, hpred, List.map_congr_left hback, List.map_id]

/-- The word that EVT_EN takes has the bits written whose source the page has. -/
theorem State.bit_evtEn (s : State) (a : Nat) (r : PageRow) (hi : Bool) (v : Word) {i : Nat} (h : i < 32) :
    (s.wr a ((eventBits r hi v).foldl (fun m i => m + 2 ^ (i % 32)) 0)).bit a i =
      (bitAt v.toNat i && decide (i + (if hi then 32 else 0) < r.events)) := by
  have hword : (eventBits r hi v).foldl (fun m i => m + 2 ^ (i % 32)) 0 =
      ((eventBits r hi v).map (· % 32)).foldl (fun m i => m + 2 ^ i) 0 := by rw [List.foldl_map]
  have hsort : ((List.range 32).filter fun i => bitAt v.toNat i && decide (i + 32 * b2n hi < r.events)).SortedLT :=
    (List.pairwise_lt_range.filter _).sortedLT
  have hoff : 32 * b2n hi = if hi then 32 else 0 := by cases hi <;> rfl
  rw [State.bit_wr, if_pos rfl, bitAt, Nat.testBit_mod_two_pow, hword, eventBits_mod, testBit_foldl_two_pow hsort, hoff]
  simp [h]

/-- EVT_EN on a page that is not locked takes that word. -/
theorem State.evtEnable_unlocked {s : State} {pg e : Nat} {hi : Bool} (h : s.locked pg = false)
    (he : e = pg + if hi then Off.PG_EVT_EN_HI else Off.PG_EVT_EN_LO) (r : PageRow) (v : Word) :
    s.evtEnable pg r hi v = s.wr e ((eventBits r hi v).foldl (fun m i => m + 2 ^ (i % 32)) 0) :=
  (State.command_unlocked h _).trans (he ▸ rfl)

/-! ### Counts (R124) -/

/-- Registers set to 0 read 0. -/
theorem State.rd_zero_mem {l : List Nat} {a : Nat} (h : a ∈ l) (s : State) : (s.zero l).rd a = 0 := by
  induction l generalizing s with
  | nil => simp at h
  | cons b l ih =>
    by_cases hl : a ∈ l
    · exact ih hl (s.wr b 0)
    · obtain rfl : a = b := (List.mem_cons.mp h).resolve_right hl
      have hrest : ((s.wr a 0).zero l).reg a = (s.wr a 0).reg a :=
        foldl_reg_ne (f := id) (fun s _ _ hc => s.reg_wr_ne 0 hc) (fun b hb (he : a = b) => hl (he ▸ hb)) _
      exact (State.rd_of_reg hrest).trans (s.rd_wr_same a 0)

/-- The others are left alone. -/
theorem State.sameRegs_zero (s : State) (l : List Nat) : s.sameRegs (s.zero l) l := fun a ha =>
  foldl_reg_ne (f := id) (fun s _ _ hc => s.reg_wr_ne 0 hc) (fun b hb (he : a = b) => ha (he ▸ hb)) s

theorem State.onlyRegs_zero (s : State) (l : List Nat) : s.onlyRegs (s.zero l) :=
  State.onlyRegs_foldl (fun s a => s.onlyRegs_wr a 0) l s

/-- The counts of a page lie on it. -/
theorem countRegs_lt (k : PageKind) (u : Option Nat) : ∀ o ∈ countRegs k u, o < 0x1000 := by
  cases u with
  | none => cases k <;> decide
  | some q =>
    intro o ho
    cases k with
    | fliud =>
      simp only [countRegs, List.mem_ite_nil_right, List.mem_cons, List.not_mem_nil, or_false] at ho
      obtain ⟨hq, rfl | rfl | rfl | rfl⟩ := ho <;> simp only [Off.FLIUD_PORT_CRC_COUNT, Off.FLIUD_PORT_RETX_COUNT,
        Off.FLIUD_PORT_VDROP_COUNT, Off.FLIUD_PORT_RETRAIN_COUNT] <;> omega
    | events =>
      simp only [countRegs, List.mem_ite_nil_right, List.mem_cons, List.not_mem_nil, or_false] at ho
      obtain ⟨hq, rfl | rfl⟩ := ho <;> simp only [Off.EVENTS_DMA_DROP_COUNT, Off.EVENTS_DMA_ERR_COUNT] <;> omega
    | _ => cases ho

/-- The converters accounted for first reach their own page. -/
theorem State.onlyClips_pageSync (u : State) {a : Nat} {pr : PageRow} (h : pageRow? u.variant a = some pr) :
    u.onlyClips (u.pageSync a) (pageOf a) := by
  unfold State.pageSync
  split
  · exact .refl u _
  · exact u.onlyClips_pageOf h u.now

/-- Only TONE, PROBE and FLUX pages have converters to account for. -/
theorem State.pageSync_plain (u : State) {a : Nat} (h : isPkg a = true ∨ pageNo a < 8 ∨ 0xF ≤ pageNo a) : u.pageSync a = u := by
  unfold State.pageSync
  split
  · rfl
  · next hn =>
    have hno : pageNo a < 8 ∨ 0xF ≤ pageNo a := h.resolve_left hn
    have hconv : pageConvs (bentOf a) (pageNo a) = [] := by
      unfold pageConvs
      rw [if_neg (by omega), if_neg (by omega), if_neg (by omega)]
    simp [State.syncPage, hconv]

/-- Counts put to 0 once their page's converters are accounted for. -/
theorem zero_pageSync {u : State} {r : PageRow} {a : Nat} {q : Option Nat} {l : List Nat} (hp : pageRow? u.variant a = some r)
    (hpg : a % 0x1000 = 0) (hl : l = (countRegs r.kind q).map fun o => a + o) :
    (∀ o ∈ countRegs r.kind q, ((u.pageSync a).zero l).rd (a + o) = 0) ∧
      (isPkg a = true ∨ pageNo a < 8 ∨ 0xF ≤ pageNo a → u.sameRegs ((u.pageSync a).zero l) l) ∧
      u.onlyClips ((u.pageSync a).zero l) a := by
  refine ⟨fun o ho => State.rd_zero_mem (hl ▸ List.mem_map_of_mem ho) _, fun h => ?_, ?_⟩
  · rw [u.pageSync_plain h]
    exact u.sameRegs_zero l
  · have ha : pageOf a = a := by unfold pageOf; omega
    have hsync := u.onlyClips_pageSync hp
    rw [ha] at hsync
    obtain ⟨ro, e, hzero⟩ := (u.pageSync a).onlyRegs_zero l
    refine hsync.trans ⟨⟨ro, (u.pageSync a).dacAt, e, hzero⟩, fun c hc => (u.pageSync a).sameRegs_zero l c fun hm => hc ?_⟩
    obtain ⟨o, ho, rfl⟩ := List.mem_map.mp (hl ▸ hm)
    rw [pageOf_add hpg (countRegs_lt _ _ o ho)]
    exact List.mem_singleton_self a

/-- What CLR_COUNTS does: the counts go to 0, and on EVENTS EVR_LOST with them. -/
def State.countsCleared (s : State) (a : Nat) (l : List Nat) (lost : Bool) : State :=
  if lost then { (s.pageSync a).zero l with ev := { ((s.pageSync a).zero l).ev with lost := 0 } } else (s.pageSync a).zero l

/-- EVR_LOST lies outside the registers. -/
theorem State.countsCleared_only (s : State) (a : Nat) (l : List Nat) (lost : Bool) :
    (∃ e, s.countsCleared a l lost = { (s.pageSync a).zero l with ev := e }) ∧
      (lost = true → (s.countsCleared a l lost).ev.lost = 0) := by
  cases lost with
  | false => exact ⟨⟨_, rfl⟩, nofun⟩
  | true => exact ⟨⟨_, rfl⟩, fun _ => rfl⟩

/-- A new event state changes no register. -/
theorem State.reg_ev (s : State) (e : EvSt) (c : Nat) : ({ s with ev := e } : State).reg c = s.reg c := rfl

@[simp] theorem State.settle_ev_lost (s : State) : s.settle.ev.lost = s.ev.lost := by
  obtain ⟨_, _, _, _, _, h⟩ := s.settle_only; rw [h]

/-- The outcome of a command that reaches its page's registers and converters. -/
theorem State.onlyClips.keep {u x : State} {pg : Nat} (h : u.onlyClips x pg) : u.samePages (u.keep x.settle) [pg] ∧
    u.keep x.settle = { u with regs := (u.keep x.settle).regs, dacAt := (u.keep x.settle).dacAt, ev := (u.keep x.settle).ev } := by
  refine ⟨fun c hc => (State.reg_keep_settle h.variant c).trans (h.2 c hc), ?_⟩
  obtain ⟨⟨r, d, e, rfl⟩, -⟩ := h
  rw [State.keep_settle]

/-- CLR_COUNTS on a page that is not locked. -/
theorem clrCounts_next {s u : State} {t : PT} {pg : Page} {r : PageRow} {part_ : Option (Fin 16)} {l : List Nat} {a : Nat}
    (hu : u = s.arrive t) (ha : a = pageBase pg) (hp : pageRow? u.variant a = some r) (hlock : u.locked a = false)
    (hl : l = (countRegs r.kind (part_.map fun x => x.val)).map fun o => a + o) :
    ∃ s', exec (.clrCounts t pg part_) s = .next s' ∧ (∀ o ∈ countRegs r.kind (part_.map fun x => x.val), s'.rd (a + o) = 0) ∧
      (r.kind = .events → part_ = none → s'.ev.lost = 0) ∧
      (isPkg a = true ∨ pageNo a < 8 ∨ 0xF ≤ pageNo a → u.sameRegs s' l) ∧ u.samePages s' [a] ∧
      s' = { u with regs := s'.regs, dacAt := s'.dacAt, ev := s'.ev } := by
  obtain ⟨hzero, hsame, hclips⟩ := zero_pageSync hp (ha ▸ pageBase_mod pg) hl
  obtain ⟨⟨e, hx⟩, hlost⟩ := u.countsCleared_only a l (r.kind == .events && part_.isNone)
  have hout : u.onlyClips (u.countsCleared a l (r.kind == .events && part_.isNone)) a := by
    rw [hx]
    exact hclips.trans ⟨⟨_, _, e, rfl⟩, fun c _ => State.reg_ev _ e c⟩
  have hreg : ∀ c, (u.keep (u.countsCleared a l (r.kind == .events && part_.isNone)).settle).reg c =
      ((u.pageSync a).zero l).reg c := fun c => by
    rw [State.reg_keep_settle hout.variant, hx, State.reg_ev]
  refine pageCommand_next hu rfl (ha ▸ hp) ((State.command_unlocked (ha ▸ hlock) _).trans (by subst ha hl; rfl))
    ⟨fun o ho => ?_, fun hk hpart => ?_, fun hpage c hc => ?_, hout.keep⟩
  · exact (State.rd_of_reg (hreg _)).trans (hzero o ho)
  · rw [State.keep_ev, State.settle_ev_lost]
    exact hlost (by rw [hk, hpart]; rfl)
  · exact (hreg c).trans (hsame hpage c hc)

/-! ### Vectors in holdoff (R378) -/

/-- A masked vector's message waits as its pending bit; else it goes out. -/
theorem EvSt.message_cases (e : EvSt) (v : Nat) : (e.message v).holdoff = e.holdoff ∧
    (e.msixWord (4 * v + 3) % 2 = 1 → (e.message v).sent = e.sent ∧ (e.message v).pba = setPut e.pba v true) ∧
    (e.msixWord (4 * v + 3) % 2 = 0 → (e.message v).sent = mapSet (fun _ => 0) e.sent v (mapGet (fun _ => 0) e.sent v + 1) ∧
      (e.message v).pba = setPut e.pba v false) := by
  unfold EvSt.message EvSt.hostWr
  split
  · next hm => exact ⟨rfl, fun _ => ⟨rfl, rfl⟩, fun h => absurd hm (by omega)⟩
  · next hm => exact ⟨rfl, fun h => absurd h hm, fun _ => ⟨rfl, rfl⟩⟩

/-- A message of a vector leaves the pending bit and the count of every other vector. -/
theorem EvSt.message_ne (e : EvSt) {v w : Nat} (h : w ≠ v) :
    mapGet (fun _ => 0) (e.message v).sent w = mapGet (fun _ => 0) e.sent w ∧ setHas (e.message v).pba w = setHas e.pba w := by
  obtain ⟨-, hmask, hout⟩ := e.message_cases v
  rcases Nat.mod_two_eq_zero_or_one (e.msixWord (4 * v + 3)) with hm | hm
  · rw [(hout hm).1, (hout hm).2]
    exact ⟨mapGet_mapSet_ne _ _ _ h, setHas_setPut_ne _ _ h⟩
  · rw [(hmask hm).1, (hmask hm).2]
    exact ⟨rfl, setHas_setPut_ne _ _ h⟩

/-- A trigger of a vector without a holdoff sends its message. -/
theorem EvSt.fire_free {e : EvSt} {v : Nat} (now hold : Nat) (h : mapGet (fun _ => none) e.holdoff v = none) :
    (e.fire v now hold).sent = (e.message v).sent ∧ (e.fire v now hold).pba = (e.message v).pba := by
  simp only [EvSt.fire, h, and_self]

/-- A trigger of a vector leaves every other vector's holdoff, count and pending bit. -/
theorem EvSt.fire_ne (e : EvSt) {v w : Nat} (now hold : Nat) (h : w ≠ v) :
    mapGet (fun _ => none) (e.fire v now hold).holdoff w = mapGet (fun _ => none) e.holdoff w ∧
      mapGet (fun _ => 0) (e.fire v now hold).sent w = mapGet (fun _ => 0) e.sent w ∧
      setHas (e.fire v now hold).pba w = setHas e.pba w := by
  have hput : ∀ x : Option Holdoff, mapGet (fun _ => none) (mapSet (fun _ => none) e.holdoff v x) w =
      mapGet (fun _ => none) e.holdoff w := fun x => mapGet_mapSet_ne _ _ _ h
  unfold EvSt.fire
  split
  · split
    · exact ⟨by dsimp only; exact hput _, rfl, rfl⟩
    · exact ⟨by dsimp only; split <;> exact hput _, e.message_ne h⟩
  · exact ⟨by dsimp only; split; exacts [rfl, hput _], e.message_ne h⟩

/-- FAULT_N reaches vector 0 alone. -/
theorem State.settle_vector (s : State) {w : Nat} (hw : w ≠ 0) :
    mapGet (fun _ => none) s.settle.ev.holdoff w = mapGet (fun _ => none) s.ev.holdoff w ∧
      mapGet (fun _ => 0) s.settle.ev.sent w = mapGet (fun _ => 0) s.ev.sent w ∧
      setHas s.settle.ev.pba w = setHas s.ev.pba w := by
  unfold State.settle
  split
  · exact ⟨rfl, rfl, rfl⟩
  · exact s.ev.fire_ne s.now (s.holdK 0) hw

/-- The end of a holdoff. -/
def State.holdoffEnd (s : State) (w : Nat) : State :=
  { s with ev := { s.ev with holdoff := mapSet (fun _ => none) s.ev.holdoff w none } }

/-- It leaves the vector without a holdoff, and what it sent and its mask as they were. -/
theorem State.holdoffEnd_ev (s : State) (w : Nat) : mapGet (fun _ => none) (s.holdoffEnd w).ev.holdoff w = none ∧
    (s.holdoffEnd w).ev.sent = s.ev.sent ∧ ∀ i, (s.holdoffEnd w).ev.msixWord i = s.ev.msixWord i :=
  ⟨by dsimp only [State.holdoffEnd]; exact mapGet_mapSet_same _ _ _ _, rfl, fun _ => rfl⟩

/-- HOLDOFF_EXPIRY ends a holdoff whose time is over, and triggers the vector if a trigger fell within it. -/
theorem holdoffExpiry_next {s u : State} {t : PT} {w : Fin 1152} {h : Holdoff} {P : State → Prop} (hu : u = s.arrive t)
    (hw : mapGet (fun _ => none) u.ev.holdoff w = some h) (hle : h.until_ ≤ u.now)
    (hP : P (u.keep (if h.again then (u.holdoffEnd w).fire w else u.holdoffEnd w).settle)) :
    ∃ s', exec (.holdoffExpiry t w) s = .next s' ∧ P s' := by
  rw [exec_holdoffExpiry, execHoldoffExpiry]
  exact runAt_next (by rw [← hu, hw]; simp only [hle, if_true]; rfl) (hu ▸ hP)

/-- The trigger that fell within a holdoff is sent at its end, or waits while its vector is masked. -/
theorem State.holdoffEnd_fire (u : State) (w : Nat) :
    (u.ev.msixWord (4 * w + 3) % 2 = 0 →
      mapGet (fun _ => 0) ((u.holdoffEnd w).fire w).ev.sent w = mapGet (fun _ => 0) u.ev.sent w + 1) ∧
    (u.ev.msixWord (4 * w + 3) % 2 = 1 → setHas ((u.holdoffEnd w).fire w).ev.pba w = true) := by
  obtain ⟨hnone, hsent, hword⟩ := u.holdoffEnd_ev w
  obtain ⟨hs, hp⟩ := EvSt.fire_free (u.holdoffEnd w).now ((u.holdoffEnd w).holdK w) hnone
  obtain ⟨-, hmask, hout⟩ := (u.holdoffEnd w).ev.message_cases w
  rw [hword, hsent] at hout
  rw [hword] at hmask
  rw [State.fire]
  refine ⟨fun h => ?_, fun h => ?_⟩
  · rw [hs, (hout h).1]
    exact mapGet_mapSet_same _ _ _ _
  · rw [hp, (hmask h).2]
    exact setHas_setPut_same _ _ _

/-- Neither reaches anything but the events. -/
theorem State.holdoffEnd_only (u : State) (w : Nat) (c : Bool) :
    ∃ e, (if c then (u.holdoffEnd w).fire w else u.holdoffEnd w) = { u with ev := e } := by
  cases c
  · exact ⟨_, rfl⟩
  · exact ⟨_, rfl⟩

/-- So a holdoff without a trigger only ends, and one with a trigger ends in its message. -/
theorem holdoffExpiry_ends {s u : State} {t : PT} {w : Fin 1152} {h : Holdoff} (hu : u = s.arrive t) (hw : w.val ≠ 0)
    (hhold : mapGet (fun _ => none) u.ev.holdoff w = some h) (hle : h.until_ ≤ u.now) :
    ∃ s', exec (.holdoffExpiry t w) s = .next s' ∧
      (h.again = false → mapGet (fun _ => none) s'.ev.holdoff w = none ∧
        mapGet (fun _ => 0) s'.ev.sent w = mapGet (fun _ => 0) u.ev.sent w) ∧
      (h.again = true → u.ev.msixWord (4 * w + 3) % 2 = 0 →
        mapGet (fun _ => 0) s'.ev.sent w = mapGet (fun _ => 0) u.ev.sent w + 1) ∧
      (h.again = true → u.ev.msixWord (4 * w + 3) % 2 = 1 → setHas s'.ev.pba w = true) ∧ s' = { u with ev := s'.ev } := by
  obtain ⟨e, honly⟩ := u.holdoffEnd_only w h.again
  obtain ⟨hnone, hsent, -⟩ := u.holdoffEnd_ev w
  obtain ⟨hgo, hwait⟩ := u.holdoffEnd_fire w
  obtain ⟨hh, hs, hp⟩ := State.settle_vector (if h.again then (u.holdoffEnd w).fire w else u.holdoffEnd w) hw
  refine holdoffExpiry_next hu hhold hle ?_
  rw [State.keep_ev, hh, hs, hp]
  refine ⟨fun ha => ?_, fun ha hm => ?_, fun ha hm => ?_, ?_⟩
  · rw [ha, if_neg Bool.false_ne_true]
    exact ⟨hnone, by rw [hsent]⟩
  · rw [if_pos ha]
    exact hgo hm
  · rw [if_pos ha]
    exact hwait hm
  · rw [honly, State.keep_settle]

/-! ### The scrubber (R17, R18) -/

/-- The CONTINUITY page that counts the errors of a bent's memories. -/
theorem conPg_of_mb (b : Fin 8) (o : Fin 0x80000000) : conPg b = bp (mb b o / 0x80000000) 0x18 := by
  have hb : mb b o / 0x80000000 = b := by
    unfold mb; omega
  rw [hb]

/-- Settles O38: each command is its effect on the page (`pageCommand_next`), and each effect is said once above. -/
theorem pageEvents : Obligations.PageEvents := by
  unfold Obligations.PageEvents
  intro s u t pg r a hi v hu ha hrow
  subst ha
  refine ⟨?_, fun hlock => ?_, fun e hlock he => ?_, fun part_ hlock => ?_, fun w h hw hhold hle => ?_, fun b o hm hp => ?_⟩
  · exact eventBits_next hu rfl hrow rfl (fun _ _ => rfl) (fun _ _ => ⟨_, rfl⟩)
  · exact eventBits_next hu rfl hrow (State.command_unlocked hlock _) (fun s i => (s.raiseAt_raw_standing _ _ _ _ _).1)
      (fun s i => s.raiseAt_ev _ _ _ _ _)
  · refine pageCommand_next hu rfl hrow (State.evtEnable_unlocked hlock he r v) ⟨fun i hi' => ?_, ?_, ?_⟩
    · rw [State.bit_of_reg (State.reg_keep_settle (u.onlyRegs_wr e _).variant e)]
      exact u.bit_evtEn e r hi v hi'
    · exact State.sameRegs_keep (fun c hc => u.reg_wr_ne _ (by simpa using hc)) rfl
    · exact (u.onlyRegs_wr e _).keep
  · exact clrCounts_next hu rfl hrow hlock rfl
  · exact holdoffExpiry_ends hu hw hhold hle
  · have hb := conPg_of_mb b o
    exact ⟨eccCheck_good hu rfl hm hp rfl, eccCheck_corrected hu rfl hm hp hb rfl, eccCheck_uncorrectable hu rfl hm hp hb rfl⟩

end Sys2Proof.Machine
end

section
/-!
PROOFS. SequencerIssue (R18, R129, R130, R133, R157, R175, R207): the fetch of a step, and the timed steps, which send their
peg or wait for their lead.
-/

namespace Sys2Proof.Machine

/-! ### Outcomes that put one sequencer -/

/-- An outcome that puts one sequencer's state shows it, and the others as they were. -/
theorem State.seq_keepMem_setSeq {u x : State} (hx : x.seqs = u.seqs) (k : Nat) (z : SeqSt) :
    (u.keepMem (x.setSeq k z).settle).seq k = z ∧ u.sameSeqs (u.keepMem (x.setSeq k z).settle) k := by
  refine ⟨by simp, fun j hj => ?_⟩
  rw [State.seq_keepMem, State.seq_settle, State.seq_setSeq_ne _ _ _ _ hj, State.seq, State.seq, hx]

/-- A command that reached the registers and the events, and put one sequencer's state, leaves all else. -/
theorem State.onlyRegs.keepMem_setSeq {u x : State} (h : u.onlyRegs x) (k : Nat) (z : SeqSt) :
    u.keepMem (x.setSeq k z).settle = { u with
      seqs := (u.keepMem (x.setSeq k z).settle).seqs
      regs := (u.keepMem (x.setSeq k z).settle).regs
      ev := (u.keepMem (x.setSeq k z).settle).ev } := by
  obtain ⟨r, e, rfl⟩ := h
  rw [State.keepMem_settle]
  rfl

/-- One that only put a sequencer's state leaves the registers too. -/
theorem State.keepMem_setSeq_only (u : State) (k : Nat) (z : SeqSt) : u.keepMem (u.setSeq k z).settle = { u with
    seqs := (u.keepMem (u.setSeq k z).settle).seqs, ev := (u.keepMem (u.setSeq k z).settle).ev } := by
  rw [State.keepMem_settle]
  rfl

/-- Putting a sequencer's state leaves the registers. -/
theorem State.reg_keepMem_setSeq {u x : State} (hv : x.variant = u.variant) (k : Nat) (z : SeqSt) (a : Nat) :
    (u.keepMem (x.setSeq k z).settle).reg a = x.reg a :=
  (State.reg_keepMem_settle (x := x.setSeq k z) hv a).trans (State.reg_setSeq x k z a)

/-! ### The fetch (R18, R129) -/

/-- A check that finds no error changes nothing. -/
theorem State.eccRead_good (s : State) (a : Nat) : s.eccRead a .good = s := rfl

/-- Registers and events hold no byte of the memories and no poison mark. -/
theorem State.onlyRegs.memory {u x : State} (h : u.onlyRegs x) (a n : Nat) :
    x.memRd a n = u.memRd a n ∧ x.poisoned a n = u.poisoned a n ∧ x.seqs = u.seqs := by
  obtain ⟨_, _, rfl⟩ := h
  exact ⟨rfl, rfl, rfl⟩

/-- A sequencer in a shot that has no step, and no peg that waits, takes the next step, unless it is reserved or poisoned. -/
theorem stepFetch_next {s u x : State} {t : PT} {b : Fin 8} {q : Fin 16} {a w : Nat} {ecc : Ecc} {P : State → Prop}
    (hu : u = s.arrive t) (hphase : (u.seq (seqNo b q)).phase = .inShot) (hcur : (u.seq (seqNo b q)).cur = none)
    (hwait : u.pegWaits (seqNo b q) = false) (ha : a = (u.seq (seqNo b q)).stepAddr) (hlt : a < 131072)
    (hx : u.eccRead (stepAddrOf (seqNo b q) a) ecc = x) (honly : u.onlyRegs x)
    (hw : w = u.memRd (stepAddrOf (seqNo b q) a) 16) (hpoison : u.poisoned (stepAddrOf (seqNo b q) a) 16 = false)
    (hres : stReserved w = false)
    (h : P (u.keepMem (x.setSeq (seqNo b q) { u.seq (seqNo b q) with cur := some w, curAddr := a, stepAddr := a + 1 }).settle)) :
    ∃ s', exec (.stepFetch t b q ecc) s = .next s' ∧ P s' := by
  obtain ⟨hrd, hmark, -⟩ := honly.memory (stepAddrOf (seqNo b q) a) 16
  have hready : ((u.seq (seqNo b q)).phase == .inShot && (u.seq (seqNo b q)).cur.isNone && !u.pegWaits (seqNo b q)) = true := by
    rw [hphase, hcur, hwait]
    rfl
  rw [exec_stepFetch, execStepFetch]
  refine runMem_next ?_ (hu ▸ h)
  rw [← hu]
  simp only [hready, if_true, ← ha, hx, hrd, hmark, hpoison, ← hw, hres, Bool.false_eq_true, if_false]
  exact if_neg (by omega)

/-- The step memory of a bent counts its errors on the bent's CONTINUITY page. -/
theorem contPg_of_stepAddr {k a : Nat} (h : a < 131072) : contPg k = bp (stepAddrOf k a / 0x80000000) 0x18 := by
  have hk : stepAddrOf k a / 0x80000000 = k / 16 := by
    unfold stepAddrOf mb; omega
  rw [hk]

/-! ### Timed steps (R130, R133) -/

/-- The PT of a timed step's peg: the cursor plus its offset, a SEGMENT's rounded up to a granule boundary. -/
def State.stepPt (s : State) (k w : Nat) (round : Bool) : Nat :=
  if round then s.granCeil (ptAdd (s.seq k).cursor (stOfs w)) else ptAdd (s.seq k).cursor (stOfs w)

/-- A fetched step of an opcode runs. -/
theorem State.onStep_of_stepAt {s : State} {k w op : Nat} (h : s.stepAt k w op) (f : State → SeqSt → Nat → State) :
    s.onStep k op f = f s (s.seq k) w := by
  obtain ⟨hphase, hcur, hop⟩ := h
  simp [State.onStep, hphase, hcur, hop]

section Timed

variable {s u : State} {t : PT} {c : Instr} {k w op pt : Nat} {round : Bool} {f : State → Nat → Nat}
  (hu : u = s.arrive t) (hc : exec c s = runMem t s fun s => s.timedStep k op round f) (hs : u.stepAt k w op)
  (hl : u.laneValid (stLane w) = true) (hpt : pt = u.stepPt k w round)

include hs hl hpt in
/-- A timed step to a lane of the package waits while its PT is beyond LEAD_MAX, and else sends its peg. -/
theorem State.timedStep_valid : u.timedStep k op round f = if u.now + u.leadMax k < pt then
      u.setSeq k { u.seq k with runAheadWait := true }
    else (u.offer (stLane w) { pt := pt, payload := f u w, owner := (u.seq k).owner k, trig := false }).stepDone k (u.seq k) := by
  rw [State.timedStep, State.onStep_of_stepAt hs, hpt]
  simp only [hl, Bool.not_true, Bool.false_eq_true, if_false]
  rfl

include hu hc hs hl hpt

/-- Within LEAD_MAX the peg is on its way to the lane, and the step is done. -/
theorem timedStep_sends {payload : Nat} (hpay : payload = f u w) (hlead : pt ≤ u.now + u.leadMax k) :
    ∃ s', exec c s = .next s' ∧ s'.inFlight (stLane w) = u.inFlight (stLane w) ++
        [{ pt := pt, payload := payload, owner := (u.seq k).owner k, trig := false }] ∧
      s'.seq k = { u.seq k with cur := none, runAheadWait := false } ∧ u.sameSeqs s' k ∧
      (∀ l, l ≠ stLane w → s'.inFlight l = u.inFlight l) ∧ s' = { u with flight := s'.flight, seqs := s'.seqs, ev := s'.ev } := by
  have hstep := State.timedStep_valid (f := f) hs hl hpt
  rw [if_neg (by omega), State.offer, State.stepDone, ← hpay] at hstep
  rw [hc]
  refine runMem_next (hu ▸ hstep) (hu ▸ ?_)
  obtain ⟨hseq, hsame⟩ := State.seq_keepMem_setSeq (u := u) (x := u.setFlight (stLane w) (u.inFlight (stLane w) ++
    [{ pt := pt, payload := payload, owner := (u.seq k).owner k, trig := false }])) rfl k
    { u.seq k with cur := none, runAheadWait := false }
  refine ⟨?_, hseq, hsame, fun l hne => ?_, ?_⟩
  · rw [State.inFlight_keepMem, State.inFlight_settle, State.inFlight_setSeq, State.inFlight_setFlight_same]
  · rw [State.inFlight_keepMem, State.inFlight_settle, State.inFlight_setSeq, State.inFlight_setFlight_ne _ _ _ _ hne]
  · rw [State.keepMem_settle]
    rfl

/-- Beyond it the sequencer waits, and shows that it has run ahead. -/
theorem timedStep_waits (hlead : u.now + u.leadMax k < pt) : ∃ s', exec c s = .next s' ∧
    s'.seq k = { u.seq k with runAheadWait := true } ∧ u.sameSeqs s' k ∧ s' = { u with seqs := s'.seqs, ev := s'.ev } := by
  have hstep := State.timedStep_valid (f := f) hs hl hpt
  rw [if_pos hlead] at hstep
  rw [hc]
  refine runMem_next (hu ▸ hstep) (hu ▸ ?_)
  obtain ⟨hseq, hsame⟩ := State.seq_keepMem_setSeq (u := u) rfl k { u.seq k with runAheadWait := true }
  exact ⟨hseq, hsame, u.keepMem_setSeq_only k _⟩

end Timed

/-- Settles O22: the fetch with what the check of the word finds, and the four timed steps as one (`timedStep_sends`,
`timedStep_waits`). -/
theorem sequencerIssue : Obligations.SequencerIssue := by
  unfold Obligations.SequencerIssue
  intro s u t b q k hu hk
  subst hk
  refine ⟨fun w hphase hcur hwait hlt hw hpoison hres => ⟨?_, ?_⟩, fun w op pt payload c hs hl hlead hc => ?_,
    fun w op pt c hs hl hlead hc => ?_⟩
  · refine stepFetch_next hu hphase hcur hwait rfl hlt (u.eccRead_good _) (.refl u) hw hpoison hres ?_
    obtain ⟨hseq, hsame⟩ := State.seq_keepMem_setSeq (u := u) rfl (seqNo b q) { u.seq (seqNo b q) with
      cur := some w, curAddr := (u.seq (seqNo b q)).stepAddr, stepAddr := (u.seq (seqNo b q)).stepAddr + 1 }
    exact ⟨hseq, hsame, u.keepMem_setSeq_only _ _⟩
  · obtain ⟨hcount, -, hregs, honly⟩ := u.eccRead_corrected _ (contPg_of_stepAddr (k := seqNo b q) hlt)
    obtain ⟨-, -, hseqs⟩ := honly.memory 0 0
    have hreg := State.reg_keepMem_setSeq honly.variant (seqNo b q) { u.seq (seqNo b q) with
      cur := some w, curAddr := (u.seq (seqNo b q)).stepAddr, stepAddr := (u.seq (seqNo b q)).stepAddr + 1 }
    obtain ⟨hseq, hsame⟩ := State.seq_keepMem_setSeq hseqs (seqNo b q) { u.seq (seqNo b q) with
      cur := some w, curAddr := (u.seq (seqNo b q)).stepAddr, stepAddr := (u.seq (seqNo b q)).stepAddr + 1 }
    refine stepFetch_next hu hphase hcur hwait rfl hlt rfl honly hw hpoison hres
      ⟨by rw [hseq], (State.rd_of_reg (hreg _)).trans hcount, fun a ha => (hreg a).trans (hregs a ha), hsame,
        honly.keepMem_setSeq _ _⟩
  · rcases hc with ⟨rfl, rfl, hpt, hpay⟩ | ⟨rfl, rfl, hpt, hpay⟩ | ⟨rfl, rfl, hpt, hpay⟩ | ⟨rfl, rfl, hpt, hpay⟩
    · exact timedStep_sends hu rfl hs hl (round := false) hpt hpay hlead
    · exact timedStep_sends hu rfl hs hl (round := false) hpt hpay hlead
    · exact timedStep_sends hu rfl hs hl (round := true) hpt hpay hlead
    · exact timedStep_sends hu rfl hs hl (round := false) hpt hpay hlead
  · rcases hc with ⟨hpt, ⟨rfl, rfl⟩ | ⟨rfl, rfl⟩ | ⟨rfl, rfl⟩⟩ | ⟨hpt, rfl, rfl⟩
    · exact timedStep_waits hu rfl hs hl (round := false) hpt hlead
    · exact timedStep_waits hu rfl hs hl (round := false) hpt hlead
    · exact timedStep_waits hu rfl hs hl (round := false) hpt hlead
    · exact timedStep_waits hu rfl hs hl (round := true) hpt hlead

end Sys2Proof.Machine
end

section
/-!
PROOFS. PT and the ridge (R24, R30, R31, R33, R89, R335): what a step leaves of the queue, the part, PT and the ridge.
-/

namespace Sys2Proof.Machine

/-! ### What a command leaves of the queue, the part, PT and the ridge -/

/-- A command's outcome leaves the queue and the part, and puts PT with the lattice and the ridge. -/
def State.ran (s : State) (o : Out) (k : Clk) (r : Nat) : Prop :=
  ∃ s', o = .next s' ∧ s'.pending = s.pending ∧ s'.variant = s.variant ∧ s'.clk = k ∧ s'.ridge = r

theorem State.ran_keep (s x : State) (t : PT) : s.ran (.next ((s.arrive t).keep x)) (s.arrive t).clk s.ridge :=
  ⟨_, rfl, by simp, by simp, by simp, by simp⟩

theorem State.ran_keepMem (s x : State) (t : PT) : s.ran (.next ((s.arrive t).keepMem x)) (s.arrive t).clk s.ridge :=
  ⟨_, rfl, by simp, by simp, by simp, by simp⟩

/-- The commands that can put PT, the lattice or the ridge beyond PT's own advance. -/
def putsClk : Instr → Bool
  | .lockWindow .. | .joinComplete .. | .election .. | .purlinHandover .. | .resetN .. | .por .. => true
  | _ => false

/-- Every other command only lets PT advance to its instant. -/
theorem exec_ran_arrive {c : Instr} (h : putsClk c = false) (s : State) :
    ∃ t, s.ran (exec c s) (s.arrive t).clk s.ridge := by
  cases c
  case lockWindow | joinComplete | election | purlinHandover | resetN | por => cases h
  case segmentBoundary | ringGranuleTaken | underrun | seqStop | admitRequest | stepFetch | pegStep | playStep | segmentStep | captureStep | branch | verdictTimeout | loopStep | callStep | returnStep | syncStep | syncTimeout | endShot | haltStep | shotTrigger | parityFault | shotDone | windowEnd | contBlock | shadowBlock | playPeg | tiuArmPeg | tiuDisarmPeg | tiuArm | tiuDisarm | tiuMeasurement | tiuTimeout | gateDone | signDone | sillReacquireTimeout | relock | pageDisable | pageDrain | pageFence | pegAccept | commit | commitApply | bar2Write | bentFence | bentDrain | tunnelledWrite | heartbeatLoss | purlinMarker | regFrame | dmaDescriptor | bist => exact ⟨_, s.ran_keepMem _ _⟩
  all_goals exact ⟨_, s.ran_keep _ _⟩

/-- So do the commands that put PT and the lattice, and those that put the ridge too. -/
theorem runClk_ran (t : PT) (s : State) (c : State → Clk) (f : State → State) :
    s.ran (runClk t s c f) (c (s.arrive t)) s.ridge := ⟨_, rfl, by simp, by simp, by simp, by simp⟩

theorem runRidge_ran (t : PT) (s : State) (c : State → Clk) (r : State → Nat) (f : State → State) :
    s.ran (runRidge t s c r f) (c (s.arrive t)) (r (s.arrive t)) := ⟨_, rfl, by simp, by simp, by simp, by simp⟩

/-- What converters have emitted, accounted for, leaves the queue, the part and the ridge. -/
theorem State.syncAll_frame (s : State) (x : Nat) : (s.syncAll x).pending = s.pending ∧ (s.syncAll x).variant = s.variant ∧
    (s.syncAll x).ridge = s.ridge := by
  have hframe : (fun y : State => (y.pending, y.variant, y.ridge)) (s.syncAll x) = (s.pending, s.variant, s.ridge) := by
    refine foldl_frame (fun y : State => (y.pending, y.variant, y.ridge)) _ (fun s b => ?_) _ s
    refine foldl_frame (fun y : State => (y.pending, y.variant, y.ridge)) _ (fun s i => ?_) _ s
    obtain ⟨⟨r, d, e, h⟩, -⟩ := s.onlyClips_syncPage b (8 + i) x
    rw [h]
  simpa using hframe

/-- A lock window puts PT and the lattice as `windowClk` says. -/
theorem lockWindow_ran (t : PT) (b : Fin 8) (k : Fin 2) (before : List Nat) (last : Nat) (s : State) :
    s.ran (exec (.lockWindow t b k before last) s) ((s.arrive t).windowClk b k (before ++ [last])) s.ridge := by
  have hbefore : (s.beforeRelock t b k (before ++ [last])).pending = s.pending ∧
      (s.beforeRelock t b k (before ++ [last])).variant = s.variant ∧
      (s.beforeRelock t b k (before ++ [last])).ridge = s.ridge := by
    unfold State.beforeRelock
    split
    · simpa using (s.arrive t).syncAll_frame (s.arrive t).now
    · exact ⟨rfl, rfl, rfl⟩
  obtain ⟨hp, hv, hr⟩ := hbefore
  rw [exec_lockWindow, execLockWindow]
  obtain ⟨s', hs', hp', hv', hc', hr'⟩ := runClk_ran t (s.beforeRelock t b k (before ++ [last])) _ _
  exact ⟨s', hs', hp'.trans hp, hv'.trans hv, hc', hr'.trans hr⟩

/-- The PT that a join takes up, where this package joins and can. -/
def State.joinClk (s : State) (child : Option (Fin 16)) (sent o : PT) : Clk :=
  if child.isNone && s.joins then { s.clk with now := s.joinPt sent.toNat, o := o.toNat } else s.clk

theorem joinComplete_ran (t : PT) (child : Option (Fin 16)) (sent o : PT) (s : State) :
    s.ran (exec (.joinComplete t child sent o) s) ((s.arrive t).joinClk child sent o) s.ridge := by
  rw [exec_joinComplete, execJoinComplete]; exact runClk_ran t s _ _

theorem election_ran (t : PT) (s : State) :
    s.ran (exec (.election t) s) (s.arrive t).clk (s.arrive t).electedRidge := by
  rw [exec_election]; exact runRidge_ran t s _ _ _

theorem purlinHandover_ran (t : PT) (s : State) :
    s.ran (exec (.purlinHandover t) s) (s.arrive t).clk (s.arrive t).handedRidge := by
  rw [exec_purlinHandover]; exact runRidge_ran t s _ _ _

theorem resetN_ran (t : PT) (long : Bool) (s : State) : s.ran (exec (.resetN t long) s)
    (if long then Clk.reset else (s.arrive t).clk) (if long then 0 else (s.arrive t).ridge) := by
  rw [exec_resetN]; exact runRidge_ran t s _ _ _

theorem por_ran (t : PT) (s : State) : s.ran (exec (.por t) s) Clk.reset 0 := by
  rw [exec_por]; exact runRidge_ran t s _ _ _

/-! ### The invariant of a run (R24, R30, R335) -/

/-- PT counts below 2^80, and stands at 0 until it starts. -/
def Clk.ok (k : Clk) : Bool := decide (k.now < 2 ^ 80) && (k.running || decide (k.now = 0))

theorem State.clkOk_eq (s : State) : s.clkOk = s.clk.ok := rfl

theorem Clk.ok_start (k : Clk) : k.start.ok = true := rfl

/-- A lock window leaves PT where it is, or starts it at 0. -/
theorem State.windowClk_ok {u : State} (h : u.clk.ok = true) (b k : Nat) (edges : List Nat) :
    (u.windowClk b k edges).ok = true := by
  unfold State.windowClk
  split
  · exact u.clk.ok_start
  split
  · split <;> exact h
  · exact h

/-- A PT that is joined counts below 2^80, and only a PT that runs is. -/
theorem State.joinClk_ok {u : State} (h : u.clk.ok = true) (child : Option (Fin 16)) (sent o : PT) :
    (u.joinClk child sent o).ok = true := by
  unfold State.joinClk
  split
  · next hgo =>
    have hrun : u.clk.running = true := by
      simp only [State.joins, State.joinReady, Bool.and_eq_true] at hgo
      obtain ⟨-, ⟨⟨⟨⟨⟨hrun, -⟩, -⟩, -⟩, -⟩, -⟩, -⟩ := hgo
      exact hrun
    have hlt : u.joinPt sent.toNat < 2 ^ 80 := Nat.mod_lt _ (by decide)
    simp only [Clk.ok, hrun, decide_eq_true hlt, Bool.true_or, Bool.and_self]
  · exact h

theorem State.has_zero (s : State) : s.has 0 = true := by
  unfold State.has
  cases s.variant <;> rfl

/-- An election takes a bent of the package. -/
theorem State.has_electedRidge {s : State} (h : s.has s.ridge = true) : s.has s.electedRidge = true := by
  unfold State.electedRidge
  split
  · exact h
  · cases hc : s.firstCandidate with
    | none => exact h
    | some c =>
      have hmem := List.mem_of_find?_eq_some hc
      exact decide_eq_true (List.mem_range.mp hmem)

/-- A handover goes to a bent of the package. -/
theorem State.has_handedRidge {s : State} (h : s.has s.ridge = true) : s.has s.handedRidge = true := by
  unfold State.handedRidge
  cases hm : s.migTo with
  | none => exact h
  | some m =>
    rw [State.migTo, Option.filter_eq_some_iff, Bool.and_eq_true] at hm
    exact hm.2.1

/-- What keeps the invariant: the queue and the part as they were, PT within its bounds, and a ridge that the package has. -/
def State.safe (s : State) (o : Out) : Prop :=
  ∃ s', o = .next s' ∧ s'.pending = s.pending ∧ s'.variant = s.variant ∧ (s.clkOk = true → s'.clkOk = true) ∧
    (s.has s.ridge = true → s'.has s'.ridge = true)

theorem State.ran.safe {s : State} {o : Out} {k : Clk} {r : Nat} (h : s.ran o k r) (hk : s.clkOk = true → k.ok = true)
    (hr : s.has s.ridge = true → s.has r = true) : s.safe o := by
  obtain ⟨s', hs', hp, hv, rfl, rfl⟩ := h
  exact ⟨s', hs', hp, hv, hk, fun hs => by rw [State.has, hv]; exact hr hs⟩

/-- Every command keeps the invariant. -/
theorem exec_safe (c : Instr) (s : State) : s.safe (exec c s) := by
  have hhas : ∀ (t : PT) (b : Nat), (s.arrive t).has b = s.has b := fun t b => by simp [State.has]
  cases hc : putsClk c with
  | false =>
    obtain ⟨t, h⟩ := exec_ran_arrive hc s
    exact h.safe (s.clkOk_arrive t) id
  | true =>
    cases c
    case lockWindow t b k before last =>
      exact (lockWindow_ran t b k before last s).safe (fun h => State.windowClk_ok (s.clkOk_arrive t h) _ _ _) id
    case joinComplete t child sent o =>
      exact (joinComplete_ran t child sent o s).safe (fun h => State.joinClk_ok (s.clkOk_arrive t h) _ _ _) id
    case election t =>
      refine (election_ran t s).safe (s.clkOk_arrive t) fun h => ?_
      rw [← hhas t]
      exact State.has_electedRidge (by simpa [hhas] using h)
    case purlinHandover t =>
      refine (purlinHandover_ran t s).safe (s.clkOk_arrive t) fun h => ?_
      rw [← hhas t]
      exact State.has_handedRidge (by simpa [hhas] using h)
    case resetN t long =>
      cases long with
      | true => exact (resetN_ran t true s).safe (fun _ => rfl) fun _ => s.has_zero
      | false => exact (resetN_ran t false s).safe (s.clkOk_arrive t) fun h => by simpa using h
    case por t => exact (por_ran t s).safe (fun _ => rfl) fun _ => s.has_zero
    all_goals cases hc

/-! ### A tick of the lattice (log entry 3) -/

/-- An idle step reaches PT alone, and only once it runs. -/
theorem State.idle_only (s : State) : s.idle = { s with clk := { s.clk with now := s.idle.clk.now } } := by
  unfold State.idle
  split <;> rfl

theorem State.idle_stopped {s : State} (h : s.clk.running = false) : s.idle = s := by simp [State.idle, h]

theorem State.idle_runs {s : State} (h : s.clk.running = true) (hlt : s.clk.now + s.clk.n < 2 ^ 80) :
    s.idle.clk.now = s.clk.now + s.clk.n := by
  rw [State.idle, if_pos (by rw [h, decide_eq_true hlt]; rfl)]

/-- A tick keeps PT below 2^80. -/
theorem State.clkOk_idle {s : State} (h : s.clkOk = true) : s.idle.clkOk = true := by
  unfold State.idle
  split
  · next hrun =>
    rw [Bool.and_eq_true] at hrun
    simp only [State.clkOk_eq, Clk.ok, hrun.1, hrun.2, Bool.true_or, Bool.and_self]
  · exact h

/-- Settles O54: by the two arms of `step`. -/
theorem stepRunsTheQueue : Obligations.StepRunsTheQueue :=
  ⟨fun c r s h => by rw [step, h], fun s h =>
    ⟨s.idle, by rw [step, h], State.idle_runs, State.idle_stopped, s.idle_only⟩⟩

/-- Settles O56: the empty queue's tick, and for the command at the front what every command keeps (`exec_safe`). -/
theorem everyStepAnswers : Obligations.EveryStepAnswers := by
  intro s
  cases hp : s.pending with
  | nil =>
    refine ⟨s.idle, by rw [step, hp], ?_, ?_, State.clkOk_idle, ?_⟩
    · rw [s.idle_only, hp]; rfl
    · rw [s.idle_only]
    · rw [s.idle_only]; exact id
  | cons c r =>
    obtain ⟨s', hs', hq, hv, hk, hr⟩ := exec_safe c { s with pending := r }
    exact ⟨s', by rw [step, hp]; exact hs', hq, hv, hk, hr⟩

/-! ### PT never steps back (R31, R33, R89) -/

/-- PT has only gone on, on the same lattice. -/
def Clk.advances (k k' : Clk) : Prop := k'.running = k.running ∧ k.now ≤ k'.now ∧ k'.n = k.n ∧ k'.o = k.o

theorem State.advances_arrive (s : State) (t : PT) : s.clk.advances (s.arrive t).clk := by
  refine ⟨?_, s.now_le_arrive t, ?_, ?_⟩ <;> (unfold State.arrive; split <;> rfl)

/-- A command with that outcome leaves PT as the outcome says. -/
theorem State.ran.clk {s s' : State} {o : Out} {k : Clk} {r : Nat} (h : s.ran o k r) (hs' : o = .next s') : s'.clk = k := by
  obtain ⟨y, hy, -, -, hk, -⟩ := h
  obtain rfl : y = s' := Host.Outcome.next.inj (hy.symm.trans hs')
  exact hk

/-- No command but the resets, the adoption of a tree's PT and a lock window does more to PT. -/
theorem exec_advances {c : Instr} {s s' : State} (h : exec c s = .next s') (hreset : ∀ t, c ≠ .resetN t true)
    (hpor : ∀ t, c ≠ .por t) (hjoin : ∀ t sent o, c ≠ .joinComplete t none sent o)
    (hlock : ∀ t b k before last, c ≠ .lockWindow t b k before last) : s.clk.advances s'.clk := by
  suffices harrive : ∃ t, s'.clk = (s.arrive t).clk by
    obtain ⟨t, ht⟩ := harrive
    exact ht ▸ s.advances_arrive t
  cases hc : putsClk c with
  | false =>
    obtain ⟨t, hran⟩ := exec_ran_arrive hc s
    exact ⟨t, hran.clk h⟩
  | true =>
    cases c
    case lockWindow t b k before last => exact absurd rfl (hlock t b k before last)
    case joinComplete t child sent o =>
      cases child with
      | none => exact absurd rfl (hjoin t sent o)
      | some p => exact ⟨t, (joinComplete_ran t (some p) sent o s).clk h⟩
    case election t => exact ⟨t, (election_ran t s).clk h⟩
    case purlinHandover t => exact ⟨t, (purlinHandover_ran t s).clk h⟩
    case resetN t long =>
      cases long with
      | true => exact absurd rfl (hreset t)
      | false => exact ⟨t, (resetN_ran t false s).clk h⟩
    case por t => exact absurd rfl (hpor t)
    all_goals cases hc

/-- While PT runs, a lock window leaves it where it is. -/
theorem State.windowClk_running {u : State} (h : u.clk.running = true) (b k : Nat) (edges : List Nat) :
    (u.windowClk b k edges).running = true ∧ (u.windowClk b k edges).now = u.clk.now := by
  have hstart : u.windowStarts b k edges = false := by simp [State.windowStarts, h]
  rw [State.windowClk, hstart, if_neg Bool.false_ne_true]
  split
  · split <;> exact ⟨h, rfl⟩
  · exact ⟨h, rfl⟩

/-- While PT runs, a lock window that locks no relock leaves the lattice. -/
theorem State.windowClk_same {u : State} {b k : Nat} {edges : List Nat} (h : u.clk.running = true)
    (hr : u.windowRelocks b k edges = false) : u.windowClk b k edges = u.clk := by
  simp [State.windowClk, State.windowStarts, h, hr]

/-- One that locks the ridge's active sill to the new lattice of a relock begins that lattice at the present PT (R89). -/
theorem State.windowClk_relocks {u : State} {b k n : Nat} {edges : List Nat} (h : u.clk.running = true)
    (hr : u.windowRelocks b k edges = true) (hn : u.tb.relock = some (n, none)) :
    u.windowClk b k edges = { now := u.now, running := true, n := n, o := u.now } := by
  simp [State.windowClk, State.windowStarts, h, hr, hn, State.now]

/-- Settles O57: every command but a lock window only lets PT advance (`exec_advances`); a lock window puts what `windowClk`
says. -/
theorem ptNeverStepsBack : Obligations.PtNeverStepsBack := by
  intro c s s' h hrun hreset hpor hjoin
  by_cases hlock : ∃ t b k before last, c = .lockWindow t b k before last
  · obtain ⟨t, b, k, before, last, rfl⟩ := hlock
    have hclk := (lockWindow_ran t b k before last s).clk h
    obtain ⟨hrun', hnow, hn, ho⟩ := s.advances_arrive t
    have hrunning := hrun'.trans hrun
    obtain ⟨hr, hw⟩ := State.windowClk_running hrunning b k (before ++ [last])
    rw [hclk]
    refine ⟨hr, hnow.trans hw.ge, fun hne => absurd rfl (hne t b k before last), ?_⟩
    rintro t' b' k' before' last' hc
    obtain ⟨rfl, rfl, rfl, rfl, rfl⟩ := Instr.lockWindow.inj hc
    refine ⟨fun hsame => ?_, fun n hrel htb => ?_⟩
    · rw [State.windowClk_same hrunning hsame]
      exact ⟨hn, ho⟩
    · exact State.windowClk_relocks hrunning hrel (by simpa using htb)
  · push Not at hlock
    obtain ⟨hrun', hnow, hn, ho⟩ := exec_advances h hreset hpor hjoin hlock
    exact ⟨hrun'.trans hrun, hnow, fun _ => ⟨hn, ho⟩, fun t b k before last hc => absurd hc (hlock t b k before last)⟩

end Sys2Proof.Machine
end

section
/-!
PROOFS. Late pegs and collisions (R42, R45, R47): what the records of a late peg reach, and the four counts of the TIME page.
-/

namespace Sys2Proof.Machine

/-! ### What reaches one page -/

/-- Only registers of a page and the event state differ. -/
def State.onlyPage (u x : State) (pg : Nat) : Prop := u.onlyRegs x ∧ u.samePages x [pg]

theorem State.onlyPage.refl (u : State) (pg : Nat) : u.onlyPage u pg := ⟨.refl u, fun _ _ => rfl⟩

theorem State.onlyPage.trans {u x y : State} {pg : Nat} (h : u.onlyPage x pg) (k : x.onlyPage y pg) : u.onlyPage y pg :=
  ⟨h.1.trans k.1, fun a ha => (k.2 a ha).trans (h.2 a ha)⟩

theorem State.onlyPage_wr (u : State) {pg a : Nat} (h : pageOf a = pg) (v : Nat) : u.onlyPage (u.wr a v) pg :=
  ⟨u.onlyRegs_wr a v, fun c hc => u.reg_wr_ne v fun e => hc (by simp [e, h])⟩

theorem State.onlyPage_raiseAt (u : State) (pg p i pt d : Nat) (f : Bool) : u.onlyPage (u.raiseAt p i pt d f) pg :=
  ⟨u.onlyRegs_raiseAt p i pt d f, fun c _ => u.reg_raiseAt p i pt d f c⟩

/-! ### What a late peg reaches on its lane's page (R45) -/

/-- A lane has an index of its kind. -/
theorem State.laneIdx_lt {s : State} {lane : Nat} (h : s.laneValid lane = true) : laneIdx lane < kindCount (laneKind lane) := by
  simp only [State.laneValid, Bool.and_eq_true, decide_eq_true_eq] at h
  exact h.2

/-- The block of a tone or flux lane lies on its page. -/
theorem toneBlock_lt {lane : Nat} (h : laneIdx lane < kindCount (laneKind lane)) (hk : 1 ≤ laneKind lane ∧ laneKind lane ≤ 3) :
    toneNo lane < 64 := by
  have hidx : laneIdx lane < 64 := by
    unfold kindCount at h
    split_ifs at h <;> omega
  unfold toneNo
  split_ifs <;> omega

section Tone

variable {lane : Nat} (h : laneIdx lane < kindCount (laneKind lane)) (hk : 1 ≤ laneKind lane ∧ laneKind lane ≤ 3)
include h hk

theorem pageOf_toneStat : pageOf (toneStat lane) = tonePg lane := by
  have hb := toneBlock_lt h hk
  unfold toneStat
  split_ifs
  · exact pageOf_add (tonePg_mod lane) (by unfold Off.FLUX_FLX_STAT; omega)
  · exact pageOf_add (tonePg_mod lane) (by unfold Off.TONE_TONE_STAT; omega)

theorem pageOf_toneLate : pageOf (toneLate lane) = tonePg lane := by
  have hb := toneBlock_lt h hk
  unfold toneLate
  split_ifs
  · exact pageOf_add (tonePg_mod lane) (by unfold Off.FLUX_FLX_LATE_COUNT; omega)
  · exact pageOf_add (tonePg_mod lane) (by unfold Off.TONE_TONE_LATE_COUNT; omega)

end Tone

/-- A flag of a tone or flux lane reaches its page. -/
theorem State.onlyPage_toneFlag (u : State) (lane i : Nat) : u.onlyPage (u.toneFlag lane i) (tonePg lane) := by
  have hset := u.onlyPage_wr (pageOf_toneFlags lane) (putBits (u.rd (toneFlags lane)) i 1 (b2n true))
  unfold State.toneFlag
  dsimp only
  split
  · exact .refl u _
  split
  · split
    · exact hset.trans (State.onlyPage_raiseAt _ _ _ _ _ _ _)
    · exact hset
  split
  · exact hset.trans (State.onlyPage_raiseAt _ _ _ _ _ _ _)
  split
  · exact hset.trans (State.onlyPage_raiseAt _ _ _ _ _ _ _)
  · exact hset

/-- A flag of a capture input reaches its page. -/
theorem State.onlyPage_capFlag (u : State) (b i j : Nat) : u.onlyPage (u.capFlag b i j) (capPg b i) := by
  have hset := u.onlyPage_wr (pageOf_add (pg := capPg b i) (o := Off.CAP_CAP_FLAGS) (by unfold capPg bp; omega) (by decide))
    (putBits (u.rd (capPg b i + Off.CAP_CAP_FLAGS)) j 1 (b2n true))
  unfold State.capFlag
  dsimp only
  split
  · exact .refl u _
  split
  · exact hset.trans (State.onlyPage_raiseAt _ _ _ _ _ _ _)
  · exact hset

/-- A flag of a stream reaches its page. -/
theorem State.onlyPage_strFlag (u : State) (b : Nat) {n : Nat} (hn : n < 16) (i : Nat) :
    u.onlyPage (u.strFlag b n i) (segPg b) := by
  have hset := u.onlyPage_wr (pageOf_add (pg := segPg b) (o := Off.SEGMENT_STR_FLAGS n) (by unfold segPg bp; omega)
    (by unfold Off.SEGMENT_STR_FLAGS; omega)) (putBits (u.rd (segPg b + Off.SEGMENT_STR_FLAGS n)) i 1 (b2n true))
  unfold State.strFlag
  dsimp only
  split
  · exact .refl u _
  · exact hset.trans (State.onlyPage_raiseAt _ _ _ _ _ _ _)

/-- The lane's records of a late peg reach the page that governs it. -/
theorem State.onlyPage_laneLate (u : State) {lane : Nat} (h : laneIdx lane < kindCount (laneKind lane)) (cause : Nat) :
    u.onlyPage (u.laneLate lane cause) (lanePg lane) := by
  have hpage : ∀ b p o : Nat, o < 0x1000 → pageOf (bp b p + o) = bp b p := fun b p o ho =>
    pageOf_add (by unfold bp; omega) ho
  unfold State.laneLate lanePg
  dsimp only
  split
  · refine ((u.onlyPage_wr (hpage _ _ _ ?_) _).trans (State.onlyPage_wr _ (hpage _ _ _ ?_) _)).trans
      (State.onlyPage_raiseAt _ _ _ _ _ _ _)
    · unfold Off.EDGE_CH_LATE_COUNT; omega
    · unfold Off.EDGE_CH_STAT; omega
  split
  · have hk : 1 ≤ laneKind lane ∧ laneKind lane ≤ 3 := by omega
    exact ((u.onlyPage_wr (pageOf_toneLate h hk) _).trans (State.onlyPage_wr _ (pageOf_toneStat h hk) _)).trans
      (State.onlyPage_toneFlag _ _ _)
  split
  · exact (u.onlyPage_wr (hpage _ _ _ (by decide)) _).trans (State.onlyPage_capFlag _ _ _ _)
  split
  · next hk =>
    have hn : laneIdx lane < 16 := by rwa [hk] at h
    exact (u.onlyPage_wr (hpage _ _ _ (by unfold Off.SEGMENT_STR_LATE_COUNT; omega)) _).trans
      (State.onlyPage_strFlag _ _ hn _)
  · exact .refl u _

/-- Such a page is one of the pages 4 to 0x13 of the lane's bent. -/
theorem lanePg_eq {lane : Nat} (h : laneIdx lane < kindCount (laneKind lane)) (hk : laneKind lane ≤ 5) :
    ∃ p, 4 ≤ p ∧ p < 0x14 ∧ lanePg lane = bp (laneBent lane) p := by
  have h0 : laneKind lane = 0 → laneIdx lane < 32 := fun e => by rwa [e] at h
  have h1 : laneKind lane = 1 → laneIdx lane < 64 := fun e => by rwa [e] at h
  have h3 : laneKind lane = 3 → laneIdx lane < 16 := fun e => by rwa [e] at h
  have h4 : laneKind lane = 4 → laneIdx lane < 4 := fun e => by rwa [e] at h
  unfold lanePg tonePg
  dsimp only
  split
  · exact ⟨_, by omega, by omega, rfl⟩
  split
  · split_ifs <;> exact ⟨_, by omega, by omega, rfl⟩
  split
  · exact ⟨_, by omega, by omega, rfl⟩
  split
  · exact ⟨_, by omega, by omega, rfl⟩
  · omega

/-- So it is no TIME page, and a lane of another kind has no such records. -/
theorem State.laneLate_reg_time (u : State) {lane : Nat} (h : laneIdx lane < kindCount (laneKind lane)) (cause : Nat)
    {b o : Nat} (ho : o < 0x1000) : (u.laneLate lane cause).reg (timePg b + o) = u.reg (timePg b + o) := by
  by_cases hk : laneKind lane ≤ 5
  · refine (u.onlyPage_laneLate h cause).2 _ fun hmem => ?_
    obtain ⟨p, hlo, hhi, hp⟩ := lanePg_eq h hk
    rw [List.mem_singleton, pageOf_add (by unfold timePg bp; omega) ho, hp] at hmem
    unfold timePg bp at hmem
    omega
  · have hlate : u.laneLate lane cause = u := by
      unfold State.laneLate
      dsimp only
      rw [if_neg, if_neg, if_neg, if_neg] <;> omega
    rw [hlate]

/-! ### The counts of the TIME page (R47) -/

theorem timePg_add_ne {b c o r : Nat} (ho : o < 0x1000) (hr : r < 0x1000) (h : b ≠ c ∨ o ≠ r) : timePg b + o ≠ timePg c + r := by
  unfold timePg bp
  omega

/-- The records of a late peg count one more on the TIME page of the lane's bent, whoever issued the peg. -/
theorem State.lateRecords_count {u : State} {lane : Nat} (h : u.laneValid lane = true) (p : Peg) (cause : Nat) {c : Nat}
    (hc : c < 0x1000) : (u.lateRecords lane p cause c).rd (timePg (laneBent lane) + c) =
      satAdd (u.rd (timePg (laneBent lane) + c)) 1 := by
  have hreg := u.laneLate_reg_time (State.laneIdx_lt h) cause (b := laneBent lane) hc
  rw [State.lateRecords, State.rd_flagShot, State.rd_raise, State.rd_bump_same, State.rd_of_reg hreg]

/-- They leave the other registers of TIME pages. -/
theorem State.lateRecords_reg_time {u : State} {lane : Nat} (h : u.laneValid lane = true) (p : Peg) (cause : Nat) {b o c : Nat}
    (ho : o < 0x1000) (hc : c < 0x1000) (hne : b ≠ laneBent lane ∨ o ≠ c) :
    (u.lateRecords lane p cause c).reg (timePg b + o) = u.reg (timePg b + o) := by
  rw [State.lateRecords, State.reg_flagShot, State.reg_raise, State.reg_bump_ne _ (timePg_add_ne ho hc hne)]
  exact u.laneLate_reg_time (State.laneIdx_lt h) cause ho

/-- A peg that meets one of its PT in the lane's queue is counted there, and no register else is reached (R42). -/
theorem State.enqueue_collides {u : State} {lane : Nat} {p : Peg} (h : ((u.queue lane).any fun x => x.pt == p.pt) = true) :
    u.enqueue lane p = ((u.bump (timePg (laneBent lane) + Off.TIME_COLLIDE_COUNT)).raise (timePg (laneBent lane)) 5).flagShot
      p.owner 1 := by
  rw [State.enqueue]
  exact if_pos h

/-- Registers put to 0 read 0 in a command's outcome, which reaches nothing else. -/
theorem State.keep_zero (u : State) (l : List Nat) : (∀ a ∈ l, (u.keep (u.zero l).settle).rd a = 0) ∧
    u.sameRegs (u.keep (u.zero l).settle) l ∧ u.keep (u.zero l).settle =
      { u with regs := (u.keep (u.zero l).settle).regs, ev := (u.keep (u.zero l).settle).ev } := by
  have honly := u.onlyRegs_zero l
  refine ⟨fun a ha => ?_, State.sameRegs_keep (u.sameRegs_zero l) honly.variant, honly.keep⟩
  rw [State.rd_of_reg (State.reg_keep_settle honly.variant a), State.rd_zero_mem ha]

/-- Settles O58: the records of a late peg and of a collision count once each, and COUNT_CLR puts the four counts to 0. -/
theorem lateCounts : Obligations.LateCounts := by
  refine ⟨fun u lane cause c p h hc => ?_, fun u lane p _ h => ?_, fun s u t b hu hb => ?_⟩
  · have hc' : c < 0x1000 := by rcases hc with rfl | rfl | rfl <;> decide
    refine ⟨u.lateRecords_count h p cause hc', fun b o ho hne _ => State.rd_of_reg ?_⟩
    have ho' : o < 0x1000 := by rcases ho with rfl | rfl | rfl | rfl <;> decide
    exact State.lateRecords_reg_time h p cause ho' hc' hne
  · rw [State.enqueue_collides h]
    refine ⟨?_, fun a ha => ?_⟩
    · rw [State.rd_flagShot, State.rd_raise, State.rd_bump_same]
      rfl
    · rw [State.reg_flagShot, State.reg_raise, State.reg_bump_ne _ (by simpa using ha)]
  · subst hu
    obtain ⟨hzero, hsame, honly⟩ := (s.arrive t).keep_zero ([Off.TIME_LATE_DROP_COUNT, Off.TIME_LATE_SLIP_COUNT,
      Off.TIME_LATE_VOID_COUNT, Off.TIME_COLLIDE_COUNT].map fun o => timePg b + o)
    rw [exec_countClr]
    refine runAt_next (State.command_takes hb _) ⟨hzero _ ?_, hzero _ ?_, hzero _ ?_, hzero _ ?_, hsame, honly⟩ <;> simp

end Sys2Proof.Machine
end

section
/-!
PROOFS. The TIME page (R36, R37, R49, R243): the alarm, the edges of PPS, and marker pegs as stamps.
-/

namespace Sys2Proof.Machine

/-! ### The alarm (R49) -/

/-- A PT-valued register reads what its three words read. -/
theorem State.rd80_of_reg {s u : State} {a : Nat} (h : ∀ c ∈ [a, a + 4, a + 8], s.reg c = u.reg c) : s.rd80 a = u.rd80 a := by
  rw [State.rd80, State.rd_of_reg (h a (by simp)), State.rd_of_reg (h (a + 4) (by simp)),
    State.rd_of_reg (h (a + 8) (by simp)), State.rd80]

/-- A PT-valued register just written. -/
theorem State.rd80_wr80_same (s : State) (a : Nat) {v : Nat} (hv : v < 2 ^ 80) : (s.wr80 a v).rd80 a = v := by
  rw [State.rd80, State.wr80]
  simp only [State.rd_wr, if_pos, if_neg (show a ≠ a + 4 by omega), if_neg (show a ≠ a + 8 by omega),
    if_neg (show a + 4 ≠ a + 8 by omega), bits, Nat.shiftRight_eq_div_pow]
  omega

/-- An alarm that lies the marker lead ahead is armed. -/
theorem State.alarmArm_ahead {s : State} {b : Nat}
    (h : s.ptOf (s.tick s.now + 80) ≤ s.rd80 (timePg b + Off.TIME_ALARM_PT_LO)) :
    s.alarmArm b = s.wr (timePg b + Off.TIME_ALARM_CTRL) 1 := if_pos h

/-- An alarm within the marker lead is raised at once. -/
theorem State.alarmArm_near {s : State} {b : Nat}
    (h : s.rd80 (timePg b + Off.TIME_ALARM_PT_LO) < s.ptOf (s.tick s.now + 80)) :
    s.alarmArm b = (s.wr (timePg b + Off.TIME_ALARM_CTRL) 2).raiseAt (timePg b) 3 s.nowTick 0 false :=
  if_neg (Nat.not_le.mpr h)

section AlarmArm

variable (s : State) (b : Nat)

/-- Arming the alarm reaches ALARM_CTRL alone. -/
theorem State.sameRegs_alarmArm : s.sameRegs (s.alarmArm b) [timePg b + Off.TIME_ALARM_CTRL] := fun _ ha =>
  s.alarmArm_reg_ne (by simpa using ha)

theorem State.alarmArm_rd_ahead (h : s.ptOf (s.tick s.now + 80) ≤ s.rd80 (timePg b + Off.TIME_ALARM_PT_LO)) :
    (s.alarmArm b).rd (timePg b + Off.TIME_ALARM_CTRL) = 1 := by
  rw [State.alarmArm_ahead h, State.rd_wr_same]
  rfl

theorem State.alarmArm_rd_near (h : s.rd80 (timePg b + Off.TIME_ALARM_PT_LO) < s.ptOf (s.tick s.now + 80)) :
    (s.alarmArm b).rd (timePg b + Off.TIME_ALARM_CTRL) = 2 ∧ (s.alarmArm b).raised (timePg b) 3 = true := by
  rw [State.alarmArm_near h, State.rd_raiseAt, State.rd_wr_same, State.raised_raiseAt_same]
  exact ⟨rfl, rfl⟩

end AlarmArm

/-- A register in the outcome of a command that reaches registers. -/
theorem State.onlyRegs.rd_keep {u x : State} (h : u.onlyRegs x) (a : Nat) : (u.keep x.settle).rd a = x.rd a :=
  State.rd_of_reg (State.reg_keep_settle h.variant a)

/-- ALARM_PT_LO stands in the table of the TIME page, in force. -/
theorem alarmPt_time : ∃ r, PageKind.time.row? Off.TIME_ALARM_PT_LO = some r ∧ r.acc = .rw := ⟨_, rfl, rfl⟩

/-- ALARM_PT_LO of a bent that is present. -/
theorem alarmPt_row {v : Variant} {b a : Nat} (ha : a = timePg b + Off.TIME_ALARM_PT_LO) (hb : b < v.bents) (hb8 : b < 8) :
    a = a / 4 * 4 ∧ pageOf a = timePg b ∧ bentOf a = b ∧ a % 0x1000 = Off.TIME_ALARM_PT_LO ∧
      (∃ pr, pageRow? v a = some pr ∧ pr.kind = .time) ∧ ∃ r, regRow? v a = some r ∧ r.acc = .rw := by
  have heq : a = b * 0x400000 + 0x3088 := by
    rw [ha, timePg, bp, Off.TIME_ALARM_PT_LO]
  have hpkg : isPkg a = false := decide_eq_false (by omega)
  have hbent : bentOf a = b := by unfold bentOf; omega
  have hno : pageNo a = 3 := by rw [pageNo, if_neg (by simp [hpkg])]; omega
  have hoff : a % 0x1000 = Off.TIME_ALARM_PT_LO := by unfold Off.TIME_ALARM_PT_LO; omega
  have hrow : pageRow? v a = bentPage 3 := by rw [pageRow?, if_neg (by simp [hpkg]), hbent, if_pos hb, hno]
  obtain ⟨r, hr, hacc⟩ := alarmPt_time
  refine ⟨by omega, by unfold pageOf timePg bp; omega, hbent, hoff, ⟨_, hrow, rfl⟩, r, ?_, hacc⟩
  rw [regRow?, hrow, show bentPage 3 = some ⟨.time, 0x00030001, 0x00000040, true, true, false, 6⟩ from rfl]
  simp only
  rw [if_pos (by omega), hoff, hr]

theorem bits_zero (x n : Nat) : bits x 0 n = x % 2 ^ n := rfl

/-- What a write of ALARM_PT_LO puts in force. -/
theorem State.putPt_rd80 (s : State) (w : Writer) (a : Nat) (v : Word) :
    (s.putPt w a v).rd80 a = v.toNat + s.held w (a + 4) * 2 ^ 32 + s.held w (a + 8) % 2 ^ 16 * 2 ^ 64 := by
  have hlo : (s.putPt w a v).rd a = v.toNat := congrArg BitVec.toNat (s.putPt_reg w a v)
  rw [State.rd80, State.putPt_rd_mid, State.putPt_rd_hi, hlo, bits_zero]

/-- An armed alarm is armed again for the PT just written (R49). -/
theorem State.takePt_armed {s : State} {w : Writer} {pr : PageRow} {a b : Nat} {v : Word}
    (ha : a = timePg b + Off.TIME_ALARM_PT_LO) (hpg : pageOf a = timePg b) (hb : bentOf a = b) (hk : pr.kind = .time)
    (harmed : s.bit (timePg b + Off.TIME_ALARM_CTRL) 0 = true) : s.takePt w pr a v = (s.putPt w a v).alarmArm b := by
  have hput : (s.putPt w a v).bit (timePg b + Off.TIME_ALARM_CTRL) 0 = true := by
    rw [State.bit_of_reg (s.putPt_reg_ne w v _), harmed]
    subst ha
    unfold Off.TIME_ALARM_PT_LO Off.TIME_ALARM_CTRL
    simp
  simp [State.takePt, hk, hpg, hput, hb]


/-! ### Stamps offered (R237, R243) -/

/-- Only registers, interval units and frequency engines differ. -/
def State.onlyStamps (u x : State) : Prop := ∃ r ti fr, x = { u with regs := r, tius := ti, fres := fr }

theorem State.onlyStamps.refl (u : State) : u.onlyStamps u := ⟨u.regs, u.tius, u.fres, rfl⟩

theorem State.onlyStamps.trans {u x y : State} (h : u.onlyStamps x) (k : x.onlyStamps y) : u.onlyStamps y := by
  obtain ⟨_, _, _, rfl⟩ := h
  obtain ⟨r, ti, fr, rfl⟩ := k
  exact ⟨r, ti, fr, rfl⟩

theorem State.onlyStamps_foldl {α : Type} {f : State → α → State} (h : ∀ (s : State) a, s.onlyStamps (f s a)) (l : List α)
    (s : State) : s.onlyStamps (l.foldl f s) := by
  induction l generalizing s with
  | nil => exact .refl s
  | cons a l ih => exact (h s a).trans (ih _)

/-- A stamp taken by an interval unit, in its state and in TIUu_STAT. -/
def State.takeTiu (s : State) (b k : Nat) (y : Tiu) : State :=
  (s.setTiu b k y).setBit (stampPg b + Off.STAMP_TIU_STAT k) 1 ((s.setTiu b k y).tiuPick b k).1.isSome

/-- The interval unit with a stamp of a source. -/
def Tiu.stamped (y : Tiu) (start stop : Bool) (x : Nat) : Tiu :=
  { y with starts := if start then y.starts ++ [x] else y.starts, stops := if stop then y.stops ++ [x] else y.stops }

/-- An interval unit that stays armed falls not idle. -/
theorem State.onlyStamps_takeTiu (s : State) {b k : Nat} {y : Tiu} (h : (s.tiu b k).armed = true → y.armed = true) :
    s.onlyStamps (s.takeTiu b k y) := by
  have hidle : ((s.tiu b k).armed && !y.armed) = false := by
    cases ha : (s.tiu b k).armed with
    | false => rfl
    | true => simp [h ha]
  refine ⟨(s.takeTiu b k y).regs, (s.takeTiu b k y).tius, s.fres, ?_⟩
  rw [State.takeTiu, State.setTiu, hidle]
  rfl

/-- A unit not armed, or of other sources, takes no stamp; one that is takes it. -/
theorem State.offerTiu_eq (s : State) (b k : Nat) (key : Nat × Nat × Nat) (x : Nat) : s.offerTiu b k key x = s ∨
    s.offerTiu b k key x = s.takeTiu b k ((s.tiu b k).stamped
      (srcKey (s.rd (stampPg b + Off.STAMP_TIU_START_SRC k)) == key)
      (srcKey (s.rd (stampPg b + Off.STAMP_TIU_STOP_SRC k)) == key) x) := by
  unfold State.offerTiu
  dsimp only
  split
  · exact .inr rfl
  · exact .inl rfl

theorem State.onlyStamps_offerTiu (s : State) (b k : Nat) (key : Nat × Nat × Nat) (x : Nat) :
    s.onlyStamps (s.offerTiu b k key x) := by
  rcases s.offerTiu_eq b k key x with h | h
  · rw [h]; exact .refl s
  · rw [h]; exact s.onlyStamps_takeTiu id

/-- A frequency engine whose gate stays falls not idle. -/
theorem State.onlyStamps_setFre (s : State) {b e : Nat} {y : Fre} (h : y.gate.isSome = (s.fre b e).gate.isSome) :
    s.onlyStamps (s.setFre b e y) := by
  have hidle : ((s.fre b e).gate.isSome && y.gate.isNone) = false := by
    rw [← h]
    cases y.gate <;> rfl
  refine ⟨s.regs, s.tius, (s.setFre b e y).fres, ?_⟩
  rw [State.setFre, hidle]
  rfl

theorem State.onlyStamps_offerFre (s : State) (b e : Nat) (key : Nat × Nat × Nat) (x : Nat) :
    s.onlyStamps (s.offerFre b e key x) := by
  unfold State.offerFre
  dsimp only
  split
  · exact s.onlyStamps_setFre (by simp)
  · exact .refl s

theorem State.onlyStamps_offerStamp (s : State) (b : Nat) (key : Nat × Nat × Nat) (x : Nat) :
    s.onlyStamps (s.offerStamp b key x) :=
  (State.onlyStamps_foldl (fun s k => s.onlyStamps_offerTiu b k key x) _ s).trans
    (State.onlyStamps_foldl (fun s e => s.onlyStamps_offerFre b e key x) _ _)

/-! ### What an interval unit takes of a marker (R243) -/

/-- Registers of two interval units, or of two kinds, are different registers. -/
theorem tiuStat_ne {k j : Nat} {r : Nat} (hr : r ≠ 0x220) (hk : r < 0x280) (hlo : 0x200 ≤ r) (b : Nat) :
    stampPg b + (r + 0x80 * k) ≠ stampPg b + Off.STAMP_TIU_STAT j := by
  unfold Off.STAMP_TIU_STAT
  omega

/-- A unit's state and the source of its start. -/
def State.tiuView (s : State) (b k : Nat) : Tiu × Nat := (s.tiu b k, s.rd (stampPg b + Off.STAMP_TIU_START_SRC k))

/-- An offered stamp reaches its unit's TIUu_STAT alone of the registers. -/
theorem State.offerTiu_reg_ne (s : State) (b k : Nat) (key : Nat × Nat × Nat) (x : Nat) {a : Nat}
    (ha : a ≠ stampPg b + Off.STAMP_TIU_STAT k) : (s.offerTiu b k key x).reg a = s.reg a := by
  rcases s.offerTiu_eq b k key x with h | h
  · rw [h]
  · rw [h, State.takeTiu, State.reg_setBit_ne _ _ _ ha]
    rfl

theorem State.offerTiu_view_ne (s : State) (b : Nat) {k j : Nat} (key : Nat × Nat × Nat) (x : Nat) (h : j ≠ k) :
    (s.offerTiu b j key x).tiuView b k = s.tiuView b k := by
  have hsrc := s.offerTiu_reg_ne b j key x (a := stampPg b + Off.STAMP_TIU_START_SRC k)
    (tiuStat_ne (by decide) (by decide) (by decide) b)
  refine Prod.ext ?_ (State.rd_of_reg hsrc)
  rcases s.offerTiu_eq b j key x with e | e
  · rw [e]
  · rw [e]
    exact s.tiu_setTiu_ne b j b k _ (by omega)

/-- A step of a fold that no other step reaches works on what it would find alone. -/
theorem foldl_view {α β : Type} {f : State → α → State} {v : State → β} {k : α} (h : ∀ s j, j ≠ k → v (f s j) = v s)
    {l : List α} (hl : l.Nodup) (hk : k ∈ l) (s : State) : ∃ x, v x = v s ∧ v (l.foldl f s) = v (f x k) := by
  obtain ⟨l₁, l₂, rfl⟩ := List.append_of_mem hk
  have hnd := List.nodup_middle.mp hl
  rw [List.nodup_cons, List.mem_append, not_or] at hnd
  obtain ⟨⟨h₁, h₂⟩, -⟩ := hnd
  have hrest : ∀ (m : List α) (x : State), k ∉ m → v (m.foldl f x) = v x := by
    intro m
    induction m with
    | nil => exact fun _ _ => rfl
    | cons j m ih =>
      intro x hm
      rw [List.mem_cons, not_or] at hm
      exact (ih _ hm.2).trans (h x j (Ne.symm hm.1))
  refine ⟨l₁.foldl f s, hrest l₁ s h₁, ?_⟩
  rw [List.foldl_append, List.foldl_cons, hrest l₂ _ h₂]

/-- An armed unit takes a marker that its start names. -/
theorem State.offerTiu_starts {s : State} {b k i : Nat} (x : Nat) (ha : (s.tiu b k).armed = true)
    (hsrc : srcKey (s.rd (stampPg b + Off.STAMP_TIU_START_SRC k)) = (2, i, 0)) :
    ((s.offerTiu b k (2, i, 0) x).tiu b k).starts = (s.tiu b k).starts ++ [x] := by
  simp [State.offerTiu, State.srcUsable, ha, hsrc]

/-- A stamp is offered to all the units and engines of a bent; one of a marker starts every armed unit that names it. -/
theorem State.offerStamp_starts {s : State} {b i : Nat} (k : Fin 4) (x : Nat) (ha : (s.tiu b k).armed = true)
    (hsrc : srcKey (s.rd (stampPg b + Off.STAMP_TIU_START_SRC k)) = (2, i, 0)) :
    ((s.offerStamp b (2, i, 0) x).tiu b k).starts = (s.tiu b k).starts ++ [x] := by
  obtain ⟨y, hy, hfold⟩ := foldl_view (v := fun s : State => s.tiuView b k)
    (fun s j hj => s.offerTiu_view_ne b (2, i, 0) x hj) (List.nodup_range (n := 4)) (List.mem_range.mpr k.isLt) s
  obtain ⟨hy1, hy2⟩ := Prod.ext_iff.mp hy
  have hfre : ∀ z : State, ((List.range 2).foldl (fun s e => s.offerFre b e (2, i, 0) x) z).tius = z.tius := fun z =>
    foldl_frame State.tius _ (fun z e => by unfold State.offerFre; dsimp only; split <;> rfl) _ z
  have htiu : (s.offerStamp b (2, i, 0) x).tiu b k = (y.offerTiu b k (2, i, 0) x).tiu b k := by
    rw [State.offerStamp, State.tiu, hfre]
    exact (Prod.ext_iff.mp hfold).1
  rw [htiu, State.offerTiu_starts x ((congrArg Tiu.armed hy1).trans ha) ((congrArg srcKey hy2).trans hsrc)]
  exact congrArg (fun z : Tiu => z.starts ++ [x]) hy1

/-- The registers that the stamps of a bent reach. -/
theorem State.sameRegs_offerStamp (s : State) (b : Nat) (key : Nat × Nat × Nat) (x : Nat) :
    s.sameRegs (s.offerStamp b key x) ((List.range 4).map fun k => stampPg b + Off.STAMP_TIU_STAT k) := by
  intro a ha
  have hne : ∀ k ∈ List.range 4, a ≠ stampPg b + Off.STAMP_TIU_STAT k := fun k hk e =>
    ha (List.mem_map.mpr ⟨k, hk, e.symm⟩)
  have hfre : ∀ z : State, ((List.range 2).foldl (fun s e => s.offerFre b e key x) z).reg a = z.reg a := fun z =>
    foldl_frame (State.reg · a) _ (fun z e => by unfold State.offerFre; dsimp only; split <;> rfl) _ z
  rw [State.offerStamp, hfre]
  exact foldl_reg_ne (fun s k c hc => s.offerTiu_reg_ne b k key x hc) hne s

/-- A due head that no condition holds back is popped. -/
theorem State.popPeg_headDue {s : State} {lane : Nat} {p : Peg} {q : List Peg} (h : s.headDue lane p q) :
    s.popPeg lane (fun _ => true) = some (p, s.setQueue lane q) := by
  obtain ⟨hq, hp⟩ := h
  simp [State.popPeg, hq, hp]

/-! ### Edges of PPS (R36, R37) -/

/-- The discipline reaches its own sums, the next expected edge staying, and may raise an event of the timebase. -/
theorem State.disciplineEdge_cases (s : State) (p : Nat) : ∃ x : Tb,
    (s.disciplineEdge p = { s with tb := x } ∨ s.disciplineEdge p = ({ s with tb := x } : State).raise tbPg 7) ∧
      x.ppsNext = s.tb.ppsNext := by
  unfold State.disciplineEdge
  dsimp only
  split
  · exact ⟨s.tb, .inl rfl, rfl⟩
  split
  · exact ⟨_, .inl rfl, rfl⟩
  split
  · exact ⟨_, .inr rfl, rfl⟩
  · exact ⟨_, .inl rfl, rfl⟩

/-- No register and no event depends on the timebase. -/
theorem State.reg_tb (s : State) (x : Tb) (a : Nat) : ({ s with tb := x } : State).reg a = s.reg a := rfl

theorem State.raised_tb (s : State) (x : Tb) (pg i : Nat) : ({ s with tb := x } : State).raised pg i = s.raised pg i := rfl

/-- Only registers, the event state, the timebase, interval units and frequency engines differ. -/
def State.onlyTime (u x : State) : Prop := ∃ r e y ti fr, x = { u with regs := r, ev := e, tb := y, tius := ti, fres := fr }

theorem State.onlyTime.trans {u x y : State} (h : u.onlyTime x) (k : x.onlyTime y) : u.onlyTime y := by
  obtain ⟨_, _, _, _, _, rfl⟩ := h
  obtain ⟨r, e, z, ti, fr, rfl⟩ := k
  exact ⟨r, e, z, ti, fr, rfl⟩

theorem State.onlyRegs.time {u x : State} (h : u.onlyRegs x) : u.onlyTime x := by
  obtain ⟨r, e, rfl⟩ := h
  exact ⟨r, e, u.tb, u.tius, u.fres, rfl⟩

theorem State.onlyStamps.time {u x : State} (h : u.onlyStamps x) : u.onlyTime x := by
  obtain ⟨r, ti, fr, rfl⟩ := h
  exact ⟨r, u.ev, u.tb, ti, fr, rfl⟩

theorem State.onlyTime_tb (u : State) (y : Tb) : u.onlyTime { u with tb := y } := ⟨u.regs, u.ev, y, u.tius, u.fres, rfl⟩

theorem State.onlyTime.keep {u x : State} (h : u.onlyTime x) : u.keep x.settle = { u with
    regs := (u.keep x.settle).regs, ev := (u.keep x.settle).ev, tb := (u.keep x.settle).tb
    tius := (u.keep x.settle).tius, fres := (u.keep x.settle).fres } := by
  obtain ⟨r, e, y, ti, fr, rfl⟩ := h
  rw [State.keep_settle]

theorem State.onlyTime.variant {u x : State} (h : u.onlyTime x) : x.variant = u.variant := by
  obtain ⟨_, _, _, _, _, rfl⟩ := h; rfl

/-- An edge of PPS taken: stamped, counted, and the next one expected a second on. -/
def State.ppsTaken (s : State) (p : Nat) : State :=
  let s1 := (s.wr80 (timePg 0 + Off.TIME_PPS_PT_LO) p).bump (timePg 0 + Off.TIME_PPS_COUNT)
  ({ s1 with tb := { s1.tb with ppsNext := some (p + secK) } }).raise (timePg s.ridge) 0

/-- An edge taken and judged: outside its window it raises an event, within it the discipline takes it. -/
def State.ppsJudged (s : State) (p : Nat) (out : Bool) : State :=
  if out then (s.ppsTaken p).raise (timePg s.ridge) 2 else (s.ppsTaken p).disciplineEdge p

theorem State.onlyTime_ppsTaken (s : State) (p : Nat) : s.onlyTime (s.ppsTaken p) := by
  have hregs : s.onlyRegs ((s.wr80 (timePg 0 + Off.TIME_PPS_PT_LO) p).bump (timePg 0 + Off.TIME_PPS_COUNT)) := ⟨_, _, rfl⟩
  exact (hregs.time.trans (State.onlyTime_tb _ _)).trans (State.onlyRegs_raiseAt _ _ _ _ _ _).time

/-- Beside the edge taken, judging it reaches the discipline's sums and the event state. -/
theorem State.ppsJudged_cases (s : State) (p : Nat) (out : Bool) : ∃ x : Tb, x.ppsNext = some (p + secK) ∧
    (s.ppsJudged p out = { s.ppsTaken p with tb := x } ∨
      ∃ pg i, s.ppsJudged p out = ({ s.ppsTaken p with tb := x } : State).raise pg i) := by
  have hnext : (s.ppsTaken p).tb.ppsNext = some (p + secK) := by
    rw [State.ppsTaken]
    simp
  cases out with
  | true => exact ⟨(s.ppsTaken p).tb, hnext, .inr ⟨_, _, rfl⟩⟩
  | false =>
    obtain ⟨x, h | h, hx⟩ := (s.ppsTaken p).disciplineEdge_cases p
    · exact ⟨x, hx.trans hnext, .inl h⟩
    · exact ⟨x, hx.trans hnext, .inr ⟨_, _, h⟩⟩

/-- What stands after an edge judged: the stamp, the count, the next instant and the event. -/
theorem State.ppsJudged_shows (s : State) (p : Nat) (out : Bool) : s.onlyTime (s.ppsJudged p out) ∧
    (s.ppsJudged p out).tb.ppsNext = some (p + secK) ∧ (s.ppsJudged p out).raised (timePg s.ridge) 0 = true ∧
    ∀ a, (s.ppsJudged p out).reg a = (s.ppsTaken p).reg a := by
  have htaken : (s.ppsTaken p).raised (timePg s.ridge) 0 = true := State.raised_raise_same _ _ _
  have honly := s.onlyTime_ppsTaken p
  obtain ⟨x, hx, h | ⟨pg, i, h⟩⟩ := s.ppsJudged_cases p out
  · rw [h]
    exact ⟨honly.trans (State.onlyTime_tb _ x), hx, (State.raised_tb _ x _ _).trans htaken, State.reg_tb _ x⟩
  · rw [h]
    refine ⟨(honly.trans (State.onlyTime_tb _ x)).trans (State.onlyRegs_raiseAt _ _ _ _ _ _).time, ?_, ?_, fun a => ?_⟩
    · rw [State.raise_tb]; exact hx
    · exact State.raised_raise_mono ((State.raised_tb _ x _ _).trans htaken) _ _
    · rw [State.reg_raise, State.reg_tb]

theorem State.ppsTaken_reg (s : State) (p a : Nat) : (s.ppsTaken p).reg a =
    ((s.wr80 (timePg 0 + Off.TIME_PPS_PT_LO) p).bump (timePg 0 + Off.TIME_PPS_COUNT)).reg a := by
  rw [State.ppsTaken]
  dsimp only
  rw [State.reg_raise, State.reg_tb]

theorem State.ppsTaken_rd80 (s : State) {p : Nat} (hp : p < 2 ^ 80) : (s.ppsTaken p).rd80 (timePg 0 + Off.TIME_PPS_PT_LO) = p := by
  rw [State.rd80_of_reg fun c hc => (s.ppsTaken_reg p c).trans (State.reg_bump_ne _ ?_), State.rd80_wr80_same _ _ hp]
  rintro rfl
  revert hc
  decide

theorem State.ppsTaken_count (s : State) (p : Nat) : (s.ppsTaken p).rd (timePg 0 + Off.TIME_PPS_COUNT) =
    satAdd (s.rd (timePg 0 + Off.TIME_PPS_COUNT)) 1 := by
  rw [State.rd_of_reg (s.ppsTaken_reg p _), State.rd_bump_same]
  simp only [State.wr80, State.rd_wr]
  rw [if_neg (by decide), if_neg (by decide), if_neg (by decide)]

/-- Stamps offered on a bent reach no TIME page. -/
theorem State.offerStamp_reg_time (s : State) (b : Nat) (key : Nat × Nat × Nat) (x : Nat) {c o : Nat} (ho : o < 0x1000) :
    (s.offerStamp b key x).reg (timePg c + o) = s.reg (timePg c + o) := by
  refine s.sameRegs_offerStamp b key x _ fun hmem => ?_
  obtain ⟨k, hk, he⟩ := List.mem_map.mp hmem
  have hk4 := List.mem_range.mp hk
  exact bp_add_ne (by unfold Off.STAMP_TIU_STAT; omega) (by omega) (by unfold Off.STAMP_TIU_STAT; omega) he

/-- A stamp offered on every bent. -/
def State.offerAll (s : State) (key : Nat × Nat × Nat) (x : Nat) : State :=
  (List.range s.variant.bents).foldl (fun s b => s.offerStamp b key x) s

theorem State.onlyStamps_offerAll (s : State) (key : Nat × Nat × Nat) (x : Nat) : s.onlyStamps (s.offerAll key x) :=
  State.onlyStamps_foldl (fun s b => s.onlyStamps_offerStamp b key x) _ s

theorem State.offerAll_reg_time (s : State) (key : Nat × Nat × Nat) (x : Nat) {c o : Nat} (ho : o < 0x1000) :
    (s.offerAll key x).reg (timePg c + o) = s.reg (timePg c + o) :=
  foldl_frame (State.reg · (timePg c + o)) _ (fun s b => s.offerStamp_reg_time b key x ho) _ s

theorem State.onlyStamps.tb_ev {u x : State} (h : u.onlyStamps x) : x.tb = u.tb ∧ x.ev = u.ev := by
  obtain ⟨_, _, _, rfl⟩ := h
  exact ⟨rfl, rfl⟩

/-- An edge lies outside the acceptance window of the expected instant. -/
def State.ppsOut (s : State) (p : Nat) : Bool :=
  match s.tb.ppsNext with
  | none => false
  | some e => decide (p + s.ppsWindow < e) || decide (e + s.ppsWindow < p)

/-- An edge of PPS that is taken is judged and is a stamp of every bent. -/
theorem ppsEdge_next {s : State} {t stamp : PT} {falling : Bool} {P : State → Prop}
    (hon : (s.arrive t).ppsOn = true) (hrun : (s.arrive t).clk.running = true)
    (hpol : falling = (s.arrive t).bit (timePg (s.arrive t).ridge + Off.TIME_PPS_CTRL) 1)
    (h : P ((s.arrive t).keep (((s.arrive t).ppsJudged stamp.toNat ((s.arrive t).ppsOut stamp.toNat)).offerAll (3, 0, 0)
      stamp.toNat).settle)) : ∃ s', exec (.ppsEdge t ⟨falling, stamp⟩) s = .next s' ∧ P s' := by
  rw [exec_ppsEdge]
  refine runAt_next ?_ h
  rw [if_pos (by rw [hon, hrun, hpol]; simp)]
  rfl

/-- An edge of PPS reaches what the ridge's stamp reaches (R36, R37). -/
theorem timePage_ppsEdge (s : State) (t stamp : PT) (falling : Bool) (hon : (s.arrive t).ppsOn = true)
    (hrun : (s.arrive t).clk.running = true)
    (hpol : falling = (s.arrive t).bit (timePg (s.arrive t).ridge + Off.TIME_PPS_CTRL) 1) :
    ∃ s', exec (.ppsEdge t ⟨falling, stamp⟩) s = .next s' ∧
      s'.rd80 (timePg 0 + Off.TIME_PPS_PT_LO) = stamp.toNat ∧
      s'.rd (timePg 0 + Off.TIME_PPS_COUNT) = satAdd ((s.arrive t).rd (timePg 0 + Off.TIME_PPS_COUNT)) 1 ∧
      s'.tb.ppsNext = some (stamp.toNat + secK) ∧ s'.raised (timePg (s.arrive t).ridge) 0 = true ∧
      s' = { s.arrive t with regs := s'.regs, ev := s'.ev, tb := s'.tb, tius := s'.tius, fres := s'.fres } := by
  refine ppsEdge_next hon hrun hpol ?_
  generalize s.arrive t = u
  generalize hout : u.ppsOut stamp.toNat = out
  obtain ⟨honly, hnext, hraised, hreg⟩ := u.ppsJudged_shows stamp.toNat out
  have hstamps := (u.ppsJudged stamp.toNat out).onlyStamps_offerAll (3, 0, 0) stamp.toNat
  obtain ⟨htb, hev⟩ := hstamps.tb_ev
  have hx := honly.trans hstamps.time
  have hkeep : ∀ o, o < 0x1000 → (u.keep ((u.ppsJudged stamp.toNat out).offerAll (3, 0, 0) stamp.toNat).settle).reg
      (timePg 0 + o) = (u.ppsTaken stamp.toNat).reg (timePg 0 + o) := fun o ho =>
    ((State.reg_keep_settle hx.variant _).trans (State.offerAll_reg_time _ _ _ ho)).trans (hreg _)
  refine ⟨?_, ?_, ?_, ?_, hx.keep⟩
  · rw [State.rd80_of_reg (u := u.ppsTaken stamp.toNat), u.ppsTaken_rd80 stamp.isLt]
    intro c hc
    simp only [List.mem_cons, List.not_mem_nil, or_false] at hc
    rcases hc with rfl | rfl | rfl
    · exact hkeep Off.TIME_PPS_PT_LO (by decide)
    · exact hkeep (Off.TIME_PPS_PT_LO + 4) (by decide)
    · exact hkeep (Off.TIME_PPS_PT_LO + 8) (by decide)
  · rw [State.rd_of_reg (hkeep Off.TIME_PPS_COUNT (by decide)), u.ppsTaken_count]
  · rw [State.keep_settle]
    exact (congrArg Tb.ppsNext htb).trans hnext
  · rw [State.raised_keep_settle, State.raised, hev]
    exact hraised

/-- A missing edge of PPS is counted and raises MISSING. -/
theorem timePage_ppsMissing (s : State) (t : PT) {e : Nat} (he : (s.arrive t).tb.ppsNext = some e)
    (hon : (s.arrive t).ppsOn = true) (hlate : e + (s.arrive t).ppsWindow < (s.arrive t).now) :
    ∃ s', exec (.ppsMissing t) s = .next s' ∧
      s'.rd (timePg 0 + Off.TIME_PPS_MISS_COUNT) = satAdd ((s.arrive t).rd (timePg 0 + Off.TIME_PPS_MISS_COUNT)) 1 ∧
      s'.tb = { (s.arrive t).tb with ppsNext := some (e + secK) } ∧ s'.raised (timePg (s.arrive t).ridge) 1 = true ∧
      (s.arrive t).sameRegs s' [timePg 0 + Off.TIME_PPS_MISS_COUNT] ∧
      s' = { s.arrive t with regs := s'.regs, ev := s'.ev, tb := s'.tb } := by
  rw [exec_ppsMissing]
  refine runAt_next (x := ({ (s.arrive t).bump (timePg 0 + Off.TIME_PPS_MISS_COUNT) with
    tb := { (s.arrive t).tb with ppsNext := some (e + secK) } } : State).raise (timePg (s.arrive t).ridge) 1) ?_ ?_
  · rw [he]
    exact if_pos (by rw [hon]; simpa using hlate)
  generalize s.arrive t = u
  have hreg : ∀ a, (u.keep (({ u.bump (timePg 0 + Off.TIME_PPS_MISS_COUNT) with
      tb := { u.tb with ppsNext := some (e + secK) } } : State).raise (timePg u.ridge) 1).settle).reg a =
      (u.bump (timePg 0 + Off.TIME_PPS_MISS_COUNT)).reg a := fun a => by
    rw [State.reg_keep_settle (by simp), State.reg_raise, State.reg_tb]
  refine ⟨?_, ?_, ?_, fun a ha => ?_, ?_⟩
  · rw [State.rd_of_reg (hreg _), State.rd_bump_same]
  · rw [State.keep_settle]
    simp
  · rw [State.raised_keep_settle, State.raised_raise_same]
  · rw [hreg, State.reg_bump_ne _ (by simpa using ha)]
  · rw [State.keep_settle]
    simp

/-- A due marker peg leaves its queue and starts the units that name it (R243). -/
theorem timePage_marker (s : State) (t : PT) (b : Fin 8) (idx : Fin 64) {p : Peg} {q : List Peg}
    (h : (s.arrive t).headDue (laneAddr b 7 idx) p q) :
    ∃ s', exec (.marker t b idx) s = .next s' ∧ s'.queue (laneAddr b 7 idx) = q ∧
      (∀ k : Fin 4, ((s.arrive t).tiu b k).armed = true →
        srcKey ((s.arrive t).rd (stampPg b + Off.STAMP_TIU_START_SRC k)) = (2, idx.val, 0) →
        (s'.tiu b k).starts = ((s.arrive t).tiu b k).starts ++ [p.pt]) ∧
      (s.arrive t).sameQueues s' (laneAddr b 7 idx) ∧
      (s.arrive t).sameRegs s' ((List.range 4).map fun k => stampPg b + Off.STAMP_TIU_STAT k) ∧
      s' = { s.arrive t with
        regs := s'.regs, ev := s'.ev, tius := s'.tius, fres := s'.fres, queues := s'.queues, touched := s'.touched,
        seqs := s'.seqs } := by
  rw [exec_marker]
  refine runAt_next (x := (((s.arrive t).setQueue (laneAddr b 7 idx) q).offerStamp b (2, idx, 0) p.pt).noteEff p.owner p.pt)
    (by rw [State.popPeg_headDue h]) ?_
  generalize s.arrive t = u
  have hstamps := (u.setQueue (laneAddr b 7 idx) q).onlyStamps_offerStamp b (2, idx, 0) p.pt
  have hregs := (u.setQueue (laneAddr b 7 idx) q).sameRegs_offerStamp b (2, idx, 0) p.pt
  have hstart := State.offerStamp_starts (s := u.setQueue (laneAddr b 7 idx) q) (b := b) (i := idx) (x := p.pt)
  revert hstamps hregs hstart
  generalize (u.setQueue (laneAddr b 7 idx) q).offerStamp b (2, idx, 0) p.pt = y
  intro hstamps hregs hstart
  have hqueue : ∀ l, (u.keep (y.noteEff p.owner p.pt).settle).queue l = (u.setQueue (laneAddr b 7 idx) q).queue l := fun l => by
    obtain ⟨_, _, _, rfl⟩ := hstamps
    simp [State.queue]
  have hvar : y.variant = u.variant := by obtain ⟨_, _, _, rfl⟩ := hstamps; rfl
  refine ⟨?_, fun k ha hsrc => ?_, fun l hl => ?_, fun a ha => ?_, ?_⟩
  · rw [hqueue, State.queue_setQueue_same]
  · have htiu : (u.keep (y.noteEff p.owner p.pt).settle).tiu b k = y.tiu b k := by simp [State.tiu]
    rw [htiu, hstart k ha hsrc]
    rfl
  · rw [hqueue, State.queue_setQueue_ne _ _ _ _ hl]
  · rw [State.reg_keep_settle (by simp [hvar]), State.reg_noteEff, hregs a ha]
    rfl
  · obtain ⟨_, _, _, rfl⟩ := hstamps
    rw [State.keep_settle, State.noteEff, State.updShot_seqs]
    rfl

/-! ### The alarm's commands -/

/-- Arming the alarm, in the outcome of its command. -/
theorem State.alarmArm_keep (u : State) (b : Nat) : u.sameRegs (u.keep (u.alarmArm b).settle) [timePg b + Off.TIME_ALARM_CTRL] ∧
    u.keep (u.alarmArm b).settle =
      { u with regs := (u.keep (u.alarmArm b).settle).regs, ev := (u.keep (u.alarmArm b).settle).ev } :=
  ⟨State.sameRegs_keep (u.sameRegs_alarmArm b) (u.onlyRegs_alarmArm b).variant, (u.onlyRegs_alarmArm b).keep⟩

/-- A write of ALARM_PT_LO while the alarm is armed arms it again for the new PT (R49). -/
theorem timePage_ptLoWrite (s : State) (t : PT) (b : Fin 8) (w : Writer) (addr : Fin 0x4000000) (v : Word)
    (haddr : addr.val = timePg b + Off.TIME_ALARM_PT_LO) (ht : (s.arrive t).takes b (timePg b))
    (harmed : (s.arrive t).bit (timePg b + Off.TIME_ALARM_CTRL) 0 = true) {p : Nat}
    (hp : p = v.toNat + (s.arrive t).held w (addr.val + 4) * 2 ^ 32 +
      (s.arrive t).held w (addr.val + 8) % 2 ^ 16 * 2 ^ 64) :
    ∃ s', exec (.ptLoWrite t w addr v) s = .next s' ∧ s'.rd80 (timePg b + Off.TIME_ALARM_PT_LO) = p ∧
      ((s.arrive t).ptOf ((s.arrive t).tick (s.arrive t).now + 80) ≤ p → s'.rd (timePg b + Off.TIME_ALARM_CTRL) = 1) ∧
      (p < (s.arrive t).ptOf ((s.arrive t).tick (s.arrive t).now + 80) →
        s'.rd (timePg b + Off.TIME_ALARM_CTRL) = 2 ∧ s'.raised (timePg b) 3 = true) ∧
      (s.arrive t).sameRegs s' [addr.val, addr.val + 4, addr.val + 8, timePg b + Off.TIME_ALARM_CTRL] ∧
      s' = { s.arrive t with regs := s'.regs, ev := s'.ev } := by
  obtain ⟨hhas, hl⟩ := ht
  have hb : b.val < (s.arrive t).variant.bents := by simpa [State.has] using hhas
  obtain ⟨ha, hpg, hbent, hoff, ⟨pr, hrow, hk⟩, r, hr, hacc⟩ := alarmPt_row haddr hb b.isLt
  have hw : ptWord pr.kind (addr.val % 0x1000) = some (Off.TIME_ALARM_PT_LO, 0) := by rw [hk, hoff]; rfl
  refine ptLoWrite_next_taken (lo := Off.TIME_ALARM_PT_LO) rfl ha hrow hw (by rw [hpg, hl]) hr hacc ?_
  rw [State.takePt_armed haddr hpg hbent hk harmed]
  generalize s.arrive t = u at hp
  have hnear : (u.putPt w addr.val v).ptOf ((u.putPt w addr.val v).tick (u.putPt w addr.val v).now + 80) =
      u.ptOf (u.tick u.now + 80) := rfl
  have hput : (u.putPt w addr.val v).rd80 (timePg b + Off.TIME_ALARM_PT_LO) = p := by rw [← haddr, State.putPt_rd80, hp]
  have honly := (u.onlyRegs_putPt w addr.val v).trans (State.onlyRegs_alarmArm _ b.val)
  refine ⟨?_, fun h => ?_, fun h => ?_, fun a hmem => ?_, honly.keep⟩
  · rw [← hput]
    refine State.rd80_of_reg fun c hc => (State.reg_keep_settle honly.variant c).trans (State.alarmArm_reg_ne _ ?_)
    rintro rfl
    simp [Off.TIME_ALARM_PT_LO, Off.TIME_ALARM_CTRL] at hc
  · rw [honly.rd_keep, State.alarmArm_rd_ahead _ _ (by rw [hnear, hput]; exact h)]
  · obtain ⟨hctrl, hraised⟩ := State.alarmArm_rd_near (u.putPt w addr.val v) b (by rw [hnear, hput]; exact h)
    rw [honly.rd_keep, State.raised_keep_settle]
    exact ⟨hctrl, hraised⟩
  · simp only [List.mem_cons, List.not_mem_nil, or_false, not_or] at hmem
    obtain ⟨h0, h4, h8, hc⟩ := hmem
    rw [State.reg_keep_settle honly.variant, State.alarmArm_reg_ne _ hc, State.putPt_reg_ne _ _ _ (by simp [h0, h4, h8])]

/-- The alarm's bit cleared, and what a command leaves of it. -/
theorem State.alarmOff_keep (u : State) {b : Nat} {x : State}
    (hx : x = u.setBit (timePg b + Off.TIME_ALARM_CTRL) 0 false ∨
      ∃ p, x = (u.setBit (timePg b + Off.TIME_ALARM_CTRL) 0 false).raiseAt (timePg b) 3 p 0 false) :
    (u.keep x.settle).bit (timePg b + Off.TIME_ALARM_CTRL) 0 = false ∧
      u.sameRegs (u.keep x.settle) [timePg b + Off.TIME_ALARM_CTRL] ∧
      u.keep x.settle = { u with regs := (u.keep x.settle).regs, ev := (u.keep x.settle).ev } := by
  have hoff : u.onlyRegs (u.setBit (timePg b + Off.TIME_ALARM_CTRL) 0 false) := u.onlyRegs_wr _ _
  have honly : u.onlyRegs x := by
    rcases hx with rfl | ⟨p, rfl⟩
    · exact hoff
    · exact hoff.trans (State.onlyRegs_raiseAt _ _ _ _ _ _)
  have hreg : ∀ a, (u.keep x.settle).reg a = (u.setBit (timePg b + Off.TIME_ALARM_CTRL) 0 false).reg a := fun a => by
    rw [State.reg_keep_settle honly.variant]
    rcases hx with rfl | ⟨p, rfl⟩
    · rfl
    · exact State.reg_raiseAt _ _ _ _ _ _ _
  refine ⟨?_, fun a ha => ?_, honly.keep⟩
  · rw [State.bit_of_reg (hreg _), State.bit_setBit_same _ _ _ _ (by decide)]
  · rw [hreg, State.reg_setBit_ne _ _ _ (by simpa using ha)]

/-- Settles O5: the alarm by where ALARM_PT lies, the edges of PPS by what judging them leaves, and a marker by the fold of
the stamps it offers. -/
theorem timePage : Obligations.TimePage := by
  refine ⟨fun s u t b hu => ?_, fun s u t hu => ?_⟩
  · subst hu
    obtain ⟨hsame, honly⟩ := (s.arrive t).alarmArm_keep b
    refine ⟨fun ht h => ?_, fun ht h => ?_, fun ht => ?_, fun w addr v p ha ht harmed hp => ?_, fun harmed hdue => ?_⟩
    · rw [exec_alarmArm]
      refine runAt_next (State.command_takes ht _) ⟨?_, hsame, honly⟩
      rw [((s.arrive t).onlyRegs_alarmArm b).rd_keep, State.alarmArm_rd_ahead _ _ h]
    · rw [exec_alarmArm]
      obtain ⟨hctrl, hraised⟩ := State.alarmArm_rd_near _ _ h
      refine runAt_next (State.command_takes ht _) ⟨?_, ?_, hsame, honly⟩
      · rw [State.bit, ((s.arrive t).onlyRegs_alarmArm b).rd_keep, hctrl]
        rfl
      · rw [State.raised_keep_settle, hraised]
    · rw [exec_alarmDisarm]
      exact runAt_next (State.command_takes ht _) (State.alarmOff_keep _ (.inl rfl))
    · exact timePage_ptLoWrite s t b w addr v ha ht harmed hp
    · obtain ⟨hbit, hregs, hrest⟩ := (s.arrive t).alarmOff_keep (b := b) (.inr ⟨_, rfl⟩)
      rw [exec_alarm]
      refine runAt_next (if_pos ?_) ⟨hbit, ?_, hregs, hrest⟩
      · simp [harmed, hdue]
      · rw [State.raised_keep_settle, State.raised_raiseAt_same]
  · subst hu
    exact ⟨fun falling stamp hon hrun hpol => timePage_ppsEdge s t stamp falling hon hrun hpol,
      fun e he hon hlate => timePage_ppsMissing s t he hon hlate, fun b idx p q h => timePage_marker s t b idx h⟩

end Sys2Proof.Machine
end

section
/-!
PROOFS. Pegs that reach their lane (R43–R45, R304, R447, R448): what a lane asks of a peg, and what becomes of it.
-/

namespace Sys2Proof.Machine

/-! ### The lane of an address (R38) -/

theorem laneBent_laneAddr (b kind : Fin 8) (idx : Fin 256) : laneBent (laneAddr b kind idx) = b := by
  unfold laneBent laneAddr
  omega

theorem laneKind_laneAddr (b kind : Fin 8) (idx : Fin 256) : laneKind (laneAddr b kind idx) = kind := by
  unfold laneKind laneAddr
  omega

/-! ### A peg on its way leaves all but its flight -/

/-- What a lane queues of a payload does not depend on the pegs on their way. -/
theorem State.checkPeg_setFlight (s : State) (lane : Nat) (p : Peg) (r : List Peg) :
    ((s.setFlight lane r).checkPeg lane p).getRight? = (s.checkPeg lane p).getRight? := by
  unfold State.checkPeg State.tonePeg State.capPeg
  simp only [apply_ite Sum.getRight?, Sum.getRight?_inl, Sum.getRight?_inr]
  rfl

/-- The control register of a tone or flux lane stands on one of the converter pages of its bent. -/
theorem toneCtrl_page {lane : Nat} (h : laneIdx lane < kindCount (laneKind lane)) (hk : 1 ≤ laneKind lane ∧ laneKind lane ≤ 3) :
    ∃ p o, p < 0x10 ∧ o < 0x1000 ∧ toneCtrl lane = bp (laneBent lane) p + o := by
  have hno := toneBlock_lt h hk
  have h1 : laneKind lane = 1 → laneIdx lane < 64 := fun e => by rwa [e] at h
  have h3 : laneKind lane = 3 → laneIdx lane < 16 := fun e => by rwa [e] at h
  obtain ⟨p, hp, hpage⟩ : ∃ p, p < 0x10 ∧ tonePg lane = bp (laneBent lane) p := by
    unfold tonePg
    dsimp only
    split_ifs <;> exact ⟨_, by omega, rfl⟩
  unfold toneCtrl
  rw [hpage]
  split_ifs
  · exact ⟨p, _, hp, by unfold Off.FLUX_FLX_CTRL; omega, rfl⟩
  · exact ⟨p, _, hp, by unfold Off.TONE_TONE_CTRL; omega, rfl⟩

/-- LATE_POLICY stands on a page of the lane's bent below the ENERGY page. -/
theorem State.latePolicy_congr {s x : State} {lane : Nat} (hidx : laneIdx lane < kindCount (laneKind lane))
    (h : ∀ p o, p < 0x19 → o < 0x1000 → x.reg (bp (laneBent lane) p + o) = s.reg (bp (laneBent lane) p + o)) :
    x.latePolicy lane = s.latePolicy lane := by
  have hfld : ∀ p o lo, p < 0x19 → o < 0x1000 →
      x.fld (bp (laneBent lane) p + o) lo 2 = s.fld (bp (laneBent lane) p + o) lo 2 := fun p o lo hp ho =>
    congrArg (bits · lo 2) (State.rd_of_reg (h p o hp ho))
  have h0 : laneKind lane = 0 → laneIdx lane < 32 := fun e => by rwa [e] at hidx
  have h4 : laneKind lane = 4 → laneIdx lane < 4 := fun e => by rwa [e] at hidx
  have h5 : laneKind lane = 5 → laneIdx lane < 16 := fun e => by rwa [e] at hidx
  have h6 : laneKind lane = 6 → laneIdx lane < 8 := fun e => by rwa [e] at hidx
  unfold State.latePolicy
  dsimp only
  split
  · exact hfld _ _ _ (by omega) (by unfold Off.EDGE_CH_CTRL; omega)
  split
  · obtain ⟨p, o, hp, ho, he⟩ := toneCtrl_page hidx (by omega)
    rw [he]
    exact hfld _ _ _ (by omega) ho
  split
  · exact hfld _ _ _ (by omega) (by decide)
  split
  · exact hfld _ _ _ (by decide) (by unfold Off.SEGMENT_STR_CFG; omega)
  split
  · split
    · exact hfld _ _ _ (by decide) (by unfold Off.STAMP_TIU_CTRL; omega)
    · exact hfld _ _ _ (by decide) (by unfold Off.FREQ_FRE_CTRL; omega)
  · exact hfld _ _ _ (by decide) (by decide)

/-! ### Queued (R42, R44) -/

/-- A lane whose queue gains a peg falls not idle. -/
theorem State.setQueue_insert (s : State) (lane : Nat) (p : Peg) :
    s.setQueue lane (insertPeg (s.queue lane) p) =
      { s with queues := (s.setQueue lane (insertPeg (s.queue lane) p)).queues } := by
  have hne : (insertPeg (s.queue lane) p).isEmpty = false := by
    cases s.queue lane with
    | nil => rfl
    | cons q r =>
      rw [insertPeg]
      split <;> rfl
  rw [State.setQueue, hne, Bool.and_false]
  rfl

/-- A peg that meets none of its PT, and reads no poisoned word, joins the queue. -/
theorem State.enqueue_joins {s : State} {lane : Nat} {p : Peg} (h : ∀ x ∈ s.queue lane, x.pt ≠ p.pt)
    (hp : p.poisoned lane = false) : s.enqueue lane p = s.setQueue lane (insertPeg (s.queue lane) p) := by
  have hany : ((s.queue lane).any fun q => q.pt == p.pt) = false := by simpa using h
  simp [State.enqueue, hany, hp]

/-- An input whose state stays busy or idle falls not idle. -/
theorem State.setCap_busy {s : State} {b i : Nat} {x : CapSt} (h : x.busy = (s.cap b i).busy) :
    s.setCap b i x = { s with caps := (s.setCap b i x).caps } := by
  rw [State.setCap, h, Bool.and_not_self]
  rfl

/-- A capture lane's count of what it accepts is all that accepting changes. -/
theorem State.accepted_caps (s : State) (lane : Nat) : ∃ c, s.accepted lane = { s with caps := c } := by
  unfold State.accepted
  split
  · exact ⟨_, State.setCap_busy rfl⟩
  · exact ⟨s.caps, rfl⟩

/-! ### The lead test (R44, R448) -/

/-- The instant from which the lane's group runs. -/
def State.wakingTo (s : State) (lane : Nat) : Nat :=
  match s.laneGroup lane with
  | none => 0
  | some g => max ((s.wakeAt (laneBent lane) g).getD 0) ((s.wakeAt (laneBent lane) 13).getD 0)

theorem State.wakingTo_le_liveAt (s : State) (lane calLive : Nat) : s.wakingTo lane ≤ s.liveAt lane calLive :=
  le_trans (le_max_right _ _) (le_max_right _ _)

/-- Does a peg's lead suffice, and does it lie in the lane's live time? -/
def State.leads (s : State) (lane : Nat) (p : Peg) (calLive : Nat) : Prop :=
  s.clk.o + (s.tick s.now + laneLead lane) * s.clk.n ≤ p.pt ∧ s.liveAt lane calLive ≤ p.pt

theorem State.leadTest_eq (s : State) (lane : Nat) (p : Peg) (calLive : Nat) : s.leadTest lane p calLive =
    if s.clk.o + (s.tick s.now + laneLead lane) * s.clk.n ≤ p.pt && decide (s.liveAt lane calLive ≤ p.pt) then
      (if p.pt < s.wakingTo lane then s.wakeLate (laneBent lane) else s).enqueue lane p
    else (if p.pt < s.wakingTo lane then s.wakeLate (laneBent lane) else s).late lane p 0
      (some (s.slipPt lane p.pt (s.liveAt lane calLive))) := rfl

/-- A peg with lead enough is queued. -/
theorem State.leadTest_leads {s : State} {lane : Nat} {p : Peg} {calLive : Nat} (h : s.leads lane p calLive) :
    s.leadTest lane p calLive = s.enqueue lane p := by
  obtain ⟨hlead, hlive⟩ := h
  have hwake : ¬ p.pt < s.wakingTo lane := Nat.not_lt.mpr ((s.wakingTo_le_liveAt lane calLive).trans hlive)
  rw [State.leadTest_eq, if_pos (by simp [hlead, hlive]), if_neg hwake]

/-- One without it is late, WAKE_LATE recorded first if its group was waking. -/
theorem State.leadTest_late {s : State} {lane : Nat} {p : Peg} {calLive : Nat} (h : ¬ s.leads lane p calLive) :
    ∃ x, (x = s ∨ x = s.wakeLate (laneBent lane)) ∧
      s.leadTest lane p calLive = x.late lane p 0 (some (s.slipPt lane p.pt (s.liveAt lane calLive))) := by
  rw [State.leadTest_eq, if_neg (by rw [State.leads] at h; simpa using h)]
  split
  · exact ⟨_, .inr rfl, rfl⟩
  · exact ⟨_, .inl rfl, rfl⟩

/-- WAKE_LATE reaches the ENERGY page. -/
theorem State.wakeLate_reg (s : State) (b : Nat) {c p o : Nat} (hp : p < 0x19) (ho : o < 0x1000) :
    (s.wakeLate b).reg (bp c p + o) = s.reg (bp c p + o) := by
  rw [State.wakeLate, State.reg_raise]
  exact State.reg_bump_ne _ (bp_add_ne (by omega) (by decide) (by unfold Off.ENERGY_WAKE_LATE_COUNT; omega))

theorem State.onlyRegs_wakeLate (s : State) (b : Nat) : s.onlyRegs (s.wakeLate b) :=
  (s.onlyRegs_bump _).trans (State.onlyRegs_raiseAt _ _ _ _ _ _)

/-- Under DROP a late peg leaves its records alone. -/
theorem State.late_drop {s : State} {lane : Nat} (h : s.latePolicy lane = 0) (p : Peg) (cause : Nat) (slip : Option Nat) :
    s.late lane p cause slip = s.lateRecords lane p cause Off.TIME_LATE_DROP_COUNT := by
  simp [State.late, h]

/-- What a peg without lead leaves of a lane under DROP: the event, the count, and the shot's flag. -/
theorem State.leadTest_drop {s : State} {lane : Nat} (hv : s.laneValid lane = true) {p : Peg} {calLive : Nat}
    (h : ¬ s.leads lane p calLive) (hpol : s.latePolicy lane = 0) : ∃ y, s.onlyRegs y ∧
      s.leadTest lane p calLive = y.flagShot p.owner 1 ∧ y.raised (timePg (laneBent lane)) 4 = true ∧
      y.rd (timePg (laneBent lane) + Off.TIME_LATE_DROP_COUNT) =
        satAdd (s.rd (timePg (laneBent lane) + Off.TIME_LATE_DROP_COUNT)) 1 := by
  obtain ⟨x, hx, hlate⟩ := State.leadTest_late h
  have hidx := State.laneIdx_lt hv
  have honly : s.onlyRegs x := by
    rcases hx with rfl | rfl
    · exact .refl _
    · exact s.onlyRegs_wakeLate _
  have hreg : ∀ p o, p < 0x19 → o < 0x1000 → x.reg (bp (laneBent lane) p + o) = s.reg (bp (laneBent lane) p + o) := by
    intro p o hp ho
    rcases hx with rfl | rfl
    · rfl
    · exact s.wakeLate_reg _ hp ho
  have hvalid : x.laneValid lane = true := by
    rw [State.laneValid, State.has, honly.variant]
    exact hv
  rw [State.late_drop ((State.latePolicy_congr hidx hreg).trans hpol)] at hlate
  have hcount := State.lateRecords_count hvalid p 0 (c := Off.TIME_LATE_DROP_COUNT) (by decide)
  rw [State.lateRecords, State.rd_flagShot] at hcount
  refine ⟨_, ?_, hlate, State.raised_raise_same _ _ _, ?_⟩
  · exact ((honly.trans (x.onlyPage_laneLate hidx 0).1).trans (State.onlyRegs_bump _ _)).trans
      (State.onlyRegs_raiseAt _ _ _ _ _ _)
  · rw [hcount, State.rd_of_reg (hreg 3 _ (by decide) (by decide))]

/-! ### A peg taken by its lane (R447) -/

/-- A fenced page discards what reaches its lanes. -/
theorem State.takePeg_fenced {s : State} {lane : Nat} (h : s.fenced (lanePg lane) = true) (hk : laneKind lane ≠ 7) (p : Peg)
    (calLive : Nat) : s.takePeg lane p calLive = s.discardPeg lane p := by
  simp [State.takePeg, h, hk]

theorem State.onlyRegs_countDiscard (s : State) (lane n : Nat) : s.onlyRegs (s.countDiscard lane n) := by
  unfold State.countDiscard
  split
  · exact .refl s
  · exact s.onlyRegs_wr _ _

/-- A group at S0 has nothing to wake from. -/
theorem State.groupWake_awake {s : State} {b g : Nat} (h : s.fld (grpStat b g) 0 2 = 0) : s.groupWake b g = s := if_pos h

/-- The lane's group starts to wake for a peg, if it is below S0. -/
def State.roused (s : State) (lane : Nat) : State :=
  match s.laneGroup lane with
  | none => s
  | some g => s.groupWake (laneBent lane) g

theorem State.roused_awake {s : State} {lane : Nat}
    (h : ∀ g, s.laneGroup lane = some g → s.fld (grpStat (laneBent lane) g) 0 2 = 0) : s.roused lane = s := by
  unfold State.roused
  split
  · rfl
  · next g hg => exact State.groupWake_awake (h g hg)

/-- A peg accepted, its lane's group woken: it meets one of its PT, or its lead is tested. -/
def State.acceptedTest (s : State) (lane : Nat) (q : Peg) (calLive : Nat) : State :=
  if (s.queue lane).any (fun x => x.pt == q.pt) then s.enqueue lane q else s.leadTest lane q calLive

/-- A lane that is enabled, in service, awake and not draining accepts what its checks let through. -/
theorem State.takePeg_accepts {s : State} {lane : Nat} {p q : Peg} (calLive : Nat)
    (hfence : s.fenced (lanePg lane) = false ∨ laneKind lane = 7) (hen : s.laneEnabled lane = true)
    (hfault : s.laneFault lane = false) (hdrain : s.drainRefuses lane p = false) (hcheck : s.checkPeg lane p = .inr q)
    (hwake : s.unwoken lane = false) :
    s.takePeg lane p calLive = ((s.accepted lane).roused lane).acceptedTest lane q calLive := by
  have hgate : (s.fenced (lanePg lane) && laneKind lane != 7) = false := by
    rcases hfence with h | h <;> simp [h]
  unfold State.takePeg
  dsimp only
  rw [hgate, hen, hfault, hdrain, hcheck, hwake]
  rfl

/-- It tests the lead of a peg that meets none of its PT, in a lane whose group runs. -/
theorem State.takePeg_tests {s : State} {lane : Nat} {p q : Peg} (calLive : Nat)
    (htake : s.takePeg lane p calLive = ((s.accepted lane).roused lane).acceptedTest lane q calLive)
    (hgroup : ∀ g, s.laneGroup lane = some g → s.fld (grpStat (laneBent lane) g) 0 2 = 0)
    (hnew : ∀ x ∈ s.queue lane, x.pt ≠ q.pt) :
    s.takePeg lane p calLive = (s.accepted lane).leadTest lane q calLive := by
  obtain ⟨c, hc⟩ := s.accepted_caps lane
  rw [htake, State.roused_awake (by rw [hc]; exact hgroup), State.acceptedTest, if_neg]
  rw [hc]
  simpa [State.queue] using hnew

/-! ### Acceptance -/

section Accept

variable {u : State} {b kind : Fin 8} {idx : Fin 256} {lane : Nat} {p : Peg} {r : List Peg}

/-- A peg from another bent reaches a fenced one: the issuing bent counts it. -/
theorem State.acceptPeg_fencedBent {i : Owner} (hb : laneBent lane = b) (hf : u.inFlight lane = p :: r)
    (ho : p.owner = some i) (hi : i.seq / 16 ≠ b) (hfence : u.bit (conPg b + Off.CONTINUITY_CONT_STAT) 0 = true)
    (parity : Bool) (calLive : Nat) (ecc : Ecc) (word : Nat) : u.acceptPeg lane parity calLive ecc word =
      ((u.setFlight lane r).bump (conPg (i.seq / 16) + Off.CONTINUITY_FENCED_PEG_COUNT)).flagShot p.owner 1 := by
  have hfrom : p.fromBent lane = i.seq / 16 := by rw [Peg.fromBent, ho]
  have hcross : (i.seq / 16 != b.val) = true := by simpa using hi
  unfold State.acceptPeg
  simp only [hf, hb, hfrom, hcross, hfence]
  rfl

/-- A peg that arrives whole waits for room, or its lane takes it. -/
theorem State.acceptPeg_whole (hb : laneBent lane = b) (hf : u.inFlight lane = p :: r) {parity : Bool}
    (h : p.fromBent lane = b ∨ parity = false ∧ u.bit (conPg b + Off.CONTINUITY_CONT_STAT) 0 = false) (calLive word : Nat) :
    u.acceptPeg lane parity calLive .good word =
      if u.laneFull lane then u else (u.setFlight lane r).takePeg lane p calLive := by
  have hshape : (u.setFlight lane r).shapeCheck lane p .good word = u.setFlight lane r := by
    unfold State.shapeCheck
    split
    · exact State.eccRead_good _ _
    · rfl
  have hcross : ((p.fromBent lane != b.val) && u.bit (conPg b + Off.CONTINUITY_CONT_STAT) 0) = false ∧
      ((p.fromBent lane != b.val) && parity) = false := by
    rcases h with h | ⟨rfl, h⟩
    · simp [h]
    · simp [h]
  obtain ⟨hfence, hparity⟩ := hcross
  unfold State.acceptPeg
  rw [hf]
  dsimp only
  rw [hb, hshape, hfence, hparity]
  rfl

variable {s : State} {t live : PT} {read : PegRead} {P : State → Prop}

/-- The peg's acceptance by how it was read. -/
def State.acceptRead (u : State) (lane : Nat) (read : PegRead) (calLive : Nat) : State :=
  match read with
  | .parity => u.acceptPeg lane true calLive .good 0
  | .whole ecc word => u.acceptPeg lane false calLive ecc word

theorem pegAccept_next {x : State} (hv : (s.arrive t).laneValid (laneAddr b kind idx) = true)
    (hx : (s.arrive t).acceptRead (laneAddr b kind idx) read live.toNat = x)
    (h : P ((s.arrive t).keepMem x.settle)) : ∃ s', exec (.pegAccept t b kind idx read live) s = .next s' ∧ P s' := by
  rw [exec_pegAccept]
  refine runMem_next ?_ h
  dsimp only
  rw [if_pos hv]
  exact hx

/-- A peg that arrives whole answers what its lane leaves. -/
theorem pegAccept_whole (hv : (s.arrive t).laneValid (laneAddr b kind idx) = true)
    (hf : (s.arrive t).inFlight (laneAddr b kind idx) = p :: r)
    (hread : read = .parity ∧ p.fromBent (laneAddr b kind idx) = b ∨ (∃ word, read = .whole .good word) ∧
      (p.fromBent (laneAddr b kind idx) = b ∨ (s.arrive t).bit (conPg b + Off.CONTINUITY_CONT_STAT) 0 = false))
    (h : P ((s.arrive t).keepMem (if (s.arrive t).laneFull (laneAddr b kind idx) then s.arrive t
      else ((s.arrive t).setFlight (laneAddr b kind idx) r).takePeg (laneAddr b kind idx) p live.toNat).settle)) :
    ∃ s', exec (.pegAccept t b kind idx read live) s = .next s' ∧ P s' := by
  have hb := laneBent_laneAddr b kind idx
  refine pegAccept_next hv ?_ h
  rcases hread with ⟨rfl, hp⟩ | ⟨⟨word, rfl⟩, hp⟩
  · exact State.acceptPeg_whole hb hf (.inl hp) _ _
  · exact State.acceptPeg_whole hb hf (hp.imp_right fun hp => ⟨rfl, hp⟩) _ _

end Accept

/-- A lane of a fenced page is never full. -/
theorem State.laneFull_fenced {s : State} {lane : Nat} (h : s.fenced (lanePg lane) = true) : s.laneFull lane = false := by
  simp [State.laneFull, h]

/-- A shot's flag, registers counted and a flight: what a command that reaches the memories leaves of them. -/
theorem State.keepMem_flagShot {u x : State} {lane : Nat} {r : List Peg} (h : (u.setFlight lane r).onlyRegs x)
    (o : Option Owner) (i : Nat) : u.keepMem (x.flagShot o i).settle = { u with
      regs := (u.keepMem (x.flagShot o i).settle).regs, ev := (u.keepMem (x.flagShot o i).settle).ev
      flight := (u.keepMem (x.flagShot o i).settle).flight, seqs := (u.keepMem (x.flagShot o i).settle).seqs } := by
  obtain ⟨_, _, rfl⟩ := h
  rw [State.keepMem_settle, State.flagShot, State.updShot_seqs]
  rfl

/-- In it the lane's flight is as it was put. -/
theorem State.inFlight_flagShot_keepMem {u x : State} {lane : Nat} {r : List Peg} (h : (u.setFlight lane r).onlyRegs x)
    (o : Option Owner) (i : Nat) : (u.keepMem (x.flagShot o i).settle).inFlight lane = r := by
  have hflight : x.inFlight lane = r := by
    obtain ⟨_, _, rfl⟩ := h
    exact State.inFlight_setFlight_same u lane r
  rw [State.inFlight_keepMem, State.inFlight_settle, State.inFlight_flagShot, hflight]

/-- The pegs of a lane still on their way and the counts of capture inputs, put. -/
def State.putLane (u : State) (lane : Nat) (r : List Peg) (c : SMap CapSt) : State := { u.setFlight lane r with caps := c }

/-- A lane that takes a peg tests its lead with the peg no longer on its way. -/
theorem State.takePeg_putLane {u : State} {lane : Nat} {p q : Peg} (r : List Peg) (calLive : Nat)
    (hfence : u.fenced (lanePg lane) = false ∨ laneKind lane = 7) (hen : u.laneEnabled lane = true)
    (hfault : u.laneFault lane = false) (hdrain : u.drainRefuses lane p = false) (hcheck : u.checkPeg lane p = .inr q)
    (hwake : u.unwoken lane = false) (hgroup : ∀ g, u.laneGroup lane = some g → u.fld (grpStat (laneBent lane) g) 0 2 = 0)
    (hnew : ∀ x ∈ u.queue lane, x.pt ≠ q.pt) :
    ∃ c, (u.setFlight lane r).takePeg lane p calLive = (u.putLane lane r c).leadTest lane q calLive := by
  obtain ⟨c, hc⟩ := (u.setFlight lane r).accepted_caps lane
  have hcheck' : (u.setFlight lane r).checkPeg lane p = .inr q :=
    Sum.getRight?_eq_some_iff.mp ((u.checkPeg_setFlight lane p r).trans (by rw [hcheck]; rfl))
  have htake := State.takePeg_accepts (s := u.setFlight lane r) calLive hfence hen hfault hdrain hcheck' hwake
  exact ⟨c, (State.takePeg_tests calLive htake hgroup hnew).trans (by rw [hc]; rfl)⟩

/-- A peg that joins its lane's queue, in a command's outcome. -/
theorem State.keepMem_joined (u : State) {lane : Nat} (r : List Peg) (c : SMap CapSt) {q : Peg}
    (hnew : ∀ x ∈ u.queue lane, x.pt ≠ q.pt) (hpoison : q.poisoned lane = false) {x : State}
    (hx : x = (u.putLane lane r c).enqueue lane q) :
    (u.keepMem x.settle).queue lane = insertPeg (u.queue lane) q ∧ u.sameQueues (u.keepMem x.settle) lane ∧
      (u.keepMem x.settle).inFlight lane = r ∧ (∀ a, (u.keepMem x.settle).reg a = u.reg a) ∧
      u.keepMem x.settle = { u with
        regs := (u.keepMem x.settle).regs, ev := (u.keepMem x.settle).ev, flight := (u.keepMem x.settle).flight
        queues := (u.keepMem x.settle).queues, caps := (u.keepMem x.settle).caps } := by
  have hjoin : x = (u.putLane lane r c).setQueue lane (insertPeg (u.queue lane) q) :=
    hx.trans (State.enqueue_joins hnew hpoison)
  have hqueues : x = { u.putLane lane r c with queues := x.queues } := hjoin.trans ((State.setQueue_insert _ _ _).trans
    (by rw [hjoin]; rfl))
  refine ⟨?_, fun l hl => ?_, ?_, fun a => ?_, ?_⟩
  · rw [State.queue_keepMem, State.queue_settle, hjoin, State.queue_setQueue_same]
  · rw [State.queue_keepMem, State.queue_settle, hjoin, State.queue_setQueue_ne _ _ _ _ hl]
    rfl
  · rw [State.inFlight_keepMem, State.inFlight_settle, hqueues]
    exact State.inFlight_setFlight_same u lane r
  · have hvar : x.variant = u.variant := by rw [hqueues]; rfl
    rw [State.reg_keepMem_settle hvar, hqueues]
    rfl
  · rw [State.keepMem_settle, hqueues]
    rfl

/-- A late peg dropped, in a command's outcome. -/
theorem State.keepMem_dropped {u y : State} {lane : Nat} {r : List Peg} {c : SMap CapSt} (h : (u.putLane lane r c).onlyRegs y)
    (o : Option Owner) (i : Nat) :
    (u.keepMem (y.flagShot o i).settle).queues = u.queues ∧ (u.keepMem (y.flagShot o i).settle).inFlight lane = r ∧
      (∀ pg j, (u.keepMem (y.flagShot o i).settle).raised pg j = y.raised pg j) ∧
      (∀ a, (u.keepMem (y.flagShot o i).settle).rd a = y.rd a) ∧
      u.keepMem (y.flagShot o i).settle = { u with
        regs := (u.keepMem (y.flagShot o i).settle).regs, ev := (u.keepMem (y.flagShot o i).settle).ev
        flight := (u.keepMem (y.flagShot o i).settle).flight, caps := (u.keepMem (y.flagShot o i).settle).caps
        seqs := (u.keepMem (y.flagShot o i).settle).seqs } := by
  have hvar : y.variant = u.variant := h.variant
  refine ⟨?_, ?_, fun pg j => by simp [State.raised], fun a => by simp [hvar], ?_⟩
  · have hqueues : y.queues = u.queues := h.queues
    simpa using hqueues
  · rw [State.inFlight_keepMem, State.inFlight_settle, State.inFlight_flagShot]
    obtain ⟨_, _, rfl⟩ := h
    exact State.inFlight_setFlight_same u lane r
  · obtain ⟨_, _, rfl⟩ := h
    rw [State.keepMem_settle, State.flagShot, State.updShot_seqs]
    rfl

/-- Settles O39: the first peg on its way, by what its bent, its page and its lane make of it. -/
theorem pegAcceptance : Obligations.PegAcceptance := by
  intro s u t b kind idx read live lane p r hu hlane hv hf
  subst hu hlane
  have hb := laneBent_laneAddr b kind idx
  have hkind := laneKind_laneAddr b kind idx
  refine ⟨fun i ho hi hfence => ?_, fun hread => ⟨fun hfull => ?_, fun hfence hk => ?_,
    fun q hfull hfence hen hfault hdrain hcheck hpoison hwake hgroup hnew => ⟨fun hlead hlive => ?_, fun hlate hpol => ?_⟩⟩⟩
  · have honly := ((s.arrive t).setFlight (laneAddr b kind idx) r).onlyRegs_bump
      (conPg (i.seq / 16) + Off.CONTINUITY_FENCED_PEG_COUNT)
    refine pegAccept_next hv (x := (((s.arrive t).setFlight (laneAddr b kind idx) r).bump
      (conPg (i.seq / 16) + Off.CONTINUITY_FENCED_PEG_COUNT)).flagShot p.owner 1) ?_
      ⟨?_, State.inFlight_flagShot_keepMem honly _ _, ?_, fun a ha => ?_, State.keepMem_flagShot honly _ _⟩
    · cases read <;> exact State.acceptPeg_fencedBent hb hf ho hi hfence _ _ _ _
    · simp
    · simp
    · simp at ha
      simp [State.reg_bump_ne _ ha]
  · refine pegAccept_whole hv hf hread ?_
    rw [if_pos hfull]
    rw [State.keepMem_settle]
  · refine pegAccept_whole hv hf hread ?_
    have honly := State.onlyRegs_countDiscard ((s.arrive t).setFlight (laneAddr b kind idx) r) (laneAddr b kind idx) 1
    rw [State.laneFull_fenced hfence, if_neg (by decide), State.takePeg_fenced (by exact hfence) (by rw [hkind]; exact hk)]
    exact ⟨State.inFlight_flagShot_keepMem honly _ _, State.keepMem_flagShot honly _ _⟩
  · obtain ⟨c, htake⟩ := State.takePeg_putLane r live.toNat (hfence.imp_right hkind.trans) hen hfault hdrain hcheck hwake
      (fun g hg => by rw [hb]; exact (hgroup g hg).1) hnew
    refine pegAccept_whole hv hf hread ?_
    rw [hfull, if_neg (by decide), htake, State.leadTest_leads (by exact ⟨hlead, hlive⟩)]
    obtain ⟨hqueue, hqueues, hflight, hregs, hrest⟩ := (s.arrive t).keepMem_joined r c hnew hpoison rfl
    exact ⟨hqueue, hqueues, hflight, fun a _ => hregs a, hrest⟩
  · obtain ⟨c, htake⟩ := State.takePeg_putLane r live.toNat (hfence.imp_right hkind.trans) hen hfault hdrain hcheck hwake
      (fun g hg => by rw [hb]; exact (hgroup g hg).1) hnew
    have hnot : ¬ ((s.arrive t).putLane (laneAddr b kind idx) r c).leads (laneAddr b kind idx) q live.toNat := fun h =>
      hlate.elim (Nat.not_lt.mpr h.1) (Nat.not_lt.mpr h.2)
    obtain ⟨y, honly, hdrop, hraised, hcount⟩ := State.leadTest_drop (by exact hv) hnot (by exact hpol)
    refine pegAccept_whole hv hf hread ?_
    rw [hfull, if_neg (by decide), htake, hdrop]
    obtain ⟨hqueues, hflight, hraise, hrd, hrest⟩ := State.keepMem_dropped honly q.owner 1
    rw [hb] at hraised hcount
    exact ⟨hqueues, hflight, (hraise _ _).trans hraised, (hrd _).trans hcount, hrest⟩

end Sys2Proof.Machine
end

section
/-!
PROOFS. The sills' operations (R67–R94): what their loops, locks, coasts and takeovers reach.
-/

namespace Sys2Proof.Machine

/-! ### What an operation of the sills reaches -/

/-- A state with what the operations of the sills may change set aside: registers, events, the sills and their outputs, the
timebase, calibrations, captures, instruments and shots. -/
def State.sansSills (s : State) : State :=
  { s with
    regs := [], ev := State.reset.ev, sills := [], tb := State.reset.tb, souts := [], cals := [], caps := [], takeovers := []
    tius := [], fres := [], touched := [], seqs := [] }

/-- An operation of the sills: of the registers it reaches those at some offsets of their pages, and every event raised before
stays raised. -/
def State.works (s x : State) (l : List Nat) : Prop :=
  x.sansSills = s.sansSills ∧ (∀ a, a % 0x1000 ∉ l → x.reg a = s.reg a) ∧ ∀ pg i, s.raised pg i = true → x.raised pg i = true

section Works

variable {s x y : State} {l : List Nat}

theorem State.works.refl (s : State) (l : List Nat) : s.works s l := ⟨rfl, fun _ _ => rfl, fun _ _ h => h⟩

theorem State.works.trans (h : s.works x l) (k : x.works y l) : s.works y l := by
  obtain ⟨h1, h2, h3⟩ := h
  obtain ⟨k1, k2, k3⟩ := k
  exact ⟨k1.trans h1, fun a ha => (k2 a ha).trans (h2 a ha), fun pg i hr => k3 pg i (h3 pg i hr)⟩

theorem State.works.mono {m : List Nat} (h : s.works x l) (hlm : l ⊆ m) : s.works x m :=
  ⟨h.1, fun a ha => h.2.1 a fun hl => ha (hlm hl), h.2.2⟩

theorem State.works.variant (h : s.works x l) : x.variant = s.variant := by
  have he : x.sansSills.variant = s.sansSills.variant := congrArg State.variant h.1
  exact he

theorem State.works.ridge (h : s.works x l) : x.ridge = s.ridge := by
  have he : x.sansSills.ridge = s.sansSills.ridge := congrArg State.ridge h.1
  exact he

/-- Nothing but what the sills' operations may change, and neither registers nor events. -/
theorem State.works_of (h : s.works x l) (hy : y.sansSills = x.sansSills) (hr : y.regs = x.regs) (he : y.ev = x.ev) :
    s.works y l := by
  have hv : y.sansSills.variant = x.sansSills.variant := congrArg State.variant hy
  refine h.trans ⟨hy, fun a _ => State.reg_congr a hr hv, fun pg i hx => ?_⟩
  rw [State.raised, he]
  exact hx

theorem State.works_wr (h : s.works x l) {a : Nat} (ha : a % 0x1000 ∈ l) (v : Nat) : s.works (x.wr a v) l :=
  h.trans ⟨rfl, fun _ hc => x.reg_wr_ne v fun e => hc (e ▸ ha), fun _ _ hr => hr⟩

theorem State.works_setBit (h : s.works x l) {a : Nat} (ha : a % 0x1000 ∈ l) (i : Nat) (b : Bool) :
    s.works (x.setBit a i b) l := State.works_wr h ha _

theorem State.works_setFld (h : s.works x l) {a : Nat} (ha : a % 0x1000 ∈ l) (lo len v : Nat) :
    s.works (x.setFld a lo len v) l := State.works_wr h ha _

theorem State.works_bump (h : s.works x l) {a : Nat} (ha : a % 0x1000 ∈ l) : s.works (x.bump a) l := State.works_wr h ha _

theorem State.works_wr80 (h : s.works x l) {a : Nat} (h0 : a % 0x1000 ∈ l) (h4 : (a + 4) % 0x1000 ∈ l)
    (h8 : (a + 8) % 0x1000 ∈ l) (v : Nat) : s.works (x.wr80 a v) l :=
  State.works_wr (State.works_wr (State.works_wr h h0 _) h4 _) h8 _

theorem State.works_setSill (h : s.works x l) (b k : Nat) (z : Sill) : s.works (x.setSill b k z) l :=
  State.works_of h rfl rfl rfl

theorem State.works_setTakeover (h : s.works x l) (b : Nat) (z : Option (Nat × Bool)) : s.works (x.setTakeover b z) l :=
  State.works_of h rfl rfl rfl

theorem State.works_raise (h : s.works x l) (pg i : Nat) : s.works (x.raise pg i) l := by
  refine h.trans ⟨?_, fun a _ => State.reg_raise _ _ _ _, fun _ _ hr => State.raised_raise_mono hr pg i⟩
  obtain ⟨e, he⟩ := x.raiseAt_ev pg i x.now 0 false
  rw [State.raise, he]
  rfl

theorem State.works_latchHealth (h : s.works x l) (pg c : Nat) : s.works (x.latchHealth pg c) l :=
  h.trans ⟨rfl, fun _ _ => rfl, fun _ _ hr => hr⟩

theorem State.works_category (h : s.works x l) (c b : Nat) (on : Bool) : s.works (x.category c b on) l :=
  h.trans ⟨rfl, fun _ _ => rfl, fun _ _ hr => hr⟩

theorem State.works_standing (h : s.works x l) (pg c : Nat) (on : Bool) : s.works (x.standing pg c on) l := by
  have hset : s.works { x with ev := { x.ev with standing := setPut x.ev.standing (pg * 256 + c) on } } l :=
    h.trans ⟨rfl, fun _ _ => rfl, fun _ _ hr => hr⟩
  unfold State.standing
  dsimp only
  split
  · exact State.works_raise hset _ _
  · exact hset

theorem State.works_foldl {α : Type} {f : State → α → State} (hf : ∀ (s : State) a, s.works (f s a) l) (m : List α)
    (s : State) : s.works (m.foldl f s) l := by
  induction m generalizing s with
  | nil => exact .refl s l
  | cons a m ih => exact (hf s a).trans (ih _)

end Works

/-- A register of a page stands at its offset. -/
theorem mem_bp {b p o : Nat} {l : List Nat} (h : o < 0x1000 ∧ o ∈ l) : (bp b p + o) % 0x1000 ∈ l := by
  have he : (bp b p + o) % 0x1000 = o := by unfold bp; omega
  rw [he]
  exact h.2

theorem mem_bp_add {b p o c : Nat} {l : List Nat} (h : o + c < 0x1000 ∧ o + c ∈ l) : (bp b p + o + c) % 0x1000 ∈ l := by
  rw [Nat.add_assoc]
  exact mem_bp h

theorem mem_pkgp {q o : Nat} {l : List Nat} (h : o < 0x1000 ∧ o ∈ l) : (pkgp q + o) % 0x1000 ∈ l := by
  have he : (pkgp q + o) % 0x1000 = o := by unfold pkgp; omega
  rw [he]
  exact h.2

/-! ### Loops and locks (R67, R73, R86) -/

theorem State.works_updates (s : State) (b k : Nat) (edges : List Nat) :
    s.works (s.updates b k edges) [Off.SILL_DCO_WORD] := by
  unfold State.updates
  dsimp only
  split
  · exact State.works_wr (State.works_setSill (.refl s _) _ _ _) (mem_bp (by decide)) _
  · exact State.works_setSill (.refl s _) _ _ _

/-- The offsets of the registers that locks and coasts reach, but for those that a coast's start fills in. -/
def lockOffs : List Nat := [Off.PURLIN_PURLIN_STAT, Off.SILL_SILL_STAT, Off.PURLIN_LOSS_COUNT, Off.SILL_DCO_WORD]

theorem State.works_acqStart (s : State) (b k : Nat) : s.works (s.acqStart b k) lockOffs :=
  State.works_setSill (State.works_setFld (State.works_wr (.refl s _) (mem_bp (by decide)) _) (mem_bp (by decide)) _ _ _) _ _ _

theorem State.works_unlock (s : State) (b k : Nat) (relock : Bool) : s.works (s.unlock b k relock) lockOffs := by
  have hbit : s.works (s.setBit (sillStat b k) 0 false) lockOffs := State.works_setBit (.refl s _) (mem_bp (by decide)) _ _
  have hsill := State.works_setSill hbit b k
    { (s.setBit (sillStat b k) 0 false).sill b k with good := 0, bad := 0 }
  unfold State.unlock
  dsimp only
  split
  · split
    · split
      · exact hsill
      · exact State.works_setBit hsill (mem_pkgp (by decide)) _ _
    · refine State.works_raise ?_ _ _
      split
      · exact hsill
      · exact State.works_setBit hsill (mem_pkgp (by decide)) _ _
  · exact .refl s _

theorem State.works_sillReset (s : State) (b k : Nat) : s.works (s.sillReset b k) lockOffs :=
  State.works_setSill ((s.works_unlock b k false).trans (State.works_acqStart _ b k)) _ _ _

/-! ### Coasts (R76, R77) -/

theorem State.works_freezeWord (s : State) (b k : Nat) : s.works (s.freezeWord b k) [Off.SILL_DCO_WORD] := by
  unfold State.freezeWord
  dsimp only
  split
  · exact State.works_setSill (.refl s _) _ _ _
  · exact State.works_wr (State.works_setSill (.refl s _) _ _ _) (mem_bp (by decide)) _

theorem State.works_ridgeCoast (s : State) (on : Bool) : s.works (s.ridgeCoast on) [Off.SILL_SILL_STAT] :=
  State.works_foldl (fun x c => State.works_setBit (State.works_setBit (.refl x _) (mem_bp (by decide)) _ _)
    (mem_bp (by decide)) _ _) _ s

theorem State.works_coastCaps (s : State) (b x : Nat) (l : List Nat) : s.works (s.coastCaps b x) l := by
  unfold State.coastCaps
  refine State.works_foldl (fun y i => ?_) _ s
  exact State.works_of (.refl y _) rfl rfl rfl

/-- What a coast's start puts on its page: the state, the cause and the instant. -/
def State.coastMark (s : State) (b k cause last : Nat) : State :=
  ((s.wr (sillStat b k) (putBits (putBits (putBits (s.rd (sillStat b k)) 3 1 1) 12 3 cause) 16 3 5)).wr80
    (sillPg b k + Off.SILL_COAST_PT_LO) last).wr (sillPg b k + Off.SILL_COAST_TIME) 0

/-- The coast counted, its word frozen, and its event. -/
def State.coastFreeze (s : State) (b k : Nat) : State :=
  (((s.bump (sillPg b k + Off.SILL_COAST_COUNT)).setSill b k { s.sill b k with coastAt := s.now, goOn := false }).freezeWord
    b k).raise (sillPg b k) 3

/-- The followers of a ridge that coasts show it. -/
def State.coastRidge (s : State) (on : Bool) : State := if on then (s.setBit srcStat 3 true).ridgeCoast true else s

/-- A follower that lost the purlin is counted there. -/
def State.coastPurlin (s : State) (b : Nat) (on : Bool) : State :=
  if on then
    ((s.bump (pkgp 2 + Off.PURLIN_LOSS_COUNT)).setBit (pkgp 2 + Off.PURLIN_PURLIN_STAT) (16 + b) true).raise (pkgp 2) 0
  else s

/-- The captures of the bents that coast along take the coasted flag. -/
def State.coastFlags (s : State) (b last : Nat) : State := (s.coastsWith b).foldl (fun s c => s.coastCaps c last) s

theorem State.works_coastRidge (s : State) (on : Bool) : s.works (s.coastRidge on) [Off.SILL_SILL_STAT] := by
  unfold State.coastRidge
  split
  · exact (State.works_setBit (.refl s _) (mem_pkgp (by decide)) _ _).trans (State.works_ridgeCoast _ _)
  · exact .refl s _

theorem State.works_coastPurlin (s : State) (b : Nat) (on : Bool) :
    s.works (s.coastPurlin b on) [Off.PURLIN_PURLIN_STAT, Off.PURLIN_LOSS_COUNT] := by
  unfold State.coastPurlin
  split
  · exact State.works_raise (State.works_setBit (State.works_bump (.refl s _) (mem_pkgp (by decide))) (mem_pkgp (by decide))
      _ _) _ _
  · exact .refl s _

theorem State.works_coastFlags (s : State) (b last : Nat) (l : List Nat) : s.works (s.coastFlags b last) l :=
  State.works_foldl (fun y c => y.works_coastCaps c last l) _ s

theorem State.works_coastFreeze (s : State) (b k : Nat) :
    (s.bump (sillPg b k + Off.SILL_COAST_COUNT)).works (s.coastFreeze b k) [Off.SILL_DCO_WORD] :=
  State.works_raise ((State.works_setSill (.refl _ _) _ _ _).trans (State.works_freezeWord _ _ _)) _ _

/-- What a coast's start does after its own page's registers. -/
def State.coastSpread (s : State) (b : Nat) (ridge purlin : Bool) (last : Nat) : State :=
  ((s.coastRidge ridge).coastPurlin b purlin).coastFlags b last

theorem State.works_coastSpread (s : State) (b : Nat) (ridge purlin : Bool) (last : Nat) :
    s.works (s.coastSpread b ridge purlin last) lockOffs :=
  ((s.works_coastRidge ridge).mono (by decide)).trans (((State.works_coastPurlin _ b purlin).mono (by decide)).trans
    (State.works_coastFlags _ b last _))

theorem State.coastStart_eq {s : State} {b : Nat} (h : s.bit (sillStat b (s.activeSill b)) 3 = false) (cause last : Nat) :
    s.coastStart b cause last = ((s.coastMark b (s.activeSill b) cause last).coastFreeze b (s.activeSill b)).coastSpread b
      (decide (b = s.ridge)) (decide (cause = 4)) last := by
  unfold State.coastStart
  dsimp only
  rw [if_neg (by simp [h])]
  unfold State.coastSpread State.coastRidge State.coastPurlin
  simp only [decide_eq_true_eq]
  rfl

theorem State.coastStart_coasting {s : State} {b : Nat} (h : s.bit (sillStat b (s.activeSill b)) 3 = true) (cause last : Nat) :
    s.coastStart b cause last = s := by
  unfold State.coastStart
  dsimp only
  rw [if_pos h]

/-- The offsets of the registers that a coast reaches. -/
def coastOffs : List Nat :=
  lockOffs ++ [Off.SILL_COAST_PT_LO, Off.SILL_COAST_PT_MID, Off.SILL_COAST_PT_HI, Off.SILL_COAST_TIME, Off.SILL_COAST_COUNT]

theorem State.works_coastMark (s : State) (b k cause last : Nat) : s.works (s.coastMark b k cause last) coastOffs := by
  refine State.works_wr (State.works_wr80 (State.works_wr (.refl s _) (mem_bp (by decide)) _) (mem_bp (by decide)) ?_ ?_ _)
    (mem_bp (by decide)) _
  · exact mem_bp_add (by decide)
  · exact mem_bp_add (by decide)

theorem State.works_coastStart (s : State) (b cause last : Nat) : s.works (s.coastStart b cause last) coastOffs := by
  cases h : s.bit (sillStat b (s.activeSill b)) 3 with
  | true => rw [State.coastStart_coasting h]; exact .refl s _
  | false =>
    rw [State.coastStart_eq h]
    have hbump : s.works ((s.coastMark b (s.activeSill b) cause last).bump
        (sillPg b (s.activeSill b) + Off.SILL_COAST_COUNT)) coastOffs :=
      State.works_bump (s.works_coastMark _ _ _ _) (mem_bp (by decide))
    exact hbump.trans (((State.works_coastFreeze _ _ _).mono (by decide)).trans
      ((State.works_coastSpread _ _ _ _ _).mono (by decide)))

/-! ### Faults and takeover (R74, R80, R81, R90) -/

/-- The offsets of the registers that the fault of a sill reaches. -/
def faultOffs : List Nat :=
  coastOffs ++ [Off.SILL_PHASE_LEFT, Off.SILL_PULL_LEFT, Off.SILL_TAKEOVER_COUNT, Off.SILL_FAULT_PT_LO,
    Off.SILL_FAULT_PT_MID, Off.SILL_FAULT_PT_HI]

theorem lockOffs_fault : lockOffs ⊆ faultOffs := by
  rw [faultOffs, coastOffs, List.append_assoc]
  exact List.subset_append_left _ _

theorem State.works_moveLeft (s : State) (b k : Nat) : s.works (s.moveLeft b k) faultOffs := by
  unfold State.moveLeft
  dsimp only
  refine State.works_setSill (State.works_setSill ?_ _ _ _) _ _ _
  refine State.works_wr (State.works_wr (State.works_wr (State.works_wr (.refl s _) ?_ _) ?_ _) ?_ _) ?_ _ <;>
    exact mem_bp (by decide)

theorem State.works_switchOutputs (s : State) (b : Nat) : s.works (s.switchOutputs b) faultOffs :=
  (State.works_raise (State.works_bump (State.works_setBit (State.works_setBit (.refl s _) (mem_bp (by decide)) _ _)
    (mem_bp (by decide)) _ _) (mem_bp (by decide))) _ _).trans (State.works_moveLeft _ _ _)

theorem State.works_relockFault (s : State) (b k : Nat) : s.works (s.relockFault b k) faultOffs := by
  unfold State.relockFault
  dsimp only
  split
  · exact (State.works_raise (s.works_switchOutputs b) _ _).trans (((State.works_unlock _ _ _ _).trans
      ((State.works_acqStart _ _ _).trans (State.works_sillReset _ _ _))).mono lockOffs_fault)
  · exact (State.works_raise (.refl s _) _ _).trans ((State.works_sillReset _ _ _).mono lockOffs_fault)

/-- The fault of a sill reaches neither the skews of the twin watch nor any memory. -/
theorem State.works_sillFault (s : State) (b k : Nat) (twin : Bool) : s.works (s.sillFault b k twin) faultOffs := by
  have hpt : s.works (s.wr80 (sillPg b k + Off.SILL_FAULT_PT_LO) s.now) faultOffs :=
    State.works_wr80 (.refl s _) (mem_bp (by decide)) (mem_bp_add (by decide))
      (mem_bp_add (by decide)) _
  unfold State.sillFault
  dsimp only
  split
  · split
    · exact hpt.trans (State.works_relockFault _ _ _)
    split
    · exact State.works_setTakeover hpt _ _
    · exact (State.works_raise hpt _ _).trans ((State.works_coastStart _ _ _ _).mono (List.subset_append_left _ _))
  · exact (State.works_raise hpt _ _).trans ((State.works_sillReset _ _ _).mono lockOffs_fault)

theorem State.works_setTiu {s x : State} {l : List Nat} (h : s.works x l) (b u : Nat) (z : Tiu) : s.works (x.setTiu b u z) l :=
  State.works_of h rfl rfl rfl

theorem State.works_setFre {s x : State} {l : List Nat} (h : s.works x l) (b e : Nat) (z : Fre) : s.works (x.setFre b e z) l :=
  State.works_of h rfl rfl rfl

/-- The gathering of conditions reaches instruments and events. -/
theorem State.works_tbGather (s0 s : State) (x : Nat) (l : List Nat) : s.works (State.tbGather s0 s x) l := by
  unfold State.tbGather
  refine State.works_foldl (fun y b => ?_) _ s
  have htius : ∀ z : State, z.works ((List.range 4).foldl (fun s u =>
      if (s.tiu b u).armed then s.setTiu b u { s.tiu b u with tb := (s.tiu b u).tb ||| s.tbBits b ||| x } else s) z) l :=
    State.works_foldl (fun z u => by
      split
      · exact State.works_setTiu (.refl z l) _ _ _
      · exact .refl z l) _
  have hfres : ∀ z : State, z.works ((List.range 2).foldl (fun s e =>
      s.setFre b e { s.fre b e with gate := (s.fre b e).gate.map fun g => { g with tb := g.tb ||| s.tbBits b ||| x } }) z) l :=
    State.works_foldl (fun z e => State.works_setFre (.refl z l) _ _ _) _
  dsimp only
  split
  · exact State.works_raise ((htius y).trans (hfres _)) _ _
  · exact (htius y).trans (hfres _)

theorem State.works_gathered {s x : State} {f : State → State} {l : List Nat} (h : x.works (f s) l) :
    x.works (s.gathered f) l := h.trans (State.works_tbGather _ _ _ _)

/-! ### Bits of a register -/

/-- The bits of a register but some are as they were. -/
def State.keepsBits (s x : State) (a : Nat) (l : List Nat) : Prop := ∀ i, i < 32 → i ∉ l → x.bit a i = s.bit a i

section Bits

variable {s x y : State} {a : Nat} {l : List Nat}

theorem State.keepsBits.refl (s : State) (a : Nat) (l : List Nat) : s.keepsBits s a l := fun _ _ _ => rfl

theorem State.keepsBits.trans (h : s.keepsBits x a l) (k : x.keepsBits y a l) : s.keepsBits y a l := fun i hi hl =>
  (k i hi hl).trans (h i hi hl)

theorem State.keepsBits_of_reg (h : s.keepsBits x a l) (hr : y.reg a = x.reg a) : s.keepsBits y a l := fun i hi hl =>
  (State.bit_of_reg hr i).trans (h i hi hl)

theorem State.keepsBits_of_works {m : List Nat} (h : s.keepsBits x a l) (hw : x.works y m) (ha : a % 0x1000 ∉ m) :
    s.keepsBits y a l := State.keepsBits_of_reg h (hw.2.1 a ha)

theorem State.keepsBits_setBit (h : s.keepsBits x a l) (c : Nat) {i : Nat} (hi : i ∈ l) (hi32 : i < 32) (b : Bool) :
    s.keepsBits (x.setBit c i b) a l := fun j hj hl => by
  have hne : j ≠ i := fun e => hl (e ▸ hi)
  rw [State.bit_setBit _ _ _ _ _ hi32, ← h j hj hl]
  split
  · next e => rw [e]
  · rfl

theorem State.keepsBits_setFld (h : s.keepsBits x a l) (c : Nat) {lo len : Nat} (hl : ∀ i, lo ≤ i → i < lo + len → i ∈ l)
    (v : Nat) : s.keepsBits (x.setFld c lo len v) a l := fun j hj hjl => by
  rw [← h j hj hjl]
  by_cases hc : a = c
  · subst hc
    rw [State.bit_setFld_same _ _ _ _ _ hj]
    split_ifs with h1 h2
    · rfl
    · exact absurd (hl j (by omega) h2) hjl
    · rfl
  · exact State.bit_of_reg (x.reg_wr_ne _ hc) j

theorem State.keepsBits_foldl {α : Type} {f : State → α → State} (hf : ∀ (s : State) c, s.keepsBits (f s c) a l)
    (m : List α) (s : State) : s.keepsBits (m.foldl f s) a l := by
  induction m generalizing s with
  | nil => exact .refl s a l
  | cons c m ih => exact (hf s c).trans (ih _)

/-- A field clear of the bits that may change is as it was. -/
theorem State.keepsBits.fld (h : s.keepsBits x a l) {lo len : Nat} (hlen : lo + len ≤ 32)
    (hl : ∀ i, lo ≤ i → i < lo + len → i ∉ l) : x.fld a lo len = s.fld a lo len := by
  apply Nat.eq_of_testBit_eq
  intro i
  rw [State.fld, State.fld, testBit_bits, testBit_bits]
  by_cases hi : i < len
  · have hb := h (lo + i) (by omega) (hl _ (by omega) (by omega))
    rw [State.bit, State.bit, bitAt, bitAt] at hb
    rw [hb]
  · simp [hi]

end Bits

/-- Of the registers at SILL_STAT's offset the loss of lock writes its sill's own. -/
theorem State.unlock_reg (s : State) (b k : Nat) (relock : Bool) {a : Nat} (ha : a % 0x1000 = Off.SILL_SILL_STAT) :
    (s.unlock b k relock).reg a = s.reg a ∨
      (s.unlock b k relock).reg a = (s.setBit (sillStat b k) 0 false).reg a := by
  have hpurlin : ∀ (x : State) (i : Nat) (on : Bool),
      (x.setBit (pkgp 2 + Off.PURLIN_PURLIN_STAT) i on).reg a = x.reg a := fun x i on =>
    State.reg_setBit_ne _ _ _ fun e => by
      rw [e] at ha
      revert ha
      decide
  unfold State.unlock
  dsimp only
  split
  · right
    split
    · split
      · rfl
      · exact hpurlin _ _ _
    · rw [State.reg_raise]
      split
      · rfl
      · exact hpurlin _ _ _
  · exact .inl rfl

/-- LOCKED is the one bit of a sill's state that its loss clears. -/
theorem State.keepsBits_unlock (s : State) (b k : Nat) (relock : Bool) {a : Nat} (ha : a % 0x1000 = Off.SILL_SILL_STAT) :
    s.keepsBits (s.unlock b k relock) a [0] := by
  rcases s.unlock_reg b k relock ha with h | h
  · exact State.keepsBits_of_reg (.refl s a _) h
  · exact State.keepsBits_of_reg (State.keepsBits_setBit (.refl s a [0]) (sillStat b k) (by decide) (by decide) false) h

/-- ACQ_STATE is all that a sill's acquisition changes of its state. -/
theorem State.keepsBits_acqStart (s : State) (b k : Nat) {a : Nat} (ha : a % 0x1000 = Off.SILL_SILL_STAT) :
    s.keepsBits (s.acqStart b k) a [16, 17, 18] := by
  have hword : s.keepsBits (s.wr (sillPg b k + Off.SILL_DCO_WORD) (s.clampWord b k (targetWord (s.sillN b k)))) a [16, 17, 18] :=
    State.keepsBits_of_works (.refl s a _) (State.works_wr (.refl s [Off.SILL_DCO_WORD]) (mem_bp (by decide)) _)
      (by rw [ha]; decide)
  exact State.keepsBits_of_reg (State.keepsBits_setFld hword (sillStat b k) (by
    intro i h1 h2
    simp only [List.mem_cons, List.not_mem_nil, or_false]
    omega) _) (State.reg_setSill _ _ _ _ _)

end Sys2Proof.Machine
end

section
/-!
PROOFS. Lock windows, loss of the reference and the twin watch of the sills (R30, R73–R77, R86).
-/

namespace Sys2Proof.Machine

/-! ### The twin watch (R75) -/

theorem ofSigned_lt (w : Nat) (i : Int) : ofSigned w i < 2 ^ w := by
  have hpos : (0 : Int) < (2 ^ w : Nat) := by positivity
  have hlt := Int.emod_lt_of_pos i hpos
  have hnn := Int.emod_nonneg i hpos.ne'
  unfold ofSigned
  omega

theorem State.activeSill_lt (s : State) (b : Nat) : s.activeSill b < 2 := by
  unfold State.activeSill
  split <;> decide

/-- TWIN_SKEW of a sill and of its twin are two registers. -/
theorem twinSkew_ne {b k : Nat} (hk : k < 2) : sillPg b k + Off.SILL_TWIN_SKEW ≠ sillPg b (1 - k) + Off.SILL_TWIN_SKEW := by
  unfold sillPg bp
  omega

/-- The skew of a bent's active sill to its shadow shown on both pages. -/
def State.showSkew (s : State) (b : Nat) (skew : Int) : State :=
  (s.wr (sillPg b (s.activeSill b) + Off.SILL_TWIN_SKEW) (ofSigned 16 skew)).wr
    (sillPg b (1 - s.activeSill b) + Off.SILL_TWIN_SKEW) (ofSigned 16 (-skew))

theorem State.rd_showSkew (s : State) (b : Nat) (skew : Int) :
    (s.showSkew b skew).rd (sillPg b (s.activeSill b) + Off.SILL_TWIN_SKEW) = ofSigned 16 skew ∧
      (s.showSkew b skew).rd (sillPg b (1 - s.activeSill b) + Off.SILL_TWIN_SKEW) = ofSigned 16 (-skew) := by
  have hlt : ∀ i, ofSigned 16 i % 2 ^ 32 = ofSigned 16 i := fun i =>
    Nat.mod_eq_of_lt ((ofSigned_lt 16 i).trans (by decide))
  rw [State.showSkew]
  constructor
  · rw [State.rd_wr_ne _ _ (twinSkew_ne (s.activeSill_lt b)), State.rd_wr_same, hlt]
  · rw [State.rd_wr_same, hlt]

/-- A twin watch of a sill that runs shows its last skew; whatever fault it finds reaches no skew. -/
theorem twinWatch_works {s : State} {t : PT} {b : Fin 8} {skews errA errB : List Int} {skew : Int}
    (hb : (s.arrive t).has b = true) (hact : (s.arrive t).hasActive b = true)
    (hok : (s.arrive t).bit (sillStat b (1 - (s.arrive t).activeSill b)) 7 = false)
    (hacq : (s.arrive t).acqState b (1 - (s.arrive t).activeSill b) ≠ 0)
    (hlast : (trimmed ((s.arrive t).period b (1 - (s.arrive t).activeSill b))
      ((s.arrive t).sill b (1 - (s.arrive t).activeSill b)).trim skews).1.getLast? = some skew) :
    ∃ y, exec (.twinWatch t b skews errA errB) s = .next ((s.arrive t).keep y.settle) ∧
      ((s.arrive t).showSkew b (clampI (-32767) 32767 skew)).works y faultOffs := by
  rw [exec_twinWatch]
  refine ⟨_, rfl, ?_⟩
  generalize s.arrive t = u at *
  have hgate : (!u.has b || !u.hasActive b || u.bit (sillStat b (1 - u.activeSill b)) 7 ||
      u.acqState b (1 - u.activeSill b) == 0) = false := by simp [hb, hact, hok, hacq]
  dsimp only
  rw [hgate, hlast]
  have htrim := fun z => State.works_setSill (.refl (u.showSkew b (clampI (-32767) 32767 skew)) faultOffs) b
    (1 - u.activeSill b) z
  simp only [Option.getD_some, Bool.false_eq_true, if_false]
  split
  · exact htrim _
  split
  · exact State.works_raise (State.works_latchHealth (htrim _) _ _) _ _
  split
  · exact htrim _
  · exact State.works_gathered ((htrim _).trans (State.works_sillFault _ _ _ _))

/-- The outcome of a command reads at the offsets that it does not reach what stood there. -/
theorem State.works.rd_keep {u x y : State} {l : List Nat} (h : x.works y l) (hv : x.variant = u.variant) {a : Nat}
    (ha : a % 0x1000 ∉ l) : (u.keep y.settle).rd a = x.rd a :=
  State.rd_of_reg ((State.reg_keep_settle (h.variant.trans hv) a).trans (h.2.1 a ha))

/-- The twin watch shows its last skew on both pages (R75). -/
theorem sill_twinWatch {s : State} {t : PT} {b : Fin 8} {skews : List Int} (errA errB : List Int) {skew : Int}
    (hb : (s.arrive t).has b = true) (hact : (s.arrive t).hasActive b = true)
    (hok : (s.arrive t).bit (sillStat b (1 - (s.arrive t).activeSill b)) 7 = false)
    (hacq : (s.arrive t).acqState b (1 - (s.arrive t).activeSill b) ≠ 0)
    (hlast : (trimmed ((s.arrive t).period b (1 - (s.arrive t).activeSill b))
      ((s.arrive t).sill b (1 - (s.arrive t).activeSill b)).trim skews).1.getLast? = some skew) :
    ∃ s', exec (.twinWatch t b skews errA errB) s = .next s' ∧
      s'.rd (sillPg b ((s.arrive t).activeSill b) + Off.SILL_TWIN_SKEW) = ofSigned 16 (clampI (-32767) 32767 skew) ∧
      s'.rd (sillPg b (1 - (s.arrive t).activeSill b) + Off.SILL_TWIN_SKEW) =
        ofSigned 16 (-(clampI (-32767) 32767 skew)) ∧
      s'.mem = (s.arrive t).mem := by
  obtain ⟨y, hy, hworks⟩ := twinWatch_works (errA := errA) (errB := errB) hb hact hok hacq hlast
  obtain ⟨hactive, htwin⟩ := (s.arrive t).rd_showSkew b (clampI (-32767) 32767 skew)
  have hoff : ∀ k, (sillPg b k + Off.SILL_TWIN_SKEW) % 0x1000 ∉ faultOffs := fun k => by
    have he : (sillPg b k + Off.SILL_TWIN_SKEW) % 0x1000 = Off.SILL_TWIN_SKEW := by
      unfold sillPg bp Off.SILL_TWIN_SKEW; omega
    rw [he]
    decide
  exact ⟨_, hy, (hworks.rd_keep rfl (hoff _)).trans hactive, (hworks.rd_keep rfl (hoff _)).trans htwin, State.keep_mem _ _⟩

/-! ### Loss of the reference (R74, R76, R77) -/

/-- Both sills of a bent that are not FAULTED have their updates, then lose LOCKED. -/
def State.lostSills (s : State) (b : Nat) (edges : List Nat) : State :=
  (s.each [0, 1] fun s j => if s.bit (sillStat b j) 7 then s else s.updates b j edges).each [0, 1] fun s j =>
    if s.bit (sillStat b j) 7 then s else (s.unlock b j false).raise (sillPg b j) 2

theorem State.works_lostSills (s : State) (b : Nat) (edges : List Nat) : s.works (s.lostSills b edges) lockOffs := by
  refine (State.works_foldl (fun x j => ?_) _ s).trans (State.works_foldl (fun x j => ?_) _ _)
  · split
    · exact .refl x _
    · exact (x.works_updates b j edges).mono (by decide)
  · split
    · exact .refl x _
    · exact State.works_raise (x.works_unlock b j false) _ _

/-- LOCKED is all that changes of a sill's state. -/
theorem State.keepsBits_lostSills (s : State) (b : Nat) (edges : List Nat) {a : Nat} (ha : a % 0x1000 = Off.SILL_SILL_STAT) :
    s.keepsBits (s.lostSills b edges) a [0] := by
  refine (State.keepsBits_foldl (fun x j => ?_) _ s).trans (State.keepsBits_foldl (fun x j => ?_) _ _)
  · split
    · exact .refl x a _
    · exact State.keepsBits_of_works (.refl x a _) (x.works_updates b j edges) (by rw [ha]; decide)
  · split
    · exact .refl x a _
    · exact State.keepsBits_of_reg (x.keepsBits_unlock b j false ha) (State.reg_raise _ _ _ _)

theorem State.activeSill_of_bits {s x : State} {b : Nat} {l : List Nat} (h : s.keepsBits x (sillStat b 1) l) (hl : 1 ∉ l) :
    x.activeSill b = s.activeSill b := by
  rw [State.activeSill, State.activeSill, h 1 (by decide) hl]

/-- A register of a sill's page that a coast's start does not put. -/
theorem State.coastMark_rd_ne (s : State) (b k cause last : Nat) {o : Nat}
    (ho : o ∉ [Off.SILL_SILL_STAT, Off.SILL_COAST_PT_LO, Off.SILL_COAST_PT_LO + 4, Off.SILL_COAST_PT_LO + 8,
      Off.SILL_COAST_TIME]) : (s.coastMark b k cause last).rd (sillPg b k + o) = s.rd (sillPg b k + o) := by
  simp only [List.mem_cons, List.not_mem_nil, or_false, not_or] at ho
  obtain ⟨h0, h1, h2, h3, h4⟩ := ho
  unfold State.coastMark State.wr80
  rw [State.rd_wr_ne _ _ (by omega), State.rd_wr_ne _ _ (by omega), State.rd_wr_ne _ _ (by omega),
    State.rd_wr_ne _ _ (by omega), State.rd_wr_ne _ _ (by unfold sillStat; omega)]

/-- SILL_STAT as a coast's start puts it. -/
theorem State.coastMark_stat (s : State) (b k cause last : Nat) : (s.coastMark b k cause last).rd (sillStat b k) =
    putBits (putBits (putBits (s.rd (sillStat b k)) 3 1 1) 12 3 cause) 16 3 5 := by
  have hlt : putBits (putBits (putBits (s.rd (sillStat b k)) 3 1 1) 12 3 cause) 16 3 5 < 2 ^ 32 :=
    putBits_lt _ _ _ _ (putBits_lt _ _ _ _ (putBits_lt _ _ _ _ (s.rd_lt _) (by decide)) (by decide)) (by decide)
  have hoff : Off.SILL_SILL_STAT < Off.SILL_COAST_PT_LO ∧ Off.SILL_SILL_STAT < Off.SILL_COAST_TIME := by decide
  unfold State.coastMark State.wr80
  rw [State.rd_wr_ne _ _ (by unfold sillStat; omega), State.rd_wr_ne _ _ (by unfold sillStat; omega),
    State.rd_wr_ne _ _ (by unfold sillStat; omega), State.rd_wr_ne _ _ (by unfold sillStat; omega), State.rd_wr_same,
    Nat.mod_eq_of_lt hlt]

/-- COASTING, the cause and COAST_PT as a coast's start puts them. -/
theorem State.coastMark_shows (s : State) (b k : Nat) {cause last : Nat} (hcause : cause < 8) (hlast : last < 2 ^ 80) :
    (s.coastMark b k cause last).bit (sillStat b k) 3 = true ∧ (s.coastMark b k cause last).fld (sillStat b k) 12 3 = cause ∧
      (s.coastMark b k cause last).rd80 (sillPg b k + Off.SILL_COAST_PT_LO) = last := by
  refine ⟨?_, ?_, ?_⟩
  · rw [State.bit, s.coastMark_stat, bitAt_putBits, if_pos (by decide), bitAt_putBits, if_pos (by decide)]
    exact bitAt_putBit_same _ 3 true
  · rw [State.fld, s.coastMark_stat, bits_putBits_ne _ _ _ _ _ _ (by decide), bits_putBits_same]
    exact Nat.mod_eq_of_lt hcause
  · rw [State.coastMark, State.rd80_of_reg fun c hc => State.reg_wr_ne _ _ ?_, State.rd80_wr80_same _ _ hlast]
    simp only [List.mem_cons, List.not_mem_nil, or_false] at hc
    have hoff : Off.SILL_COAST_PT_LO + 8 < Off.SILL_COAST_TIME := by decide
    omega

/-- Showing a ridge's coast to its followers leaves the ridge's own SILL_STAT. -/
theorem State.coastRidge_stat (s : State) {b k : Nat} (hb : b < 8) (hk : k < 2) :
    (s.coastRidge (decide (b = s.ridge))).reg (sillStat b k) = s.reg (sillStat b k) := by
  unfold State.coastRidge
  split
  · next h =>
    rw [decide_eq_true_eq] at h
    have hsrc : sillStat b k ≠ srcStat := by
      unfold sillStat sillPg srcStat tbPg bp pkgp Off.SILL_SILL_STAT Off.TIMEBASE_SRC_STAT; omega
    have hother : ∀ x : State, ∀ l : List Nat, (∀ c ∈ l, c ≠ b) →
        (l.foldl (fun s c => (s.setBit (sillStat c 0) 9 true).setBit (sillStat c 1) 9 true) x).reg (sillStat b k) =
          x.reg (sillStat b k) := by
      intro x l hl
      induction l generalizing x with
      | nil => rfl
      | cons c l ih =>
        have hc : c ≠ b := hl c List.mem_cons_self
        have hne : ∀ j, j < 2 → sillStat b k ≠ sillStat c j := fun j hj => by
          unfold sillStat sillPg bp; omega
        exact (ih _ fun d hd => hl d (List.mem_cons_of_mem c hd)).trans ((State.reg_setBit_ne _ _ _ (hne 1 (by decide))).trans
          (State.reg_setBit_ne _ _ _ (hne 0 (by decide))))
    refine (hother _ _ fun c hc => ?_).trans (State.reg_setBit_ne _ _ _ hsrc)
    have hc := (List.mem_filter.mp hc).2
    rw [h]
    simpa using hc
  · rfl

/-- The words of COAST_PT stand at their offsets. -/
theorem coastPt_off {b k c : Nat} (hc : c ∈ [sillPg b k + Off.SILL_COAST_PT_LO, sillPg b k + Off.SILL_COAST_PT_LO + 4,
    sillPg b k + Off.SILL_COAST_PT_LO + 8]) :
    c % 0x1000 ∈ [Off.SILL_COAST_PT_LO, Off.SILL_COAST_PT_MID, Off.SILL_COAST_PT_HI] := by
  unfold sillPg bp Off.SILL_COAST_PT_LO at hc
  unfold Off.SILL_COAST_PT_LO Off.SILL_COAST_PT_MID Off.SILL_COAST_PT_HI
  simp only [List.mem_cons, List.not_mem_nil, or_false] at hc ⊢
  omega

theorem sillReg_off (b k : Nat) {o : Nat} (ho : o < 0x1000) : (sillPg b k + o) % 0x1000 = o := by unfold sillPg bp; omega

/-- What the start of a coast shows on its sill's page. -/
def State.coastShown (x : State) (b k cause last count : Nat) : Prop :=
  x.bit (sillStat b k) 3 = true ∧ x.fld (sillStat b k) 12 3 = cause ∧
    x.rd80 (sillPg b k + Off.SILL_COAST_PT_LO) = last ∧ x.rd (sillPg b k + Off.SILL_COAST_COUNT) = count ∧
    x.raised (sillPg b k) 3 = true

/-- It stays shown while neither the page's coast registers nor more than ACQ_STATE and LOCKED change. -/
theorem State.coastShown_of {x y : State} {b k cause last count : Nat} (h : x.coastShown b k cause last count)
    (hw : x.works y lockOffs) (hstat : x.keepsBits y (sillStat b k) [0, 16, 17, 18]) : y.coastShown b k cause last count := by
  obtain ⟨hbit, hfld, hpt, hcount, hraised⟩ := h
  refine ⟨(hstat 3 (by decide) (by decide)).trans hbit, (hstat.fld (by decide) ?_).trans hfld, ?_, ?_, hw.2.2 _ _ hraised⟩
  · intro i h1 h2
    simp only [List.mem_cons, List.not_mem_nil, or_false]
    omega
  · have hclear : ∀ o ∈ [Off.SILL_COAST_PT_LO, Off.SILL_COAST_PT_MID, Off.SILL_COAST_PT_HI], o ∉ lockOffs := by decide
    exact (State.rd80_of_reg fun c hc => hw.2.1 c (hclear _ (coastPt_off hc))).trans hpt
  · rw [← hcount, State.rd_of_reg (hw.2.1 _ _)]
    rw [sillReg_off b k (by decide)]
    decide

theorem State.coastFreeze_shows (s : State) (b k : Nat) {cause last : Nat} (hcause : cause < 8) (hlast : last < 2 ^ 80) :
    ((s.coastMark b k cause last).coastFreeze b k).coastShown b k cause last
      (satAdd (s.rd (sillPg b k + Off.SILL_COAST_COUNT)) 1) := by
  obtain ⟨hbit, hfld, hpt⟩ := s.coastMark_shows b k hcause hlast
  have hw := (s.coastMark b k cause last).works_coastFreeze b k
  have hreg : ∀ a, a % 0x1000 ≠ Off.SILL_DCO_WORD → a % 0x1000 ≠ Off.SILL_COAST_COUNT →
      ((s.coastMark b k cause last).coastFreeze b k).reg a = (s.coastMark b k cause last).reg a := fun a h1 h2 => by
    refine (hw.2.1 a (by simpa using h1)).trans (State.reg_bump_ne _ fun e => h2 ?_)
    rw [e, sillReg_off b k (by decide)]
  have hstat : ((s.coastMark b k cause last).coastFreeze b k).reg (sillStat b k) =
      (s.coastMark b k cause last).reg (sillStat b k) :=
    hreg _ (by rw [sillReg_off b k (by decide)]; decide) (by rw [sillReg_off b k (by decide)]; decide)
  refine ⟨(State.bit_of_reg hstat 3).trans hbit, ?_, ?_, ?_, State.raised_raise_same _ _ _⟩
  · rw [State.fld, State.rd_of_reg hstat]; exact hfld
  · have hclear : ∀ o ∈ [Off.SILL_COAST_PT_LO, Off.SILL_COAST_PT_MID, Off.SILL_COAST_PT_HI],
        o ≠ Off.SILL_DCO_WORD ∧ o ≠ Off.SILL_COAST_COUNT := by decide
    refine (State.rd80_of_reg fun c hc => ?_).trans hpt
    obtain ⟨hdco, hcount⟩ := hclear _ (coastPt_off hc)
    exact hreg c hdco hcount
  · have hcount := hw.2.1 (sillPg b k + Off.SILL_COAST_COUNT) (by rw [sillReg_off b k (by decide)]; decide)
    rw [State.rd_of_reg hcount, State.rd_bump_same, s.coastMark_rd_ne b k cause last (by decide)]

/-- What a coast's start does beside leaves its sill's state but for ACQ_STATE and LOCKED. -/
theorem State.keepsBits_coastSpread (s : State) {b k : Nat} (hb : b < 8) (hk : k < 2) (purlin : Bool) (last : Nat) :
    s.keepsBits (s.coastSpread b (decide (b = s.ridge)) purlin last) (sillStat b k) [0, 16, 17, 18] := by
  have hpurlin : sillStat b k % 0x1000 ∉ [Off.PURLIN_PURLIN_STAT, Off.PURLIN_LOSS_COUNT] := by
    rw [sillStat, sillReg_off b k (by decide)]
    decide
  have hridge := State.keepsBits_of_reg (.refl s (sillStat b k) [0, 16, 17, 18]) (s.coastRidge_stat hb hk)
  exact State.keepsBits_of_works (State.keepsBits_of_works hridge (State.works_coastPurlin _ b purlin) hpurlin)
    (State.works_coastFlags _ b last []) (by simp)

/-- What stands as the active sill of a bent starts to coast. -/
theorem State.coastStart_shows {s : State} {b : Nat} (hb : b < 8) (h : s.bit (sillStat b (s.activeSill b)) 3 = false)
    {cause last : Nat} (hcause : cause < 8) (hlast : last < 2 ^ 80) : (s.coastStart b cause last).coastShown b (s.activeSill b)
      cause last (satAdd (s.rd (sillPg b (s.activeSill b) + Off.SILL_COAST_COUNT)) 1) := by
  have hmark : ((s.coastMark b (s.activeSill b) cause last).coastFreeze b (s.activeSill b)).ridge = s.ridge :=
    ((s.coastMark b (s.activeSill b) cause last).works_coastFreeze b (s.activeSill b)).ridge.trans
      ((State.bump_ridge _ _).trans (s.works_coastMark b (s.activeSill b) cause last).ridge)
  have hshown := s.coastFreeze_shows b (s.activeSill b) hcause hlast
  rw [State.coastStart_eq h, ← hmark]
  generalize (s.coastMark b (s.activeSill b) cause last).coastFreeze b (s.activeSill b) = x at hshown ⊢
  exact State.coastShown_of hshown (State.works_coastSpread _ _ _ _ _)
    (x.keepsBits_coastSpread hb (s.activeSill_lt b) _ last)

/-- A relock under way at a sill whose reference is lost waits on its preset word (R90). -/
def State.coastWaits (s : State) (b k : Nat) (relocking : Bool) : State :=
  if relocking then
    (s.wr (sillPg b k + Off.SILL_DCO_WORD) (s.clampWord b k (targetWord (s.sillN b k)))).setFld (sillStat b k) 16 3 6
  else s

theorem State.works_coastWaits (s : State) (b k : Nat) (relocking : Bool) : s.works (s.coastWaits b k relocking) lockOffs := by
  unfold State.coastWaits
  split
  · exact State.works_setFld (State.works_wr (.refl s _) (mem_bp (by decide)) _) (mem_bp (by decide)) _ _ _
  · exact .refl s _

theorem State.coastShown_waits {s : State} {b k cause last count : Nat} (h : s.coastShown b k cause last count)
    (relocking : Bool) : (s.coastWaits b k relocking).coastShown b k cause last count := by
  refine State.coastShown_of h (s.works_coastWaits b k relocking) ?_
  unfold State.coastWaits
  split
  · have hword : s.works (s.wr (sillPg b k + Off.SILL_DCO_WORD) (s.clampWord b k (targetWord (s.sillN b k))))
        [Off.SILL_DCO_WORD] := State.works_wr (.refl s _) (mem_bp (by decide)) _
    refine State.keepsBits_setFld (State.keepsBits_of_works (.refl s _ _) hword ?_) _ ?_ _
    · rw [sillStat, sillReg_off b k (by decide)]
      decide
    · intro i h1 h2
      simp only [List.mem_cons, List.not_mem_nil, or_false]
      omega
  · exact .refl s _ _

/-- It is shown in a command's outcome. -/
theorem State.coastShown_keep {u x : State} {b k cause last count : Nat} (h : x.coastShown b k cause last count)
    (hv : x.variant = u.variant) : (u.keep x.settle).coastShown b k cause last count := by
  obtain ⟨hbit, hfld, hpt, hcount, hraised⟩ := h
  have hreg := State.reg_keep_settle (u := u) hv
  refine ⟨(State.bit_of_reg (hreg _) 3).trans hbit, ?_, (State.rd80_of_reg fun c _ => hreg c).trans hpt,
    (State.rd_of_reg (hreg _)).trans hcount, (State.raised_keep_settle _ _ _ _).trans hraised⟩
  rw [State.fld, State.rd_of_reg (hreg _)]
  exact hfld

/-- Loss of the reference makes the active sill coast from the last update (R76, R77). -/
theorem sill_refLos {s : State} {t last : PT} {b : Fin 8} (edges : List Nat) (hb : (s.arrive t).has b = true)
    (hrun : (s.arrive t).clk.running = true) (hact : (s.arrive t).hasActive b = true)
    (hcoast : (s.arrive t).bit (sillStat b ((s.arrive t).activeSill b)) 3 = false) :
    ∃ s', exec (.refLos t b ⟨last, edges⟩) s = .next s' ∧
      s'.coastShown b ((s.arrive t).activeSill b) (if b.val = (s.arrive t).ridge then 0 else 4) last.toNat
        (satAdd ((s.arrive t).rd (sillPg b ((s.arrive t).activeSill b) + Off.SILL_COAST_COUNT)) 1) ∧
      s'.mem = (s.arrive t).mem := by
  have hlost := (s.arrive t).works_lostSills b edges
  have hbits := fun j => (s.arrive t).keepsBits_lostSills b edges (a := sillStat b j) (by
    rw [sillStat, sillReg_off b j (by decide)])
  have hactive := State.activeSill_of_bits (hbits 1) (by decide)
  have hcoast' : ((s.arrive t).lostSills b edges).bit (sillStat b (((s.arrive t).lostSills b edges).activeSill b)) 3 = false := by
    rw [hactive, hbits _ 3 (by decide) (by decide), hcoast]
  have hcause : (if b.val = (s.arrive t).ridge then 0 else 4) < 8 := by split <;> decide
  have hcount : ((s.arrive t).lostSills b edges).rd (sillPg b ((s.arrive t).activeSill b) + Off.SILL_COAST_COUNT) =
      (s.arrive t).rd (sillPg b ((s.arrive t).activeSill b) + Off.SILL_COAST_COUNT) :=
    State.rd_of_reg (hlost.2.1 _ (by rw [sillReg_off b _ (by decide)]; decide))
  have hshown := State.coastStart_shows b.isLt hcoast' hcause last.isLt
  rw [hactive, hcount] at hshown
  have hwaits := State.coastShown_waits hshown ((s.arrive t).relocking b ((s.arrive t).activeSill b))
  have hvar : ((((s.arrive t).lostSills b edges).coastStart b (if b.val = (s.arrive t).ridge then 0 else 4)
      last.toNat).coastWaits b ((s.arrive t).activeSill b)
      ((s.arrive t).relocking b ((s.arrive t).activeSill b))).variant = (s.arrive t).variant :=
    ((State.works_coastWaits _ _ _ _).variant.trans (State.works_coastStart _ _ _ _).variant).trans hlost.variant
  rw [exec_refLos]
  refine runAt_next (x := (s.arrive t).gathered fun s =>
    ((s.lostSills b edges).coastStart b (if b.val = s.ridge then 0 else 4) last.toNat).coastWaits b (s.activeSill b)
      (s.relocking b (s.activeSill b))) ?_ ⟨?_, State.keep_mem _ _⟩
  · rw [if_neg (by simp [hb, hrun, hact])]
    rfl
  · have hgather := State.works_tbGather (s.arrive t) ((((s.arrive t).lostSills b edges).coastStart b
      (if b.val = (s.arrive t).ridge then 0 else 4) last.toNat).coastWaits b ((s.arrive t).activeSill b)
      ((s.arrive t).relocking b ((s.arrive t).activeSill b))) 0
    exact State.coastShown_keep (State.coastShown_of hwaits (hgather _)
      (State.keepsBits_of_works (.refl _ _ _) (hgather []) (by simp))) ((hgather []).variant.trans hvar)

end Sys2Proof.Machine
end

section
/-!
PROOFS. Lock windows of a sill (R30, R67–R74, R86, R89): the window that is counted, and the one that starts PT.
-/

namespace Sys2Proof.Machine

/-! ### A window's updates (R67–R71) -/

/-- Updates run the loop of their sill; its counts of windows are the detector's. -/
theorem Sill.good_foldl_update (l : Loop) (off : Nat → Int) (edges : List Nat) (x : Sill) :
    (edges.foldl (fun x p => x.update l p (off p)) x).good = x.good := by
  induction edges generalizing x with
  | nil => rfl
  | cons p edges ih =>
    rw [List.foldl_cons, ih, Sill.update]
    dsimp only
    split <;> rfl

theorem State.updates_good (s : State) (b k : Nat) (edges : List Nat) :
    ((s.updates b k edges).sill b k).good = (s.sill b k).good := by
  unfold State.updates
  dsimp only
  split
  · rw [State.sill_wr, State.sill_setSill_same]
    exact Sill.good_foldl_update _ _ _ _
  · rw [State.sill_setSill_same]
    exact Sill.good_foldl_update _ _ _ _

theorem State.updates_sill_ne (s : State) {b k j : Nat} (h : j ≠ k) (edges : List Nat) :
    (s.updates b k edges).sill b j = s.sill b j := by
  unfold State.updates
  dsimp only
  split
  · rw [State.sill_wr, State.sill_setSill_ne _ _ _ _ _ _ (by omega)]
  · rw [State.sill_setSill_ne _ _ _ _ _ _ (by omega)]

/-- The word of the sill is the one register that updates reach. -/
theorem State.updates_only (s : State) (b k : Nat) (edges : List Nat) :
    s.updates b k edges = { s with regs := (s.updates b k edges).regs, sills := (s.updates b k edges).sills } ∧
      s.sameRegs (s.updates b k edges) [sillPg b k + Off.SILL_DCO_WORD] := by
  unfold State.updates
  dsimp only
  split
  · exact ⟨rfl, fun a ha => State.reg_wr_ne _ _ (by simpa using ha)⟩
  · exact ⟨rfl, fun _ _ => rfl⟩

/-! ### The settings that a sill runs (R91) -/

/-- A setting of a sill that an operation does not reach, with SILL_CTRL that says on which page it stands. -/
theorem State.works.cfg_fld {s x : State} {l : List Nat} (h : s.works x l) (hctrl : Off.SILL_SILL_CTRL ∉ l) {o : Nat}
    (ho : o ∉ l) (ho' : o < 0x1000) (b k lo len : Nat) :
    x.fld (x.sillCfg b k + o) lo len = s.fld (s.sillCfg b k + o) lo len := by
  have hmirror : x.mirror b = s.mirror b :=
    State.bit_of_reg (h.2.1 _ (by rw [sillReg_off b 1 (by decide)]; exact hctrl)) 7
  have hcfg : x.sillCfg b k = s.sillCfg b k := by rw [State.sillCfg, State.sillCfg, hmirror]
  have hoff : (s.sillCfg b k + o) % 0x1000 = o := by
    rw [State.sillCfg]
    split <;> exact sillReg_off b _ ho'
  rw [hcfg, State.fld, State.fld, State.rd_of_reg (h.2.1 _ (by rw [hoff]; exact ho))]

/-! ### A good window (R73) -/

/-- What the lock detector keeps of a good window: the counts and LOCK_ERR. -/
def State.judged (s : State) (b k : Nat) (w : Int × Nat) (last : Nat) : State :=
  (s.setSill b k { s.sill b k with
    good := (s.sill b k).good + 1, bad := if s.windowFar b k w then (s.sill b k).bad + 1 else 0, lastOk := true
    goodUpd := some last }).wr (sillPg b k + Off.SILL_LOCK_ERR) (ofSigned 32 (roundDiv (w.1 * 1000000000) w.2))

theorem State.works_judged (s : State) (b k : Nat) (w : Int × Nat) (last : Nat) :
    s.works (s.judged b k w last) [Off.SILL_LOCK_ERR] :=
  State.works_wr (State.works_setSill (.refl s _) _ _ _) (mem_bp (by decide)) _

/-- A good window of a sill that acquires its phase locks it, or its twin hears it. -/
theorem State.judgeWindow_good {s : State} {b k : Nat} {w : Int × Nat} (hok : s.windowOk b k w = true)
    (hlock : s.bit (sillStat b k) 0 = false) (hcoast : s.bit (sillStat b k) 3 = false) (hacq : 3 ≤ s.acqState b k)
    (start : Bool) (last : Nat) : s.judgeWindow b k w start last =
      if s.fld (s.sillCfg b k + Off.SILL_LOCK_WIN) 8 8 ≤ (s.sill b k).good + 1 then
        (s.judged b k w last).lockSill b k start else (s.judged b k w last).twinHeard b k true := by
  have hw := s.works_judged b k w last
  have hstat : (s.judged b k w last).reg (sillStat b k) = s.reg (sillStat b k) :=
    hw.2.1 _ (by rw [sillStat, sillReg_off b k (by decide)]; decide)
  have hlock' := (State.bit_of_reg hstat 0).trans hlock
  have hcoast' := (State.bit_of_reg hstat 3).trans hcoast
  have hacq' : ¬ (s.judged b k w last).acqState b k < 3 := by
    rw [State.acqState, State.fld, State.rd_of_reg hstat]
    exact Nat.not_lt.mpr hacq
  have hcfg := hw.cfg_fld (by decide) (o := Off.SILL_LOCK_WIN) (by decide) (by decide) b k 8 8
  have hjudge : s.judgeWindow b k w start last =
      if (s.judged b k w last).bit (sillStat b k) 0 then
        (if 2 ≤ (if s.windowFar b k w then (s.sill b k).bad + 1 else 0) then (s.judged b k w last).comparator b k
          else (s.judged b k w last).twinHeard b k true)
      else if (s.judged b k w last).bit (sillStat b k) 3 then s.judged b k w last
      else if (s.judged b k w last).acqState b k < 3 then (s.judged b k w last).acquireWindow b k w
      else if (s.judged b k w last).fld ((s.judged b k w last).sillCfg b k + Off.SILL_LOCK_WIN) 8 8 ≤
        (s.sill b k).good + 1 then (s.judged b k w last).lockSill b k start
      else (s.judged b k w last).twinHeard b k true := by
    unfold State.judgeWindow
    simp only [hok, hcoast, hacq]
    rfl
  rw [hjudge, hlock', hcoast', if_neg hacq', hcfg]
  rfl

/-! ### The command -/

/-- A whole window of a sill that may lock is judged after its updates, on the clock that the window leaves. -/
theorem lockWindow_judged {s : State} {t : PT} {b : Fin 8} {k : Fin 2} {before : List Nat} {last : Nat} {w : Int × Nat}
    {v : State} (hw : (s.arrive t).window b k (before ++ [last]) = some w)
    (hrel : (s.arrive t).windowRelocks b k (before ++ [last]) = false)
    (hv : v = { s.arrive t with clk := (s.arrive t).windowClk b k (before ++ [last]) })
    (hb : (s.arrive t).has b = true) (hmay : v.mayLock b k = true) :
    exec (.lockWindow t b k before last) s = .next (v.keepMem (State.tbGather v
      ((v.updates b k (before ++ [last])).judgeWindow b k w ((s.arrive t).windowStarts b k (before ++ [last])) last) 0).settle) := by
  have hbefore : s.beforeRelock t b k (before ++ [last]) = s := by rw [State.beforeRelock, hrel]; rfl
  have hgate : (!v.has b || !v.mayLock b k) = false := by
    rw [hmay, hv, State.has]
    simpa [State.has] using hb
  rw [exec_lockWindow]
  unfold execLockWindow
  dsimp only
  rw [hbefore, hw, List.getLast?_concat, runClk, ← hv]
  dsimp only
  rw [hgate]
  rfl

/-- The conditions gathered for measurements end no measurement. -/
theorem State.tbGather_touched (s0 s : State) (x : Nat) : (State.tbGather s0 s x).touched = s.touched := by
  unfold State.tbGather
  refine foldl_frame State.touched _ (fun z b => ?_) _ _
  have htius : ∀ z : State, ((List.range 4).foldl (fun s u =>
      if (s.tiu b u).armed then s.setTiu b u { s.tiu b u with tb := (s.tiu b u).tb ||| s.tbBits b ||| x } else s) z).touched =
        z.touched := foldl_frame State.touched _ (fun z u => by
      split
      · next h => simp [State.setTiu, h, State.touchedIf]
      · rfl) _
  have hfres : ∀ z : State, ((List.range 2).foldl (fun s e =>
      s.setFre b e { s.fre b e with gate := (s.fre b e).gate.map fun g => { g with tb := g.tb ||| s.tbBits b ||| x } })
        z).touched = z.touched := foldl_frame State.touched _ (fun z e => by
      cases h : (z.fre b e).gate <;> simp [State.setFre, h, State.touchedIf]) _
  dsimp only
  split
  · rw [State.raise_touched]
    exact (hfres _).trans (htius z)
  · exact (hfres _).trans (htius z)

theorem State.reg_tbGather (s0 s : State) (x a : Nat) : (State.tbGather s0 s x).reg a = s.reg a := by
  rw [State.tbGather_only]
  rfl

/-- A good window judged after the window's updates. -/
theorem State.judgeWindow_updates {v : State} {b k : Nat} {w : Int × Nat} (hok : v.windowOk b k w = true)
    (hlock : v.bit (sillStat b k) 0 = false) (hcoast : v.bit (sillStat b k) 3 = false) (hacq : 3 ≤ v.acqState b k)
    (edges : List Nat) (start : Bool) (last : Nat) : (v.updates b k edges).judgeWindow b k w start last =
      if v.fld (v.sillCfg b k + Off.SILL_LOCK_WIN) 8 8 ≤ (v.sill b k).good + 1 then
        ((v.updates b k edges).judged b k w last).lockSill b k start
      else ((v.updates b k edges).judged b k w last).twinHeard b k true := by
  have hw := v.works_updates b k edges
  have hstat : (v.updates b k edges).reg (sillStat b k) = v.reg (sillStat b k) :=
    hw.2.1 _ (by rw [sillStat, sillReg_off b k (by decide)]; decide)
  have hok' : (v.updates b k edges).windowOk b k w = true := by
    rw [State.windowOk, hw.cfg_fld (by decide) (by decide) (by decide)]
    exact hok
  have hacq' : 3 ≤ (v.updates b k edges).acqState b k := by
    rw [State.acqState, State.fld, State.rd_of_reg hstat]
    exact hacq
  rw [State.judgeWindow_good hok' ((State.bit_of_reg hstat 0).trans hlock) ((State.bit_of_reg hstat 3).trans hcoast) hacq',
    hw.cfg_fld (by decide) (by decide) (by decide), v.updates_good]

/-- What a good window that does not lock its sill reaches. -/
theorem State.window_counted {u x : State} {b k : Nat} {edges : List Nat} {w : Int × Nat} {last : Nat}
    (hx : x = State.tbGather u ((u.updates b k edges).judged b k w last) 0) :
    (x.sill b k).good = (u.sill b k).good + 1 ∧
      u.sameRegs x [sillPg b k + Off.SILL_LOCK_ERR, sillPg b k + Off.SILL_DCO_WORD] ∧
      x = { u with regs := x.regs, ev := x.ev, sills := x.sills, tius := x.tius, fres := x.fres } := by
  obtain ⟨honly, hsame⟩ := u.updates_only b k edges
  have hgather := State.tbGather_only u ((u.updates b k edges).judged b k w last) 0
  rw [State.tbGather_touched, ← hx] at hgather
  refine ⟨?_, fun a ha => ?_, ?_⟩
  · have hsill : x.sill b k = ((u.updates b k edges).judged b k w last).sill b k := by rw [hgather]; rfl
    rw [hsill, State.judged, State.sill_wr, State.sill_setSill_same]
    exact congrArg (· + 1) (u.updates_good b k edges)
  · simp only [List.mem_cons, List.not_mem_nil, or_false, not_or] at ha
    obtain ⟨herr, hdco⟩ := ha
    rw [hx, State.reg_tbGather, State.judged, State.reg_wr_ne _ _ herr, State.reg_setSill, hsame a (by simpa using hdco)]
  · rw [hgather, State.judged, honly]
    rfl

/-- A good window before the last of LOCK_COUNT is counted (R73). -/
theorem sill_window {s : State} {t : PT} {b : Fin 8} {k : Fin 2} {before : List Nat} {last : Nat} {w : Int × Nat}
    (hw : (s.arrive t).window b k (before ++ [last]) = some w) (hcounts : (s.arrive t).windowCounts b k = true)
    (hok : (s.arrive t).windowOk b k w = true)
    (hlt : ((s.arrive t).sill b k).good + 1 < (s.arrive t).fld ((s.arrive t).sillCfg b k + Off.SILL_LOCK_WIN) 8 8)
    (hfired : ((s.arrive t).sill b (1 - k.val)).fired = false) :
    ∃ s', exec (.lockWindow t b k before last) s = .next s' ∧ (s'.sill b k).good = ((s.arrive t).sill b k).good + 1 ∧
      s'.clk = (s.arrive t).clk ∧
      (s.arrive t).sameRegs s' [sillPg b k + Off.SILL_LOCK_ERR, sillPg b k + Off.SILL_DCO_WORD] ∧
      s' = { s.arrive t with regs := s'.regs, ev := s'.ev, sills := s'.sills, tius := s'.tius, fres := s'.fres } := by
  have hlocks : (s.arrive t).windowLocks b k (before ++ [last]) = false := by
    rw [State.windowLocks, hw]
    dsimp only
    rw [decide_eq_false (Nat.not_le.mpr hlt), Bool.and_false]
  have hstarts : (s.arrive t).windowStarts b k (before ++ [last]) = false := by simp [State.windowStarts, hlocks]
  have hrel : (s.arrive t).windowRelocks b k (before ++ [last]) = false := by simp [State.windowRelocks, hlocks]
  have hclk : (s.arrive t).windowClk b k (before ++ [last]) = (s.arrive t).clk := by simp [State.windowClk, hstarts, hrel]
  have hcounts' := hcounts
  simp only [State.windowCounts, Bool.and_eq_true, Bool.not_eq_true', decide_eq_true_eq] at hcounts'
  obtain ⟨⟨⟨⟨hb, hmay⟩, hcoast⟩, hlock⟩, hacq⟩ := hcounts'
  have hexec := lockWindow_judged (v := s.arrive t) hw hrel (by rw [hclk]) hb hmay
  generalize s.arrive t = u at *
  have hheard : ((u.updates b k (before ++ [last])).judged b k w last).twinHeard b k true =
      (u.updates b k (before ++ [last])).judged b k w last := by
    have hj : 1 - k.val ≠ k.val := by omega
    have hsill : ((u.updates b k (before ++ [last])).judged b k w last).sill b (1 - k.val) = u.sill b (1 - k.val) := by
      rw [State.judged, State.sill_wr, State.sill_setSill_ne _ _ _ _ _ _ (by omega), u.updates_sill_ne hj]
    rw [State.twinHeard, hsill, hfired]
    rfl
  rw [State.judgeWindow_updates hok hlock hcoast hacq, if_neg (Nat.not_le.mpr hlt), hheard] at hexec
  obtain ⟨hgood, hsame, honly⟩ := State.window_counted (u := u) (edges := before ++ [last]) (w := w) (last := last) rfl
  generalize State.tbGather u ((u.updates b k (before ++ [last])).judged b k w last) 0 = x at *
  have hvar : x.variant = u.variant := by rw [honly]
  refine ⟨_, hexec, ?_, by simp, fun a ha => ?_, ?_⟩
  · rw [State.sill_keepMem, State.sill_settle, hgood]
  · rw [State.reg_keepMem_settle hvar, hsame a ha]
  · rw [State.keepMem_settle, honly]

/-! ### The first lock of the ridge (R30, R86, R269) -/

/-- The offsets of the registers that a lock reaches; SRC_STAT and CAL_STAT stand at SILL_STAT's. -/
def firstOffs : List Nat := lockOffs ++ [Off.SILL_LOCK_ERR, Off.SILL_DCO_FLOOR, Off.SILL_DCO_CEIL]

theorem State.works_tb {s x : State} {l : List Nat} (h : s.works x l) (z : Tb) : s.works { x with tb := z } l :=
  State.works_of h rfl rfl rfl

theorem State.works_setCal {s x : State} {l : List Nat} (h : s.works x l) (b : Nat) (z : CalSt) : s.works (x.setCal b z) l :=
  State.works_of h rfl rfl rfl

theorem State.works_noSourceIs {s x : State} {l : List Nat} (h : s.works x l) (on : Bool) : s.works (x.noSourceIs on) l := by
  have hset := State.works_category (State.works_standing h tbPg 0x4F on) 2 8 on
  unfold State.noSourceIs
  dsimp only
  split
  · exact State.works_raise hset _ _
  · exact hset

theorem State.works_startOutputs (s : State) (b : Nat) (l : List Nat) : s.works (s.startOutputs b) l := by
  unfold State.startOutputs
  refine State.works_foldl (fun x n => ?_) _ s
  split
  · exact State.works_of (.refl x l) rfl rfl rfl
  · exact State.works_of (.refl x l) rfl rfl rfl

/-- The source in force as PT starts. -/
def State.startSource (s : State) : State :=
  let s0 := (s.setFld srcStat 0 2 (s.lockSource.getD 3)).noSourceIs false
  ({ s0 with tb := { s0.tb with switchTo := none } }).warmStart.warmUpdate

theorem State.firstLock_start (s : State) (b k : Nat) : s.firstLock b k true =
    let s2 := (s.startSource.setBit (sillStat b k) 1 true).startOutputs b
    (s2.setCal b { s2.cal b with lockAt := some s2.now }).setBit (calPg b + Off.CAL_CAL_STAT) 0 true := rfl

theorem State.works_startSource (s : State) : s.works s.startSource [Off.SILL_SILL_STAT] := by
  have h0 : s.works { (s.setFld srcStat 0 2 (s.lockSource.getD 3)).noSourceIs false with
      tb := { ((s.setFld srcStat 0 2 (s.lockSource.getD 3)).noSourceIs false).tb with switchTo := none } }
      [Off.SILL_SILL_STAT] :=
    State.works_tb (State.works_noSourceIs (State.works_setFld (.refl s _) (mem_pkgp (by decide)) _ _ _) _) _
  unfold State.startSource State.warmUpdate
  refine State.works_setBit ?_ (mem_pkgp (by decide)) _ _
  unfold State.warmStart
  split
  · exact State.works_raise h0 _ _
  · exact h0

theorem State.works_firstLock (s : State) (b k : Nat) : s.works (s.firstLock b k true) [Off.SILL_SILL_STAT] := by
  rw [State.firstLock_start]
  exact State.works_setBit (State.works_setCal ((State.works_setBit s.works_startSource (mem_bp (by decide)) _ _).trans
    (State.works_startOutputs _ b _)) _ _) (mem_bp (by decide)) _ _

/-- SRC_STAT is no sill's. -/
theorem sillStat_ne_srcStat {b k : Nat} (hb : b < 8) (hk : k < 2) : sillStat b k ≠ srcStat := by
  unfold sillStat sillPg srcStat tbPg bp pkgp Off.SILL_SILL_STAT Off.TIMEBASE_SRC_STAT
  omega

/-- CAL_STAT is no sill's. -/
theorem sillStat_ne_calStat {b k c : Nat} (hk : k < 2) : sillStat b k ≠ calPg c + Off.CAL_CAL_STAT := by
  unfold sillStat sillPg calPg bp Off.SILL_SILL_STAT Off.CAL_CAL_STAT
  omega

/-- The choice of the source reaches no sill's SILL_STAT. -/
theorem State.startSource_stat (s : State) {b j : Nat} (hb : b < 8) (hj : j < 2) :
    s.startSource.reg (sillStat b j) = s.reg (sillStat b j) := by
  have hsrc := sillStat_ne_srcStat hb hj
  have hno : ∀ x : State, (x.noSourceIs false).reg (sillStat b j) = x.reg (sillStat b j) := fun x =>
    (State.works_noSourceIs (.refl x []) false).2.1 _ (by simp)
  have hwarm : ∀ x : State, x.warmStart.reg (sillStat b j) = x.reg (sillStat b j) := fun x => by
    unfold State.warmStart
    split
    · exact State.reg_raise _ _ _ _
    · rfl
  unfold State.startSource State.warmUpdate
  rw [State.reg_setBit_ne _ _ _ hsrc, hwarm, State.reg_tb, hno]
  exact State.reg_wr_ne _ _ hsrc

/-- A bit put in a register leaves the same word in states where the registers held the same. -/
theorem State.reg_setBit_congr {s x : State} {a c : Nat} (ha : x.reg a = s.reg a) (hc : x.reg c = s.reg c) (i : Nat) (on : Bool) :
    (x.setBit c i on).reg a = (s.setBit c i on).reg a := by
  by_cases h : a = c
  · subst h
    rw [State.setBit, State.setBit, State.setFld, State.setFld, State.rd_of_reg ha,
      State.wr, State.wr, State.reg_setReg_same, State.reg_setReg_same]
  · rw [State.reg_setBit_ne _ _ _ h, State.reg_setBit_ne _ _ _ h, ha]

/-- Of the bent's two SILL_STAT, the first lock of a sill puts ACTIVE in its own. -/
theorem State.firstLock_stat (s : State) {b k j : Nat} (hb : b < 8) (hk : k < 2) (hj : j < 2) :
    (s.firstLock b k true).reg (sillStat b j) = (s.setBit (sillStat b k) 1 true).reg (sillStat b j) := by
  rw [State.firstLock_start]
  dsimp only
  rw [State.reg_setBit_ne _ _ _ (sillStat_ne_calStat hj), State.reg_setCal,
    (State.works_startOutputs _ b []).2.1 _ (by simp)]
  exact State.reg_setBit_congr (s.startSource_stat hb hj) (s.startSource_stat hb hk) _ _

/-! ### A lock that stands -/

/-- Sill A of a bent is LOCKED and ACTIVE, its event raised, and sill B does not drive the outputs. -/
def State.lockStands (s : State) (b : Nat) : Prop :=
  s.bit (sillStat b 0) 0 = true ∧ s.bit (sillStat b 0) 1 = true ∧ s.bit (sillStat b 1) 1 = false ∧
    s.raised (sillPg b 0) 0 = true

/-- It stands while LOCKED and ACTIVE stay, and events are only raised. -/
theorem State.lockStands_of {s x : State} {b : Nat} {l m : List Nat} (h : s.lockStands b) (hw : s.works x l)
    (hA : s.keepsBits x (sillStat b 0) [16, 17, 18]) (hB : s.keepsBits x (sillStat b 1) m) (hm : 1 ∉ m) : x.lockStands b := by
  obtain ⟨hlock, hact, hother, hraised⟩ := h
  exact ⟨(hA 0 (by decide) (by decide)).trans hlock, (hA 1 (by decide) (by decide)).trans hact,
    (hB 1 (by decide) hm).trans hother, hw.2.2 _ _ hraised⟩

/-- It stands through what reaches no SILL_STAT. -/
theorem State.lockStands_works {s x : State} {b : Nat} {l : List Nat} (h : s.lockStands b) (hw : s.works x l)
    (hl : Off.SILL_SILL_STAT ∉ l) : x.lockStands b := by
  have hoff : ∀ k, sillStat b k % 0x1000 ∉ l := fun k => by rw [sillStat, sillReg_off b k (by decide)]; exact hl
  exact State.lockStands_of h hw (State.keepsBits_of_works (.refl s _ _) hw (hoff 0))
    (State.keepsBits_of_works (.refl s _ []) hw (hoff 1)) (by simp)

theorem State.lockStands_foldl {α : Type} {f : State → α → State} {b : Nat}
    (hf : ∀ (s : State) a, s.lockStands b → (f s a).lockStands b) (l : List α) {s : State} (h : s.lockStands b) :
    (l.foldl f s).lockStands b := by
  induction l generalizing s with
  | nil => exact h
  | cons a l ih => exact ih (hf s a h)

theorem State.lockStands_acqStart {s : State} {b : Nat} (h : s.lockStands b) (c k : Nat) : (s.acqStart c k).lockStands b :=
  State.lockStands_of h (s.works_acqStart c k) (s.keepsBits_acqStart c k (sillReg_off b 0 (by decide)))
    (s.keepsBits_acqStart c k (sillReg_off b 1 (by decide))) (by decide)

/-- Another sill's loss of lock leaves a SILL_STAT. -/
theorem State.unlock_reg_ne (s : State) (b k : Nat) (relock : Bool) {a : Nat} (ha : a % 0x1000 = Off.SILL_SILL_STAT)
    (hne : a ≠ sillStat b k) : (s.unlock b k relock).reg a = s.reg a := by
  rcases s.unlock_reg b k relock ha with h | h
  · exact h
  · exact h.trans (State.reg_setBit_ne _ _ _ hne)

/-- The sills unlocked in a relock are the ones that do not drive the outputs. -/
theorem State.lockStands_unlock {s : State} {b : Nat} (h : s.lockStands b) (c : Nat) :
    (s.unlock c (1 - s.activeSill c) true).lockStands b := by
  have hne : sillStat b 0 ≠ sillStat c (1 - s.activeSill c) := fun he => by
    have hc : c = b := by
      unfold sillStat sillPg bp at he
      omega
    obtain ⟨-, -, hother, -⟩ := h
    rw [hc, State.activeSill, hother] at he
    unfold sillStat sillPg bp at he
    simp at he
  exact State.lockStands_of h (s.works_unlock _ _ _)
    (State.keepsBits_of_reg (.refl s _ _) (s.unlock_reg_ne _ _ _ (sillReg_off b 0 (by decide)) hne))
    (s.keepsBits_unlock _ _ _ (sillReg_off b 1 (by decide))) (by decide)

theorem State.lockStands_relockLocked {s : State} {b : Nat} (h : s.lockStands b) (n : Nat) : (s.relockLocked n).lockStands b := by
  have htb : ({ s with tb := { s.tb with relock := some (n, some s.now) } } : State).lockStands b :=
    State.lockStands_works h (State.works_tb (.refl s []) _) (by simp)
  unfold State.relockLocked State.each
  dsimp only
  refine State.lockStands_foldl (fun x c hx => ?_) _ (State.lockStands_foldl (fun x c hx => ?_) _ htb)
  · split
    · exact hx
    · exact State.lockStands_acqStart (State.lockStands_unlock hx c) _ _
  · exact State.lockStands_works hx (State.works_setCal (.refl x []) _ _) (by simp)

theorem State.works_relockLocked (s : State) (n : Nat) : s.works (s.relockLocked n) lockOffs := by
  unfold State.relockLocked State.each
  dsimp only
  refine (State.works_tb (.refl s _) _).trans ((State.works_foldl (fun x c => State.works_setCal (.refl x _) _ _) _ _).trans
    (State.works_foldl (fun x c => ?_) _ _))
  split
  · exact .refl x _
  · exact (x.works_unlock _ _ _).trans (State.works_acqStart _ _ _)

theorem State.lockStands_acquire {s : State} {b : Nat} (h : s.lockStands b) : s.acquire.lockStands b := by
  unfold State.acquire
  refine State.lockStands_foldl (fun x c hx => State.lockStands_foldl (fun y k hy => ?_) _ hx) _ h
  split
  · exact State.lockStands_acqStart hy _ _
  · exact hy

theorem State.works_acquire (s : State) : s.works s.acquire lockOffs := by
  unfold State.acquire
  refine State.works_foldl (fun x c => State.works_foldl (fun y k => ?_) _ x) _ s
  split
  · exact y.works_acqStart _ _
  · exact .refl y _

theorem State.works_autoClamp (s : State) (b n : Nat) :
    s.works (s.autoClamp b n) [Off.SILL_DCO_FLOOR, Off.SILL_DCO_CEIL] := by
  unfold State.autoClamp
  refine State.works_foldl (fun x k => ?_) _ s
  dsimp only
  split
  · exact .refl x _
  · exact State.works_wr (State.works_wr (.refl x _) (mem_bp (by decide)) _) (mem_bp (by decide)) _

/-- What a lock of a sill that begins its bent's lattice puts: LOCKED, ACQ_STATE 4, the clamp and its event. -/
def State.lockPut (s0 : State) (b k n : Nat) (z : Sill) : State :=
  ((((s0.setBit (sillStat b k) 0 true).setFld (sillStat b k) 16 3 4).setSill b k z).autoClamp b n).raise (sillPg b k) 0

/-- A follower's lock shows on the purlin. -/
def State.lockPurlin (s : State) (b : Nat) (act : Bool) : State :=
  if b != s.ridge && act then s.setBit (purlinPg + Off.PURLIN_PURLIN_STAT) (8 + b) true else s

/-- A lock of the ridge's active sill goes on with a relock under way. -/
def State.lockRelock (s : State) (b : Nat) (act : Bool) : State :=
  match s.tb.relock with
  | some (m, none) => if b = s.ridge && act then s.relockLocked m else s
  | _ => s

theorem State.lockSill_first {s : State} {b k : Nat} (h : s.hasActive b = false) : ∃ z,
    s.lockSill b k true = ((((s.firstLock b k true).lockPut b k ((s.firstLock b k true).sillN b k) z).lockPurlin b
      ((s.firstLock b k true).bit (sillStat b k) 1)).lockRelock b ((s.firstLock b k true).bit (sillStat b k) 1)).acquire := by
  unfold State.lockSill
  rw [h]
  exact ⟨_, rfl⟩

theorem State.works_lockPut (s : State) (b k n : Nat) (z : Sill) : s.works (s.lockPut b k n z) firstOffs :=
  State.works_raise (State.works.trans (State.works_setSill (State.works_setFld (State.works_setBit (.refl s _)
    (mem_bp (by decide)) _ _) (mem_bp (by decide)) _ _ _) _ _ _) ((State.works_autoClamp _ b n).mono (by decide))) _ _

theorem State.works_lockPurlin (s : State) (b : Nat) (act : Bool) : s.works (s.lockPurlin b act) [Off.PURLIN_PURLIN_STAT] := by
  unfold State.lockPurlin
  split
  · exact State.works_setBit (.refl s _) (mem_pkgp (by decide)) _ _
  · exact .refl s _

theorem State.works_lockRelock (s : State) (b : Nat) (act : Bool) : s.works (s.lockRelock b act) lockOffs := by
  unfold State.lockRelock
  split
  · split
    · exact s.works_relockLocked _
    · exact .refl s _
  · exact .refl s _

theorem State.lockStands_lockRelock {s : State} {b : Nat} (h : s.lockStands b) (act : Bool) :
    (s.lockRelock b act).lockStands b := by
  unfold State.lockRelock
  split
  · split
    · exact State.lockStands_relockLocked h _
    · exact h
  · exact h

/-- The lock put stands on a bent whose sill A drives the outputs. -/
theorem State.lockStands_lockPut {s : State} {b : Nat} (hact : s.bit (sillStat b 0) 1 = true)
    (hother : s.bit (sillStat b 1) 1 = false) (n : Nat) (z : Sill) : (s.lockPut b 0 n z).lockStands b := by
  have hreg : ∀ k, (s.lockPut b 0 n z).reg (sillStat b k) =
      ((s.setBit (sillStat b 0) 0 true).setFld (sillStat b 0) 16 3 4).reg (sillStat b k) := fun k => by
    rw [State.lockPut, State.reg_raise, (State.works_autoClamp _ b n).2.1 _ (by rw [sillStat, sillReg_off b k (by decide)]; decide),
      State.reg_setSill]
  have hfld : ∀ k, (s.setBit (sillStat b 0) 0 true).keepsBits (s.lockPut b 0 n z) (sillStat b k) [16, 17, 18] := fun k =>
    State.keepsBits_of_reg (State.keepsBits_setFld (.refl _ _ _) _ (fun i h1 h2 => by
      simp only [List.mem_cons, List.not_mem_nil, or_false]
      omega) _) (hreg k)
  refine ⟨?_, ?_, ?_, State.raised_raise_same _ _ _⟩
  · rw [hfld 0 0 (by decide) (by decide), State.bit_setBit_same _ _ _ _ (by decide)]
  · rw [hfld 0 1 (by decide) (by decide), State.bit_setBit_ne _ _ _ (by decide) (by decide), hact]
  · rw [hfld 1 1 (by decide) (by decide), State.bit_of_reg (State.reg_setBit_ne _ _ _ _), hother]
    unfold sillStat sillPg bp
    omega

/-- The first lock of a bent's sill A stands. -/
theorem State.lockSill_stands {s : State} {b : Nat} (hb : b < 8) (h : s.hasActive b = false) :
    (s.lockSill b 0 true).lockStands b ∧ s.works (s.lockSill b 0 true) firstOffs := by
  obtain ⟨z, hz⟩ := State.lockSill_first (k := 0) h
  have hstat := fun j (hj : j < 2) => State.firstLock_stat s (k := 0) hb (by decide) hj
  have hact : (s.firstLock b 0 true).bit (sillStat b 0) 1 = true := by
    rw [State.bit_of_reg (hstat 0 (by decide)), State.bit_setBit_same _ _ _ _ (by decide)]
  have hother : (s.firstLock b 0 true).bit (sillStat b 1) 1 = false := by
    rw [State.bit_of_reg ((hstat 1 (by decide)).trans (State.reg_setBit_ne _ _ _ (by unfold sillStat sillPg bp; omega)))]
    simp only [State.hasActive, Bool.or_eq_false_iff] at h
    exact h.2
  rw [hz]
  constructor
  · exact State.lockStands_acquire (State.lockStands_lockRelock (State.lockStands_works
      (State.lockStands_lockPut hact hother _ z) (State.works_lockPurlin _ _ _) (by decide)) _)
  · exact ((s.works_firstLock b 0).mono (by decide)).trans ((State.works_lockPut _ _ _ _ _).trans
      (((State.works_lockPurlin _ _ _).mono (by decide)).trans (((State.works_lockRelock _ _ _).mono (by decide)).trans
        ((State.works_acquire _).mono (by decide)))))

/-- What the window of a first lock found: the last of its good windows, at sill A of a ridge that drives no outputs yet. -/
theorem State.windowStarts_holds {u : State} {b k : Nat} {edges : List Nat} (h : u.windowStarts b k edges = true) :
    b = u.ridge ∧ u.hasActive b = false ∧ k = 0 ∧ u.windowClk b k edges = u.clk.start ∧
      ({ u with clk := u.clk.start } : State).mayLock b k = true ∧ ∃ w, u.window b k edges = some w ∧
        u.windowCounts b k = true ∧ u.windowOk b k w = true ∧
        u.fld (u.sillCfg b k + Off.SILL_LOCK_WIN) 8 8 ≤ (u.sill b k).good + 1 := by
  have hclk : u.windowClk b k edges = u.clk.start := by rw [State.windowClk, h]; rfl
  simp only [State.windowStarts, Bool.and_eq_true, beq_iff_eq, Bool.not_eq_true'] at h
  obtain ⟨⟨⟨hlocks, hridge⟩, -⟩, hactive⟩ := h
  cases hw : u.window b k edges with
  | none => simp [State.windowLocks, hw] at hlocks
  | some w =>
    simp only [State.windowLocks, hw, Bool.and_eq_true, decide_eq_true_eq] at hlocks
    obtain ⟨⟨hcounts, hok⟩, hlast⟩ := hlocks
    have hmay := hcounts
    simp only [State.windowCounts, Bool.and_eq_true] at hmay
    obtain ⟨⟨⟨⟨-, hmay⟩, -⟩, -⟩, -⟩ := hmay
    simp only [State.mayLock, Bool.and_eq_true, hactive, Bool.false_or, beq_iff_eq] at hmay
    obtain ⟨⟨⟨helected, -⟩, hfault⟩, hk⟩ := hmay
    refine ⟨hridge, hactive, hk, hclk, ?_, w, rfl, hcounts, hok, hlast⟩
    have hmay' : ({ u with clk := u.clk.start } : State).mayLock b k =
        (u.tree.elected && (if b = u.ridge then true else true) && !u.bit (sillStat b k) 7 && (u.hasActive b || k == 0)) := rfl
    rw [hmay', helected, if_pos hridge, hk]
    rw [hk] at hfault
    simpa using hfault

theorem State.works.mem {s x : State} {l : List Nat} (h : s.works x l) : x.mem = s.mem := by
  have he : x.sansSills.mem = s.sansSills.mem := congrArg State.mem h.1
  exact he

theorem State.works.queues {s x : State} {l : List Nat} (h : s.works x l) : x.queues = s.queues := by
  have he : x.sansSills.queues = s.sansSills.queues := congrArg State.queues h.1
  exact he

/-- The first lock after a window's updates and counts, the conditions gathered. -/
theorem State.window_first {v : State} {b : Nat} (hb : b < 8) (h : v.hasActive b = false) (edges : List Nat) (w : Int × Nat)
    (last : Nat) :
    (State.tbGather v (((v.updates b 0 edges).judged b 0 w last).lockSill b 0 true) 0).lockStands b ∧
      v.works (State.tbGather v (((v.updates b 0 edges).judged b 0 w last).lockSill b 0 true) 0) firstOffs := by
  have hjudged : v.works ((v.updates b 0 edges).judged b 0 w last) [Off.SILL_DCO_WORD, Off.SILL_LOCK_ERR] :=
    ((v.works_updates b 0 edges).mono (by decide)).trans ((State.works_judged _ b 0 w last).mono (by decide))
  have hstat : ∀ k, ((v.updates b 0 edges).judged b 0 w last).reg (sillStat b k) = v.reg (sillStat b k) := fun k =>
    hjudged.2.1 _ (by rw [sillStat, sillReg_off b k (by decide)]; decide)
  have hactive : ((v.updates b 0 edges).judged b 0 w last).hasActive b = false := by
    rw [State.hasActive, State.bit_of_reg (hstat 0), State.bit_of_reg (hstat 1)]
    exact h
  obtain ⟨hstands, hworks⟩ := State.lockSill_stands hb hactive
  exact ⟨State.lockStands_works hstands (State.works_tbGather _ _ _ []) (by simp),
    ((hjudged.mono (by decide)).trans hworks).trans (State.works_tbGather _ _ _ _)⟩

/-- The window of the ridge's first lock starts PT (R30, R86). -/
theorem sill_starts {s : State} {t : PT} {b : Fin 8} {k : Fin 2} {before : List Nat} {last : Nat}
    (hstarts : (s.arrive t).windowStarts b k (before ++ [last]) = true) :
    ∃ s', exec (.lockWindow t b k before last) s = .next s' ∧
      s'.clk = { (s.arrive t).clk with now := 0, running := true, o := 0 } ∧
      s'.bit (sillStat b k) 0 = true ∧ s'.bit (sillStat b k) 1 = true ∧ s'.raised (sillPg b k) 0 = true ∧
      s'.mem = (s.arrive t).mem ∧ s'.queues = (s.arrive t).queues := by
  obtain ⟨-, hactive, hk, hclk, hmay, w, hw, hcounts, hok, hlast⟩ := State.windowStarts_holds hstarts
  have hcounts' := hcounts
  simp only [State.windowCounts, Bool.and_eq_true, Bool.not_eq_true', decide_eq_true_eq] at hcounts'
  obtain ⟨⟨⟨⟨hb, -⟩, hcoast⟩, hlock⟩, hacq⟩ := hcounts'
  have hrel : (s.arrive t).windowRelocks b k (before ++ [last]) = false := by
    have hbit : (s.arrive t).bit (sillStat b 0) 1 = false := by
      simp only [State.hasActive, Bool.or_eq_false_iff] at hactive
      exact hactive.1
    rw [State.windowRelocks, hk, hbit]
    simp
  have hexec := lockWindow_judged (v := { s.arrive t with clk := (s.arrive t).clk.start }) hw hrel (by rw [hclk]) hb hmay
  rw [State.judgeWindow_updates (by exact hok) (by exact hlock) (by exact hcoast) (by exact hacq), if_pos (by exact hlast),
    hstarts] at hexec
  rw [hk] at hexec ⊢
  obtain ⟨hstands, hworks⟩ := State.window_first (v := { s.arrive t with clk := (s.arrive t).clk.start }) b.isLt hactive
    (before ++ [last]) w last
  obtain ⟨hlocked, hdrives, -, hraised⟩ := hstands
  refine ⟨_, hexec, by rw [State.keepMem_clk]; rfl, ?_, ?_, ?_, ?_, ?_⟩
  · rw [State.bit_of_reg (State.reg_keepMem_settle hworks.variant _), hlocked]
  · rw [State.bit_of_reg (State.reg_keepMem_settle hworks.variant _), hdrives]
  · rw [State.raised, State.keepMem_ev, State.settle_ev_raw]
    exact hraised
  · rw [State.keepMem_mem, State.settle_mem, hworks.mem]
  · rw [State.keepMem_queues, State.settle_queues, hworks.queues]

/-- Settles O10: the window by what its judgement leaves, the loss by the coast it starts, and the watch by the skews that no
fault reaches. -/
theorem sillLockAndLoss : Obligations.SillLockAndLoss := by
  intro s u t b k hu _
  subst hu
  refine ⟨fun before last h => sill_starts h, fun before last w hw hcounts hok hlt hfired => sill_window hw hcounts hok hlt hfired,
    fun last edges hb hrun hact hcoast => ?_, fun skews errA errB skew hb hact hok hacq hlast =>
      sill_twinWatch errA errB hb hact hok hacq hlast⟩
  obtain ⟨s', hs', ⟨hbit, hfld, hpt, hcount, hraised⟩, hmem⟩ := sill_refLos (last := last) edges hb hrun hact hcoast
  exact ⟨s', hs', hbit, hfld, hpt, hcount, hraised, hmem⟩

end Sys2Proof.Machine
end

section
/-!
PROOFS. The fence of a bent (R304): what its pages' stops leave as it was, which the migration and the purlin rest on.
-/

namespace Sys2Proof.Machine

/-! ### What the stop of a page leaves -/

/-- What no stop of a page reaches: the tree, the variant, HIER_CTRL, and which sequencers have halted with nothing owed. -/
def State.home (s : State) : Tree × Variant × Word × (Nat → SeqPhase × List Shot) :=
  (s.tree, s.variant, s.reg hierCtrl, fun k => ((s.seq k).phase, (s.seq k).owed))

/-- A register that is not HIER_CTRL. -/
def offTree (a : Nat) : Prop := a ≠ hierCtrl

/-- A register of a page, its offset not a multiple of 32 as HIER_CTRL's is. -/
theorem offTree_reg {pg o : Nat} (hpg : pg % 0x1000 = 0) (ho : o % 32 ≠ 0) : offTree (pg + o) := by
  unfold offTree hierCtrl hierPg pkgp Off.HIER_HIER_CTRL; omega

/-- A register of a page by its offset. -/
theorem offTree_at {pg o : Nat} (hpg : pg % 0x1000 = 0) (ho : o % 0x1000 ≠ 0x40) : offTree (pg + o) := by
  unfold offTree hierCtrl hierPg pkgp Off.HIER_HIER_CTRL; omega

/-- A register of a page's numbered blocks. -/
theorem offTree_block {pg c d n : Nat} (hpg : pg % 0x1000 = 0) (hc : c % 32 ≠ 0) (hd : d % 32 = 0) : offTree (pg + (c + d * n)) := by
  have hdn : d * n % 32 = 0 := by rw [Nat.mul_mod, hd]; simp
  exact offTree_reg hpg (by omega)

@[simp] theorem bp_mod (b p : Nat) : bp b p % 0x1000 = 0 := by unfold bp; omega

theorem State.home_congr {s x : State} (ht : x.tree = s.tree) (hv : x.variant = s.variant) (hr : x.reg hierCtrl = s.reg hierCtrl)
    (hq : x.seqs = s.seqs) : x.home = s.home := by
  unfold State.home State.seq; rw [ht, hv, hr, hq]

@[simp] theorem State.home_ev (s : State) (e : EvSt) : ({ s with ev := e } : State).home = s.home := rfl
@[simp] theorem State.home_flight (s : State) (m : SMap (List Peg)) : ({ s with flight := m } : State).home = s.home := rfl
@[simp] theorem State.home_dacHold (s : State) (m : SMap (Option Nat)) : ({ s with dacHold := m } : State).home = s.home := rfl
@[simp] theorem State.home_dacAt (s : State) (m : SMap Nat) : ({ s with dacAt := m } : State).home = s.home := rfl
@[simp] theorem State.home_recGap (s : State) (m : SMap Bool) : ({ s with recGap := m } : State).home = s.home := rfl
@[simp] theorem State.home_setQueue (s : State) (l : Nat) (q : List Peg) : (s.setQueue l q).home = s.home := rfl
@[simp] theorem State.home_setEdge (s : State) (b c : Nat) (e : EdgeSt) : (s.setEdge b c e).home = s.home := rfl
@[simp] theorem State.home_setTone (s : State) (l : Nat) (z : ToneSt) : (s.setTone l z).home = s.home := rfl
@[simp] theorem State.home_setStream (s : State) (b n : Nat) (z : StreamSt) :
    (s.setStream b n z).home = s.home := rfl
@[simp] theorem State.home_setCap (s : State) (b i : Nat) (z : CapSt) : (s.setCap b i z).home = s.home := rfl
@[simp] theorem State.home_setTiu (s : State) (b i : Nat) (z : Tiu) : (s.setTiu b i z).home = s.home := rfl
@[simp] theorem State.home_setFre (s : State) (b i : Nat) (z : Fre) : (s.setFre b i z).home = s.home := rfl
@[simp] theorem State.home_setDma (s : State) (b i : Nat) (z : DmaSt) : (s.setDma b i z).home = s.home := rfl
@[simp] theorem State.home_setPort (s : State) (b i : Nat) (z : Port) : (s.setPort b i z).home = s.home := rfl
@[simp] theorem State.home_latchHealth (s : State) (pg c : Nat) : (s.latchHealth pg c).home = s.home := rfl
@[simp] theorem State.home_raiseAt (s : State) (pg i pt d : Nat) (f : Bool) : (s.raiseAt pg i pt d f).home = s.home :=
  State.home_congr (by simp) (by simp) (by simp) (by simp)
@[simp] theorem State.home_raise (s : State) (pg i : Nat) : (s.raise pg i).home = s.home := s.home_raiseAt ..
@[simp] theorem State.home_standing (s : State) (pg c : Nat) (on : Bool) : (s.standing pg c on).home = s.home :=
  State.home_congr (by simp) (by simp) (by simp) (by simp)

theorem State.home_wr (s : State) {a : Nat} (ha : offTree a) (v : Nat) : (s.wr a v).home = s.home :=
  State.home_congr rfl rfl (State.reg_wr_ne _ _ (Ne.symm ha)) rfl
theorem State.home_setBit (s : State) {a : Nat} (ha : offTree a) (i : Nat) (on : Bool) : (s.setBit a i on).home = s.home :=
  s.home_wr ha _
theorem State.home_count (s : State) {a : Nat} (ha : offTree a) (n : Nat) : (s.count a n).home = s.home := s.home_wr ha _
theorem State.home_bump (s : State) {a : Nat} (ha : offTree a) : (s.bump a).home = s.home := s.home_wr ha _
theorem State.home_wr64 (s : State) {a : Nat} (h0 : offTree a) (h4 : offTree (a + 4)) (v : Nat) : (s.wr64 a v).home = s.home :=
  ((s.wr _ _).home_wr h4 _).trans (s.home_wr h0 _)
theorem State.home_wr80 (s : State) {a : Nat} (h0 : offTree a) (h4 : offTree (a + 4)) (h8 : offTree (a + 8)) (v : Nat) :
    (s.wr80 a v).home = s.home :=
  (((s.wr _ _).wr _ _).home_wr h8 _).trans (((s.wr _ _).home_wr h4 _).trans (s.home_wr h0 _))

theorem State.home_foldl {α : Type} {f : State → α → State} {l : List α} (hf : ∀ a ∈ l, ∀ s : State, (f s a).home = s.home)
    (s : State) : (l.foldl f s).home = s.home := by
  induction l generalizing s with
  | nil => rfl
  | cons a r ih => exact (ih (fun c hc => hf c (List.mem_cons_of_mem a hc)) _).trans (hf a List.mem_cons_self s)

/-! ### The stops of edge, tone and flux pages -/

theorem State.home_edgeDisarm (s : State) (b ch x : Nat) : (s.edgeDisarm b ch x).home = s.home := by
  unfold State.edgeDisarm
  split
  · exact ((s.setEdge ..).home_setBit (offTree_block (bp_mod _ _) (by decide) (by decide)) _ _).trans rfl
  · rfl

theorem State.home_dropTrig (s : State) {lane a : Nat} (ha : offTree a) : (s.dropTrig lane a).home = s.home :=
  (State.home_flight _ _).trans (s.home_count ha _)

theorem State.home_edgeDisable (s : State) (b ch : Nat) : (s.edgeDisable b ch).home = s.home := by
  have hd : offTree (edgePg b ch + Off.EDGE_CH_DISCARD_COUNT (ch % 8)) := offTree_block (bp_mod _ _) (by decide) (by decide)
  have hs : offTree (chStat b ch) := offTree_block (bp_mod _ _) (by decide) (by decide)
  unfold State.edgeDisable State.edgeDisableFrom
  rw [State.home_wr _ hs, State.home_setEdge, State.home_edgeDisarm, State.home_setQueue, State.home_count _ hd,
    State.home_dropTrig _ hd]

theorem offTree_toneFlags (lane : Nat) : offTree (toneFlags lane) := by
  unfold toneFlags
  split <;> exact offTree_block (tonePg_mod lane) (by decide) (by decide)

theorem offTree_toneDiscard (lane : Nat) : offTree (toneDiscard lane) := by
  unfold toneDiscard
  split <;> exact offTree_block (tonePg_mod lane) (by decide) (by decide)

theorem State.home_toneFlag (s : State) (lane i : Nat) : (s.toneFlag lane i).home = s.home := by
  have hf := s.home_setBit (offTree_toneFlags lane) i true
  unfold State.toneFlag
  dsimp only
  split_ifs <;> simp [hf]

theorem State.home_toneTaperAt (s : State) (lane p a : Nat) : (s.toneTaperAt lane p a).home = s.home := by
  unfold State.toneTaperAt
  dsimp only
  split
  · rfl
  · split_ifs <;> simp [State.home_toneFlag]

theorem State.home_toneStop (s : State) (lane : Nat) : (s.toneStop lane).home = s.home := by
  unfold State.toneStop State.toneTaper
  rw [State.home_toneTaperAt, State.home_setQueue, State.home_count _ (offTree_toneDiscard lane)]

theorem State.home_toneDisable (s : State) (lane : Nat) : (s.toneDisable lane).home = s.home := by
  unfold State.toneDisable State.toneHold
  rw [State.home_setTone, State.home_dacHold, State.home_toneStop]

theorem State.home_clipFlag (s : State) (lane pt : Nat) : (s.clipFlag lane pt).home = s.home := by
  unfold State.clipFlag
  dsimp only
  split
  · rfl
  · rw [State.home_raiseAt, State.home_setBit _ (offTree_toneFlags lane)]

theorem State.home_putClips (s : State) (lane : Nat) (c : Clips) : (s.putClips lane c).home = s.home := by
  have hpeak : ∀ v, (if isFlux lane then s else s.wr (tonePg lane + Off.TONE_DAC_PEAK (toneDac lane)) v).home = s.home := by
    intro v
    split
    · rfl
    · exact s.home_wr (offTree_block (tonePg_mod lane) (by decide) (by decide)) v
  unfold State.putClips
  dsimp only
  split
  · exact hpeak _
  · rw [State.home_clipFlag, State.home_count, hpeak]
    split <;> exact offTree_block (tonePg_mod lane) (by decide) (by decide)

theorem State.home_dacSync (s : State) (lane x : Nat) : (s.dacSync lane x).home = s.home := by
  unfold State.dacSync
  dsimp only
  split_ifs
  · rfl
  · simp [State.home_putClips]
  · simp
  · split <;> simp [State.home_putClips]

theorem State.home_syncPage (s : State) (b p x : Nat) : (s.syncPage b p x).home = s.home :=
  State.home_foldl (fun l _ y => y.home_dacSync l x) s

/-! ### The stops of stream pages -/

theorem State.home_setSeq {s : State} {k : Nat} {z : SeqSt} (hp : z.phase = (s.seq k).phase) (ho : z.owed = (s.seq k).owed) :
    (s.setSeq k z).home = s.home := by
  have hq : ∀ j, ((s.setSeq k z).seq j).phase = (s.seq j).phase ∧ ((s.setSeq k z).seq j).owed = (s.seq j).owed := by
    intro j
    unfold State.seq State.setSeq
    rw [mapGet_mapSet]
    split
    · next h => subst h; exact ⟨hp, ho⟩
    · exact ⟨rfl, rfl⟩
  unfold State.home
  simp only [hq]
  rfl

theorem State.home_updShot (s : State) (o : Option Owner) (f : Shot → Shot) : (s.updShot o f).home = s.home := by
  unfold State.updShot
  cases o with
  | none => rfl
  | some w =>
    dsimp only
    split
    · exact State.home_setSeq rfl rfl
    · rfl

theorem State.home_flagShot (s : State) (o : Option Owner) (i : Nat) : (s.flagShot o i).home = s.home := s.home_updShot o _

theorem State.home_noteEff (s : State) (o : Option Owner) (e : Nat) : (s.noteEff o e).home = s.home := s.home_updShot o _

theorem offTree_laneDiscard {lane a : Nat} (h : laneDiscard lane = some a) : offTree a := by
  unfold laneDiscard at h
  dsimp only at h
  split_ifs at h <;> cases h
  · exact offTree_block (bp_mod _ _) (by decide) (by decide)
  · exact offTree_toneDiscard lane
  · exact offTree_reg (bp_mod _ _) (by decide)
  · exact offTree_block (bp_mod _ _) (by decide) (by decide)
  · exact offTree_reg (bp_mod _ _) (by decide)

theorem State.home_countDiscard (s : State) (lane n : Nat) : (s.countDiscard lane n).home = s.home := by
  unfold State.countDiscard
  split
  · rfl
  · next a h => exact s.home_count (offTree_laneDiscard h) n

theorem State.home_dropQueue (s : State) (lane : Nat) : (s.dropQueue lane).home = s.home := by
  unfold State.dropQueue
  dsimp only
  split
  · rw [State.home_foldl fun p _ y => y.home_flagShot p.owner 1, State.home_setQueue, State.home_countDiscard]
  · rw [State.home_setQueue, State.home_countDiscard]

/-- A register of one of the 16 streams of a page. -/
theorem offTree_stream {b c d n : Nat} (hn : n < 16) (hc : 0x80 ≤ c ∧ c < 0xC00) (hd : d ≤ 0x40) :
    offTree (segPg b + (c + d * n)) := by
  have hdn : d * n ≤ 0x40 * 15 := Nat.mul_le_mul hd (by omega)
  unfold offTree hierCtrl hierPg pkgp Off.HIER_HIER_CTRL segPg bp
  omega

theorem State.home_applyHeld (s : State) {b n : Nat} (hn : n < 16) (w : List Nat) : (s.applyHeld b n w).home = s.home := by
  unfold State.applyHeld
  dsimp only
  rw [State.home_wr _ (offTree_stream hn (by decide) (by decide)), State.home_wr _ (offTree_stream hn (by decide) (by decide)),
    State.home_wr _ (offTree_stream hn (by decide) (by decide)), State.home_wr _ (offTree_stream hn (by decide) (by decide)),
    State.home_wr _ (offTree_stream hn (by decide) (by decide))]

theorem State.home_strIdleAt (s : State) {b n : Nat} (hn : n < 16) (p : Nat) (early : Bool) : (s.strIdleAt b n p early).home = s.home := by
  have hrel : offTree (segPg b + Off.SEGMENT_STR_RING_REL n) := offTree_stream hn (by decide) (by decide)
  have hfill : offTree (segPg b + Off.SEGMENT_STR_FILL_COUNT n) := offTree_stream hn (by decide) (by decide)
  unfold State.strIdleAt
  dsimp only
  cases (s.stream b n).heldCfg <;> cases (s.stream b n).fill <;> split_ifs <;>
    simp [State.home_applyHeld _ hn, State.home_wr _ hrel, State.home_count _ hfill]

theorem State.home_noteAll (s : State) (b n p : Nat) : (s.noteAll b n p).home = s.home := by
  refine State.home_foldl (fun ch _ y => ?_) s
  dsimp only
  split
  · split <;> simp
  · rfl

theorem State.home_strStopAt (s : State) {b n : Nat} (hn : n < 16) (p : Nat) : (s.strStopAt b n p).home = s.home := by
  unfold State.strStopAt
  dsimp only
  split_ifs
  · rfl
  · unfold State.toneTaper
    rw [State.home_strIdleAt _ hn, State.home_toneTaperAt, State.home_dacSync]
  · rw [State.home_strIdleAt _ hn, State.home_noteAll]

theorem State.home_strCut (s : State) {b n : Nat} (hn : n < 16) : (s.strCut b n).home = s.home := by
  unfold State.strCut State.strEnd
  dsimp only
  split
  · rw [State.home_noteEff, State.home_strStopAt _ hn, State.home_flagShot]
  · rfl

/-! ### The stops of capture pages -/

theorem State.home_capFlag (s : State) (b i n : Nat) : (s.capFlag b i n).home = s.home := by
  have hf : offTree (capPg b i + Off.CAP_CAP_FLAGS) := offTree_at (bp_mod _ _) (by decide)
  unfold State.capFlag
  dsimp only
  split_ifs <;> simp [State.home_setBit _ hf]

theorem offTree_capDiscard (b i : Nat) : offTree (capPg b i + Off.CAP_DISCARD_COUNT) := offTree_at (bp_mod _ _) (by decide)

theorem State.home_capTrunc (s : State) (b i x : Nat) (p : Window → Bool) : (s.capTrunc b i x p).home = s.home := by
  unfold State.capTrunc
  dsimp only
  split_ifs <;> simp [State.home_capFlag, State.home_count _ (offTree_capDiscard b i)]

theorem State.home_capDisable (s : State) (b i : Nat) : (s.capDisable b i).home = s.home := by
  unfold State.capDisable State.contCut State.contCutAt
  rw [State.home_capTrunc, State.home_setCap, State.home_setCap, State.home_setQueue, State.home_count _ (offTree_capDiscard b i)]

theorem State.home_startWin (s : State) (b i f len mask store : Nat) (late counted injected : Bool) (peg : Nat)
    (owner : Option Owner) : (s.startWin b i f len mask store late counted injected peg owner).home = s.home := by
  have hl : offTree (capPg b i + Off.CAP_LATE_COUNT) := offTree_at (bp_mod _ _) (by decide)
  unfold State.startWin
  dsimp only
  rw [State.home_noteEff]
  split_ifs <;> simp [State.home_capFlag, State.home_bump _ hl]

theorem State.home_capSync (s : State) (b i : Nat) : (s.capSync b i).home = s.home := by
  unfold State.capSync
  dsimp only
  split
  · rfl
  · split
    · rw [State.home_startWin, State.home_capTrunc, State.home_setCap]
    · rfl

/-! ### The stops of stamp and frequency pages -/

theorem State.home_setByte (s : State) (a : Nat) (v : Byte) : (s.setByte a v).home = s.home := by
  unfold State.setByte
  split <;> rfl

theorem State.home_ringWrite (s : State) (base size wr : Nat) (l : List Byte) : (s.ringWrite base size wr l).home = s.home := by
  induction l generalizing s wr with
  | nil => rfl
  | cons v r ih => exact (ih _ _).trans (s.home_setByte _ v)

theorem State.home_hostPut (s : State) (b src : Nat) (l : List Byte) (poison : Bool) : (s.hostPut b src l poison).1.home = s.home := by
  have hdrop : ∀ e, offTree (evPg b + Off.EVENTS_DMA_DROP_COUNT e) := fun e => offTree_block (bp_mod _ _) (by decide) (by decide)
  have hlo : ∀ e, offTree (evPg b + Off.EVENTS_DMA_BYTES_LO e) := fun e => offTree_block (bp_mod _ _) (by decide) (by decide)
  have hhi : ∀ e, offTree (evPg b + Off.EVENTS_DMA_BYTES_LO e + 4) := fun e => by
    unfold offTree hierCtrl hierPg pkgp Off.HIER_HIER_CTRL evPg bp Off.EVENTS_DMA_BYTES_LO; omega
  unfold State.hostPut
  extract_lets e0 s0
  have h0 : s0.home = s.home := State.home_ev ..
  clear_value s0
  split
  · exact h0
  · split
    · exact h0
    · extract_lets d good
      split
      · rw [State.home_setDma, State.home_bump _ (hdrop _), h0]
      · dsimp only
        rw [State.home_setDma, State.home_wr64 _ (hlo _) (hhi _), State.home_ev, h0]

theorem State.home_recDrop (s : State) (b : Nat) : ((({ s with recGap := setPut s.recGap b true } : State).bump
    (stampPg b + Off.STAMP_REC_DROP_COUNT)).raise (stampPg b) 7).home = s.home := by
  rw [State.home_raise, State.home_bump _ (offTree_at (bp_mod _ _) (by decide)), State.home_recGap]

theorem State.home_writeRec (s : State) (b : Nat) (l : List Byte) : (s.writeRec b l).home = s.home := by
  have hwr : offTree (stampPg b + Off.STAMP_REC_WR) := offTree_at (bp_mod _ _) (by decide)
  unfold State.writeRec
  dsimp only
  split
  · split
    · exact s.home_recDrop b
    · rw [State.home_wr _ hwr, State.home_ringWrite]
  · split
    · split
      · exact s.home_hostPut b 5 l false
      · exact (State.home_recDrop _ b).trans (s.home_hostPut b 5 l false)
    · rfl

@[simp] theorem State.home_signQ (s : State) (q : List (Nat × List Byte)) : ({ s with signQ := q } : State).home = s.home := rfl

theorem State.home_makeRec (s : State) (b kind unit start tb : Nat) (owner : Option Owner) (sign : Bool) (payload : List Nat) :
    (s.makeRec b kind unit start tb owner sign payload).home = s.home := by
  have hseq : offTree (stampPg b + Off.STAMP_REC_SEQ) := offTree_at (bp_mod _ _) (by decide)
  have hskip : offTree (stampPg b + Off.STAMP_SIGN_SKIP_COUNT) := offTree_at (bp_mod _ _) (by decide)
  unfold State.makeRec
  extract_lets pg queue signed seq t s1
  have h1 : s1.home = s.home := (State.home_wr _ hseq _).trans (State.home_recGap ..)
  clear_value s1
  split
  · rfl
  · split
    extract_lets w1 hdr l
    split_ifs
    · exact (State.home_signQ ..).trans h1
    · rw [State.home_writeRec, State.home_latchHealth, State.home_bump _ hskip, h1]
    · rw [State.home_writeRec, h1]

theorem State.home_fit {s x : State} {ok : Bool} {w v n : Nat} (h : s.fit ok w v = (n, x)) : x.home = s.home := by
  unfold State.fit at h
  split at h <;> cases h <;> rfl

/-- A register of one of the four interval units. -/
theorem offTree_tiu {b u c : Nat} (hu : u < 4) (hc : 0x80 ≤ c ∧ c < 0x800) : offTree (stampPg b + (c + 0x80 * u)) :=
  offTree_at (bp_mod _ _) (by omega)


theorem State.home_tiuTake (s : State) (b : Nat) {u : Nat} (hu : u < 4) (start stop : Nat) :
    (s.tiuTake b u start stop).home = s.home := by
  have h {c : Nat} (hc : 0x80 ≤ c ∧ c < 0x800) : offTree (stampPg b + (c + 0x80 * u)) := offTree_tiu hu hc
  have h4 {c : Nat} (hc : 0x80 ≤ c ∧ c + 4 < 0x800) : offTree (stampPg b + (c + 0x80 * u) + 4) :=
    (by omega : stampPg b + ((c + 4) + 0x80 * u) = stampPg b + (c + 0x80 * u) + 4) ▸ offTree_tiu hu (by omega)
  have h8 {c : Nat} (hc : 0x80 ≤ c ∧ c + 8 < 0x800) : offTree (stampPg b + (c + 0x80 * u) + 8) :=
    (by omega : stampPg b + ((c + 8) + 0x80 * u) = stampPg b + (c + 0x80 * u) + 8) ▸ offTree_tiu hu (by omega)
  unfold State.tiuTake
  extract_lets x pg raw v c sum sq lo hi mean rms order near
  split; next w0 s0 e0 =>
  split; next w1 s1 e1 =>
  split; next w2 s2 e2 =>
  split; next w3 s3 e3 =>
  split; next w4 s4 e4 =>
  extract_lets st st' s5 s6 s7
  have h5 : s5.home = s.home := by
    rw [State.home_wr80 _ (h (by decide)) (h4 (by decide)) (h8 (by decide)), State.home_wr _ (h (by decide)),
      State.home_wr64 _ (h (by decide)) (h4 (by decide)), State.home_wr64 _ (h (by decide)) (h4 (by decide)),
      State.home_wr _ (h (by decide)), State.home_wr64 _ (h (by decide)) (h4 (by decide)),
      State.home_wr64 _ (h (by decide)) (h4 (by decide)), State.home_fit e4, State.home_fit e3, State.home_fit e2,
      State.home_fit e1, State.home_fit e0]
  have h6 : s6.home = s5.home := by
    unfold s6
    split
    · exact s5.home_bump (h (by decide))
    · rfl
  have h7 : s7.home = s6.home := by
    unfold s7
    split
    · exact s6.home_bump (h (by decide))
    · rfl
  exact (State.home_setTiu ..).trans (h7.trans (h6.trans h5))

theorem State.home_tiuComplete (s : State) (b : Nat) {u : Nat} (hu : u < 4) : (s.tiuComplete b u).home = s.home := by
  unfold State.tiuComplete
  split
  · split
    · exact s.home_tiuTake b hu ..
    · rfl
  · rfl

theorem State.home_setDrained (s : State) {pg : Nat} (hpg : pg % 0x1000 = 0) (on : Bool) : (s.setDrained pg on).home = s.home :=
  s.home_setBit (offTree_reg hpg (by decide)) 1 on

theorem State.home_tiuEnd (s0 : State) (b : Nat) {u : Nat} (hu : u < 4) (cut timeout : Bool) :
    (s0.tiuEnd b u cut timeout).home = s0.home := by
  have hstat : offTree (stampPg b + Off.STAMP_TIU_STAT u) := offTree_tiu hu (by decide)
  unfold State.tiuEnd
  extract_lets s trunc x pg a st s1 s2 s3 s4 c rd64
  have h0 : s.home = s0.home := by
    unfold s
    split
    · exact s0.home_tiuComplete b hu
    · rfl
  have h1 : s1.home = s.home := (State.home_setTiu ..).trans (s.home_wr hstat _)
  have h3 : s3.home = s1.home := by
    unfold s3
    split <;> simp [s2]
  have h4 : s4.home = s3.home := by
    unfold s4
    split
    · exact s3.home_setDrained (bp_mod _ _) true
    · rfl
  have h : s4.home = s0.home := h4.trans (h3.trans (h1.trans h0))
  clear_value s4
  split
  · exact h0
  · split
    · exact (State.home_makeRec ..).trans h
    · exact h

theorem offTree_freStat (b e : Nat) : offTree (freqPg b + Off.FREQ_FRE_STAT e) := offTree_block (bp_mod _ _) (by decide) (by decide)

theorem State.home_gateOpen (s : State) (b e g : Nat) (owner : Option Owner) (late : Bool) :
    (s.gateOpen b e g owner late).home = s.home := by
  unfold State.gateOpen
  dsimp only
  rw [State.home_setFre, State.home_wr _ (offTree_freStat b e)]
  split <;> simp

theorem State.home_gateClose (s : State) (b e x : Nat) (trunc : Bool) : (s.gateClose b e x trunc).home = s.home := by
  unfold State.gateClose
  dsimp only
  split
  · rfl
  · split_ifs
    · rw [State.home_gateOpen, State.home_setBit _ (offTree_freStat b e), State.home_setFre]
    · rw [State.home_setDrained _ (bp_mod _ _), State.home_setBit _ (offTree_freStat b e), State.home_setFre]
    · rw [State.home_setBit _ (offTree_freStat b e), State.home_setFre]

/-! ### The stops of ports and sequencers, and the fence -/

theorem State.worker_of_home {s x : State} (h : x.home = s.home) : x.worker = s.worker := by
  have hr : x.reg hierCtrl = s.reg hierCtrl := congrArg (·.2.2.1) h
  unfold State.worker State.bit State.rd
  rw [hr]

theorem State.home_portHealth (s : State) (b k : Nat) (down : Bool) : (s.portHealth b k down).home = s.home := by
  unfold State.portHealth
  rw [State.home_standing]

theorem State.home_portDown {s : State} (hw : s.worker = false) (b k : Nat) : (s.portDown b k false).home = s.home := by
  have hstat : offTree (portStat b k) := offTree_block (bp_mod _ _) (by decide) (by decide)
  unfold State.portDown
  extract_lets a was w z s1 s2 s3
  have h1 : s1.home = s.home := by
    unfold s1
    rw [State.home_setPort, State.home_wr _ hstat]
  clear_value s1
  have h2 : s2.home = s1.home := by
    unfold s2
    split <;> simp
  clear_value s2
  have h3 : s3.home = s.home := by
    unfold s3
    rw [State.home_portHealth, h2, h1]
  clear_value s3
  have hw3 : s3.worker = false := (State.worker_of_home h3).trans hw
  rw [if_neg (by simp [hw3])]
  exact h3

theorem State.variant_of_home {s x : State} (h : x.home = s.home) : x.variant = s.variant := congrArg (·.2.1) h

theorem State.tree_of_home {s x : State} (h : x.home = s.home) : x.tree = s.tree := congrArg (·.1) h

/-- Sequencer `k` has halted, and nothing is owed. -/
def State.atRest (s : State) (k : Nat) : Prop := (s.seq k).phase = .halted ∧ (s.seq k).owed = []

theorem State.atRest_of_home {s x : State} (h : x.home = s.home) {k : Nat} (hk : s.atRest k) : x.atRest k := by
  have hq : ((x.seq k).phase, (x.seq k).owed) = ((s.seq k).phase, (s.seq k).owed) := congrFun (congrArg (·.2.2.2) h) k
  obtain ⟨hp, ho⟩ := Prod.mk.inj hq
  exact ⟨hp.trans hk.1, ho.trans hk.2⟩

theorem State.seqStop_atRest {s : State} {k : Nat} (hk : s.atRest k) : s.seqStop k = s := by
  unfold State.seqStop
  exact if_pos (by simp [hk.1, hk.2])

theorem State.home_pageStop {s : State} (hw : s.worker = false) (b : Nat) {p : Nat} (hp : p < 0x30)
    (hq : ∀ q, q < 16 → s.atRest (b * 16 + q)) : (s.pageStop b p).home = s.home := by
  unfold State.pageStop State.each
  split_ifs with h1 h2 h3 h4 h5 h6 h7 h8
  · refine State.home_foldl (fun ch _ x => ?_) s
    split
    · exact x.home_edgeDisable b ch
    · rfl
  · refine State.home_foldl (fun l _ x => ?_) s
    split
    · exact x.home_toneDisable l
    · exact x.home_toneStop l
  · exact State.home_foldl (fun n hn x => (State.home_strCut _ (List.mem_range.mp hn)).trans (x.home_dropQueue _)) s
  · exact (State.home_capDisable ..).trans (s.home_capSync b _)
  · exact State.home_foldl (fun u hu x => (State.home_tiuEnd _ b (List.mem_range.mp hu) true false).trans (x.home_dropQueue _)) s
  · exact State.home_foldl (fun e _ x => (State.home_gateClose ..).trans (x.home_dropQueue _)) s
  · have h0 := s.home_portDown hw b 0
    exact (State.home_portDown ((State.worker_of_home h0).trans hw) b 1).trans h0
  · rw [State.seqStop_atRest (hq _ (by omega))]
  · rfl

theorem State.home_pageFence {s : State} (hw : s.worker = false) (b : Nat) {p : Nat} (hp : p < 0x30)
    (hq : ∀ q, q < 16 → s.atRest (b * 16 + q)) : (s.pageFence b p).home = s.home := by
  have hsync := s.home_syncPage b p s.now
  have hctrl : offTree (bp b p + Off.PG_PAGE_CTRL) := offTree_reg (bp_mod _ _) (by decide)
  unfold State.pageFence
  extract_lets a off s1
  have h1 : s1.home = s.home := by
    unfold s1
    split
    · exact hsync
    · exact (State.home_pageStop ((State.worker_of_home hsync).trans hw) b hp fun q hlt =>
        State.atRest_of_home hsync (hq q hlt)).trans hsync
  split
  · rfl
  · rw [State.home_raise, State.home_setBit _ hctrl, h1]

theorem fencePages_lt {p : Nat} (h : p ∈ fencePages) : p < 0x30 := List.mem_range.mp (List.mem_filter.mp h).1

/-- Every page of a bent that can be fenced is fenced (step 2 of R304). -/
def State.pagesFenced (s : State) (b : Nat) : State := s.each fencePages fun s p => s.pageFence b p

theorem State.home_pagesFenced {s : State} (hw : s.worker = false) (b : Nat) (hq : ∀ q, q < 16 → s.atRest (b * 16 + q)) :
    (s.pagesFenced b).home = s.home := by
  have hstep : ∀ l : List Nat, (∀ p ∈ l, p ∈ fencePages) → ∀ x : State, x.home = s.home →
      (l.foldl (fun s p => s.pageFence b p) x).home = s.home := by
    intro l
    induction l with
    | nil => exact fun _ x hx => hx
    | cons p l ih =>
      intro hl x hx
      refine ih (fun c hc => hl c (List.mem_cons_of_mem p hc)) _ ?_
      exact (State.home_pageFence ((State.worker_of_home hx).trans hw) b (fencePages_lt (hl p List.mem_cons_self))
        fun q hlt => State.atRest_of_home hx (hq q hlt)).trans hx
  exact hstep fencePages (fun _ hp => hp) s rfl

/-! ### Candidates and READY (R335, R409) -/

/-- TREE's record that a candidate has been seen. -/
def State.setSeen (s : State) (on : Bool) : State := { s with tree := { s.tree with seen := on } }

theorem State.works.tree {s x : State} {l : List Nat} (h : s.works x l) : x.tree = s.tree := by
  have he : x.sansSills.tree = s.sansSills.tree := congrArg State.tree h.1
  exact he

theorem State.works_setSeen {s x : State} {l : List Nat} (h : s.works x l) (on : Bool) : (s.setSeen on).works (x.setSeen on) l :=
  ⟨congrArg (State.setSeen · on) h.1, h.2⟩

/-- One bent's candidacy follows what makes it one. -/
def State.candStep (seen : Bool) (s : State) (b : Nat) : State :=
  let a := hierPg + Off.HIER_CAND
  let s1 := s.setBit a (16 + b) seen
  let on := s.bit a (8 + b) && seen && !s.bentFenced b
  if on == s.candidate b then s1
  else
    let s2 := ((s1.setBit a b on).setBit (bp b 0 + Off.BENT_BENT_ROLE) 1 on).raise (bp b 0) 0
    (s2.setSeen (s2.tree.seen || on)).raise hierPg 1

theorem State.candUpdate_eq (s : State) : s.candUpdate =
    (List.range s.noSourceBefore.variant.bents).foldl (State.candStep s.noSourceBefore.seesTimebase) s.noSourceBefore := rfl

/-- The offsets of the registers that show a candidacy. -/
def candOffs : List Nat := [Off.HIER_CAND, Off.BENT_BENT_ROLE]

theorem State.works_candStep (seen : Bool) (s : State) (b : Nat) : ∃ on, (s.setSeen on).works (s.candStep seen b) candOffs := by
  have h1 := State.works_setBit (.refl s candOffs) (a := hierPg + Off.HIER_CAND) (mem_pkgp (by decide)) (16 + b) seen
  unfold State.candStep
  dsimp only
  split
  · exact ⟨s.tree.seen, h1⟩
  · exact ⟨_, State.works_raise (State.works_setSeen (State.works_raise (State.works_setBit (State.works_setBit h1
      (mem_pkgp (by decide)) _ _) (mem_bp (by decide)) _ _) _ _) _) _ _⟩

theorem State.works_noSourceBefore (s : State) (l : List Nat) : s.works s.noSourceBefore l := by
  unfold State.noSourceBefore
  split
  · exact State.works_noSourceIs (.refl s l) _
  · exact .refl s l

/-- Candidacies reach their registers, events, and whether one has been seen. -/
theorem State.works_candUpdate (s : State) : ∃ on, (s.setSeen on).works s.candUpdate candOffs := by
  have hfold : ∀ (seen : Bool) (l : List Nat) (x : State), (∃ on, (s.setSeen on).works x candOffs) →
      ∃ on, (s.setSeen on).works (l.foldl (State.candStep seen) x) candOffs := by
    intro seen l
    induction l with
    | nil => exact fun x hx => hx
    | cons b l ih =>
      rintro x ⟨on, hx⟩
      obtain ⟨on', hstep⟩ := x.works_candStep seen b
      exact ih _ ⟨on', (State.works_setSeen hx on').trans hstep⟩
  rw [State.candUpdate_eq]
  exact hfold _ _ _ ⟨s.tree.seen, s.works_noSourceBefore candOffs⟩

/-- A register of a bent's page past the sixth is none of candidacy's. -/
theorem State.candUpdate_reg (s : State) {a : Nat} (ha : 0x6000 ≤ a % 0x400000) : s.candUpdate.reg a = s.reg a := by
  have hstep : ∀ (seen : Bool) (x : State) (b : Nat), (x.candStep seen b).reg a = x.reg a := by
    intro seen x b
    have hcand : a ≠ hierPg + Off.HIER_CAND := by unfold hierPg pkgp Off.HIER_CAND; omega
    have hrole : a ≠ bp b 0 + Off.BENT_BENT_ROLE := by unfold bp Off.BENT_BENT_ROLE; omega
    unfold State.candStep
    dsimp only
    split
    · exact State.reg_setBit_ne _ _ _ hcand
    · rw [State.reg_raise]
      refine (State.reg_raise _ _ _ _).trans ?_
      rw [State.reg_setBit_ne _ _ _ hrole, State.reg_setBit_ne _ _ _ hcand, State.reg_setBit_ne _ _ _ hcand]
  rw [State.candUpdate_eq]
  exact (foldl_frame (·.reg a) _ (fun x b => hstep _ x b) _ _).trans ((s.works_noSourceBefore []).2.1 a (by simp))

theorem State.works_readyUpdate (s : State) : s.works s.readyUpdate [Off.PKG_PKG_STAT] := by
  unfold State.readyUpdate
  extract_lets a bs on s1
  have h1 : s.works s1 [Off.PKG_PKG_STAT] := State.works_setBit (.refl s _) (mem_pkgp (by decide)) _ _
  split
  · exact .refl s _
  · split
    · exact State.works_raise h1 _ _
    · exact h1

theorem State.readyUpdate_reg (s : State) {a : Nat} (ha : 0x6000 ≤ a % 0x400000) : s.readyUpdate.reg a = s.reg a := by
  have hstat : a ≠ pkgp 0 + Off.PKG_PKG_STAT := by unfold pkgp Off.PKG_PKG_STAT; omega
  unfold State.readyUpdate
  dsimp only
  split
  · rfl
  · split
    · rw [State.reg_raise, State.reg_setBit_ne _ _ _ hstat]
    · exact State.reg_setBit_ne _ _ _ hstat

/-! ### The fence of a bent (R304) -/

/-- The fenced bent shows it; the tree's migration, and the variant, are as they were. -/
theorem State.fenceBent_shows {s : State} {b : Nat} (hw : s.worker = false)
    (hq : ∀ q, q < 16 → s.atRest (b * 16 + q)) :
    (s.fenceBent b).bentFenced b = true ∧ (s.fenceBent b).variant = s.variant ∧ (s.fenceBent b).tree.mig = s.tree.mig := by
  have hpages := s.home_pagesFenced hw b hq
  have htree := State.tree_of_home hpages
  have hvar := State.variant_of_home hpages
  have hoff : 0x6000 ≤ (bp b 0x18 + Off.CONTINUITY_CONT_STAT) % 0x400000 := by unfold bp Off.CONTINUITY_CONT_STAT; omega
  cases hf : s.bentFenced b with
  | true =>
    rw [State.fenceBent, if_pos hf]
    exact ⟨hf, rfl, rfl⟩
  | false =>
    rw [State.fenceBent, if_neg (by simp [hf])]
    change (State.readyUpdate (State.candUpdate (((s.pagesFenced b).setBit _ 0 true).raise _ _))).bentFenced b = true ∧
      (State.readyUpdate (State.candUpdate (((s.pagesFenced b).setBit _ 0 true).raise _ _))).variant = s.variant ∧
      (State.readyUpdate (State.candUpdate (((s.pagesFenced b).setBit _ 0 true).raise _ _))).tree.mig = s.tree.mig
    generalize hx : ((s.pagesFenced b).setBit (bp b 0x18 + Off.CONTINUITY_CONT_STAT) 0 true).raise (pkgp 0) 1 = x
    have hshown : x.bentFenced b = true := by
      rw [← hx, State.bentFenced, State.bit_raise, State.bit_setBit_same _ _ _ _ (by decide)]
    have hxv : x.variant = s.variant := by rw [← hx]; simpa using hvar
    have hxt : x.tree = s.tree := by rw [← hx]; simpa using htree
    obtain ⟨on, hcand⟩ := x.works_candUpdate
    have hready := x.candUpdate.works_readyUpdate
    refine ⟨?_, hready.variant.trans (hcand.variant.trans hxv), ?_⟩
    · rw [State.bentFenced, State.bit_of_reg ((State.readyUpdate_reg _ hoff).trans (x.candUpdate_reg hoff))]
      exact hshown
    · rw [hready.tree, hcand.tree, ← hxt]
      rfl

/-! ### What a coast leaves (R76, R77) -/

theorem offTree_sill {b k o : Nat} (ho : o % 0x1000 ≠ 0x40) : offTree (sillPg b k + o) := offTree_at (bp_mod _ _) ho

@[simp] theorem State.home_setSill (s : State) (b k : Nat) (z : Sill) : (s.setSill b k z).home = s.home := rfl

theorem State.home_unlock (s : State) (b k : Nat) (relock : Bool) : (s.unlock b k relock).home = s.home := by
  have hstat : offTree (sillStat b k) := offTree_sill (by decide)
  have hpur : offTree (pkgp 2 + Off.PURLIN_PURLIN_STAT) := by unfold offTree; decide
  unfold State.unlock
  dsimp only
  split_ifs <;> simp [State.home_setBit _ hstat, State.home_setBit _ hpur]

theorem offTree_sill_add {b k o c : Nat} (h : (o + c) % 0x1000 ≠ 0x40) : offTree (sillPg b k + o + c) := by
  rw [Nat.add_assoc]
  exact offTree_sill h

theorem State.home_coastMark (s : State) (b k cause last : Nat) : (s.coastMark b k cause last).home = s.home := by
  unfold State.coastMark
  rw [State.home_wr _ (offTree_sill (by decide)),
    State.home_wr80 _ (offTree_sill (by decide)) (offTree_sill_add (by decide)) (offTree_sill_add (by decide)),
    State.home_wr _ (offTree_sill (by decide))]

theorem State.home_coastFreeze (s : State) (b k : Nat) : (s.coastFreeze b k).home = s.home := by
  unfold State.coastFreeze State.freezeWord
  dsimp only
  rw [State.home_raise]
  split
  · simp [State.home_bump _ (offTree_sill (by decide) : offTree (sillPg b k + Off.SILL_COAST_COUNT))]
  · rw [State.home_wr _ (offTree_sill (by decide)), State.home_setSill, State.home_setSill, State.home_bump _ (offTree_sill (by decide))]

theorem State.home_coastRidge (s : State) (on : Bool) : (s.coastRidge on).home = s.home := by
  have hsrc : offTree srcStat := by unfold offTree; decide
  unfold State.coastRidge State.ridgeCoast
  split
  · rw [State.home_foldl fun c _ x => by
      rw [State.home_setBit _ (offTree_sill (by decide)), State.home_setBit _ (offTree_sill (by decide))], State.home_setBit _ hsrc]
  · rfl

theorem State.home_coastPurlin (s : State) (b : Nat) (on : Bool) : (s.coastPurlin b on).home = s.home := by
  have hpur : offTree (pkgp 2 + Off.PURLIN_PURLIN_STAT) := by unfold offTree; decide
  have hloss : offTree (pkgp 2 + Off.PURLIN_LOSS_COUNT) := by unfold offTree; decide
  unfold State.coastPurlin
  split
  · rw [State.home_raise, State.home_setBit _ hpur, State.home_bump _ hloss]
  · rfl

theorem State.home_coastCaps (s : State) (b x : Nat) : (s.coastCaps b x).home = s.home :=
  State.home_foldl (fun _ _ _ => State.home_setCap ..) s

theorem State.home_coastShots (s : State) (b x : Nat) : (s.coastShots b x).home = s.home := by
  refine State.home_foldl (fun q _ y => ?_) s
  dsimp only
  split
  · exact State.home_setSeq rfl rfl
  · rfl

theorem State.home_coastStart (s : State) (b cause last : Nat) : (s.coastStart b cause last).home = s.home := by
  cases h : s.bit (sillStat b (s.activeSill b)) 3 with
  | true => rw [State.coastStart_coasting h]
  | false =>
    rw [State.coastStart_eq h, State.coastSpread, State.coastFlags, State.home_foldl fun c _ x => x.home_coastCaps c last,
      State.home_coastPurlin, State.home_coastRidge, State.home_coastFreeze, State.home_coastMark]

end Sys2Proof.Machine
end

section
/-!
PROOFS. The ridge's role (R335–R344): its election, its migration and heartbeat, and the purlin's skew and markers.
-/

namespace Sys2Proof.Machine

/-! ### The election (R335) -/

/-- Acquisition starts reach the sills' pages, and the sills. -/
def State.onlySills (s x : State) : Prop := (∃ r z, x = { s with regs := r, sills := z }) ∧
  s.samePages x ((List.range 8).flatMap fun b => [sillPg b 0, sillPg b 1])

theorem State.onlySills.refl (s : State) : s.onlySills s := ⟨⟨s.regs, s.sills, rfl⟩, fun _ _ => rfl⟩

theorem State.onlySills.trans {s x y : State} (h : s.onlySills x) (k : x.onlySills y) : s.onlySills y := by
  obtain ⟨⟨_, _, rfl⟩, hp⟩ := h
  obtain ⟨⟨r, z, rfl⟩, kp⟩ := k
  exact ⟨⟨r, z, rfl⟩, fun a ha => (kp a ha).trans (hp a ha)⟩

theorem State.onlySills_acqStart (s : State) {b k : Nat} (hb : b < 8) (hk : k < 2) : s.onlySills (s.acqStart b k) := by
  refine ⟨⟨_, _, rfl⟩, fun a ha => ?_⟩
  have hne : ∀ o, o < 0x1000 → a ≠ sillPg b k + o := by
    rintro o ho rfl
    refine ha (List.mem_flatMap.mpr ⟨b, List.mem_range.mpr hb, ?_⟩)
    rw [pageOf_add (bp_mod _ _) ho]
    obtain rfl | rfl : k = 0 ∨ k = 1 := by omega
    · exact List.mem_cons_self
    · exact List.mem_cons_of_mem _ List.mem_cons_self
  have hstat : a ≠ sillStat b k := hne _ (by decide)
  have hword : a ≠ sillPg b k + Off.SILL_DCO_WORD := hne _ (by decide)
  unfold State.acqStart
  dsimp only
  rw [State.reg_setSill, State.setFld, State.reg_wr_ne _ _ hstat, State.reg_wr_ne _ _ hword]

/-- A fold each of whose steps keeps a relation keeps it. -/
theorem foldl_rel {α : Type} {R : State → State → Prop} (refl : ∀ s, R s s) (trans : ∀ {s x y}, R s x → R x y → R s y)
    {f : State → α → State} {l : List α} (hf : ∀ a ∈ l, ∀ s, R s (f s a)) (s : State) : R s (l.foldl f s) := by
  induction l generalizing s with
  | nil => exact refl s
  | cons a l ih => exact trans (hf a List.mem_cons_self s) (ih (fun c hc => hf c (List.mem_cons_of_mem a hc)) _)

theorem State.onlySills_acquire (s : State) : s.onlySills s.acquire := by
  refine foldl_rel .refl .trans (fun b hb x => foldl_rel .refl .trans (fun k hk y => ?_) x) s
  split
  · have hbents : s.variant.bents ≤ 8 := by cases s.variant <;> decide
    exact y.onlySills_acqStart (Nat.lt_of_lt_of_le (List.mem_range.mp hb) hbents) (by
      simp only [List.mem_cons, List.not_mem_nil, or_false] at hk
      omega)
  · exact .refl y

/-- The package with its ridge elected, before the ridge's sills start to acquire. -/
def State.elects (u : State) (c : Nat) : State :=
  { u with ridge := c, ptGen := (u.ptGen + 1) % 2 ^ 32, tree := { u.tree with elected := true } }

theorem State.elects_boot {u : State} (h : u.boot.preloads = []) (c : Nat) :
    ({ u.elects c with boot := { (u.elects c).boot with preloads := [] } } : State) = u.elects c := by
  have hb : { u.boot with preloads := [] } = u.boot := by rw [← h]
  exact congrArg (fun x => { u.elects c with boot := x }) hb

/-- The ridge as a command puts it. -/
def State.setRidge (u : State) (c : Nat) : State := { u with ridge := c }

/-- The outcome of an election, of which the sills have started to acquire. -/
theorem State.onlySills.elected {u x : State} {c : Nat} (h : (u.elects c).onlySills x) (pg i : Nat) :
    (u.setRidge c).keepMem (x.raise pg i).settle = { u with
      ridge := c, ptGen := (u.ptGen + 1) % 2 ^ 32, tree := { u.tree with elected := true },
      ev := (x.raise pg i).settle.ev, regs := x.regs, sills := x.sills } := by
  obtain ⟨⟨r, z, rfl⟩, _⟩ := h
  obtain ⟨e, he⟩ := State.raiseAt_ev { u.elects c with regs := r, sills := z } pg i u.now 0 false
  have hr : ({ u.elects c with regs := r, sills := z } : State).raise pg i =
    { u.elects c with regs := r, sills := z, ev := e } := he
  rw [State.keepMem_settle, hr]
  rfl

@[simp] theorem State.raised_keepMem_settle (u x : State) (pg i : Nat) : (u.keepMem x.settle).raised pg i = x.raised pg i := by
  simp [State.raised]

/-- What a command that puts the ridge leaves. -/
theorem runRidge_next {s x : State} {t : PT} {r : State → Nat} {f : State → State} {P : State → Prop} {c : Nat}
    (hr : r (s.arrive t) = c) (hf : f (s.arrive t) = x)
    (h : P (((s.arrive t).setRidge c).keepMem x.settle)) :
    ∃ s', runRidge t s State.clk r f = .next s' ∧ P s' := by
  subst hr
  subst hf
  exact ⟨_, rfl, h⟩

/-- The lowest candidate becomes the ridge, and its sills start to acquire (R335). -/
theorem ridge_elected {s u : State} {t : PT} (hu : u = s.arrive t) {c : Nat} (hno : u.tree.elected = false)
    (hc : u.firstCandidate = some c) (hpre : u.boot.preloads = []) : ∃ s', exec (.election t) s = .next s' ∧
      s'.ridge = c ∧ s'.tree = { u.tree with elected := true } ∧ s'.ptGen = (u.ptGen + 1) % 2 ^ 32 ∧
      s'.raised (bp c 0) 0 = true ∧ u.samePages s' ((List.range 8).flatMap fun b => [sillPg b 0, sillPg b 1]) ∧
      s' = { u with
        ridge := s'.ridge, ptGen := s'.ptGen, tree := s'.tree, ev := s'.ev, regs := s'.regs, sills := s'.sills } := by
  have hridge : u.electedRidge = c := by rw [State.electedRidge, if_neg (by rw [hno]; decide), hc]; rfl
  subst hu
  rw [exec_election]
  refine runRidge_next (x := (((s.arrive t).elects c).acquire).raise (bp c 0) 0) hridge ?_ ?_
  · generalize s.arrive t = u at *
    dsimp only
    rw [hc]
    dsimp only
    rw [if_neg (by rw [hno]; decide), hpre, List.filter_nil, List.foldl_nil]
    exact congrArg (fun y : State => (y.acquire).raise (bp c 0) 0) (State.elects_boot hpre c)
  · generalize s.arrive t = u at *
    have hacq := (u.elects c).onlySills_acquire
    have hvar : ((u.elects c).acquire.raise (bp c 0) 0).variant = u.variant := by
      obtain ⟨⟨_, _, h⟩, _⟩ := hacq
      rw [State.raise_variant, h]
      rfl
    have hout := hacq.elected (bp c 0) 0
    refine ⟨rfl, ?_, ?_, ?_, fun a ha => ?_, ?_⟩
    · rw [hout]
    · rw [hout]
    · rw [State.raised_keepMem_settle, State.raised_raise_same]
    · exact (State.reg_keepMem_settle (u := u.setRidge c) hvar a).trans ((State.reg_raise _ _ _ _).trans (hacq.2 a ha))
    · rw [hout]

/-- A second election changes nothing (R335). -/
theorem ridge_stays {s u : State} {t : PT} (hu : u = s.arrive t) (h : u.tree.elected = true) :
    ∃ s', exec (.election t) s = .next s' ∧ s' = { u with ev := s'.ev } := by
  have hridge : u.electedRidge = u.ridge := if_pos h
  subst hu
  rw [exec_election]
  refine runRidge_next (x := s.arrive t) hridge ?_ ?_
  · generalize s.arrive t = u at *
    dsimp only
    split
    · rfl
    · exact if_pos h
  · rw [State.keepMem_settle]
    rfl

/-! ### Migration and heartbeat (R338–R340, R344) -/

/-- MIGRATE of a bent that is no candidate is refused (R335, R338). -/
theorem migrate_refused {s u : State} {t : PT} (hu : u = s.arrive t) {c : Nat} (ht : c = u.fld (hierPg + Off.HIER_MIG_TARGET) 0 3)
    (hlock : u.locked hierPg = false) (hc : u.candidate c = false) : ∃ s', exec (.migrate t) s = .next s' ∧
      s'.isLatched hierPg 0xF1 = true ∧ s' = { u with ev := s'.ev } := by
  subst hu
  subst ht
  rw [exec_migrate]
  refine runAt_next (x := (s.arrive t).latchHealth hierPg 0xF1) ?_ ⟨?_, ?_⟩
  · rw [State.command_unlocked hlock]
    exact if_pos (by rw [hc]; rfl)
  · rw [State.isLatched_keep_settle, State.isLatched_latchHealth_same]
  · exact (State.onlyRegs_latchHealth _ _ _).keep_ev rfl

/-- The outcome of a command that changes the tree only. -/
theorem State.keep_tree_only (u : State) (x : Tree) : u.keep ({ u with tree := x } : State).settle =
    { u with tree := x, ev := ({ u with tree := x } : State).settle.ev } := by
  rw [State.keep_settle]

/-- MIGRATE of a candidate starts a planned migration (R338). -/
theorem migrate_starts {s u : State} {t : PT} (hu : u = s.arrive t) {c : Nat} (ht : c = u.fld (hierPg + Off.HIER_MIG_TARGET) 0 3)
    (hlock : u.locked hierPg = false) (hc : u.candidate c = true) (hne : c ≠ u.ridge) (hm : u.tree.mig = none)
    (he : u.tree.elected = true) : ∃ s', exec (.migrate t) s = .next s' ∧
      s'.tree = { u.tree with mig := some { target := c, loss := false, fence := false, since := u.now } } ∧
      s' = { u with tree := s'.tree, ev := s'.ev } := by
  subst hu
  rw [exec_migrate]
  refine runAt_next (x := (s.arrive t).migStart c false false) ?_ ?_
  · rw [State.command_unlocked hlock]
    generalize s.arrive t = u at *
    dsimp only
    rw [← ht, if_neg (by rw [hc]; decide), if_neg (by simp [hne, hm, he])]
  · rw [State.migStart, if_neg (by decide)]
    exact ⟨by rw [State.keep_tree_only], by rw [State.keep_tree_only]⟩

/-- A heartbeat is taken (R338). -/
theorem heartbeat_taken {s u : State} {t : PT} (hu : u = s.arrive t) : ∃ s', exec (.heartbeat t false) s = .next s' ∧
    s'.tree = { u.tree with lastHb := u.now } ∧ s' = { u with tree := s'.tree, ev := s'.ev } := by
  subst hu
  rw [exec_heartbeat]
  exact runAt_next rfl ⟨by rw [if_neg (by decide), State.keep_tree_only], by rw [if_neg (by decide), State.keep_tree_only]⟩

/-- A heartbeat with a parity fault is counted and ignored (R344). -/
theorem heartbeat_parity {s u : State} {t : PT} (hu : u = s.arrive t) : ∃ s', exec (.heartbeat t true) s = .next s' ∧
    s'.rd (hierPg + Off.HIER_FABRIC_PARITY_COUNT) = satAdd (u.rd (hierPg + Off.HIER_FABRIC_PARITY_COUNT)) 1 ∧
    s'.raised hierPg 5 = true ∧ u.sameRegs s' [hierPg + Off.HIER_FABRIC_PARITY_COUNT] ∧
    s' = { u with regs := s'.regs, ev := s'.ev } := by
  subst hu
  rw [exec_heartbeat]
  refine runAt_next (x := (s.arrive t).fabricParity) (if_pos rfl) ?_
  generalize s.arrive t = u
  have hvar : u.fabricParity.variant = u.variant := by simp [State.fabricParity]
  have honly : u.onlyRegs u.fabricParity := (u.onlyRegs_bump _).trans (State.onlyRegs_raiseAt _ _ _ _ _ _)
  refine ⟨?_, ?_, fun a ha => ?_, honly.keep⟩
  · rw [State.rd_of_reg (State.reg_keep_settle hvar _), State.fabricParity, State.rd_raise, State.rd_bump_same]
  · rw [State.raised_keep_settle, State.fabricParity, State.raised_raise_same]
  · rw [State.reg_keep_settle hvar, State.fabricParity, State.reg_raise]
    exact State.reg_bump_ne _ (by simpa using ha)

/-- A heartbeat that is not lost for 10 µs yet leaves all as it was (R338). -/
theorem heartbeat_early {s u : State} {t : PT} (hu : u = s.arrive t) (h : u.now < u.tree.lastHb + 10 * usK) :
    ∃ s', exec (.heartbeatLoss t) s = .next s' ∧ s' = { u with ev := s'.ev } := by
  subst hu
  rw [exec_heartbeatLoss]
  refine runMem_next (x := s.arrive t) ?_ ?_
  · exact if_pos (by rw [decide_eq_true h, Bool.or_true])
  · rw [State.keepMem_settle]

/-- RESKEW asks for a skew measurement (R339). -/
theorem reskew_asks {s u : State} {t : PT} (hu : u = s.arrive t) (hlock : u.locked purlinPg = false) (hs : u.tree.skew = 0) :
    ∃ s', exec (.reskew t) s = .next s' ∧ s'.tree = { u.tree with skew := 1 } ∧ s' = { u with tree := s'.tree, ev := s'.ev } := by
  subst hu
  rw [exec_reskew]
  refine runAt_next (x := { s.arrive t with tree := { (s.arrive t).tree with skew := 1 } }) ?_ ?_
  · rw [State.command_unlocked hlock]
    exact if_pos hs
  · exact ⟨by rw [State.keep_tree_only], by rw [State.keep_tree_only]⟩

/-! ### Standing faults through events (R371, R379) -/

/-- The categories of FAULT_N stand as they were, and what was latched stays latched. -/
def State.keepsFaults (s x : State) : Prop :=
  x.ev.cats = s.ev.cats ∧ ∀ pg c, s.isLatched pg c = true → x.isLatched pg c = true

theorem State.keepsFaults.refl (s : State) : s.keepsFaults s := ⟨rfl, fun _ _ h => h⟩

theorem State.keepsFaults.trans {s x y : State} (h : s.keepsFaults x) (k : x.keepsFaults y) : s.keepsFaults y :=
  ⟨k.1.trans h.1, fun pg c hl => k.2 pg c (h.2 pg c hl)⟩

theorem State.keepsFaults_of {s x : State} (hc : x.ev.cats = s.ev.cats) (hl : x.ev.latched = s.ev.latched) : s.keepsFaults x :=
  ⟨hc, fun pg c h => by rw [State.isLatched, hl]; exact h⟩

theorem State.keepsFaults_fire (s : State) (v : Nat) : s.keepsFaults (s.fire v) := by
  obtain ⟨_, _, _, _, h⟩ := s.ev.fire_only v s.now (s.holdK v)
  exact State.keepsFaults_of (by rw [State.fire, h]) (by rw [State.fire, h])

theorem State.keepsFaults_latchHealth (s : State) (pg c : Nat) : s.keepsFaults (s.latchHealth pg c) :=
  ⟨rfl, fun _ _ h => State.isLatched_latchHealth_mono h pg c⟩

theorem EvSt.hostWr64_cats (e : EvSt) (a v : Nat) : (e.hostWr64 a v).cats = e.cats := by rw [EvSt.hostWr64, EvSt.hostWr, EvSt.hostWr]

theorem EvSt.hostWr64_latched (e : EvSt) (a v : Nat) : (e.hostWr64 a v).latched = e.latched := by
  rw [EvSt.hostWr64, EvSt.hostWr, EvSt.hostWr]

theorem State.keepsFaults_record (s : State) (pt w d g : Nat) : s.keepsFaults (s.record pt w d g) := by
  unfold State.record
  extract_lets size _ s1 s2 base a e0 wr e wb
  split
  · exact .refl s
  · split
    · exact State.keepsFaults_of rfl rfl
    · split
      · have h2 : s.keepsFaults s2 :=
          (State.keepsFaults_of (x := s1) rfl rfl).trans (s1.keepsFaults_latchHealth _ _)
        split
        · exact h2
        · exact h2.trans (s2.keepsFaults_fire 0)
      · have h0 : e0.cats = s.ev.cats ∧ e0.latched = s.ev.latched := by
          unfold e0
          simp only [EvSt.hostWr64_cats, EvSt.hostWr64_latched, and_self]
        clear_value e0
        have hc : e.cats = s.ev.cats := h0.1
        have hl : e.latched = s.ev.latched := h0.2
        clear_value e
        refine State.keepsFaults_of ?_ ?_ <;> dsimp only <;> split
        · exact hc
        · exact hc
        · exact hl
        · exact hl

theorem State.keepsFaults_raise (s : State) (pg i : Nat) : s.keepsFaults (s.raise pg i) := by
  unfold State.raise State.raiseAt
  extract_lets _ s1 w1 s2
  have h1 : s.keepsFaults s1 := State.keepsFaults_of rfl rfl
  split
  · have h2 : s.keepsFaults s2 := h1.trans (s1.keepsFaults_record _ _ _ _)
    split
    · exact h2
    · exact h2.trans (s2.keepsFaults_fire _)
  · exact h1

theorem State.keepsFaults_tbGather (s0 s : State) (x : Nat) : s.keepsFaults (State.tbGather s0 s x) := by
  unfold State.tbGather
  refine foldl_rel .refl .trans (fun b _ y => ?_) s
  have htius : ∀ z : State, z.keepsFaults ((List.range 4).foldl (fun s u =>
      if (s.tiu b u).armed then s.setTiu b u { s.tiu b u with tb := (s.tiu b u).tb ||| s.tbBits b ||| x } else s) z) :=
    foldl_rel .refl .trans fun u _ z => by
      dsimp only
      split
      · exact State.keepsFaults_of rfl rfl
      · exact .refl z
  have hfres : ∀ z : State, z.keepsFaults ((List.range 2).foldl (fun s e =>
      s.setFre b e { s.fre b e with gate := (s.fre b e).gate.map fun g => { g with tb := g.tb ||| s.tbBits b ||| x } }) z) :=
    foldl_rel .refl .trans fun e _ z => State.keepsFaults_of rfl rfl
  dsimp only
  split
  · exact ((htius y).trans (hfres _)).trans (State.keepsFaults_raise _ _ _)
  · exact (htius y).trans (hfres _)

/-! ### Loss of the ridge (R338, R340) -/

/-- The tree with a migration under way. -/
def State.setMig (u : State) (m : Mig) : State := { u with tree := { u.tree with mig := some m } }

/-- A follower that loses the purlin coasts. -/
def State.losesRidge (s : State) (b : Nat) : State :=
  if s.bentFenced b then s
  else ((s.unlock b (s.activeSill b) false).raise (sillPg b (s.activeSill b)) 2).coastStart b 4 (s.lastGood b)

theorem State.migStart_loss (u : State) (c : Nat) : u.migStart c true false = (u.others u.ridge).foldl State.losesRidge
    (u.setMig { target := c, loss := true, fence := false, since := u.now }) := rfl

theorem State.home_losesRidge (s : State) (b : Nat) : (s.losesRidge b).home = s.home := by
  unfold State.losesRidge
  split
  · rfl
  · rw [State.home_coastStart, State.home_raise, State.home_unlock]

theorem State.home_migStart_loss (u : State) (c : Nat) : (u.migStart c true false).home =
    (u.setMig { target := c, loss := true, fence := false, since := u.now }).home := by
  rw [State.migStart_loss]
  exact State.home_foldl (fun b _ s => s.home_losesRidge b) _

/-- What shows of a fenced bent whose category is set, in the outcome of a command that gathers conditions. -/
theorem State.fenced_gathered {u v y : State} {b : Nat} (hf : y.bentFenced b = true) (hv : y.variant = u.variant) (pg i : Nat) :
    (u.keepMem (State.tbGather v ((y.category 4 b true).raise pg i) 0).settle).tree = y.tree ∧
      (u.keepMem (State.tbGather v ((y.category 4 b true).raise pg i) 0).settle).bentFenced b = true ∧
      setHas (u.keepMem (State.tbGather v ((y.category 4 b true).raise pg i) 0).settle).ev.cats (4 * 64 + b) = true ∧
      (u.keepMem (State.tbGather v ((y.category 4 b true).raise pg i) 0).settle).raised pg i = true := by
  have hgather := State.works_tbGather v ((y.category 4 b true).raise pg i) 0 []
  have hcats := (State.keepsFaults_raise (y.category 4 b true) pg i).trans (State.keepsFaults_tbGather v _ 0)
  have hxv : ((y.category 4 b true).raise pg i).variant = u.variant := by rw [State.raise_variant, State.category_variant, hv]
  refine ⟨?_, ?_, ?_, ?_⟩
  · rw [State.keepMem_tree, State.settle_tree, hgather.tree, State.raise_tree, State.category_tree]
  · rw [State.bentFenced, State.bit_of_reg (State.reg_keepMem_settle (hgather.variant.trans hxv) _),
      State.bit_of_reg (State.reg_tbGather _ _ _ _), State.bit_raise, State.bit_category]
    exact hf
  · rw [State.keepMem_ev, State.settle_ev_cats, hcats.1]
    exact setHas_setPut_same y.ev.cats (4 * 64 + b) true
  · rw [State.raised_keepMem_settle]
    exact hgather.2.2 _ _ (State.raised_raise_same _ _ _)

/-- The ridge's heartbeat is lost: the role goes to the next candidate and the old ridge is fenced (R338, R340). -/
theorem heartbeat_lost {s u : State} {t : PT} (hu : u = s.arrive t) {c : Nat} (hrun : u.clk.running = true)
    (he : u.tree.elected = true) (hm : u.tree.mig = none) (hlate : u.tree.lastHb + 10 * usK ≤ u.now)
    (hc : u.nextCand u.ridge = some c) (hw : u.worker = false) (hq : ∀ q, q < 16 → u.atRest (u.ridge * 16 + q)) :
    ∃ s', exec (.heartbeatLoss t) s = .next s' ∧
      s'.tree.mig = some { target := c, loss := true, fence := false, since := u.now } ∧ s'.bentFenced u.ridge = true ∧
      setHas s'.ev.cats (4 * 64 + u.ridge) = true ∧ s'.raised (pkgp 0) 0 = true := by
  have hhome := u.home_migStart_loss c
  obtain ⟨hfenced, hvar, hmig⟩ := State.fenceBent_shows (s := u.migStart c true false) (b := u.ridge)
    ((State.worker_of_home hhome).trans hw) fun q hlt => State.atRest_of_home hhome (hq q hlt)
  have hmv : (u.migStart c true false).variant = u.variant := (State.variant_of_home hhome).trans rfl
  have hmt : (u.migStart c true false).tree.mig = some { target := c, loss := true, fence := false, since := u.now } :=
    congrArg Tree.mig (State.tree_of_home hhome)
  obtain ⟨htree, hshown⟩ := State.fenced_gathered (v := u) hfenced (hvar.trans hmv) (pkgp 0) 0
  subst hu
  rw [exec_heartbeatLoss]
  refine runMem_next (x := State.tbGather (s.arrive t)
    ((((s.arrive t).migStart c true false).fenceBent (s.arrive t).ridge).category 4 (s.arrive t).ridge true |>.raise (pkgp 0) 0) 0)
    ?_ ⟨?_, hshown⟩
  · rw [if_neg (by simp only [hrun, he, hm, decide_eq_false (Nat.not_lt.mpr hlate)]; decide)]
    unfold State.gathered State.ridgeLost
    dsimp only
    rw [hc]
    rfl
  · rw [htree, hmig, hmt]

end Sys2Proof.Machine
end

section
/-!
PROOFS. The purlin (R341, R342): the skew measurements and the markers of the followers.
-/

namespace Sys2Proof.Machine

/-! ### What a calibration's result leaves (R264, R265) -/

/-- What a calibration's result reaches: registers, events, and the items. -/
def State.onlyCal (s x : State) : Prop := ∃ r e c, x = { s with regs := r, ev := e, calInsts := c }

theorem State.onlyCal.refl (s : State) : s.onlyCal s := ⟨s.regs, s.ev, s.calInsts, rfl⟩

theorem State.onlyCal.trans {s x y : State} (h : s.onlyCal x) (k : x.onlyCal y) : s.onlyCal y := by
  obtain ⟨_, _, _, rfl⟩ := h
  obtain ⟨r, e, c, rfl⟩ := k
  exact ⟨r, e, c, rfl⟩

theorem State.onlyRegs.cal {s x : State} (h : s.onlyRegs x) : s.onlyCal x := by
  obtain ⟨r, e, rfl⟩ := h
  exact ⟨r, e, s.calInsts, rfl⟩

theorem State.onlyCal_setInst (s : State) (b item inst : Nat) (x : CalInst) : s.onlyCal (s.setInst b item inst x) := ⟨_, _, _, rfl⟩

theorem State.onlyRegs_setBit (s : State) (a i : Nat) (on : Bool) : s.onlyRegs (s.setBit a i on) := s.onlyRegs_wr a _

theorem State.onlyRegs_raise (s : State) (pg i : Nat) : s.onlyRegs (s.raise pg i) := s.onlyRegs_raiseAt ..

theorem State.onlyRegs_wr80 (s : State) (a v : Nat) : s.onlyRegs (s.wr80 a v) := ⟨_, _, rfl⟩

theorem State.onlyRegs_itemMap (s : State) (b item off bit code : Nat) (p : CalInst → Bool) :
    s.onlyRegs (s.itemMap b item off bit code p) := by
  unfold State.itemMap
  extract_lets any_ s1 all_ s2
  have h2 : s.onlyRegs s2 := (s.onlyRegs_setBit _ _ _).trans (s1.onlyRegs_setBit _ _ _)
  split
  · exact h2
  · exact h2.trans (s2.onlyRegs_standing _ _ _)

theorem State.onlyCal_calReject (s : State) (b item inst cause : Nat) : s.onlyCal (s.calReject b item inst cause) := by
  unfold State.calReject
  extract_lets x n full s1 s2 s3
  have h2 : s.onlyCal s2 := (s.onlyCal_setInst _ _ _ _).trans
    (((s1.onlyRegs_bump _).trans (State.onlyRegs_wr _ _ _)).trans (State.onlyRegs_standing _ _ _ _)).cal
  have h3 : s.onlyCal s3 := h2.trans (s2.onlyRegs_raiseAt _ _ _ _ _).cal
  split
  · exact h3.trans ((s3.onlyRegs_standing _ _ _).trans (State.onlyRegs_raiseAt _ _ _ _ _ _)).cal
  · exact h3

theorem State.onlyCal_calAccept (s : State) (b item inst : Nat) (m : List Int) (out : Bool) :
    s.onlyCal (s.calAccept b item inst m out) := by
  unfold State.calAccept
  split
  · exact (s.onlyCal_setInst _ _ _ _).trans (State.onlyRegs_setBit _ _ _ _).cal
  · extract_lets tm delta x s1 s2 s3
    have h2 : s.onlyCal s2 := (s.onlyCal_setInst _ _ _ _).trans ((s1.onlyRegs_bump _).trans (State.onlyRegs_wr80 _ _ _)).cal
    have h3 : s.onlyCal s3 := (h2.trans (s2.onlyCal_setInst _ _ _ _)).trans (State.onlyRegs_standing _ _ _ _).cal
    exact h3.trans ((s3.onlyRegs_itemMap _ _ _ _ _ _).trans (State.onlyRegs_itemMap _ _ _ _ _ _ _)).cal

theorem State.onlyCal_calMeasure (s : State) (b item inst : Nat) (m : Option (List Int)) (active out : Bool) :
    s.onlyCal (s.calMeasure b item inst m active out) := by
  unfold State.calMeasure
  split
  · exact (s.onlyCal_setInst _ _ _ _).trans
      ((State.onlyRegs_itemMap _ _ _ _ _ _ _).trans (State.onlyRegs_raiseAt _ _ _ _ _ _)).cal
  · split
    · exact s.onlyCal_calReject _ _ _ _
    · split
      · exact s.onlyCal_calReject _ _ _ _
      · split
        · exact s.onlyCal_calReject _ _ _ _
        · exact s.onlyCal_calAccept _ _ _ _ _

theorem State.onlyRegs_judgeFaulty (s : State) (b item inst : Nat) : s.onlyRegs (s.judgeFaulty b item inst) := by
  unfold State.judgeFaulty
  split
  · exact (s.onlyRegs_setBit _ _ _).trans (State.onlyRegs_standing _ _ _ _)
  · split
    · unfold State.lathRetire
      extract_lets a
      split
      · exact .refl s
      · exact (((s.onlyRegs_setBit _ _ _).trans (State.onlyRegs_setBit _ _ _ _)).trans (State.onlyRegs_raise _ _ _)).trans
          (State.onlyRegs_standing _ _ _ _)
    · split
      · exact (s.onlyRegs_setBit _ _ _).trans (State.onlyRegs_standing _ _ _ _)
      · split
        · exact ((s.onlyRegs_setBit _ _ _).trans (State.onlyRegs_standing _ _ _ _)).trans (State.onlyRegs_category _ _ _ _)
        · exact .refl s

theorem State.onlyCal_calTake (s : State) (b item inst : Nat) (m : Option (List Int)) (active out : Bool) :
    s.onlyCal (s.calTake b item inst m active out) := by
  unfold State.calTake
  extract_lets s1 _ s2
  have h2 : s.onlyCal s2 := (s.onlyCal_calMeasure b item inst m active out).trans (s1.onlyCal_setInst _ _ _ _)
  split
  · exact h2.trans (s2.onlyRegs_judgeFaulty _ _ _).cal
  · exact h2

/-! ### The skew measurement (R339, R359) -/

/-- Every follower takes its measurement of item 0x13. -/
def State.takeSkews (s : State) (skews : List Int) : State := s.each (s.others s.ridge) fun s b =>
  s.calTake b 0x13 0 (match skews[b]? with
    | none => none
    | some x => some [x]) true false

theorem State.onlyCal_takeSkews (s : State) (skews : List Int) : s.onlyCal (s.takeSkews skews) :=
  foldl_rel .refl .trans (fun _ _ x => x.onlyCal_calTake _ _ _ _ _ _) s

/-- The measurement ends, and is told where a handover asked for it. -/
def State.endSkews (s x : State) : State :=
  if s.tree.skew = 2 then ({ x with tree := { x.tree with skew := 0 } } : State).raise purlinPg 2
  else { x with tree := { x.tree with skew := 0 } }

theorem skew_ends {s u : State} {t : PT} (hu : u = s.arrive t) (skews : List Int) (h : u.tree.skew ≠ 0) :
    ∃ s', exec (.skewDone t skews) s = .next s' ∧ s'.tree = { u.tree with skew := 0 } ∧
      (u.tree.skew = 2 → s'.raised purlinPg 2 = true) ∧ s'.mem = u.mem ∧ s'.queues = u.queues := by
  obtain ⟨r, e, c, htake⟩ := u.onlyCal_takeSkews skews
  have htree : (u.takeSkews skews).tree = u.tree := by rw [htake]
  have hqueues : (u.takeSkews skews).queues = u.queues := by rw [htake]
  subst hu
  rw [exec_skewDone]
  refine runAt_next (x := (s.arrive t).endSkews ((s.arrive t).takeSkews skews)) (if_neg h) ⟨?_, fun h2 => ?_, ?_, ?_⟩
  · rw [State.keep_tree, State.settle_tree, ← htree]
    unfold State.endSkews
    split
    · rw [State.raise_tree]
    · rfl
  · rw [State.raised_keep_settle, State.endSkews, if_pos h2, State.raised_raise_same]
  · rw [State.keep_mem]
  · rw [State.keep_queues, State.settle_queues, ← hqueues]
    unfold State.endSkews
    split
    · rw [State.raise_queues]
    · rfl

/-! ### Coasts that end (R79, R90) -/

/-- The offsets of the registers that a coast's end reaches. -/
def coastEndOffs : List Nat := lockOffs ++ [Off.SILL_COAST_TIME, Off.SILL_PULL_LEFT]

theorem State.works_coastShots (s : State) (b x : Nat) (l : List Nat) : s.works (s.coastShots b x) l := by
  unfold State.coastShots
  refine State.works_foldl (fun y q => ?_) _ s
  dsimp only
  split
  · exact State.works_of (.refl y _) rfl rfl rfl
  · exact .refl y _

theorem State.works_coastEnd (s : State) (b : Nat) (phase : Int) : s.works (s.coastEnd b phase) coastEndOffs := by
  unfold State.coastEnd
  extract_lets k pg last s0 ms st s1 cfg pull _ s2 s3 s4 s5
  have h0 : s.works s0 coastEndOffs :=
    State.works_foldl (fun x c => (x.works_coastShots c last _).trans (State.works_coastCaps _ c last _)) _ s
  clear_value s0
  have h1 : s.works s1 coastEndOffs := State.works_wr (State.works_wr (State.works_wr h0 (mem_bp (by decide)) _)
    (mem_bp (by decide)) _) (mem_bp (by decide)) _
  clear_value s1
  have h2 : s.works s2 coastEndOffs := State.works_setSill (State.works_raise h1 _ _) _ _ _
  clear_value s2
  have h3 : s.works s3 coastEndOffs := State.works_setSill (State.works_setSill h2 _ _ _) _ _ _
  clear_value s3
  have h4 : s.works s4 coastEndOffs := by
    unfold s4
    split
    · exact h3.trans ((s3.works_acqStart b k).mono (by decide))
    · exact h3
  clear_value s4
  have h5 : s.works s5 coastEndOffs := State.works_setBit h4 (mem_pkgp (by decide)) _ _
  clear_value s5
  split
  · exact .refl s _
  · split
    · exact State.works_category ((State.works_setBit h5 (mem_pkgp (by decide)) _ _).trans
        ((State.works_ridgeCoast _ _).mono (by decide))) _ _ _
    · exact h5

/-! ### Markers of the purlin (R341, R342) -/

/-- SILL_STAT of a bent reads on as it did. -/
theorem State.coasting_congr {s x : State} {b : Nat} (h : ∀ k, x.reg (sillStat b k) = s.reg (sillStat b k)) :
    x.coasting b = s.coasting b ∧ x.activeSill b = s.activeSill b := by
  have ha : x.activeSill b = s.activeSill b := by rw [State.activeSill, State.activeSill, State.bit_of_reg (h 1)]
  exact ⟨by rw [State.coasting, State.coasting, ha, State.bit_of_reg (h _), State.bit_of_reg (h _)], ha⟩

theorem bitAt_putBits_ne (x : Nat) {lo len i : Nat} (v : Nat) (h : i < lo ∨ lo + len ≤ i) :
    bitAt (putBits x lo len v) i = bitAt x i := by
  rw [bitAt_putBits]
  split_ifs
  · rfl
  · omega
  · rfl

/-- A coast's start puts COASTING, the cause and ACQ_STATE of its own sill. -/
theorem State.keepsBits_coastMark (s : State) (b k j cause last : Nat) :
    s.keepsBits (s.coastMark b k cause last) (sillStat b j) [3, 12, 13, 14, 16, 17, 18] := by
  intro i _ hi
  simp only [List.mem_cons, List.not_mem_nil, or_false, not_or] at hi
  obtain ⟨h3, h12, h13, h14, h16, h17, h18⟩ := hi
  by_cases hj : j = k
  · subst hj
    rw [State.bit, s.coastMark_stat, bitAt_putBits_ne _ _ (by omega), bitAt_putBits_ne _ _ (by omega),
      bitAt_putBits_ne _ _ (by omega), State.bit]
  · have hne : ∀ o, o < 0x1000 → sillStat b j ≠ sillPg b k + o := fun o ho => by
      unfold sillStat sillPg bp Off.SILL_SILL_STAT; omega
    have hadd : ∀ o c, o + c < 0x1000 → sillStat b j ≠ sillPg b k + o + c := fun o c ho => by
      rw [Nat.add_assoc]; exact hne _ ho
    refine State.bit_of_reg ?_ i
    unfold State.coastMark State.wr80
    rw [State.reg_wr_ne _ _ (hne _ (by decide)), State.reg_wr_ne _ _ (hadd _ _ (by decide)),
      State.reg_wr_ne _ _ (hadd _ _ (by decide)), State.reg_wr_ne _ _ (hne _ (by decide)), State.reg_wr_ne _ _ (hne _ (by decide))]

/-- A sill's SILL_STAT as the start of its bent's coast leaves it, but for LOCKED and ACQ_STATE. -/
theorem State.keepsBits_coastStarted {s : State} {b j : Nat} (hb : b < 8) (hj : j < 2)
    (h : s.bit (sillStat b (s.activeSill b)) 3 = false) (cause last : Nat) :
    (s.coastMark b (s.activeSill b) cause last).keepsBits (s.coastStart b cause last) (sillStat b j) [0, 16, 17, 18] := by
  have hstat : sillStat b j % 0x1000 ≠ Off.SILL_DCO_WORD ∧ sillStat b j % 0x1000 ≠ Off.SILL_COAST_COUNT := by
    rw [sillStat, sillReg_off b j (by decide)]
    decide
  have hcount : sillStat b j ≠ sillPg b (s.activeSill b) + Off.SILL_COAST_COUNT := fun e => hstat.2 (by
    rw [e, sillReg_off b _ (by decide)])
  have hw := (s.coastMark b (s.activeSill b) cause last).works_coastFreeze b (s.activeSill b)
  have hridge : ((s.coastMark b (s.activeSill b) cause last).coastFreeze b (s.activeSill b)).ridge = s.ridge :=
    hw.ridge.trans ((State.bump_ridge _ _).trans (s.works_coastMark b (s.activeSill b) cause last).ridge)
  have hfreeze : (s.coastMark b (s.activeSill b) cause last).keepsBits
      ((s.coastMark b (s.activeSill b) cause last).coastFreeze b (s.activeSill b)) (sillStat b j) [0, 16, 17, 18] :=
    State.keepsBits_of_reg (.refl _ _ _) ((hw.2.1 _ (by simpa using hstat.1)).trans (State.reg_bump_ne _ hcount))
  rw [State.coastStart_eq h, ← hridge]
  exact hfreeze.trans (State.keepsBits_coastSpread _ hb hj _ last)

/-- The active sill of a bent whose coast has started coasts. -/
theorem State.coasting_coastStart {s : State} {b : Nat} (hb : b < 8) (cause last : Nat) :
    (s.coastStart b cause last).coasting b = true := by
  cases h : s.bit (sillStat b (s.activeSill b)) 3 with
  | true =>
    rw [State.coastStart_coasting h, State.coasting, h]
    rfl
  | false =>
    have hactive : (s.coastStart b cause last).activeSill b = s.activeSill b := by
      rw [State.activeSill_of_bits (State.keepsBits_coastStarted hb (by decide) h cause last) (by decide),
        State.activeSill_of_bits (s.keepsBits_coastMark b _ 1 cause last) (by decide)]
    have hbit : (s.coastMark b (s.activeSill b) cause last).bit (sillStat b (s.activeSill b)) 3 = true := by
      rw [State.bit, s.coastMark_stat, bitAt_putBits, if_pos (by decide), bitAt_putBits, if_pos (by decide)]
      exact bitAt_putBit_same _ 3 true
    rw [State.coasting, hactive, State.keepsBits_coastStarted hb (s.activeSill_lt b) h cause last 3 (by decide) (by decide), hbit]
    rfl

theorem State.works.ptOff {s x : State} {l : List Nat} (h : s.works x l) : x.ptOff = s.ptOff := by
  have he : x.sansSills.ptOff = s.sansSills.ptOff := congrArg State.ptOff h.1
  exact he

section Marker

variable {u : State} {b : Fin 8} {diff : Int}

/-- The marker's distance is shown (R341). -/
def State.showPhase (u : State) (b : Nat) (diff : Int) : State := u.wr (purlinPg + Off.PURLIN_PHASE b) (ofSigned 32 diff)

/-- A register whose offset is no marker's. -/
theorem State.showPhase_reg (u : State) {b : Nat} (hb : b < 8) (diff : Int) {a : Nat}
    (ha : a % 0x1000 < 0x120 ∨ 0x140 ≤ a % 0x1000) : (u.showPhase b diff).reg a = u.reg a :=
  State.reg_wr_ne _ _ (by unfold purlinPg pkgp Off.PURLIN_PHASE; omega)

theorem State.home_showPhase (u : State) (b : Fin 8) (diff : Int) : (u.showPhase b diff).home = u.home := by
  have hoff : offTree (purlinPg + Off.PURLIN_PHASE b) := by
    unfold offTree purlinPg hierCtrl hierPg pkgp Off.PURLIN_PHASE Off.HIER_HIER_CTRL
    omega
  exact u.home_wr hoff _

theorem State.showPhase_rd (u : State) (b : Nat) (diff : Int) :
    (u.showPhase b diff).rd (purlinPg + Off.PURLIN_PHASE b) = ofSigned 32 diff := by
  rw [State.showPhase, State.rd_wr_same, Nat.mod_eq_of_lt (ofSigned_lt 32 diff)]

theorem State.showPhase_sill (u : State) (b : Fin 8) (diff : Int) (c k : Nat) :
    (u.showPhase b diff).reg (sillStat c k) = u.reg (sillStat c k) :=
  u.showPhase_reg b.isLt diff (.inl (by rw [sillStat, sillReg_off c k (by decide)]; decide))

/-- The instant of a follower's last marker within its test. -/
def State.marked (s : State) (b : Nat) : State :=
  { s with tree := { s.tree with marker := mapSet (fun _ => 0) s.tree.marker b s.now } }

theorem State.goodMarker_tracks {s : State} {b : Nat} (diff : Int) (h : s.bit (sillStat b (s.activeSill b)) 3 = false) :
    s.goodMarker b diff = s.marked b := if_neg (by
  change ¬ (s.bit (sillStat b (s.activeSill b)) 3 && _ && _ && _) = true
  rw [h]
  simp)

/-- What the gathering of conditions leaves. -/
theorem State.tbGather_cases (s0 s : State) (x : Nat) : ∃ i f e, State.tbGather s0 s x = { s with tius := i, fres := f, ev := e } := by
  have h := State.tbGather_only s0 s x
  rw [State.tbGather_touched] at h
  exact ⟨_, _, _, h⟩

/-- A register after a command that reaches the memories and gathers conditions. -/
theorem State.reg_gathered {u x : State} (hv : x.variant = u.variant) (v : State) (a : Nat) :
    (u.keepMem (State.tbGather v x 0).settle).reg a = x.reg a :=
  (State.reg_keepMem_settle ((State.works_tbGather v x 0 []).variant.trans hv) a).trans (State.reg_tbGather v x 0 a)

/-- What a marker does to its follower. -/
def State.takeMarker (s : State) (b : Nat) (diff : Int) : State :=
  if s.bentFenced b then
    ({ s with tree := { s.tree with mism := setPut s.tree.mism b false } }.setCopy b 0).goodMarker b diff
  else if diff.natAbs ≤ 8 * s.clk.n then s.goodMarker b diff
  else (s.setCopy b (roundDiv diff (16 * s.clk.n) * s.clk.n)).badMarker b

theorem marker_next {s x : State} {t : PT} {P : State → Prop} (hb : (s.arrive t).has b = true) (hne : b.val ≠ (s.arrive t).ridge)
    (hrun : (s.arrive t).clk.running = true) (hx : ((s.arrive t).showPhase b diff).takeMarker b diff = x)
    (h : P ((s.arrive t).keepMem (State.tbGather ((s.arrive t).showPhase b diff) x 0).settle)) :
    ∃ s', exec (.purlinMarker t b diff) s = .next s' ∧ P s' := by
  rw [exec_purlinMarker]
  refine runMem_next ((if_neg ?_).trans ?_) h
  · rw [hb, hrun, decide_eq_false hne]
    decide
  · rw [← hx]
    rfl

theorem State.showPhase_fenced (u : State) (b : Fin 8) (diff : Int) : (u.showPhase b diff).bentFenced b = u.bentFenced b :=
  State.bit_of_reg (u.showPhase_reg b.isLt diff (.inl (by unfold bp Off.CONTINUITY_CONT_STAT; omega))) 0

/-- What the good marker of a follower that tracks leaves. -/
theorem marker_good {s : State} {t : PT} (hu : u = s.arrive t) (hb : u.has b = true) (hne : b.val ≠ u.ridge)
    (hrun : u.clk.running = true) (hf : u.bentFenced b = false) (hd : diff.natAbs ≤ 8 * u.clk.n)
    (hc : u.bit (sillStat b (u.activeSill b)) 3 = false) : ∃ s', exec (.purlinMarker t b diff) s = .next s' ∧
      s'.rd (purlinPg + Off.PURLIN_PHASE b) = ofSigned 32 diff ∧ mapGet (fun _ => 0) s'.tree.marker b = u.now ∧
      u.sameRegs s' [purlinPg + Off.PURLIN_PHASE b] ∧
      s' = { u with regs := s'.regs, tree := s'.tree, ev := s'.ev, tius := s'.tius, fres := s'.fres } := by
  have hactive : (u.showPhase b diff).activeSill b = u.activeSill b :=
    (State.coasting_congr (u.showPhase_sill b diff b)).2
  have htracks : (u.showPhase b diff).bit (sillStat b ((u.showPhase b diff).activeSill b)) 3 = false := by
    rw [hactive, State.bit_of_reg (u.showPhase_sill b diff b _), hc]
  have hx : (u.showPhase b diff).takeMarker b diff = (u.showPhase b diff).marked b := by
    rw [State.takeMarker, if_neg (by rw [State.showPhase_fenced, hf]; decide)]
    exact (if_pos hd).trans (State.goodMarker_tracks diff htracks)
  subst hu
  refine marker_next hb hne hrun hx ?_
  generalize s.arrive t = u
  obtain ⟨i, f, e, hg⟩ := State.tbGather_cases (u.showPhase b diff) ((u.showPhase b diff).marked b) 0
  have hreg := State.reg_gathered (u := u) (x := (u.showPhase b diff).marked b) rfl (u.showPhase b diff)
  refine ⟨(State.rd_of_reg (hreg _)).trans (u.showPhase_rd b diff), ?_, fun a ha => (hreg a).trans ?_, ?_⟩
  · rw [hg, State.keepMem_tree, State.settle_tree]
    exact mapGet_mapSet_same _ _ _ _
  · change (u.showPhase b diff).reg a = u.reg a
    exact State.reg_wr_ne _ _ (by simpa using ha)
  · rw [hg, State.keepMem_settle]
    rfl

/-- A mismatch is counted, and what the bent made since its last good marker is flagged (R342). -/
def State.mismatched (s : State) (b last : Nat) : State :=
  (((s.bump (purlinPg + Off.PURLIN_MISMATCH_COUNT)).raise purlinPg 1).coastCaps b last).coastShots b last

theorem State.works_mismatched (s : State) (b last : Nat) : s.works (s.mismatched b last) [Off.PURLIN_MISMATCH_COUNT] :=
  (State.works_raise (State.works_bump (.refl s _) (mem_pkgp (by decide))) _ _).trans
    ((State.works_coastCaps _ b last _).trans (State.works_coastShots _ b last _))

theorem State.home_mismatched (s : State) (b last : Nat) : (s.mismatched b last).home = s.home := by
  have hoff : offTree (purlinPg + Off.PURLIN_MISMATCH_COUNT) := by unfold offTree; decide
  unfold State.mismatched
  rw [State.home_coastShots, State.home_coastCaps, State.home_raise, State.home_bump _ hoff]

/-- The count and the event of a mismatch, and what follows leaves them. -/
theorem State.mismatched_counts (s : State) (b last : Nat) :
    (s.mismatched b last).rd (purlinPg + Off.PURLIN_MISMATCH_COUNT) = satAdd (s.rd (purlinPg + Off.PURLIN_MISMATCH_COUNT)) 1 ∧
      (s.mismatched b last).raised purlinPg 1 = true := by
  have hflags := (State.works_coastCaps ((s.bump (purlinPg + Off.PURLIN_MISMATCH_COUNT)).raise purlinPg 1) b last []).trans
    (State.works_coastShots _ b last _)
  refine ⟨?_, hflags.2.2 _ _ (State.raised_raise_same _ _ _)⟩
  exact (State.rd_of_reg (hflags.2.1 _ (by simp))).trans ((State.rd_raise _ _ _ _).trans (State.rd_bump_same _ _))

/-- The follower whose marker was beyond its test. -/
def State.setMism (s : State) (b : Nat) : State := { s with tree := { s.tree with mism := setPut s.tree.mism b true } }

theorem State.works_setMism {s x : State} {l : List Nat} (h : s.works x l) (b : Nat) : (s.setMism b).works (x.setMism b) l :=
  ⟨congrArg (State.setMism · b) h.1, h.2⟩

/-- What PURLIN shows of a follower that it has fenced. -/
def State.fencedOff (s : State) (b : Nat) : State :=
  (s.latchHealth purlinPg 0xF3).setBit (purlinPg + Off.PURLIN_PURLIN_STAT) (24 + b) true

theorem State.badMarker_eq {s : State} {b last : Nat} (hl : last = mapGet (fun _ => 0) s.tree.marker b) : s.badMarker b =
    if (s.mismatched b last).bit (purlinPg + Off.PURLIN_PURLIN_CTRL) 0 then
      ((((s.mismatched b last).fenceBent b).fencedOff b).category 4 b true).raise (pkgp 0) 0
    else ((s.mismatched b last).setMism b).coastStart b 4 last := by
  subst hl
  unfold State.badMarker State.mismatched State.fencedOff
  rfl

theorem State.mismatched_ctrl (s : State) (b last : Nat) :
    (s.mismatched b last).bit (purlinPg + Off.PURLIN_PURLIN_CTRL) 0 = s.bit (purlinPg + Off.PURLIN_PURLIN_CTRL) 0 :=
  State.bit_of_reg ((s.works_mismatched b last).2.1 _ (by decide)) 0

/-- What a bent's copy of PT is off by after a marker beyond the test (R31). -/
def State.markedOff (s : State) (b : Nat) (diff : Int) : State := s.setCopy b (roundDiv diff (16 * s.clk.n) * s.clk.n)

theorem State.takeMarker_bad {s : State} {b : Nat} {diff : Int} (hf : s.bentFenced b = false) (hd : 8 * s.clk.n < diff.natAbs) :
    s.takeMarker b diff = (s.markedOff b diff).badMarker b := by
  rw [State.takeMarker, if_neg (by rw [hf]; decide), if_neg (by omega)]
  rfl

/-- A marker beyond the test makes a follower coast that PURLIN_CTRL does not fence (R342). -/
theorem marker_coasts {s : State} {t : PT} (hu : u = s.arrive t) (hb : u.has b = true) (hne : b.val ≠ u.ridge)
    (hrun : u.clk.running = true) (hf : u.bentFenced b = false) (hd : 8 * u.clk.n < diff.natAbs)
    (hctrl : u.bit (purlinPg + Off.PURLIN_PURLIN_CTRL) 0 = false) : ∃ s', exec (.purlinMarker t b diff) s = .next s' ∧
      s'.coasting b = true ∧ setHas s'.tree.mism b = true ∧
      mapGet (fun _ => 0) s'.ptOff b = roundDiv diff (16 * u.clk.n) * u.clk.n ∧
      s'.rd (purlinPg + Off.PURLIN_MISMATCH_COUNT) = satAdd (u.rd (purlinPg + Off.PURLIN_MISMATCH_COUNT)) 1 ∧
      s'.raised purlinPg 1 = true ∧ s'.mem = u.mem ∧ s'.queues = u.queues := by
  have hreg : ∀ a, a % 0x1000 < 0x120 → ((u.showPhase b diff).markedOff b diff).reg a = u.reg a := fun a ha =>
    (u.showPhase_reg b.isLt diff (.inl ha))
  obtain ⟨last, hlast⟩ : ∃ last, last = mapGet (fun _ => 0) ((u.showPhase b diff).markedOff b diff).tree.marker b := ⟨_, rfl⟩
  have hx : (u.showPhase b diff).takeMarker b diff =
      (((u.showPhase b diff).markedOff b diff).mismatched b last |>.setMism b).coastStart b 4 last := by
    rw [State.takeMarker_bad ((u.showPhase_fenced b diff).trans hf) hd]
    rw [State.badMarker_eq hlast, State.mismatched_ctrl, State.bit_of_reg (hreg _ (by decide)), hctrl]
    rfl
  subst hu
  refine marker_next hb hne hrun hx ?_
  generalize s.arrive t = u at *
  have hmis := ((u.showPhase b diff).markedOff b diff).works_mismatched b last
  obtain ⟨hcount, hraised⟩ := ((u.showPhase b diff).markedOff b diff).mismatched_counts b last
  generalize ((u.showPhase b diff).markedOff b diff).mismatched b last = m at *
  have hcoast := (State.works_coastStart (m.setMism b) b 4 last).trans (State.works_tbGather (u.showPhase b diff) _ 0 _)
  have hall := (State.works_setMism (hmis.mono (List.subset_append_right coastOffs _)) b).trans
    (hcoast.mono (List.subset_append_left _ _))
  have hreg' := State.reg_gathered (u := u) (x := (m.setMism b).coastStart b 4 last)
    ((State.works_coastStart _ _ _ _).variant.trans (hmis.variant.trans rfl)) (u.showPhase b diff)
  refine ⟨?_, ?_, ?_, ?_, ?_, ?_, ?_⟩
  · exact (State.coasting_congr fun k => hreg' _).1.trans (State.coasting_coastStart b.isLt 4 last)
  · rw [State.keepMem_tree, State.settle_tree, hall.tree]
    exact setHas_setPut_same u.tree.mism b true
  · rw [State.keepMem_ptOff, State.settle_ptOff, hall.ptOff]
    exact mapGet_mapSet_same _ _ _ _
  · rw [State.rd_of_reg (hreg' _), State.rd_of_reg ((State.works_coastStart _ _ _ _).2.1 _ (by decide)),
      ← State.rd_of_reg (hreg _ (by decide))]
    exact hcount
  · rw [State.raised_keepMem_settle]
    exact hcoast.2.2 _ _ hraised
  · rw [State.keepMem_mem, State.settle_mem, hall.mem]
    rfl
  · rw [State.keepMem_queues, State.settle_queues, hall.queues]
    rfl

theorem State.fencedOff_shows {u v m : State} (hf : m.bentFenced b = true) (hv : m.variant = u.variant) :
    (u.keepMem (State.tbGather v (((m.fencedOff b).category 4 b true).raise (pkgp 0) 0) 0).settle).bentFenced b = true ∧
      (u.keepMem (State.tbGather v (((m.fencedOff b).category 4 b true).raise (pkgp 0) 0) 0).settle).isLatched purlinPg 0xF3 =
        true ∧
      (u.keepMem (State.tbGather v (((m.fencedOff b).category 4 b true).raise (pkgp 0) 0) 0).settle).bit
        (purlinPg + Off.PURLIN_PURLIN_STAT) (24 + b) = true ∧
      setHas (u.keepMem (State.tbGather v (((m.fencedOff b).category 4 b true).raise (pkgp 0) 0) 0).settle).ev.cats
        (4 * 64 + b) = true := by
  have hstat : bp b 0x18 + Off.CONTINUITY_CONT_STAT ≠ purlinPg + Off.PURLIN_PURLIN_STAT := by
    unfold bp purlinPg pkgp Off.CONTINUITY_CONT_STAT Off.PURLIN_PURLIN_STAT; omega
  have hyf : (m.fencedOff b).bentFenced b = true := (State.bit_of_reg (State.reg_setBit_ne _ _ _ hstat) 0).trans hf
  have hyv : (m.fencedOff b).variant = u.variant := hv
  have hlatched : (m.fencedOff b).isLatched purlinPg 0xF3 = true := m.isLatched_latchHealth_same purlinPg 0xF3
  have hbit : (m.fencedOff b).bit (purlinPg + Off.PURLIN_PURLIN_STAT) (24 + b) = true :=
    State.bit_setBit_same _ _ _ _ (by omega)
  generalize m.fencedOff b = y at *
  obtain ⟨_, hshown, hcats, _⟩ := State.fenced_gathered (u := u) (v := v) hyf hyv (pkgp 0) 0
  have hkept := (State.keepsFaults_raise (y.category 4 b true) (pkgp 0) 0).trans (State.keepsFaults_tbGather v _ 0)
  refine ⟨hshown, ?_, ?_, hcats⟩
  · rw [State.isLatched_keepMem_settle]
    exact hkept.2 _ _ hlatched
  · rw [State.bit_of_reg (State.reg_gathered (by rw [State.raise_variant, State.category_variant, hyv]) v _), State.bit_raise,
      State.bit_category]
    exact hbit

/-- A marker beyond the test fences a follower where PURLIN_CTRL says so (R342). -/
theorem marker_fences {s : State} {t : PT} (hu : u = s.arrive t) (hb : u.has b = true) (hne : b.val ≠ u.ridge)
    (hrun : u.clk.running = true) (hf : u.bentFenced b = false) (hd : 8 * u.clk.n < diff.natAbs)
    (hctrl : u.bit (purlinPg + Off.PURLIN_PURLIN_CTRL) 0 = true) (hw : u.worker = false)
    (hq : ∀ q, q < 16 → u.atRest (b * 16 + q)) : ∃ s', exec (.purlinMarker t b diff) s = .next s' ∧
      s'.bentFenced b = true ∧ s'.isLatched purlinPg 0xF3 = true ∧
      s'.bit (purlinPg + Off.PURLIN_PURLIN_STAT) (24 + b) = true ∧ setHas s'.ev.cats (4 * 64 + b) = true := by
  have hreg : ∀ a, a % 0x1000 < 0x120 → ((u.showPhase b diff).markedOff b diff).reg a = u.reg a := fun a ha =>
    (u.showPhase_reg b.isLt diff (.inl ha))
  have hphase : ((u.showPhase b diff).markedOff b diff).home = u.home := u.home_showPhase b diff
  obtain ⟨last, hlast⟩ : ∃ last, last = mapGet (fun _ => 0) ((u.showPhase b diff).markedOff b diff).tree.marker b := ⟨_, rfl⟩
  have hhome := (((u.showPhase b diff).markedOff b diff).home_mismatched b last).trans hphase
  have hx : (u.showPhase b diff).takeMarker b diff =
      ((((((u.showPhase b diff).markedOff b diff).mismatched b last).fenceBent b).fencedOff b).category 4 b true).raise
        (pkgp 0) 0 := by
    rw [State.takeMarker_bad ((u.showPhase_fenced b diff).trans hf) hd, State.badMarker_eq hlast, State.mismatched_ctrl,
      State.bit_of_reg (hreg _ (by decide)), hctrl]
    rfl
  obtain ⟨hfenced, hvar, _⟩ := State.fenceBent_shows (b := b) ((State.worker_of_home hhome).trans hw) fun q hlt =>
    State.atRest_of_home hhome (hq q hlt)
  have hv := hvar.trans (State.variant_of_home hhome)
  subst hu
  refine marker_next hb hne hrun hx ?_
  exact State.fencedOff_shows hfenced hv

/-- A fenced bent whose copy of PT a marker replaces (R31). -/
def State.replaced (s : State) (b : Nat) : State :=
  ({ s with tree := { s.tree with mism := setPut s.tree.mism b false } } : State).setCopy b 0

theorem State.takeMarker_fenced {s : State} {b : Nat} (h : s.bentFenced b = true) (diff : Int) :
    s.takeMarker b diff = (s.replaced b).goodMarker b diff := if_pos h

theorem State.works_goodMarker (s : State) (b : Nat) (diff : Int) : (s.marked b).works (s.goodMarker b diff) coastEndOffs := by
  unfold State.goodMarker
  extract_lets _ s1 k
  split
  · exact s1.works_coastEnd b _
  · exact .refl s1 _

theorem phase_off (b : Fin 8) : (purlinPg + Off.PURLIN_PHASE b) % 0x1000 ∉ coastEndOffs := by
  have ho : (purlinPg + Off.PURLIN_PHASE b) % 0x1000 = Off.PURLIN_PHASE b := by
    unfold purlinPg pkgp Off.PURLIN_PHASE; omega
  rw [ho]
  exact (by decide : ∀ b : Fin 8, Off.PURLIN_PHASE b ∉ coastEndOffs) b

/-- A marker to a fenced follower replaces its copy (R31, R342). -/
theorem marker_replaces {s : State} {t : PT} (hu : u = s.arrive t) (hb : u.has b = true) (hne : b.val ≠ u.ridge)
    (hrun : u.clk.running = true) (hf : u.bentFenced b = true) : ∃ s', exec (.purlinMarker t b diff) s = .next s' ∧
      s'.rd (purlinPg + Off.PURLIN_PHASE b) = ofSigned 32 diff ∧ mapGet (fun _ => 0) s'.ptOff b = 0 ∧
      setHas s'.tree.mism b = false ∧ mapGet (fun _ => 0) s'.tree.marker b = u.now ∧ s'.mem = u.mem ∧
      s'.queues = u.queues := by
  have hx := State.takeMarker_fenced ((u.showPhase_fenced b diff).trans hf) diff
  subst hu
  refine marker_next hb hne hrun hx ?_
  generalize s.arrive t = u at *
  have hgood := ((u.showPhase b diff).replaced b).works_goodMarker b diff
  have hall := hgood.trans (State.works_tbGather (u.showPhase b diff) _ 0 _)
  have hreg := State.reg_gathered (u := u) (hgood.variant.trans rfl) (u.showPhase b diff)
  refine ⟨?_, ?_, ?_, ?_, ?_, ?_⟩
  · rw [State.rd_of_reg (hreg _), State.rd_of_reg (hgood.2.1 _ (phase_off b))]
    exact u.showPhase_rd b diff
  · rw [State.keepMem_ptOff, State.settle_ptOff, hall.ptOff]
    exact mapGet_mapSet_same (fun _ => 0) u.ptOff b 0
  · rw [State.keepMem_tree, State.settle_tree, hall.tree]
    exact setHas_setPut_same u.tree.mism b false
  · rw [State.keepMem_tree, State.settle_tree, hall.tree]
    exact mapGet_mapSet_same (fun _ => 0) u.tree.marker b u.now
  · rw [State.keepMem_mem, State.settle_mem, hall.mem]
    rfl
  · rw [State.keepMem_queues, State.settle_queues, hall.queues]
    rfl

end Marker

end Sys2Proof.Machine
end

section
/-!
PROOFS. The handover of the ridge (R339, R340), and the ridge's role as a whole.
-/

namespace Sys2Proof.Machine

/-! ### What a handover does (R339) -/

theorem State.works_raiseAt {s x : State} {l : List Nat} (h : s.works x l) (pg i pt d : Nat) (f : Bool) :
    s.works (x.raiseAt pg i pt d f) l := by
  refine h.trans ⟨?_, fun a _ => State.reg_raiseAt _ _ _ _ _ _ _, fun pg' i' hr => ?_⟩
  · obtain ⟨e, he⟩ := x.raiseAt_ev pg i pt d f
    rw [he]
    rfl
  · rw [State.raised, (x.raiseAt_raw_standing pg i pt d f).1]
    by_cases he : pg' * 64 + i' = pg * 64 + i
    · rw [he, setHas_setPut_same]
    · rw [setHas_setPut_ne _ _ he]; exact hr

theorem State.works_fire {s x : State} {l : List Nat} (h : s.works x l) (v : Nat) : s.works (x.fire v) l :=
  h.trans ⟨rfl, fun a _ => State.reg_fire _ _ _, fun pg i hr => by rw [State.raised, State.fire_ev_raw]; exact hr⟩

theorem State.works_setRidge {s x : State} {l : List Nat} (h : s.works x l) (c : Nat) : (s.setRidge c).works (x.setRidge c) l :=
  ⟨congrArg (State.setRidge · c) h.1, h.2⟩

/-- The offsets of the registers that the reference's handover reaches. -/
def handOffs : List Nat := coastEndOffs ++ coastOffs

theorem State.works_handReference (s : State) (old new : Nat) :
    (s.setRidge new).works (s.handReference old new) handOffs := by
  unfold State.handReference
  extract_lets a lasting cause s1 s2 s3
  have h1 : s.works s1 handOffs := ((s.works_coastEnd old 0).trans (State.works_coastEnd _ new 0)).mono (List.subset_append_left _ _)
  have h2 : (s.setRidge new).works s2 handOffs := State.works_setRidge h1 new
  have h3 : (s.setRidge new).works s3 handOffs := h2.trans
    (State.works_foldl (fun x b => State.works_foldl (fun y k => State.works_setSill (.refl y _) _ _ _) _ x) _ s2)
  split
  · exact h3.trans ((State.works_coastStart _ _ _ _).mono (List.subset_append_right _ _))
  · exact h3

theorem State.works_followLocked (s : State) (old new : Nat) : s.works (s.followLocked old new) handOffs :=
  State.works_setBit (State.works_setBit (.refl s _) (mem_pkgp (by decide)) _ _) (mem_pkgp (by decide)) _ _

/-- The new ridge has the reference, and the purlin shows its followers (step 2 of R339). -/
def State.handTaken (u : State) (m : Mig) : State :=
  State.tbGather u ((u.handReference u.ridge m.target).followLocked u.ridge m.target) 0

theorem State.works_handTaken (u : State) (m : Mig) : (u.setRidge m.target).works (u.handTaken m) handOffs :=
  ((u.works_handReference _ _).trans (State.works_followLocked _ _ _)).trans (State.works_tbGather _ _ _ _)

/-- The migration is over, its skews are to be measured, and the sessions of the old ridge end. -/
def State.handOver (y : State) : State :=
  { y with tree := { y.tree with mig := none, skew := 2, lastHb := y.now }, spdm := { stage := 0, answer := none } }

/-- The migration is counted and stamped. -/
def State.handCounted (y : State) (g : Nat) : State :=
  (y.bump (hierPg + Off.HIER_MIG_COUNT)).wr80 (hierPg + Off.HIER_LAST_MIG_PT_LO) g

/-- The handover is told by HIER, PURLIN and both bents. -/
def State.handTold (y : State) (old new g : Nat) : State :=
  (((y.raiseAt hierPg 0 g 0 false).raiseAt purlinPg 3 g 0 false).raiseAt (bp old 0) 0 g 0 false).raiseAt (bp new 0) 0 g 0 false

/-- The offsets of the registers that the loss of a side port reaches. -/
def sideOffs : List Nat := [Off.EVENTS_SIDE_CTRL, Off.EVENTS_SIDE_STAT] ++
  (List.range 16).map Off.EVENTS_DMA_STAT ++ (List.range 16).map Off.EVENTS_DMA_ERR_COUNT

theorem State.works_dmaHalt (s : State) (b : Nat) {e : Nat} (he : e < 16) (cause : Nat) : s.works (s.dmaHalt b e cause) sideOffs := by
  have hstat : (evPg b + Off.EVENTS_DMA_STAT e) % 0x1000 ∈ sideOffs := mem_bp ⟨by unfold Off.EVENTS_DMA_STAT; omega,
    List.mem_append_left _ (List.mem_append_right _ (List.mem_map_of_mem (List.mem_range.mpr he)))⟩
  have herr : (evPg b + Off.EVENTS_DMA_ERR_COUNT e) % 0x1000 ∈ sideOffs := mem_bp ⟨by unfold Off.EVENTS_DMA_ERR_COUNT; omega,
    List.mem_append_right _ (List.mem_map_of_mem (List.mem_range.mpr he))⟩
  exact State.works_fire (State.works_standing (State.works_bump (State.works_setFld (State.works_setBit (.refl s _) hstat _ _)
    hstat _ _ _) herr) _ _ _) _

/-- The new ridge's side port goes down (R364). -/
def State.handSide (y : State) (new : Nat) : State := (y.setBit (evPg new + Off.EVENTS_SIDE_CTRL) 0 false).sideDown new

theorem State.works_handSide (y : State) (new : Nat) : y.works (y.handSide new) sideOffs := by
  have h0 : y.works (y.setBit (evPg new + Off.EVENTS_SIDE_CTRL) 0 false) sideOffs :=
    State.works_setBit (.refl y _) (mem_bp (by decide)) _ _
  unfold State.handSide State.sideDown
  split
  · exact h0
  · refine (State.works_latchHealth
      (State.works_wr h0 (a := evPg new + Off.EVENTS_SIDE_STAT) (mem_bp (by decide)) 0) (evPg new) 0x33).trans ?_
    refine foldl_rel (R := fun s x => s.works x sideOffs) (fun s => .refl s _) .trans (fun e he x => ?_) _
    split
    · exact x.works_dmaHalt new (List.mem_range.mp he) 3
    · exact .refl x _

/-- What stands after a handover but for candidacies and the fence of the old ridge. -/
def State.handed (u : State) (m : Mig) : State :=
  ((((u.handTaken m).handOver.handCounted (u.granCeil u.now)).handTold u.ridge m.target (u.granCeil u.now)).handSide m.target)

theorem bits_mod {lo len n : Nat} (v : Nat) (h : lo + len ≤ n) : bits (v % 2 ^ n) lo len = bits v lo len := by
  apply Nat.eq_of_testBit_eq
  intro i
  rw [testBit_bits, testBit_bits, Nat.testBit_mod_two_pow]
  by_cases hi : i < len
  · rw [decide_eq_true (by omega : lo + i < n), Bool.true_and]
  · rw [decide_eq_false hi, Bool.false_and, Bool.false_and]

theorem State.rd80_wr80 (s : State) (a v : Nat) : (s.wr80 a v).rd80 a = v % 2 ^ 80 := by
  have hmod : s.wr80 a v = s.wr80 a (v % 2 ^ 80) := by
    rw [State.wr80, State.wr80, bits_mod v (by decide), bits_mod v (by decide), bits_mod v (by decide)]
  rw [hmod]
  exact s.rd80_wr80_same a (Nat.mod_lt _ (by decide))

theorem State.handCounted_shows (y : State) (g : Nat) :
    (y.handCounted g).rd (hierPg + Off.HIER_MIG_COUNT) = satAdd (y.rd (hierPg + Off.HIER_MIG_COUNT)) 1 ∧
      (y.handCounted g).rd80 (hierPg + Off.HIER_LAST_MIG_PT_LO) = g % 2 ^ 80 := by
  refine ⟨?_, State.rd80_wr80 _ _ _⟩
  unfold State.handCounted State.wr80
  rw [State.rd_wr_ne _ _ (by decide), State.rd_wr_ne _ _ (by decide), State.rd_wr_ne _ _ (by decide), State.rd_bump_same]

theorem State.works_handTold (y : State) (old new g : Nat) (l : List Nat) : y.works (y.handTold old new g) l :=
  State.works_raiseAt (State.works_raiseAt (State.works_raiseAt (State.works_raiseAt (.refl y l) _ _ _ _ _) _ _ _ _ _) _ _ _ _ _)
    _ _ _ _ _

theorem State.handTold_raised (y : State) (old new g : Nat) :
    (y.handTold old new g).raised hierPg 0 = true ∧ (y.handTold old new g).raised purlinPg 3 = true := by
  have hmono : ∀ (x : State) (pg i pg' i' : Nat), x.raised pg i = true → (x.raiseAt pg' i' g 0 false).raised pg i = true :=
    fun x pg i pg' i' h => (State.works_raiseAt (.refl x []) pg' i' g 0 false).2.2 pg i h
  exact ⟨hmono _ _ _ _ _ (hmono _ _ _ _ _ (hmono _ _ _ _ _ (State.raised_raiseAt_same _ _ _ _ _ _))),
    hmono _ _ _ _ _ (hmono _ _ _ _ _ (State.raised_raiseAt_same _ _ _ _ _ _))⟩

theorem handover_next {s u : State} {t : PT} (hu : u = s.arrive t) {m : Mig} (hm : u.migTo = some m) {P : State → Prop}
    (h : P ((u.setRidge m.target).keepMem
      (if m.fence then (u.handed m).fenceBent u.ridge else u.handed m).candUpdate.settle)) :
    ∃ s', exec (.purlinHandover t) s = .next s' ∧ P s' := by
  have hridge : u.handedRidge = m.target := by rw [State.handedRidge, hm]
  subst hu
  rw [exec_purlinHandover]
  refine runRidge_next hridge ?_ h
  dsimp only
  rw [hm]
  rfl

theorem State.works.spdm {s x : State} {l : List Nat} (h : s.works x l) : x.spdm = s.spdm := by
  have he : x.sansSills.spdm = s.sansSills.spdm := congrArg State.spdm h.1
  exact he

/-- The offsets of the registers that stamp a handover. -/
def countOffs : List Nat := [Off.HIER_MIG_COUNT, Off.HIER_LAST_MIG_PT_LO, Off.HIER_LAST_MIG_PT_MID, Off.HIER_LAST_MIG_PT_HI]

theorem State.works_handCounted (y : State) (g : Nat) : y.works (y.handCounted g) countOffs :=
  State.works_wr80 (State.works_bump (.refl y _) (mem_pkgp (by decide))) (mem_pkgp (by decide)) (by decide) (by decide) g

theorem State.setSeen_mig (s : State) (on : Bool) : (s.setSeen on).tree.mig = s.tree.mig := rfl

theorem State.setSeen_skew (s : State) (on : Bool) : (s.setSeen on).tree.skew = s.tree.skew := rfl

/-- The end of a handover leaves its count and its stamp. -/
theorem State.works_handed (u : State) (m : Mig) : ((u.handTaken m).handOver.handCounted (u.granCeil u.now)).works
    (u.handed m) sideOffs := (State.works_handTold _ _ _ _ _).trans (State.works_handSide _ _)

theorem State.handed_raised (u : State) (m : Mig) : (u.handed m).raised hierPg 0 = true ∧ (u.handed m).raised purlinPg 3 = true := by
  obtain ⟨hhier, hpurlin⟩ := ((u.handTaken m).handOver.handCounted (u.granCeil u.now)).handTold_raised u.ridge m.target
    (u.granCeil u.now)
  have hside := State.works_handSide (((u.handTaken m).handOver.handCounted (u.granCeil u.now)).handTold u.ridge m.target
    (u.granCeil u.now)) m.target
  exact ⟨hside.2.2 _ _ hhier, hside.2.2 _ _ hpurlin⟩

/-- What a handover that fences nothing leaves, its candidacies brought up to date. -/
theorem State.handed_shows (u : State) (m : Mig) : (u.handed m).candUpdate.tree.mig = none ∧ (u.handed m).candUpdate.tree.skew = 2 ∧
    (u.handed m).candUpdate.rd (hierPg + Off.HIER_MIG_COUNT) = satAdd (u.rd (hierPg + Off.HIER_MIG_COUNT)) 1 ∧
    (u.handed m).candUpdate.rd80 (hierPg + Off.HIER_LAST_MIG_PT_LO) = u.granCeil u.now % 2 ^ 80 ∧
    (u.handed m).candUpdate.raised hierPg 0 = true ∧ (u.handed m).candUpdate.raised purlinPg 3 = true ∧
    (u.handed m).candUpdate.spdm = { stage := 0, answer := none } ∧ (u.handed m).candUpdate.mem = u.mem ∧
    (u.handed m).candUpdate.queues = u.queues ∧ (u.handed m).candUpdate.variant = u.variant := by
  have htaken := u.works_handTaken m
  have hcount := (u.handTaken m).handOver.works_handCounted (u.granCeil u.now)
  obtain ⟨hrd, hstamp⟩ := (u.handTaken m).handOver.handCounted_shows (u.granCeil u.now)
  obtain ⟨on, hcand⟩ := (u.handed m).works_candUpdate
  have hend := ((State.works_setSeen (u.works_handed m) on).mono (List.subset_append_left sideOffs candOffs)).trans
    (hcand.mono (List.subset_append_right sideOffs candOffs))
  obtain ⟨hhier, hpurlin⟩ := u.handed_raised m
  have hclear : ∀ o ∈ countOffs, o ∉ sideOffs ++ candOffs := by decide
  generalize (u.handTaken m).handOver.handCounted (u.granCeil u.now) = z at *
  generalize u.handTaken m = y at *
  refine ⟨?_, ?_, ?_, ?_, hcand.2.2 _ _ hhier, hcand.2.2 _ _ hpurlin, ?_, ?_, ?_, ?_⟩
  · rw [hend.tree, State.setSeen_mig, hcount.tree]
    rfl
  · rw [hend.tree, State.setSeen_skew, hcount.tree]
    rfl
  · rw [State.rd_of_reg (hend.2.1 (hierPg + Off.HIER_MIG_COUNT) (by decide))]
    exact hrd.trans (congrArg (satAdd · 1) (State.rd_of_reg (htaken.2.1 (hierPg + Off.HIER_MIG_COUNT) (by decide))))
  · refine (State.rd80_of_reg fun c hc => hend.2.1 c (hclear _ ?_)).trans hstamp
    revert c
    decide
  · exact hend.spdm.trans hcount.spdm
  · exact hend.mem.trans (hcount.mem.trans htaken.mem)
  · exact hend.queues.trans (hcount.queues.trans htaken.queues)
  · exact hend.variant.trans (hcount.variant.trans htaken.variant)

/-- At the handover the ridge changes, and the migration ends where it fences nothing (R339, R340). -/
theorem ridge_handed {s u : State} {t : PT} (hu : u = s.arrive t) {m : Mig} (hm : u.migTo = some m) :
    ∃ s', exec (.purlinHandover t) s = .next s' ∧ s'.ridge = m.target ∧
      (m.fence = false → s'.tree.mig = none ∧ s'.tree.skew = 2 ∧
        s'.rd (hierPg + Off.HIER_MIG_COUNT) = satAdd (u.rd (hierPg + Off.HIER_MIG_COUNT)) 1 ∧
        s'.rd80 (hierPg + Off.HIER_LAST_MIG_PT_LO) = u.granCeil u.now % 2 ^ 80 ∧ s'.raised hierPg 0 = true ∧
        s'.raised purlinPg 3 = true ∧ s'.spdm = { stage := 0, answer := none } ∧ s'.mem = u.mem ∧ s'.queues = u.queues) := by
  refine handover_next hu hm ⟨rfl, fun hf => ?_⟩
  rw [if_neg (by rw [hf]; decide)]
  obtain ⟨hmig, hskew, hcount, hstamp, hhier, hpurlin, hspdm, hmem, hqueues, hvar⟩ := u.handed_shows m
  have hreg := State.reg_keepMem_settle (u := u.setRidge m.target) hvar
  refine ⟨?_, ?_, (State.rd_of_reg (hreg _)).trans hcount, (State.rd80_of_reg fun c _ => hreg c).trans hstamp, ?_, ?_, ?_, ?_, ?_⟩
  · rw [State.keepMem_tree, State.settle_tree, hmig]
  · rw [State.keepMem_tree, State.settle_tree, hskew]
  · rw [State.raised_keepMem_settle, hhier]
  · rw [State.raised_keepMem_settle, hpurlin]
  · rw [State.keepMem_spdm, State.settle_spdm, hspdm]
  · rw [State.keepMem_mem, State.settle_mem, hmem]
  · rw [State.keepMem_queues, State.settle_queues, hqueues]

/-- Settles O45: each operation of the ridge's role by its own theorem. -/
theorem ridgeRole : Obligations.RidgeRole := by
  unfold Obligations.RidgeRole
  intro s u t hu
  refine ⟨fun c hno hc hpre => ridge_elected hu hno hc hpre, fun h => ridge_stays hu h, fun c ht hlock =>
    ⟨fun hc => migrate_refused hu ht hlock hc, fun hc hne hm he => migrate_starts hu ht hlock hc hne hm he⟩,
    heartbeat_taken hu, heartbeat_parity hu, fun h => heartbeat_early hu h,
    fun c hrun he hm hlate hc _ hw hq => heartbeat_lost hu hrun he hm hlate hc hw hq,
    fun m hm _ => ridge_handed hu hm, fun skews h => skew_ends hu skews h, fun hlock hs => reskew_asks hu hlock hs,
    fun b diff hb hne hrun hf => ⟨fun hd hc => marker_good hu hb hne hrun hf hd hc,
      fun hd hctrl => marker_coasts hu hb hne hrun hf hd hctrl,
      fun hd hctrl hw hq => marker_fences hu hb hne hrun hf hd hctrl hw hq⟩,
    fun b diff hb hne hrun hf => marker_replaces hu hb hne hrun hf⟩

end Sys2Proof.Machine
end

section
/-!
PROOFS. The sources of the timebase (R51–R61): qualification and loss, switches, the OCXO's warm-up and the crystal's ageing.
-/

namespace Sys2Proof.Machine

/-! ### What an operation leaves of the TIMEBASE page -/

/-- An operation leaves the TIMEBASE page but for some bits of SRC_STAT, and the OCXO's warm-up; of the rest, PT, the ridge and
the queues, and every event raised before stays raised. -/
structure State.sparesTb (s x : State) (l : List Nat) : Prop where
  variant : x.variant = s.variant
  ridge : x.ridge = s.ridge
  clk : x.clk = s.clk
  queues : x.queues = s.queues
  raised : ∀ pg i, s.raised pg i = true → x.raised pg i = true
  reg : ∀ a, tbPg ≤ a → a < tbPg + 0x1000 → a ≠ srcStat → x.reg a = s.reg a
  bits : s.keepsBits x srcStat l
  ready : x.tb.ready = s.tb.ready
  settled : x.tb.settled = s.tb.settled

/-- It also leaves the choice of the source, its moves, and every standing health code. -/
structure State.steady (s x : State) (l : List Nat) : Prop extends s.sparesTb x l where
  tb : x.tb = s.tb
  standing : x.ev.standing = s.ev.standing

/-- An address off the TIMEBASE page. -/
def offTb (a : Nat) : Prop := a < tbPg ∨ tbPg + 0x1000 ≤ a

/-- A register of a bent's page. -/
theorem offTb_bp {b p o : Nat} (hb : b < 8) (hp : p < 0x100) (ho : o < 0x1000) : offTb (bp b p + o) := by
  unfold offTb tbPg bp pkgp
  omega

theorem offTb_bp_add {b p o c : Nat} (hb : b < 8) (hp : p < 0x100) (ho : o + c < 0x1000) : offTb (bp b p + o + c) := by
  rw [Nat.add_assoc]
  exact offTb_bp hb hp ho

/-- A register of another package page. -/
theorem offTb_pkgp {q o : Nat} (hq : 2 ≤ q) : offTb (pkgp q + o) := by
  unfold offTb tbPg pkgp
  omega

/-- A package has at most eight bents. -/
theorem bents_le (v : Variant) : v.bents ≤ 8 := by cases v <;> decide

section Leaves

variable {s x y : State} {l m : List Nat}

theorem State.sparesTb.refl (s : State) (l : List Nat) : s.sparesTb s l :=
  ⟨rfl, rfl, rfl, rfl, fun _ _ h => h, fun _ _ _ _ => rfl, .refl s _ l, rfl, rfl⟩

theorem State.sparesTb.trans (h : s.sparesTb x l) (k : x.sparesTb y l) : s.sparesTb y l where
  variant := k.variant.trans h.variant
  ridge := k.ridge.trans h.ridge
  clk := k.clk.trans h.clk
  queues := k.queues.trans h.queues
  raised pg i hr := k.raised pg i (h.raised pg i hr)
  reg a h1 h2 h3 := (k.reg a h1 h2 h3).trans (h.reg a h1 h2 h3)
  bits := h.bits.trans k.bits
  ready := k.ready.trans h.ready
  settled := k.settled.trans h.settled

theorem State.sparesTb.mono (h : s.sparesTb x l) (hlm : l ⊆ m) : s.sparesTb x m :=
  { h with bits := fun i hi hm => h.bits i hi fun hl => hm (hlm hl) }

theorem State.steady.refl (s : State) (l : List Nat) : s.steady s l := ⟨.refl s l, rfl, rfl⟩

theorem State.steady.trans (h : s.steady x l) (k : x.steady y l) : s.steady y l :=
  ⟨h.tosparesTb.trans k.tosparesTb, k.tb.trans h.tb, k.standing.trans h.standing⟩

theorem State.steady_wr (h : s.steady x l) {a : Nat} (ha : offTb a) (v : Nat) : s.steady (x.wr a v) l := by
  have hne : ∀ c, tbPg ≤ c → c < tbPg + 0x1000 → c ≠ a := fun c h1 h2 e => by
    unfold offTb at ha
    omega
  have hsrc : srcStat ≠ a := hne srcStat (by decide) (by decide)
  exact h.trans ⟨⟨rfl, rfl, rfl, rfl, fun _ _ hr => hr, fun c h1 h2 _ => x.reg_wr_ne v (hne c h1 h2),
    State.keepsBits_of_reg (.refl x _ l) (x.reg_wr_ne v hsrc), rfl, rfl⟩, rfl, rfl⟩

theorem State.steady_setBit (h : s.steady x l) {a : Nat} (ha : offTb a) (i : Nat) (on : Bool) : s.steady (x.setBit a i on) l :=
  State.steady_wr h ha _

theorem State.steady_setFld (h : s.steady x l) {a : Nat} (ha : offTb a) (lo len v : Nat) : s.steady (x.setFld a lo len v) l :=
  State.steady_wr h ha _

theorem State.steady_bump (h : s.steady x l) {a : Nat} (ha : offTb a) : s.steady (x.bump a) l := State.steady_wr h ha _

/-- Some bits of SRC_STAT put. -/
theorem State.steady_setSrc (h : s.steady x l) {lo len : Nat} (hl : ∀ i, lo ≤ i → i < lo + len → i ∈ l) (v : Nat) :
    s.steady (x.setFld srcStat lo len v) l :=
  h.trans ⟨⟨rfl, rfl, rfl, rfl, fun _ _ hr => hr, fun _ _ _ hc => x.reg_wr_ne _ hc,
    State.keepsBits_setFld (.refl x _ l) srcStat hl v, rfl, rfl⟩, rfl, rfl⟩

theorem State.steady_setSrcBit (h : s.steady x l) {i : Nat} (hi : i ∈ l) (on : Bool) : s.steady (x.setBit srcStat i on) l :=
  State.steady_setSrc h (fun j h1 h2 => by rwa [show j = i by omega]) _

theorem State.steady_raise (h : s.steady x l) (pg i : Nat) : s.steady (x.raise pg i) l :=
  h.trans ⟨⟨x.raise_variant _ _, x.raise_ridge _ _, x.raise_clk _ _, x.raise_queues _ _,
    fun _ _ hr => State.raised_raise_mono hr pg i, fun _ _ _ _ => x.reg_raise _ _ _,
    State.keepsBits_of_reg (.refl x _ l) (x.reg_raise _ _ _), by rw [x.raise_tb], by rw [x.raise_tb]⟩,
    x.raise_tb _ _, (x.raiseAt_raw_standing pg i x.now 0 false).2⟩

/-- Neither a register nor an event, nor what else is left. -/
theorem State.steady_of (h : s.steady x l) (hr : y.regs = x.regs) (he : y.ev = x.ev) (ht : y.tb = x.tb)
    (hv : y.variant = x.variant) (hb : y.ridge = x.ridge) (hc : y.clk = x.clk) (hq : y.queues = x.queues) : s.steady y l :=
  h.trans ⟨⟨hv, hb, hc, hq, fun pg i hx => by rw [State.raised, he]; exact hx, fun a _ _ _ => State.reg_congr a hr hv,
    State.keepsBits_of_reg (.refl x _ l) (State.reg_congr _ hr hv), by rw [ht], by rw [ht]⟩, ht, by rw [he]⟩

theorem State.steady_setSill (h : s.steady x l) (b k : Nat) (z : Sill) : s.steady (x.setSill b k z) l :=
  State.steady_of h rfl rfl rfl rfl rfl rfl rfl

theorem State.steady_category (h : s.steady x l) (c b : Nat) (on : Bool) : s.steady (x.category c b on) l :=
  h.trans ⟨⟨rfl, rfl, rfl, rfl, fun _ _ hr => hr, fun _ _ _ _ => rfl, .refl x _ l, rfl, rfl⟩, rfl, rfl⟩

theorem State.steady_foldl {α : Type} {f : State → α → State} (m : List α)
    (hf : ∀ (s : State), ∀ a ∈ m, s.steady (f s a) l) (s : State) : s.steady (m.foldl f s) l := by
  induction m generalizing s with
  | nil => exact .refl s l
  | cons a m ih =>
    exact (hf s a List.mem_cons_self).trans (ih (fun s c hc => hf s c (List.mem_cons_of_mem a hc)) _)

end Leaves

/-! ### Coasts of a bent (R76, R77, R79) -/

theorem State.steady_coastCaps (s : State) (b p : Nat) (l : List Nat) : s.steady (s.coastCaps b p) l := by
  unfold State.coastCaps
  refine State.steady_foldl _ (fun y i _ => ?_) s
  exact State.steady_of (.refl y l) rfl rfl rfl rfl rfl rfl rfl

theorem State.steady_coastShots (s : State) (b p : Nat) (l : List Nat) : s.steady (s.coastShots b p) l := by
  unfold State.coastShots
  refine State.steady_foldl _ (fun y q _ => ?_) s
  dsimp only
  split
  · exact State.steady_of (.refl y l) rfl rfl rfl rfl rfl rfl rfl
  · exact .refl y l

/-- RIDGE_COAST stands on the pages of the followers' sills. -/
theorem State.steady_ridgeCoast (s : State) (on : Bool) (l : List Nat) : s.steady (s.ridgeCoast on) l := by
  unfold State.ridgeCoast State.others
  refine State.steady_foldl _ (fun y c hc => ?_) s
  have hc8 : c < 8 := (List.mem_range.mp (List.mem_filter.mp hc).1).trans_le (bents_le _)
  exact State.steady_setBit (State.steady_setBit (.refl y l) (offTb_bp hc8 (by decide) (by decide)) _ _)
    (offTb_bp hc8 (by decide) (by decide)) _ _

section Coast

variable {s : State} {b : Nat}

theorem State.steady_coastMark (hb : b < 8) {k : Nat} (hk : k < 2) (cause last : Nat) (l : List Nat) :
    s.steady (s.coastMark b k cause last) l := by
  have hoff : ∀ o, o < 0x1000 → offTb (sillPg b k + o) := fun o ho => offTb_bp hb (by omega) ho
  have hadd : ∀ o c, o + c < 0x1000 → offTb (sillPg b k + o + c) := fun o c ho => offTb_bp_add hb (by omega) ho
  exact State.steady_wr (State.steady_wr (State.steady_wr (State.steady_wr (State.steady_wr (.refl s l) (hoff _ (by decide)) _)
    (hoff _ (by decide)) _) (hadd _ _ (by decide)) _) (hadd _ _ (by decide)) _) (hoff _ (by decide)) _

theorem State.steady_coastFreeze (hb : b < 8) {k : Nat} (hk : k < 2) (l : List Nat) : s.steady (s.coastFreeze b k) l := by
  have hoff : ∀ o, o < 0x1000 → offTb (sillPg b k + o) := fun o ho => offTb_bp hb (by omega) ho
  have hcount := State.steady_setSill (State.steady_bump (.refl s l) (hoff Off.SILL_COAST_COUNT (by decide))) b k
    { s.sill b k with coastAt := s.now, goOn := false }
  refine State.steady_raise (hcount.trans ?_) _ _
  unfold State.freezeWord
  dsimp only
  split
  · exact State.steady_setSill (.refl _ l) _ _ _
  · exact State.steady_wr (State.steady_setSill (.refl _ l) _ _ _) (hoff _ (by decide)) _

theorem State.steady_coastSpread (ridge purlin : Bool) (last : Nat) : s.steady (s.coastSpread b ridge purlin last) [3] := by
  have hridge : s.steady (s.coastRidge ridge) [3] := by
    unfold State.coastRidge
    split
    · exact (State.steady_setSrcBit (.refl s _) (by decide) _).trans (State.steady_ridgeCoast _ _ _)
    · exact .refl s _
  have hpurlin : ∀ y : State, y.steady (y.coastPurlin b purlin) [3] := fun y => by
    unfold State.coastPurlin
    split
    · exact State.steady_raise (State.steady_setBit (State.steady_bump (.refl y _) (offTb_pkgp (by decide)))
        (offTb_pkgp (by decide)) _ _) _ _
    · exact .refl y _
  exact hridge.trans ((hpurlin _).trans (State.steady_foldl _ (fun y c _ => y.steady_coastCaps c last _) _))

/-- Of the TIMEBASE page the start of a coast puts COASTING. -/
theorem State.steady_coastStart (hb : b < 8) (cause last : Nat) : s.steady (s.coastStart b cause last) [3] := by
  cases h : s.bit (sillStat b (s.activeSill b)) 3 with
  | true =>
    rw [State.coastStart_coasting h]
    exact .refl s _
  | false =>
    rw [State.coastStart_eq h]
    exact (State.steady_coastMark hb (s.activeSill_lt b) cause last _).trans
      ((State.steady_coastFreeze hb (s.activeSill_lt b) _).trans (State.steady_coastSpread _ _ _))

theorem State.steady_acqStart (hb : b < 8) {k : Nat} (hk : k < 2) (l : List Nat) : s.steady (s.acqStart b k) l :=
  State.steady_setSill (State.steady_setFld (State.steady_wr (.refl s l) (offTb_bp hb (by omega) (by decide)) _)
    (offTb_bp hb (by omega) (by decide)) _ _ _) _ _ _

/-- Of the TIMEBASE page the end of a coast puts COASTING. -/
theorem State.steady_coastEnd (hb : b < 8) (phase : Int) : s.steady (s.coastEnd b phase) [3] := by
  have hk := s.activeSill_lt b
  unfold State.coastEnd
  extract_lets k pg last s0 ms st s1 cfg pull _ s2 s3 s4 s5
  have hoff : ∀ o, o < 0x1000 → offTb (sillPg b k + o) := fun o ho => offTb_bp hb (by unfold k; omega) ho
  have h0 : s.steady s0 [3] :=
    State.steady_foldl _ (fun x c _ => (x.steady_coastShots c last _).trans (State.steady_coastCaps _ c last _)) s
  clear_value s0
  have h1 : s.steady s1 [3] := State.steady_wr (State.steady_wr (State.steady_wr h0 (hoff _ (by decide)) _)
    (hoff _ (by decide)) _) (hoff _ (by decide)) _
  clear_value s1
  have h2 : s.steady s2 [3] := State.steady_setSill (State.steady_raise h1 _ _) _ _ _
  clear_value s2
  have h3 : s.steady s3 [3] := State.steady_setSill (State.steady_setSill h2 _ _ _) _ _ _
  clear_value s3
  have h4 : s.steady s4 [3] := by
    unfold s4
    split
    · exact h3.trans (State.steady_acqStart hb hk _)
    · exact h3
  clear_value s4
  have h5 : s.steady s5 [3] := State.steady_setBit h4 (offTb_pkgp (by decide)) _ _
  clear_value s5
  split
  · exact .refl s _
  · split
    · exact State.steady_category ((State.steady_setSrcBit h5 (by decide) _).trans (State.steady_ridgeCoast _ _ _)) _ _ _
    · exact h5

end Coast

/-- The gathering of conditions reaches nothing of the TIMEBASE page. -/
theorem State.steady_tbGather (s0 s : State) (p : Nat) (l : List Nat) : s.steady (State.tbGather s0 s p) l := by
  unfold State.tbGather
  refine State.steady_foldl _ (fun y b _ => ?_) s
  have htius : ∀ z : State, z.steady ((List.range 4).foldl (fun s u =>
      if (s.tiu b u).armed then s.setTiu b u { s.tiu b u with tb := (s.tiu b u).tb ||| s.tbBits b ||| p } else s) z) l :=
    State.steady_foldl _ (fun z u _ => by
      split
      · exact State.steady_of (.refl z l) rfl rfl rfl rfl rfl rfl rfl
      · exact .refl z l)
  have hfres : ∀ z : State, z.steady ((List.range 2).foldl (fun s e =>
      s.setFre b e { s.fre b e with gate := (s.fre b e).gate.map fun g => { g with tb := g.tb ||| s.tbBits b ||| p } }) z) l :=
    State.steady_foldl _ (fun z e _ => State.steady_of (.refl z l) rfl rfl rfl rfl rfl rfl rfl)
  dsimp only
  split
  · exact State.steady_raise ((htius y).trans (hfres _)) _ _
  · exact (htius y).trans (hfres _)

end Sys2Proof.Machine
end

section
/-!
PROOFS. The choice of a source (R54–R57, R59, R60): what a switch, a loss and a candidacy put on the TIMEBASE page.
-/

namespace Sys2Proof.Machine

/-! ### NO_SOURCE (R56) -/

section Choice

variable {s x y : State} {l : List Nat}

theorem State.sparesTb_raise (h : s.sparesTb x l) (pg i : Nat) : s.sparesTb (x.raise pg i) l :=
  h.trans (State.steady_raise (.refl x l) pg i).tosparesTb

theorem State.sparesTb_standing (h : s.sparesTb x l) (pg c : Nat) (on : Bool) : s.sparesTb (x.standing pg c on) l := by
  have hset : s.sparesTb { x with ev := { x.ev with standing := setPut x.ev.standing (pg * 256 + c) on } } l :=
    h.trans ⟨rfl, rfl, rfl, rfl, fun _ _ hr => hr, fun _ _ _ _ => rfl, .refl x _ l, rfl, rfl⟩
  unfold State.standing
  dsimp only
  split
  · exact State.sparesTb_raise hset _ _
  · exact hset

theorem State.sparesTb_noSourceIs (h : s.sparesTb x l) (on : Bool) : s.sparesTb (x.noSourceIs on) l := by
  have hset := (State.sparesTb_standing h tbPg 0x4F on).trans (State.steady_category (.refl _ l) 2 8 on).tosparesTb
  unfold State.noSourceIs
  dsimp only
  split
  · exact State.sparesTb_raise hset _ _
  · exact hset

/-- Moves and the choice put in the timebase's state, with the warm-up as it was. -/
theorem State.sparesTb_tb (h : s.sparesTb x l) (z : Tb) (hr : z.ready = x.tb.ready) (hs : z.settled = x.tb.settled) :
    s.sparesTb { x with tb := z } l :=
  h.trans ⟨rfl, rfl, rfl, rfl, fun _ _ hr => hr, fun _ _ _ _ => rfl, .refl x _ l, hr, hs⟩

theorem State.sparesTb_rebase (h : s.sparesTb x l) : s.sparesTb x.rebase l := State.sparesTb_tb h x.rebase.tb rfl rfl

theorem State.sparesTb_discReset (h : s.sparesTb x l) : s.sparesTb x.discReset l := State.sparesTb_tb h x.discReset.tb rfl rfl

theorem State.sparesTb_setSrcBit (h : s.sparesTb x l) {i : Nat} (hi : i ∈ l) (on : Bool) :
    s.sparesTb (x.setBit srcStat i on) l := h.trans (State.steady_setSrcBit (.refl x l) hi on).tosparesTb

/-- IN_FORCE put. -/
theorem State.sparesTb_setInForce (h : s.sparesTb x l) (h0 : 0 ∈ l) (h1 : 1 ∈ l) (c : Nat) :
    s.sparesTb (x.setFld srcStat 0 2 c) l := h.trans (State.steady_setSrc (.refl x l) (fun i _ hi => by
  rcases (show i = 0 ∨ i = 1 by omega) with rfl | rfl <;> assumption) c).tosparesTb

end Choice

@[simp] theorem State.noSourceIs_tb (s : State) (on : Bool) : (s.noSourceIs on).tb = s.tb := by
  unfold State.noSourceIs
  dsimp only
  split <;> simp

theorem State.stands_noSourceIs (s : State) (on : Bool) : (s.noSourceIs on).stands tbPg 0x4F = on := by
  have hset : ((s.standing tbPg 0x4F on).category 2 8 on).stands tbPg 0x4F = on := s.stands_standing_same tbPg 0x4F on
  unfold State.noSourceIs
  dsimp only
  split
  · rw [State.stands_raise, hset]
  · exact hset

theorem State.raised_noSourceIs {s : State} (h : s.stands tbPg 0x4F = false) : (s.noSourceIs true).raised tbPg 3 = true := by
  unfold State.noSourceIs
  dsimp only
  rw [h, if_pos (by rfl), State.raised_raise_same]

/-- What stands after an operation that leaves the standing codes. -/
theorem State.steady.stands {s x : State} {l : List Nat} (h : s.steady x l) (pg c : Nat) : x.stands pg c = s.stands pg c := by
  rw [State.stands, h.standing, State.stands]

/-! ### Switches and losses (R54–R57) -/

section Sources

variable {s : State}

/-- The choice of a switch's source, with the moves of earlier ones ended (R57 step 1, R59, R63). -/
def State.switchChoice (s : State) (c : Nat) : State :=
  { (s.noSourceIs false).discReset.setBit srcStat 2 false with
    tb := { (s.noSourceIs false).discReset.tb with switchTo := some c, steer := 0 } }

theorem State.switchStart_eq (s : State) (c : Nat) :
    s.switchStart c = (s.switchChoice c).coastStart s.ridge 3 (s.lastGood s.ridge) := rfl

theorem State.sparesTb_switchChoice (s : State) (c : Nat) : s.sparesTb (s.switchChoice c) [2] := by
  have hdisc : s.sparesTb (s.noSourceIs false).discReset [2] :=
    State.sparesTb_discReset (State.sparesTb_noSourceIs (.refl s _) false)
  exact State.sparesTb_tb (State.sparesTb_setSrcBit hdisc (by decide) false)
    { (s.noSourceIs false).discReset.tb with switchTo := some c, steer := 0 } rfl rfl

/-- A switch that starts has its source, and NO_SOURCE does not stand (R57 step 1). -/
theorem State.switchStart_shows (hb : s.ridge < 8) (c : Nat) : s.sparesTb (s.switchStart c) [2, 3] ∧
    (s.switchStart c).tb.switchTo = some c ∧ (s.switchStart c).stands tbPg 0x4F = false := by
  have hchoice := s.sparesTb_switchChoice c
  have hcoast := State.steady_coastStart (s := s.switchChoice c) hb 3 (s.lastGood s.ridge)
  rw [State.switchStart_eq]
  refine ⟨(hchoice.mono (by decide)).trans (hcoast.tosparesTb.mono (by decide)), ?_, ?_⟩
  · rw [hcoast.tb]
    rfl
  · rw [hcoast.stands]
    exact s.stands_noSourceIs false

/-- No source in force, and `c` the one whose phase the lattice carries (R56). -/
def State.noneInForce (s : State) (c : Option Nat) : State :=
  { s.rebase.setFld srcStat 0 2 3 with tb := { s.rebase.tb with switchTo := none, lost := c } }.setBit srcStat 4 false

theorem State.noSource_eq (s : State) (c : Option Nat) :
    s.noSource c = ((s.noneInForce c).noSourceIs true).coastStart s.ridge 0 (s.lastGood s.ridge) := rfl

theorem State.sparesTb_noneInForce (s : State) (c : Option Nat) : s.sparesTb (s.noneInForce c) [0, 1, 4] := by
  have hfld : s.sparesTb (s.rebase.setFld srcStat 0 2 3) [0, 1, 4] :=
    State.sparesTb_setInForce (State.sparesTb_rebase (.refl s _)) (by decide) (by decide) 3
  exact State.sparesTb_setSrcBit (State.sparesTb_tb hfld { s.rebase.tb with switchTo := none, lost := c } rfl rfl)
    (by decide) false

theorem State.srcNow_noneInForce (s : State) (c : Option Nat) : (s.noneInForce c).srcNow = 3 := by
  have hfld : (s.rebase.setFld srcStat 0 2 3).fld srcStat 0 2 = 3 := State.fld_setFld_same _ _ _ _ _ (by decide)
  refine Eq.trans (State.keepsBits.fld (State.keepsBits_setBit (.refl _ srcStat [4]) srcStat (by decide) (by decide) false)
    (by decide) fun i _ h => ?_) hfld
  simp only [List.mem_cons, List.not_mem_nil, or_false]
  omega

/-- SRC_STAT.IN_FORCE stays while its bits do. -/
theorem State.sparesTb.srcNow {x : State} {l : List Nat} (h : s.sparesTb x l) (h0 : 0 ∉ l) (h1 : 1 ∉ l) : x.srcNow = s.srcNow :=
  h.bits.fld (by decide) fun i _ hi => by
    rcases (show i = 0 ∨ i = 1 by omega) with rfl | rfl <;> assumption

/-- No source is qualified: none is in force, and NO_SOURCE stands with its event (R56). -/
theorem State.noSource_shows (hb : s.ridge < 8) (c : Option Nat) : s.sparesTb (s.noSource c) [0, 1, 3, 4] ∧
    (s.noSource c).srcNow = 3 ∧ (s.noSource c).tb.lost = c ∧ (s.noSource c).stands tbPg 0x4F = true ∧
    (s.stands tbPg 0x4F = false → (s.noSource c).raised tbPg 3 = true) := by
  have hnone := s.sparesTb_noneInForce c
  have hno : (s.noneInForce c).sparesTb ((s.noneInForce c).noSourceIs true) [] := State.sparesTb_noSourceIs (.refl _ _) true
  have hcoast := State.steady_coastStart (s := (s.noneInForce c).noSourceIs true) hb 0 (s.lastGood s.ridge)
  have hafter := (hno.mono (List.nil_subset [3])).trans hcoast.tosparesTb
  rw [State.noSource_eq]
  refine ⟨(hnone.mono (by decide)).trans (hafter.mono (by decide)), ?_, ?_, ?_, fun h => ?_⟩
  · rw [hafter.srcNow (by decide) (by decide), State.srcNow_noneInForce]
  · rw [hcoast.tb, State.noSourceIs_tb]
    rfl
  · rw [hcoast.stands, State.stands_noSourceIs]
  · exact hcoast.raised _ _ (State.raised_noSourceIs h)

theorem State.sparesTb_nextSource (hb : s.ridge < 8) (lost : Option Nat) : s.sparesTb (s.nextSource lost) [0, 1, 2, 3, 4] := by
  unfold State.nextSource
  split
  · exact (State.switchStart_shows hb _).1.mono (by decide)
  · exact (State.noSource_shows hb _).1.mono (by decide)

/-- The source that has lost its qualification, with the instant (R52). -/
def State.unqualify (s : State) (c : Nat) : State := (s.setBit srcStat (8 + c) false).setSince c (some s.now)

theorem State.sparesTb_unqualify (s : State) (c : Nat) : s.sparesTb (s.unqualify c) [5, 8 + c] :=
  State.sparesTb_tb (State.sparesTb_setSrcBit (.refl s _) (by simp) false) (s.unqualify c).tb rfl rfl

/-- The source lost, with FORCED cleared: what a source that held the choice leaves (R55). -/
def State.unforce (s : State) (c : Nat) : State := (s.unqualify c).setBit srcStat 5 false

theorem State.sparesTb_unforce (s : State) (c : Nat) : s.sparesTb (s.unforce c) [5, 8 + c] :=
  State.sparesTb_setSrcBit (s.sparesTb_unqualify c) (by simp) false

theorem State.srcLose_eq (s : State) (c : Nat) : s.srcLose c =
    if !s.clk.running then
      (if s.tb.switchTo = some c then { s.unforce c with tb := { (s.unforce c).tb with switchTo := none } } else s.unqualify c)
    else if s.joined then s.unqualify c
    else if s.inForce? = some c then
      (if s.tb.switchTo.isSome then (if s.qualified c then (s.unqualify c).raise tbPg 1 else s.unqualify c)
       else ((s.unforce c).raise tbPg 1).nextSource (some c))
    else if s.tb.switchTo = some c then (s.unforce c).nextSource (s.inForce?.orElse fun _ => s.tb.lost)
    else s.unqualify c := rfl

/-- A loss reaches of SRC_STAT neither the levels nor the other sources' qualification. -/
theorem State.sparesTb_srcLose (hb : s.ridge < 8) (c : Nat) : s.sparesTb (s.srcLose c) [0, 1, 2, 3, 4, 5, 8 + c] := by
  have hq := (s.sparesTb_unqualify c).mono (m := [0, 1, 2, 3, 4, 5, 8 + c]) (by simp)
  have hf := (s.sparesTb_unforce c).mono (m := [0, 1, 2, 3, 4, 5, 8 + c]) (by simp)
  have hnext : ∀ (y : State) (lost : Option Nat), s.sparesTb y [0, 1, 2, 3, 4, 5, 8 + c] →
      s.sparesTb (y.nextSource lost) [0, 1, 2, 3, 4, 5, 8 + c] := fun y lost hy =>
    hy.trans ((State.sparesTb_nextSource (hy.ridge ▸ hb) lost).mono (by simp))
  rw [State.srcLose_eq]
  split
  · split
    · exact State.sparesTb_tb hf _ rfl rfl
    · exact hq
  split
  · exact hq
  split
  · split
    · split
      · exact State.sparesTb_raise hq _ _
      · exact hq
    · exact hnext _ _ (State.sparesTb_raise hf _ _)
  split
  · exact hnext _ _ hf
  · exact hq

theorem State.sparesTb_srcReconsider (hb : s.ridge < 8) : s.sparesTb s.srcReconsider [2, 3] := by
  unfold State.srcReconsider
  split
  · exact .refl s _
  split
  · split
    · exact (State.switchStart_shows hb _).1
    · exact .refl s _
  · exact (State.switchStart_shows hb _).1
  · exact .refl s _

theorem State.steady_warmStart (s : State) (l : List Nat) : s.steady s.warmStart l := by
  unfold State.warmStart
  split
  · exact State.steady_raise (.refl s l) _ _
  · exact .refl s l

theorem State.steady_warmUpdate (s : State) : s.steady s.warmUpdate [4] := State.steady_setSrcBit (.refl s _) (by decide) _

end Sources

end Sys2Proof.Machine
end

section
/-!
PROOFS. The qualification and the loss of a source (R52–R54, R56).
-/

namespace Sys2Proof.Machine

/-! ### Outcomes with the conditions gathered (R252) -/

section Outcome

variable {u x : State} (v : State) (p : Nat)

theorem State.variant_tbGather (s0 s : State) : (State.tbGather s0 s p).variant = s.variant :=
  (State.steady_tbGather s0 s p []).variant

theorem State.reg_keep_gathered (hv : x.variant = u.variant) (a : Nat) :
    (u.keep (State.tbGather v x p).settle).reg a = x.reg a :=
  (State.reg_keep_settle ((State.variant_tbGather p v x).trans hv) a).trans (State.reg_tbGather v x p a)

theorem State.bit_keep_gathered (hv : x.variant = u.variant) (a i : Nat) :
    (u.keep (State.tbGather v x p).settle).bit a i = x.bit a i := State.bit_of_reg (State.reg_keep_gathered v p hv a) i

theorem State.raised_keep_gathered {pg i : Nat} (h : x.raised pg i = true) :
    (u.keep (State.tbGather v x p).settle).raised pg i = true := by
  rw [State.raised_keep_settle]
  exact (State.steady_tbGather v x p []).raised pg i h

theorem State.stands_keep_gathered (pg c : Nat) : (u.keep (State.tbGather v x p).settle).stands pg c = x.stands pg c := by
  rw [State.stands_keep_settle, (State.steady_tbGather v x p []).stands]

theorem State.tb_keep_gathered : (u.keep (State.tbGather v x p).settle).tb = x.tb := by
  rw [State.keep_tb, State.settle_tb, (State.steady_tbGather v x p []).tb]

theorem State.queues_keep_gathered : (u.keep (State.tbGather v x p).settle).queues = x.queues := by
  rw [State.keep_queues, State.settle_queues, (State.steady_tbGather v x p []).queues]

/-- What a command leaves whose effect reaches registers, events and the timebase, its conditions gathered. -/
theorem State.keep_gathered (hx : x = { u with regs := x.regs, ev := x.ev, tb := x.tb }) :
    u.keep (State.tbGather v x p).settle = { u with
      regs := (u.keep (State.tbGather v x p).settle).regs, ev := (u.keep (State.tbGather v x p).settle).ev
      tb := (u.keep (State.tbGather v x p).settle).tb, tius := (u.keep (State.tbGather v x p).settle).tius
      fres := (u.keep (State.tbGather v x p).settle).fres } := by
  obtain ⟨i, f, e, hgather⟩ := State.tbGather_cases v x p
  rw [State.keep_settle, hgather, hx]

end Outcome

/-- A source is qualified by its bit of SRC_STAT. -/
theorem State.qualified_src (s : State) (src : Source) : s.qualified (srcNo src) = s.bit srcStat (8 + srcNo src) := by
  cases src <;> rfl

theorem srcNo_lt (src : Source) : srcNo src < 3 := by cases src <;> decide

theorem State.ridge_lt {s : State} (h : s.has s.ridge = true) : s.ridge < 8 :=
  (of_decide_eq_true h).trans_le (bents_le s.variant)

/-- JOINED stands on no register of the TIMEBASE page. -/
theorem State.joined_setSrcBit (s : State) (i : Nat) (on : Bool) : (s.setBit srcStat i on).joined = s.joined :=
  State.bit_of_reg (State.reg_setBit_ne s i on (by decide)) 4

/-! ### SOURCE_QUALIFIED (R52, R54, R56) -/

/-- A source that has become qualified, with its event. -/
def State.qualify (s : State) (c : Nat) : State := (s.setBit srcStat (8 + c) true).raise tbPg 2

theorem State.steady_qualify (s : State) (c : Nat) : s.steady (s.qualify c) [8 + c] :=
  State.steady_raise (State.steady_setSrcBit (.refl s _) (by simp) true) _ _

theorem State.onlyRegs_qualify (s : State) (c : Nat) : s.onlyRegs (s.qualify c) :=
  (s.onlyRegs_setBit _ _ _).trans (State.onlyRegs_raise _ _ _)

theorem State.joined_qualify (s : State) (c : Nat) : (s.qualify c).joined = s.joined :=
  (State.bit_of_reg (State.reg_raise _ _ _ _) 4).trans (s.joined_setSrcBit (8 + c) true)

theorem State.qualified_qualify (s : State) (src : Source) : (s.qualify (srcNo src)).bit srcStat (8 + srcNo src) = true := by
  have hlt := srcNo_lt src
  rw [State.qualify, State.bit_raise, State.bit_setBit_same _ _ _ _ (by omega)]

/-- A source that has passed its tests becomes qualified, and while PT runs it is considered (R52, R54). -/
theorem sourceQualified_next {s u : State} {t : PT} {src : Source} {test : SrcTest} (hu : u = s.arrive t)
    (hmay : u.mayQualify (srcNo src) = true) (hq : u.qualified (srcNo src) = false) (hlong : u.passedLong (srcNo src) = true)
    (hfreq : u.freqTested (srcNo src) = true → u.freqOk (srcNo src) test.lo = true ∧ u.freqOk (srcNo src) test.hi = true) :
    exec (.sourceQualified t src test) s = .next (u.keep (State.settle
      (if !u.clk.running || u.joined then u.qualify (srcNo src)
        else (u.qualify (srcNo src)).gathered fun s => s.nowQualified (srcNo src) test.phase))) := by
  have htest : ¬ (!u.mayQualify (srcNo src) || !u.passedLong (srcNo src) ||
      (u.freqTested (srcNo src) && !(u.freqOk (srcNo src) test.lo && u.freqOk (srcNo src) test.hi))) = true := by
    rw [hmay, hlong]
    cases h : u.freqTested (srcNo src) with
    | false => simp
    | true => simp [hfreq h]
  have hclk : (u.qualify (srcNo src)).clk = u.clk := (u.steady_qualify (srcNo src)).clk
  rw [← hclk, ← u.joined_qualify (srcNo src)]
  subst hu
  rw [exec_sourceQualified]
  unfold execSourceQualified runAt
  dsimp only
  rw [if_neg htest, if_neg (by rw [hq]; decide)]
  rfl

/-- Before PT runs the sender of SOURCE_QUALIFIED has measured RETURN_QUAL. -/
theorem State.passedLong_stopped {s : State} (h : s.clk.running = false) (c : Nat) : s.passedLong c = true := by
  unfold State.passedLong
  rw [h]
  split <;> rfl

theorem source_qualified_stopped {s u : State} {t : PT} {src : Source} {test : SrcTest} (hu : u = s.arrive t)
    (hmay : u.mayQualify (srcNo src) = true) (hq : u.qualified (srcNo src) = false) (hrun : u.clk.running = false) :
    ∃ s', exec (.sourceQualified t src test) s = .next s' ∧ s'.qualified (srcNo src) = true ∧ s'.raised tbPg 2 = true ∧
      u.sameRegs s' [srcStat] ∧ s' = { u with regs := s'.regs, ev := s'.ev } := by
  have hexec := sourceQualified_next (test := test) hu hmay hq (State.passedLong_stopped hrun _) (fun h => by
    simp [State.freqTested, hrun] at h)
  rw [hrun, if_pos (by rfl)] at hexec
  have hvar := (u.steady_qualify (srcNo src)).variant
  refine ⟨_, hexec, ?_, ?_, ?_, ?_⟩
  · rw [State.qualified_src, State.bit_of_reg (State.reg_keep_settle hvar _)]
    exact u.qualified_qualify src
  · rw [State.raised_keep_settle]
    exact State.raised_raise_same _ _ _
  · refine State.sameRegs_keep (fun a ha => ?_) hvar
    exact (State.reg_raise _ _ _ _).trans (State.reg_setBit_ne _ _ _ (by simpa using ha))
  · exact (u.onlyRegs_qualify (srcNo src)).keep

/-- With none in force the source is switched to, unless it is the one that was lost (R54, R56). -/
theorem State.nowQualified_switches {s : State} {c : Nat} (hsw : s.tb.switchTo = none) (hnow : s.srcNow = 3)
    (hord : c ∈ s.srcOrder) (hlost : s.tb.lost ≠ some c) (phase : Int) : s.nowQualified c phase = s.switchStart c := by
  unfold State.nowQualified
  rw [hsw, hnow, if_neg (by decide), if_pos (by decide), if_neg (by simpa using hord), if_neg (by simpa using hlost)]

/-- The order of the sources is SRC_PRIO's. -/
theorem State.srcOrder_of_reg {s x : State} (h : x.reg (tbPg + Off.TIMEBASE_SRC_PRIO) = s.reg (tbPg + Off.TIMEBASE_SRC_PRIO)) :
    x.srcOrder = s.srcOrder := by
  unfold State.srcOrder
  rw [State.rd_of_reg h]

theorem State.sparesTb.srcOrder {s x : State} {l : List Nat} (h : s.sparesTb x l) : x.srcOrder = s.srcOrder :=
  State.srcOrder_of_reg (h.reg _ (by decide) (by decide) (by decide))

theorem source_qualified_running {s u : State} {t : PT} {src : Source} {test : SrcTest} (hu : u = s.arrive t)
    (hb : u.has u.ridge = true) (hmay : u.mayQualify (srcNo src) = true) (hq : u.qualified (srcNo src) = false)
    (hrun : u.clk.running = true) (hlong : u.passedLong (srcNo src) = true) (hlo : u.freqOk (srcNo src) test.lo = true)
    (hhi : u.freqOk (srcNo src) test.hi = true) (hord : srcNo src ∈ u.srcOrder) (hjoin : u.joined = false)
    (hsw : u.tb.switchTo = none) (hnow : u.srcNow = 3) (hlost : u.tb.lost ≠ some (srcNo src)) :
    ∃ s', exec (.sourceQualified t src test) s = .next s' ∧ s'.qualified (srcNo src) = true ∧
      s'.tb.switchTo = some (srcNo src) ∧ s'.stands tbPg 0x4F = false ∧ s'.mem = u.mem := by
  have hexec := sourceQualified_next hu hmay hq hlong (fun _ => ⟨hlo, hhi⟩)
  have hlt := srcNo_lt src
  have hqual := u.steady_qualify (srcNo src)
  have hswitch : (u.qualify (srcNo src)).nowQualified (srcNo src) test.phase = (u.qualify (srcNo src)).switchStart (srcNo src) :=
    State.nowQualified_switches (by rw [hqual.tb, hsw])
      (by rw [hqual.srcNow (by simp; omega) (by simp; omega), hnow]) (by rw [hqual.srcOrder]; exact hord)
      (by rw [hqual.tb]; exact hlost) _
  rw [hrun, hjoin, if_neg (by decide), State.gathered, hswitch] at hexec
  obtain ⟨hspares, hchoice, hstands⟩ := State.switchStart_shows (s := u.qualify (srcNo src))
    (by rw [hqual.ridge]; exact State.ridge_lt hb) (srcNo src)
  refine ⟨_, hexec, ?_, ?_, ?_, State.keep_mem _ _⟩
  · rw [State.qualified_src, State.bit_keep_gathered _ _ (hspares.variant.trans hqual.variant),
      hspares.bits _ (by omega) (by simp; omega)]
    exact u.qualified_qualify src
  · rw [State.tb_keep_gathered, hchoice]
  · rw [State.stands_keep_gathered, hstands]

/-! ### SRC_LOST (R52–R54, R56) -/

theorem State.qualified_unqualify (s : State) (src : Source) : (s.unqualify (srcNo src)).bit srcStat (8 + srcNo src) = false := by
  have hlt := srcNo_lt src
  exact State.bit_setBit_same s srcStat _ false (by omega)

/-- The source in force lost, with its event: FORCED clears (R54, R55). -/
def State.forceLost (s : State) (c : Nat) : State := (s.unforce c).raise tbPg 1

theorem State.sparesTb_forceLost (s : State) (c : Nat) : s.sparesTb (s.forceLost c) [5, 8 + c] :=
  State.sparesTb_raise (s.sparesTb_unforce c) _ _

theorem State.qualified_forceLost (s : State) (src : Source) :
    (s.forceLost (srcNo src)).bit srcStat (8 + srcNo src) = false := by
  have hlt := srcNo_lt src
  rw [State.forceLost, State.bit_raise, State.unforce, State.bit_setBit_ne _ _ _ (by decide) (by omega)]
  exact s.qualified_unqualify src

/-- What the search for a source looks at. -/
theorem State.bestSource_congr {s x : State} (hreg : x.reg (tbPg + Off.TIMEBASE_SRC_PRIO) = s.reg (tbPg + Off.TIMEBASE_SRC_PRIO))
    (hbit : ∀ c, c < 3 → x.bit srcStat (8 + c) = s.bit srcStat (8 + c)) : x.bestSource = s.bestSource := by
  have hq : ∀ c, x.qualified c = s.qualified c := fun c => by
    unfold State.qualified
    by_cases h : c < 3
    · rw [hbit c h]
    · simp [h]
  unfold State.bestSource
  rw [State.srcOrder_of_reg hreg]
  simp only [hq]

theorem State.bestSource_forceLost (s : State) (c : Nat) : (s.forceLost c).bestSource =
    (s.setBit srcStat (8 + c) false).bestSource := by
  refine State.bestSource_congr ?_ fun d hd => ?_
  · exact (State.reg_raise _ _ _ _).trans (State.reg_setBit_ne _ _ _ (by decide))
  · rw [State.forceLost, State.bit_raise, State.unforce, State.bit_setBit_ne _ _ _ (by decide) (by omega)]
    rfl

theorem State.stands_forceLost (s : State) (c : Nat) : (s.forceLost c).stands tbPg 0x4F = s.stands tbPg 0x4F :=
  State.stands_raise _ _ _ _ _

/-- The source in force, failing a test or voted out, gives way (R53, R54). -/
theorem srcLost_next {s u : State} {t : PT} {m : SrcFreqs} (hu : u = s.arrive t)
    (hfail : u.srcFails (srcNo m.src) (fun c => [m.f0, m.f1, m.f2].getD c 0) = true) (hrun : u.clk.running = true)
    (hjoin : u.joined = false) (hsw : u.tb.switchTo = none) (hin : u.inForce? = some (srcNo m.src)) :
    exec (.srcLost t m) s = .next (u.keep (State.settle (State.tbGather u
      ((u.forceLost (srcNo m.src)).nextSource (some (srcNo m.src))) 0))) := by
  have hlose : u.srcLose (srcNo m.src) = (u.forceLost (srcNo m.src)).nextSource (some (srcNo m.src)) := by
    rw [State.srcLose_eq, hrun, if_neg (by decide), if_neg (by rw [hjoin]; decide), if_pos hin, hsw, if_neg (by decide)]
    rfl
  rw [← hlose]
  subst hu
  rw [exec_srcLost]
  unfold execSrcLost runAt
  dsimp only
  rw [if_pos hfail]
  rfl

theorem srcLost_switches {s u : State} {t : PT} {src : Source} {d f0 f1 f2 : Nat} (hu : u = s.arrive t)
    (hb : u.has u.ridge = true) (hfail : u.srcFails (srcNo src) (fun c => [f0, f1, f2].getD c 0) = true)
    (hrun : u.clk.running = true) (hjoin : u.joined = false) (hsw : u.tb.switchTo = none)
    (hin : u.inForce? = some (srcNo src)) (hbest : (u.setBit srcStat (8 + srcNo src) false).bestSource = some d) :
    ∃ s', exec (.srcLost t ⟨src, f0, f1, f2⟩) s = .next s' ∧ s'.qualified (srcNo src) = false ∧ s'.tb.switchTo = some d ∧
      s'.raised tbPg 1 = true ∧ s'.mem = u.mem := by
  have hlt := srcNo_lt src
  have hlost := u.sparesTb_forceLost (srcNo src)
  have hexec := srcLost_next (m := ⟨src, f0, f1, f2⟩) hu hfail hrun hjoin hsw hin
  dsimp only at hexec
  rw [State.nextSource, u.bestSource_forceLost, hbest] at hexec
  obtain ⟨hspares, hchoice, -⟩ := State.switchStart_shows (s := u.forceLost (srcNo src))
    (by rw [hlost.ridge]; exact State.ridge_lt hb) d
  refine ⟨_, hexec, ?_, ?_, ?_, State.keep_mem _ _⟩
  · rw [State.qualified_src, State.bit_keep_gathered _ _ (hspares.variant.trans hlost.variant),
      hspares.bits _ (by omega) (by simp; omega)]
    exact u.qualified_forceLost src
  · rw [State.tb_keep_gathered, hchoice]
  · exact State.raised_keep_gathered _ _ (hspares.raised _ _ (State.raised_raise_same _ _ _))

theorem srcLost_none {s u : State} {t : PT} {src : Source} {f0 f1 f2 : Nat} (hu : u = s.arrive t)
    (hb : u.has u.ridge = true) (hfail : u.srcFails (srcNo src) (fun c => [f0, f1, f2].getD c 0) = true)
    (hstands : u.stands tbPg 0x4F = false) (hrun : u.clk.running = true) (hjoin : u.joined = false)
    (hsw : u.tb.switchTo = none) (hin : u.inForce? = some (srcNo src))
    (hbest : (u.setBit srcStat (8 + srcNo src) false).bestSource = none) :
    ∃ s', exec (.srcLost t ⟨src, f0, f1, f2⟩) s = .next s' ∧ s'.qualified (srcNo src) = false ∧ s'.srcNow = 3 ∧
      s'.tb.lost = some (srcNo src) ∧ s'.stands tbPg 0x4F = true ∧ s'.raised tbPg 3 = true ∧ s'.mem = u.mem := by
  have hlt := srcNo_lt src
  have hlost := u.sparesTb_forceLost (srcNo src)
  have hexec := srcLost_next (m := ⟨src, f0, f1, f2⟩) hu hfail hrun hjoin hsw hin
  dsimp only at hexec
  rw [State.nextSource, u.bestSource_forceLost, hbest] at hexec
  obtain ⟨hspares, hnow, hphase, hcode, hraised⟩ := State.noSource_shows (s := u.forceLost (srcNo src))
    (by rw [hlost.ridge]; exact State.ridge_lt hb) (some (srcNo src))
  have hvar := hspares.variant.trans hlost.variant
  refine ⟨_, hexec, ?_, ?_, ?_, ?_, ?_, State.keep_mem _ _⟩
  · rw [State.qualified_src, State.bit_keep_gathered _ _ hvar, hspares.bits _ (by omega) (by simp; omega)]
    exact u.qualified_forceLost src
  · rw [State.srcNow, State.fld, State.rd_of_reg (State.reg_keep_gathered _ _ hvar _)]
    exact hnow
  · rw [State.tb_keep_gathered, hphase]
  · rw [State.stands_keep_gathered, hcode]
  · exact State.raised_keep_gathered _ _ (hraised ((u.stands_forceLost _).trans hstands))

end Sys2Proof.Machine
end

section
/-!
PROOFS. The commands of a switch (R55, R57, R59).
-/

namespace Sys2Proof.Machine

/-! ### SWITCH_CMD (R55) -/

/-- A source is forced. -/
def State.forceSource (s : State) : State := s.setBit srcStat 5 true

theorem State.steady_forceSource (s : State) : s.steady s.forceSource [5] := State.steady_setSrcBit (.refl s _) (by decide) true

theorem State.forceSource_bit (s : State) : s.forceSource.bit srcStat 5 = true := State.bit_setBit_same _ _ _ _ (by decide)

/-- The source in force is IN_FORCE's. -/
theorem State.inForce_congr {s x : State} (h : x.srcNow = s.srcNow) : x.inForce? = s.inForce? := by
  rw [State.inForce?, State.inForce?, h]

/-- A source forced and, unless it is in force already, selected: before the first lock for that lock (R55, log entry 164). -/
def State.forceTo (s : State) (c : Nat) : State :=
  if !s.forceSource.clk.running then { s.forceSource with tb := { s.forceSource.tb with switchTo := some c } }
  else if s.forceSource.inForce? == some c && s.forceSource.tb.switchTo.isNone then s.forceSource
  else s.forceSource.switchStart c

/-- SWITCH_CMD forces a qualified source of a package that is not joined. -/
theorem switchCmd_next {s u : State} {t : PT} {c : Fin 4} (hu : u = s.arrive t) (hlock : u.locked tbPg = false)
    (hq : u.qualified c = true) (hjoin : u.joined = false) :
    exec (.switchCmd t c) s = .next (u.keep (State.settle (State.tbGather u (u.forceTo c) 0))) := by
  subst hu
  rw [exec_switchCmd]
  unfold execSwitchCmd runAt
  dsimp only
  rw [State.command_unlocked hlock, if_neg (by rw [hq]; decide), if_neg (by rw [hjoin]; decide)]
  rfl

theorem switchCmd_switches {s u : State} {t : PT} {c : Fin 4} (hu : u = s.arrive t) (hb : u.has u.ridge = true)
    (hlock : u.locked tbPg = false) (hq : u.qualified c = true) (hrun : u.clk.running = true) (hjoin : u.joined = false)
    (hin : u.inForce? ≠ some c.val) :
    ∃ s', exec (.switchCmd t c) s = .next s' ∧ s'.tb.switchTo = some c.val ∧ s'.bit srcStat 5 = true ∧ s'.mem = u.mem := by
  have hforce := u.steady_forceSource
  have hne : (u.forceSource.inForce? == some c.val) = false := by
    rw [State.inForce_congr (hforce.srcNow (by decide) (by decide))]
    simpa using hin
  have hto : u.forceTo c = u.forceSource.switchStart c := by
    rw [State.forceTo, hforce.clk, hrun, if_neg (by decide), hne, if_neg (by simp)]
  obtain ⟨hspares, hchoice, -⟩ := State.switchStart_shows (s := u.forceSource) (State.ridge_lt hb) c
  refine ⟨_, switchCmd_next hu hlock hq hjoin, ?_, ?_, State.keep_mem _ _⟩
  · rw [State.tb_keep_gathered, hto, hchoice]
  · rw [hto, State.bit_keep_gathered _ _ (hspares.variant.trans hforce.variant), hspares.bits 5 (by decide) (by decide),
      State.forceSource_bit]

/-- Before the first lock SWITCH_CMD selects the source to lock to (log entry 164). -/
theorem switchCmd_selects {s u : State} {t : PT} {c : Fin 4} (hu : u = s.arrive t) (hlock : u.locked tbPg = false)
    (hq : u.qualified c = true) (hrun : u.clk.running = false) (hjoin : u.joined = false) :
    ∃ s', exec (.switchCmd t c) s = .next s' ∧ s'.tb = { u.tb with switchTo := some c.val } ∧ s'.bit srcStat 5 = true ∧
      u.sameRegs s' [srcStat] ∧ s'.mem = u.mem := by
  have hto : u.forceTo c = { u.forceSource with tb := { u.tb with switchTo := some c.val } } := by
    rw [State.forceTo, u.steady_forceSource.clk, hrun, if_pos (by rfl), u.steady_forceSource.tb]
  have hexec := switchCmd_next hu hlock hq hjoin
  rw [hto] at hexec
  refine ⟨_, hexec, State.tb_keep_gathered _ _, ?_, fun a ha => ?_, State.keep_mem _ _⟩
  · rw [State.bit_keep_gathered _ _ (by rfl)]
    exact u.forceSource_bit
  · rw [State.reg_keep_gathered _ _ (by rfl)]
    exact State.reg_setBit_ne u 5 true (by simpa using ha)

theorem switchCmd_refused {s u : State} {t : PT} {c : Fin 4} (hu : u = s.arrive t) (hlock : u.locked tbPg = false)
    (hq : u.qualified c = false) :
    ∃ s', exec (.switchCmd t c) s = .next s' ∧ s'.isLatched tbPg 0x4E = true ∧ s' = { u with ev := s'.ev } := by
  subst hu
  rw [exec_switchCmd]
  refine runAt_next (x := (s.arrive t).latchHealth tbPg 0x4E) ?_ ⟨?_, ?_⟩
  · rw [State.command_unlocked hlock, if_pos (by rw [hq]; rfl)]
  · rw [State.isLatched_keep_settle, State.isLatched_latchHealth_same]
  · rw [State.keep_settle]
    rfl

/-! ### SWITCHED (R57 step 3, R59) -/

/-- The timebase as the new source is taken: the choice is over, and its frequency offset is to be steered out. -/
def State.trackedTb (s : State) (freq : BitVec 32) : Tb :=
  { s.discReset.tb with switchTo := none, lost := none, steer := freq.toInt }

/-- The coast of a switch over, with the offset to steer out. -/
def State.resumed (s : State) (freq : BitVec 32) : State :=
  ({ s.discReset with tb := s.trackedTb freq }).coastEnd s.ridge 0

/-- The new source in force, with STEERING while there is an offset to steer out. -/
def State.tracked (s : State) (c : Nat) (freq : BitVec 32) : State :=
  (((s.resumed freq).setFld srcStat 0 2 c).setBit srcStat 2 (freq != 0)).noSourceIs false

/-- A switch ended and counted, before the order is considered again. -/
def State.switchTaken (s : State) (c : Nat) (freq : BitVec 32) : State := (s.tracked c freq).takeReference.warmStart.warmUpdate

theorem State.switchDone_eq (s : State) (c : Nat) (freq : BitVec 32) :
    s.switchDone c freq = (s.switchTaken c freq).srcReconsider := rfl

section Switched

variable {u : State} {c : Nat} {freq : BitVec 32}

theorem State.resumed_shows (hb : u.ridge < 8) : u.sparesTb (u.resumed freq) [3] ∧ (u.resumed freq).tb = u.trackedTb freq := by
  have htb : u.sparesTb { u.discReset with tb := u.trackedTb freq } [3] :=
    State.sparesTb_tb (State.sparesTb_discReset (.refl u _)) (u.trackedTb freq) rfl rfl
  have hcoast := State.steady_coastEnd (s := { u.discReset with tb := u.trackedTb freq }) hb 0
  exact ⟨htb.trans hcoast.tosparesTb, hcoast.tb⟩

/-- The new source in force, and whether there is an offset to steer out. -/
theorem State.tracked_shows (hb : u.ridge < 8) (hc : c < 3) : u.sparesTb (u.tracked c freq) [0, 1, 2, 3] ∧
    (u.tracked c freq).tb = u.trackedTb freq ∧ (u.tracked c freq).srcNow = c ∧
    (u.tracked c freq).bit srcStat 2 = (freq != 0) := by
  obtain ⟨hspares, htb⟩ := State.resumed_shows (u := u) (freq := freq) hb
  have hput : u.sparesTb (((u.resumed freq).setFld srcStat 0 2 c).setBit srcStat 2 (freq != 0)) [0, 1, 2, 3] :=
    State.sparesTb_setSrcBit (State.sparesTb_setInForce (hspares.mono (by decide)) (by decide) (by decide) c) (by decide) _
  have hsrc : (u.tracked c freq).reg srcStat =
      (((u.resumed freq).setFld srcStat 0 2 c).setBit srcStat 2 (freq != 0)).reg srcStat :=
    (State.works_noSourceIs (.refl _ []) false).2.1 _ (by simp)
  have hfld : ((u.resumed freq).setFld srcStat 0 2 c).srcNow = c := by
    rw [State.srcNow, State.fld_setFld_same _ _ _ _ _ (by decide)]
    exact Nat.mod_eq_of_lt (by omega)
  have hsteer : ((u.resumed freq).setFld srcStat 0 2 c).steady
      (((u.resumed freq).setFld srcStat 0 2 c).setBit srcStat 2 (freq != 0)) [2] :=
    State.steady_setSrcBit (.refl _ _) (by decide) _
  refine ⟨State.sparesTb_noSourceIs hput false, ?_, ?_, ?_⟩
  · rw [State.tracked, State.noSourceIs_tb]
    exact htb
  · rw [State.srcNow, State.fld, State.rd_of_reg hsrc]
    exact (hsteer.srcNow (by decide) (by decide)).trans hfld
  · rw [State.bit_of_reg hsrc, State.bit_setBit_same _ _ _ _ (by decide)]

/-- The count of a switch and its PT stand on the TIMEBASE page, and SRC_STAT is none of them. -/
theorem State.takeReference_reg (s : State) {a : Nat} (ha : a < tbPg + Off.TIMEBASE_SWITCH_COUNT) :
    s.takeReference.reg a = s.reg a := by
  have hne : ∀ c, tbPg + Off.TIMEBASE_SWITCH_COUNT ≤ c → a ≠ c := fun c hc => by omega
  unfold State.takeReference State.wr80
  rw [State.reg_raise, State.reg_wr_ne _ _ (hne _ (by decide)), State.reg_wr_ne _ _ (hne _ (by decide)),
    State.reg_wr_ne _ _ (hne _ (by decide)), State.reg_bump_ne _ (hne _ (by decide))]

theorem State.takeReference_count (s : State) : s.takeReference.rd (tbPg + Off.TIMEBASE_SWITCH_COUNT) =
    satAdd (s.rd (tbPg + Off.TIMEBASE_SWITCH_COUNT)) 1 := by
  unfold State.takeReference State.wr80
  rw [State.rd_raise, State.rd_wr_ne _ _ (by decide), State.rd_wr_ne _ _ (by decide), State.rd_wr_ne _ _ (by decide),
    State.rd_bump_same]

theorem State.onlyRegs_takeReference (s : State) : s.onlyRegs s.takeReference :=
  ((s.onlyRegs_wr _ _).trans (State.onlyRegs_wr80 _ _ _)).trans (State.onlyRegs_raise _ _ _)

/-- The warm-up after a switch reaches WARMING only. -/
theorem State.steady_switchTaken (s : State) (c : Nat) (freq : BitVec 32) :
    (s.tracked c freq).takeReference.steady (s.switchTaken c freq) [4] :=
  (State.steady_warmStart _ _).trans (State.steady_warmUpdate _)

/-- What a switch that has ended leaves: the sources' qualification, their order and FORCED. -/
theorem State.switchTaken_leaves (hb : u.ridge < 8) (hc : c < 3) : (u.switchTaken c freq).variant = u.variant ∧
    (u.switchTaken c freq).ridge = u.ridge ∧ (u.switchTaken c freq).bestSource = u.bestSource ∧
    (u.switchTaken c freq).bit srcStat 5 = u.bit srcStat 5 := by
  obtain ⟨hspares, -⟩ := State.tracked_shows (u := u) (freq := freq) hb hc
  obtain ⟨r, e, honly⟩ := (u.tracked c freq).onlyRegs_takeReference
  have hwarm := u.steady_switchTaken c freq
  have hbit : u.keepsBits (u.switchTaken c freq) srcStat [0, 1, 2, 3, 4] :=
    (State.keepsBits_of_reg (hspares.mono (by decide)).bits ((u.tracked c freq).takeReference_reg (by decide))).trans
      (hwarm.tosparesTb.mono (by decide)).bits
  refine ⟨?_, ?_, State.bestSource_congr ?_ fun d hd => hbit _ (by omega) (by simp; omega), hbit 5 (by decide) (by decide)⟩
  · rw [hwarm.variant, honly]
    exact hspares.variant
  · rw [hwarm.ridge, honly]
    exact hspares.ridge
  · rw [hwarm.reg _ (by decide) (by decide) (by decide), State.takeReference_reg _ (by decide),
      hspares.reg _ (by decide) (by decide) (by decide)]

/-- A switch that has ended: the new source in force with its offset to steer out, counted and told (R57 step 3). -/
theorem State.switchTaken_shows (hb : u.ridge < 8) (hc : c < 3) : (u.switchTaken c freq).tb = u.trackedTb freq ∧
    (u.switchTaken c freq).srcNow = c ∧ (u.switchTaken c freq).bit srcStat 2 = (freq != 0) ∧
    (u.switchTaken c freq).rd (tbPg + Off.TIMEBASE_SWITCH_COUNT) = satAdd (u.rd (tbPg + Off.TIMEBASE_SWITCH_COUNT)) 1 ∧
    (u.switchTaken c freq).raised tbPg 0 = true := by
  obtain ⟨hspares, htb, hnow, hsteer⟩ := State.tracked_shows (u := u) (freq := freq) hb hc
  have hsrc := (u.tracked c freq).takeReference_reg (a := srcStat) (by decide)
  have hcount := hspares.reg (tbPg + Off.TIMEBASE_SWITCH_COUNT) (by decide) (by decide) (by decide)
  have hwarm := u.steady_switchTaken c freq
  refine ⟨?_, ?_, ?_, ?_, hwarm.raised _ _ (State.raised_raise_same _ _ _)⟩
  · obtain ⟨r, e, honly⟩ := (u.tracked c freq).onlyRegs_takeReference
    rw [hwarm.tb, honly]
    exact htb
  · rw [hwarm.srcNow (by decide) (by decide), State.srcNow, State.fld, State.rd_of_reg hsrc]
    exact hnow
  · rw [hwarm.bits 2 (by decide) (by decide), State.bit_of_reg hsrc, hsteer]
  · rw [State.rd_of_reg (hwarm.reg _ (by decide) (by decide) (by decide)), State.takeReference_count, State.rd_of_reg hcount]

/-- The order does not move off its first qualified source, nor off a forced one (R54, R55). -/
theorem State.srcReconsider_stays {s : State} {c : Nat} (hnow : s.srcNow = c) (hc : c < 3)
    (h : s.bestSource = some c ∨ s.bit srcStat 5 = true) : s.srcReconsider = s := by
  have hin : s.inForce? = some c := by rw [State.inForce?, hnow, if_pos hc]
  unfold State.srcReconsider
  rcases h with hbest | hforced
  · rw [hin, hbest]
    simp [State.srcBefore]
  · rw [hforced]
    simp

/-- An offset that a move starts with now is what is left to steer. -/
theorem rampAt_start (start target : Int) (rate : Nat) : rampAt start target rate 0 = start := by
  have hclamp : ∀ i : Int, clampI 0 0 i = 0 := fun i => by
    unfold clampI
    split_ifs <;> omega
  simp [rampAt, hclamp]

theorem State.steerNow_start {s : State} (h : s.tb.offAt = s.now) : s.steerNow = s.tb.steer := by
  rw [State.steerNow, h, Nat.sub_self, rampAt_start]

end Switched

theorem source_switched {s u : State} {t : PT} {c : Fin 3} {freq : BitVec 32} (hu : u = s.arrive t)
    (hb : u.has u.ridge = true) (hsw : u.tb.switchTo = some c.val) (hq : u.qualified c = true) (hrun : u.clk.running = true) :
    ∃ s', exec (.switched t freq) s = .next s' ∧ s'.srcNow = c ∧
      (u.bestSource = some c.val ∨ u.bit srcStat 5 = true → s'.steerNow = freq.toInt ∧ s'.bit srcStat 2 = (freq != 0)) ∧
      s'.rd (tbPg + Off.TIMEBASE_SWITCH_COUNT) = satAdd (u.rd (tbPg + Off.TIMEBASE_SWITCH_COUNT)) 1 ∧
      s'.raised tbPg 0 = true ∧ s'.mem = u.mem := by
  have hexec : exec (.switched t freq) s = .next (u.keep (State.settle (State.tbGather u (u.switchDone c freq) 0x80))) := by
    subst hu
    rw [exec_switched]
    unfold execSwitched runAt
    dsimp only
    rw [hsw]
    dsimp only
    rw [if_pos (by rw [hq, hrun]; rfl)]
  obtain ⟨hvar, hridge, hbest, hforced⟩ := State.switchTaken_leaves (freq := freq) (State.ridge_lt hb) c.isLt
  obtain ⟨htb, hnow, hsteer, hcount, hraised⟩ := State.switchTaken_shows (freq := freq) (State.ridge_lt hb) c.isLt
  have hafter := State.sparesTb_srcReconsider (s := u.switchTaken c freq) (hridge ▸ State.ridge_lt hb)
  have hvar' := hafter.variant.trans hvar
  rw [State.switchDone_eq] at hexec
  refine ⟨_, hexec, ?_, fun h => ?_, ?_, ?_, State.keep_mem _ _⟩
  · rw [State.srcNow, State.fld, State.rd_of_reg (State.reg_keep_gathered _ _ hvar' _)]
    exact (hafter.srcNow (by decide) (by decide)).trans hnow
  · rw [State.srcReconsider_stays hnow c.isLt (by rw [hbest, hforced]; exact h)]
    constructor
    · rw [State.steerNow_start, State.tb_keep_gathered, htb]
      · rfl
      · rw [State.tb_keep_gathered, htb]
        rfl
    · rw [State.bit_keep_gathered _ _ hvar, hsteer]
  · rw [State.rd_of_reg (State.reg_keep_gathered _ _ hvar' _),
      State.rd_of_reg (hafter.reg _ (by decide) (by decide) (by decide)), hcount]
  · exact State.raised_keep_gathered _ _ (hafter.raised _ _ hraised)

end Sys2Proof.Machine
end

section
/-!
PROOFS. The end of steering, the OCXO's warm-up and the crystal's ageing (R57, R60, R61), and the theorem that settles O9.
-/

namespace Sys2Proof.Machine

/-! ### STEERING_DONE (R57 step 5) -/

theorem steering_done {s u : State} {t : PT} (hu : u = s.arrive t) (hsteer : u.bit srcStat 2 = true) (hzero : u.steerNow = 0) :
    ∃ s', exec (.steeringDone t) s = .next s' ∧ s'.bit srcStat 2 = false ∧ s'.steerNow = 0 ∧ u.sameRegs s' [srcStat] ∧
      s' = { u with regs := s'.regs, ev := s'.ev, tb := s'.tb, tius := s'.tius, fres := s'.fres } := by
  subst hu
  rw [exec_steeringDone]
  refine runAt_next (x := State.tbGather (s.arrive t) ((s.arrive t).rebase.setBit srcStat 2 false) 0) ?_
    ⟨?_, ?_, fun a ha => ?_, ?_⟩
  · rw [State.onlyIf, hsteer, hzero]
    rfl
  · rw [State.bit_keep_gathered _ _ (by rfl), State.bit_setBit_same _ _ _ _ (by decide)]
  · rw [State.steerNow_start]
    · rw [State.tb_keep_gathered]
      exact hzero
    · rw [State.tb_keep_gathered]
      rfl
  · rw [State.reg_keep_gathered _ _ (by rfl)]
    exact State.reg_setBit_ne (s.arrive t).rebase 2 false (by simpa using ha)
  · exact State.keep_gathered _ _ rfl

/-! ### OCXO_READY (R60) -/

theorem State.steady_setSeen {s x : State} {l : List Nat} (h : s.steady x l) (on : Bool) : s.steady (x.setSeen on) l :=
  State.steady_of h rfl rfl rfl rfl rfl rfl rfl

theorem State.steady_candStep (seen : Bool) (s : State) {b : Nat} (hb : b < 8) : s.steady (s.candStep seen b) [] := by
  have h1 : s.steady (s.setBit (hierPg + Off.HIER_CAND) (16 + b) seen) [] :=
    State.steady_setBit (.refl s _) (offTb_pkgp (by decide)) _ _
  unfold State.candStep
  dsimp only
  split
  · exact h1
  · exact State.steady_raise (State.steady_setSeen (State.steady_raise (State.steady_setBit (State.steady_setBit h1
      (offTb_pkgp (by decide)) _ _) (offTb_bp hb (by decide) (by decide)) _ _) _ _) _) _ _

/-- Candidacies reach no register of the TIMEBASE page (R335). -/
theorem State.sparesTb_candUpdate (s : State) : s.sparesTb s.candUpdate [] := by
  have hbefore : s.sparesTb s.noSourceBefore [] := by
    unfold State.noSourceBefore
    split
    · exact State.sparesTb_noSourceIs (.refl s _) _
    · exact .refl s _
  rw [State.candUpdate_eq]
  exact hbefore.trans (State.steady_foldl _ (fun x b hb => State.steady_candStep _ x
    ((List.mem_range.mp hb).trans_le (bents_le _))) _).tosparesTb

/-- Nor do sills that start to acquire (R86). -/
theorem State.steady_acquire (s : State) : s.steady s.acquire [] := by
  unfold State.acquire
  refine State.steady_foldl _ (fun x b hb => State.steady_foldl _ (fun y k hk => ?_) x) s
  have hb8 : b < 8 := (List.mem_range.mp hb).trans_le (bents_le _)
  have hk2 : k < 2 := by
    simp only [List.mem_cons, List.not_mem_nil, or_false] at hk
    omega
  split
  · exact State.steady_acqStart hb8 hk2 _
  · exact .refl y _

/-- The pin's level, and the candidacies and acquisitions that follow it. -/
def State.readyPin (s : State) (level : Bool) : State := (s.setBit srcStat 11 level).candUpdate.acquire

theorem State.readyPin_shows (s : State) (level : Bool) : s.sparesTb (s.readyPin level) [11] ∧
    (s.readyPin level).bit srcStat 11 = level := by
  have hafter : (s.setBit srcStat 11 level).sparesTb (s.readyPin level) [] :=
    (State.sparesTb_candUpdate _).trans (State.steady_acquire _).tosparesTb
  refine ⟨(State.sparesTb_setSrcBit (.refl s _) (by decide) level).trans (hafter.mono (by decide)), ?_⟩
  rw [hafter.bits 11 (by decide) (by decide), State.bit_setBit_same _ _ _ _ (by decide)]

/-- The instant since which the pin has been high. -/
def State.readySince (s : State) : State := { s with tb := { s.tb with ready := s.tb.ready.orElse fun _ => some s.now } }

theorem ocxo_high {s u : State} {t : PT} (hu : u = s.arrive t) : ∃ s', exec (.ocxoReadyChange t true) s = .next s' ∧
    s'.bit srcStat 11 = true ∧ s'.tb.ready = some (u.tb.ready.getD u.now) ∧ s'.mem = u.mem ∧ s'.queues = u.queues := by
  obtain ⟨hspares, hlevel⟩ := u.readyPin_shows true
  have hready : (u.readyPin true).readySince.tb.ready = some (u.tb.ready.getD u.now) := by
    change ((u.readyPin true).tb.ready.orElse fun _ => some (u.readyPin true).now) = _
    rw [hspares.ready, State.now, hspares.clk]
    cases u.tb.ready <;> rfl
  subst hu
  rw [exec_ocxoReadyChange]
  refine runAt_next (x := State.tbGather ((s.arrive t).readyPin true) ((s.arrive t).readyPin true).readySince 0) (by rfl)
    ⟨?_, ?_, State.keep_mem _ _, ?_⟩
  · rw [State.bit_keep_gathered _ _ (by exact hspares.variant)]
    exact hlevel
  · rw [State.tb_keep_gathered]
    exact hready
  · rw [State.queues_keep_gathered]
    exact hspares.queues

/-- The warm-up set back (R60). -/
def State.setCold (s : State) : State := { s with tb := { s.tb with ready := none, settled := false } }

/-- The warm-up set back, and under WARM_HOLD the OCXO lost (R60). -/
def State.cooled (s : State) : State :=
  (if s.setCold.bit (tbPg + Off.TIMEBASE_WARM_CTRL) 0 then s.setCold else s.setCold.srcLose 1).warmUpdate

theorem State.sparesTb_cooled {s : State} (hb : s.ridge < 8) : s.setCold.sparesTb s.cooled [0, 1, 2, 3, 4, 5, 9] := by
  have hlose : s.setCold.sparesTb (if s.setCold.bit (tbPg + Off.TIMEBASE_WARM_CTRL) 0 then s.setCold else s.setCold.srcLose 1)
      [0, 1, 2, 3, 4, 5, 9] := by
    split
    · exact .refl _ _
    · exact State.sparesTb_srcLose (s := s.setCold) hb 1
  exact State.sparesTb_setSrcBit hlose (by decide) _

theorem ocxo_low {s u : State} {t : PT} (hu : u = s.arrive t) (hb : u.has u.ridge = true) :
    ∃ s', exec (.ocxoReadyChange t false) s = .next s' ∧ s'.bit srcStat 11 = false ∧ s'.tb.ready = none ∧
      s'.tb.settled = false ∧ s'.mem = u.mem ∧ s'.queues = u.queues := by
  obtain ⟨hspares, hlevel⟩ := u.readyPin_shows false
  have hcooled := State.sparesTb_cooled (s := u.readyPin false) (hspares.ridge ▸ State.ridge_lt hb)
  subst hu
  rw [exec_ocxoReadyChange]
  refine runAt_next (x := State.tbGather ((s.arrive t).readyPin false) ((s.arrive t).readyPin false).cooled 0) (by rfl)
    ⟨?_, ?_, ?_, State.keep_mem _ _, ?_⟩
  · rw [State.bit_keep_gathered _ _ (hcooled.variant.trans hspares.variant), hcooled.bits 11 (by decide) (by decide)]
    exact hlevel
  · rw [State.tb_keep_gathered, hcooled.ready]
    rfl
  · rw [State.tb_keep_gathered, hcooled.settled]
    rfl
  · rw [State.queues_keep_gathered, hcooled.queues]
    exact hspares.queues

/-! ### WARM_SETTLED (R60) -/

/-- The OCXO settled, with its event. -/
def State.settleOcxo (s : State) : State := ({ s with tb := { s.tb with settled := true } }).raise tbPg 5

/-- Under WARM_HOLD an active OCXO passes its specific test from now on. -/
def State.settleSince (s : State) : State :=
  if s.bit (tbPg + Off.TIMEBASE_WARM_CTRL) 0 || !s.active 1 then s else s.setSince 1 (some s.now)

/-- Settled, the OCXO is not warming. -/
theorem State.warmUpdate_settled {s : State} (h : s.tb.settled = true) : s.warmUpdate = s.setBit srcStat 4 false := by
  rw [State.warmUpdate, h]
  simp

/-- What settles is the OCXO, and with it the instant since which it passes. -/
theorem State.settleSince_shows (u : State) : (u.settleOcxo.settleSince).raised tbPg 5 = true ∧
    ∃ e z, u.settleOcxo.settleSince = { u with ev := e, tb := { u.tb with settled := true, since := z } } := by
  have hraised : u.settleOcxo.raised tbPg 5 = true := State.raised_raise_same _ _ _
  obtain ⟨e, he⟩ := State.raiseAt_ev { u with tb := { u.tb with settled := true } } tbPg 5 u.now 0 false
  have honly : u.settleOcxo = { u with ev := e, tb := { u.tb with settled := true } } := he
  unfold State.settleSince
  split
  · exact ⟨hraised, e, u.tb.since, honly⟩
  · refine ⟨hraised, e, mapSet (fun _ => none) u.tb.since 1 (some u.now), ?_⟩
    rw [honly]
    rfl

theorem warm_settled {s u : State} {t : PT} {x : Nat} (hu : u = s.arrive t) (hready : u.tb.ready = some x)
    (hset : u.tb.settled = false) (htime : x + u.rd (tbPg + Off.TIMEBASE_WARM_SETTLE) * (1000 * usK) ≤ u.now) :
    ∃ s', exec (.warmSettled t) s = .next s' ∧ s'.tb = { u.tb with settled := true, since := s'.tb.since } ∧
      s'.bit srcStat 4 = false ∧ s'.raised tbPg 5 = true ∧ u.sameRegs s' [srcStat] ∧
      s' = { u with regs := s'.regs, ev := s'.ev, tb := s'.tb, tius := s'.tius, fres := s'.fres } := by
  obtain ⟨hraised, e, z, honly⟩ := u.settleSince_shows
  have hexec : exec (.warmSettled t) s = .next (u.keep (State.settle (State.tbGather u
      (u.settleOcxo.settleSince.setBit srcStat 4 false) 0))) := by
    rw [← State.warmUpdate_settled (s := u.settleOcxo.settleSince) (by rw [honly])]
    subst hu
    rw [exec_warmSettled]
    unfold execWarmSettled runAt
    dsimp only
    rw [hready]
    dsimp only
    rw [if_neg (by rw [hset, decide_eq_false (by omega)]; decide)]
    rfl
  rw [honly] at hraised hexec
  refine ⟨_, hexec, ?_, ?_, State.raised_keep_gathered _ _ hraised, fun a ha => ?_, State.keep_gathered _ _ rfl⟩
  · rw [State.tb_keep_gathered]
    rfl
  · rw [State.bit_keep_gathered _ _ (by rfl), State.bit_setBit_same _ _ _ _ (by decide)]
  · rw [State.reg_keep_gathered _ _ (by rfl)]
    exact State.reg_setBit_ne _ _ _ (by simpa using ha)

/-! ### AGE_UPDATE (R61) -/

/-- The ageing correction within its clamp (R61). -/
def State.ageCorr (s : State) : Int := clampI (-2000000000) 2000000000 (s.ageing s.now)

/-- The correction shown in AGE_CORR, from which the moves go on. -/
def State.showAge (s : State) : State := s.rebase.wr (tbPg + Off.TIMEBASE_AGE_CORR) (ofSigned 32 s.ageCorr)

theorem State.rd_showAge (s : State) : s.showAge.rd (tbPg + Off.TIMEBASE_AGE_CORR) = ofSigned 32 s.ageCorr := by
  rw [State.showAge, State.rd_wr_same, Nat.mod_eq_of_lt (ofSigned_lt 32 _)]

theorem State.sameRegs_showAge (s : State) : s.sameRegs s.showAge [tbPg + Off.TIMEBASE_AGE_CORR] := fun _ ha =>
  State.reg_wr_ne s.rebase _ (by simpa using ha)

/-- The correction shown, with the event of its clamp. -/
def State.aged (s : State) : State := if s.ageCorr = s.ageing s.now then s.showAge else s.showAge.raise tbPg 6

/-- The event of the clamp is all that comes to the correction. -/
theorem State.aged_shows (s : State) : (s.ageCorr ≠ s.ageing s.now → s.aged.raised tbPg 6 = true) ∧
    (∀ a, s.aged.reg a = s.showAge.reg a) ∧ ∃ r e z, s.aged = { s with regs := r, ev := e, tb := z } := by
  unfold State.aged
  split
  · next h => exact ⟨fun hne => absurd h hne, fun _ => rfl, _, _, _, rfl⟩
  · obtain ⟨e, he⟩ := s.showAge.raiseAt_ev tbPg 6 s.showAge.now 0 false
    exact ⟨fun _ => State.raised_raise_same _ _ _, State.reg_raise _ _ _, _, e, _, he⟩

theorem age_updated {s u : State} {t : PT} (hu : u = s.arrive t) : ∃ s', exec (.ageUpdate t) s = .next s' ∧
    s'.rd (tbPg + Off.TIMEBASE_AGE_CORR) = ofSigned 32 u.ageCorr ∧
    (u.ageCorr ≠ u.ageing u.now → s'.raised tbPg 6 = true) ∧
    u.sameRegs s' [tbPg + Off.TIMEBASE_AGE_CORR] ∧ s' = { u with regs := s'.regs, ev := s'.ev, tb := s'.tb } := by
  obtain ⟨hraised, hreg, r, e, z, honly⟩ := u.aged_shows
  have hvar : u.aged.variant = u.variant := by rw [honly]
  subst hu
  rw [exec_ageUpdate]
  refine runAt_next (x := (s.arrive t).aged) (by rfl) ⟨?_, fun h => ?_, fun a ha => ?_, ?_⟩
  · rw [State.rd_of_reg ((State.reg_keep_settle hvar _).trans (hreg _)), State.rd_showAge]
  · rw [State.raised_keep_settle]
    exact hraised h
  · rw [State.reg_keep_settle hvar, hreg]
    exact State.sameRegs_showAge _ a ha
  · rw [State.keep_settle, honly]

/-- Settles O9: each command of the sources by its own theorem. -/
theorem timebaseSources : Obligations.TimebaseSources := by
  unfold Obligations.TimebaseSources
  refine ⟨fun s u t src hu hb => ⟨fun lo hi phase hmay hq hrun => source_qualified_stopped hu hmay hq hrun,
      fun lo hi phase hmay hq hrun hlong hlo hhi hord hjoin hsw hnow hlost =>
        source_qualified_running hu hb hmay hq hrun hlong hlo hhi hord hjoin hsw hnow hlost,
      fun d f0 f1 f2 hfail hrun hjoin hsw hin hbest => srcLost_switches hu hb hfail hrun hjoin hsw hin hbest,
      fun f0 f1 f2 hfail hstands hrun hjoin hsw hin hbest => srcLost_none hu hb hfail hstands hrun hjoin hsw hin hbest,
      fun c hlock hq hrun hjoin hin => switchCmd_switches hu hb hlock hq hrun hjoin hin,
      fun c hlock hq hrun hjoin => switchCmd_selects hu hlock hq hrun hjoin,
      fun c hlock hq => switchCmd_refused hu hlock hq,
      fun c freq hsw hq hrun => source_switched hu hb hsw hq hrun⟩,
    fun s u t hu hb => ⟨fun hsteer hzero => steering_done hu hsteer hzero, ocxo_high hu, ocxo_low hu hb,
      fun x hready hset htime => warm_settled hu hready hset htime, age_updated hu⟩⟩

end Sys2Proof.Machine
end

section
/-!
PROOFS. SILL_CMD, the takeover of a sill and the end of a reset that found no lock (R80, R81, R91).
-/

namespace Sys2Proof.Machine

/-! ### SILL_CMD (R91) -/

/-- A SILL_CMD bit written on the SILLA page has its effect. -/
theorem State.sillCmd_a {s : State} {b : Nat} (h : s.takes b (sillPg b 0)) (f : State → State) : s.sillCmd b 0 f = f s :=
  State.command_takes h _

/-- On the SILLB page it is refused with health code 0x4A. -/
theorem State.sillCmd_b {s : State} {b : Nat} (h : s.takes b (sillPg b 1)) (f : State → State) :
    s.sillCmd b 1 f = s.latchHealth (sillPg b 1) 0x4A := State.command_takes h _

/-- A command that is refused latches its health code. -/
theorem runAt_refused {s u : State} {t : PT} {f : State → State} {pg c : Nat} (hu : u = s.arrive t)
    (hf : f u = u.latchHealth pg c) :
    ∃ s', runAt t s f = .next s' ∧ s'.isLatched pg c = true ∧ s' = { u with ev := s'.ev } := by
  subst hu
  refine runAt_next hf ⟨?_, ?_⟩
  · rw [State.isLatched_keep_settle, State.isLatched_latchHealth_same]
  · exact (State.onlyRegs_latchHealth _ _ _).keep_ev rfl

/-- So does one that may reach the memories. -/
theorem runMem_refused {s u : State} {t : PT} {f : State → State} {pg c : Nat} (hu : u = s.arrive t)
    (hf : f u = u.latchHealth pg c) :
    ∃ s', runMem t s f = .next s' ∧ s'.isLatched pg c = true ∧ s' = { u with ev := s'.ev } := by
  subst hu
  refine runMem_next hf ⟨?_, ?_⟩
  · rw [State.isLatched_keepMem_settle, State.isLatched_latchHealth_same]
  · rw [State.keepMem_settle]
    rfl

section Commands

variable {s u : State} {t : PT} {b : Fin 8}

/-- SWAP decides a takeover by an eligible shadow, at a tick boundary (R80, R81). -/
theorem swap_decides (hu : u = s.arrive t) (htakes : u.takes b (sillPg b 0)) (hact : u.hasActive b = true)
    (hok : u.shadowOk b false = true) : ∃ s', exec (.swap t b 0) s = .next s' ∧
      s'.takeover b = some (u.takeoverAt, false) ∧ s' = { u with takeovers := s'.takeovers, ev := s'.ev } := by
  subst hu
  rw [exec_swap]
  refine runAt_next (x := (s.arrive t).setTakeover b (some ((s.arrive t).takeoverAt, false))) ?_ ⟨?_, ?_⟩
  · refine (State.sillCmd_a htakes _).trans ?_
    rw [hact, hok]
    rfl
  · rw [State.takeover_keep, State.takeover_settle, State.takeover_setTakeover_same]
  · rw [State.keep_settle]
    rfl

theorem swap_refused (hu : u = s.arrive t) (htakes : u.takes b (sillPg b 0)) (hok : u.shadowOk b false = false) :
    ∃ s', exec (.swap t b 0) s = .next s' ∧ s'.isLatched (sillPg b 0) 0x4B = true ∧ s' = { u with ev := s'.ev } := by
  rw [exec_swap]
  refine runAt_refused hu ((State.sillCmd_a htakes _).trans ?_)
  rw [hok, Bool.and_false]
  rfl

/-- SWAP, RESTART and UNPARK are refused on the SILLB page (R91). -/
theorem sillCmd_refused {c : Instr} (hu : u = s.arrive t) (hc : c = .swap t b 1 ∨ c = .restart t b 1 ∨ c = .unpark t b 1)
    (htakes : u.takes b (sillPg b 1)) : ∃ s', exec c s = .next s' ∧ s'.isLatched (sillPg b 1) 0x4A = true ∧
      s' = { u with ev := s'.ev } := by
  rcases hc with rfl | rfl | rfl
  · rw [exec_swap]
    exact runAt_refused hu (State.sillCmd_b htakes _)
  · rw [exec_restart]
    exact runAt_refused hu (State.sillCmd_b htakes _)
  · rw [exec_unpark]
    exact runAt_refused hu (State.sillCmd_b htakes _)

end Commands

/-! ### The output switch (R80) -/

/-- The two sills of a bent have a SILL_STAT each. -/
theorem sillStat_ne {b j k : Nat} (h : j ≠ k) : sillStat b j ≠ sillStat b k := by
  unfold sillStat sillPg bp
  omega

theorem sillStat_mod (b k : Nat) : sillStat b k % 0x1000 = Off.SILL_SILL_STAT := sillReg_off b k (by decide)

/-- ACTIVE moved to the other sill, which counts the takeover and raises its event. -/
def State.swapActive (s : State) (b : Nat) : State :=
  ((((s.setBit (sillStat b (s.activeSill b)) 1 false).setBit (sillStat b (1 - s.activeSill b)) 1 true).bump
    (sillPg b (1 - s.activeSill b) + Off.SILL_TAKEOVER_COUNT)).raise (sillPg b (1 - s.activeSill b)) 6)

/-- What a takeover shows: the other sill active, the count and the event on its page. -/
def State.tookOver (s x : State) (b : Nat) : Prop :=
  x.activeSill b = 1 - s.activeSill b ∧
    x.rd (sillPg b (1 - s.activeSill b) + Off.SILL_TAKEOVER_COUNT) =
      satAdd (s.rd (sillPg b (1 - s.activeSill b) + Off.SILL_TAKEOVER_COUNT)) 1 ∧
    x.raised (sillPg b (1 - s.activeSill b)) 6 = true

theorem State.tookOver_swapActive (s : State) (b : Nat) : s.tookOver (s.swapActive b) b := by
  have hk := s.activeSill_lt b
  have hbit : (s.swapActive b).bit (sillStat b 1) 1 = decide (1 - s.activeSill b = 1) := by
    have hne : sillStat b 1 ≠ sillPg b (1 - s.activeSill b) + Off.SILL_TAKEOVER_COUNT := by
      unfold sillStat sillPg bp Off.SILL_SILL_STAT Off.SILL_TAKEOVER_COUNT; omega
    rw [State.swapActive, State.bit_raise, State.bit_of_reg (State.reg_bump_ne _ hne)]
    obtain h | h : s.activeSill b = 0 ∨ s.activeSill b = 1 := by omega
    · rw [h, State.bit_setBit_same _ _ _ _ (by decide)]
      rfl
    · rw [h, State.bit_of_reg (State.reg_setBit_ne _ _ _ (sillStat_ne (by decide))),
        State.bit_setBit_same _ _ _ _ (by decide)]
      rfl
  refine ⟨?_, ?_, State.raised_raise_same _ _ _⟩
  · rw [State.activeSill, hbit]
    simp only [decide_eq_true_eq]
    split <;> omega
  · have hne : ∀ k, sillPg b (1 - s.activeSill b) + Off.SILL_TAKEOVER_COUNT ≠ sillStat b k := fun k he => by
      have := congrArg (· % 0x1000) he
      simp only [sillReg_off b _ (show Off.SILL_TAKEOVER_COUNT < 0x1000 by decide), sillStat_mod] at this
      exact absurd this (by decide)
    rw [State.swapActive, State.rd_raise, State.rd_bump_same, State.rd_of_reg (State.reg_setBit_ne _ _ _ (hne _)),
      State.rd_of_reg (State.reg_setBit_ne _ _ _ (hne _))]

/-- A takeover stays shown while neither ACTIVE nor the count changes. -/
theorem State.tookOver_of {s x y : State} {b : Nat} {l m : List Nat} (h : s.tookOver x b) (hw : x.works y l)
    (hl : Off.SILL_TAKEOVER_COUNT ∉ l) (hbits : x.keepsBits y (sillStat b 1) m) (hm : 1 ∉ m) : s.tookOver y b := by
  obtain ⟨hactive, hcount, hraised⟩ := h
  refine ⟨(State.activeSill_of_bits hbits hm).trans hactive, ?_, hw.2.2 _ _ hraised⟩
  rw [State.rd_of_reg (hw.2.1 _ _), hcount]
  rw [sillReg_off b _ (by decide)]
  exact hl

theorem State.switchOutputs_eq (s : State) (b : Nat) : s.switchOutputs b = (s.swapActive b).moveLeft b (s.activeSill b) := rfl

/-- What belongs to the outputs is all that moves with them. -/
theorem State.works_moveLeft_left (s : State) (b k : Nat) : s.works (s.moveLeft b k) [Off.SILL_PHASE_LEFT, Off.SILL_PULL_LEFT] := by
  unfold State.moveLeft
  dsimp only
  refine State.works_setSill (State.works_setSill ?_ _ _ _) _ _ _
  refine State.works_wr (State.works_wr (State.works_wr (State.works_wr (.refl s _) ?_ _) ?_ _) ?_ _) ?_ _ <;>
    exact mem_bp (by decide)

theorem State.tookOver_switchOutputs (s : State) (b : Nat) : s.tookOver (s.switchOutputs b) b := by
  have hw := (s.swapActive b).works_moveLeft_left b (s.activeSill b)
  rw [State.switchOutputs_eq]
  exact State.tookOver_of (s.tookOver_swapActive b) hw (by decide)
    (State.keepsBits_of_works (.refl _ _ []) hw (by rw [sillStat_mod]; decide)) (by simp)

/-- A reset leaves of its bent's SILL_STAT all but LOCKED and ACQ_STATE. -/
theorem State.keepsBits_sillReset (s : State) (b k : Nat) {a : Nat} (ha : a % 0x1000 = Off.SILL_SILL_STAT) :
    s.keepsBits (s.sillReset b k) a [0, 16, 17, 18] := by
  have hunlock : s.keepsBits (s.unlock b k false) a [0, 16, 17, 18] := fun i hi hl =>
    s.keepsBits_unlock b k false ha i hi (by simp_all)
  have hacq : (s.unlock b k false).keepsBits ((s.unlock b k false).acqStart b k) a [0, 16, 17, 18] := fun i hi hl =>
    State.keepsBits_acqStart _ b k ha i hi (by simp_all)
  exact (hunlock.trans hacq).trans (State.keepsBits_of_reg (.refl _ a _) (State.reg_setSill _ _ _ _ _))

/-- A sill judged faulty is reset (R81). -/
def State.faultReset (s : State) (b k : Nat) (fault : Bool) : State :=
  if fault then (s.raise (sillPg b k) 7).sillReset b k else s

theorem State.works_faultReset (s : State) (b k : Nat) (fault : Bool) : s.works (s.faultReset b k fault) lockOffs := by
  unfold State.faultReset
  split
  · exact (State.works_raise (.refl s _) _ _).trans (State.works_sillReset _ b k)
  · exact .refl s _

theorem State.keepsBits_faultReset (s : State) (b k : Nat) (fault : Bool) {a : Nat} (ha : a % 0x1000 = Off.SILL_SILL_STAT) :
    s.keepsBits (s.faultReset b k fault) a [0, 16, 17, 18] := by
  unfold State.faultReset
  split
  · exact (State.keepsBits_of_reg (.refl s a _) (State.reg_raise _ _ _ _)).trans (State.keepsBits_sillReset _ b k ha)
  · exact .refl s a _

theorem State.takeover_acqStart (s : State) (b k c : Nat) : (s.acqStart b k).takeover c = s.takeover c := by
  obtain ⟨r, z, h⟩ : ∃ r z, s.acqStart b k = { s with regs := r, sills := z } := ⟨_, _, rfl⟩
  rw [h]
  rfl

theorem State.takeover_unlock (s : State) (b k c : Nat) (relock : Bool) : (s.unlock b k relock).takeover c = s.takeover c := by
  unfold State.unlock
  dsimp only
  split_ifs <;> simp

theorem State.takeover_faultReset (s : State) (b k : Nat) (fault : Bool) (c : Nat) :
    (s.faultReset b k fault).takeover c = s.takeover c := by
  unfold State.faultReset
  split
  · rw [State.sillReset, State.takeover_setSill, State.takeover_acqStart, State.takeover_unlock, State.takeover_raise]
  · rfl

theorem State.takeover_switchOutputs (s : State) (b c : Nat) : (s.switchOutputs b).takeover c = s.takeover c := by
  rw [State.switchOutputs_eq, State.moveLeft]
  dsimp only
  rw [State.takeover_setSill, State.takeover_setSill, State.takeover_wr, State.takeover_wr, State.takeover_wr,
    State.takeover_wr, State.swapActive, State.takeover_raise, State.takeover_bump, State.takeover_setBit,
    State.takeover_setBit]

theorem State.takeover_tbGather (s0 s : State) (p b : Nat) : (State.tbGather s0 s p).takeover b = s.takeover b := by
  rw [State.tbGather_only]
  rfl

/-- At its tick boundary a takeover moves the outputs to the other sill, and a faulty one is reset (R80, R81). -/
theorem takeover_switches {s u : State} {t : PT} {b : Fin 8} {x : Nat} {fault : Bool} (hu : u = s.arrive t)
    (hx : u.takeover b = some (x, fault)) (hnow : x ≤ u.now) : ∃ s', exec (.takeover t b) s = .next s' ∧
      u.tookOver s' b ∧ s'.takeover b = none ∧ s'.mem = u.mem ∧ s'.queues = u.queues := by
  have hshows : u.tookOver ((u.setTakeover b none).switchOutputs b) b := State.tookOver_switchOutputs (u.setTakeover b none) b
  have hworks := ((u.setTakeover b none).switchOutputs b).works_faultReset b (u.activeSill b) fault
  have hall : u.works (((u.setTakeover b none).switchOutputs b).faultReset b (u.activeSill b) fault) faultOffs :=
    (State.works_setTakeover (.refl u _) b none).trans
      ((State.works_switchOutputs _ b).trans (hworks.mono lockOffs_fault))
  have hafter := State.tookOver_of hshows hworks (by decide) (State.keepsBits_faultReset _ b (u.activeSill b) fault
    (sillStat_mod b 1)) (by decide)
  have hnone : (((u.setTakeover b none).switchOutputs b).faultReset b (u.activeSill b) fault).takeover b = none := by
    rw [State.takeover_faultReset, State.takeover_switchOutputs, State.takeover_setTakeover_same]
  generalize hy : ((u.setTakeover b none).switchOutputs b).faultReset b (u.activeSill b) fault = y at *
  obtain ⟨hactive, hcount, hraised⟩ := hafter
  subst hu
  rw [exec_takeover]
  refine runAt_next (x := State.tbGather (s.arrive t) y 0) ?_ ⟨⟨?_, ?_, ?_⟩, ?_, State.keep_mem _ _, ?_⟩
  · dsimp only
    rw [hx]
    dsimp only
    rw [if_neg (Nat.not_lt.mpr hnow), ← hy]
    rfl
  · rw [State.activeSill, State.bit_keep_gathered _ _ hall.variant]
    exact hactive
  · rw [State.rd_of_reg (State.reg_keep_gathered _ _ hall.variant _), hcount]
  · exact State.raised_keep_gathered _ _ hraised
  · rw [State.takeover_keep, State.takeover_settle, State.takeover_tbGather, hnone]
  · rw [State.queues_keep_gathered, hall.queues]

/-! ### RESTART (R81) -/

/-- A FAULTED sill is started again. -/
def State.restartSill (s : State) (b j : Nat) : State :=
  if s.bit (sillStat b j) 7 then ((s.setBit (sillStat b j) 7 false).standing (sillPg b j) 0x4D false).sillReset b j else s

theorem State.works_restartSill (s : State) (b j : Nat) : s.works (s.restartSill b j) lockOffs := by
  unfold State.restartSill
  split
  · exact (State.works_standing (State.works_setBit (.refl s _) (mem_bp (by decide)) _ _) _ _ _).trans
      (State.works_sillReset _ b j)
  · exact .refl s _

/-- It is no longer FAULTED. -/
theorem State.restartSill_ends (s : State) (b j : Nat) : (s.restartSill b j).bit (sillStat b j) 7 = false := by
  unfold State.restartSill
  split
  · rw [State.keepsBits_sillReset _ b j (sillStat_mod b j) 7 (by decide) (by decide),
      State.bit_of_reg (State.reg_standing _ _ _ _ _), State.bit_setBit_same _ _ _ _ (by decide)]
  · next h => exact Bool.not_eq_true _ ▸ h

/-- Nor does the restart of one sill make the other FAULTED. -/
theorem State.restartSill_keeps {s : State} {b i : Nat} (h : s.bit (sillStat b i) 7 = false) (j : Nat) :
    (s.restartSill b j).bit (sillStat b i) 7 = false := by
  unfold State.restartSill
  split
  · rw [State.keepsBits_sillReset _ b j (sillStat_mod b i) 7 (by decide) (by decide),
      State.bit_of_reg (State.reg_standing _ _ _ _ _), State.bit_setBit _ _ _ _ _ (by decide)]
    split
    · rfl
    · exact h
  · exact h

theorem restart_ends {s u : State} {t : PT} {b : Fin 8} (hu : u = s.arrive t) (htakes : u.takes b (sillPg b 0)) :
    ∃ s', exec (.restart t b 0) s = .next s' ∧ s'.bit (sillStat b 0) 7 = false ∧ s'.bit (sillStat b 1) 7 = false ∧
      s'.mem = u.mem ∧ s'.queues = u.queues := by
  have hworks : u.works (((u.restartSill b 0).restartSill b 1).category 2 b false) lockOffs :=
    State.works_category ((u.works_restartSill b 0).trans (State.works_restartSill _ b 1)) _ _ _
  have hreg := State.reg_keep_settle hworks.variant
  subst hu
  rw [exec_restart]
  refine runAt_next (x := (((s.arrive t).restartSill b 0).restartSill b 1).category 2 b false)
    ((State.sillCmd_a htakes _).trans rfl) ⟨?_, ?_, State.keep_mem _ _, ?_⟩
  · rw [State.bit_of_reg (hreg _)]
    exact State.restartSill_keeps (State.restartSill_ends _ b 0) 1
  · rw [State.bit_of_reg (hreg _)]
    exact State.restartSill_ends _ b 1
  · rw [State.keep_queues, State.settle_queues, hworks.queues]

/-! ### SILL_REACQUIRE_TIMEOUT (R81) -/

/-- A sill that stays off: FAULTED, with its health code. -/
def State.giveUp (s : State) (b k : Nat) : State :=
  (((s.setBit (sillStat b k) 7 true).setFld (sillStat b k) 16 3 0).standing (sillPg b k) 0x4D true).setSill b k Sill.init

theorem State.giveUp_shows (s : State) (b k : Nat) : (s.giveUp b k).bit (sillStat b k) 7 = true ∧
    (s.giveUp b k).fld (sillStat b k) 16 3 = 0 ∧ (s.giveUp b k).stands (sillPg b k) 0x4D = true ∧
    ((s.giveUp b k).sill b k).acq = none ∧ s.sameRegs (s.giveUp b k) [sillStat b k] ∧
    ∃ r e z, s.giveUp b k = { s with regs := r, ev := e, sills := z } := by
  have hreg : ∀ a, (s.giveUp b k).reg a = ((s.setBit (sillStat b k) 7 true).setFld (sillStat b k) 16 3 0).reg a := fun a =>
    (State.reg_setSill _ _ _ _ _).trans (State.reg_standing _ _ _ _ _)
  obtain ⟨r, e, honly⟩ := ((s.onlyRegs_setBit (sillStat b k) 7 true).trans (State.onlyRegs_wr _ _ _)).trans
    (State.onlyRegs_standing ((s.setBit (sillStat b k) 7 true).setFld (sillStat b k) 16 3 0) (sillPg b k) 0x4D true)
  refine ⟨?_, ?_, State.stands_standing_same _ _ _ _, ?_, fun a ha => ?_, r, e, (s.giveUp b k).sills, ?_⟩
  · rw [State.bit_of_reg (hreg _), State.bit_setFld_same _ _ _ _ _ (by decide), if_pos (by decide),
      State.bit_setBit_same _ _ _ _ (by decide)]
  · rw [State.fld, State.rd_of_reg (hreg _)]
    exact State.fld_setFld_same _ _ _ _ _ (by decide)
  · rw [State.giveUp, State.sill_setSill_same]
    rfl
  · have hne : a ≠ sillStat b k := by simpa using ha
    rw [hreg]
    exact (State.reg_wr_ne _ _ hne).trans (State.reg_setBit_ne _ _ _ hne)
  · rw [State.giveUp, honly]
    rfl

theorem sill_gives_up {s u : State} {t : PT} {b : Fin 8} {k : Fin 2} {x : Nat} (hu : u = s.arrive t)
    (hacq : (u.sill b k).acq = some x) (htime : x + secK ≤ u.now) (hother : u.bit (sillStat b (1 - k.val)) 7 = false) :
    ∃ s', exec (.sillReacquireTimeout t b k) s = .next s' ∧ s'.bit (sillStat b k) 7 = true ∧
      s'.fld (sillStat b k) 16 3 = 0 ∧ s'.stands (sillPg b k) 0x4D = true ∧ (s'.sill b k).acq = none ∧
      u.sameRegs s' [sillStat b k] ∧ s' = { u with regs := s'.regs, ev := s'.ev, sills := s'.sills } := by
  obtain ⟨hfaulted, hstate, hstands, hnone, hsame, r, e, z, honly⟩ := u.giveUp_shows b k
  have hhalf : ∀ {y : State}, (∀ a, y.reg a = (u.giveUp b k).reg a) → y.bothFaulted b = false := fun {y} hy => by
    have hbit : y.bit (sillStat b (1 - k.val)) 7 = false := by
      rw [State.bit_of_reg ((hy _).trans (hsame _ _)), hother]
      have hk := k.isLt
      simp only [List.mem_singleton]
      unfold sillStat sillPg bp
      omega
    obtain h | h : 1 - k.val = 0 ∨ 1 - k.val = 1 := by omega
    · rw [State.bothFaulted, ← h, hbit, Bool.false_and]
    · rw [h] at hbit
      rw [State.bothFaulted, hbit, Bool.and_false]
  have hstood : (((u.setBit (sillStat b k) 7 true).setFld (sillStat b k) 16 3 0).standing (sillPg b k) 0x4D
      true).bothFaulted b = false := hhalf fun _ => (State.reg_setSill _ _ _ _ _).symm
  have hleft : ((u.giveUp b k).category 2 b false).bothFaulted b = false := hhalf fun _ => rfl
  have honly' : (u.giveUp b k).category 2 b false = { u with
      regs := r, ev := ((u.giveUp b k).category 2 b false).ev, sills := z } := by
    rw [State.category, honly]
  have hvar : ((u.giveUp b k).category 2 b false).variant = u.variant := by rw [honly']
  subst hu
  rw [exec_sillReacquireTimeout]
  refine runMem_next (x := ((s.arrive t).giveUp b k).category 2 b false) ?_ ⟨?_, ?_, ?_, ?_, fun a ha => ?_, ?_⟩
  · dsimp only
    rw [hacq]
    dsimp only
    rw [if_neg (Nat.not_lt.mpr htime), hstood]
    exact if_neg (by rw [Bool.and_eq_true, not_and]; exact fun h => absurd (hleft.symm.trans h) (by decide))
  · rw [State.bit_of_reg (State.reg_keepMem_settle hvar _)]
    exact hfaulted
  · rw [State.fld, State.rd_of_reg (State.reg_keepMem_settle hvar _)]
    exact hstate
  · rw [State.stands, State.keepMem_ev, State.settle_ev_standing]
    exact hstands
  · rw [State.sill_keepMem, State.sill_settle]
    exact hnone
  · rw [State.reg_keepMem_settle hvar]
    exact hsame a ha
  · rw [State.keepMem_settle, honly']

/-- Settles O11: each command by its own theorem. -/
theorem sillTakeover : Obligations.SillTakeover := by
  intro s u t b k hu _
  refine ⟨fun htakes hact hok => swap_decides hu htakes hact hok, fun htakes hok => swap_refused hu htakes hok,
    fun c hc htakes => sillCmd_refused hu hc htakes, fun x fault hx hnow => ?_, fun htakes => restart_ends hu htakes,
    fun x hacq htime hother => sill_gives_up hu hacq htime hother⟩
  obtain ⟨s', hs', ⟨hactive, hcount, hraised⟩, hnone, hmem, hqueues⟩ := takeover_switches hu hx hnow
  exact ⟨s', hs', hactive, hnone, hcount, hraised, hmem, hqueues⟩

end Sys2Proof.Machine
end

section
/-!
PROOFS. The hold policy, pulls and fine phase steps (R78, R79, R83).
-/

namespace Sys2Proof.Machine

/-! ### What a command on a sill's page leaves -/

/-- A setting's register is at its offset on either sill's page. -/
theorem State.sillCfg_off (s : State) (b k : Nat) {o : Nat} (ho : o < 0x1000) : (s.sillCfg b k + o) % 0x1000 = o := by
  unfold State.sillCfg
  split <;> exact sillReg_off b _ ho

/-- SILL_STAT is none of the settings. -/
theorem State.sillCfg_ne_stat (s : State) (b k c j : Nat) {o : Nat} (ho : o < 0x1000) (hne : o ≠ Off.SILL_SILL_STAT) :
    s.sillCfg b k + o ≠ sillStat c j := fun h =>
  hne ((s.sillCfg_off b k ho).symm.trans ((congrArg (· % 0x1000) h).trans (sillStat_mod c j)))

/-- What a command leaves of its effect, its conditions gathered. -/
theorem State.keep_gathered_effect (u x v : State) (p : Nat) : ∃ e i f,
    u.keep (State.tbGather v x p).settle = { u.keep x with ev := e, tius := i, fres := f } := by
  obtain ⟨i, f, e, hgather⟩ := State.tbGather_cases v x p
  refine ⟨(State.tbGather v x p).settle.ev, i, f, ?_⟩
  rw [State.keep_settle, hgather]
  rfl

theorem State.sill_keep_gathered {u x : State} (v : State) (p b k : Nat) :
    (u.keep (State.tbGather v x p).settle).sill b k = x.sill b k := by
  obtain ⟨i, f, e, hgather⟩ := State.tbGather_cases v x p
  rw [State.sill_keep, State.sill_settle, hgather]
  rfl

/-! ### HOLD_LIMIT (R78) -/

/-- A coast that has lasted HOLD_LIMIT is marked, with its event; a ridge's also stands at FAULT_N. -/
def State.holdMarked (s : State) (b : Nat) : State :=
  let s1 := (s.setBit (sillStat b (s.activeSill b)) 4 true).raise (sillPg b (s.activeSill b)) 5
  if b = s1.ridge then s1.category 2 9 true else s1

theorem State.holdMarked_shows (s : State) (b : Nat) : (s.holdMarked b).bit (sillStat b (s.activeSill b)) 4 = true ∧
    (s.holdMarked b).raised (sillPg b (s.activeSill b)) 5 = true ∧
    s.sameRegs (s.holdMarked b) [sillStat b (s.activeSill b)] ∧ s.onlyRegs (s.holdMarked b) := by
  have hmark : s.onlyRegs ((s.setBit (sillStat b (s.activeSill b)) 4 true).raise (sillPg b (s.activeSill b)) 5) :=
    (s.onlyRegs_setBit _ _ _).trans (State.onlyRegs_raise _ _ _)
  have hreg : ∀ a, (s.holdMarked b).reg a = (s.setBit (sillStat b (s.activeSill b)) 4 true).reg a := fun a => by
    unfold State.holdMarked
    dsimp only
    split <;> exact State.reg_raise _ _ _ _
  refine ⟨?_, ?_, fun a ha => ?_, ?_⟩
  · rw [State.bit_of_reg (hreg _), State.bit_setBit_same _ _ _ _ (by decide)]
  · unfold State.holdMarked
    dsimp only
    split <;> exact State.raised_raise_same _ _ _
  · rw [hreg, State.reg_setBit_ne _ _ _ (by simpa using ha)]
  · unfold State.holdMarked
    dsimp only
    split
    · exact hmark.trans (State.onlyRegs_category _ _ _ _)
    · exact hmark

theorem hold_limit {s u : State} {t : PT} {b : Fin 8} (hu : u = s.arrive t) (hb : u.has b = true)
    (hcoast : u.bit (sillStat b (u.activeSill b)) 3 = true) (hnot : u.bit (sillStat b (u.activeSill b)) 4 = false)
    (hlimit : u.rd (u.sillCfg b (u.activeSill b) + Off.SILL_HOLD_LIMIT) ≠ 0)
    (htime : (u.sill b (u.activeSill b)).coastAt + u.rd (u.sillCfg b (u.activeSill b) + Off.SILL_HOLD_LIMIT) * secK ≤ u.now)
    (hpolicy : u.bit (u.sillCfg b (u.activeSill b) + Off.SILL_SILL_CTRL) 3 = false) :
    ∃ s', exec (.holdLimit t b) s = .next s' ∧ s'.bit (sillStat b (u.activeSill b)) 4 = true ∧
      s'.raised (sillPg b (u.activeSill b)) 5 = true ∧ u.sameRegs s' [sillStat b (u.activeSill b)] ∧
      s' = { u with regs := s'.regs, ev := s'.ev } := by
  obtain ⟨hbit, hraised, hsame, honly⟩ := u.holdMarked_shows b
  have hctrl : (u.holdMarked b).bit (u.sillCfg b (u.activeSill b) + Off.SILL_SILL_CTRL) 3 = false := by
    rw [State.bit_of_reg (hsame _ (by simpa using u.sillCfg_ne_stat b _ b _ (by decide) (by decide))), hpolicy]
  subst hu
  rw [exec_holdLimit]
  refine runAt_next (x := (s.arrive t).holdMarked b) ?_ ⟨?_, ?_, State.sameRegs_keep hsame honly.variant, honly.keep⟩
  · dsimp only
    rw [if_pos (by rw [hb, hcoast, hnot, bne_iff_ne.mpr hlimit, decide_eq_true htime]; rfl)]
    exact if_neg (by rw [Bool.and_eq_true, not_and]; exact fun h => absurd (hctrl.symm.trans h) (by decide))
  · rw [State.bit_of_reg (State.reg_keep_settle honly.variant _), hbit]
  · rw [State.raised_keep_settle, hraised]

/-! ### UNPARK (R78) -/

/-- The rest of a coast goes on without PARK. -/
def State.goesOn (s : State) (b : Nat) : State :=
  if s.bit (sillStat b (s.activeSill b)) 3 then
    s.setSill b (s.activeSill b) { s.sill b (s.activeSill b) with goOn := true }
  else s

/-- A parked sequencer goes on to its next shot, and a request to park is taken back. -/
def State.unparkSeq (s : State) (q : Nat) : State :=
  if (s.seq q).phase == .parked then (s.setSeq q { s.seq q with parkReq := false }).planNext q (s.granCeil s.now)
  else if (s.seq q).parkReq then s.setSeq q { s.seq q with parkReq := false }
  else s

theorem State.goesOn_only (s : State) (b : Nat) : s.goesOn b = { s with sills := (s.goesOn b).sills } := by
  unfold State.goesOn
  split <;> rfl

theorem State.goesOn_shows {s : State} {b : Nat} (h : s.bit (sillStat b (s.activeSill b)) 3 = true) :
    ((s.goesOn b).sill b (s.activeSill b)).goOn = true := by
  rw [State.goesOn, if_pos h, State.sill_setSill_same]

/-- The policy of the coast parks no more. -/
theorem State.goesOn_parksOwn (s : State) (b : Nat) : (s.goesOn b).parksOwn b = false := by
  cases h : s.bit (sillStat b (s.activeSill b)) 3 with
  | false =>
    rw [State.goesOn, if_neg (by simp [h]), State.parksOwn, h]
    rfl
  | true =>
    have hgo := State.goesOn_shows h
    have hactive : (s.goesOn b).activeSill b = s.activeSill b := by rw [s.goesOn_only]; rfl
    rw [State.parksOwn, hactive, hgo]
    simp

/-- UNPARK on the SILLA page. -/
theorem unpark_next {s u : State} {t : PT} {b : Fin 8} (hu : u = s.arrive t) (htakes : u.takes b (sillPg b 0)) :
    exec (.unpark t b 0) s = .next (u.keep ((u.holdSeqs b).foldl State.unparkSeq (u.goesOn b)).settle) := by
  have hseqs : (u.goesOn b).holdSeqs b = u.holdSeqs b := by rw [u.goesOn_only]; rfl
  subst hu
  rw [exec_unpark, ← hseqs]
  exact congrArg (fun y : State => (.next ((s.arrive t).keep y.settle) : Out)) (State.sillCmd_a htakes _)

/-- A sequencer that has not parked goes on without its request to park. -/
theorem State.unparkSeq_runs {s : State} {q : Nat} (h : (s.seq q).phase ≠ .parked) :
    s.unparkSeq q = { s with seqs := (s.unparkSeq q).seqs } ∧
      ∀ j, (s.unparkSeq q).seq j = if j = q then { s.seq q with parkReq := false } else s.seq j := by
  have hput : ∀ j, (s.setSeq q { s.seq q with parkReq := false }).seq j =
      if j = q then { s.seq q with parkReq := false } else s.seq j := fun j => by
    split
    · next hj => rw [hj, State.seq_setSeq_same]
    · next hj => rw [State.seq_setSeq_ne _ _ _ _ hj]
  unfold State.unparkSeq
  rw [if_neg (by simpa using h)]
  split
  · exact ⟨rfl, hput⟩
  · next hreq =>
    refine ⟨rfl, fun j => ?_⟩
    split
    · next hj =>
      have hfalse : (s.seq q).parkReq = false := by simpa using hreq
      rw [hj, ← hfalse]
    · rfl

/-- So do several of them. -/
theorem State.unparkAll_runs {l : List Nat} {s : State} (h : ∀ q ∈ l, (s.seq q).phase ≠ .parked) :
    l.foldl State.unparkSeq s = { s with seqs := (l.foldl State.unparkSeq s).seqs } ∧
      ∀ j, (l.foldl State.unparkSeq s).seq j = if j ∈ l then { s.seq j with parkReq := false } else s.seq j := by
  induction l generalizing s with
  | nil => exact ⟨rfl, fun j => by simp⟩
  | cons q l ih =>
    obtain ⟨honly, hseq⟩ := State.unparkSeq_runs (h q List.mem_cons_self)
    have hphase : ∀ j, ((s.unparkSeq q).seq j).phase = (s.seq j).phase := fun j => by
      rw [hseq]
      split
      · next hj => rw [hj]
      · rfl
    obtain ⟨honly', hseq'⟩ := ih (s := s.unparkSeq q) fun j hj => by
      rw [hphase]
      exact h j (List.mem_cons_of_mem q hj)
    refine ⟨?_, fun j => ?_⟩
    · rw [List.foldl_cons, honly', honly]
    · rw [List.foldl_cons, hseq', hseq]
      by_cases hj : j = q
      · subst hj
        simp
      · simp [hj]

theorem unpark_takes_back {s u : State} {t : PT} {b : Fin 8} (hu : u = s.arrive t) (htakes : u.takes b (sillPg b 0))
    (hrun : ∀ q ∈ u.holdSeqs b, (u.seq q).phase ≠ .parked) : ∃ s', exec (.unpark t b 0) s = .next s' ∧
      (u.bit (sillStat b (u.activeSill b)) 3 = true → (s'.sill b (u.activeSill b)).goOn = true) ∧
      (∀ q ∈ u.holdSeqs b, (s'.seq q).parkReq = false) ∧ s' = { u with sills := s'.sills, seqs := s'.seqs, ev := s'.ev } := by
  have hsame : ∀ q, (u.goesOn b).seq q = u.seq q := fun q => by rw [u.goesOn_only]; rfl
  obtain ⟨honly, hseq⟩ := State.unparkAll_runs (l := u.holdSeqs b) (s := u.goesOn b) fun q hq => by
    rw [hsame]
    exact hrun q hq
  refine ⟨_, unpark_next hu htakes, fun hcoast => ?_, fun q hq => ?_, ?_⟩
  · rw [State.sill_keep, State.sill_settle, honly]
    exact State.goesOn_shows hcoast
  · rw [State.seq_keep, State.seq_settle, hseq, if_pos hq]
  · rw [State.keep_settle, honly, u.goesOn_only]

/-- A sequencer as it goes on from PARK: its next shot planned at `x`. -/
def SeqSt.unparked (q : SeqSt) (x : Nat) : SeqSt :=
  { q with parkReq := false, phase := .planned, next := some x, orig := x, deferred := false, moved := false }

/-- A sequencer in immediate mode with nothing left over plans its next shot at the first granule boundary after its gap and an
instant (R134). -/
theorem State.planNext_immediate {s : State} {k : Nat} (hreq : (s.seq k).parkReq = false) (hmove : (s.seq k).moveReq = false)
    (howed : (s.seq k).owed = []) (htail : (s.seq k).tail = []) (hends : s.seqEnds k = false) (hmode : s.shotMode k = 0)
    (hfirst : (s.seq k).first = false) (hpark : s.parking (k / 16) = false) (floor : Nat) : s.planNext k floor =
      s.planAt k (max (s.granCeil ((s.seq k).cEnd + (s.seq k).gap * s.gK)) floor) false := by
  have hpoison : s.poisonWait (s.seq k) = false := by rw [State.poisonWait, howed]
  rw [State.planNext, hmove, if_neg (by simp), State.planHere, htail, if_neg (by simp), hends, if_neg (by simp), hreq, hpark,
    if_neg (by simp), hpoison, if_neg (by simp), State.planStart, if_pos hmode, hfirst]
  rfl

/-- Whether a sequencer ends rests on its page, and on what it owes, was asked and has run. -/
theorem State.seqEnds_congr {s x : State} {k : Nat} (hr : x.regs = s.regs) (hv : x.variant = s.variant)
    (howed : (x.seq k).owed = (s.seq k).owed) (hhalt : (x.seq k).haltReq = (s.seq k).haltReq)
    (hruns : (x.seq k).shotsRun = (s.seq k).shotsRun) : x.seqEnds k = s.seqEnds k := by
  have hreg : ∀ a, x.reg a = s.reg a := fun a => State.reg_congr a hr hv
  simp only [State.seqEnds, State.draining, State.fenced, State.bit, State.fld, State.rd, hreg, howed, hhalt, hruns]
  rfl

/-- So does a parked one that goes on, where no policy parks it again. -/
theorem State.unparkSeq_plans {s : State} {k : Nat} (hparked : (s.seq k).phase = .parked) (hmove : (s.seq k).moveReq = false)
    (howed : (s.seq k).owed = []) (htail : (s.seq k).tail = []) (hends : s.seqEnds k = false) (hmode : s.shotMode k = 0)
    (hfirst : (s.seq k).first = false) (hpark : s.parking (k / 16) = false) :
    s.unparkSeq k = (s.setSeq k { s.seq k with parkReq := false }).setSeq k ((s.seq k).unparked
      (max (s.granCeil ((s.seq k).cEnd + (s.seq k).gap * s.gK)) (s.granCeil s.now))) := by
  have hseq := s.seq_setSeq_same k { s.seq k with parkReq := false }
  have hends' := (State.seqEnds_congr (s := s) (x := s.setSeq k { s.seq k with parkReq := false }) rfl rfl (by rw [hseq])
    (by rw [hseq]) (by rw [hseq])).trans hends
  rw [State.unparkSeq, if_pos (by rw [hparked]; rfl), State.planNext_immediate (by rw [hseq]) (by rw [hseq, hmove])
    (by rw [hseq, howed]) (by rw [hseq, htail]) hends' hmode (by rw [hseq, hfirst]) hpark, State.planAt, hseq]
  rfl

/-- On the ridge the coast that goes on parks no sequencer of its bent. -/
theorem State.goesOn_parking {s : State} {b : Nat} (hridge : b = s.ridge) : (s.goesOn b).parking b = false := by
  have hsame : (s.goesOn b).ridge = b := by rw [s.goesOn_only]; exact hridge.symm
  rw [State.parking, hsame, State.goesOn_parksOwn]
  rfl

theorem mem_holdSeqs {s : State} {b : Fin 8} (hb : s.has b = true) (hridge : b.val = s.ridge) (q : Fin 16) :
    seqNo b q ∈ s.holdSeqs b := by
  rw [State.holdSeqs, State.coastsWith, if_pos hridge]
  exact List.mem_flatMap.mpr ⟨b, List.mem_range.mpr (of_decide_eq_true hb), List.mem_map.mpr ⟨q, List.mem_range.mpr q.isLt, rfl⟩⟩

theorem unpark_plans {s u : State} {t : PT} {b : Fin 8} {q : Fin 16} {k x : Nat} (hu : u = s.arrive t)
    (htakes : u.takes b (sillPg b 0)) (hridge : b.val = u.ridge) (hk : k = seqNo b q) (hparked : (u.seq k).phase = .parked)
    (hmove : (u.seq k).moveReq = false) (howed : (u.seq k).owed = []) (htail : (u.seq k).tail = [])
    (hends : u.seqEnds k = false) (hmode : u.shotMode k = 0) (hfirst : (u.seq k).first = false)
    (hothers : ∀ j ∈ u.holdSeqs b, j ≠ k → (u.seq j).phase ≠ .parked)
    (hx : x = max (u.granCeil ((u.seq k).cEnd + (u.seq k).gap * u.gK)) (u.granCeil u.now)) :
    ∃ s', exec (.unpark t b 0) s = .next s' ∧ s'.seq k = (u.seq k).unparked x ∧
      s' = { u with sills := s'.sills, seqs := s'.seqs, ev := s'.ev } := by
  have hexec := unpark_next hu htakes
  obtain ⟨hb, -⟩ := htakes
  obtain ⟨l, m, hl, hnot⟩ : ∃ l m, u.holdSeqs b = l ++ k :: m ∧ k ∉ l :=
    List.eq_append_cons_of_mem (hk ▸ mem_holdSeqs hb hridge q)
  rw [hl, List.foldl_append, List.foldl_cons] at hexec
  have hsame : ∀ j, (u.goesOn b).seq j = u.seq j := fun j => by rw [u.goesOn_only]; rfl
  obtain ⟨honly, hseq⟩ := State.unparkAll_runs (l := l) (s := u.goesOn b) fun j hj => by
    rw [hsame]
    exact hothers j (by rw [hl]; simp [hj]) fun e => hnot (e ▸ hj)
  generalize l.foldl State.unparkSeq (u.goesOn b) = y at *
  have hy : y = { u with sills := (u.goesOn b).sills, seqs := y.seqs } := by rw [honly, u.goesOn_only]
  have hyk : y.seq k = u.seq k := by rw [hseq, if_neg hnot, hsame]
  have hpark : y.parking (k / 16) = false := by
    have hdiv : k / 16 = b := by rw [hk]; have := q.isLt; unfold seqNo; omega
    rw [hdiv, honly]
    exact State.goesOn_parking hridge
  have hends' : y.seqEnds k = false :=
    (State.seqEnds_congr (s := u) (by rw [hy]) (by rw [hy]) (by rw [hyk]) (by rw [hyk]) (by rw [hyk])).trans hends
  have hplans := State.unparkSeq_plans (s := y) (k := k) (by rw [hyk, hparked]) (by rw [hyk, hmove]) (by rw [hyk, howed])
    (by rw [hyk, htail]) hends' (by rw [hy]; exact hmode) (by rw [hyk, hfirst]) hpark
  have hx' : max (y.granCeil ((y.seq k).cEnd + (y.seq k).gap * y.gK)) (y.granCeil y.now) = x := by
    rw [hx, hyk, hy]
    rfl
  rw [hx', hyk] at hplans
  have hzk : (y.unparkSeq k).seq k = (u.seq k).unparked x := by rw [hplans, State.seq_setSeq_same]
  have hzj : ∀ j, j ≠ k → ((y.unparkSeq k).seq j).phase = (u.seq j).phase := fun j hj => by
    rw [hplans, State.seq_setSeq_ne _ _ _ _ hj, State.seq_setSeq_ne _ _ _ _ hj, hseq, hsame]
    split <;> rfl
  have hz : y.unparkSeq k = { u with sills := (u.goesOn b).sills, seqs := (y.unparkSeq k).seqs } := by
    rw [hplans, hy]
    rfl
  obtain ⟨hlast, hlastSeq⟩ := State.unparkAll_runs (l := m) (s := y.unparkSeq k) fun j hj => by
    by_cases hjk : j = k
    · rw [hjk, hzk]
      exact (by decide : SeqPhase.planned ≠ SeqPhase.parked)
    · rw [hzj j hjk]
      exact hothers j (by rw [hl]; simp [hj]) hjk
  refine ⟨_, hexec, ?_, ?_⟩
  · rw [State.seq_keep, State.seq_settle, hlastSeq, hzk]
    split <;> rfl
  · rw [State.keep_settle, hlast, hz]

/-! ### PULL_DONE (R79) -/

/-- PULL_LEFT of a sill put to 0, its pull over. -/
def State.endPull (s : State) (b k : Nat) : State :=
  (s.wr (sillPg b k + Off.SILL_PULL_LEFT) 0).setSill b k { s.sill b k with pull := none }

/-- A setting or a count of a sill's page is none of the registers SILL_STAT. -/
theorem sillReg_ne_stat {b k o : Nat} (ho : o < 0x1000) (hne : o ≠ Off.SILL_SILL_STAT) (c j : Nat) :
    sillStat c j ≠ sillPg b k + o := fun h => by
  have hoff : sillStat c j % 0x1000 = (sillPg b k + o) % 0x1000 := congrArg (· % 0x1000) h
  rw [sillStat_mod, sillReg_off b k ho] at hoff
  exact hne hoff.symm

/-- A write to a page of the sills off SILL_STAT leaves the active sill. -/
theorem State.activeSill_of_same {s x : State} {a : Nat} (h : s.sameRegs x [a]) (b : Nat) (ha : sillStat b 1 ≠ a) :
    x.activeSill b = s.activeSill b :=
  State.activeSill_of_bits (l := []) (State.keepsBits_of_reg (.refl s _ _) (h _ (by simpa using ha))) (by simp)

theorem State.endPull_same (s : State) (b k : Nat) : s.sameRegs (s.endPull b k) [sillPg b k + Off.SILL_PULL_LEFT] :=
  fun a ha => by rw [State.endPull, State.reg_setSill, State.reg_wr_ne _ _ (by simpa using ha)]

theorem State.endPull_shows (s : State) (b k : Nat) : (s.endPull b k).rd (sillPg b k + Off.SILL_PULL_LEFT) = 0 ∧
    ((s.endPull b k).sill b k).pull = none := by
  rw [State.endPull, State.rd_setSill, State.rd_wr_same, State.sill_setSill_same]
  exact ⟨rfl, rfl⟩

/-- Only registers, events, the timebase and the sills' steering are not as they were. -/
def State.onlySteering (u x : State) : Prop := ∃ r e z, x = { u with regs := r, ev := e, tb := x.tb, sills := z }

theorem State.onlySteering.variant {u x : State} (h : u.onlySteering x) : x.variant = u.variant := by
  obtain ⟨r, e, z, h⟩ := h
  rw [h]

theorem State.onlyRegs.steering {u x : State} (h : u.onlyRegs x) : u.onlySteering x := by
  obtain ⟨r, e, rfl⟩ := h
  exact ⟨r, e, _, rfl⟩

theorem State.onlySteering.setSill {u x : State} (h : u.onlySteering x) (b k : Nat) (y : Sill) :
    u.onlySteering (x.setSill b k y) := by
  obtain ⟨r, e, z, h⟩ := h
  rw [h]
  exact ⟨r, e, _, rfl⟩

theorem State.onlySteering.settleOffset {u x : State} (h : u.onlySteering x) (v : State) : u.onlySteering (v.settleOffset x) := by
  obtain ⟨r, e, z, h⟩ := h
  rw [h]
  exact ⟨r, e, z, rfl⟩

theorem State.onlySteering.raise {u x : State} (h : u.onlySteering x) (pg c : Nat) : u.onlySteering (x.raise pg c) := by
  obtain ⟨r, e, z, h⟩ := h
  obtain ⟨r', e', hraise⟩ := x.onlyRegs_raise pg c
  rw [hraise, h]
  exact ⟨r', e', z, rfl⟩

theorem State.endPull_only (s : State) (b k : Nat) : s.onlySteering (s.endPull b k) :=
  (s.onlyRegs_wr _ _).steering.setSill _ _ _

theorem State.endPull_tb (s : State) (b k : Nat) : (s.endPull b k).tb = s.tb := by
  rw [State.endPull, State.setSill_tb, State.wr_tb]

/-- With PULL_LEFT 0 and no pull, nothing is left of it. -/
theorem State.pullNow_none {s : State} {b : Nat} (hleft : s.rd (sillPg b (s.activeSill b) + Off.SILL_PULL_LEFT) = 0)
    (hpull : (s.sill b (s.activeSill b)).pull = none) : s.pullNow b = 0 := by
  rw [State.pullNow, State.pullLeftAt, hleft, hpull]
  rfl

/-- PULL_DONE ends the pull of the active sill. -/
theorem pullDone_next {s u : State} {t : PT} {b : Fin 8} (hu : u = s.arrive t)
    (hleft : u.rd (sillPg b (u.activeSill b) + Off.SILL_PULL_LEFT) ≠ 0) (hover : u.pullOver b = true) :
    exec (.pullDone t b) s = .next (u.keep (State.tbGather u (u.endPull b (u.activeSill b)) 0).settle) := by
  subst hu
  rw [exec_pullDone]
  refine congrArg (fun y : State => (.next ((s.arrive t).keep y.settle) : Out)) ?_
  dsimp only
  rw [State.onlyIf, if_pos (by rw [bne_iff_ne.mpr hleft, hover]; rfl), State.gathered, ← State.endPull]

/-- What such a change leaves, its conditions gathered. -/
theorem State.onlySteering.keep_gathered {u x : State} (h : u.onlySteering x) (v : State) (p : Nat) : ∃ r e z i f,
    u.keep (State.tbGather v x p).settle = { u with regs := r, ev := e, tb := x.tb, sills := z, tius := i, fres := f } := by
  obtain ⟨e', i, f, hkeep⟩ := State.keep_gathered_effect u x v p
  obtain ⟨r, e, z, h⟩ := h
  generalize x.tb = q at h ⊢
  subst h
  exact ⟨r, e', z, i, f, hkeep⟩

theorem pull_done {s u : State} {t : PT} {b : Fin 8} (hu : u = s.arrive t)
    (hleft : u.rd (sillPg b (u.activeSill b) + Off.SILL_PULL_LEFT) ≠ 0) (hover : u.pullOver b = true) :
    ∃ s', exec (.pullDone t b) s = .next s' ∧ s'.pullNow b = 0 ∧
      s'.rd (sillPg b (u.activeSill b) + Off.SILL_PULL_LEFT) = 0 ∧
      u.sameRegs s' [sillPg b (u.activeSill b) + Off.SILL_PULL_LEFT] ∧
      s' = { u with regs := s'.regs, ev := s'.ev, sills := s'.sills, tius := s'.tius, fres := s'.fres } := by
  have hreg := State.reg_keep_gathered (u := u) (x := u.endPull b (u.activeSill b)) u 0 (u.endPull_only b _).variant
  have hsill := State.sill_keep_gathered (u := u) (x := u.endPull b (u.activeSill b)) u 0
  obtain ⟨hzero, hpull⟩ := u.endPull_shows b (u.activeSill b)
  obtain ⟨r, e, z, i, f, honly⟩ := (u.endPull_only b (u.activeSill b)).keep_gathered u 0
  refine ⟨_, pullDone_next hu hleft hover, ?_⟩
  generalize u.keep (State.tbGather u (u.endPull b (u.activeSill b)) 0).settle = y at hreg hsill honly ⊢
  have hsame : u.sameRegs y [sillPg b (u.activeSill b) + Off.SILL_PULL_LEFT] := fun a ha =>
    (hreg a).trans (u.endPull_same b _ a ha)
  have hzero' := (State.rd_of_reg (hreg (sillPg b (u.activeSill b) + Off.SILL_PULL_LEFT))).trans hzero
  have hactive := State.activeSill_of_same hsame b (sillReg_ne_stat (by decide) (by decide) b 1)
  refine ⟨State.pullNow_none ?_ ?_, hzero', hsame, ?_⟩
  · rw [hactive, hzero']
  · rw [hactive, hsill, hpull]
  · rw [honly, u.endPull_tb]

/-! ### Fine phase steps (R83) -/

theorem toSigned_ofSigned {x : Int} (hlo : -(2 ^ 31 : Int) ≤ x) (hhi : x < 2 ^ 31) : toSigned 32 (ofSigned 32 x) = x := by
  unfold toSigned ofSigned
  norm_num at hlo hhi ⊢
  split <;> omega

/-- PHASE_LEFT put is what is left of the step. -/
theorem State.phaseNow_put {s : State} {b : Nat} {x : Int} (hridge : b = s.ridge) (hlo : -(2 ^ 31 : Int) ≤ x) (hhi : x < 2 ^ 31)
    (hleft : s.rd (s.phaseLeft b) = ofSigned 32 x) (hat : (s.sill b (s.activeSill b)).phaseAt = s.now) : s.phaseNow = x := by
  rw [State.phaseNow, ← hridge, State.phaseLeftAt, hat, Nat.sub_self, rampAt_start]
  exact (congrArg (toSigned 32) hleft).trans (toSigned_ofSigned hlo hhi)

theorem State.setPhaseLeft_steering (s : State) (b w : Nat) : s.onlySteering (s.setPhaseLeft b w) :=
  (s.onlyRegs_wr _ _).steering.setSill _ _ _

theorem State.setPhaseLeft_tb (s : State) (b w : Nat) : (s.setPhaseLeft b w).tb = s.tb := by
  rw [State.setPhaseLeft, State.setSill_tb, State.wr_tb]

theorem State.setPhaseLeft_same (s : State) (b w : Nat) : s.sameRegs (s.setPhaseLeft b w) [s.phaseLeft b] :=
  fun a ha => by rw [State.setPhaseLeft, State.reg_setSill, State.reg_wr_ne _ _ (by simpa using ha)]

theorem State.setPhaseLeft_shows (s : State) (b w : Nat) : (s.setPhaseLeft b w).rd (s.phaseLeft b) = w % 2 ^ 32 ∧
    ((s.setPhaseLeft b w).sill b (s.activeSill b)).phaseAt = s.now := by
  rw [State.setPhaseLeft, State.rd_setSill, State.rd_wr_same, State.sill_setSill_same]
  exact ⟨rfl, rfl⟩

/-- PHASE_STEP puts what PHASE_LEFT shows, and settles the offset added so far; a step that comes to nothing raises its event. -/
def State.stepPhase (s : State) (b : Nat) (was sum : Int) : State :=
  let put := s.settleOffset (s.setPhaseLeft b (ofSigned 32 sum))
  if sum = 0 && was != 0 then put.raise (sillPg b (s.activeSill b)) 9 else put

theorem State.stepPhase_steering (s : State) (b : Nat) (was sum : Int) : s.onlySteering (s.stepPhase b was sum) := by
  have hput := (s.setPhaseLeft_steering b (ofSigned 32 sum)).settleOffset s
  unfold State.stepPhase
  dsimp only
  split
  · exact hput.raise _ _
  · exact hput

/-- The registers and the sills are as the put leaves them. -/
theorem State.stepPhase_put (s : State) (b : Nat) (was sum : Int) :
    (∀ a, (s.stepPhase b was sum).reg a = (s.setPhaseLeft b (ofSigned 32 sum)).reg a) ∧
      ∀ c k, (s.stepPhase b was sum).sill c k = (s.setPhaseLeft b (ofSigned 32 sum)).sill c k := by
  unfold State.stepPhase
  dsimp only
  split
  · exact ⟨fun a => State.reg_raise _ _ _ _, fun c k => State.sill_raise _ _ _ _ _⟩
  · exact ⟨fun a => rfl, fun c k => rfl⟩

/-- PHASE_STEP on the ridge's SILLA page. -/
theorem phaseStep_next {s u : State} {t : PT} {b : Fin 8} {v : BitVec 24} (hu : u = s.arrive t) (htakes : u.takes b (sillPg b 0))
    (hridge : b.val = u.ridge) (hrelock : u.bit (sillStat b (u.activeSill b)) 5 = false)
    (hlo : -(2 ^ 31 : Int) ≤ u.phaseNow + v.toInt) (hhi : u.phaseNow + v.toInt < 2 ^ 31) :
    exec (.phaseStep t b 0 v) s =
      .next (u.keep (State.tbGather u (u.stepPhase b u.phaseNow (u.phaseNow + v.toInt)) 0).settle) := by
  have hfit : u.fit (decide (-(2 ^ 31 : Int) ≤ u.phaseNow + v.toInt) && decide (u.phaseNow + v.toInt < (2 ^ 31 : Int))) 32
      (ofSigned 32 (u.phaseNow + v.toInt)) = (ofSigned 32 (u.phaseNow + v.toInt), u) := by
    rw [decide_eq_true hlo, decide_eq_true hhi]
    exact congrArg (·, u) (Nat.mod_eq_of_lt (ofSigned_lt 32 _))
  have htaken := State.command_takes htakes
  subst hu
  rw [exec_phaseStep]
  refine congrArg (fun y : State => (.next ((s.arrive t).keep y.settle) : Out)) ?_
  refine (htaken _).trans ?_
  dsimp only
  rw [if_neg (by rw [hrelock]; simpa using hridge), State.gathered, hfit, State.stepPhase]

theorem phase_step {s u : State} {t : PT} {b : Fin 8} {v : BitVec 24} (hu : u = s.arrive t) (htakes : u.takes b (sillPg b 0))
    (hridge : b.val = u.ridge) (hrelock : u.bit (sillStat b (u.activeSill b)) 5 = false)
    (hlo : -(2 ^ 31 : Int) ≤ u.phaseNow + v.toInt) (hhi : u.phaseNow + v.toInt < 2 ^ 31) :
    ∃ s', exec (.phaseStep t b 0 v) s = .next s' ∧ s'.phaseNow = u.phaseNow + v.toInt ∧ u.sameRegs s' [u.phaseLeft b] ∧
      s' = { u with regs := s'.regs, ev := s'.ev, tb := s'.tb, sills := s'.sills, tius := s'.tius, fres := s'.fres } := by
  refine ⟨_, phaseStep_next hu htakes hridge hrelock hlo hhi, ?_⟩
  generalize u.phaseNow + v.toInt = x at *
  have honlySteering := u.stepPhase_steering b u.phaseNow x
  obtain ⟨hputReg, hputSill⟩ := u.stepPhase_put b u.phaseNow x
  obtain ⟨hleft, hat⟩ := u.setPhaseLeft_shows b (ofSigned 32 x)
  have hreg := State.reg_keep_gathered (u := u) u 0 honlySteering.variant
  have hsill := State.sill_keep_gathered (u := u) (x := u.stepPhase b u.phaseNow x) u 0
  obtain ⟨r, e, z, i, f, honly⟩ := honlySteering.keep_gathered u 0
  generalize u.keep (State.tbGather u (u.stepPhase b u.phaseNow x) 0).settle = y at hreg hsill honly ⊢
  have hsame : u.sameRegs y [u.phaseLeft b] := fun a ha =>
    (hreg a).trans ((hputReg a).trans (u.setPhaseLeft_same b _ a ha))
  have hactive := State.activeSill_of_same hsame b (sillReg_ne_stat (by decide) (by decide) b 1)
  have hstep : y.phaseLeft b = u.phaseLeft b := by rw [State.phaseLeft, State.phaseLeft, hactive]
  refine ⟨State.phaseNow_put (b := b) ?_ hlo hhi ?_ ?_, hsame, ?_⟩
  · rw [honly, hridge]
  · rw [hstep, State.rd_of_reg ((hreg _).trans (hputReg _)), hleft, Nat.mod_eq_of_lt (ofSigned_lt 32 x)]
  · rw [hactive, hsill, hputSill, hat, honly]
    rfl
  · rw [honly]

theorem phase_step_refused {s u : State} {t : PT} {b : Fin 8} {k : Fin 2} {v : BitVec 24} (hu : u = s.arrive t)
    (htakes : u.takes b (sillPg b k)) (hother : k = 1 ∨ b.val ≠ u.ridge) :
    ∃ s', exec (.phaseStep t b k v) s = .next s' ∧ s'.isLatched (sillPg b k) 0x4A = true ∧ s' = { u with ev := s'.ev } := by
  rw [exec_phaseStep]
  refine runAt_refused hu ((State.command_takes htakes _).trans ?_)
  exact if_pos (by simpa using Or.inl hother)

theorem phase_done {s u : State} {t : PT} (hu : u = s.arrive t) (hleft : u.rd (u.phaseLeft u.ridge) ≠ 0)
    (hover : u.phaseNow = 0) : ∃ s', exec (.phaseDone t) s = .next s' ∧ s'.rd (u.phaseLeft u.ridge) = 0 ∧
      s'.raised (sillPg u.ridge (u.activeSill u.ridge)) 9 = true ∧ u.sameRegs s' [u.phaseLeft u.ridge] ∧
      s' = { u with regs := s'.regs, ev := s'.ev, sills := s'.sills, tius := s'.tius, fres := s'.fres } := by
  have hexec : exec (.phaseDone t) s = .next (u.keep (State.tbGather u
      ((u.setPhaseLeft u.ridge 0).raise (sillPg u.ridge (u.activeSill u.ridge)) 9) 0).settle) := by
    subst hu
    rw [exec_phaseDone]
    refine congrArg (fun y : State => (.next ((s.arrive t).keep y.settle) : Out)) ?_
    dsimp only
    rw [State.onlyIf, if_pos (by rw [bne_iff_ne.mpr hleft, hover]; rfl), State.gathered]
  have honlySteering := (u.setPhaseLeft_steering u.ridge 0).raise (sillPg u.ridge (u.activeSill u.ridge)) 9
  have hreg := State.reg_keep_gathered (u := u) u 0 honlySteering.variant
  obtain ⟨r, e, z, i, f, honly⟩ := honlySteering.keep_gathered u 0
  refine ⟨_, hexec, ?_, State.raised_keep_gathered u _ (State.raised_raise_same _ _ _), fun a ha => ?_, ?_⟩
  · rw [State.rd_of_reg ((hreg _).trans (State.reg_raise _ _ _ _))]
    exact (u.setPhaseLeft_shows u.ridge 0).1
  · exact (hreg a).trans ((State.reg_raise _ _ _ _).trans (u.setPhaseLeft_same u.ridge 0 a ha))
  · rw [honly, State.raise_tb, State.setPhaseLeft_tb]

/-- Settles O12: HOLD_LIMIT, UNPARK with the plan of a parked sequencer, the end of a pull, and PHASE_STEP taken, refused and
carried out. -/
theorem sillHoldAndPhase : Obligations.SillHoldAndPhase := by
  intro s u t b hu
  exact ⟨hold_limit hu, unpark_takes_back hu, fun q k x => unpark_plans hu, pull_done hu, fun v => phase_step hu,
    fun v k => phase_step_refused hu, phase_done hu⟩

end Sys2Proof.Machine
end

section
/-!
PROOFS. A relock's reach (R87–R89): what measurements cut short and converters accounted for leave of the sills' pages.
-/

namespace Sys2Proof.Machine

/-! ### The pages below the converters' -/

/-- What no page of a bent from its converters' on reaches: the part, the timebase, READY's hold, and the registers of the pages
before them, the package's first pages among these. -/
def State.lows (s : State) : Variant × Tb × Bool × (Nat → Word) :=
  (s.variant, s.tb, s.readyOff, fun a => if a % 0x400000 < 0x8000 then s.reg a else 0)

section Lows

variable {s x : State}

theorem State.lows_congr (hv : x.variant = s.variant) (ht : x.tb = s.tb) (ho : x.readyOff = s.readyOff)
    (hr : ∀ a, a % 0x400000 < 0x8000 → x.reg a = s.reg a) : x.lows = s.lows := by
  have hlow : (fun a => if a % 0x400000 < 0x8000 then x.reg a else 0) = fun a => if a % 0x400000 < 0x8000 then s.reg a else 0 :=
    funext fun a => by
      split
      · next ha => exact hr a ha
      · rfl
  unfold State.lows
  rw [hv, ht, ho, hlow]

theorem State.variant_of_lows (h : x.lows = s.lows) : x.variant = s.variant := congrArg (·.1) h

theorem State.tb_of_lows (h : x.lows = s.lows) : x.tb = s.tb := congrArg (·.2.1) h

theorem State.readyOff_of_lows (h : x.lows = s.lows) : x.readyOff = s.readyOff := congrArg (·.2.2.1) h

theorem State.reg_of_lows (h : x.lows = s.lows) {a : Nat} (ha : a % 0x400000 < 0x8000) : x.reg a = s.reg a := by
  have hat : (if a % 0x400000 < 0x8000 then x.reg a else 0) = if a % 0x400000 < 0x8000 then s.reg a else 0 :=
    congrFun (congrArg (·.2.2.2) h) a
  rwa [if_pos ha, if_pos ha] at hat

end Lows

/-- A register of a sill is on such a page. -/
theorem low_sillReg {b k o : Nat} (hk : k < 2) (ho : o < 0x1000) : (sillPg b k + o) % 0x400000 < 0x8000 := by
  unfold sillPg bp
  omega

/-- An address of a bent's page from its converters' on. -/
def high (a : Nat) : Prop := 0x8000 ≤ a % 0x400000

theorem high_bp {b p o : Nat} (h : (8 ≤ p ∧ p < 0x30) ∧ o < 0x1000) : high (bp b p + o) := by
  unfold high bp
  omega

/-- An engine that serves a source is one of the bent's sixteen. -/
theorem dmaFor_lt {s : State} {b src e : Nat} (h : s.dmaFor b src = some e) : e < 16 := by
  unfold State.dmaFor at h
  exact List.mem_range.mp (List.mem_of_find?_eq_some h)

theorem high_dma {b c e : Nat} (hc : c < 0x800) (he : e < 16) : high (evPg b + (c + 0x40 * e)) := by
  unfold high evPg bp
  omega

theorem high_dma_add {b c e : Nat} (hc : c + 4 < 0x800) (he : e < 16) : high (evPg b + (c + 0x40 * e) + 4) := by
  unfold high evPg bp
  omega

/-- A register of one of the four interval units. -/
theorem high_tiu {b c u : Nat} (hu : u < 4) (hc : c < 0x800) : high (stampPg b + (c + 0x80 * u)) := by
  unfold high stampPg bp
  omega

theorem high_tiu_add {b c d u : Nat} (hu : u < 4) (hc : c + d < 0x800) : high (stampPg b + (c + 0x80 * u) + d) := by
  unfold high stampPg bp
  omega

/-- FREe_STAT of one of the two frequency counters. -/
theorem high_freStat {b e : Nat} (he : e < 2) : high (freqPg b + Off.FREQ_FRE_STAT e) :=
  high_bp (by unfold Off.FREQ_FRE_STAT; omega)

section LowsRules

variable (s : State)

theorem State.lows_wr {a : Nat} (ha : high a) (v : Nat) : (s.wr a v).lows = s.lows :=
  State.lows_congr rfl rfl rfl fun _ hc => s.reg_wr_ne v fun e => absurd (e ▸ hc) (Nat.not_lt.mpr ha)

theorem State.lows_setBit {a : Nat} (ha : high a) (i : Nat) (on : Bool) : (s.setBit a i on).lows = s.lows := s.lows_wr ha _

theorem State.lows_bump {a : Nat} (ha : high a) : (s.bump a).lows = s.lows := s.lows_wr ha _

theorem State.lows_wr64 {a : Nat} (h0 : high a) (h4 : high (a + 4)) (v : Nat) : (s.wr64 a v).lows = s.lows :=
  (State.lows_wr _ h4 _).trans (s.lows_wr h0 _)

theorem State.lows_wr80 {a : Nat} (h0 : high a) (h4 : high (a + 4)) (h8 : high (a + 8)) (v : Nat) : (s.wr80 a v).lows = s.lows :=
  (State.lows_wr _ h8 _).trans (s.lows_wr64 h0 h4 _)

theorem State.lows_setDma (b e : Nat) (z : DmaSt) : (s.setDma b e z).lows = s.lows := rfl

theorem State.lows_setTiu (b i : Nat) (z : Tiu) : (s.setTiu b i z).lows = s.lows := rfl

theorem State.lows_setFre (b e : Nat) (z : Fre) : (s.setFre b e z).lows = s.lows := rfl

theorem State.lows_latchHealth (pg c : Nat) : (s.latchHealth pg c).lows = s.lows := rfl

theorem State.lows_raise (pg i : Nat) : (s.raise pg i).lows = s.lows :=
  State.lows_congr (s.raise_variant _ _) (s.raise_tb _ _) (s.raise_readyOff _ _) fun _ _ => State.reg_raise _ _ _ _

/-! ### Measurements cut short (R87) -/

theorem State.lows_ringWrite (base size wr : Nat) (l : List Byte) : (s.ringWrite base size wr l).lows = s.lows := by
  have hbyte : ∀ (x : State) (a : Nat) (v : Byte), (x.setByte a v).lows = x.lows := fun x a v => by
    unfold State.setByte
    split <;> rfl
  induction l generalizing s wr with
  | nil => rfl
  | cons v r ih => exact (ih _ _).trans (hbyte s _ v)

/-- A transfer to the host reaches its engine's counts on the EVENTS page. -/
theorem State.lows_hostPut (b src : Nat) (l : List Byte) (poison : Bool) : (s.hostPut b src l poison).1.lows = s.lows := by
  unfold State.hostPut
  extract_lets e0 s0
  have h0 : s0.lows = s.lows := rfl
  clear_value s0
  split
  · exact h0
  · split
    · exact h0
    · next e he =>
      have he16 : e < 16 := dmaFor_lt he
      extract_lets d good
      split
      · exact (State.lows_setDma _ _ _ _).trans ((State.lows_bump _ (high_dma (by decide) he16)).trans h0)
      · exact (State.lows_setDma _ _ _ _).trans
          ((State.lows_wr64 _ (high_dma (by decide) he16) (high_dma_add (by decide) he16) _).trans h0)

theorem State.lows_writeRec (b : Nat) (l : List Byte) : (s.writeRec b l).lows = s.lows := by
  have hdrop : ∀ x : State, ((({ x with recGap := setPut x.recGap b true } : State).bump
      (stampPg b + Off.STAMP_REC_DROP_COUNT)).raise (stampPg b) 7).lows = x.lows := fun x => by
    rw [State.lows_raise, State.lows_bump _ (high_bp (by decide))]
    rfl
  unfold State.writeRec
  dsimp only
  split
  · split
    · exact hdrop s
    · rw [State.lows_wr _ (high_bp (by decide)), State.lows_ringWrite]
  · split
    · split
      · exact s.lows_hostPut b 5 l false
      · exact (hdrop _).trans (s.lows_hostPut b 5 l false)
    · rfl

theorem State.lows_makeRec (b kind unit start tb : Nat) (owner : Option Owner) (sign : Bool) (payload : List Nat) :
    (s.makeRec b kind unit start tb owner sign payload).lows = s.lows := by
  unfold State.makeRec
  extract_lets pg queue signed seq t s1
  have h1 : s1.lows = s.lows := State.lows_wr { s with recGap := setPut s.recGap b false } (high_bp (by decide)) _
  clear_value s1
  split
  · rfl
  · split
    extract_lets w1 hdr l
    split_ifs
    · exact h1
    · rw [State.lows_writeRec, State.lows_latchHealth, State.lows_bump _ (high_bp (by decide)), h1]
    · rw [State.lows_writeRec, h1]

theorem State.lows_fit {s x : State} {ok : Bool} {w v n : Nat} (h : s.fit ok w v = (n, x)) : x.lows = s.lows := by
  unfold State.fit at h
  split at h <;> cases h <;> rfl

/-- A measurement taken reaches its interval unit's registers. -/
theorem State.lows_tiuTake (b : Nat) {u : Nat} (hu : u < 4) (start stop : Nat) : (s.tiuTake b u start stop).lows = s.lows := by
  unfold State.tiuTake
  extract_lets x pg raw v c sum sq lo hi mean rms order near
  split; next w0 s0 e0 =>
  split; next w1 s1 e1 =>
  split; next w2 s2 e2 =>
  split; next w3 s3 e3 =>
  split; next w4 s4 e4 =>
  extract_lets st st' s5 s6 s7
  have hfits : s4.lows = s.lows := (State.lows_fit e4).trans ((State.lows_fit e3).trans ((State.lows_fit e2).trans
    ((State.lows_fit e1).trans (State.lows_fit e0))))
  have h64 : ∀ (y : State) {o : Nat} (n : Nat), o + 4 < 0x800 → (y.wr64 (pg + (o + 0x80 * u)) n).lows = y.lows :=
    fun y _ n ho => y.lows_wr64 (high_tiu hu (by omega)) (high_tiu_add hu ho) n
  have h5 : s5.lows = s4.lows := by
    rw [State.lows_wr80 _ (high_tiu hu (by decide)) (high_tiu_add hu (by decide)) (high_tiu_add hu (by decide)),
      State.lows_wr _ (high_tiu hu (by decide)), h64 _ _ (by decide), h64 _ _ (by decide),
      State.lows_wr _ (high_tiu hu (by decide)), h64 _ _ (by decide), h64 _ _ (by decide)]
  have h6 : s6.lows = s5.lows := by
    unfold s6
    split
    · exact s5.lows_bump (high_tiu hu (by decide))
    · rfl
  have h7 : s7.lows = s6.lows := by
    unfold s7
    split
    · exact s6.lows_bump (high_tiu hu (by decide))
    · rfl
  exact (State.lows_setTiu ..).trans (h7.trans (h6.trans (h5.trans hfits)))

theorem State.lows_tiuComplete (b : Nat) {u : Nat} (hu : u < 4) : (s.tiuComplete b u).lows = s.lows := by
  unfold State.tiuComplete
  split
  · split
    · exact s.lows_tiuTake b hu ..
    · rfl
  · rfl

/-- The end of an interval unit's series, which may write its record. -/
theorem State.lows_tiuEnd (b : Nat) {u : Nat} (hu : u < 4) (cut timeout : Bool) : (s.tiuEnd b u cut timeout).lows = s.lows := by
  unfold State.tiuEnd
  extract_lets s0 trunc x pg a st s1 s2 s3 s4 c rd64
  have h0 : s0.lows = s.lows := by
    unfold s0
    split
    · exact s.lows_tiuComplete b hu
    · rfl
  have h1 : s1.lows = s0.lows := (State.lows_setTiu ..).trans (s0.lows_wr (high_tiu hu (by decide)) _)
  have h3 : s3.lows = s1.lows := by
    unfold s3 s2
    split
    · exact (State.lows_raise ..).trans (State.lows_raise ..)
    · exact State.lows_raise ..
  have h4 : s4.lows = s3.lows := by
    unfold s4
    split
    · exact s3.lows_setBit (high_bp (by decide)) _ _
    · rfl
  have h : s4.lows = s.lows := h4.trans (h3.trans (h1.trans h0))
  clear_value s4
  split
  · exact h0
  · split
    · exact (State.lows_makeRec ..).trans h
    · exact h

/-- The end of a gate, which may open the next. -/
theorem State.lows_gateClose (b : Nat) {e : Nat} (he : e < 2) (x : Nat) (trunc : Bool) : (s.gateClose b e x trunc).lows = s.lows := by
  have hopen : ∀ (y : State) (g : Nat) (owner : Option Owner) (late : Bool), (y.gateOpen b e g owner late).lows = y.lows :=
    fun y g owner late => by
    unfold State.gateOpen
    dsimp only
    rw [State.lows_setFre, State.lows_wr _ (high_freStat he)]
    split
    · rfl
    · exact State.lows_latchHealth ..
  unfold State.gateClose
  dsimp only
  split
  · rfl
  · split_ifs
    · rw [hopen, State.lows_setBit _ (high_freStat he), State.lows_setFre]
    · rw [State.setDrained, State.lows_setBit _ (high_bp (by decide)), State.lows_setBit _ (high_freStat he), State.lows_setFre]
    · rw [State.lows_setBit _ (high_freStat he), State.lows_setFre]

end LowsRules

/-! ### Converters accounted for (log entry 176) -/

/-- What converters have emitted, accounted for: registers of their pages, the samples and the event state. -/
def State.synced (u x : State) : Prop :=
  (∃ r d e, x = { u with regs := r, dacAt := d, ev := e }) ∧ ∀ a, a % 0x400000 < 0x8000 → x.reg a = u.reg a

theorem State.synced.refl (u : State) : u.synced u := ⟨⟨u.regs, u.dacAt, u.ev, rfl⟩, fun _ _ => rfl⟩

theorem State.synced.trans {u x y : State} (h : u.synced x) (k : x.synced y) : u.synced y := by
  obtain ⟨⟨_, _, _, rfl⟩, hr⟩ := h
  obtain ⟨⟨r, d, e, rfl⟩, kr⟩ := k
  exact ⟨⟨r, d, e, rfl⟩, fun a ha => (kr a ha).trans (hr a ha)⟩

theorem State.synced_syncAll (u : State) (x : Nat) : u.synced (u.syncAll x) := by
  refine foldl_rel .refl .trans (fun b _ y => foldl_rel .refl .trans (fun i hi z => ?_) y) u
  obtain ⟨honly, hpages⟩ := z.onlyClips_syncPage b (8 + i) x
  have hi7 : i < 7 := List.mem_range.mp hi
  refine ⟨honly, fun a ha => hpages a fun hpage => ?_⟩
  rw [List.mem_singleton] at hpage
  unfold pageOf bp at hpage
  omega

theorem State.synced.lows {u x : State} (h : u.synced x) : x.lows = u.lows := by
  obtain ⟨⟨r, d, e, rfl⟩, hr⟩ := h
  exact State.lows_congr rfl rfl rfl hr

end Sys2Proof.Machine
end

section
/-!
PROOFS. RELOCK taken and refused (R87, R88).
-/

namespace Sys2Proof.Machine

/-- What each step of a fold puts, and no step takes away, holds at the end of each of its elements. -/
theorem foldl_puts {α : Type} {P : State → α → Prop} {f : State → α → State} {l : List α}
    (hput : ∀ a ∈ l, ∀ s, P (f s a) a) (hkeep : ∀ a ∈ l, ∀ s c, P s c → P (f s a) c) (s : State) :
    ∀ c ∈ l, P (l.foldl f s) c := by
  have hafter : ∀ (m : List α), m ⊆ l → ∀ (x : State) c, P x c → P (m.foldl f x) c := fun m => by
    induction m with
    | nil => exact fun _ _ _ h => h
    | cons a m ih =>
      exact fun hm x c h => ih (fun _ hd => hm (List.mem_cons_of_mem a hd)) _ c (hkeep a (hm List.mem_cons_self) x c h)
  intro c hc
  obtain ⟨m, n, rfl⟩ := List.append_of_mem hc
  rw [List.foldl_append, List.foldl_cons]
  exact hafter n (fun _ hd => List.mem_append_right m (List.mem_cons_of_mem c hd)) _ c (hput c hc _)

/-! ### READY (R88, R409) -/

/-- READY clears while a relock is in progress. -/
theorem State.readyUpdate_off {s : State} (h : s.readyOff = true) : s.readyUpdate.bit (pkgp 0 + Off.PKG_PKG_STAT) 24 = false := by
  unfold State.readyUpdate
  dsimp only
  rw [h, Bool.not_true, Bool.and_false]
  split
  · next heq => exact (beq_iff_eq.mp heq).symm
  · exact State.bit_setBit_same _ _ _ _ (by decide)

theorem sillStat_ne_pkgStat {b k : Nat} (hk : k < 2) : sillStat b k ≠ pkgp 0 + Off.PKG_PKG_STAT := by
  unfold sillStat sillPg bp pkgp Off.SILL_SILL_STAT Off.PKG_PKG_STAT
  omega

/-- It reaches no sill's state. -/
theorem State.readyUpdate_stat (s : State) {b k : Nat} (hk : k < 2) :
    s.readyUpdate.reg (sillStat b k) = s.reg (sillStat b k) := by
  have hset : ∀ on, (s.setBit (pkgp 0 + Off.PKG_PKG_STAT) 24 on).reg (sillStat b k) = s.reg (sillStat b k) := fun on =>
    State.reg_setBit_ne _ _ _ (sillStat_ne_pkgStat hk)
  unfold State.readyUpdate
  dsimp only
  split
  · rfl
  · split
    · exact (State.reg_raise _ _ _ _).trans (hset _)
    · exact hset _

theorem State.readyUpdate_tb (s : State) : s.readyUpdate.tb = s.tb := by
  unfold State.readyUpdate
  dsimp only
  split
  · rfl
  · split
    · rw [State.raise_tb, State.setBit_tb]
    · rw [State.setBit_tb]

/-! ### What the start of a relock leaves -/

/-- The start of a relock keeps the timebase and READY's hold, every FAULTED, and every RELOCKING that stands. -/
structure State.relocks (s x : State) : Prop where
  variant : x.variant = s.variant
  tb : x.tb = s.tb
  readyOff : x.readyOff = s.readyOff
  faulted : ∀ c j, c < 8 → j < 2 → x.bit (sillStat c j) 7 = s.bit (sillStat c j) 7
  relocking : ∀ c j, c < 8 → j < 2 → s.bit (sillStat c j) 5 = true → x.bit (sillStat c j) 5 = true

section Relocks

variable {s x y : State}

theorem State.relocks.refl (s : State) : s.relocks s := ⟨rfl, rfl, rfl, fun _ _ _ _ => rfl, fun _ _ _ _ h => h⟩

theorem State.relocks.trans (h : s.relocks x) (k : x.relocks y) : s.relocks y where
  variant := k.variant.trans h.variant
  tb := k.tb.trans h.tb
  readyOff := k.readyOff.trans h.readyOff
  faulted c j hc hj := (k.faulted c j hc hj).trans (h.faulted c j hc hj)
  relocking c j hc hj hr := k.relocking c j hc hj (h.relocking c j hc hj hr)

theorem State.relocks_of_lows (h : x.lows = s.lows) : s.relocks x where
  variant := State.variant_of_lows h
  tb := State.tb_of_lows h
  readyOff := State.readyOff_of_lows h
  faulted c j _ hj := State.bit_of_reg (State.reg_of_lows h (low_sillReg hj (by decide))) 7
  relocking c j _ hj hr := (State.bit_of_reg (State.reg_of_lows h (low_sillReg hj (by decide))) 5).trans hr

theorem State.works.readyOff {l : List Nat} (h : s.works x l) : x.readyOff = s.readyOff := by
  have he : x.sansSills.readyOff = s.sansSills.readyOff := congrArg State.readyOff h.1
  exact he

/-- An operation of the sills that keeps the timebase, and of the sills' states puts neither FAULTED nor RELOCKING. -/
theorem State.relocks_of_works {l m : List Nat} (hw : s.works x l) (ht : x.tb = s.tb)
    (hbits : ∀ c j, c < 8 → j < 2 → s.keepsBits x (sillStat c j) m) (h5 : 5 ∉ m) (h7 : 7 ∉ m) : s.relocks x where
  variant := hw.variant
  tb := ht
  readyOff := hw.readyOff
  faulted c j hc hj := hbits c j hc hj 7 (by decide) h7
  relocking c j hc hj hr := (hbits c j hc hj 5 (by decide) h5).trans hr

end Relocks

theorem State.unlock_tb (s : State) (b k : Nat) : (s.unlock b k true).tb = s.tb := by
  unfold State.unlock
  dsimp only
  split
  · rw [if_pos rfl]
    split <;> simp
  · rfl

theorem State.autoClamp_tb (s : State) (b n : Nat) : (s.autoClamp b n).tb = s.tb :=
  foldl_frame State.tb _ (fun y k => by
    dsimp only
    split <;> simp) _ s

/-- The active sill of a bent begins its acquisition at the new lattice. -/
def State.relockSill (s : State) (b n : Nat) : State :=
  if s.hasActive b then ((s.unlock b (s.activeSill b) true).autoClamp b n).acqStart b (s.activeSill b) else s

theorem State.relocks_relockSill (s : State) {b : Nat} (hb : b < 8) (n : Nat) : s.relocks (s.relockSill b n) := by
  have hstat : ∀ c j, sillStat c j % 0x1000 = Off.SILL_SILL_STAT := sillStat_mod
  have hunlock : s.relocks (s.unlock b (s.activeSill b) true) :=
    State.relocks_of_works (s.works_unlock _ _ _) (s.unlock_tb _ _)
      (fun c j _ _ => s.keepsBits_unlock _ _ _ (hstat c j)) (by decide) (by decide)
  have hclamp : ∀ y : State, y.relocks (y.autoClamp b n) := fun y =>
    State.relocks_of_works (m := []) (y.works_autoClamp b n) (y.autoClamp_tb b n)
      (fun c j _ _ => State.keepsBits_of_works (.refl y _ _) (y.works_autoClamp b n) (by rw [hstat]; decide))
      (by decide) (by decide)
  have hacq : ∀ y : State, y.relocks (y.acqStart b (s.activeSill b)) := fun y =>
    State.relocks_of_works (y.works_acqStart _ _) (State.steady_acqStart hb (s.activeSill_lt b) []).tb
      (fun c j _ _ => y.keepsBits_acqStart _ _ (hstat c j)) (by decide) (by decide)
  unfold State.relockSill
  split
  · exact hunlock.trans ((hclamp _).trans (hacq _))
  · exact .refl s

/-- RELOCKING stands at both sills of a bent that are not FAULTED. -/
def State.markRelock (s : State) (b : Nat) : State :=
  s.each [0, 1] fun s k => if s.bit (sillStat b k) 7 then s else s.setBit (sillStat b k) 5 true

/-- So it stands. -/
def State.relockMarked (s : State) (b : Nat) : Prop :=
  ∀ j, j < 2 → s.bit (sillStat b j) 7 = false → s.bit (sillStat b j) 5 = true

theorem State.relockMarked_of {s x : State} {b : Nat} (h : s.relocks x) (hb : b < 8) (hs : s.relockMarked b) : x.relockMarked b :=
  fun j hj hfault => h.relocking b j hb hj (hs j hj ((h.faulted b j hb hj).symm.trans hfault))

/-- One sill's mark. -/
theorem State.relocks_mark (s : State) (a : Nat) : s.relocks (if s.bit a 7 then s else s.setBit a 5 true) := by
  split
  · exact .refl s
  · refine ⟨rfl, rfl, rfl, fun c j _ _ => ?_, fun c j _ _ hr => ?_⟩
    · rw [State.bit_setBit _ _ _ _ _ (by decide)]
      split
      · next hc => rw [hc, if_neg (by decide)]
      · rfl
    · rw [State.bit_setBit _ _ _ _ _ (by decide), if_pos rfl, hr, ite_self]

theorem State.relocks_markRelock (s : State) (b : Nat) : s.relocks (s.markRelock b) :=
  foldl_rel .refl .trans (fun _ _ y => y.relocks_mark _) s

theorem State.markRelock_marked (s : State) {b : Nat} (hb : b < 8) : (s.markRelock b).relockMarked b := by
  have hmark : ∀ (y : State) a, (if y.bit a 7 then y else y.setBit a 5 true).bit a 7 = false →
      (if y.bit a 7 then y else y.setBit a 5 true).bit a 5 = true := fun y a h => by
    cases hf : y.bit a 7 with
    | true => simp [hf] at h
    | false => simpa [hf] using State.bit_setBit_same y a 5 true (by decide)
  have hall := foldl_puts (P := fun y j => j < 2 → y.bit (sillStat b j) 7 = false → y.bit (sillStat b j) 5 = true)
    (f := fun (y : State) k => if y.bit (sillStat b k) 7 then y else y.setBit (sillStat b k) 5 true) (l := [0, 1])
    (fun j _ y _ => hmark y _) (fun a _ y c h hc hf => (y.relocks_mark _).relocking b c hb hc
      (h hc (((y.relocks_mark _).faulted b c hb hc).symm.trans hf))) s
  intro j hj
  exact hall j (by
    simp only [List.mem_cons, List.not_mem_nil, or_false]
    omega) hj

/-- A bent's measurements and gates are cut short. -/
def State.cutShort (s : State) (b : Nat) : State :=
  (s.each (List.range 4) fun s u => s.tiuEnd b u true false).each [0, 1] fun s e => s.gateClose b e s.now true

theorem State.lows_cutShort (s : State) (b : Nat) : (s.cutShort b).lows = s.lows := by
  have hlows : ∀ {l : List Nat} {f : State → Nat → State}, (∀ a ∈ l, ∀ y : State, (f y a).lows = y.lows) →
      ∀ y : State, (l.foldl f y).lows = y.lows := fun hf y =>
    foldl_rel (R := fun y z => z.lows = y.lows) (fun _ => rfl) (fun h k => k.trans h) hf y
  refine (hlows (fun e he y => y.lows_gateClose b ?_ _ true) _).trans
    (hlows (fun i hi y => y.lows_tiuEnd b (List.mem_range.mp hi) true false) s)
  simp only [List.mem_cons, List.not_mem_nil, or_false] at he
  omega

/-- A bent begins a relock. -/
def State.relockBent (s : State) (n b : Nat) : State := ((s.markRelock b).relockSill b n).cutShort b

theorem State.relocks_relockBent (s : State) (n : Nat) {b : Nat} (hb : b < 8) :
    s.relocks (s.relockBent n b) ∧ (s.relockBent n b).relockMarked b := by
  have hafter : (s.markRelock b).relocks (s.relockBent n b) :=
    (State.relocks_relockSill _ hb n).trans (State.relocks_of_lows (State.lows_cutShort _ b))
  exact ⟨(s.relocks_markRelock b).trans hafter, State.relockMarked_of hafter hb (s.markRelock_marked hb)⟩

/-- The relock in progress, corrections that wait dropped and READY held off. -/
def State.relockPut (s : State) (n : Nat) : State :=
  { s with
    tb := { s.tb with
      relock := some (n, none), relockHold := s.bit (s.sillCfg s.ridge (s.activeSill s.ridge) + Off.SILL_SILL_CTRL) 5
      relockAt := s.now }
    readyOff := true
    calInsts := s.calInsts.foldl (fun m e => mapSet (fun _ => CalInst.init) m e.1
      { e.2 with pend := none, delta := e.2.wasDelta.getD e.2.delta, wasDelta := none }) s.calInsts }

/-- Every bent begins it. -/
def State.relockBents (s : State) (n : Nat) : State := s.each (List.range s.variant.bents) fun s b => s.relockBent n b

theorem State.relocks_relockBents (s : State) (n : Nat) :
    s.relocks (s.relockBents n) ∧ ∀ c < s.variant.bents, (s.relockBents n).relockMarked c := by
  have hlt : ∀ c ∈ List.range s.variant.bents, c < 8 := fun c hc => (List.mem_range.mp hc).trans_le (bents_le _)
  have hmarked := foldl_puts (P := fun (y : State) c => c < 8 → y.relockMarked c) (f := fun y b => y.relockBent n b)
    (fun b hb y _ => (y.relocks_relockBent n (hlt b hb)).2)
    (fun b hb y c h hc => State.relockMarked_of (y.relocks_relockBent n (hlt b hb)).1 hc (h hc)) s
  exact ⟨foldl_rel .refl .trans (fun b hb y => (y.relocks_relockBent n (hlt b hb)).1) s, fun c hc =>
    hmarked c (List.mem_range.mpr hc) (hlt c (List.mem_range.mpr hc))⟩

/-- HOLD_ON_RELOCK. -/
def State.relockOutputs (s : State) (hold : Bool) : State := if hold then s.holdOutputs else s

theorem State.lows_relockOutputs (s : State) (hold : Bool) : (s.relockOutputs hold).lows = s.lows := by
  have hset : ∀ (z : State) (b n : Nat) (x : SillOut), (z.setSout b n x).lows = z.lows := fun _ _ _ _ => rfl
  unfold State.relockOutputs State.holdOutputs
  split
  · refine foldl_frame State.lows _ (fun y b => ?_) _ s
    exact foldl_frame State.lows _ (fun z n => hset z b n _) _ y
  · rfl

theorem State.relockStart_eq (s : State) (n : Nat) : ∃ hold, s.relockStart n =
    ((((s.syncAll s.now).relockPut n).relockBents n).relockOutputs hold).readyUpdate := ⟨_, rfl⟩

/-- What the start of a relock shows. -/
theorem State.relockStart_shows (s : State) (n : Nat) : (s.relockStart n).variant = s.variant ∧
    (s.relockStart n).tb.relock = some (n, none) ∧ (s.relockStart n).bit (pkgp 0 + Off.PKG_PKG_STAT) 24 = false ∧
    ∀ c j, s.has c = true → j < 2 → s.bit (sillStat c j) 7 = false → (s.relockStart n).bit (sillStat c j) 5 = true := by
  obtain ⟨hold, hstart⟩ := s.relockStart_eq n
  have hsync := (s.synced_syncAll s.now).lows
  generalize hv : (s.syncAll s.now).relockPut n = v at *
  have hvariant : v.variant = s.variant := by
    rw [← hv]
    exact (State.variant_of_lows hsync :)
  have hrelock : v.tb.relock = some (n, none) := by rw [← hv]; rfl
  have hoff : v.readyOff = true := by rw [← hv]; rfl
  have hstat : ∀ c j, j < 2 → v.reg (sillStat c j) = s.reg (sillStat c j) := fun c j hj => by
    rw [← hv]
    exact State.reg_of_lows hsync (low_sillReg hj (by decide))
  obtain ⟨hbents, hmarked⟩ := v.relocks_relockBents n
  have houtputs := State.relocks_of_lows ((v.relockBents n).lows_relockOutputs hold)
  have hrelocks := hbents.trans houtputs
  rw [hstart]
  refine ⟨?_, ?_, ?_, fun c j hc hj hfault => ?_⟩
  · rw [(State.works_readyUpdate _).variant, hrelocks.variant, hvariant]
  · rw [State.readyUpdate_tb, hrelocks.tb, hrelock]
  · exact State.readyUpdate_off (hrelocks.readyOff.trans hoff)
  · have hcv : c < v.variant.bents := by
      rw [hvariant]
      exact of_decide_eq_true hc
    have hc8 : c < 8 := hcv.trans_le (bents_le _)
    have hfault' : ((v.relockBents n).relockOutputs hold).bit (sillStat c j) 7 = false :=
      (hrelocks.faulted c j hc8 hj).trans ((State.bit_of_reg (hstat c j hj) 7).trans hfault)
    rw [State.bit_of_reg (State.readyUpdate_stat _ hj)]
    exact State.relockMarked_of houtputs hc8 (hmarked c hcv) j hj hfault'

/-! ### The command -/

/-- RELOCK from a SILLA page that nothing refuses. -/
theorem relock_next {s u : State} {t : PT} {b : Fin 8} {n : BitVec 11} (hu : u = s.arrive t) (htakes : u.takes b (sillPg b 0))
    (hlo : 1456 ≤ n.toNat) (hhi : n.toNat ≤ 2000) (hbar : u.relockBar b = none) :
    exec (.relock t b 0 n false) s = .next (u.keepMem (State.tbGather u (u.relockStart n.toNat) 0).settle) := by
  subst hu
  rw [exec_relock]
  refine congrArg (fun y : State => (.next ((s.arrive t).keepMem y.settle) : Out)) ?_
  dsimp only
  rw [if_neg (by decide)]
  refine (State.sillCmd_a htakes _).trans ?_
  rw [if_neg (by omega), hbar, State.gathered]

theorem relock_begins {s u : State} {t : PT} {b : Fin 8} {n : BitVec 11} (hu : u = s.arrive t) (htakes : u.takes b (sillPg b 0))
    (hlo : 1456 ≤ n.toNat) (hhi : n.toNat ≤ 2000) (hbar : u.relockBar b = none) :
    ∃ s', exec (.relock t b 0 n false) s = .next s' ∧ s'.tb.relock = some (n.toNat, none) ∧
      s'.bit (pkgp 0 + Off.PKG_PKG_STAT) 24 = false ∧ s'.clk = u.clk ∧
      (∀ c j, u.has c = true → j < 2 → u.bit (sillStat c j) 7 = false → s'.bit (sillStat c j) 5 = true) := by
  obtain ⟨hvariant, hrelock, hready, hmarked⟩ := u.relockStart_shows n.toNat
  refine ⟨_, relock_next hu htakes hlo hhi hbar, ?_⟩
  generalize u.relockStart n.toNat = y at *
  have hgather := State.steady_tbGather u y 0 []
  have hbit : ∀ a i, (u.keepMem (State.tbGather u y 0).settle).bit a i = y.bit a i := fun a i =>
    State.bit_of_reg ((State.reg_keepMem_settle (hgather.variant.trans hvariant) a).trans (State.reg_tbGather u y 0 a)) i
  refine ⟨?_, ?_, State.keepMem_clk _ _, fun c j hc hj hfault => ?_⟩
  · rw [State.keepMem_tb, State.settle_tb, hgather.tb, hrelock]
  · rw [hbit, hready]
  · rw [hbit]
    exact hmarked c j hc hj hfault

theorem relock_out_of_range {s u : State} {t : PT} {b : Fin 8} {n : BitVec 11} (hu : u = s.arrive t)
    (htakes : u.takes b (sillPg b 0)) (hn : n.toNat < 1456 ∨ 2000 < n.toNat) :
    ∃ s', exec (.relock t b 0 n false) s = .next s' ∧ s'.isLatched (sillPg b 0) 0x01 = true ∧ s' = { u with ev := s'.ev } := by
  rw [exec_relock]
  refine runMem_refused hu ?_
  rw [if_neg (by decide)]
  exact (State.sillCmd_a htakes _).trans (if_pos hn)

theorem relock_barred {s u : State} {t : PT} {b : Fin 8} {n : BitVec 11} {c : Nat} (hu : u = s.arrive t)
    (htakes : u.takes b (sillPg b 0)) (hlo : 1456 ≤ n.toNat) (hhi : n.toNat ≤ 2000) (hbar : u.relockBar b = some c) :
    ∃ s', exec (.relock t b 0 n false) s = .next s' ∧ s'.isLatched (sillPg b 0) c = true ∧ s' = { u with ev := s'.ev } := by
  rw [exec_relock]
  refine runMem_refused hu ?_
  rw [if_neg (by decide)]
  refine (State.sillCmd_a htakes _).trans ?_
  rw [if_neg (by omega), hbar]

end Sys2Proof.Machine
end

section
/-!
PROOFS. The end of a relock (R89).
-/

namespace Sys2Proof.Machine

/-! ### RELOCK_DONE -/

/-- What the end of a relock keeps: the part, the timebase, the memories and the queues. -/
def State.doneKeeps (s : State) : Variant × Tb × SMap Byte × SMap (List Peg) := (s.variant, s.tb, s.mem, s.queues)

/-- The relock over, READY no longer held off. -/
def State.relockOver (s : State) : State := { s with tb := { s.tb with relock := none }, readyOff := false }

/-- RELOCKING clears at both sills of a bent. -/
def State.clearRelock (s : State) (b : Nat) : State := s.each [0, 1] fun s k => s.setBit (sillStat b k) 5 false

/-- A bent's relock is over, with its event. -/
def State.doneBent (s : State) (b : Nat) : State :=
  let s1 := s.clearRelock b
  (s1.setCal b { s1.cal b with relock := false }).raise (sillPg b (s1.activeSill b)) 8

/-- Every bent's relock is over: the outputs restart, and READY follows. -/
def State.relockEnded (s : State) : State :=
  (s.relockOver.each (List.range s.variant.bents) State.doneBent).releaseOutputs.readyUpdate

theorem relockDone_next {s u : State} {t : PT} {m x : Nat} (hu : u = s.arrive t) (h : u.tb.relock = some (m, some x)) :
    exec (.relockDone t) s = .next (u.keep (State.tbGather u u.relockEnded 0).settle) := by
  subst hu
  rw [exec_relockDone]
  refine congrArg (fun y : State => (.next ((s.arrive t).keep y.settle) : Out)) ?_
  dsimp only
  rw [h]
  rfl

theorem State.doneKeeps_doneBent (s : State) (b : Nat) : (s.doneBent b).doneKeeps = s.doneKeeps := by
  simp [State.doneKeeps, State.doneBent, State.clearRelock, State.each]

theorem State.doneKeeps_releaseOutputs (s : State) : s.releaseOutputs.doneKeeps = s.doneKeeps := by
  have hstart : ∀ (y : State) b, (y.startOutputs b).doneKeeps = y.doneKeeps := fun y b => by
    unfold State.startOutputs
    refine foldl_frame State.doneKeeps _ (fun z n => ?_) _ y
    split <;> rfl
  unfold State.releaseOutputs
  refine foldl_frame State.doneKeeps _ (fun y b => ?_) _ s
  split
  · exact hstart y b
  · rfl

theorem State.doneKeeps_relockEnded (s : State) : s.relockEnded.doneKeeps = s.relockOver.doneKeeps := by
  have hready : ∀ y : State, y.readyUpdate.doneKeeps = y.doneKeeps := fun y => by
    unfold State.doneKeeps
    rw [y.works_readyUpdate.variant, y.readyUpdate_tb, y.works_readyUpdate.mem, y.works_readyUpdate.queues]
  exact (hready _).trans ((State.doneKeeps_releaseOutputs _).trans
    (foldl_frame State.doneKeeps _ State.doneKeeps_doneBent _ _))

/-- No sill of a bent shows RELOCKING. -/
def State.relockClear (s : State) (b : Nat) : Prop := ∀ j, j < 2 → s.bit (sillStat b j) 5 = false

theorem State.relockClear_setBit {s : State} {c : Nat} (h : s.relockClear c) (a : Nat) : (s.setBit a 5 false).relockClear c :=
  fun j hj => by rw [State.bit_setBit _ _ _ _ _ (by decide), if_pos rfl, h j hj, ite_self]

theorem State.doneBent_bit (s : State) (b a i : Nat) : (s.doneBent b).bit a i = (s.clearRelock b).bit a i :=
  (State.bit_raise _ _ _ _ _).trans (State.bit_of_reg (State.reg_setCal _ _ _ _) i)

theorem State.relockClear_doneBent {s : State} {c : Nat} (h : s.relockClear c) (b : Nat) : (s.doneBent b).relockClear c :=
  fun j hj => (s.doneBent_bit b _ 5).trans
    (State.relockClear_setBit (State.relockClear_setBit h (sillStat b 0)) (sillStat b 1) j hj)

theorem State.doneBent_clear (s : State) (b : Nat) : (s.doneBent b).relockClear b := fun j hj => by
  have hclear : (s.clearRelock b).bit (sillStat b j) 5 = false := by
    change ((s.setBit (sillStat b 0) 5 false).setBit (sillStat b 1) 5 false).bit (sillStat b j) 5 = false
    obtain rfl | rfl : j = 0 ∨ j = 1 := by omega
    · rw [State.bit_setBit _ _ _ _ _ (by decide), if_neg (sillStat_ne (by decide)),
        State.bit_setBit_same _ _ _ _ (by decide)]
    · exact State.bit_setBit_same _ _ _ _ (by decide)
  rw [State.doneBent_bit, hclear]

theorem State.relockEnded_clear (s : State) {c : Nat} (hc : c < s.variant.bents) : s.relockEnded.relockClear c := by
  have hall := foldl_puts (P := State.relockClear) (fun b _ y => y.doneBent_clear b)
    (fun b _ y c hy => State.relockClear_doneBent hy b) s.relockOver c (List.mem_range.mpr hc)
  have hrelease : ∀ (y : State) a, y.releaseOutputs.reg a = y.reg a := fun y a => by
    unfold State.releaseOutputs
    refine foldl_frame (fun z : State => z.reg a) _ (fun z b => ?_) _ y
    split
    · exact (z.works_startOutputs b []).2.1 a (by simp)
    · rfl
  intro j hj
  have hbit : s.relockEnded.bit (sillStat c j) 5 =
      (s.relockOver.each (List.range s.variant.bents) State.doneBent).bit (sillStat c j) 5 :=
    State.bit_of_reg ((State.readyUpdate_stat _ hj).trans (hrelease _ _)) 5
  exact hbit.trans (hall j hj)

theorem relock_done {s u : State} {t : PT} {m x : Nat} (hu : u = s.arrive t) (h : u.tb.relock = some (m, some x)) :
    ∃ s', exec (.relockDone t) s = .next s' ∧ s'.clk = u.clk ∧ s'.tb = { u.tb with relock := none } ∧
      (∀ c j, u.has c = true → j < 2 → s'.bit (sillStat c j) 5 = false) ∧ s'.mem = u.mem ∧ s'.queues = u.queues := by
  have hkeeps := u.doneKeeps_relockEnded
  have hvariant : u.relockEnded.variant = u.variant := congrArg (·.1) hkeeps
  have htb : u.relockEnded.tb = { u.tb with relock := none } := congrArg (·.2.1) hkeeps
  have hqueues : u.relockEnded.queues = u.queues := congrArg (·.2.2.2) hkeeps
  refine ⟨_, relockDone_next hu h, State.keep_clk _ _, ?_, fun c j hc hj => ?_, State.keep_mem _ _, ?_⟩
  · rw [State.tb_keep_gathered, htb]
  · rw [State.bit_keep_gathered _ _ hvariant]
    exact u.relockEnded_clear (of_decide_eq_true hc) j hj
  · rw [State.queues_keep_gathered, hqueues]

end Sys2Proof.Machine
end

section
/-!
PROOFS. The lock of the ridge's active sill in a relock (R88, R89): the lattice takes its new N.
-/

namespace Sys2Proof.Machine

/-! ### A lock of the active sill -/

/-- A bent's active sill is `k`, and LOCKED. -/
def State.holdsLock (s : State) (b k : Nat) : Prop := s.bit (sillStat b k) 0 = true ∧ s.activeSill b = k

section Holds

variable {s x : State} {b k : Nat}

/-- It stands while its LOCKED and ACTIVE of sill B stay. -/
theorem State.holdsLock_of {l m : List Nat} (h : s.holdsLock b k) (hlock : s.keepsBits x (sillStat b k) l) (hl : 0 ∉ l)
    (hact : s.keepsBits x (sillStat b 1) m) (hm : 1 ∉ m) : x.holdsLock b k :=
  ⟨(hlock 0 (by decide) hl).trans h.1, (State.activeSill_of_bits hact hm).trans h.2⟩

/-- It stands through what reaches no SILL_STAT. -/
theorem State.holdsLock_works {l : List Nat} (h : s.holdsLock b k) (hw : s.works x l) (hl : Off.SILL_SILL_STAT ∉ l) :
    x.holdsLock b k := by
  have hbits : ∀ j, s.keepsBits x (sillStat b j) [] := fun j =>
    State.keepsBits_of_works (.refl s _ _) hw (by rw [sillStat_mod]; exact hl)
  exact State.holdsLock_of h (hbits k) (by simp) (hbits 1) (by simp)

theorem State.holdsLock_foldl {α : Type} {f : State → α → State} (hf : ∀ (s : State) a, s.holdsLock b k → (f s a).holdsLock b k)
    (l : List α) (h : s.holdsLock b k) : (l.foldl f s).holdsLock b k := by
  induction l generalizing s with
  | nil => exact h
  | cons a l ih => exact ih (hf s a h)

theorem State.holdsLock_acqStart (h : s.holdsLock b k) (c j : Nat) : (s.acqStart c j).holdsLock b k :=
  State.holdsLock_of h (s.keepsBits_acqStart c j (sillStat_mod b k)) (by decide)
    (s.keepsBits_acqStart c j (sillStat_mod b 1)) (by decide)

/-- A relock unlocks the sills that are not active. -/
theorem State.holdsLock_unlock (h : s.holdsLock b k) (c : Nat) : (s.unlock c (1 - s.activeSill c) true).holdsLock b k := by
  have hne : sillStat b k ≠ sillStat c (1 - s.activeSill c) := fun he => by
    have hk := h.2 ▸ s.activeSill_lt b
    have hc : c = b := by
      unfold sillStat sillPg bp at he
      omega
    rw [hc, h.2] at he
    unfold sillStat sillPg bp at he
    omega
  exact State.holdsLock_of h (State.keepsBits_of_reg (.refl s _ []) (s.unlock_reg_ne _ _ _ (sillStat_mod b k) hne)) (by simp)
    (s.keepsBits_unlock _ _ _ (sillStat_mod b 1)) (by decide)

theorem State.holdsLock_relockLocked (h : s.holdsLock b k) (n : Nat) : (s.relockLocked n).holdsLock b k := by
  have htb := State.holdsLock_works h (State.works_tb (.refl s []) { s.tb with relock := some (n, some s.now) }) (by simp)
  unfold State.relockLocked State.each
  dsimp only
  refine State.holdsLock_foldl (fun y c hy => ?_) _ (State.holdsLock_foldl (fun y c hy => ?_) _ htb)
  · split
    · exact hy
    · exact State.holdsLock_acqStart (State.holdsLock_unlock hy c) _ _
  · exact State.holdsLock_works hy (State.works_setCal (.refl y []) _ _) (by simp)

theorem State.holdsLock_acquire (h : s.holdsLock b k) : s.acquire.holdsLock b k := by
  unfold State.acquire
  refine State.holdsLock_foldl (fun y c hy => State.holdsLock_foldl (fun z j hz => ?_) _ hy) _ h
  split
  · exact State.holdsLock_acqStart hz _ _
  · exact hz

end Holds

theorem State.holdsLock_lockPut {s : State} {b k : Nat} (h : s.activeSill b = k) (n : Nat) (z : Sill) :
    (s.lockPut b k n z).holdsLock b k := by
  have hreg : ∀ j, (s.lockPut b k n z).reg (sillStat b j) =
      ((s.setBit (sillStat b k) 0 true).setFld (sillStat b k) 16 3 4).reg (sillStat b j) := fun j => by
    rw [State.lockPut, State.reg_raise, (State.works_autoClamp _ b n).2.1 _ (by rw [sillStat_mod]; decide), State.reg_setSill]
  have hfld : ∀ j, (s.setBit (sillStat b k) 0 true).keepsBits (s.lockPut b k n z) (sillStat b j) [16, 17, 18] := fun j =>
    State.keepsBits_of_reg (State.keepsBits_setFld (.refl _ _ _) _ (fun i h1 h2 => by
      simp only [List.mem_cons, List.not_mem_nil, or_false]
      omega) _) (hreg j)
  have hset : (s.setBit (sillStat b k) 0 true).holdsLock b k :=
    ⟨State.bit_setBit_same _ _ _ _ (by decide), (State.activeSill_of_bits (l := [0])
      (State.keepsBits_setBit (.refl s _ _) _ (by decide) (by decide) _) (by decide)).trans h⟩
  exact State.holdsLock_of hset (hfld k) (by decide) (hfld 1) (by decide)

/-! ### The timebase of a relock whose ridge has locked -/

theorem State.acqStart_tb (s : State) (b k : Nat) : (s.acqStart b k).tb = s.tb := by
  unfold State.acqStart
  dsimp only
  rw [State.setSill_tb, State.setFld_tb, State.wr_tb]

theorem State.relockLocked_tb (s : State) (n : Nat) :
    (s.relockLocked n).tb = { s.tb with relock := some (n, some s.now) } := by
  unfold State.relockLocked State.each
  dsimp only
  refine (foldl_frame State.tb _ (fun y c => ?_) _ _).trans (foldl_frame State.tb _ (fun y c => State.setCal_tb _ _ _) _ _)
  split
  · rfl
  · exact (State.acqStart_tb _ _ _).trans (State.unlock_tb _ _ _)

theorem State.lockPut_tb (s : State) (b k n : Nat) (z : Sill) : (s.lockPut b k n z).tb = s.tb := by
  rw [State.lockPut, State.raise_tb, State.autoClamp_tb, State.setSill_tb, State.setFld_tb, State.setBit_tb]

theorem State.works.clk {s x : State} {l : List Nat} (h : s.works x l) : x.clk = s.clk := by
  have he : x.sansSills.clk = s.sansSills.clk := congrArg State.clk h.1
  exact he

theorem State.lockSill_active {s : State} {b k : Nat} (h : s.hasActive b = true) : ∃ z, s.lockSill b k false =
    (((s.lockPut b k (s.sillN b k) z).lockPurlin b (s.bit (sillStat b k) 1)).lockRelock b (s.bit (sillStat b k) 1)).acquire := by
  unfold State.lockSill
  rw [h]
  exact ⟨_, rfl⟩

/-- The lock of the ridge's active sill in a relock. -/
theorem State.lockSill_relocks {s : State} {b k m : Nat} (hridge : b = s.ridge) (hactive : s.activeSill b = k)
    (hact : s.bit (sillStat b k) 1 = true) (hhas : s.hasActive b = true) (hrelock : s.tb.relock = some (m, none)) :
    (s.lockSill b k false).holdsLock b k ∧ (s.lockSill b k false).tb = { s.tb with relock := some (m, some s.now) } ∧
      s.works (s.lockSill b k false) firstOffs := by
  obtain ⟨z, hz⟩ := State.lockSill_active (k := k) hhas
  have hput := State.works_lockPut s b k (s.sillN b k) z
  have hholds := State.holdsLock_lockPut hactive (s.sillN b k) z
  have htb := s.lockPut_tb b k (s.sillN b k) z
  rw [hz, hact]
  generalize s.lockPut b k (s.sillN b k) z = y at *
  have hpurlin : y.lockPurlin b true = y := by rw [State.lockPurlin, hput.ridge, ← hridge]; simp
  have hlocked : y.lockRelock b true = y.relockLocked m := by
    rw [State.lockRelock, htb, hrelock, hput.ridge, ← hridge]
    simp
  rw [hpurlin, hlocked]
  refine ⟨State.holdsLock_acquire (State.holdsLock_relockLocked hholds m), ?_, ?_⟩
  · rw [(State.steady_acquire _).tb, State.relockLocked_tb, htb, State.now, hput.clk]
    rfl
  · exact hput.trans (((y.works_relockLocked m).mono (by decide)).trans ((State.works_acquire _).mono (by decide)))

/-! ### The window that locks it -/

/-- The state in which the window of a relock's lock is judged: converters accounted for in the old lattice, the new one put. -/
def State.relatticed (u : State) (m : Nat) : State :=
  { u.syncAll u.now with clk := { u.clk with n := m, o := u.now } }

section Relatticed

variable (u : State) (m : Nat)

theorem State.relatticed_only : ∃ r d e, u.relatticed m =
    { u with regs := r, dacAt := d, ev := e, clk := { u.clk with n := m, o := u.now } } := by
  obtain ⟨⟨r, d, e, h⟩, -⟩ := u.synced_syncAll u.now
  exact ⟨r, d, e, by rw [State.relatticed, h]⟩

theorem State.relatticed_frame : (u.relatticed m).tb = u.tb ∧ (u.relatticed m).ridge = u.ridge ∧
    (u.relatticed m).clk = { u.clk with n := m, o := u.now } := by
  obtain ⟨r, d, e, honly⟩ := u.relatticed_only m
  rw [honly]
  exact ⟨rfl, rfl, rfl⟩

theorem State.relatticed_reg {a : Nat} (ha : a % 0x400000 < 0x8000) : (u.relatticed m).reg a = u.reg a :=
  (u.synced_syncAll u.now).2 a ha

theorem State.relatticed_bit {a : Nat} (ha : a % 0x400000 < 0x8000) (i : Nat) : (u.relatticed m).bit a i = u.bit a i :=
  State.bit_of_reg (u.relatticed_reg m ha) i

theorem State.relatticed_fld {a : Nat} (ha : a % 0x400000 < 0x8000) (lo len : Nat) :
    (u.relatticed m).fld a lo len = u.fld a lo len := by
  rw [State.fld, State.fld, State.rd_of_reg (u.relatticed_reg m ha)]

theorem State.relatticed_hasActive (b : Nat) : (u.relatticed m).hasActive b = u.hasActive b := by
  rw [State.hasActive, State.hasActive, u.relatticed_bit m (low_sillReg (by decide) (by decide)),
    u.relatticed_bit m (low_sillReg (by decide) (by decide))]

theorem State.relatticed_activeSill (b : Nat) : (u.relatticed m).activeSill b = u.activeSill b := by
  rw [State.activeSill, State.activeSill, u.relatticed_bit m (low_sillReg (by decide) (by decide))]

/-- The settings that a sill runs are as they were. -/
theorem State.relatticed_cfg (b : Nat) {k o : Nat} (hk : k < 2) (ho : o < 0x1000) (lo len : Nat) :
    (u.relatticed m).fld ((u.relatticed m).sillCfg b k + o) lo len = u.fld (u.sillCfg b k + o) lo len := by
  have hmirror : (u.relatticed m).mirror b = u.mirror b := u.relatticed_bit m (low_sillReg (by decide) (by decide)) 7
  have hcfg : (u.relatticed m).sillCfg b k = u.sillCfg b k := by rw [State.sillCfg, State.sillCfg, hmirror]
  rw [hcfg]
  refine u.relatticed_fld m ?_ lo len
  unfold State.sillCfg
  split
  · exact low_sillReg (by decide) ho
  · exact low_sillReg hk ho

theorem State.relatticed_seesTimebase : (u.relatticed m).seesTimebase = u.seesTimebase := by
  have hbit : ∀ q o i, q < 8 → o < 0x1000 → (u.relatticed m).bit (pkgp q + o) i = u.bit (pkgp q + o) i := fun q o i hq ho =>
    u.relatticed_bit m (by unfold pkgp; omega) i
  have hsource : (u.relatticed m).sourceOk = u.sourceOk := funext fun c => by
    rw [State.sourceOk, State.sourceOk, State.active, State.active, hbit _ _ _ (by decide) (by decide),
      hbit _ _ _ (by decide) (by decide), hbit _ _ _ (by decide) (by decide)]
  rw [State.seesTimebase, State.seesTimebase, State.worker, State.worker, hbit _ _ _ (by decide) (by decide),
    hbit _ _ _ (by decide) (by decide), hsource]

theorem State.relatticed_mayLock (b : Nat) {k : Nat} (hk : k < 2) : (u.relatticed m).mayLock b k = u.mayLock b k := by
  have hsees := u.relatticed_seesTimebase m
  have hactive := u.relatticed_hasActive m b
  have hfault := u.relatticed_bit m (low_sillReg (b := b) hk (o := Off.SILL_SILL_STAT) (by decide)) 7
  obtain ⟨r, d, e, honly⟩ := u.relatticed_only m
  rw [State.mayLock, State.mayLock, hsees, hactive, hfault, honly]

end Relatticed

/-- What the window of a relock's lock found: the last of its good windows, at the ridge's active sill. -/
theorem State.windowLocks_holds {u : State} {b k : Nat} {edges : List Nat} (h : u.windowLocks b k edges = true) :
    ∃ w, u.window b k edges = some w ∧ u.windowCounts b k = true ∧ u.windowOk b k w = true ∧
      u.fld (u.sillCfg b k + Off.SILL_LOCK_WIN) 8 8 ≤ (u.sill b k).good + 1 := by
  cases hw : u.window b k edges with
  | none => simp [State.windowLocks, hw] at h
  | some w =>
    simp only [State.windowLocks, hw, Bool.and_eq_true, decide_eq_true_eq] at h
    obtain ⟨⟨hcounts, hok⟩, hlast⟩ := h
    exact ⟨w, rfl, hcounts, hok, hlast⟩

/-- A sill that drives the outputs is one of the two. -/
theorem State.hasActive_of_bit {s : State} {b k : Nat} (hk : k < 2) (h : s.bit (sillStat b k) 1 = true) : s.hasActive b = true := by
  obtain rfl | rfl : k = 0 ∨ k = 1 := by omega
  · rw [State.hasActive, h, Bool.true_or]
  · rw [State.hasActive, h, Bool.or_true]

/-- A clock put takes the place of the one at arrival. -/
theorem State.arrive_clk_put (s : State) (t : PT) (c : Clk) : ({ s.arrive t with clk := c } : State) = { s with clk := c } := by
  unfold State.arrive
  split <;> rfl

/-- The window of a relock's lock is judged in the new lattice. -/
theorem lockWindow_relocks {s u : State} {t : PT} {b : Fin 8} {k : Fin 2} {before : List Nat} {last m : Nat} {w : Int × Nat}
    (hu : u = s.arrive t) (hrelock : u.tb.relock = some (m, none)) (hridge : b.val = u.ridge)
    (hact : u.bit (sillStat b k) 1 = true) (hlocks : u.windowLocks b k (before ++ [last]) = true)
    (hw : u.window b k (before ++ [last]) = some w) (hb : u.has b = true) (hmay : u.mayLock b k = true) :
    exec (.lockWindow t b k before last) s = .next ((u.relatticed m).keepMem (State.tbGather (u.relatticed m)
      (((u.relatticed m).updates b k (before ++ [last])).judgeWindow b k w false last) 0).settle) := by
  have hstarts : u.windowStarts b k (before ++ [last]) = false := by
    rw [State.windowStarts, State.hasActive_of_bit k.isLt hact, Bool.not_true, Bool.and_false]
  have hrelocks : u.windowRelocks b k (before ++ [last]) = true := by
    rw [State.windowRelocks, hlocks, hact, hrelock, beq_iff_eq.mpr hridge]
    rfl
  have hclk : u.windowClk b k (before ++ [last]) = { u.clk with n := m, o := u.now } := by
    rw [State.windowClk, hstarts, hrelocks, hrelock]
    rfl
  have hgate : (!(u.relatticed m).has b || !(u.relatticed m).mayLock b k) = false := by
    have hhas : (u.relatticed m).has b = true := by
      obtain ⟨r, d, e, honly⟩ := u.relatticed_only m
      rw [honly]
      exact hb
    rw [hhas, u.relatticed_mayLock m b k.isLt, hmay]
    rfl
  subst hu
  have hbefore : s.beforeRelock t b k (before ++ [last]) = (s.arrive t).syncAll (s.arrive t).now := by
    rw [State.beforeRelock, if_pos hrelocks]
  rw [exec_lockWindow]
  unfold execLockWindow
  dsimp only
  rw [hbefore, hw, hstarts, List.getLast?_concat, hclk, runClk, State.arrive_clk_put, ← State.relatticed]
  dsimp only
  rw [hgate]
  rfl

/-- The window locks its sill there as it does in the old lattice. -/
theorem State.relatticed_judge {u : State} {b k : Nat} {w : Int × Nat} (hk : k < 2) (hcounts : u.windowCounts b k = true)
    (hok : u.windowOk b k w = true) (hlast : u.fld (u.sillCfg b k + Off.SILL_LOCK_WIN) 8 8 ≤ (u.sill b k).good + 1) (m : Nat)
    (edges : List Nat) (last : Nat) : ((u.relatticed m).updates b k edges).judgeWindow b k w false last =
      (((u.relatticed m).updates b k edges).judged b k w last).lockSill b k false := by
  simp only [State.windowCounts, Bool.and_eq_true, Bool.not_eq_true', decide_eq_true_eq] at hcounts
  obtain ⟨⟨⟨-, hcoast⟩, hlock⟩, hacq⟩ := hcounts
  have hstat := u.relatticed_bit m (low_sillReg (b := b) hk (o := Off.SILL_SILL_STAT) (by decide))
  have hok' : (u.relatticed m).windowOk b k w = true := by
    rw [State.windowOk, u.relatticed_cfg m b hk (by decide)]
    exact hok
  have hacq' : 3 ≤ (u.relatticed m).acqState b k := by
    rw [State.acqState, u.relatticed_fld m (low_sillReg hk (by decide))]
    exact hacq
  have hlast' : (u.relatticed m).fld ((u.relatticed m).sillCfg b k + Off.SILL_LOCK_WIN) 8 8 ≤
      ((u.relatticed m).sill b k).good + 1 := by
    have hsill : (u.relatticed m).sill b k = u.sill b k := by
      obtain ⟨r, d, e, honly⟩ := u.relatticed_only m
      rw [honly]
      rfl
    rw [u.relatticed_cfg m b hk (by decide), hsill]
    exact hlast
  rw [State.judgeWindow_updates hok' ((hstat 0).trans hlock) ((hstat 3).trans hcoast) hacq', if_pos hlast']

/-- The lock after a window's updates and counts. -/
theorem State.window_relocks {v : State} {b k m : Nat} (hridge : b = v.ridge) (hactive : v.activeSill b = k)
    (hact : v.bit (sillStat b k) 1 = true) (hrelock : v.tb.relock = some (m, none)) (edges : List Nat) (w : Int × Nat)
    (last : Nat) : (((v.updates b k edges).judged b k w last).lockSill b k false).holdsLock b k ∧
      (((v.updates b k edges).judged b k w last).lockSill b k false).tb = { v.tb with relock := some (m, some v.now) } ∧
      (((v.updates b k edges).judged b k w last).lockSill b k false).variant = v.variant := by
  have hjudged : v.works ((v.updates b k edges).judged b k w last) [Off.SILL_DCO_WORD, Off.SILL_LOCK_ERR] :=
    ((v.works_updates b k edges).mono (by decide)).trans ((State.works_judged _ b k w last).mono (by decide))
  have htb : ((v.updates b k edges).judged b k w last).tb = v.tb := by
    rw [State.judged, State.wr_tb, State.setSill_tb, (v.updates_only b k edges).1]
  generalize (v.updates b k edges).judged b k w last = y at *
  have hreg : ∀ j, y.reg (sillStat b j) = v.reg (sillStat b j) := fun j => hjudged.2.1 _ (by rw [sillStat_mod]; decide)
  have hyactive : y.activeSill b = k :=
    (State.activeSill_of_bits (l := []) (State.keepsBits_of_reg (.refl v _ _) (hreg 1)) (by simp)).trans hactive
  have hyact : y.bit (sillStat b k) 1 = true := (State.bit_of_reg (hreg k) 1).trans hact
  obtain ⟨hlocked, hlockedTb, hworks⟩ := State.lockSill_relocks (hridge.trans hjudged.ridge.symm) hyactive hyact
    (State.hasActive_of_bit (hactive ▸ v.activeSill_lt b) hyact) (htb ▸ hrelock)
  refine ⟨hlocked, ?_, hworks.variant.trans hjudged.variant⟩
  rw [hlockedTb, htb, State.now, hjudged.clk]
  rfl

/-- The lattice takes its new N, with the present PT as its origin. -/
theorem relock_locks {s u : State} {t : PT} {b : Fin 8} {k : Fin 2} {before : List Nat} {last m : Nat} (hu : u = s.arrive t)
    (hrelock : u.tb.relock = some (m, none)) (hridge : b.val = u.ridge) (hactive : k.val = u.activeSill b)
    (hact : u.bit (sillStat b k) 1 = true) (hlocks : u.windowLocks b k (before ++ [last]) = true) :
    ∃ s', exec (.lockWindow t b k before last) s = .next s' ∧ s'.clk = { u.clk with n := m, o := u.now } ∧
      s'.tb = { u.tb with relock := some (m, some u.now) } ∧ s'.bit (sillStat b k) 0 = true := by
  obtain ⟨w, hw, hcounts, hok, hlast⟩ := State.windowLocks_holds hlocks
  have hparts := hcounts
  simp only [State.windowCounts, Bool.and_eq_true] at hparts
  obtain ⟨⟨⟨⟨hb, hmay⟩, -⟩, -⟩, -⟩ := hparts
  have hexec := lockWindow_relocks hu hrelock hridge hact hlocks hw hb hmay
  rw [State.relatticed_judge k.isLt hcounts hok hlast] at hexec
  obtain ⟨htb, hvridge, hclk⟩ := u.relatticed_frame m
  obtain ⟨⟨hlocked, -⟩, hlockedTb, hvariant⟩ := State.window_relocks (hridge.trans hvridge.symm)
    ((u.relatticed_activeSill m b).trans hactive.symm) ((u.relatticed_bit m (low_sillReg k.isLt (by decide)) 1).trans hact)
    (htb ▸ hrelock) (before ++ [last]) w last
  generalize ((State.updates _ b k _).judged b k w last).lockSill b k false = y at *
  have hgather := State.steady_tbGather (u.relatticed m) y 0 []
  refine ⟨_, hexec, (State.keepMem_clk _ _).trans hclk, ?_, ?_⟩
  · rw [State.keepMem_tb, State.settle_tb, hgather.tb, hlockedTb, htb, State.now, hclk]
    rfl
  · rw [State.bit_of_reg ((State.reg_keepMem_settle (hgather.variant.trans hvariant) _).trans (State.reg_tbGather _ _ _ _)),
      hlocked]

/-- Settles O13: RELOCK taken, refused out of range and refused while barred, the lock that takes the new lattice, and
RELOCK_DONE. -/
theorem relock : Obligations.Relock := by
  intro s u t b n hu
  exact ⟨relock_begins hu, relock_out_of_range hu, fun c htakes hlo hhi hbar _ => relock_barred hu htakes hlo hhi hbar,
    fun k before last m => relock_locks hu, fun m x => relock_done hu⟩

end Sys2Proof.Machine
end

section
/-!
PROOFS. Edge channels, pegs (R100–R103, R107): what a due peg of each action does on a pin at rest, and what it leaves as it was.
-/

namespace Sys2Proof.Machine

/-! ### What an operation on one channel leaves -/

/-- An operation on one channel leaves the part, every register but those of a list, and every other channel. -/
structure State.onlyChannel (u x : State) (b ch : Nat) (l : List Nat) : Prop where
  variant : x.variant = u.variant
  regs : u.sameRegs x l
  edges : u.sameEdges x b ch

section Channel

variable {u x y : State} {b ch : Nat} {l : List Nat}

theorem State.onlyChannel.refl (u : State) (b ch : Nat) (l : List Nat) : u.onlyChannel u b ch l :=
  ⟨rfl, u.sameRegs_refl l, fun _ _ _ => rfl⟩

/-- Neither a register nor a channel changes further. -/
theorem State.onlyChannel.of (h : u.onlyChannel x b ch l) (hr : y.regs = x.regs) (hv : y.variant = x.variant)
    (he : y.edges = x.edges) : u.onlyChannel y b ch l :=
  ⟨hv.trans h.variant, State.sameRegs_of h.regs hr hv, fun b' ch' hne => by
    rw [← h.edges b' ch' hne, State.edge, State.edge, he]⟩

theorem State.onlyChannel.wr (h : u.onlyChannel x b ch l) {a : Nat} (ha : a ∈ l) (v : Nat) :
    u.onlyChannel (x.wr a v) b ch l := ⟨h.variant, State.sameRegs_wr h.regs ha v, h.edges⟩

theorem State.onlyChannel.setBit (h : u.onlyChannel x b ch l) {a : Nat} (ha : a ∈ l) (i : Nat) (on : Bool) :
    u.onlyChannel (x.setBit a i on) b ch l := h.wr ha _

theorem State.onlyChannel.setFld (h : u.onlyChannel x b ch l) {a : Nat} (ha : a ∈ l) (lo len v : Nat) :
    u.onlyChannel (x.setFld a lo len v) b ch l := h.wr ha _

theorem State.onlyChannel.count (h : u.onlyChannel x b ch l) {a : Nat} (ha : a ∈ l) (n : Nat) :
    u.onlyChannel (x.count a n) b ch l := h.wr ha _

theorem State.onlyChannel.setEdge (h : u.onlyChannel x b ch l) (e : EdgeSt) : u.onlyChannel (x.setEdge b ch e) b ch l :=
  ⟨h.variant, h.regs, fun b' ch' hne => (x.edge_setEdge_ne b ch b' ch' e hne).trans (h.edges b' ch' hne)⟩

theorem State.onlyChannel.latchHealth (h : u.onlyChannel x b ch l) (pg c : Nat) :
    u.onlyChannel (x.latchHealth pg c) b ch l := h.of rfl rfl rfl

theorem State.onlyChannel.standing (h : u.onlyChannel x b ch l) (pg c : Nat) (on : Bool) :
    u.onlyChannel (x.standing pg c on) b ch l := h.of (by simp) (by simp) (by simp)

theorem State.onlyChannel.setQueue (h : u.onlyChannel x b ch l) (lane : Nat) (q : List Peg) :
    u.onlyChannel (x.setQueue lane q) b ch l := h.of rfl rfl rfl

theorem State.onlyChannel.noteEff (h : u.onlyChannel x b ch l) (o : Option Owner) (p : Nat) :
    u.onlyChannel (x.noteEff o p) b ch l := h.of (by simp) (by simp) (by simp)

/-- What the effect of a command leaves, its outcome leaves, and every byte of memory with it. -/
theorem State.onlyChannel.keep (h : u.onlyChannel x b ch l) : u.sameRegs (u.keep x.settle) l ∧
    u.sameEdges (u.keep x.settle) b ch ∧ (u.keep x.settle).mem = u.mem :=
  ⟨State.sameRegs_keep h.regs h.variant, fun b' ch' hne => by simpa using h.edges b' ch' hne, rfl⟩

/-! ### Arming (R107) -/

theorem State.onlyChannel.edgeArm (h : u.onlyChannel x b ch l) (hs : chStat b ch ∈ l) (p : Nat) :
    u.onlyChannel (x.edgeArm b ch p) b ch l := (h.setEdge _).setBit hs 3 true

theorem State.onlyChannel.armFrom (h : u.onlyChannel x b ch l) (hs : chStat b ch ∈ l) (p : Nat) :
    u.onlyChannel (x.armFrom b ch p) b ch l := by
  unfold State.armFrom State.trigAdvise
  split
  · exact (h.edgeArm hs p).latchHealth _ _
  · exact h.edgeArm hs p

theorem State.onlyChannel.edgeDisarm (h : u.onlyChannel x b ch l) (hs : chStat b ch ∈ l) (p : Nat) :
    u.onlyChannel (x.edgeDisarm b ch p) b ch l := by
  unfold State.edgeDisarm
  split
  · exact (h.setEdge _).setBit hs 3 false
  · exact h

end Channel

/-- Arming sets ARMED and the instant from which the channel is armed, advice or not. -/
theorem State.armFrom_shows (s : State) (b ch p : Nat) :
    (s.armFrom b ch p).bit (chStat b ch) 3 = true ∧ ((s.armFrom b ch p).edge b ch).armAt = p ∧
      (s.armFrom b ch p).queues = s.queues := by
  unfold State.armFrom State.trigAdvise
  split <;> simp [State.edgeArm, State.bit_setBit_same]

/-- Disarming clears ARMED and dates the disarming of a channel that was armed; it leaves the other bits of CHc_STAT. -/
theorem State.edgeDisarm_shows (s : State) (b ch p : Nat) : (s.edgeDisarm b ch p).bit (chStat b ch) 3 = false ∧
    (s.bit (chStat b ch) 3 = true → ((s.edgeDisarm b ch p).edge b ch).disarmAt = p) ∧
    (∀ i, i ≠ 3 → (s.edgeDisarm b ch p).bit (chStat b ch) i = s.bit (chStat b ch) i) := by
  unfold State.edgeDisarm
  split
  · refine ⟨State.bit_setBit_same _ _ _ _ (by decide), fun _ => by simp, fun i hi => ?_⟩
    exact (State.bit_setBit_ne _ _ _ (by decide) hi).trans (by simp)
  · next h => exact ⟨by simpa using h, fun h' => absurd h' h, fun _ _ => rfl⟩

@[simp] theorem State.edgeDisarm_queues (s : State) (b ch p : Nat) : (s.edgeDisarm b ch p).queues = s.queues := by
  unfold State.edgeDisarm
  split <;> rfl

/-! ### Pegs at their PT (R100, R102) -/

/-- A peg has left its lane's queue, and beside its channel only the instants the lanes fell idle and its shot differ. -/
structure State.pegged (u x : State) (b ch : Nat) (q : List Peg) : Prop where
  only : x = { u with edges := x.edges, queues := x.queues, touched := x.touched, seqs := x.seqs }
  queue : x.queue (laneAddr b 0 ch) = q
  edges : u.sameEdges x b ch
  queues : u.sameQueues x (laneAddr b 0 ch)

/-- What a statement about a peg says of the outcome beside the channel itself. -/
def State.pegLeaves (u x : State) (b ch : Nat) (q : List Peg) : Prop :=
  x.queue (laneAddr b 0 ch) = q ∧ u.sameEdges x b ch ∧ u.sameQueues x (laneAddr b 0 ch) ∧
    x = { u with edges := x.edges, queues := x.queues, touched := x.touched, seqs := x.seqs, ev := x.ev }

section Pegs

variable {u x : State} {b ch : Nat} {p : Peg} {q : List Peg}

theorem State.pegged.popped (u : State) (b ch : Nat) (q : List Peg) :
    u.pegged (u.setQueue (laneAddr b 0 ch) q) b ch q :=
  ⟨rfl, u.queue_setQueue_same _ q, fun _ _ _ => rfl, fun l hl => u.queue_setQueue_ne _ l q hl⟩

theorem State.pegged.setEdge (h : u.pegged x b ch q) (e : EdgeSt) : u.pegged (x.setEdge b ch e) b ch q := by
  obtain ⟨honly, hqueue, hedges, hqueues⟩ := h
  refine ⟨?_, hqueue, fun b' ch' hne => ?_, hqueues⟩
  · rw [honly]; rfl
  · exact (x.edge_setEdge_ne b ch b' ch' e hne).trans (hedges b' ch' hne)

theorem State.pegged.noteEff (h : u.pegged x b ch q) (o : Option Owner) (n : Nat) : u.pegged (x.noteEff o n) b ch q := by
  obtain ⟨honly, hqueue, hedges, hqueues⟩ := h
  have hseqs : x.noteEff o n = { x with seqs := (x.noteEff o n).seqs } := x.updShot_seqs o _
  refine ⟨?_, by simpa using hqueue, fun b' ch' hne => by simpa using hedges b' ch' hne, fun l hl => by simpa using hqueues l hl⟩
  rw [hseqs, honly]

theorem State.pegged.keep (h : u.pegged x b ch q) : u.pegLeaves (u.keep x.settle) b ch q := by
  obtain ⟨honly, hqueue, hedges, hqueues⟩ := h
  refine ⟨by simpa using hqueue, fun b' ch' hne => by simpa using hedges b' ch' hne,
    fun l hl => by simpa using hqueues l hl, ?_⟩
  rw [State.keep_settle, honly]

/-- A due peg that nothing blocks, on a channel whose record at its PT is `e`: the channel is as its action leaves it. -/
theorem edgePeg_applied {s : State} {t : PT} {a : Nat} {mv : EdgeSt → Peg → Bool} {oc : Bool} {e : EdgeSt}
    {f : State → Peg → EdgeSt → State} {g : State → State} {P : State → Prop} (hu : u = s.arrive t)
    (hg : g u = u.edgeApply b ch a mv oc f) (hdue : u.due (laneAddr b 0 ch) p q a)
    (he : (u.edge b ch).upto (u.chRest b ch) p.pt = e) (hfree : e.blocks p.pt (mv e p) oc = .free)
    (hx : f (u.setQueue (laneAddr b 0 ch) q) p e = x) (hp : u.pegged x b ch q)
    (h : ∀ s', s'.edge b ch = { x.edge b ch with drv := p.owner.map fun (o : Owner) => o.seq } → u.pegLeaves s' b ch q → P s') :
    ∃ s', runAt t s g = .next s' ∧ P s' := by
  subst hu
  have happly := State.edgeApply_free hdue mv oc f (by rw [he]; exact hfree)
  rw [he, hx] at happly
  exact runAt_next (hg.trans happly) (h _ (by simp) ((hp.noteEff _ _).setEdge _).keep)

/-- So on a pin at rest. -/
theorem edgePeg_at_rest {s : State} {t : PT} {a : Nat} {mv : EdgeSt → Peg → Bool} {oc : Bool}
    {f : State → Peg → EdgeSt → State} {g : State → State} {P : State → Prop} (hu : u = s.arrive t)
    (hg : g u = u.edgeApply b ch a mv oc f) (hdue : u.edgeDue b ch p q a)
    (hx : f (u.setQueue (laneAddr b 0 ch) q) p (u.edge b ch) = x) (hp : u.pegged x b ch q)
    (h : ∀ s', s'.edge b ch = { x.edge b ch with drv := p.owner.map fun (o : Owner) => o.seq } → u.pegLeaves s' b ch q → P s') :
    ∃ s', runAt t s g = .next s' ∧ P s' := by
  obtain ⟨hdue, hidle, hspaced⟩ := hdue
  exact edgePeg_applied hu hg hdue (EdgeSt.upto_idle hidle _ _) (EdgeSt.blocks_idle hidle hspaced _ _) hx hp h

/-- A finite effect of a shot that is not voided runs as its peg says. -/
theorem State.edgeStart_whole {s : State} (hv : s.voidOf p.owner = none) (e : EdgeSt) (f : EdgeEff) :
    s.edgeStart b ch p e f = (s.setEdge b ch { e with eff := some f }).noteEff p.owner (f.end_.getD p.pt) := by
  simp [State.edgeStart, State.voided, hv]

theorem EdgeSt.eff_of_idle {e : EdgeSt} (h : e.idle = true) : e.eff = none ∧ e.restAt = none := by
  simpa [EdgeSt.idle] using h

/-- A level put leaves the channel at that level, with no effect of its own. -/
theorem EdgeSt.drive_shows (e : EdgeSt) (p : Nat) (l : Bool) : (e.drive p l).base = l ∧ (e.drive p l).eff = e.eff := by
  unfold EdgeSt.drive
  split
  · next h => exact ⟨by simpa using h, rfl⟩
  · exact ⟨rfl, rfl⟩

/-- One pulse away from the base level, from its start for its width (R100). -/
theorem EdgeSt.level_onePulse {e : EdgeSt} {f : EdgeEff} (hr : e.restAt = none) (hf : e.eff = some f) {w : Nat}
    (hper : f.period = w + 1600) (hw : f.width = w) (hc : f.count = some 1) (rest : Bool) {x : Nat} (hx : f.start ≤ x) :
    e.level rest x = if x < f.start + w then !e.base else e.base := by
  have haway : f.away x = decide (x < f.start + w) := by
    unfold EdgeEff.away
    rw [hper, hw, hc, Bool.eq_iff_iff]
    simp only [hx, decide_true, Bool.true_and, Bool.and_eq_true, decide_eq_true_eq, Nat.lt_one_iff, Nat.div_eq_zero_iff]
    constructor
    · rintro ⟨hlt, h | h⟩
      · omega
      · rw [Nat.mod_eq_of_lt h] at hlt
        omega
    · intro h
      rw [Nat.mod_eq_of_lt (by omega)]
      omega
  unfold EdgeSt.level
  rw [hr, hf]
  dsimp only
  rw [haway]
  split <;> simp [*]

end Pegs

section Actions

variable {s u : State} {t : PT} {b : Fin 8} {ch : Fin 32} {p : Peg} {q : List Peg}

theorem set_due (hu : u = s.arrive t) (h : u.edgeDue b ch p q 1) : ∃ s', exec (.set t b ch) s = .next s' ∧
    (s'.edge b ch).base = bitAt p.payload 4 ∧ (s'.edge b ch).eff = none ∧ u.pegLeaves s' b ch q := by
  obtain ⟨heff, -⟩ := EdgeSt.eff_of_idle h.2.1
  obtain ⟨hbase, hdrive⟩ := (u.edge b ch).drive_shows p.pt (bitAt p.payload 4)
  rw [exec_set, execSet]
  refine edgePeg_at_rest hu rfl h rfl ((State.pegged.popped u b ch q).setEdge _) fun s' he hl => ⟨?_, ?_, hl⟩
  · rw [he, State.edge_setEdge_same, hbase]
  · rw [he, State.edge_setEdge_same, hdrive, heff]

theorem pulse_due (hu : u = s.arrive t) (h : u.edgeDue b ch p q 2) (hv : u.voidOf p.owner = none) :
    ∃ s', exec (.pulse t b ch) s = .next s' ∧
      (∀ x, p.pt ≤ x → (s'.edge b ch).level (u.chRest b ch) x =
        if x < p.pt + bits p.payload 8 40 then !(u.edge b ch).base else (u.edge b ch).base) ∧ u.pegLeaves s' b ch q := by
  obtain ⟨-, hrest⟩ := EdgeSt.eff_of_idle h.2.1
  rw [exec_pulse, execPulse]
  refine edgePeg_at_rest hu rfl h (State.edgeStart_whole (s := u.setQueue (laneAddr b 0 ch) q) hv _ _)
    (((State.pegged.popped u b ch q).setEdge _).noteEff _ _) fun s' he hl => ?_
  rw [State.edge_noteEff, State.edge_setEdge_same] at he
  have hbase : (s'.edge b ch).base = (u.edge b ch).base := by rw [he]
  have heff := congrArg EdgeSt.eff he
  have hstill : (s'.edge b ch).restAt = none := by rw [he]; exact hrest
  exact ⟨fun x hx => hbase ▸ EdgeSt.level_onePulse hstill heff rfl rfl rfl _ hx, hl⟩

theorem burst_due (hu : u = s.arrive t) (h : u.edgeDue b ch p q 3) (hv : u.voidOf p.owner = none) :
    ∃ s', exec (.burst t b ch) s = .next s' ∧
      (∃ f, (s'.edge b ch).eff = some f ∧ f.start = p.pt ∧
        (f.period, f.width, f.count.getD 0) = u.pattern b ch (bits p.payload 5 3) ∧ f.count.isSome ∧ f.clock = false) ∧
      u.pegLeaves s' b ch q := by
  rw [exec_burst, execBurst]
  refine edgePeg_at_rest hu rfl h (State.edgeStart_whole (s := u.setQueue (laneAddr b 0 ch) q) hv _ _)
    (((State.pegged.popped u b ch q).setEdge _).noteEff _ _) fun s' he hl => ?_
  rw [State.edge_noteEff, State.edge_setEdge_same] at he
  exact ⟨⟨_, congrArg EdgeSt.eff he, rfl, rfl, rfl, rfl⟩, hl⟩

theorem clockStart_due (hu : u = s.arrive t) (h : u.edgeDue b ch p q 4) (hv : u.voidOf p.owner = none)
    (hn : (u.pattern b ch (bits p.payload 5 3)).1 % u.clk.n = 0) : ∃ s', exec (.clockStart t b ch) s = .next s' ∧
      (∃ f, (s'.edge b ch).eff = some f ∧ f.start = p.pt ∧ f.period = (u.pattern b ch (bits p.payload 5 3)).1 ∧
        f.width = (u.pattern b ch (bits p.payload 5 3)).2.1 ∧ f.count = none ∧ f.clock = true) ∧ u.pegLeaves s' b ch q := by
  have hpop := State.popPeg_due h.1
  have hwhole : (u.setQueue (laneAddr b 0 ch) q).voidOf p.owner = none := hv
  rw [exec_clockStart, execClockStart]
  refine edgePeg_at_rest hu (by dsimp only; rw [hpop]; exact if_neg (not_not.mpr hn)) h rfl
    ((State.pegged.popped u b ch q).setEdge _) fun s' he hl => ?_
  dsimp only [State.voided] at he
  rw [hwhole, State.edge_setEdge_same] at he
  exact ⟨⟨_, congrArg EdgeSt.eff he, rfl, rfl, rfl, rfl, rfl⟩, hl⟩

theorem clockStop_due {f : EdgeEff} (hu : u = s.arrive t) (h : u.due (laneAddr b 0 ch) p q 5)
    (hf : (u.edge b ch).eff = some f) (hr : (u.edge b ch).restAt = none) (hclock : f.clock = true) (hcount : f.count = none) :
    ∃ s', exec (.clockStop t b ch) s = .next s' ∧
      (s'.edge b ch).eff = some { f with count := some (ceilDiv (p.pt - (f.start + f.width)) f.period + 1) } ∧
      u.pegLeaves s' b ch q := by
  have hupto : (u.edge b ch).upto (u.chRest b ch) p.pt = u.edge b ch := by
    simp [EdgeSt.upto, hf, hr, EdgeEff.end_, hcount]
  have hfree : (u.edge b ch).blocks p.pt false true = .free := by simp [EdgeSt.blocks, hf, hclock]
  have hstop : (u.setQueue (laneAddr b 0 ch) q).clockStop b ch (u.edge b ch) p.pt =
      ((u.setQueue (laneAddr b 0 ch) q).setEdge b ch { u.edge b ch with eff := some (f.stopClock p.pt) }).noteEff f.owner
        ((f.stopClock p.pt).end_.getD p.pt) := by
    simp [State.clockStop, hf, hclock, hcount]
  rw [exec_clockStop, execClockStop]
  refine edgePeg_applied hu rfl h hupto hfree hstop (((State.pegged.popped u b ch q).setEdge _).noteEff _ _)
    fun s' he hl => ⟨?_, hl⟩
  rw [he, State.edge_noteEff, State.edge_setEdge_same]
  rfl

theorem rest_due (hu : u = s.arrive t) (h : u.edgeDue b ch p q 6) : ∃ s', exec (.rest t b ch) s = .next s' ∧
    (s'.edge b ch).base = u.chRest b ch ∧ (s'.edge b ch).eff = none ∧ u.pegLeaves s' b ch q := by
  obtain ⟨heff, -⟩ := EdgeSt.eff_of_idle h.2.1
  obtain ⟨hbase, hdrive⟩ := (u.edge b ch).drive_shows p.pt (u.chRest b ch)
  rw [exec_rest, execRest]
  refine edgePeg_at_rest (x := (u.setQueue (laneAddr b 0 ch) q).setEdge b ch ((u.edge b ch).drive p.pt (u.chRest b ch)))
    hu rfl h (by rw [heff]) ((State.pegged.popped u b ch q).setEdge _) fun s' he hl => ⟨?_, ?_, hl⟩
  · rw [he, State.edge_setEdge_same, hbase]
  · rw [he, State.edge_setEdge_same, hdrive, heff]

/-- A due ARM or DISARM peg leaves the lane, and has its effect (R107). -/
theorem State.armPeg_due {s : State} {b ch a : Nat} (h : s.due (laneAddr b 0 ch) p q a) (f : State → Peg → State) :
    s.armPeg b ch a f = (f (s.setQueue (laneAddr b 0 ch) q) p).noteEff p.owner p.pt := by
  have hf : (s.setQueue (laneAddr b 0 ch) q).laneFault (laneAddr b 0 ch) = false := h.2.2.2
  unfold State.armPeg
  simp [State.popPeg_due h, hf]

/-- What an ARM or DISARM peg leaves. -/
theorem armPeg_leaves {u x : State} {b ch : Nat} (hq : x.queues = (u.setQueue (laneAddr b 0 ch) q).queues)
    (h : u.onlyChannel x b ch [chStat b ch]) (o : Option Owner) (n : Nat) :
    (u.keep (x.noteEff o n).settle).queue (laneAddr b 0 ch) = q ∧
      u.sameRegs (u.keep (x.noteEff o n).settle) [chStat b ch] ∧ u.sameEdges (u.keep (x.noteEff o n).settle) b ch ∧
      u.sameQueues (u.keep (x.noteEff o n).settle) (laneAddr b 0 ch) ∧ (u.keep (x.noteEff o n).settle).mem = u.mem := by
  have hat (l : Nat) : x.queue l = (u.setQueue (laneAddr b 0 ch) q).queue l := by rw [State.queue, State.queue, hq]
  obtain ⟨hregs, hedges, hmem⟩ := (h.noteEff o n).keep
  exact ⟨by simpa using hat (laneAddr b 0 ch), hregs, hedges, fun l hl => by
    simpa using (hat l).trans (u.queue_setQueue_ne _ l q hl), hmem⟩

theorem armPeg_due (hu : u = s.arrive t) (h : u.due (laneAddr b 0 ch) p q 7) : ∃ s', exec (.arm t b ch) s = .next s' ∧
    s'.bit (chStat b ch) 3 = true ∧ (s'.edge b ch).armAt = p.pt ∧ s'.queue (laneAddr b 0 ch) = q ∧
      u.sameRegs s' [chStat b ch] ∧ u.sameEdges s' b ch ∧ u.sameQueues s' (laneAddr b 0 ch) ∧ s'.mem = u.mem := by
  subst hu
  obtain ⟨hbit, hat, hq⟩ := ((s.arrive t).setQueue (laneAddr b 0 ch) q).armFrom_shows b ch p.pt
  have honly := ((State.onlyChannel.refl (s.arrive t) b ch [chStat b ch]).setQueue (laneAddr b 0 ch) q).armFrom
    List.mem_cons_self p.pt
  refine runAt_next (f := fun s => s.armPeg b ch 7 fun s p => s.armFrom b ch p.pt) (State.armPeg_due h _)
    ⟨?_, by simpa using hat, armPeg_leaves hq honly p.owner p.pt⟩
  rw [State.bit_keep _ _ _ _ (by simp [honly.variant])]
  simpa using hbit

theorem disarmPeg_due (hu : u = s.arrive t) (h : u.due (laneAddr b 0 ch) p q 8) : ∃ s', exec (.disarm t b ch) s = .next s' ∧
    s'.bit (chStat b ch) 3 = false ∧ (u.bit (chStat b ch) 3 = true → (s'.edge b ch).disarmAt = p.pt) ∧
      s'.queue (laneAddr b 0 ch) = q ∧ u.sameRegs s' [chStat b ch] ∧ u.sameEdges s' b ch ∧
      u.sameQueues s' (laneAddr b 0 ch) ∧ s'.mem = u.mem := by
  subst hu
  obtain ⟨hbit, hat, -⟩ := ((s.arrive t).setQueue (laneAddr b 0 ch) q).edgeDisarm_shows b ch p.pt
  have honly := ((State.onlyChannel.refl (s.arrive t) b ch [chStat b ch]).setQueue (laneAddr b 0 ch) q).edgeDisarm
    List.mem_cons_self p.pt
  refine runAt_next (f := fun s => s.armPeg b ch 8 fun s p => s.edgeDisarm b ch p.pt) (State.armPeg_due h _)
    ⟨?_, fun h3 => ?_, armPeg_leaves (State.edgeDisarm_queues _ _ _ _) honly p.owner p.pt⟩
  · rw [State.bit_keep _ _ _ _ (by simp [honly.variant])]
    simpa using hbit
  · simpa using hat h3

end Actions

/-- Settles O1: each action by its own theorem. -/
theorem edgePegs : Obligations.EdgePegs := by
  refine ⟨fun s u t b ch p q hu => ⟨set_due hu, pulse_due hu, burst_due hu, clockStart_due hu⟩,
    fun s u t b ch p q hu => ⟨fun f hdue hf hr hclock hcount => clockStop_due hu hdue hf hr hclock hcount, rest_due hu,
      armPeg_due hu, disarmPeg_due hu⟩⟩

end Sys2Proof.Machine
end

section
/-!
PROOFS. Edge channels, triggers (R104–R107): the trigger that a channel's policy takes, and the commands ARM and DISARM.
-/

namespace Sys2Proof.Machine

/-! ### Registers of a channel block (R125) -/

/-- Two registers of one channel block are distinct. -/
theorem chReg_ne {pg c d k : Nat} (h : c ≠ d) : pg + (c + 0x40 * k) ≠ pg + (d + 0x40 * k) := by omega

/-- A bit of a word as a register holds it. -/
theorem bitAt_word {v i : Nat} (h : i < 32) : bitAt (v % 2 ^ 32) i = bitAt v i := by
  rw [bitAt, bitAt, Nat.testBit_mod_two_pow, decide_eq_true h, Bool.true_and]

/-- Two states whose register at an offset is the same word read the same field there. -/
theorem State.fld_of_reg {s u : State} {a : Nat} (h : s.reg a = u.reg a) (lo len : Nat) : s.fld a lo len = u.fld a lo len := by
  unfold State.fld; rw [State.rd_of_reg h]

/-! ### The output of a trigger (R104) -/

/-- TRIG_DELAY of a channel. -/
def State.chTrigDelay (s : State) (b ch : Nat) : Nat :=
  s.rd (edgePg b ch + Off.EDGE_CH_TRIG_DELAY_LO (ch % 8)) +
    s.fld (edgePg b ch + Off.EDGE_CH_TRIG_DELAY_HI (ch % 8)) 0 22 * 2 ^ 32

theorem State.chTrigDelay_bumped (s : State) (b ch : Nat) :
    (s.bump (edgePg b ch + Off.EDGE_CH_TRIG_COUNT (ch % 8))).chTrigDelay b ch = s.chTrigDelay b ch := by
  unfold State.chTrigDelay
  rw [State.rd_bump_ne _ (chReg_ne (by decide)), State.fld_of_reg (State.reg_bump_ne _ (chReg_ne (by decide)))]

/-- The output goes to the end of those on their way to the channel's own lane, TRIG_DELAY after the stamp. -/
theorem State.trigIssue_sends (s : State) (b ch x : Nat) : ∃ p : Peg, p.trig = true ∧ p.owner = none ∧
    p.pt = ptAdd x (s.chTrigDelay b ch) ∧ s.trigIssue b ch x = s.offer (laneAddr b 0 ch) p := ⟨_, rfl, rfl, rfl, rfl⟩

theorem State.onlyChannel.offer {u x : State} {b ch : Nat} {l : List Nat} (h : u.onlyChannel x b ch l) (lane : Nat) (p : Peg) :
    u.onlyChannel (x.offer lane p) b ch l := h.of rfl rfl rfl

@[simp] theorem State.inFlight_edgeDisarm (s : State) (b ch p lane : Nat) :
    (s.edgeDisarm b ch p).inFlight lane = s.inFlight lane := by
  unfold State.edgeDisarm
  split <;> simp

/-- DISARM after a trigger, where TRIG_SRC asks for one shot. -/
def State.disarmIf (s : State) (c : Bool) (b ch x : Nat) : State := if c then s.edgeDisarm b ch x else s

theorem State.onlyChannel.disarmIf {u x : State} {b ch : Nat} {l : List Nat} (h : u.onlyChannel x b ch l)
    (hs : chStat b ch ∈ l) (c : Bool) (p : Nat) : u.onlyChannel (x.disarmIf c b ch p) b ch l := by
  cases c
  · exact h
  · exact h.edgeDisarm hs p

@[simp] theorem State.inFlight_disarmIf (s : State) (c : Bool) (b ch p lane : Nat) :
    (s.disarmIf c b ch p).inFlight lane = s.inFlight lane := by
  cases c
  · rfl
  · exact s.inFlight_edgeDisarm b ch p lane

section Triggers

variable {s u : State} {t stamp : PT} {b : Fin 8} {ch : Fin 32} {falling : Bool}

/-- A trigger that its policy takes is counted, sends its output, and disarms a channel of one shot (R106, R107). -/
theorem trigger_taken (hu : u = s.arrive t) (hmode : u.chMode b ch = 2) (hon : u.chOn b ch = true)
    (husable : u.trigUsable b ch falling = true) (harmed : u.armedAt b ch stamp.toNat = true)
    (hfault : u.laneFault (laneAddr b 0 ch) = false)
    (hpolicy : u.fld (chCtrl b ch) 6 2 = 0 ∧ u.trigPending b ch = 0 ∨ u.fld (chCtrl b ch) 6 2 = 1 ∧ u.trigPending b ch < 4) :
    exec (.trigger t b ch ⟨falling, stamp⟩) s = runAt t s fun _ =>
      ((u.bump (edgePg b ch + Off.EDGE_CH_TRIG_COUNT (ch.val % 8))).trigIssue b ch stamp.toNat).disarmIf
        (u.bit (edgePg b ch + Off.EDGE_CH_TRIG_SRC (ch.val % 8)) 7) b ch stamp.toNat := by
  have htaken : ¬ ((u.fld (chCtrl b ch) 6 2 = 0 ∧ 0 < u.trigPending b ch) ∨
      (u.fld (chCtrl b ch) 6 2 = 1 ∧ 4 ≤ u.trigPending b ch)) := by omega
  have hnew : u.fld (chCtrl b ch) 6 2 ≠ 2 := by omega
  subst hu
  rw [exec_trigger, execTrigger, runAt, runAt]
  dsimp only
  rw [if_pos (by simp [hmode, hon, husable, harmed, hfault]), if_neg htaken, if_neg hnew]
  rfl

/-- The two commands of a page of the bent (R107). -/
theorem chArm_next (hu : u = s.arrive t) (hstarts : u.starts b (edgePg b ch)) (hmode : u.chMode b ch = 2) :
    ∃ s', exec (.chArm t b ch) s = .next s' ∧ s'.bit (chStat b ch) 3 = true ∧ (s'.edge b ch).armAt = u.now ∧
      u.sameRegs s' [chStat b ch] ∧ u.sameEdges s' b ch ∧ s'.mem = u.mem := by
  subst hu
  obtain ⟨hbit, hat, -⟩ := (s.arrive t).armFrom_shows b ch (s.arrive t).now
  have honly := (State.onlyChannel.refl (s.arrive t) b ch [chStat b ch]).armFrom List.mem_cons_self (s.arrive t).now
  rw [exec_chArm, execChArm]
  refine runAt_next ((State.command_starts hstarts _).trans (if_pos hmode)) ⟨?_, by simpa using hat, honly.keep⟩
  rwa [State.bit_keep _ _ _ _ (by simp [honly.variant]), State.bit_settle]

theorem chDisarm_next (hu : u = s.arrive t) (htakes : u.takes b (edgePg b ch)) :
    ∃ s', exec (.chDisarm t b ch) s = .next s' ∧ s'.bit (chStat b ch) 3 = false ∧
      (u.bit (chStat b ch) 3 = true → (s'.edge b ch).disarmAt = u.now) ∧
      u.sameRegs s' [chStat b ch] ∧ u.sameEdges s' b ch ∧ s'.mem = u.mem := by
  subst hu
  obtain ⟨hbit, hat, -⟩ := (s.arrive t).edgeDisarm_shows b ch (s.arrive t).now
  have honly := (State.onlyChannel.refl (s.arrive t) b ch [chStat b ch]).edgeDisarm List.mem_cons_self (s.arrive t).now
  rw [exec_chDisarm, execChDisarm]
  refine runAt_next (State.command_takes htakes _) ⟨?_, fun h3 => by simpa using hat h3, honly.keep⟩
  rwa [State.bit_keep _ _ _ _ (by simp [honly.variant]), State.bit_settle]

/-- What a trigger that is taken shows. -/
theorem trigger_shows (hu : u = s.arrive t) (hmode : u.chMode b ch = 2) (hon : u.chOn b ch = true)
    (husable : u.trigUsable b ch falling = true) (harmed : u.armedAt b ch stamp.toNat = true)
    (hfault : u.laneFault (laneAddr b 0 ch) = false)
    (hpolicy : u.fld (chCtrl b ch) 6 2 = 0 ∧ u.trigPending b ch = 0 ∨ u.fld (chCtrl b ch) 6 2 = 1 ∧ u.trigPending b ch < 4) :
    ∃ s', exec (.trigger t b ch ⟨falling, stamp⟩) s = .next s' ∧
      s'.rd (edgePg b ch + Off.EDGE_CH_TRIG_COUNT (ch.val % 8)) =
        satAdd (u.rd (edgePg b ch + Off.EDGE_CH_TRIG_COUNT (ch.val % 8))) 1 ∧
      (∃ p, s'.inFlight (laneAddr b 0 ch) = u.inFlight (laneAddr b 0 ch) ++ [p] ∧ p.trig = true ∧ p.owner = none ∧
        p.pt = ptAdd stamp.toNat (u.chTrigDelay b ch)) ∧
      (u.bit (edgePg b ch + Off.EDGE_CH_TRIG_SRC (ch.val % 8)) 7 = true → s'.bit (chStat b ch) 3 = false) ∧
      u.sameRegs s' [chStat b ch, edgePg b ch + Off.EDGE_CH_TRIG_COUNT (ch.val % 8)] ∧ s'.mem = u.mem := by
  have hexec := trigger_taken hu hmode hon husable harmed hfault hpolicy
  set count := edgePg b ch + Off.EDGE_CH_TRIG_COUNT (ch.val % 8) with hcount
  have hne : count ≠ chStat b ch := chReg_ne (by decide)
  obtain ⟨p, htrig, howner, hpt, hissue⟩ := (u.bump count).trigIssue_sends b ch stamp.toNat
  rw [hissue] at hexec
  set y := (u.bump count).offer (laneAddr b 0 ch) p
  generalize hc : u.bit (edgePg b ch + Off.EDGE_CH_TRIG_SRC (ch.val % 8)) 7 = c at hexec ⊢
  have hy : u.onlyChannel y b ch [chStat b ch, count] := ((State.onlyChannel.refl u b ch _).count (by simp) 1).offer _ _
  have hz := hy.disarmIf (by simp) c stamp.toNat
  have hz1 := (State.onlyChannel.refl y b ch [chStat b ch]).disarmIf (by simp) c stamp.toNat
  obtain ⟨hregs, -, hmem⟩ := hz.keep
  rw [hexec]
  subst hu
  refine runAt_next rfl ⟨?_, ⟨p, ?_, htrig, howner, ?_⟩, ?_, hregs, hmem⟩
  · rw [State.rd_keep _ _ _ (by simp [hz.variant]), State.rd_settle, State.rd_of_reg (hz1.regs count (by simpa using hne))]
    exact State.rd_bump_same (s.arrive t) count
  · simp [y, State.offer]
  · rw [hpt, State.chTrigDelay_bumped]
  · rintro rfl
    rw [State.bit_keep _ _ _ _ (by simp [hz.variant]), State.bit_settle]
    exact (y.edgeDisarm_shows b ch stamp.toNat).1

end Triggers

/-- Settles O2: the trigger by its exec's taken branch, the two commands by what arming and disarming show. -/
theorem edgeTriggers : Obligations.EdgeTriggers := by
  intro s u t stamp b ch falling hu
  exact ⟨fun hmode hon husable harmed hfault hpolicy => trigger_shows hu hmode hon husable harmed hfault hpolicy,
    fun hstarts hmode => chArm_next hu hstarts hmode, fun htakes => chDisarm_next hu htakes⟩

end Sys2Proof.Machine
end

section
/-!
PROOFS. Edge channels, commands (R113, R114, R116, R117): STOP, DRAIN, RESENSE, the end of sensing and the end of the hold.
-/

namespace Sys2Proof.Machine

/-! ### Only registers, channels and the event state -/

/-- Only registers in force, edge channels and the event state differ. -/
def State.onlyPins (u x : State) : Prop := ∃ r m e, x = { u with regs := r, edges := m, ev := e }

theorem State.onlyPins.refl (u : State) : u.onlyPins u := ⟨u.regs, u.edges, u.ev, rfl⟩

theorem State.onlyPins.trans {u x y : State} (h : u.onlyPins x) (k : x.onlyPins y) : u.onlyPins y := by
  obtain ⟨_, _, _, rfl⟩ := h
  obtain ⟨r, m, e, rfl⟩ := k
  exact ⟨r, m, e, rfl⟩

theorem State.onlyRegs.pins {u x : State} (h : u.onlyRegs x) : u.onlyPins x := by
  obtain ⟨r, e, rfl⟩ := h
  exact ⟨r, u.edges, e, rfl⟩

theorem State.onlyPins_setEdge (u : State) (b ch : Nat) (e : EdgeSt) : u.onlyPins (u.setEdge b ch e) := ⟨_, _, _, rfl⟩

/-- What a command's effect leaves beside registers, channels and the event state, its outcome leaves. -/
theorem State.onlyPins.keep {u x : State} (h : u.onlyPins x) : u.keep x.settle =
    { u with regs := (u.keep x.settle).regs, edges := (u.keep x.settle).edges, ev := (u.keep x.settle).ev } := by
  obtain ⟨r, m, e, rfl⟩ := h
  rw [State.keep_settle]

/-! ### CHc_STAT after a command -/

theorem edgePg_block_ne_stat {b ch o : Nat} (h : o < 0x100) : edgePg b ch + o ≠ chStat b ch := by
  unfold chStat Off.EDGE_CH_STAT; omega

/-- A bit of a register that a word was written to. -/
theorem State.bit_wr_same (s : State) (a v : Nat) {i : Nat} (h : i < 32) : (s.wr a v).bit a i = bitAt v i := by
  rw [State.bit_wr, if_pos rfl, bitAt_word h]

/-- A field of a word as a register holds it. -/
theorem bits_word {v lo len : Nat} (h : lo + len ≤ 32) : bits (v % 2 ^ 32) lo len = bits v lo len := by
  refine Nat.eq_of_testBit_eq fun i => ?_
  rw [testBit_bits, testBit_bits]
  by_cases hi : i < len
  · rw [← bitAt, bitAt_word (by omega), bitAt]
  · simp [hi]

/-! ### STOP (R116) -/

/-- A channel whose queue and pending outputs are discarded and counted, and which is disarmed (R116 step 1). -/
def State.edgeCleared (s : State) (b ch : Nat) : State :=
  (((s.dropTrig (laneAddr b 0 ch) (edgePg b ch + Off.EDGE_CH_DISCARD_COUNT (ch % 8))).count
    (edgePg b ch + Off.EDGE_CH_DISCARD_COUNT (ch % 8)) (s.queue (laneAddr b 0 ch)).length).setQueue (laneAddr b 0 ch)
    []).edgeDisarm b ch s.now

/-- CHc_STAT of a disabled channel: not live, not armed and not draining. -/
def chStopped (w : Nat) : Nat := putBits (putBits (putBits w 0 1 0) 3 1 0) 5 1 0

theorem bitAt_zero (i : Nat) : bitAt 0 i = false := Nat.zero_testBit i

theorem chStopped_bits (w : Nat) : bitAt (chStopped w) 0 = false ∧ bitAt (chStopped w) 3 = false ∧ bitAt (chStopped w) 5 = false := by
  refine ⟨?_, ?_, ?_⟩ <;> simp [chStopped, bitAt_putBits, bitAt_zero]

/-- An immediate disable clears the channel and puts its record and CHc_STAT. -/
theorem State.edgeDisable_eq (s : State) (b ch : Nat) : ∃ e, s.edgeDisable b ch =
    ((s.edgeCleared b ch).setEdge b ch e).wr (chStat b ch) (chStopped ((s.edgeCleared b ch).rd (chStat b ch))) := ⟨_, rfl⟩

section Stop

variable (s : State) (b ch : Nat)

/-- The registers a STOP reaches. -/
def stopRegs (b ch : Nat) : List Nat := [chStat b ch, edgePg b ch + Off.EDGE_CH_DISCARD_COUNT (ch % 8)]

theorem chStat_mem_stopRegs : chStat b ch ∈ stopRegs b ch := List.mem_cons_self

theorem discard_mem_stopRegs : edgePg b ch + Off.EDGE_CH_DISCARD_COUNT (ch % 8) ∈ stopRegs b ch :=
  List.mem_cons_of_mem _ List.mem_cons_self

theorem State.onlyChannel_dropTrig (lane : Nat) : s.onlyChannel
    (s.dropTrig lane (edgePg b ch + Off.EDGE_CH_DISCARD_COUNT (ch % 8))) b ch (stopRegs b ch) :=
  ((State.onlyChannel.refl s b ch _).count (discard_mem_stopRegs b ch) _).of rfl rfl rfl

theorem State.onlyChannel_edgeCleared : s.onlyChannel (s.edgeCleared b ch) b ch (stopRegs b ch) :=
  ((((s.onlyChannel_dropTrig b ch _).count (discard_mem_stopRegs b ch) _).setQueue _ _).edgeDisarm
    (chStat_mem_stopRegs b ch) _)

theorem State.onlyChannel_edgeDisable : s.onlyChannel (s.edgeDisable b ch) b ch (stopRegs b ch) := by
  obtain ⟨e, he⟩ := s.edgeDisable_eq b ch
  rw [he]
  exact ((s.onlyChannel_edgeCleared b ch).setEdge e).wr (chStat_mem_stopRegs b ch) _

/-- The queue of a cleared channel is empty, and no other lane's queue has changed. -/
theorem State.queues_edgeDisable : (s.edgeDisable b ch).queue (laneAddr b 0 ch) = [] ∧
    s.sameQueues (s.edgeDisable b ch) (laneAddr b 0 ch) := by
  have h : (s.edgeDisable b ch).queues = (s.setQueue (laneAddr b 0 ch) []).queues := by
    obtain ⟨e, he⟩ := s.edgeDisable_eq b ch
    rw [he, State.wr_queues, State.setEdge_queues, State.edgeCleared, State.edgeDisarm_queues]
    rfl
  have hat (l : Nat) : (s.edgeDisable b ch).queue l = (s.setQueue (laneAddr b 0 ch) []).queue l := by
    rw [State.queue, State.queue, h]
  exact ⟨(hat _).trans (s.queue_setQueue_same _ _), fun l hl => (hat l).trans (s.queue_setQueue_ne _ l _ hl)⟩

theorem State.stat_edgeDisable : (s.edgeDisable b ch).bit (chStat b ch) 0 = false ∧
    (s.edgeDisable b ch).bit (chStat b ch) 3 = false ∧ (s.edgeDisable b ch).bit (chStat b ch) 5 = false := by
  obtain ⟨e, he⟩ := s.edgeDisable_eq b ch
  obtain ⟨h0, h3, h5⟩ := chStopped_bits ((s.edgeCleared b ch).rd (chStat b ch))
  rw [he]
  exact ⟨(State.bit_wr_same _ _ _ (by decide)).trans h0, (State.bit_wr_same _ _ _ (by decide)).trans h3,
    (State.bit_wr_same _ _ _ (by decide)).trans h5⟩

/-- A saturating count after what was added to it. -/
theorem State.rd_count_same (a n : Nat) : (s.count a n).rd a = satAdd (s.rd a) n := by
  rw [State.count, State.rd_wr_same]
  exact Nat.mod_eq_of_lt (Nat.lt_of_le_of_lt (Nat.min_le_right _ _) (by decide))

/-- The pending outputs and then the queued pegs count as discards. -/
theorem State.discards_edgeDisable : (s.edgeDisable b ch).rd (edgePg b ch + Off.EDGE_CH_DISCARD_COUNT (ch % 8)) =
    satAdd (satAdd (s.rd (edgePg b ch + Off.EDGE_CH_DISCARD_COUNT (ch % 8)))
      ((s.inFlight (laneAddr b 0 ch)).filter fun p => p.trig).length) (s.queue (laneAddr b 0 ch)).length := by
  obtain ⟨e, he⟩ := s.edgeDisable_eq b ch
  have hne : edgePg b ch + Off.EDGE_CH_DISCARD_COUNT (ch % 8) ≠ chStat b ch := chReg_ne (by decide)
  have hdisarm (x : State) : (x.edgeDisarm b ch s.now).rd (edgePg b ch + Off.EDGE_CH_DISCARD_COUNT (ch % 8)) =
      x.rd (edgePg b ch + Off.EDGE_CH_DISCARD_COUNT (ch % 8)) :=
    State.rd_of_reg (((State.onlyChannel.refl x b ch [chStat b ch]).edgeDisarm List.mem_cons_self _).regs _ (by simp))
  rw [he, State.rd_wr_ne _ _ hne, State.rd_setEdge, State.edgeCleared, hdisarm, State.rd_setQueue, State.rd_count_same]
  exact congrArg (satAdd · _) (s.rd_count_same _ _)

end Stop

section Commands

variable {s u : State} {t : PT} {b : Fin 8} {ch : Fin 32}

theorem chStop_live (hu : u = s.arrive t) (htakes : u.takes b (edgePg b ch)) (hlive : u.chLive b ch = true) :
    ∃ s', exec (.chStop t b ch) s = .next s' ∧
      s'.chLive b ch = false ∧ s'.bit (chStat b ch) 3 = false ∧ s'.bit (chStat b ch) 5 = false ∧
      s'.queue (laneAddr b 0 ch) = [] ∧
      s'.rd (edgePg b ch + Off.EDGE_CH_DISCARD_COUNT (ch.val % 8)) =
        satAdd (satAdd (u.rd (edgePg b ch + Off.EDGE_CH_DISCARD_COUNT (ch.val % 8)))
          ((u.inFlight (laneAddr b 0 ch)).filter fun p => p.trig).length) (u.queue (laneAddr b 0 ch)).length ∧
      u.sameRegs s' [chStat b ch, edgePg b ch + Off.EDGE_CH_DISCARD_COUNT (ch.val % 8)] ∧
      u.sameQueues s' (laneAddr b 0 ch) ∧ u.sameEdges s' b ch ∧ s'.mem = u.mem := by
  subst hu
  have honly := (s.arrive t).onlyChannel_edgeDisable b ch
  have hv := honly.variant
  obtain ⟨h0, h3, h5⟩ := (s.arrive t).stat_edgeDisable b ch
  obtain ⟨hqueue, hqueues⟩ := (s.arrive t).queues_edgeDisable b ch
  have hcount := (s.arrive t).discards_edgeDisable b ch
  obtain ⟨hregs, hedges, hmem⟩ := honly.keep
  have hreg (a : Nat) := State.reg_keep_settle hv a
  rw [exec_chStop, execChStop]
  refine runAt_next ((State.command_takes htakes _).trans (if_pos (by simp [hlive]))) ⟨?_, ?_, ?_, ?_, ?_, hregs, ?_, hedges, hmem⟩
  · exact (State.bit_of_reg (hreg _) 0).trans h0
  · exact (State.bit_of_reg (hreg _) 3).trans h3
  · exact (State.bit_of_reg (hreg _) 5).trans h5
  · simpa using hqueue
  · exact (State.rd_of_reg (hreg _)).trans hcount
  · exact fun l hl => by simpa using hqueues l hl

/-- A live channel that drains is disarmed, marked, and keeps its instant (R117). -/
theorem State.edgeDrain_live {x : State} {b ch : Nat} (hlive : x.chLive b ch = true) : x.edgeDrain b ch =
    ((x.edgeDisarm b ch x.now).setBit (chStat b ch) 5 true).setEdge b ch
      { ((x.edgeDisarm b ch x.now).setBit (chStat b ch) 5 true).edge b ch with drainAt := some x.now } :=
  if_pos (by simp [hlive])

theorem chDrain_live (hu : u = s.arrive t) (htakes : u.takes b (edgePg b ch)) (hlive : u.chLive b ch = true) :
    ∃ s', exec (.chDrain t b ch) s = .next s' ∧
      s'.bit (chStat b ch) 5 = true ∧ s'.bit (chStat b ch) 3 = false ∧ s'.chLive b ch = true ∧
      s'.drainAt (drainLane (laneAddr b 0 ch)) = some u.now ∧ s'.queues = u.queues ∧
      u.sameRegs s' [chStat b ch] ∧ u.sameEdges s' b ch ∧ s'.mem = u.mem := by
  subst hu
  set u := s.arrive t
  have hmem : chStat b ch ∈ [chStat b ch] := List.mem_cons_self
  have honly : u.onlyChannel ((u.edgeDrain b ch).setDrain (drainLane (laneAddr b 0 ch)) (some u.now)) b ch [chStat b ch] := by
    rw [State.edgeDrain_live hlive]
    exact ((((State.onlyChannel.refl u b ch _).edgeDisarm hmem _).setBit hmem _ _).setEdge _).of rfl rfl rfl
  have hreg (a : Nat) := State.reg_keep_settle honly.variant a
  obtain ⟨h3, -, hother⟩ := u.edgeDisarm_shows b ch u.now
  rw [exec_chDrain, execChDrain]
  refine runAt_next (State.command_takes htakes _) ⟨?_, ?_, ?_, ?_, ?_, honly.keep⟩
  · refine (State.bit_of_reg (hreg _) 5).trans ?_
    rw [State.bit_setDrain, State.edgeDrain_live hlive, State.bit_setEdge, State.bit_setBit_same _ _ _ _ (by decide)]
  · refine (State.bit_of_reg (hreg _) 3).trans ?_
    rw [State.bit_setDrain, State.edgeDrain_live hlive, State.bit_setEdge, State.bit_setBit_ne _ _ _ (by decide) (by decide), h3]
  · refine (State.bit_of_reg (hreg _) 0).trans ?_
    rw [State.bit_setDrain, State.edgeDrain_live hlive, State.bit_setEdge, State.bit_setBit_ne _ _ _ (by decide) (by decide),
      hother 0 (by decide)]
    exact hlive
  · simp
  · rw [State.edgeDrain_live hlive]
    simp

end Commands

/-! ### Sensing (R113, R114) -/

/-- The rest level that a class of R114 chooses: the pin's own where it is sensed low or high. -/
def restLevel (cls : Nat) (level : Bool) : Bool := if cls = 1 then false else if cls = 2 then true else level

/-- CHc_STAT of a classified pin: its rest level, whether it is flagged, its class, and LIVE where it becomes live. -/
def chSensed (w cls : Nat) (level live : Bool) : Nat :=
  let st := putBits (putBits (putBits w 6 1 (b2n (restLevel cls level))) 7 1 (b2n (decide (3 ≤ cls)))) 8 3 cls
  if live then putBits st 0 1 1 else st

theorem chSensed_shows (w cls : Nat) (level live : Bool) : bits (chSensed w cls level live) 8 3 = cls % 8 ∧
    bitAt (chSensed w cls level live) 6 = restLevel cls level ∧ (live = true → bitAt (chSensed w cls level live) 0 = true) := by
  have hclass (v : Nat) : bits (putBits (putBits v 8 3 cls) 0 1 1) 8 3 = cls % 8 :=
    (bits_putBits_ne _ _ _ _ _ _ (by decide)).trans (bits_putBits_same _ _ _ _)
  have hrest (v : Nat) : bitAt (putBits (putBits (putBits v 6 1 (b2n (restLevel cls level))) 7 1 (b2n (decide (3 ≤ cls)))) 8 3 cls) 6 =
      restLevel cls level := by
    rw [bitAt_putBits, if_pos (by decide), bitAt_putBit_ne _ _ (by decide), bitAt_putBit_same]
  unfold chSensed
  cases live
  · exact ⟨bits_putBits_same _ _ _ _, hrest w, fun h => by cases h⟩
  · refine ⟨hclass _, ?_, fun _ => bitAt_putBit_same _ 0 true⟩
    exact (bitAt_putBit_ne _ true (by decide)).trans (hrest w)

section Sensing

variable (s : State) (b ch cls : Nat) (level live : Bool)

/-- The registers that the end of sensing reaches. -/
def senseRegs (b ch : Nat) : List Nat := [chStat b ch, edgePg b ch + Off.EDGE_GRP_STAT]

/-- A pin that leaves sensing: CHc_STAT, its group's flag, the page's standing code, and the channel's record. -/
theorem State.edgeGoLive_eq : ∃ on e, s.edgeGoLive b ch cls level live =
    ((((s.wr (chStat b ch) (chSensed (s.rd (chStat b ch)) cls level live)).setBit (edgePg b ch + Off.EDGE_GRP_STAT) (24 + ch % 8)
      (decide (3 ≤ cls))).standing (edgePg b ch) 0x40 on).setEdge b ch e) ∧ e.senseEnd = none ∧ e.base = restLevel cls level :=
  ⟨_, _, rfl, rfl, rfl⟩

theorem State.edgeGoLive_shows :
    (s.edgeGoLive b ch cls level live).fld (chStat b ch) 8 3 = cls % 8 ∧
      (s.edgeGoLive b ch cls level live).chRest b ch = restLevel cls level ∧
      (live = true → (s.edgeGoLive b ch cls level live).chLive b ch = true) ∧
      ((s.edgeGoLive b ch cls level live).edge b ch).senseEnd = none ∧
      ((s.edgeGoLive b ch cls level live).edge b ch).base = restLevel cls level := by
  obtain ⟨on, e, heq, hend, hbase⟩ := s.edgeGoLive_eq b ch cls level live
  have hne : chStat b ch ≠ edgePg b ch + Off.EDGE_GRP_STAT := (edgePg_block_ne_stat (by decide)).symm
  obtain ⟨hclass, hrest, hlive⟩ := chSensed_shows (s.rd (chStat b ch)) cls level live
  have hreg : (s.edgeGoLive b ch cls level live).reg (chStat b ch) =
      (s.wr (chStat b ch) (chSensed (s.rd (chStat b ch)) cls level live)).reg (chStat b ch) := by
    rw [heq, State.reg_setEdge, State.reg_standing, State.reg_setBit_ne _ _ _ hne]
  refine ⟨?_, ?_, fun h => ?_, ?_, ?_⟩
  · rw [State.fld_of_reg hreg, State.fld_wr, if_pos rfl, bits_word (by decide), hclass]
  · exact (State.bit_of_reg hreg 6).trans ((State.bit_wr_same _ _ _ (by decide)).trans hrest)
  · exact (State.bit_of_reg hreg 0).trans ((State.bit_wr_same _ _ _ (by decide)).trans (hlive h))
  · rw [heq, State.edge_setEdge_same, hend]
  · rw [heq, State.edge_setEdge_same, hbase]

theorem State.onlyChannel_edgeGoLive : s.onlyChannel (s.edgeGoLive b ch cls level live) b ch (senseRegs b ch) := by
  obtain ⟨on, e, heq, -⟩ := s.edgeGoLive_eq b ch cls level live
  rw [heq]
  exact ((((State.onlyChannel.refl s b ch _).wr (by simp [senseRegs]) _).setBit (by simp [senseRegs]) _ _).standing _ _ _).setEdge e

theorem State.onlyPins_edgeGoLive : s.onlyPins (s.edgeGoLive b ch cls level live) := by
  obtain ⟨on, e, heq, -⟩ := s.edgeGoLive_eq b ch cls level live
  rw [heq]
  exact (((s.onlyRegs_wr _ _).trans (State.onlyRegs_setBit _ _ _ _)).trans (State.onlyRegs_standing _ _ _ _)).pins.trans
    (State.onlyPins_setEdge _ _ _ _)

/-- The channel's record while its pin is sensed. -/
def State.sensingEdge (s : State) (b ch : Nat) (live : Bool) : EdgeSt :=
  { s.edge b ch with senseEnd := some (s.now + 2 * usK), senseLive := live, driving := false, holdEnd := none }

/-- Without REST_FORCE the pin is sensed. -/
theorem State.edgeSense_senses (h : s.bit (chCtrl b ch) 8 = false) :
    s.edgeSense b ch live = s.setEdge b ch (s.sensingEdge b ch live) := if_neg (by simp [h])

/-- Under REST_FORCE it takes the forced level at once (R114). -/
theorem State.edgeSense_forced (h : s.bit (chCtrl b ch) 8 = true) :
    s.edgeSense b ch live = s.edgeGoLive b ch 0 (s.bit (chCtrl b ch) 9) live := if_pos h

end Sensing

section Resense

variable {s u : State} {t : PT} {b : Fin 8} {ch : Fin 32}

/-- RESENSE of a channel that is neither live nor sensing nor at fault, by its mode. -/
theorem chResense_next {x : State} {P : State → Prop} (hu : u = s.arrive t) (hstarts : u.starts b (edgePg b ch))
    (hlive : u.chLive b ch = false) (hend : (u.edge b ch).senseEnd = none) (hfault : u.bit (chStat b ch) 13 = false)
    (hx : (if u.chMode b ch = 0 then u.edgeSense b ch false
      else (u.edgeSenseIf b ch).setDrain (drainLane (laneAddr b 0 ch)) none) = x) (h : P (u.keep x.settle)) :
    ∃ s', exec (.chResense t b ch) s = .next s' ∧ P s' := by
  subst hu
  rw [exec_chResense, execChResense]
  exact runAt_next ((State.command_starts hstarts _).trans ((if_neg (by rw [hlive, hend, hfault]; decide)).trans hx)) h

/-- On an enabled page, sensing starts on a channel with a mode that is neither live nor sensing nor at fault (R113). -/
theorem State.edgeSenseIf_starts {x : State} {b ch : Nat} (hmode : x.chMode b ch ≠ 0) (hlive : x.chLive b ch = false)
    (hend : (x.edge b ch).senseEnd = none) (hfault : x.bit (chStat b ch) 13 = false) (hen : x.enabled (edgePg b ch) = true)
    (hfence : x.fenced (edgePg b ch) = false) : x.edgeSenseIf b ch = x.edgeSense b ch true := by
  unfold State.edgeSenseIf State.chSensing
  rw [if_pos]
  simp [hmode, hlive, hend, hfault, hen, hfence]

theorem chResense_off (hu : u = s.arrive t) (hstarts : u.starts b (edgePg b ch)) (hlive : u.chLive b ch = false)
    (hend : (u.edge b ch).senseEnd = none) (hmode : u.chMode b ch = 0) (hfault : u.bit (chStat b ch) 13 = false)
    (hforce : u.bit (chCtrl b ch) 8 = false) : ∃ s', exec (.chResense t b ch) s = .next s' ∧
      (s'.edge b ch).senseEnd = some (u.now + 2 * usK) ∧ (s'.edge b ch).senseLive = false ∧
      s' = { u with edges := s'.edges, ev := s'.ev } ∧ u.sameEdges s' b ch := by
  refine chResense_next hu hstarts hlive hend hfault ((if_pos hmode).trans (u.edgeSense_senses b ch false hforce)) ?_
  obtain ⟨-, hedges, -⟩ := ((State.onlyChannel.refl u b ch []).setEdge (u.sensingEdge b ch false)).keep
  exact ⟨by simp [State.sensingEdge], by simp [State.sensingEdge], by rw [State.keep_settle]; rfl, hedges⟩

theorem chResense_mode (hu : u = s.arrive t) (hstarts : u.starts b (edgePg b ch)) (hlive : u.chLive b ch = false)
    (hend : (u.edge b ch).senseEnd = none) (hmode : u.chMode b ch ≠ 0) (hen : u.enabled (edgePg b ch) = true)
    (hfault : u.bit (chStat b ch) 13 = false) (hforce : u.bit (chCtrl b ch) 8 = false) :
    ∃ s', exec (.chResense t b ch) s = .next s' ∧
      (s'.edge b ch).senseEnd = some (u.now + 2 * usK) ∧ (s'.edge b ch).senseLive = true ∧
      s' = { u with edges := s'.edges, drainPt := s'.drainPt, ev := s'.ev } ∧ u.sameEdges s' b ch := by
  have hsense := (State.edgeSenseIf_starts hmode hlive hend hfault hen hstarts.2).trans (u.edgeSense_senses b ch true hforce)
  refine chResense_next hu hstarts hlive hend hfault ((if_neg hmode).trans (by rw [hsense])) ?_
  obtain ⟨-, hedges, -⟩ := (((State.onlyChannel.refl u b ch []).setEdge (u.sensingEdge b ch true)).of
    (y := (u.setEdge b ch (u.sensingEdge b ch true)).setDrain (drainLane (laneAddr b 0 ch)) none) rfl rfl rfl).keep
  exact ⟨by simp [State.sensingEdge], by simp [State.sensingEdge], by rw [State.keep_settle]; rfl, hedges⟩

theorem chResense_forced (hu : u = s.arrive t) (hstarts : u.starts b (edgePg b ch)) (hlive : u.chLive b ch = false)
    (hend : (u.edge b ch).senseEnd = none) (hmode : u.chMode b ch = 0) (hfault : u.bit (chStat b ch) 13 = false)
    (hforce : u.bit (chCtrl b ch) 8 = true) : ∃ s', exec (.chResense t b ch) s = .next s' ∧
      (s'.edge b ch).senseEnd = none ∧ (s'.edge b ch).base = u.bit (chCtrl b ch) 9 ∧ s'.fld (chStat b ch) 8 3 = 0 ∧
      s'.chRest b ch = u.bit (chCtrl b ch) 9 ∧ u.sameRegs s' [chStat b ch, edgePg b ch + Off.EDGE_GRP_STAT] ∧
      u.sameEdges s' b ch ∧ s' = { u with edges := s'.edges, regs := s'.regs, ev := s'.ev } := by
  have honly := u.onlyChannel_edgeGoLive b ch 0 (u.bit (chCtrl b ch) 9) false
  obtain ⟨hclass, hrest, -, hsense, hbase⟩ := u.edgeGoLive_shows b ch 0 (u.bit (chCtrl b ch) 9) false
  obtain ⟨hregs, hedges, -⟩ := honly.keep
  have hreg (a : Nat) := State.reg_keep_settle honly.variant a
  exact chResense_next hu hstarts hlive hend hfault ((if_pos hmode).trans (u.edgeSense_forced b ch false hforce))
    ⟨by simpa using hsense, by simpa [restLevel] using hbase, (State.fld_of_reg (hreg _) 8 3).trans hclass,
      (State.bit_of_reg (hreg _) 6).trans hrest, hregs, hedges, (u.onlyPins_edgeGoLive b ch 0 _ false).keep⟩

theorem restClass_lt (single : Bool) (samples : List Int) (shift : Nat) : restClass single samples shift < 8 := by
  unfold restClass
  dsimp only
  split_ifs <;> decide

theorem sensingDone_shows {samples : List Int} {shift x cls : Nat} (hu : u = s.arrive t)
    (hcls : cls = restClass (u.bit (chCtrl b ch) 10) samples shift) (hend : (u.edge b ch).senseEnd = some x) (hx : x ≤ u.now) :
    ∃ s', exec (.sensingDone t b ch ⟨samples, shift⟩) s = .next s' ∧ s'.fld (chStat b ch) 8 3 = cls ∧
      s'.chRest b ch = (if cls = 1 then false else if cls = 2 then true else u.bit (chCtrl b ch) 9) ∧
      ((u.edge b ch).senseLive = true → s'.chLive b ch = true) ∧ (s'.edge b ch).senseEnd = none ∧
      u.sameRegs s' [chStat b ch, edgePg b ch + Off.EDGE_GRP_STAT] ∧ u.sameEdges s' b ch ∧ s'.mem = u.mem := by
  subst hu
  have honly := (s.arrive t).onlyChannel_edgeGoLive b ch cls ((s.arrive t).bit (chCtrl b ch) 9) ((s.arrive t).edge b ch).senseLive
  obtain ⟨hclass, hrest, hlive, hsense, -⟩ :=
    (s.arrive t).edgeGoLive_shows b ch cls ((s.arrive t).bit (chCtrl b ch) 9) ((s.arrive t).edge b ch).senseLive
  have hreg (a : Nat) := State.reg_keep_settle honly.variant a
  rw [exec_sensingDone, execSensingDone]
  refine runAt_next (by dsimp only; rw [hend]; dsimp only; rw [if_pos hx, ← hcls]) ⟨?_, ?_, fun h => ?_, ?_, honly.keep⟩
  · rw [State.fld_of_reg (hreg _), hclass, Nat.mod_eq_of_lt (hcls ▸ restClass_lt _ _ _)]
  · exact (State.bit_of_reg (hreg _) 6).trans hrest
  · exact (State.bit_of_reg (hreg _) 0).trans (hlive h)
  · simpa using hsense

theorem disableHoldEnd_edge {x : Nat} (hu : u = s.arrive t) (hend : (u.edge b ch).holdEnd = some x) (hx : x ≤ u.now) :
    ∃ s', exec (.disableHoldEnd t b 0 (ch.castLE (by decide))) s = .next s' ∧
      (s'.edge b ch).holdEnd = none ∧ (s'.edge b ch).driving = false ∧ u.sameEdges s' b ch ∧
      s' = { u with edges := s'.edges, ev := s'.ev } := by
  subst hu
  rw [exec_disableHoldEnd, execDisableHoldEnd]
  refine runAt_next (x := (s.arrive t).setEdge b ch { ((s.arrive t).edge b ch).upto ((s.arrive t).chRest b ch) (s.arrive t).now
    with holdEnd := none, driving := false }) ?_ ?_
  · refine (if_pos rfl).trans ?_
    dsimp only [Fin.val_castLE]
    rw [hend]
    exact if_pos ⟨hx, ch.isLt⟩
  · obtain ⟨-, hedges, -⟩ := ((State.onlyChannel.refl (s.arrive t) b ch []).setEdge _).keep
    exact ⟨by simp, by simp, hedges, by rw [State.keep_settle]; rfl⟩

end Resense

/-- Settles O3: STOP and DRAIN by what a disable and a drain leave, RESENSE by its mode and REST_FORCE, the end of sensing by
`edgeGoLive_shows`. -/
theorem edgeChannelCommands : Obligations.EdgeChannelCommands := by
  intro s u t b ch hu
  exact ⟨chStop_live hu, chDrain_live hu, chResense_off hu, chResense_mode hu, chResense_forced hu,
    fun samples shift x cls hcls hend hx => sensingDone_shows hu hcls hend hx, fun x hend hx => disableHoldEnd_edge hu hend hx⟩

end Sys2Proof.Machine
end

section
/-!
PROOFS. Edge channels, service (R98, R111, R120): pin faults, the trestle that takes an engine's place, and adaptive thresholds.
-/

namespace Sys2Proof.Machine

/-! ### Pin faults (R120) -/

/-- An edge lane is at fault where its pin is. -/
theorem State.laneFault_edge (s : State) (b : Nat) (ch : Fin 32) : s.laneFault (laneAddr b 0 ch) = s.bit (chStat b ch) 13 := by
  have hbent : laneBent (laneAddr b 0 ch) = b := by unfold laneBent laneAddr; omega
  have hkind : laneKind (laneAddr b 0 ch) = 0 := by unfold laneKind laneAddr; omega
  have hidx : laneIdx (laneAddr b 0 ch) = ch := by unfold laneIdx laneAddr; omega
  unfold State.laneFault
  rw [hbent, hkind, hidx]
  rfl

@[simp] theorem State.edgeDisarm_ev (s : State) (b ch p : Nat) : (s.edgeDisarm b ch p).ev = s.ev := by
  unfold State.edgeDisarm
  split <;> rfl

/-- The channel's own record keeps all but the instant of its disarming. -/
theorem State.edgeDisarm_effect (s : State) (b ch p : Nat) : ((s.edgeDisarm b ch p).edge b ch).eff = (s.edge b ch).eff ∧
    ((s.edgeDisarm b ch p).edge b ch).driving = (s.edge b ch).driving := by
  unfold State.edgeDisarm
  split <;> simp

/-- A register other than CHc_STAT through a disarming. -/
theorem State.reg_edgeDisarm_ne (s : State) {b ch a : Nat} (p : Nat) (h : a ≠ chStat b ch) :
    (s.edgeDisarm b ch p).reg a = s.reg a :=
  ((State.onlyChannel.refl s b ch [chStat b ch]).edgeDisarm List.mem_cons_self p).regs a (by simpa using h)

/-- A channel out of service: nothing runs, its driver is off, and its queue is discarded and counted. -/
def State.pinDropped (s : State) (b ch : Nat) : State :=
  ((s.setEdge b ch { (s.edge b ch).upto (s.chRest b ch) s.now with eff := none, restAt := none, driving := false }).count
    (edgePg b ch + Off.EDGE_CH_DISCARD_COUNT (ch % 8)) (s.queue (laneAddr b 0 ch)).length).setQueue (laneAddr b 0 ch) []

/-- Its fault stands in CHc_STAT, in its group and on its page. -/
def State.pinMarked (s : State) (b ch : Nat) : State :=
  ((s.setBit (chStat b ch) 13 true).setBit (edgePg b ch + Off.EDGE_GRP_STAT) (16 + ch % 8) true).standing (edgePg b ch) 0x41 true

/-- The registers a pin fault reaches. -/
def faultRegs (b ch : Nat) : List Nat :=
  [chStat b ch, edgePg b ch + Off.EDGE_GRP_STAT, edgePg b ch + Off.EDGE_CH_DISCARD_COUNT (ch % 8)]

section PinFault

variable (s : State) (b ch : Nat)

theorem State.pinMarked_shows : (s.pinMarked b ch).bit (chStat b ch) 13 = true ∧
    (s.pinMarked b ch).bit (edgePg b ch + Off.EDGE_GRP_STAT) (16 + ch % 8) = true ∧
    (s.pinMarked b ch).stands (edgePg b ch) 0x41 = true := by
  have hne : chStat b ch ≠ edgePg b ch + Off.EDGE_GRP_STAT := (edgePg_block_ne_stat (by decide)).symm
  unfold State.pinMarked
  refine ⟨?_, ?_, State.stands_standing_same _ _ _ _⟩
  · rw [State.bit_standing, State.bit_of_reg (State.reg_setBit_ne _ _ _ hne), State.bit_setBit_same _ _ _ _ (by decide)]
  · rw [State.bit_standing, State.bit_setBit_same _ _ _ _ (by omega)]

theorem State.onlyChannel_pinFault (p : Nat) :
    s.onlyChannel (((s.pinDropped b ch).pinMarked b ch).edgeDisarm b ch p) b ch (faultRegs b ch) :=
  ((((((State.onlyChannel.refl s b ch _).setEdge _).count (by simp [faultRegs]) _).setQueue _ _).setBit
    (by simp [faultRegs]) _ _).setBit (by simp [faultRegs]) _ _).standing _ _ _ |>.edgeDisarm (by simp [faultRegs]) p

/-- The marks of a pin fault leave the count of discards. -/
theorem State.pinFault_count (p : Nat) : (((s.pinDropped b ch).pinMarked b ch).edgeDisarm b ch p).rd
    (edgePg b ch + Off.EDGE_CH_DISCARD_COUNT (ch % 8)) = satAdd (s.rd (edgePg b ch + Off.EDGE_CH_DISCARD_COUNT (ch % 8)))
      (s.queue (laneAddr b 0 ch)).length := by
  have hstat : edgePg b ch + Off.EDGE_CH_DISCARD_COUNT (ch % 8) ≠ chStat b ch := chReg_ne (by decide)
  have hgroup : edgePg b ch + Off.EDGE_CH_DISCARD_COUNT (ch % 8) ≠ edgePg b ch + Off.EDGE_GRP_STAT := by
    unfold Off.EDGE_CH_DISCARD_COUNT Off.EDGE_GRP_STAT
    omega
  rw [State.rd_of_reg (State.reg_edgeDisarm_ne _ p hstat), State.pinMarked, State.rd_standing, State.rd_setBit_ne _ _ _ hgroup,
    State.rd_setBit_ne _ _ _ hstat, State.pinDropped, State.rd_setQueue, State.rd_count_same, State.rd_setEdge]

end PinFault

theorem pinFault_shows {s u : State} {t : PT} {b : Fin 8} {ch : Fin 32} (hu : u = s.arrive t) (hlive : u.chLive b ch = true)
    (hok : u.laneFault (laneAddr b 0 ch) = false) : ∃ s', exec (.pinFault t b ch) s = .next s' ∧
      s'.laneFault (laneAddr b 0 ch) = true ∧ s'.stands (edgePg b ch) 0x41 = true ∧
      s'.bit (edgePg b ch + Off.EDGE_GRP_STAT) (16 + ch.val % 8) = true ∧
      s'.queue (laneAddr b 0 ch) = [] ∧ (s'.edge b ch).eff = none ∧ (s'.edge b ch).driving = false ∧
      s'.rd (edgePg b ch + Off.EDGE_CH_DISCARD_COUNT (ch.val % 8)) =
        satAdd (u.rd (edgePg b ch + Off.EDGE_CH_DISCARD_COUNT (ch.val % 8))) (u.queue (laneAddr b 0 ch)).length ∧
      u.sameRegs s' [chStat b ch, edgePg b ch + Off.EDGE_GRP_STAT,
        edgePg b ch + Off.EDGE_CH_DISCARD_COUNT (ch.val % 8)] ∧
      u.sameEdges s' b ch ∧ u.sameQueues s' (laneAddr b 0 ch) ∧ s'.mem = u.mem := by
  subst hu
  have honly := (s.arrive t).onlyChannel_pinFault b ch (s.arrive t).now
  have hreg (a : Nat) := State.reg_keep_settle honly.variant a
  obtain ⟨hregs, hedges, hmem⟩ := honly.keep
  obtain ⟨hbit, hgroup, hstands⟩ := ((s.arrive t).pinDropped b ch).pinMarked_shows b ch
  obtain ⟨heff, hdriving⟩ := (((s.arrive t).pinDropped b ch).pinMarked b ch).edgeDisarm_effect b ch (s.arrive t).now
  obtain ⟨-, -, hstat⟩ := (((s.arrive t).pinDropped b ch).pinMarked b ch).edgeDisarm_shows b ch (s.arrive t).now
  have hcount := (s.arrive t).pinFault_count b ch (s.arrive t).now
  have hqueues : ((((s.arrive t).pinDropped b ch).pinMarked b ch).edgeDisarm b ch (s.arrive t).now).queues =
      ((s.arrive t).setQueue (laneAddr b 0 ch) []).queues := by simp [State.pinMarked, State.pinDropped, State.setQueue]
  rw [exec_pinFault, execPinFault]
  generalize hx : ((((s.arrive t).pinDropped b ch).pinMarked b ch).edgeDisarm b ch (s.arrive t).now) = x at *
  have hat (l : Nat) : ((s.arrive t).keep x.settle).queue l = ((s.arrive t).setQueue (laneAddr b 0 ch) []).queue l := by
    rw [State.queue_keep, State.queue_settle, State.queue, State.queue, hqueues]
  refine runAt_next ((if_pos (by simp only [hlive, hok]; decide)).trans hx)
    ⟨?_, ?_, ?_, (hat _).trans (State.queue_setQueue_same _ _ _), ?_, ?_, ?_, hregs, hedges, fun l hl => (hat l).trans
      (State.queue_setQueue_ne _ _ _ _ hl), hmem⟩
  · rw [State.laneFault_edge, State.bit_of_reg (hreg _), hstat 13 (by decide), hbit]
  · rw [State.stands_keep_settle, State.stands, ← hx, State.edgeDisarm_ev]
    exact hstands
  · rw [State.bit_of_reg (hreg _), ← hx, State.bit_of_reg (State.reg_edgeDisarm_ne _ _ (edgePg_block_ne_stat (by decide))), hgroup]
  · rw [State.edge_keep, State.edge_settle, heff]
    simp [State.pinMarked, State.pinDropped]
  · rw [State.edge_keep, State.edge_settle, hdriving]
    simp [State.pinMarked, State.pinDropped]
  · rw [State.rd_of_reg (hreg _), hcount]

/-! ### The trestle (R98, R265) -/

/-- The ledger's committed total. -/
def ledgerRegs : List Nat := [pkgp 3 + Off.LEDGER_COMMITTED_LO, pkgp 3 + Off.LEDGER_COMMITTED_LO + 4]

theorem State.sameRegs_setCommitted (s : State) (v : Nat) : s.sameRegs (s.setCommitted v) ledgerRegs :=
  State.sameRegs_wr (State.sameRegs_wr (s.sameRegs_refl _) (by simp [ledgerRegs]) _) (by simp [ledgerRegs]) _

/-- An engine's calibration that holds the group's trestle ends (R271). -/
def State.spareFreed (s : State) (b ch : Nat) : State :=
  match s.bgOp b 0 with
  | none => s
  | some op => if op.inst / 8 = ch / 8 then s.bgEnd b op else s

/-- What the trestle's takeover reaches beside registers: the lists of background operations. -/
def State.onlyOps (u x : State) : Prop := ∃ r e c, x = { u with regs := r, ev := e, cals := c }

theorem State.onlyOps.refl (u : State) : u.onlyOps u := ⟨u.regs, u.ev, u.cals, rfl⟩

theorem State.onlyOps.trans {u x y : State} (h : u.onlyOps x) (k : x.onlyOps y) : u.onlyOps y := by
  obtain ⟨_, _, _, rfl⟩ := h
  obtain ⟨r, e, c, rfl⟩ := k
  exact ⟨r, e, c, rfl⟩

theorem State.onlyRegs.ops {u x : State} (h : u.onlyRegs x) : u.onlyOps x := by
  obtain ⟨r, e, rfl⟩ := h
  exact ⟨r, e, u.cals, rfl⟩

theorem State.onlyOps_setCal (u : State) (b : Nat) (x : CalSt) : u.onlyOps (u.setCal b x) := ⟨_, _, _, rfl⟩

theorem State.onlyOps.variant {u x : State} (h : u.onlyOps x) : x.variant = u.variant := by
  obtain ⟨_, _, _, rfl⟩ := h
  rfl

theorem State.onlyOps.keep {u x : State} (h : u.onlyOps x) : u.keep x.settle =
    { u with regs := (u.keep x.settle).regs, ev := (u.keep x.settle).ev, cals := (u.keep x.settle).cals } := by
  obtain ⟨_, _, _, rfl⟩ := h
  rw [State.keep_settle]

/-- The trestle stands in for an engine: its group names the channel and spares its engine, CHc_STAT shows it. -/
def State.spareTaken (s : State) (b ch : Nat) : State :=
  (((s.setFld (edgePg b ch + Off.EDGE_GRP_STAT) 0 3 (ch % 8)).setBit (edgePg b ch + Off.EDGE_GRP_STAT) 3 true).setBit
    (edgePg b ch + Off.EDGE_GRP_STAT) (8 + ch % 8) true).setBit (chStat b ch) 4 true

section Trestle

variable (s : State) (b ch : Nat)

theorem State.onlyRegs_marginGive (n : Nat) : s.onlyRegs (s.marginGive n) :=
  (s.onlyRegs_wr _ _).trans (State.onlyRegs_wr _ _ _)

@[simp] theorem State.cal_marginGive (n k : Nat) : (s.marginGive n).cal k = s.cal k := State.cal_wr64 _ _ _ _

theorem State.onlyOps_spareFreed : s.onlyOps (s.spareFreed b ch) := by
  unfold State.spareFreed
  split
  · exact .refl s
  · next op _ =>
    split
    · exact (s.onlyOps_setCal b _).trans (State.onlyRegs_marginGive _ op.cost).ops
    · exact .refl s

theorem State.sameRegs_spareFreed : s.sameRegs (s.spareFreed b ch) ledgerRegs := by
  unfold State.spareFreed
  split
  · exact s.sameRegs_refl _
  · next op h =>
    split
    · exact State.sameRegs_setCommitted (s.setCal b _) _
    · exact s.sameRegs_refl _

/-- What was freed is off the bent's list. -/
theorem State.spareFreed_ops {op : BgOp} (hop : s.bgOp b 0 = some op) (hg : op.inst / 8 = ch / 8) :
    op ∉ ((s.spareFreed b ch).cal b).ops := by
  have h : (s.spareFreed b ch).cal b = { s.cal b with ops := (s.cal b).ops.filter fun o => o != op } := by
    unfold State.spareFreed
    rw [hop]
    dsimp only
    rw [if_pos hg, State.bgEnd, State.cal_marginGive, State.cal_setCal_same]
  rw [h]
  simp

theorem State.spareTaken_shows : (s.spareTaken b ch).fld (edgePg b ch + Off.EDGE_GRP_STAT) 0 3 = ch % 8 ∧
    (s.spareTaken b ch).bit (edgePg b ch + Off.EDGE_GRP_STAT) 3 = true ∧
    (s.spareTaken b ch).bit (edgePg b ch + Off.EDGE_GRP_STAT) (8 + ch % 8) = true ∧ (s.spareTaken b ch).bit (chStat b ch) 4 = true := by
  have hne : edgePg b ch + Off.EDGE_GRP_STAT ≠ chStat b ch := edgePg_block_ne_stat (by decide)
  unfold State.spareTaken
  refine ⟨?_, ?_, ?_, State.bit_setBit_same _ _ _ _ (by decide)⟩
  · have hput (x : State) {i : Nat} (hi : 3 ≤ i ∧ i < 32) : (x.setBit (edgePg b ch + Off.EDGE_GRP_STAT) i true).fld
        (edgePg b ch + Off.EDGE_GRP_STAT) 0 3 = x.fld (edgePg b ch + Off.EDGE_GRP_STAT) 0 3 := by
      rw [State.setBit, State.setFld, State.fld_wr, if_pos rfl, bits_word (by decide), bits_putBits_ne _ _ _ _ _ _ (by omega),
        State.fld]
    rw [State.fld_of_reg (State.reg_setBit_ne _ _ _ hne), hput _ (by omega), hput _ (by omega), State.fld_setFld_same _ _ _ _ _ (by decide)]
    omega
  · rw [State.bit_of_reg (State.reg_setBit_ne _ _ _ hne), State.bit_setBit_ne _ _ _ (by omega) (by omega),
      State.bit_setBit_same _ _ _ _ (by decide)]
  · rw [State.bit_of_reg (State.reg_setBit_ne _ _ _ hne), State.bit_setBit_same _ _ _ _ (by omega)]

theorem State.onlyRegs_spareTaken : s.onlyRegs (s.spareTaken b ch) :=
  (((s.onlyRegs_wr _ _).trans (State.onlyRegs_setBit _ _ _ _)).trans (State.onlyRegs_setBit _ _ _ _)).trans (State.onlyRegs_setBit _ _ _ _)

@[simp] theorem State.cal_spareTaken (k : Nat) : (s.spareTaken b ch).cal k = s.cal k := by
  simp [State.spareTaken]

theorem State.sameRegs_spareTaken : s.sameRegs (s.spareTaken b ch) (senseRegs b ch) :=
  State.sameRegs_setBit (State.sameRegs_setBit (State.sameRegs_setBit (State.sameRegs_setFld (s.sameRegs_refl _)
    (by simp [senseRegs]) _ _ _) (by simp [senseRegs]) _ _) (by simp [senseRegs]) _ _) (by simp [senseRegs]) _ _

end Trestle

theorem spareTakeover_shows {s u : State} {t : PT} {b : Fin 8} {ch : Fin 32} (hu : u = s.arrive t) (hhas : u.has b = true)
    (hfailed : ∃ i, 1 ≤ i ∧ i ≤ 4 ∧ (u.calInst b i ch).faulty = true) (hauto : u.bit (edgePg b ch + Off.EDGE_GRP_CTRL) 1 = true)
    (hidle : u.fld (edgePg b ch + Off.EDGE_GRP_STAT) 3 2 = 0) (hnone : u.fld (edgePg b ch + Off.EDGE_GRP_STAT) 8 8 = 0)
    (hclear : u.clearTick b ch = true) : ∃ s', exec (.spareTakeover t b ch) s = .next s' ∧
      s'.fld (edgePg b ch + Off.EDGE_GRP_STAT) 0 3 = ch.val % 8 ∧
      s'.bit (edgePg b ch + Off.EDGE_GRP_STAT) 3 = true ∧
      s'.bit (edgePg b ch + Off.EDGE_GRP_STAT) (8 + ch.val % 8) = true ∧ s'.bit (chStat b ch) 4 = true ∧
      (∀ op, u.bgOp b 0 = some op → op.inst / 8 = ch.val / 8 → op ∉ (s'.cal b).ops) ∧
      u.sameRegs s' [chStat b ch, edgePg b ch + Off.EDGE_GRP_STAT, pkgp 3 + Off.LEDGER_COMMITTED_LO,
        pkgp 3 + Off.LEDGER_COMMITTED_LO + 4] ∧
      s' = { u with regs := s'.regs, ev := s'.ev, cals := s'.cals } := by
  subst hu
  have honly := ((s.arrive t).onlyOps_spareFreed b ch).trans (State.onlyRegs_spareTaken _ b ch).ops
  have hreg (a : Nat) := State.reg_keep_settle honly.variant a
  have hany : ([1, 2, 3, 4].any fun i => ((s.arrive t).calInst b i ch).faulty) = true := by
    obtain ⟨i, h1, h4, hi⟩ := hfailed
    exact List.any_eq_true.mpr ⟨i, by simp; omega, hi⟩
  obtain ⟨hfld, h3, h8, h4⟩ := ((s.arrive t).spareFreed b ch).spareTaken_shows b ch
  rw [exec_spareTakeover, execSpareTakeover]
  refine runAt_next (x := ((s.arrive t).spareFreed b ch).spareTaken b ch) (if_pos ?_) ⟨?_, ?_, ?_, ?_, fun op hop hg => ?_, ?_, ?_⟩
  · rw [hhas, hany, hauto, hidle, hnone, hclear]; decide
  · rw [State.fld_of_reg (hreg _), hfld]
  · rw [State.bit_of_reg (hreg _), h3]
  · rw [State.bit_of_reg (hreg _), h8]
  · rw [State.bit_of_reg (hreg _), h4]
  · rw [State.cal_keep, State.cal_settle, State.cal_spareTaken]
    exact (s.arrive t).spareFreed_ops b ch hop hg
  · refine State.sameRegs_keep (fun a ha => ?_) honly.variant
    obtain ⟨hstat, hgroup, hlo, hhi⟩ : a ≠ chStat b ch ∧ a ≠ edgePg b ch + Off.EDGE_GRP_STAT ∧
        a ≠ pkgp 3 + Off.LEDGER_COMMITTED_LO ∧ a ≠ pkgp 3 + Off.LEDGER_COMMITTED_LO + 4 := by
      simpa only [List.mem_cons, List.not_mem_nil, or_false, not_or] using ha
    exact (State.sameRegs_spareTaken _ b ch a (by simp [senseRegs, hstat, hgroup])).trans
      ((s.arrive t).sameRegs_spareFreed b ch a (by simp only [ledgerRegs, List.mem_cons, List.not_mem_nil, hlo, hhi, or_self,
        not_false_eq_true]))
  · exact honly.keep

/-! ### Adaptive thresholds (R111, R112) -/

/-- A threshold kept within the range of its pin (R112). -/
def thrRange (single : Bool) (x : Int) : Int := if single then clampI 100 1100 x else clampI (-500) 500 x

theorem clampI_mem {lo hi : Int} (h : lo ≤ hi) (x : Int) : lo ≤ clampI lo hi x ∧ clampI lo hi x ≤ hi := by
  unfold clampI
  split_ifs <;> omega

theorem clampI_of_mem {lo hi x : Int} (hlo : lo ≤ x) (hhi : x ≤ hi) : clampI lo hi x = x := by
  unfold clampI
  rw [if_neg (by omega), if_neg (by omega)]

/-- What was kept in range stays as it is. -/
theorem thrRange_idem (single : Bool) (x : Int) : thrRange single (thrRange single x) = thrRange single x := by
  unfold thrRange
  split
  · exact clampI_of_mem (clampI_mem (by decide) x).1 (clampI_mem (by decide) x).2
  · exact clampI_of_mem (clampI_mem (by decide) x).1 (clampI_mem (by decide) x).2

theorem thrRange_mem (single : Bool) (x : Int) : -500 ≤ thrRange single x ∧ thrRange single x ≤ 1100 := by
  have h1 := clampI_mem (lo := 100) (hi := 1100) (by decide) x
  have h2 := clampI_mem (lo := -500) (hi := 500) (by decide) x
  unfold thrRange
  split <;> omega

/-- The low 12 bits of RCV_THR read as the threshold put there. -/
theorem toSigned_thr {x : Int} (hlo : -2048 ≤ x) (hhi : x < 2048) (amp : Nat) :
    toSigned 12 ((ofSigned 12 x + amp * 2 ^ 16) % 2 ^ 32) = x := by
  unfold toSigned ofSigned
  norm_num at hlo hhi ⊢
  split <;> omega

theorem toSigned_thrRange (single : Bool) (x : Int) (amp : Nat) :
    toSigned 12 ((ofSigned 12 (thrRange single x) + amp * 2 ^ 16) % 2 ^ 32) = thrRange single x := by
  obtain ⟨hmin, hmax⟩ := thrRange_mem single x
  exact toSigned_thr (by omega) (by omega) amp

/-- The adaptive threshold in force is what RCV_THR holds, within its pin's range. -/
theorem State.threshold_adaptive {s : State} {b ch : Nat} (h : s.bit (edgePg b ch + Off.EDGE_CH_RCV_CFG (ch % 8)) 0 = false) :
    s.threshold b ch = thrRange (s.bit (chCtrl b ch) 10) (toSigned 12 (s.rd (edgePg b ch + Off.EDGE_CH_RCV_THR (ch % 8)))) := by
  have hcfg : bitAt (s.rd (edgePg b ch + Off.EDGE_CH_RCV_CFG (ch % 8))) 0 = false := h
  unfold State.threshold thrRange
  dsimp only
  rw [hcfg]
  split <;> rfl

/-- It rests on three registers of its channel. -/
theorem State.threshold_congr {s x : State} {b ch : Nat}
    (hcfg : x.reg (edgePg b ch + Off.EDGE_CH_RCV_CFG (ch % 8)) = s.reg (edgePg b ch + Off.EDGE_CH_RCV_CFG (ch % 8)))
    (hctrl : x.reg (chCtrl b ch) = s.reg (chCtrl b ch))
    (hthr : x.reg (edgePg b ch + Off.EDGE_CH_RCV_THR (ch % 8)) = s.reg (edgePg b ch + Off.EDGE_CH_RCV_THR (ch % 8))) :
    x.threshold b ch = s.threshold b ch := by
  unfold State.threshold
  rw [State.rd_of_reg hcfg, State.rd_of_reg hthr, State.bit_of_reg hctrl]

/-- The threshold a free value picks between the old one and the midpoint. -/
def thrPick (v : Nat) (old mid : Int) : Int := min old mid + ((v % ((old - mid).natAbs + 1) : Nat) : Int)

theorem thrPick_between (v : Nat) (old mid : Int) : min old mid ≤ thrPick v old mid ∧ thrPick v old mid ≤ max old mid := by
  have hlt : v % ((old - mid).natAbs + 1) < (old - mid).natAbs + 1 := Nat.mod_lt _ (Nat.succ_pos _)
  unfold thrPick
  omega

section Thresholds

variable {s u : State} {t : PT} {b : Fin 8} {ch : Fin 32} {n : Nat} {low high : Int}

/-- The channel's record at the end of a window. -/
def State.windowed (s : State) (b ch : Nat) : State := s.setEdge b ch { s.edge b ch with thrAt := s.now }

/-- The registers a moved threshold reaches. -/
def thrRegs (b ch : Nat) : List Nat := [chStat b ch, edgePg b ch + Off.EDGE_CH_RCV_THR (ch % 8)]

/-- The channel's record at the end of a window that takes the next free value. -/
def State.thrFreed (s : State) (b ch : Nat) : State := { s.windowed b ch with free := s.free + 1 }

/-- A window with enough transitions: the next free value is used, ADAPT_IDLE clears, and RCV_THR takes the threshold and the
amplitude. -/
def State.thrMoved (s : State) (b ch : Nat) (low high : Int) : State :=
  (((s.thrFreed b ch).setBit (chStat b ch) 11 false).wr
    (edgePg b ch + Off.EDGE_CH_RCV_THR (ch % 8))
    (ofSigned 12 (thrRange (s.bit (chCtrl b ch) 10) (thrPick (Config.freeValue s.free) (s.threshold b ch) ((low + high) / 2))) +
      min (high - low).toNat 0xFFF * 2 ^ 16))

theorem State.onlyChannel_thrMoved (s : State) (b ch : Nat) (low high : Int) :
    s.onlyChannel (s.thrMoved b ch low high) b ch (thrRegs b ch) := by
  have hfreed : s.onlyChannel (s.thrFreed b ch) b ch (thrRegs b ch) := ((State.onlyChannel.refl s b ch _).setEdge _).of rfl rfl rfl
  exact (hfreed.setBit List.mem_cons_self _ _).wr (List.mem_cons_of_mem _ List.mem_cons_self) _

/-- It leaves all but registers, events, the channel's record and the free values taken. -/
theorem State.thrMoved_keep (s : State) (b ch : Nat) (low high : Int) : s.keep (s.thrMoved b ch low high).settle =
    { s with regs := (s.keep (s.thrMoved b ch low high).settle).regs, ev := (s.keep (s.thrMoved b ch low high).settle).ev,
             edges := (s.keep (s.thrMoved b ch low high).settle).edges, free := (s.keep (s.thrMoved b ch low high).settle).free } := by
  have hregs : (s.thrFreed b ch).onlyRegs (s.thrMoved b ch low high) :=
    (State.onlyRegs_setBit _ _ _ _).trans (State.onlyRegs_wr _ _ _)
  obtain ⟨r, e, h⟩ := hregs
  rw [h, State.keep_settle]
  rfl

/-- A window that has lasted 2^THR_TC µs on a live channel with an adaptive threshold (R111). -/
theorem thrWindow_exec (hu : u = s.arrive t) (hlive : u.chLive b ch = true)
    (hadapt : u.bit (edgePg b ch + Off.EDGE_CH_RCV_CFG (ch.val % 8)) 0 = false)
    (hend : (u.edge b ch).thrAt + 2 ^ u.fld (edgePg b ch + Off.EDGE_CH_RCV_CFG (ch.val % 8)) 20 4 * usK ≤ u.now) :
    exec (.thrWindow t b ch n low high) s = runAt t s fun _ =>
      if n < 16 then (u.windowed b ch).setBit (chStat b ch) 11 true else u.thrMoved b ch low high := by
  subst hu
  rw [exec_thrWindow, execThrWindow, runAt, runAt]
  dsimp only
  rw [if_pos (by rw [hlive, hadapt, decide_eq_true hend]; decide)]
  rfl

theorem thrWindow_idle (hu : u = s.arrive t) (hlive : u.chLive b ch = true)
    (hadapt : u.bit (edgePg b ch + Off.EDGE_CH_RCV_CFG (ch.val % 8)) 0 = false)
    (hend : (u.edge b ch).thrAt + 2 ^ u.fld (edgePg b ch + Off.EDGE_CH_RCV_CFG (ch.val % 8)) 20 4 * usK ≤ u.now) (hn : n < 16) :
    ∃ s', exec (.thrWindow t b ch n low high) s = .next s' ∧ s'.bit (chStat b ch) 11 = true ∧
      s'.threshold b ch = u.threshold b ch ∧ u.sameRegs s' [chStat b ch] ∧ u.sameEdges s' b ch ∧
      s' = { u with regs := s'.regs, ev := s'.ev, edges := s'.edges } := by
  rw [thrWindow_exec hu hlive hadapt hend]
  subst hu
  have honly : (s.arrive t).onlyChannel (((s.arrive t).windowed b ch).setBit (chStat b ch) 11 true) b ch [chStat b ch] :=
    ((State.onlyChannel.refl _ b ch _).setEdge _).setBit List.mem_cons_self 11 true
  have hreg (a : Nat) := State.reg_keep_settle honly.variant a
  obtain ⟨hregs, hedges, -⟩ := honly.keep
  refine runAt_next (if_pos hn) ⟨?_, State.threshold_congr ?_ ?_ ?_, hregs, hedges, ?_⟩
  · rw [State.bit_of_reg (hreg _), State.bit_setBit_same _ _ _ _ (by decide)]
  · exact hregs _ (by simp)
  · exact hregs _ (by simp)
  · exact hregs _ (by simp)
  · rw [State.keep_settle]
    rfl

theorem thrWindow_moves (hu : u = s.arrive t) (hlive : u.chLive b ch = true)
    (hadapt : u.bit (edgePg b ch + Off.EDGE_CH_RCV_CFG (ch.val % 8)) 0 = false)
    (hend : (u.edge b ch).thrAt + 2 ^ u.fld (edgePg b ch + Off.EDGE_CH_RCV_CFG (ch.val % 8)) 20 4 * usK ≤ u.now) (hn : 16 ≤ n) :
    ∃ s', exec (.thrWindow t b ch n low high) s = .next s' ∧ s'.bit (chStat b ch) 11 = false ∧
      (∃ x, min (u.threshold b ch) ((low + high) / 2) ≤ x ∧ x ≤ max (u.threshold b ch) ((low + high) / 2) ∧
        s'.threshold b ch = if u.bit (chCtrl b ch) 10 then clampI 100 1100 x else clampI (-500) 500 x) ∧
      u.sameRegs s' [chStat b ch, edgePg b ch + Off.EDGE_CH_RCV_THR (ch.val % 8)] ∧ u.sameEdges s' b ch ∧
      s' = { u with regs := s'.regs, ev := s'.ev, edges := s'.edges, free := s'.free } := by
  rw [thrWindow_exec hu hlive hadapt hend]
  subst hu
  have hne : chStat b ch ≠ edgePg b ch + Off.EDGE_CH_RCV_THR (ch.val % 8) := chReg_ne (by decide)
  have honly := (s.arrive t).onlyChannel_thrMoved b ch low high
  have hreg (a : Nat) := State.reg_keep_settle honly.variant a
  obtain ⟨hregs, hedges, -⟩ := honly.keep
  obtain ⟨hlo, hhi⟩ := thrPick_between (Config.freeValue (s.arrive t).free) ((s.arrive t).threshold b ch) ((low + high) / 2)
  refine runAt_next (if_neg (Nat.not_lt.mpr hn)) ⟨?_, ⟨_, hlo, hhi, ?_⟩, hregs, hedges, ?_⟩
  · rw [State.bit_of_reg (hreg _), State.thrMoved, State.bit_of_reg (State.reg_wr_ne _ _ hne), State.bit_setBit_same _ _ _ _ (by decide)]
  · have hcfg := hregs (edgePg b ch + Off.EDGE_CH_RCV_CFG (ch.val % 8)) (by simp [thrRegs])
    have hctrl := hregs (chCtrl b ch) (by simp [thrRegs])
    rw [State.threshold_adaptive ((State.bit_of_reg hcfg 0).trans hadapt), State.bit_of_reg hctrl, State.rd_of_reg (hreg _),
      State.thrMoved, State.rd_wr_same]
    rw [toSigned_thrRange, thrRange_idem]
    rfl
  · exact (s.arrive t).thrMoved_keep b ch low high

end Thresholds

/-- Settles O4: the pin fault, the trestle and the threshold windows by what each leaves. -/
theorem edgeService : Obligations.EdgeService := by
  intro s u t b ch hu
  exact ⟨pinFault_shows hu, spareTakeover_shows hu, fun n low high hlive hadapt hend =>
    ⟨thrWindow_idle hu hlive hadapt hend, thrWindow_moves hu hlive hadapt hend⟩⟩

end Sys2Proof.Machine
end

section
/-!
PROOFS. PAGE_CTRL (R369, R399): what the stops and drains of a page leave as it was. Every stop reaches registers of its page, none
of them a PAGE_CTRL.
-/

namespace Sys2Proof.Machine

/-! ### The header of a page -/

/-- What no stop and no drain of a page's lanes reaches: the variant, the instants of the drains asked for, and every PAGE_CTRL. -/
def State.heads (s : State) : Variant × SMap (Option Nat) × (Nat → Word) :=
  (s.variant, s.drainPt, fun k => s.reg (0x1000 * k + Off.PG_PAGE_CTRL))

/-- A register that is no PAGE_CTRL. -/
def offHead (a : Nat) : Prop := a % 0x1000 ≠ Off.PG_PAGE_CTRL

/-- A register of a page beyond its header. -/
theorem offHead_at {pg o : Nat} (hpg : pg % 0x1000 = 0) (ho : 8 < o ∧ o < 0x1000) : offHead (pg + o) := by
  unfold offHead Off.PG_PAGE_CTRL; omega

/-- A register of a page's blocks of `d` bytes, which is not the third of its block. -/
theorem offHead_block_add {pg c d n e : Nat} (hpg : pg % 0x1000 = 0) (hd : d ∣ 0x1000) (hc : (c + e) % d ≠ 8 % d) :
    offHead (pg + (c + d * n) + e) := by
  intro h
  have hpgd : pg % d = 0 := Nat.mod_eq_zero_of_dvd (hd.trans (Nat.dvd_of_mod_eq_zero hpg))
  have hmod : (pg + (c + d * n) + e) % d = (c + e) % d := by
    rw [show pg + (c + d * n) + e = (c + e) + pg + d * n by ring, Nat.add_mul_mod_self_left, Nat.add_mod, hpgd, Nat.add_zero,
      Nat.mod_mod]
  rw [← Nat.mod_mod_of_dvd _ hd, h] at hmod
  exact hc hmod.symm

theorem offHead_block {pg c d n : Nat} (hpg : pg % 0x1000 = 0) (hd : d ∣ 0x1000) (hc : c % d ≠ 8 % d) : offHead (pg + (c + d * n)) :=
  offHead_block_add (e := 0) hpg hd hc

theorem State.heads_congr {s x : State} (hv : x.variant = s.variant) (hd : x.drainPt = s.drainPt)
    (hr : ∀ k, x.reg (0x1000 * k + Off.PG_PAGE_CTRL) = s.reg (0x1000 * k + Off.PG_PAGE_CTRL)) : x.heads = s.heads := by
  unfold State.heads; rw [hv, hd, funext hr]

theorem State.variant_of_heads {s x : State} (h : x.heads = s.heads) : x.variant = s.variant := congrArg (·.1) h

theorem State.drainAt_of_heads {s x : State} (h : x.heads = s.heads) (key : Nat) : x.drainAt key = s.drainAt key := by
  have hd : x.drainPt = s.drainPt := congrArg (·.2.1) h
  rw [State.drainAt, State.drainAt, hd]

/-- The bits of a page's PAGE_CTRL. -/
theorem State.ctrl_of_heads {s x : State} (h : x.heads = s.heads) {pg : Nat} (hpg : pg % 0x1000 = 0) (i : Nat) :
    x.bit (pg + Off.PG_PAGE_CTRL) i = s.bit (pg + Off.PG_PAGE_CTRL) i := by
  have hr : x.reg (0x1000 * (pg / 0x1000) + Off.PG_PAGE_CTRL) = s.reg (0x1000 * (pg / 0x1000) + Off.PG_PAGE_CTRL) :=
    congrFun (congrArg (·.2.2) h) (pg / 0x1000)
  rw [Nat.mul_div_cancel' (Nat.dvd_of_mod_eq_zero hpg)] at hr
  exact State.bit_of_reg hr i

@[simp] theorem State.heads_ev (s : State) (e : EvSt) : ({ s with ev := e } : State).heads = s.heads := rfl
@[simp] theorem State.heads_flight (s : State) (m : SMap (List Peg)) : ({ s with flight := m } : State).heads = s.heads := rfl
@[simp] theorem State.heads_dacHold (s : State) (m : SMap (Option Nat)) : ({ s with dacHold := m } : State).heads = s.heads := rfl
@[simp] theorem State.heads_dacAt (s : State) (m : SMap Nat) : ({ s with dacAt := m } : State).heads = s.heads := rfl
@[simp] theorem State.heads_recGap (s : State) (m : SMap Bool) : ({ s with recGap := m } : State).heads = s.heads := rfl
@[simp] theorem State.heads_setQueue (s : State) (l : Nat) (q : List Peg) : (s.setQueue l q).heads = s.heads := rfl
@[simp] theorem State.heads_setEdge (s : State) (b c : Nat) (e : EdgeSt) : (s.setEdge b c e).heads = s.heads := rfl
@[simp] theorem State.heads_setTone (s : State) (l : Nat) (z : ToneSt) : (s.setTone l z).heads = s.heads := rfl
@[simp] theorem State.heads_setStream (s : State) (b n : Nat) (z : StreamSt) :
    (s.setStream b n z).heads = s.heads := rfl
@[simp] theorem State.heads_setCap (s : State) (b i : Nat) (z : CapSt) : (s.setCap b i z).heads = s.heads := rfl
@[simp] theorem State.heads_setTiu (s : State) (b i : Nat) (z : Tiu) : (s.setTiu b i z).heads = s.heads := rfl
@[simp] theorem State.heads_setFre (s : State) (b i : Nat) (z : Fre) : (s.setFre b i z).heads = s.heads := rfl
@[simp] theorem State.heads_setDma (s : State) (b i : Nat) (z : DmaSt) : (s.setDma b i z).heads = s.heads := rfl
@[simp] theorem State.heads_setPort (s : State) (b i : Nat) (z : Port) : (s.setPort b i z).heads = s.heads := rfl
@[simp] theorem State.heads_latchHealth (s : State) (pg c : Nat) : (s.latchHealth pg c).heads = s.heads := rfl
@[simp] theorem State.heads_raiseAt (s : State) (pg i pt d : Nat) (f : Bool) : (s.raiseAt pg i pt d f).heads = s.heads :=
  State.heads_congr (by simp) (by simp) fun _ => by simp
@[simp] theorem State.heads_raise (s : State) (pg i : Nat) : (s.raise pg i).heads = s.heads := s.heads_raiseAt ..
@[simp] theorem State.heads_standing (s : State) (pg c : Nat) (on : Bool) : (s.standing pg c on).heads = s.heads :=
  State.heads_congr (by simp) (by simp) fun _ => by simp

theorem State.heads_wr (s : State) {a : Nat} (ha : offHead a) (v : Nat) : (s.wr a v).heads = s.heads :=
  State.heads_congr rfl rfl fun k => State.reg_wr_ne _ _ fun e => ha (by rw [← e]; unfold Off.PG_PAGE_CTRL; omega)

theorem State.heads_setBit (s : State) {a : Nat} (ha : offHead a) (i : Nat) (on : Bool) : (s.setBit a i on).heads = s.heads :=
  s.heads_wr ha _

theorem State.heads_count (s : State) {a : Nat} (ha : offHead a) (n : Nat) : (s.count a n).heads = s.heads := s.heads_wr ha _

theorem State.heads_bump (s : State) {a : Nat} (ha : offHead a) : (s.bump a).heads = s.heads := s.heads_wr ha _

theorem State.heads_wr64 (s : State) {a : Nat} (h0 : offHead a) (h4 : offHead (a + 4)) (v : Nat) : (s.wr64 a v).heads = s.heads :=
  ((s.wr _ _).heads_wr h4 _).trans (s.heads_wr h0 _)

theorem State.heads_wr80 (s : State) {a : Nat} (h0 : offHead a) (h4 : offHead (a + 4)) (h8 : offHead (a + 8)) (v : Nat) :
    (s.wr80 a v).heads = s.heads :=
  (((s.wr _ _).wr _ _).heads_wr h8 _).trans (((s.wr _ _).heads_wr h4 _).trans (s.heads_wr h0 _))

theorem State.heads_foldl {α : Type} {f : State → α → State} {l : List α} (hf : ∀ a ∈ l, ∀ s : State, (f s a).heads = s.heads)
    (s : State) : (l.foldl f s).heads = s.heads := by
  induction l generalizing s with
  | nil => rfl
  | cons a r ih => exact (ih (fun c hc => hf c (List.mem_cons_of_mem a hc)) _).trans (hf a List.mem_cons_self s)

/-! ### The stops of edge, tone and flux pages -/

theorem State.heads_edgeDisarm (s : State) (b ch x : Nat) : (s.edgeDisarm b ch x).heads = s.heads := by
  unfold State.edgeDisarm
  split
  · exact ((s.setEdge ..).heads_setBit (offHead_block (bp_mod _ _) (by decide) (by decide)) _ _).trans rfl
  · rfl

theorem State.heads_dropTrig (s : State) {lane a : Nat} (ha : offHead a) : (s.dropTrig lane a).heads = s.heads :=
  (State.heads_flight _ _).trans (s.heads_count ha _)

theorem State.heads_edgeDisable (s : State) (b ch : Nat) : (s.edgeDisable b ch).heads = s.heads := by
  have hd : offHead (edgePg b ch + Off.EDGE_CH_DISCARD_COUNT (ch % 8)) := offHead_block (bp_mod _ _) (by decide) (by decide)
  have hs : offHead (chStat b ch) := offHead_block (bp_mod _ _) (by decide) (by decide)
  unfold State.edgeDisable State.edgeDisableFrom
  rw [State.heads_wr _ hs, State.heads_setEdge, State.heads_edgeDisarm, State.heads_setQueue, State.heads_count _ hd,
    State.heads_dropTrig _ hd]

theorem offHead_toneFlags (lane : Nat) : offHead (toneFlags lane) := by
  have hdac : toneDac lane < 16 := by
    unfold toneDac laneIdx
    split <;> omega
  unfold toneFlags
  split
  · exact offHead_block (tonePg_mod lane) (by decide) (by decide)
  · exact offHead_at (tonePg_mod lane) (by unfold Off.TONE_DAC_FLAGS; omega)

theorem offHead_toneDiscard (lane : Nat) : offHead (toneDiscard lane) := by
  unfold toneDiscard
  split <;> exact offHead_block (tonePg_mod lane) (by decide) (by decide)

theorem State.heads_toneFlag (s : State) (lane i : Nat) : (s.toneFlag lane i).heads = s.heads := by
  have hf := s.heads_setBit (offHead_toneFlags lane) i true
  unfold State.toneFlag
  dsimp only
  split_ifs <;> simp [hf]

theorem State.heads_toneTaperAt (s : State) (lane p a : Nat) : (s.toneTaperAt lane p a).heads = s.heads := by
  unfold State.toneTaperAt
  dsimp only
  split
  · rfl
  · split_ifs <;> simp [State.heads_toneFlag]

theorem State.heads_toneStop (s : State) (lane : Nat) : (s.toneStop lane).heads = s.heads := by
  unfold State.toneStop State.toneTaper
  rw [State.heads_toneTaperAt, State.heads_setQueue, State.heads_count _ (offHead_toneDiscard lane)]

theorem State.heads_toneDisable (s : State) (lane : Nat) : (s.toneDisable lane).heads = s.heads := by
  unfold State.toneDisable State.toneHold
  rw [State.heads_setTone, State.heads_dacHold, State.heads_toneStop]

theorem State.heads_clipFlag (s : State) (lane pt : Nat) : (s.clipFlag lane pt).heads = s.heads := by
  unfold State.clipFlag
  dsimp only
  split
  · rfl
  · rw [State.heads_raiseAt, State.heads_setBit _ (offHead_toneFlags lane)]

theorem State.heads_putClips (s : State) (lane : Nat) (c : Clips) : (s.putClips lane c).heads = s.heads := by
  have hpeak : ∀ v, (if isFlux lane then s else s.wr (tonePg lane + Off.TONE_DAC_PEAK (toneDac lane)) v).heads = s.heads := by
    intro v
    split
    · rfl
    · exact s.heads_wr (offHead_block (tonePg_mod lane) (by decide) (by decide)) v
  unfold State.putClips
  dsimp only
  split
  · exact hpeak _
  · rw [State.heads_clipFlag, State.heads_count, hpeak]
    split <;> exact offHead_block (tonePg_mod lane) (by decide) (by decide)

theorem State.heads_dacSync (s : State) (lane x : Nat) : (s.dacSync lane x).heads = s.heads := by
  unfold State.dacSync
  dsimp only
  split_ifs
  · rfl
  · simp [State.heads_putClips]
  · simp
  · split <;> simp [State.heads_putClips]

/-! ### The stops of stream pages -/

@[simp] theorem State.heads_setSeq (s : State) (k : Nat) (z : SeqSt) : (s.setSeq k z).heads = s.heads := rfl

theorem State.heads_updShot (s : State) (o : Option Owner) (f : Shot → Shot) : (s.updShot o f).heads = s.heads := by
  unfold State.updShot
  cases o with
  | none => rfl
  | some w =>
    dsimp only
    split <;> rfl

theorem State.heads_flagShot (s : State) (o : Option Owner) (i : Nat) : (s.flagShot o i).heads = s.heads := s.heads_updShot o _

theorem State.heads_noteEff (s : State) (o : Option Owner) (e : Nat) : (s.noteEff o e).heads = s.heads := s.heads_updShot o _

theorem offHead_laneDiscard {lane a : Nat} (h : laneDiscard lane = some a) : offHead a := by
  unfold laneDiscard at h
  dsimp only at h
  split_ifs at h <;> cases h
  · exact offHead_block (bp_mod _ _) (by decide) (by decide)
  · exact offHead_toneDiscard lane
  · exact offHead_at (bp_mod _ _) (by decide)
  · exact offHead_block (bp_mod _ _) (by decide) (by decide)
  · exact offHead_at (bp_mod _ _) (by decide)

theorem State.heads_countDiscard (s : State) (lane n : Nat) : (s.countDiscard lane n).heads = s.heads := by
  unfold State.countDiscard
  split
  · rfl
  · next a h => exact s.heads_count (offHead_laneDiscard h) n

theorem State.heads_dropQueue (s : State) (lane : Nat) : (s.dropQueue lane).heads = s.heads := by
  unfold State.dropQueue
  dsimp only
  split
  · rw [State.heads_foldl fun p _ y => y.heads_flagShot p.owner 1, State.heads_setQueue, State.heads_countDiscard]
  · rw [State.heads_setQueue, State.heads_countDiscard]

theorem State.heads_applyHeld (s : State) (b n : Nat) (w : List Nat) : (s.applyHeld b n w).heads = s.heads := by
  unfold State.applyHeld
  dsimp only
  iterate 5 rw [State.heads_wr _ (offHead_block (bp_mod _ _) (by decide) (by decide))]

theorem State.heads_strIdleAt (s : State) (b n : Nat) (p : Nat) (early : Bool) : (s.strIdleAt b n p early).heads = s.heads := by
  have hrel : offHead (segPg b + Off.SEGMENT_STR_RING_REL n) := offHead_block (bp_mod _ _) (by decide) (by decide)
  have hfill : offHead (segPg b + Off.SEGMENT_STR_FILL_COUNT n) := offHead_block (bp_mod _ _) (by decide) (by decide)
  unfold State.strIdleAt
  dsimp only
  cases (s.stream b n).heldCfg <;> cases (s.stream b n).fill <;> split_ifs <;>
    simp [State.heads_applyHeld, State.heads_wr _ hrel, State.heads_count _ hfill]

theorem State.heads_noteAll (s : State) (b n p : Nat) : (s.noteAll b n p).heads = s.heads := by
  refine State.heads_foldl (fun ch _ y => ?_) s
  dsimp only
  split
  · split <;> simp
  · rfl

theorem State.heads_strStopAt (s : State) (b n : Nat) (p : Nat) : (s.strStopAt b n p).heads = s.heads := by
  unfold State.strStopAt
  dsimp only
  split_ifs
  · rfl
  · unfold State.toneTaper
    rw [State.heads_strIdleAt, State.heads_toneTaperAt, State.heads_dacSync]
  · rw [State.heads_strIdleAt, State.heads_noteAll]

theorem State.heads_strCut (s : State) (b n : Nat) : (s.strCut b n).heads = s.heads := by
  unfold State.strCut State.strEnd
  dsimp only
  split
  · rw [State.heads_noteEff, State.heads_strStopAt, State.heads_flagShot]
  · rfl

/-! ### The stops of capture pages -/

theorem State.heads_capFlag (s : State) (b i n : Nat) : (s.capFlag b i n).heads = s.heads := by
  have hf : offHead (capPg b i + Off.CAP_CAP_FLAGS) := offHead_at (bp_mod _ _) (by decide)
  unfold State.capFlag
  dsimp only
  split_ifs <;> simp [State.heads_setBit _ hf]

theorem offHead_capDiscard (b i : Nat) : offHead (capPg b i + Off.CAP_DISCARD_COUNT) := offHead_at (bp_mod _ _) (by decide)

theorem State.heads_capTrunc (s : State) (b i x : Nat) (p : Window → Bool) : (s.capTrunc b i x p).heads = s.heads := by
  unfold State.capTrunc
  dsimp only
  split_ifs <;> simp [State.heads_capFlag, State.heads_count _ (offHead_capDiscard b i)]

theorem State.heads_capDisable (s : State) (b i : Nat) : (s.capDisable b i).heads = s.heads := by
  unfold State.capDisable State.contCut State.contCutAt
  rw [State.heads_capTrunc, State.heads_setCap, State.heads_setCap, State.heads_setQueue, State.heads_count _ (offHead_capDiscard b i)]

theorem State.heads_startWin (s : State) (b i f len mask store : Nat) (late counted injected : Bool) (peg : Nat)
    (owner : Option Owner) : (s.startWin b i f len mask store late counted injected peg owner).heads = s.heads := by
  have hl : offHead (capPg b i + Off.CAP_LATE_COUNT) := offHead_at (bp_mod _ _) (by decide)
  unfold State.startWin
  dsimp only
  rw [State.heads_noteEff]
  split_ifs <;> simp [State.heads_capFlag, State.heads_bump _ hl]

theorem State.heads_capSync (s : State) (b i : Nat) : (s.capSync b i).heads = s.heads := by
  unfold State.capSync
  dsimp only
  split
  · rfl
  · split
    · rw [State.heads_startWin, State.heads_capTrunc, State.heads_setCap]
    · rfl

/-! ### The stops of stamp and frequency pages -/

theorem State.heads_setByte (s : State) (a : Nat) (v : Byte) : (s.setByte a v).heads = s.heads := by
  unfold State.setByte
  split <;> rfl

theorem State.heads_ringWrite (s : State) (base size wr : Nat) (l : List Byte) : (s.ringWrite base size wr l).heads = s.heads := by
  induction l generalizing s wr with
  | nil => rfl
  | cons v r ih => exact (ih _ _).trans (s.heads_setByte _ v)

theorem State.heads_hostPut (s : State) (b src : Nat) (l : List Byte) (poison : Bool) : (s.hostPut b src l poison).1.heads = s.heads := by
  have hdrop : ∀ e, offHead (evPg b + Off.EVENTS_DMA_DROP_COUNT e) := fun e => offHead_block (bp_mod _ _) (by decide) (by decide)
  have hlo : ∀ e, offHead (evPg b + Off.EVENTS_DMA_BYTES_LO e) := fun e => offHead_block (bp_mod _ _) (by decide) (by decide)
  have hhi : ∀ e, offHead (evPg b + Off.EVENTS_DMA_BYTES_LO e + 4) := fun e => offHead_block_add (bp_mod _ _) (by decide) (by decide)
  unfold State.hostPut
  extract_lets e0 s0
  have h0 : s0.heads = s.heads := State.heads_ev ..
  clear_value s0
  split
  · exact h0
  · split
    · exact h0
    · extract_lets d good
      split
      · rw [State.heads_setDma, State.heads_bump _ (hdrop _), h0]
      · dsimp only
        rw [State.heads_setDma, State.heads_wr64 _ (hlo _) (hhi _), State.heads_ev, h0]

theorem State.heads_recDrop (s : State) (b : Nat) : ((({ s with recGap := setPut s.recGap b true } : State).bump
    (stampPg b + Off.STAMP_REC_DROP_COUNT)).raise (stampPg b) 7).heads = s.heads := by
  rw [State.heads_raise, State.heads_bump _ (offHead_at (bp_mod _ _) (by decide)), State.heads_recGap]

theorem State.heads_writeRec (s : State) (b : Nat) (l : List Byte) : (s.writeRec b l).heads = s.heads := by
  have hwr : offHead (stampPg b + Off.STAMP_REC_WR) := offHead_at (bp_mod _ _) (by decide)
  unfold State.writeRec
  dsimp only
  split
  · split
    · exact s.heads_recDrop b
    · rw [State.heads_wr _ hwr, State.heads_ringWrite]
  · split
    · split
      · exact s.heads_hostPut b 5 l false
      · exact (State.heads_recDrop _ b).trans (s.heads_hostPut b 5 l false)
    · rfl

@[simp] theorem State.heads_signQ (s : State) (q : List (Nat × List Byte)) : ({ s with signQ := q } : State).heads = s.heads := rfl

theorem State.heads_makeRec (s : State) (b kind unit start tb : Nat) (owner : Option Owner) (sign : Bool) (payload : List Nat) :
    (s.makeRec b kind unit start tb owner sign payload).heads = s.heads := by
  have hseq : offHead (stampPg b + Off.STAMP_REC_SEQ) := offHead_at (bp_mod _ _) (by decide)
  have hskip : offHead (stampPg b + Off.STAMP_SIGN_SKIP_COUNT) := offHead_at (bp_mod _ _) (by decide)
  unfold State.makeRec
  extract_lets pg queue signed seq t s1
  have h1 : s1.heads = s.heads := (State.heads_wr _ hseq _).trans (State.heads_recGap ..)
  clear_value s1
  split
  · rfl
  · split
    extract_lets w1 hdr l
    split_ifs
    · exact (State.heads_signQ ..).trans h1
    · rw [State.heads_writeRec, State.heads_latchHealth, State.heads_bump _ hskip, h1]
    · rw [State.heads_writeRec, h1]

theorem State.heads_fit {s x : State} {ok : Bool} {w v n : Nat} (h : s.fit ok w v = (n, x)) : x.heads = s.heads := by
  unfold State.fit at h
  split at h <;> cases h <;> rfl

theorem offHead_tiu {b c u e : Nat} (hc : (c + e) % 0x80 ≠ 8) : offHead (stampPg b + (c + 0x80 * u) + e) :=
  offHead_block_add (bp_mod _ _) (by decide) hc

theorem State.heads_tiuTake (s : State) (b u : Nat) (start stop : Nat) :
    (s.tiuTake b u start stop).heads = s.heads := by
  have h {c : Nat} (hc : c % 0x80 ≠ 8) : offHead (stampPg b + (c + 0x80 * u)) := offHead_block (bp_mod _ _) (by decide) hc
  unfold State.tiuTake
  extract_lets x pg raw v c sum sq lo hi mean rms order near
  split; next w0 s0 e0 =>
  split; next w1 s1 e1 =>
  split; next w2 s2 e2 =>
  split; next w3 s3 e3 =>
  split; next w4 s4 e4 =>
  extract_lets st st' s5 s6 s7
  have h5 : s5.heads = s.heads := by
    rw [State.heads_wr80 _ (h (by decide)) (offHead_tiu (by decide)) (offHead_tiu (by decide)), State.heads_wr _ (h (by decide)),
      State.heads_wr64 _ (h (by decide)) (offHead_tiu (by decide)), State.heads_wr64 _ (h (by decide)) (offHead_tiu (by decide)),
      State.heads_wr _ (h (by decide)), State.heads_wr64 _ (h (by decide)) (offHead_tiu (by decide)),
      State.heads_wr64 _ (h (by decide)) (offHead_tiu (by decide)), State.heads_fit e4, State.heads_fit e3, State.heads_fit e2,
      State.heads_fit e1, State.heads_fit e0]
  have h6 : s6.heads = s5.heads := by
    unfold s6
    split
    · exact s5.heads_bump (h (by decide))
    · rfl
  have h7 : s7.heads = s6.heads := by
    unfold s7
    split
    · exact s6.heads_bump (h (by decide))
    · rfl
  exact (State.heads_setTiu ..).trans (h7.trans (h6.trans h5))

theorem State.heads_tiuComplete (s : State) (b u : Nat) : (s.tiuComplete b u).heads = s.heads := by
  unfold State.tiuComplete
  split
  · split
    · exact s.heads_tiuTake b u ..
    · rfl
  · rfl

theorem State.heads_setDrained (s : State) {pg : Nat} (hpg : pg % 0x1000 = 0) (on : Bool) : (s.setDrained pg on).heads = s.heads :=
  s.heads_setBit (offHead_at hpg (by decide)) 1 on

theorem State.heads_tiuEnd (s0 : State) (b u : Nat) (cut timeout : Bool) :
    (s0.tiuEnd b u cut timeout).heads = s0.heads := by
  have hstat : offHead (stampPg b + Off.STAMP_TIU_STAT u) := offHead_block (bp_mod _ _) (by decide) (by decide)
  unfold State.tiuEnd
  extract_lets s trunc x pg a st s1 s2 s3 s4 c rd64
  have h0 : s.heads = s0.heads := by
    unfold s
    split
    · exact s0.heads_tiuComplete b u
    · rfl
  have h1 : s1.heads = s.heads := (State.heads_setTiu ..).trans (s.heads_wr hstat _)
  have h3 : s3.heads = s1.heads := by
    unfold s3
    split <;> simp [s2]
  have h4 : s4.heads = s3.heads := by
    unfold s4
    split
    · exact s3.heads_setDrained (bp_mod _ _) true
    · rfl
  have h : s4.heads = s0.heads := h4.trans (h3.trans (h1.trans h0))
  clear_value s4
  split
  · exact h0
  · split
    · exact (State.heads_makeRec ..).trans h
    · exact h

theorem offHead_freStat (b e : Nat) : offHead (freqPg b + Off.FREQ_FRE_STAT e) := offHead_block (bp_mod _ _) (by decide) (by decide)

theorem State.heads_gateOpen (s : State) (b e g : Nat) (owner : Option Owner) (late : Bool) :
    (s.gateOpen b e g owner late).heads = s.heads := by
  unfold State.gateOpen
  dsimp only
  rw [State.heads_setFre, State.heads_wr _ (offHead_freStat b e)]
  split <;> simp

theorem State.heads_gateClose (s : State) (b e x : Nat) (trunc : Bool) : (s.gateClose b e x trunc).heads = s.heads := by
  unfold State.gateClose
  dsimp only
  split
  · rfl
  · split_ifs
    · rw [State.heads_gateOpen, State.heads_setBit _ (offHead_freStat b e), State.heads_setFre]
    · rw [State.heads_setDrained _ (bp_mod _ _), State.heads_setBit _ (offHead_freStat b e), State.heads_setFre]
    · rw [State.heads_setBit _ (offHead_freStat b e), State.heads_setFre]

/-! ### The stops of ports -/

theorem State.heads_portHealth (s : State) (b k : Nat) (down : Bool) : (s.portHealth b k down).heads = s.heads := by
  unfold State.portHealth
  rw [State.heads_standing]

theorem State.heads_portDown {s : State} (hw : s.worker = false) (b k : Nat) : (s.portDown b k false).heads = s.heads := by
  have hstat : offHead (portStat b k) := offHead_block (bp_mod _ _) (by decide) (by decide)
  unfold State.portDown
  extract_lets a was w z s1 s2 s3
  have h1 : s1.heads = s.heads := (State.heads_setPort ..).trans (s.heads_wr hstat _)
  have hw1 : s1.worker = s.worker := State.worker_of_home ((State.home_setPort ..).trans
    (s.home_wr (offTree_block (bp_mod _ _) (by decide) (by decide)) _))
  clear_value s1
  have h2 : s2.heads = s1.heads ∧ s2.worker = s1.worker := by
    unfold s2
    split
    · exact ⟨State.heads_raiseAt .., State.worker_of_home (State.home_raiseAt ..)⟩
    · exact ⟨rfl, rfl⟩
  clear_value s2
  have hw3 : s3.worker = false := (State.worker_of_home (s2.home_portHealth b k false)).trans (h2.2.trans (hw1.trans hw))
  rw [if_neg (by simp [hw3])]
  exact (s2.heads_portHealth b k false).trans (h2.1.trans h1)

/-! ### Clearing ENABLE, and a drain -/

theorem State.heads_pageStop {s : State} {b p : Nat} (hp : p < 0x20) (hw : p ≠ 0x1B ∨ s.worker = false) :
    (s.pageStop b p).heads = s.heads := by
  unfold State.pageStop State.each
  split_ifs with h1 h2 h3 h4 h5 h6 h7 h8
  · refine State.heads_foldl (fun ch _ x => ?_) s
    split
    · exact x.heads_edgeDisable b ch
    · rfl
  · refine State.heads_foldl (fun l _ x => ?_) s
    split
    · exact x.heads_toneDisable l
    · exact x.heads_toneStop l
  · exact State.heads_foldl (fun n _ x => (State.heads_strCut ..).trans (x.heads_dropQueue _)) s
  · exact (State.heads_capDisable ..).trans (s.heads_capSync b _)
  · exact State.heads_foldl (fun u _ x => (State.heads_tiuEnd _ b u true false).trans (x.heads_dropQueue _)) s
  · exact State.heads_foldl (fun e _ x => (State.heads_gateClose ..).trans (x.heads_dropQueue _)) s
  · have hw0 := hw.resolve_left (not_not_intro h7)
    have hw1 := (State.worker_of_home (s.home_portDown hw0 b 0)).trans hw0
    exact (State.heads_portDown hw1 b 1).trans (s.heads_portDown hw0 b 0)
  · omega
  · rfl

theorem State.heads_seqHalt (s : State) (b q : Nat) : (s.seqHalt (b * 16 + q)).heads = s.heads := by
  have hpg : seqPg (b * 16 + q) % 0x1000 = 0 := bp_mod _ _
  unfold State.seqHalt State.seqFinish
  dsimp only
  split_ifs
  · rfl
  · rfl
  · exact (State.heads_setDrained _ hpg _).trans rfl
  · rfl

theorem State.heads_edgeDrain (s : State) (b ch : Nat) : (s.edgeDrain b ch).heads = s.heads := by
  have hs : offHead (chStat b ch) := offHead_block (bp_mod _ _) (by decide) (by decide)
  unfold State.edgeDrain
  dsimp only
  split
  · rw [State.heads_setEdge, State.heads_setBit _ hs, State.heads_edgeDisarm]
  · rfl

/-- A drain of a page notes its instant, and its lanes' drains reach no PAGE_CTRL. -/
theorem State.heads_pageDrain (s : State) (b p : Nat) :
    (s.pageDrain b p).heads = (s.setDrain (drainPage (bp b p)) (some s.now)).heads := by
  unfold State.pageDrain
  extract_lets s0
  change _ = s0.heads
  clear_value s0
  unfold State.each
  split_ifs
  · exact State.heads_foldl (fun ch _ x => x.heads_edgeDrain b ch) s0
  · exact State.heads_foldl (fun l _ x => x.heads_setTone l _) s0
  · refine State.heads_foldl (fun n _ x => ?_) s0
    unfold State.strDrain
    dsimp only
    split <;> rfl
  · rfl
  · refine State.heads_foldl (fun u _ x => ?_) s0
    dsimp only
    split <;> rfl
  · refine State.heads_foldl (fun e _ x => ?_) s0
    dsimp only
    split <;> rfl
  · exact s0.heads_seqHalt b _
  · rfl

end Sys2Proof.Machine
end

section
/-!
PROOFS. The bits of PAGE_CTRL and HCLR (R113, R117, R369, R371, R399, R403).
-/

namespace Sys2Proof.Machine

/-! ### Pages of a bent -/

section Bent

variable (b : Fin 8) (p : Fin 48)

theorem isPkg_bp : isPkg (bp b p) = false := by
  unfold isPkg bp
  exact decide_eq_false (by omega)

theorem bentOf_bp : bentOf (bp b p) = b := by
  unfold bentOf bp; omega

theorem pageNo_bp : pageNo (bp b p) = p := by
  rw [pageNo, if_neg (by rw [isPkg_bp]; decide)]
  unfold bp; omega

theorem pageOf_bp : pageOf (bp b p) = bp b p := by
  have h := bp_mod b p
  unfold pageOf; omega

end Bent

theorem isPkg_pageBase (q : Fin 6) : isPkg (pageBase (.pkg q)) = true := by
  refine decide_eq_true ?_
  show 0x2000000 ≤ pkgp q
  unfold pkgp; omega

/-- Every page whose ENABLE can be written is a bent's (R403, R405). -/
theorem bent_of_not_fixed {v : Variant} {pg : Page} {r : PageRow} (hp : pageRow? v (pageBase pg) = some r) (hf : r.fixed = false) :
    ∃ b p, pg = .bent b p := by
  cases pg with
  | bent b p => exact ⟨b, p, rfl⟩
  | pkg q =>
    have hrow := pageRow?_pkg hp (isPkg_pageBase q)
    unfold pkgPage at hrow
    split_ifs at hrow <;> obtain rfl := Option.some.inj hrow <;> cases hf

/-! ### Commands of a page (R371, R399) -/

theorem State.command_locked {s : State} {pg : Nat} (h : s.locked pg = true) (f : State → State) :
    s.command pg f = s.latchHealth pg 0x04 := by
  simp [State.command, h]

theorem State.startCmd_locked {s : State} {pg : Nat} (h : s.locked pg = true) (f : State → State) :
    s.startCmd pg f = s.latchHealth pg 0x04 := State.command_locked h _

theorem State.startCmd_fenced {s : State} {pg : Nat} (hl : s.locked pg = false) (h : s.fenced pg = true) (f : State → State) :
    s.startCmd pg f = s.latchHealth pg 0x05 := by
  simp [State.startCmd, State.command, hl, h]

theorem State.startCmd_open {s : State} {pg : Nat} (hl : s.locked pg = false) (h : s.fenced pg = false) (f : State → State) :
    s.startCmd pg f = f s := by
  simp [State.startCmd, State.command, hl, h]

theorem State.lockPage_eq {s : State} {pg : Nat} (hl : s.locked pg = false) : s.lockPage pg =
    if isPkg pg then s.setBit (pg + Off.PG_PAGE_CTRL) 8 true
    else (s.setBit (pg + Off.PG_PAGE_CTRL) 8 true).raise (bp (bentOf pg) 0) 7 := State.command_unlocked hl _

/-- What reaches no memory leaves the same with a command that may write one. -/
theorem State.onlyRegs.keepMem_eq {u x : State} (h : u.onlyRegs x) : u.keepMem x.settle = u.keep x.settle := by
  obtain ⟨r, e, rfl⟩ := h
  rw [State.keepMem_settle, State.keep_settle]

section Commands

variable {s u x : State} {t : PT} {c : Instr} {pg : Page} {r : PageRow} {f : State → PageRow → State} {P : State → Prop} {a : Nat}

/-- A command of a page that may write a memory. -/
theorem pageMem_next (hu : u = s.arrive t) (hc : exec c s = runMem t s fun s => s.onPage pg f)
    (hp : pageRow? u.variant (pageBase pg) = some r) (hx : f u r = x) (h : P (u.keepMem x.settle)) : ∃ s', exec c s = .next s' ∧ P s' := by
  rw [hc]
  exact runMem_next (by rw [← hu, State.onPage, hp]; exact hx) (hu ▸ h)

/-- A command of a page, of one kind or the other, that reaches registers and the event state. -/
theorem pageRegs_next (hu : u = s.arrive t)
    (hc : exec c s = runAt t s (fun s => s.onPage pg f) ∨ exec c s = runMem t s fun s => s.onPage pg f)
    (hp : pageRow? u.variant (pageBase pg) = some r) (hx : f u r = x) (honly : u.onlyRegs x) (h : P (u.keep x.settle)) :
    ∃ s', exec c s = .next s' ∧ P s' := by
  rcases hc with hc | hc
  · exact pageCommand_next hu hc hp hx h
  · exact pageMem_next hu hc hp hx (honly.keepMem_eq.symm ▸ h)

/-- A command that is refused latches its code. -/
theorem pageRefused_next {code : Nat} (hu : u = s.arrive t) (ha : a = pageBase pg)
    (hc : exec c s = runAt t s (fun s => s.onPage pg f) ∨ exec c s = runMem t s fun s => s.onPage pg f)
    (hp : pageRow? u.variant a = some r) (hx : f u r = u.latchHealth a code) :
    ∃ s', exec c s = .next s' ∧ s'.isLatched a code = true ∧ s' = { u with ev := s'.ev } :=
  pageRegs_next hu hc (ha ▸ hp) hx (u.onlyRegs_latchHealth a code)
    ⟨by rw [State.isLatched_keep_settle, State.isLatched_latchHealth_same], (u.onlyRegs_latchHealth a code).keep_ev rfl⟩

/-- A command that finds nothing to do. -/
theorem pageIgnored_next (hu : u = s.arrive t)
    (hc : exec c s = runAt t s (fun s => s.onPage pg f) ∨ exec c s = runMem t s fun s => s.onPage pg f)
    (hp : pageRow? u.variant (pageBase pg) = some r) (hx : f u r = u) : ∃ s', exec c s = .next s' ∧ s' = { u with ev := s'.ev } :=
  pageRegs_next hu hc hp hx (.refl u) ((State.onlyRegs.refl u).keep_ev rfl)

/-! ### Refusals and pages that ignore a write (R371, R399, R403) -/

variable (hu : u = s.arrive t) (ha : a = pageBase pg) (hp : pageRow? u.variant a = some r)

include hu ha hp

theorem pageCtrl_locked (h : u.locked a = true) (hc : c = .pageEnable t pg ∨ c = .pageDisable t pg ∨ c = .pageDrain t pg ∨
    c = .pageFence t pg ∨ c = .pageLock t pg ∨ c = .pageSelftest t pg) :
    ∃ s', exec c s = .next s' ∧ s'.isLatched a 0x04 = true ∧ s' = { u with ev := s'.ev } := by
  subst ha
  rcases hc with rfl | rfl | rfl | rfl | rfl | rfl
  · exact pageRefused_next hu rfl (.inl rfl) hp (State.startCmd_locked h _)
  · exact pageRefused_next hu rfl (.inr rfl) hp (State.command_locked h _)
  · exact pageRefused_next hu rfl (.inr rfl) hp (State.command_locked h _)
  · exact pageRefused_next hu rfl (.inr rfl) hp (State.command_locked h _)
  · exact pageRefused_next hu rfl (.inl rfl) hp (State.command_locked h _)
  · exact pageRefused_next hu rfl (.inl rfl) hp (State.startCmd_locked h _)

theorem pageCtrl_fenced (hl : u.locked a = false) (h : u.fenced a = true) (hc : c = .pageEnable t pg ∨ c = .pageSelftest t pg) :
    ∃ s', exec c s = .next s' ∧ s'.isLatched a 0x05 = true ∧ s' = { u with ev := s'.ev } := by
  subst ha
  rcases hc with rfl | rfl
  · exact pageRefused_next hu rfl (.inl rfl) hp (State.startCmd_fenced hl h _)
  · exact pageRefused_next hu rfl (.inl rfl) hp (State.startCmd_fenced hl h _)

theorem pageCtrl_fixed (hf : r.fixed = true) (hl : u.locked a = false) :
    (u.fenced a = false → ∃ s', exec (.pageEnable t pg) s = .next s' ∧ s' = { u with ev := s'.ev }) ∧
      ∃ s', exec (.pageDisable t pg) s = .next s' ∧ s' = { u with ev := s'.ev } := by
  subst ha
  exact ⟨fun h => pageIgnored_next hu (.inl rfl) hp ((State.startCmd_open hl h _).trans (if_pos hf)),
    pageIgnored_next hu (.inr rfl) hp ((State.command_unlocked hl _).trans (if_pos (by simp [hf])))⟩

/-! ### LOCK and HCLR (R371, R399, R408) -/

theorem pageLock_shows (hl : u.locked a = false) : ∃ s', exec (.pageLock t pg) s = .next s' ∧ s'.locked a = true ∧
    (∀ b p, pg = .bent b p → s'.raised (bp b 0) 7 = true) ∧ u.sameRegs s' [a + Off.PG_PAGE_CTRL] ∧
    s' = { u with regs := s'.regs, ev := s'.ev } := by
  subst ha
  have hset : u.sameRegs (u.setBit (pageBase pg + Off.PG_PAGE_CTRL) 8 true) [pageBase pg + Off.PG_PAGE_CTRL] :=
    State.sameRegs_setBit (u.sameRegs_refl _) List.mem_cons_self 8 true
  have honly := u.onlyRegs_setBit (pageBase pg + Off.PG_PAGE_CTRL) 8 true
  have hbit := u.bit_setBit_same (pageBase pg + Off.PG_PAGE_CTRL) 8 true (by decide)
  have hx := State.lockPage_eq hl
  generalize hlocked : u.setBit (pageBase pg + Off.PG_PAGE_CTRL) 8 true = x at *
  cases hpkg : isPkg (pageBase pg) with
  | true =>
    rw [hpkg, if_pos rfl] at hx
    refine pageRegs_next hu (.inl rfl) hp hx honly ⟨?_, fun b p hb => ?_, State.sameRegs_keep hset honly.variant, honly.keep⟩
    · exact (State.bit_of_reg (State.reg_keep_settle honly.variant _) 8).trans hbit
    · subst hb
      exact absurd hpkg (by rw [pageBase, isPkg_bp]; decide)
  | false =>
    rw [hpkg, if_neg (by decide)] at hx
    have hraise := honly.trans (x.onlyRegs_raise (bp (bentOf (pageBase pg)) 0) 7)
    refine pageRegs_next hu (.inl rfl) hp hx hraise ⟨?_, fun b p hb => ?_, State.sameRegs_keep (fun a ha => ?_) hraise.variant,
      hraise.keep⟩
    · rw [State.locked, State.bit_of_reg (State.reg_keep_settle hraise.variant _), State.bit_raise, hbit]
    · subst hb
      rw [State.raised_keep_settle, pageBase, bentOf_bp, State.raised_raise_same]
    · rw [State.reg_raise, hset a ha]

theorem hclr_shows : ∃ s', exec (.hclr t pg) s = .next s' ∧ (∀ c, c < 256 → s'.isLatched a c = false) ∧
    (∀ k, k / 256 ≠ a → setHas s'.ev.latched k = setHas u.ev.latched k) ∧ s'.ev.standing = u.ev.standing ∧
    s' = { u with ev := s'.ev } := by
  subst ha
  have hkept (k : Nat) : setHas (u.hclr (pageBase pg)).ev.latched k =
      if (k / 256 != pageBase pg) = true then setHas u.ev.latched k else false :=
    mapGet_filter (fun _ => false) u.ev.latched (fun k => k / 256 != pageBase pg) k
  have honly : u.onlyRegs (u.hclr (pageBase pg)) := ⟨_, _, rfl⟩
  refine pageRegs_next hu (.inl rfl) hp rfl honly ⟨fun c hc => ?_, fun k hk => ?_, ?_, honly.keep_ev rfl⟩
  · rw [State.isLatched_keep_settle, State.isLatched, hkept, if_neg]
    rw [bne_iff_ne, not_not]
    omega
  · rw [State.keep_ev, State.settle_ev_latched, hkept, if_pos (bne_iff_ne.mpr hk)]
  · rw [State.keep_ev, State.settle_ev_standing]
    rfl

end Commands

/-! ### DRAIN (R117, R148, R169, R191, R221, R257, R289) -/

section Drain

variable {s u : State} {t : PT} {pg : Page} {r : PageRow} {a : Nat} (hu : u = s.arrive t) (ha : a = pageBase pg)
  (hp : pageRow? u.variant a = some r) (hl : u.locked a = false)

/-- The drain of a bent's page notes its instant, and leaves PAGE_CTRL. -/
theorem State.pageDrain_shows (x : State) (b p : Nat) : (x.pageDrain b p).variant = x.variant ∧
    (x.pageDrain b p).draining (bp b p) = x.draining (bp b p) ∧
    (x.pageDrain b p).drainAt (drainPage (bp b p)) = some x.now := by
  have hheads := x.heads_pageDrain b p
  have hv := State.variant_of_heads hheads
  exact ⟨hv, State.ctrl_of_heads hheads (bp_mod b p) 1,
    (State.drainAt_of_heads hheads _).trans (State.drainAt_setDrain_same _ _ _)⟩

theorem State.pageDrainSet_eq (hd : u.draining a = false) (hl : u.locked a = false) : u.pageDrainSet a =
    if isPkg a then u.setBit (a + Off.PG_PAGE_CTRL) 1 true
    else (u.setBit (a + Off.PG_PAGE_CTRL) 1 true).pageDrain (bentOf a) (pageNo a) :=
  (State.command_unlocked hl _).trans (if_neg (by simp [hd]))

include hu ha hp hl

theorem pageDrain_next (hd : u.draining a = false) : ∃ s', exec (.pageDrain t pg) s = .next s' ∧ s'.draining a = true ∧
    ((∃ b p, pg = .bent b p) → s'.drainAt (drainPage a) = some u.now) := by
  subst ha
  have hx := State.pageDrainSet_eq hd hl
  cases pg with
  | bent b p =>
    have hset : (u.setBit (bp b p + Off.PG_PAGE_CTRL) 1 true).draining (bp b p) = true :=
      State.bit_setBit_same _ _ _ _ (by decide)
    obtain ⟨hv, hdrain, hat⟩ := (u.setBit (bp b p + Off.PG_PAGE_CTRL) 1 true).pageDrain_shows b p
    rw [show pageBase (.bent b p) = bp b p from rfl] at hx hp ⊢
    rw [isPkg_bp, if_neg (by decide), bentOf_bp, pageNo_bp] at hx
    refine pageMem_next hu rfl hp hx ⟨?_, fun _ => ?_⟩
    · exact (State.bit_of_reg (State.reg_keepMem_settle hv _) 1).trans (hdrain.trans hset)
    · rw [State.drainAt_keepMem, State.drainAt_settle]
      exact hat
  | pkg q =>
    rw [isPkg_pageBase, if_pos rfl] at hx
    refine pageMem_next hu rfl hp hx ⟨?_, nofun⟩
    exact (State.bit_of_reg (State.reg_keepMem_settle rfl _) 1).trans (State.bit_setBit_same _ _ _ _ (by decide))

end Drain

/-! ### FENCE (R304, R408) -/

/-- A value put that is not the default is read back under any default. -/
theorem mapGet_mapSet_of_ne {α : Type} [DecidableEq α] {d : Nat → α} {k : Nat} {v : α} (h : v ≠ d k) (d' : Nat → α) (m : SMap α) :
    mapGet d' (mapSet d m k v) k = v := by
  rw [mapSet, if_neg h]
  exact mapGet_insert_same d' _ k v (mapErase_keys m k)

/-- A bit of a PAGE_CTRL that no page resets to 1, set last, is read back with any variant. -/
theorem State.bit_keepMem_fenced (u x : State) {pg : Nat} (hpg : pg % 0x1000 = 0) (q j : Nat) :
    (u.keepMem ((x.setBit (pg + Off.PG_PAGE_CTRL) 2 true).raise q j).settle).fenced pg = true := by
  have hset : (x.setBit (pg + Off.PG_PAGE_CTRL) 2 true).fenced pg = true := x.bit_setBit_same _ 2 true (by decide)
  have hword : (x.setBit (pg + Off.PG_PAGE_CTRL) 2 true).reg (pg + Off.PG_PAGE_CTRL) ≠
      resetWord x.variant (pg + Off.PG_PAGE_CTRL) := fun h => by
    rw [State.fenced, State.bit, State.rd, h, bitAt_resetWord_pageCtrl _ hpg (by decide)] at hset
    cases hset
  have hreg : (u.keepMem ((x.setBit (pg + Off.PG_PAGE_CTRL) 2 true).raise q j).settle).reg (pg + Off.PG_PAGE_CTRL) =
      (x.setBit (pg + Off.PG_PAGE_CTRL) 2 true).reg (pg + Off.PG_PAGE_CTRL) := by
    rw [State.setBit, State.setFld, State.wr, State.reg_setReg_same] at hword ⊢
    rw [State.reg, State.keepMem_variant, State.keepMem_regs, State.settle_regs, State.raise_regs]
    exact mapGet_mapSet_of_ne hword _ _
  exact (State.bit_of_reg hreg 2).trans hset

section Fence

variable {s u : State} {t : PT} {b : Fin 8} {p : Fin 48} {r : PageRow} (hu : u = s.arrive t)
  (hp : pageRow? u.variant (bp b p) = some r) (hl : u.locked (bp b p) = false) (hn : u.fenced (bp b p) = false)

/-- FENCE sets on a page whose stop reaches nothing (R304), and the event is raised (R408). -/
def State.fencedPage (s : State) (b p : Nat) : State := (s.setBit (bp b p + Off.PG_PAGE_CTRL) 2 true).raise (bp b 0) 6

/-- FENCE sets after the stop of its page. -/
theorem State.pageFence_eq (hn : u.fenced (bp b p) = false) : ∃ x : State, u.pageFence b p = x.fencedPage b p ∧
    ((p.val = 0x16 ∨ p.val = 0x17 ∨ p.val = 0x1C) → x = u) := by
  refine ⟨_, if_neg (by rw [← State.fenced, hn]; decide), fun h => ?_⟩
  rw [if_pos (by simp [h])]
  have hsync := u.pageSync_plain (a := bp b p) (.inr (.inr (by rw [pageNo_bp]; omega)))
  rwa [State.pageSync, isPkg_bp, if_neg (by decide), bentOf_bp, pageNo_bp] at hsync

include hu hp hl hn

theorem pageFence_next (hf : r.fence = true) : ∃ s', exec (.pageFence t (.bent b p)) s = .next s' ∧ s'.fenced (bp b p) = true ∧
    s'.raised (bp b 0) 6 = true ∧ ((p.val = 0x16 ∨ p.val = 0x17 ∨ p.val = 0x1C) →
      u.sameRegs s' [bp b p + Off.PG_PAGE_CTRL] ∧ s' = { u with regs := s'.regs, ev := s'.ev }) := by
  obtain ⟨x, hx, hplain⟩ := State.pageFence_eq (u := u) hn
  have hset : u.pageFenceSet (bp b p) r = x.fencedPage b p :=
    (State.command_unlocked hl _).trans ((if_pos hf).trans (by rw [bentOf_bp, pageNo_bp, hx]))
  refine pageMem_next hu rfl hp hset ⟨u.bit_keepMem_fenced x (bp_mod b p) _ _, ?_, fun h => ?_⟩
  · rw [State.raised_keepMem_settle]
    exact State.raised_raise_same _ _ _
  · obtain rfl := hplain h
    have honly : x.onlyRegs (x.fencedPage b p) := (x.onlyRegs_setBit _ 2 true).trans (State.onlyRegs_raise _ _ _)
    have hsame : x.sameRegs (x.fencedPage b p) [bp b p + Off.PG_PAGE_CTRL] := fun c hc =>
      (State.reg_raise _ _ _ _).trans (State.sameRegs_setBit (x.sameRegs_refl _) List.mem_cons_self 2 true c hc)
    rw [honly.keepMem_eq]
    exact ⟨State.sameRegs_keep hsame honly.variant, honly.keep⟩

end Fence

end Sys2Proof.Machine
end

section
/-!
PROOFS. ENABLE of a page, set and cleared (R113, R116, R148, R169, R174, R190, R220, R257, R403).
-/

namespace Sys2Proof.Machine

/-! ### The lanes of a page, one after another -/

/-- In a run over distinct numbers, what one step leaves holds at the end if the other steps keep it, and finds what they keep. -/
theorem foldl_at {l : List Nat} {f : State → Nat → State} {i : Nat} {P Q : State → Prop} (hnd : l.Nodup) (hi : i ∈ l)
    (hP : ∀ j ∈ l, j ≠ i → ∀ s, P s → P (f s j)) (hQ : ∀ j ∈ l, j ≠ i → ∀ s, Q s → Q (f s j)) (hstep : ∀ s, P s → Q (f s i)) :
    ∀ s, P s → Q (l.foldl f s) := by
  have hkeep : ∀ m : List Nat, (∀ j ∈ m, j ∈ l ∧ j ≠ i) → ∀ s, Q s → Q (m.foldl f s) := by
    intro m
    induction m with
    | nil => exact fun _ _ h => h
    | cons j m ih =>
      intro hm s hs
      exact ih (fun k hk => hm k (List.mem_cons_of_mem j hk)) _ (hQ j (hm j List.mem_cons_self).1 (hm j List.mem_cons_self).2 s hs)
  induction l with
  | nil => cases hi
  | cons j l ih =>
    intro s hs
    obtain ⟨hj, hnd⟩ := List.nodup_cons.mp hnd
    by_cases hji : j = i
    · subst hji
      exact hkeep l (fun k hk => ⟨List.mem_cons_of_mem j hk, fun e => hj (e ▸ hk)⟩) _ (hstep s hs)
    · refine ih hnd ((List.mem_cons.mp hi).resolve_left (Ne.symm hji)) (fun k hk => hP k (List.mem_cons_of_mem j hk))
        (fun k hk => hQ k (List.mem_cons_of_mem j hk)) (fun m hm => hkeep m fun k hk => ?_) _ (hP j List.mem_cons_self hji s hs)
      exact ⟨List.mem_cons_of_mem j (hm k hk).1, (hm k hk).2⟩

/-- The channels of an edge page. -/
def pageChannels (p : Nat) : List Nat := (List.range 8).map fun c => (p - 4) * 8 + c

section Channels

variable {p ch ch' : Nat}

theorem pageChannels_nodup (p : Nat) : (pageChannels p).Nodup :=
  List.nodup_range.map fun _ _ h => Nat.add_left_cancel h

theorem mem_pageChannels (hp : 4 ≤ p) : ch ∈ pageChannels p ↔ 4 + ch / 8 = p := by
  simp only [pageChannels, List.mem_map, List.mem_range]
  constructor
  · rintro ⟨c, hc, rfl⟩
    omega
  · exact fun h => ⟨ch % 8, by omega, by omega⟩

theorem chStat_inj {b : Nat} (hp : 4 + ch / 8 = 4 + ch' / 8) (h : ch ≠ ch') : chStat b ch ≠ chStat b ch' := by
  have hpg : edgePg b ch = edgePg b ch' := by unfold edgePg; rw [hp]
  unfold chStat Off.EDGE_CH_STAT
  omega

theorem chStat_not_mem {b : Nat} {l : List Nat} (hp : 4 + ch / 8 = 4 + ch' / 8) (h : ch ≠ ch')
    (hl : l = stopRegs b ch' ∨ l = senseRegs b ch') : chStat b ch ∉ l := by
  have hstat := chStat_inj (b := b) hp h
  have hpg : edgePg b ch = edgePg b ch' := by unfold edgePg; rw [hp]
  have hgroup : chStat b ch ≠ edgePg b ch' + Off.EDGE_GRP_STAT := hpg ▸ (edgePg_block_ne_stat (by decide)).symm
  have hcount : chStat b ch ≠ edgePg b ch' + Off.EDGE_CH_DISCARD_COUNT (ch' % 8) := by
    have hoff : Off.EDGE_CH_STAT (ch % 8) ≠ Off.EDGE_CH_DISCARD_COUNT (ch' % 8) := by
      unfold Off.EDGE_CH_STAT Off.EDGE_CH_DISCARD_COUNT
      omega
    exact hpg ▸ fun e => hoff (Nat.add_left_cancel e)
  rcases hl with rfl | rfl
  · simp only [stopRegs, List.mem_cons, List.not_mem_nil, or_false, not_or]
    exact ⟨hstat, hcount⟩
  · simp only [senseRegs, List.mem_cons, List.not_mem_nil, or_false, not_or]
    exact ⟨hstat, hgroup⟩

end Channels

/-! ### ENABLE cleared -/

/-- A live channel of an edge page is not live after the page's stop, its queue discarded (R116). -/
theorem State.pageStop_channel {s : State} {b p ch : Nat} (hp : 4 ≤ p ∧ p < 8) (hch : 4 + ch / 8 = p) (hlive : s.chLive b ch = true) :
    (s.pageStop b p).chLive b ch = false ∧ (s.pageStop b p).queue (laneAddr b 0 ch) = [] := by
  have hmem : ∀ j ∈ pageChannels p, 4 + ch / 8 = 4 + j / 8 := fun j hj => hch.trans ((mem_pageChannels hp.1).mp hj).symm
  unfold State.pageStop
  rw [if_pos hp]
  refine foldl_at (P := fun x => x.chLive b ch = true) (Q := fun x => x.chLive b ch = false ∧ x.queue (laneAddr b 0 ch) = [])
    (pageChannels_nodup p) ((mem_pageChannels hp.1).mpr hch) (fun j hj hne x hx => ?_) (fun j hj hne x hx => ?_) (fun x hx => ?_) s hlive
  · split
    · exact (State.bit_of_reg ((x.onlyChannel_edgeDisable b j).regs _ (chStat_not_mem (hmem j hj) (Ne.symm hne) (.inl rfl))) 0).trans hx
    · exact hx
  · split
    · refine ⟨(State.bit_of_reg ((x.onlyChannel_edgeDisable b j).regs _
        (chStat_not_mem (hmem j hj) (Ne.symm hne) (.inl rfl))) 0).trans hx.1, ?_⟩
      exact ((x.queues_edgeDisable b j).2 _ (by unfold laneAddr; omega)).trans hx.2
    · exact hx
  · rw [if_pos (by simp [hx])]
    exact ⟨(x.stat_edgeDisable b ch).1, (x.queues_edgeDisable b ch).1⟩

section Disable

variable {s u : State} {t : PT} {b : Fin 8} {p : Fin 48} {r : PageRow} (hu : u = s.arrive t)
  (hp : pageRow? u.variant (bp b p) = some r) (hl : u.locked (bp b p) = false) (hf : r.fixed = false) (he : u.enabled (bp b p) = true)

/-- A page of a bent whose ENABLE clears. -/
def State.unenabled (s : State) (b p : Nat) : State := (s.pageSync (bp b p)).setBit (bp b p + Off.PG_PAGE_CTRL) 0 false

theorem State.unenabled_shows (u : State) : (u.unenabled b p).enabled (bp b p) = false ∧ (u.unenabled b p).variant = u.variant ∧
    (u.unenabled b p).worker = u.worker := by
  have hctrl : offTree (bp b p + Off.PG_PAGE_CTRL) := offTree_reg (bp_mod b p) (by decide)
  have hhome : (u.unenabled b p).home = u.home := by
    rw [State.unenabled, State.home_setBit _ hctrl, State.pageSync, isPkg_bp, if_neg (by decide), State.home_syncPage]
  exact ⟨State.bit_setBit_same _ _ _ _ (by decide), State.variant_of_home hhome, State.worker_of_home hhome⟩

/-- Only TONE, PROBE and FLUX pages have converters to account for first. -/
theorem State.unenabled_plain (h : p.val < 8 ∨ 0xF ≤ p.val) : u.unenabled b p = u.setBit (bp b p + Off.PG_PAGE_CTRL) 0 false := by
  rw [State.unenabled, u.pageSync_plain (.inr (by rwa [pageNo_bp]))]

include hl hf he in
theorem State.pageDisable_eq : u.pageDisable (bp b p) r = (u.unenabled b p).pageStop b p := by
  refine (State.command_unlocked hl _).trans ((if_neg (by simp [hf, he])).trans ?_)
  rw [bentOf_bp, pageNo_bp]
  rfl

include hu hp hl hf he

theorem pageDisable_next (hlt : p.val < 0x20) (hw : p.val ≠ 0x1B ∨ u.worker = false) :
    ∃ s', exec (.pageDisable t (.bent b p)) s = .next s' ∧ s'.enabled (bp b p) = false ∧
      ∀ ch, 4 ≤ p.val → p.val < 8 → 4 + ch / 8 = p.val → u.chLive b ch = true →
        s'.chLive b ch = false ∧ s'.queue (laneAddr b 0 ch) = [] := by
  obtain ⟨hoff, hv, hworker⟩ := u.unenabled_shows (b := b) (p := p)
  have hheads := State.heads_pageStop (s := u.unenabled b p) (b := b) hlt (hw.imp_right hworker.trans)
  have hreg (c : Nat) := State.reg_keepMem_settle ((State.variant_of_heads hheads).trans hv) c
  refine pageMem_next hu rfl hp (State.pageDisable_eq hl hf he) ⟨?_, fun ch h4 h8 hch hlive => ?_⟩
  · exact (State.bit_of_reg (hreg _) 0).trans ((State.ctrl_of_heads hheads (bp_mod b p) 0).trans hoff)
  · have hlive' : (u.unenabled b p).chLive b ch = true := by
      rw [State.unenabled_plain (.inl h8), State.chLive, State.bit_of_reg (State.reg_setBit_ne _ _ _ ?_)]
      · exact hlive
      · rw [← hch]
        exact (edgePg_block_ne_stat (by decide)).symm
    obtain ⟨hdead, hqueue⟩ := State.pageStop_channel ⟨h4, h8⟩ hch hlive'
    exact ⟨(State.bit_of_reg (hreg _) 0).trans hdead, (State.queue_keepMem _ _ _).trans ((State.queue_settle _ _).trans hqueue)⟩

/-- A sequencer's page, where nothing runs and nothing is owed (R148). -/
theorem seqDisable_next (h20 : 0x20 ≤ p.val) (hrest : u.atRest (b * 16 + (p - 0x20))) :
    ∃ s', exec (.pageDisable t (.bent b p)) s = .next s' ∧ s'.enabled (bp b p) = false ∧
      u.sameRegs s' [bp b p + Off.PG_PAGE_CTRL] ∧ s' = { u with regs := s'.regs, ev := s'.ev } := by
  have hplain := State.unenabled_plain (u := u) (b := b) (p := p) (.inr (by omega))
  have honly : u.onlyRegs (u.unenabled b p) := hplain ▸ u.onlyRegs_setBit _ 0 false
  have hsame : u.sameRegs (u.unenabled b p) [bp b p + Off.PG_PAGE_CTRL] :=
    hplain ▸ State.sameRegs_setBit (u.sameRegs_refl _) List.mem_cons_self 0 false
  have hrest' : (u.unenabled b p).atRest (b * 16 + (p - 0x20)) := hplain ▸ hrest
  have hstop : (u.unenabled b p).pageStop b p = u.unenabled b p := by
    unfold State.pageStop
    simp (disch := omega) only [if_neg, if_pos]
    exact State.seqStop_atRest hrest'
  refine pageRegs_next hu (.inr rfl) hp ((State.pageDisable_eq hl hf he).trans hstop) honly
    ⟨?_, State.sameRegs_keep hsame honly.variant, honly.keep⟩
  exact (State.bit_of_reg (State.reg_keep_settle honly.variant _) 0).trans u.unenabled_shows.1

end Disable

/-! ### ENABLE set -/

theorem chCtrl_not_mem {b ch ch' : Nat} (hp : 4 + ch / 8 = 4 + ch' / 8) : chCtrl b ch ∉ senseRegs b ch' := by
  have hpg : edgePg b ch = edgePg b ch' := by unfold edgePg; rw [hp]
  have hstat : Off.EDGE_CH_CTRL (ch % 8) ≠ Off.EDGE_CH_STAT (ch' % 8) := by
    unfold Off.EDGE_CH_CTRL Off.EDGE_CH_STAT
    omega
  have hgroup : Off.EDGE_CH_CTRL (ch % 8) ≠ Off.EDGE_GRP_STAT := by
    unfold Off.EDGE_CH_CTRL Off.EDGE_GRP_STAT
    omega
  simp only [senseRegs, chCtrl, List.mem_cons, List.not_mem_nil, or_false, not_or, hpg]
  exact ⟨fun e => hstat (Nat.add_left_cancel e), fun e => hgroup (Nat.add_left_cancel e)⟩

theorem State.onlyPins.now {u x : State} (h : u.onlyPins x) : x.now = u.now := by
  obtain ⟨_, _, _, rfl⟩ := h
  rfl

theorem State.heads_edgeSenseIf (s : State) (b ch : Nat) : (s.edgeSenseIf b ch).heads = s.heads := by
  have hlive : ∀ cls level, (s.edgeGoLive b ch cls level true).heads = s.heads := fun cls level => by
    obtain ⟨on, e, heq, -⟩ := s.edgeGoLive_eq b ch cls level true
    rw [heq, State.heads_setEdge, State.heads_standing, State.heads_setBit _ (offHead_at (bp_mod _ _) (by decide)),
      State.heads_wr _ (offHead_block (bp_mod _ _) (by decide) (by decide))]
  unfold State.edgeSenseIf State.edgeSense
  split_ifs
  · exact hlive _ _
  · rfl
  · rfl

theorem State.edgeSenseIf_only (s : State) (b ch : Nat) : s.onlyPins (s.edgeSenseIf b ch) ∧
    s.onlyChannel (s.edgeSenseIf b ch) b ch (senseRegs b ch) := by
  unfold State.edgeSenseIf State.edgeSense
  split_ifs
  · exact ⟨s.onlyPins_edgeGoLive .., s.onlyChannel_edgeGoLive ..⟩
  · exact ⟨s.onlyPins_setEdge .., (State.onlyChannel.refl s b ch _).setEdge _⟩
  · exact ⟨.refl s, .refl s b ch _⟩

/-- What setting ENABLE reaches: registers of the page, channels, and what its converters hold. -/
def State.onlyStart (u x : State) (pg : Nat) : Prop :=
  (∃ r e m d h, x = { u with regs := r, ev := e, edges := m, dacHold := d, dacAt := h }) ∧ u.samePages x [pg]

section Start

variable {u x y : State} {pg : Nat}

theorem State.onlyStart.refl (u : State) (pg : Nat) : u.onlyStart u pg :=
  ⟨⟨u.regs, u.ev, u.edges, u.dacHold, u.dacAt, rfl⟩, fun _ _ => rfl⟩

theorem State.onlyStart.trans (h : u.onlyStart x pg) (k : x.onlyStart y pg) : u.onlyStart y pg := by
  obtain ⟨⟨_, _, _, _, _, rfl⟩, hr⟩ := h
  obtain ⟨⟨r, e, m, d, at_, rfl⟩, kr⟩ := k
  exact ⟨⟨r, e, m, d, at_, rfl⟩, fun a ha => (kr a ha).trans (hr a ha)⟩

theorem State.onlyPins.start (h : u.onlyPins x) (hs : u.samePages x [pg]) : u.onlyStart x pg := by
  obtain ⟨r, m, e, rfl⟩ := h
  exact ⟨⟨r, e, m, u.dacHold, u.dacAt, rfl⟩, hs⟩

theorem State.onlyClips.start (h : u.onlyClips x pg) : u.onlyStart x pg := by
  obtain ⟨⟨r, d, e, rfl⟩, hs⟩ := h
  exact ⟨⟨r, e, u.edges, u.dacHold, d, rfl⟩, hs⟩

theorem State.onlyStart_foldl {f : State → Nat → State} {l : List Nat} (h : ∀ i ∈ l, ∀ s : State, s.onlyStart (f s i) pg) :
    ∀ s : State, s.onlyStart (l.foldl f s) pg := by
  induction l with
  | nil => exact fun s => .refl s pg
  | cons i l ih =>
    exact fun s => (h i List.mem_cons_self s).trans (ih (fun j hj => h j (List.mem_cons_of_mem i hj)) (f s i))

theorem State.onlyStart_setBit (u : State) {a : Nat} (h : pageOf a = pg) (i : Nat) (on : Bool) : u.onlyStart (u.setBit a i on) pg :=
  (u.onlyClips_wr h _).start

theorem State.onlyStart.variant (h : u.onlyStart x pg) : x.variant = u.variant := by
  obtain ⟨⟨_, _, _, _, _, rfl⟩, -⟩ := h
  rfl

/-- What setting ENABLE reaches, its outcome keeps. -/
theorem State.onlyStart.keep (h : u.onlyStart x pg) : u.samePages (u.keep x.settle) [pg] ∧
    u.keep x.settle =
      { u with regs := (u.keep x.settle).regs, ev := (u.keep x.settle).ev, edges := (u.keep x.settle).edges,
               dacHold := (u.keep x.settle).dacHold, dacAt := (u.keep x.settle).dacAt } := by
  obtain ⟨⟨r, e, m, d, at_, rfl⟩, hs⟩ := h
  refine ⟨fun a ha => (State.reg_keep_settle rfl a).trans (hs a ha), ?_⟩
  rw [State.keep_settle]

end Start

theorem pageOf_senseRegs {b p ch c : Nat} (hch : 4 + ch / 8 = p) (hc : c ∈ senseRegs b ch) : pageOf c = bp b p := by
  subst hch
  simp only [senseRegs, List.mem_cons, List.not_mem_nil, or_false] at hc
  rcases hc with rfl | rfl
  · exact pageOf_add (bp_mod _ _) (by unfold Off.EDGE_CH_STAT; omega)
  · exact pageOf_add (bp_mod _ _) (by decide)

/-- What setting ENABLE starts on a page reaches that page only, and no PAGE_CTRL. -/
theorem State.pageStart_only (s : State) (b p : Nat) : s.onlyStart (s.pageStart b p) (bp b p) ∧ (s.pageStart b p).heads = s.heads := by
  unfold State.pageStart State.each
  split_ifs with h1 h2 h3
  · refine ⟨State.onlyStart_foldl (fun ch hch x => ?_) s, State.heads_foldl (fun ch _ x => x.heads_edgeSenseIf b ch) s⟩
    obtain ⟨hpins, hchannel⟩ := x.edgeSenseIf_only b ch
    exact hpins.start (hchannel.regs.pages fun c hc =>
      List.mem_singleton.mpr (pageOf_senseRegs ((mem_pageChannels h1.1).mp hch) hc))
  · refine ⟨State.onlyStart_foldl (fun l _ x => ?_) s, State.heads_foldl (fun l _ x => x.heads_dacHold _) s⟩
    exact ⟨⟨x.regs, x.ev, x.edges, _, x.dacAt, rfl⟩, fun _ _ => rfl⟩
  · exact ⟨s.onlyStart_setBit (pageOf_add (bp_mod b p) (by decide)) _ _, s.heads_setDrained (bp_mod b p) false⟩
  · exact ⟨.refl s _, rfl⟩

/-- What sensing looks at on a channel is as in `u`. -/
structure State.channelAs (u x : State) (b ch : Nat) : Prop where
  heads : x.heads = u.heads
  now : x.now = u.now
  edge : x.edge b ch = u.edge b ch
  stat : x.reg (chStat b ch) = u.reg (chStat b ch)
  ctrl : x.reg (chCtrl b ch) = u.reg (chCtrl b ch)

/-- A channel that waits to be sensed as its page is enabled. -/
structure State.unsensed (u : State) (b ch : Nat) : Prop where
  mode : u.chMode b ch ≠ 0
  live : u.chLive b ch = false
  sense : (u.edge b ch).senseEnd = none
  fault : u.bit (chStat b ch) 13 = false
  force : u.bit (chCtrl b ch) 8 = false

theorem State.channelAs.senses {u x : State} {b ch : Nat} (h : u.channelAs x b ch) (hu : u.unsensed b ch)
    (hen : u.enabled (edgePg b ch) = true) (hfence : u.fenced (edgePg b ch) = false) :
    ((x.edgeSenseIf b ch).edge b ch).senseEnd = some (u.now + 2 * usK) ∧ ((x.edgeSenseIf b ch).edge b ch).senseLive = true := by
  have hctrl (i : Nat) := State.ctrl_of_heads h.heads (bp_mod b (4 + ch / 8)) i
  have hstarts := State.edgeSenseIf_starts (x := x) (by rw [State.chMode, State.fld_of_reg h.ctrl]; exact hu.mode)
    ((State.bit_of_reg h.stat 0).trans hu.live) (by rw [h.edge]; exact hu.sense) ((State.bit_of_reg h.stat 13).trans hu.fault)
    ((hctrl 0).trans hen) ((hctrl 2).trans hfence)
  rw [hstarts, State.edgeSense_senses _ _ _ _ ((State.bit_of_reg h.ctrl 8).trans hu.force), State.edge_setEdge_same, State.sensingEdge, h.now]
  exact ⟨rfl, rfl⟩

/-- Sensing starts on each channel of an enabled edge page that waits for it (R113). -/
theorem State.pageStart_senses {u : State} {b p ch : Nat} (hp : 4 ≤ p ∧ p < 8) (hch : 4 + ch / 8 = p) (hu : u.unsensed b ch)
    (hen : u.enabled (bp b p) = true) (hfence : u.fenced (bp b p) = false) :
    ((u.pageStart b p).edge b ch).senseEnd = some (u.now + 2 * usK) ∧ ((u.pageStart b p).edge b ch).senseLive = true := by
  have hmem : ∀ j ∈ pageChannels p, 4 + ch / 8 = 4 + j / 8 := fun j hj => hch.trans ((mem_pageChannels hp.1).mp hj).symm
  unfold State.pageStart
  rw [if_pos hp]
  refine foldl_at (P := fun x => u.channelAs x b ch)
    (Q := fun x => (x.edge b ch).senseEnd = some (u.now + 2 * usK) ∧ (x.edge b ch).senseLive = true)
    (pageChannels_nodup p) ((mem_pageChannels hp.1).mpr hch) (fun j hj hne x hx => ?_) (fun j hj hne x hx => ?_)
    (fun x hx => hx.senses hu (by rwa [edgePg, hch]) (by rwa [edgePg, hch])) u ⟨rfl, rfl, rfl, rfl, rfl⟩
  · obtain ⟨hpins, hchannel⟩ := x.edgeSenseIf_only b j
    exact ⟨(x.heads_edgeSenseIf b j).trans hx.heads, hpins.now.trans hx.now, (hchannel.edges b ch (by omega)).trans hx.edge,
      (hchannel.regs _ (chStat_not_mem (hmem j hj) (Ne.symm hne) (.inr rfl))).trans hx.stat,
      (hchannel.regs _ (chCtrl_not_mem (hmem j hj))).trans hx.ctrl⟩
  · obtain ⟨-, hchannel⟩ := x.edgeSenseIf_only b j
    rwa [hchannel.edges b ch (by omega)]

section Enable

variable {s u : State} {t : PT} {b : Fin 8} {p : Fin 48} {r : PageRow} (hu : u = s.arrive t)
  (hp : pageRow? u.variant (bp b p) = some r) (hl : u.locked (bp b p) = false) (hn : u.fenced (bp b p) = false) (hf : r.fixed = false)

/-- A page of a bent whose ENABLE sets. -/
def State.enabledPage (s : State) (b p : Nat) : State := (s.pageSync (bp b p)).setBit (bp b p + Off.PG_PAGE_CTRL) 0 true

include hp in
theorem State.enabledPage_only : u.onlyStart (u.enabledPage b p) (bp b p) := by
  have hsync := u.onlyClips_pageSync hp
  rw [pageOf_bp] at hsync
  exact hsync.start.trans (State.onlyStart_setBit _ (pageOf_add (bp_mod b p) (by decide)) 0 true)

/-- The rest of an edge page is as it was as its ENABLE sets. -/
theorem State.enabledPage_edge (h : p.val < 8) {a : Nat} (ha : a ≠ bp b p + Off.PG_PAGE_CTRL) : (u.enabledPage b p).reg a = u.reg a := by
  rw [State.enabledPage, u.pageSync_plain (.inr (.inl (by rwa [pageNo_bp])))]
  exact State.reg_setBit_ne _ _ _ ha

include hu hp hl hn hf

theorem pageEnable_next : ∃ s', exec (.pageEnable t (.bent b p)) s = .next s' ∧ s'.enabled (bp b p) = true ∧ u.samePages s' [bp b p] ∧
    (∀ ch, 4 ≤ p.val → p.val < 8 → 4 + ch / 8 = p.val → u.unsensed b ch →
      (s'.edge b ch).senseEnd = some (u.now + 2 * usK) ∧ (s'.edge b ch).senseLive = true) ∧
    s' = { u with regs := s'.regs, ev := s'.ev, edges := s'.edges, dacHold := s'.dacHold, dacAt := s'.dacAt } := by
  have hput := State.enabledPage_only (b := b) (p := p) hp
  obtain ⟨hstart, hheads⟩ := (u.enabledPage b p).pageStart_only b p
  have hon : (u.enabledPage b p).enabled (bp b p) = true := State.bit_setBit_same _ _ _ _ (by decide)
  have hx : u.pageEnable (bp b p) r = (u.enabledPage b p).pageStart b p := by
    refine (State.startCmd_open hl hn _).trans ((if_neg (by simp [hf])).trans ?_)
    rw [bentOf_bp, pageNo_bp]
    rfl
  obtain ⟨hpages, hrest⟩ := (hput.trans hstart).keep
  refine pageCommand_next hu rfl hp hx ⟨?_, hpages, fun ch h4 h8 hch hun => ?_, hrest⟩
  · have hctrl := State.ctrl_of_heads hheads (bp_mod b p) 0
    exact (State.bit_of_reg (State.reg_keep_settle (hput.trans hstart).variant _) 0).trans (hctrl.trans hon)
  · have hreg (o : Nat) (ho : 8 < o ∧ o < 0x1000) : (u.enabledPage b p).reg (bp b p + o) = u.reg (bp b p + o) :=
      State.enabledPage_edge h8 fun e => by
        unfold Off.PG_PAGE_CTRL at e
        omega
    have hpg : edgePg b ch = bp b p := by rw [edgePg, hch]
    have hstat : (u.enabledPage b p).reg (chStat b ch) = u.reg (chStat b ch) := by
      rw [chStat, hpg]
      exact hreg _ (by unfold Off.EDGE_CH_STAT; omega)
    have hctrl : (u.enabledPage b p).reg (chCtrl b ch) = u.reg (chCtrl b ch) := by
      rw [chCtrl, hpg]
      exact hreg _ (by unfold Off.EDGE_CH_CTRL; omega)
    have hedges : (u.enabledPage b p).edge b ch = u.edge b ch := by
      rw [State.enabledPage, u.pageSync_plain (.inr (.inl (by rwa [pageNo_bp])))]
      rfl
    have hnow : (u.enabledPage b p).now = u.now := by
      obtain ⟨⟨_, _, _, _, _, h⟩, -⟩ := hput
      rw [h]
      rfl
    have hfence : (u.enabledPage b p).fenced (bp b p) = false := by
      rw [State.fenced, State.enabledPage, u.pageSync_plain (.inr (.inl (by rwa [pageNo_bp]))),
        State.bit_setBit_ne _ _ _ (by decide) (by decide)]
      exact hn
    have hun' : (u.enabledPage b p).unsensed b ch :=
      ⟨by rw [State.chMode, State.fld_of_reg hctrl]; exact hun.mode, (State.bit_of_reg hstat 0).trans hun.live,
        by rw [hedges]; exact hun.sense, (State.bit_of_reg hstat 13).trans hun.fault, (State.bit_of_reg hctrl 8).trans hun.force⟩
    rw [State.edge_keep, State.edge_settle, ← hnow]
    exact State.pageStart_senses ⟨h4, h8⟩ hch hun' hon hfence

end Enable

/-- Settles O36: PAGE_CTRL bit by bit, each by what its effect leaves of the page. -/
theorem pageControl : Obligations.PageControl := by
  intro s u t pg r a hu ha hp
  refine ⟨fun c hc h => pageCtrl_locked hu ha hp h hc, fun c hc hl h => pageCtrl_fenced hu ha hp hl h hc, fun hl hn hf => ?_,
    fun hf hl => pageCtrl_fixed hu ha hp hf hl, fun hl hf he => ?_, fun hl hd => pageDrain_next hu ha hp hl hd,
    fun b p hb hf hl hn => ?_, fun hl => pageLock_shows hu ha hp hl, hclr_shows hu ha hp⟩
  · subst ha
    obtain ⟨b, p, rfl⟩ := bent_of_not_fixed hp hf
    obtain ⟨s', hs', hen, hpages, hsense, hrest⟩ := pageEnable_next hu hp hl hn hf
    refine ⟨s', hs', hen, hpages, fun b' c hbc h4 h8 i hi ch hch hmode hlive hend hfault hforce => ?_, hrest⟩
    obtain ⟨rfl, rfl⟩ := Page.bent.inj hbc
    exact hsense ch h4 h8 (by omega) ⟨hmode, hlive, hend, hfault, hforce⟩
  · subst ha
    obtain ⟨b, p, rfl⟩ := bent_of_not_fixed hp hf
    have hno : pageNo (pageBase (.bent b p)) = p := pageNo_bp b p
    refine ⟨fun hlt hw => ?_, fun b' q hbq hphase howed => ?_⟩
    · obtain ⟨s', hs', hoff, hstop⟩ := pageDisable_next hu hp hl hf he (hno ▸ hlt) (hno ▸ hw)
      refine ⟨s', hs', hoff, fun b' c hbc h4 h8 i hi ch hch => ?_⟩
      obtain ⟨rfl, rfl⟩ := Page.bent.inj hbc
      exact hstop ch h4 h8 (by omega)
    · have hbp : bp b p = bp b' (0x20 + q) := by
        change bp b p = bp ((b'.val * 16 + q.val) / 16) (0x20 + (b'.val * 16 + q.val) % 16) at hbq
        rw [hbq]
        congr 1 <;> omega
      obtain ⟨hb, hq⟩ : b.val = b' ∧ p.val = 0x20 + q := by
        unfold bp at hbp
        omega
      refine seqDisable_next hu hp hl hf he (by omega) ?_
      rw [show b.val * 16 + (p.val - 0x20) = seqNo b' q by unfold seqNo; omega]
      exact ⟨hphase, howed⟩
  · subst ha hb
    exact pageFence_next hu hp hl hn hf

end Sys2Proof.Machine
end

section
/-!
PROOFS. Self-tests of pages (R121, R191, R221, R289, R369).
-/

namespace Sys2Proof.Machine

/-- The registers a self-test reaches. -/
def testRegs (a : Nat) : List Nat := [a + Off.PG_PAGE_CTRL, a + Off.PG_PAGE_STAT]

theorem pageCtrl_ne_pageStat (a : Nat) : a + Off.PG_PAGE_CTRL ≠ a + Off.PG_PAGE_STAT := fun e =>
  absurd (Nat.add_left_cancel e) (by decide)

/-- A self-test that runs (R369). -/
def State.testing (s : State) (a : Nat) : State := (s.setBit (a + Off.PG_PAGE_CTRL) 3 true).setBit (a + Off.PG_PAGE_STAT) 3 true

/-- A self-test that has ended: both bits clear, and its result shows (R369). -/
def State.tested (s : State) (a : Nat) (pass : Bool) : State :=
  (((s.setBit (a + Off.PG_PAGE_CTRL) 3 false).setBit (a + Off.PG_PAGE_STAT) 3 false).setBit
    (a + Off.PG_PAGE_STAT) 4 (!pass)).standing a 0x06 (!pass)

section Registers

variable (s : State) (a : Nat) (pass : Bool)

theorem State.testing_shows : (s.testing a).bit (a + Off.PG_PAGE_CTRL) 3 = true ∧ (s.testing a).bit (a + Off.PG_PAGE_STAT) 3 = true ∧
    s.sameRegs (s.testing a) (testRegs a) ∧ s.onlyRegs (s.testing a) := by
  refine ⟨?_, State.bit_setBit_same _ _ _ _ (by decide), ?_, (s.onlyRegs_setBit _ _ _).trans (State.onlyRegs_setBit _ _ _ _)⟩
  · rw [State.testing, State.bit_of_reg (State.reg_setBit_ne _ _ _ (pageCtrl_ne_pageStat a)), State.bit_setBit_same _ _ _ _ (by decide)]
  · exact State.sameRegs_setBit (State.sameRegs_setBit (s.sameRegs_refl _) List.mem_cons_self _ _)
      (List.mem_cons_of_mem _ List.mem_cons_self) _ _

theorem State.tested_shows : (s.tested a pass).bit (a + Off.PG_PAGE_CTRL) 3 = false ∧
    (s.tested a pass).bit (a + Off.PG_PAGE_STAT) 3 = false ∧ (s.tested a pass).bit (a + Off.PG_PAGE_STAT) 4 = (!pass) ∧
    (s.tested a pass).stands a 0x06 = (!pass) ∧ s.sameRegs (s.tested a pass) (testRegs a) ∧ s.onlyRegs (s.tested a pass) := by
  have hne := pageCtrl_ne_pageStat a
  refine ⟨?_, ?_, ?_, State.stands_standing_same _ _ _ _, fun c hc => ?_, ?_⟩
  · rw [State.tested, State.bit_standing, State.bit_of_reg (State.reg_setBit_ne _ _ _ hne),
      State.bit_of_reg (State.reg_setBit_ne _ _ _ hne), State.bit_setBit_same _ _ _ _ (by decide)]
  · rw [State.tested, State.bit_standing, State.bit_setBit_ne _ _ _ (by decide) (by decide), State.bit_setBit_same _ _ _ _ (by decide)]
  · rw [State.tested, State.bit_standing, State.bit_setBit_same _ _ _ _ (by decide)]
  · have hstat : a + Off.PG_PAGE_STAT ∈ testRegs a := List.mem_cons_of_mem _ List.mem_cons_self
    rw [State.tested, State.reg_standing]
    exact State.sameRegs_setBit (State.sameRegs_setBit (State.sameRegs_setBit (s.sameRegs_refl _) List.mem_cons_self _ _) hstat _ _)
      hstat _ _ c hc
  · exact (((s.onlyRegs_setBit _ _ _).trans (State.onlyRegs_setBit _ _ _ _)).trans (State.onlyRegs_setBit _ _ _ _)).trans
      (State.onlyRegs_standing _ _ _ _)

end Registers

section Selftests

variable {s u : State} {t : PT} {pg : Page} {r : PageRow} {a : Nat} (hu : u = s.arrive t) (ha : a = pageBase pg)
  (hp : pageRow? u.variant a = some r)

theorem State.selftest_starts (hl : u.locked a = false) (hn : u.fenced a = false) (h : u.testRefused a r.kind = none) :
    u.selftest a r = u.testing a := by
  rw [State.selftest, State.startCmd_open hl hn, h]
  rfl

theorem State.selftest_refused {code : Nat} (hl : u.locked a = false) (hn : u.fenced a = false)
    (h : u.testRefused a r.kind = some code) : u.selftest a r = u.latchHealth a code := by
  rw [State.selftest, State.startCmd_open hl hn, h]

/-- On an edge page and on a capture page that has not drained, the self-test is refused (R121, R223); on TIME it never is. -/
theorem State.testRefused_kinds (u : State) (a : Nat) (k : PageKind) :
    (k = .edge → u.drained a = false → u.testRefused a k = some 0x44) ∧
      (k = .cap → u.drained a = false → u.testRefused a k = some 0x83) ∧ (k = .time → u.testRefused a k = none) := by
  refine ⟨?_, ?_, ?_⟩
  · rintro rfl hd
    simp [State.testRefused, hd]
  · rintro rfl hd
    simp [State.testRefused, hd]
  · rintro rfl
    rfl

include hu ha hp

theorem selftest_starts_next (hl : u.locked a = false) (hn : u.fenced a = false) (h : u.testRefused a r.kind = none) :
    ∃ s', exec (.pageSelftest t pg) s = .next s' ∧ s'.bit (a + Off.PG_PAGE_CTRL) 3 = true ∧ s'.bit (a + Off.PG_PAGE_STAT) 3 = true ∧
      u.sameRegs s' [a + Off.PG_PAGE_CTRL, a + Off.PG_PAGE_STAT] ∧ s' = { u with regs := s'.regs, ev := s'.ev } := by
  obtain ⟨hctrl, hstat, hsame, honly⟩ := u.testing_shows a
  have hreg (c : Nat) := State.reg_keep_settle honly.variant c
  refine pageRegs_next hu (.inl rfl) (ha ▸ hp) (ha ▸ State.selftest_starts hl hn h) honly
    ⟨?_, ?_, State.sameRegs_keep hsame honly.variant, honly.keep⟩
  · exact (State.bit_of_reg (hreg _) 3).trans hctrl
  · exact (State.bit_of_reg (hreg _) 3).trans hstat

theorem selftestDone_next (pass : Bool) (h : u.bit (a + Off.PG_PAGE_STAT) 3 = true) :
    ∃ s', exec (.selftestDone t pg pass) s = .next s' ∧ s'.bit (a + Off.PG_PAGE_CTRL) 3 = false ∧
      s'.bit (a + Off.PG_PAGE_STAT) 3 = false ∧ s'.bit (a + Off.PG_PAGE_STAT) 4 = (!pass) ∧ s'.stands a 0x06 = (!pass) ∧
      u.sameRegs s' [a + Off.PG_PAGE_CTRL, a + Off.PG_PAGE_STAT] ∧ s' = { u with regs := s'.regs, ev := s'.ev } := by
  obtain ⟨hctrl, hstat, hresult, hstands, hsame, honly⟩ := u.tested_shows a pass
  have hreg (c : Nat) := State.reg_keep_settle honly.variant c
  refine pageRegs_next hu (.inl rfl) (ha ▸ hp) (by subst ha; exact if_pos h) honly
    ⟨(State.bit_of_reg (hreg _) 3).trans hctrl, (State.bit_of_reg (hreg _) 3).trans hstat, (State.bit_of_reg (hreg _) 4).trans hresult,
      (State.stands_keep_settle _ _ _ _).trans hstands, State.sameRegs_keep hsame honly.variant, honly.keep⟩

end Selftests

end Sys2Proof.Machine
end

section
/-!
PROOFS. DRAIN_DONE (R117, R191, R221, R289, R369): the lanes of a page that have drained stop, and the page is DRAINED.
-/

namespace Sys2Proof.Machine

/-! ### What the end of a drain leaves -/

/-- What the lanes that have drained reach: registers of the page that are no PAGE_CTRL, channels, tones and captures. -/
structure State.drainsTo (u x : State) (pg : Nat) : Prop where
  only : ∃ r m t c, x = { u with regs := r, edges := m, tones := t, caps := c }
  heads : x.heads = u.heads
  pages : u.samePages x [pg]

section DrainsTo

variable {u x y : State} {pg : Nat}

theorem State.drainsTo.refl (u : State) (pg : Nat) : u.drainsTo u pg :=
  ⟨⟨u.regs, u.edges, u.tones, u.caps, rfl⟩, rfl, fun _ _ => rfl⟩

theorem State.drainsTo.trans (h : u.drainsTo x pg) (k : x.drainsTo y pg) : u.drainsTo y pg := by
  refine ⟨?_, k.heads.trans h.heads, fun a ha => (k.pages a ha).trans (h.pages a ha)⟩
  obtain ⟨_, _, _, _, hx⟩ := h.only
  obtain ⟨r, m, t, c, hy⟩ := k.only
  exact ⟨r, m, t, c, by rw [hy, hx]⟩

theorem State.drainsTo_foldl {f : State → Nat → State} (l : List Nat) (h : ∀ i ∈ l, ∀ s : State, s.drainsTo (f s i) pg) :
    ∀ s : State, s.drainsTo (l.foldl f s) pg := by
  induction l with
  | nil => exact fun s => .refl s pg
  | cons i l ih =>
    exact fun s => (h i List.mem_cons_self s).trans (ih (fun j hj => h j (List.mem_cons_of_mem i hj)) (f s i))

/-- The queues, what is on its way, and the shots are as they were. -/
theorem State.drainsTo.laneOwed (h : u.drainsTo x pg) (l : Nat) : x.laneOwed l = u.laneOwed l := by
  obtain ⟨_, _, _, _, rfl⟩ := h.only
  rfl

theorem State.drainsTo.queue (h : u.drainsTo x pg) (l : Nat) : x.queue l = u.queue l := by
  obtain ⟨_, _, _, _, rfl⟩ := h.only
  rfl

theorem State.drainsTo.now (h : u.drainsTo x pg) : x.now = u.now := by
  obtain ⟨_, _, _, _, rfl⟩ := h.only
  rfl

/-- Whether a page is asked to drain rests on its PAGE_CTRL and the instants of the drains. -/
theorem State.drainAsked_of_heads (h : x.heads = u.heads) (b p : Nat) : x.drainAsked b p = u.drainAsked b p := by
  have hctrl (i : Nat) := State.ctrl_of_heads h (bp_mod b p) i
  unfold State.drainAsked State.draining State.fenced State.enabled
  simp only [hctrl, State.drainAt_of_heads h]

end DrainsTo

/-! ### Edge channels (R117) -/

/-- Nothing of an effect is left at `now`. -/
def EdgeSt.ended (e : EdgeSt) (now : Nat) : Prop := ∀ f, e.eff = some f → ∃ q, f.end_ = some q ∧ q ≤ now

/-- A channel's record up to now, as the end of its drain finds it: nothing is owed, and its rest level can be driven. -/
structure State.restable (s : State) (b ch : Nat) : Prop where
  owed : s.laneOwed (laneAddr b 0 ch) = false
  mode : s.chMode b ch ≠ 3
  ended : (s.edge b ch).ended s.now
  still : ((s.edge b ch).upto (s.chRest b ch) s.now).restAt = none
  on : ((s.edge b ch).upto (s.chRest b ch) s.now).onAt ≤ s.now
  base : ((s.edge b ch).upto (s.chRest b ch) s.now).base = s.chRest b ch ∨
    ((s.edge b ch).upto (s.chRest b ch) s.now).spaced s.now = true

section Edge

variable {e : EdgeSt} {rest : Bool} {now : Nat}

/-- An effect that has ended is gone. -/
theorem EdgeSt.upto_eff (h : e.ended now) : (e.upto rest now).eff = none := by
  have hrest (x : EdgeSt) : (match x.restAt with
      | none => x
      | some r => if r ≤ now then { x with restAt := none, base := rest, lastTrans := some r } else x).eff = x.eff := by
    split
    · rfl
    · split <;> rfl
  unfold EdgeSt.upto
  refine (hrest _).trans ?_
  cases heff : e.eff with
  | none => exact heff
  | some f =>
    obtain ⟨q, hq, hle⟩ := h f heff
    simp [hq, hle]

/-- With no effect, a move to the rest level that is due is made. -/
theorem EdgeSt.upto_move (heff : e.eff = none) (hrest : e.restAt = some now) :
    e.upto rest now = { e with restAt := none, base := rest, lastTrans := some now } := by
  unfold EdgeSt.upto
  simp [heff, hrest]

theorem EdgeSt.upto_still (heff : e.eff = none) (hrest : e.restAt = none) : e.upto rest now = e := by
  unfold EdgeSt.upto
  simp [heff, hrest]

/-- A channel at rest, or whose move to its rest level can come now, is at rest after the move. -/
theorem EdgeSt.restMove_upto (heff : e.eff = none) (hrest : e.restAt = none) (hbase : e.base = rest ∨ e.spaced now = true) :
    ((e.restMove rest now).upto rest now).restAt = none ∧ ((e.restMove rest now).upto rest now).onAt = e.onAt ∧
      ((e.restMove rest now).upto rest now).eff = none := by
  by_cases hb : e.base = rest
  · have hmove : e.restMove rest now = e := if_pos (by simp [hb])
    rw [hmove, EdgeSt.upto_still heff hrest]
    exact ⟨hrest, rfl, heff⟩
  · have hspaced := hbase.resolve_left hb
    have hmove : e.restMove rest now = { e with restAt := some now } := by
      have hat : (match e.lastTrans with
          | none => now
          | some l => max now (l + 1600)) = now := by
        unfold EdgeSt.spaced at hspaced
        split
        · rfl
        · next l hl =>
          rw [hl] at hspaced
          exact Nat.max_eq_left (of_decide_eq_true hspaced)
      rw [EdgeSt.restMove, if_neg (by simp [hrest, hb])]
      exact congrArg (fun r => { e with restAt := some r }) hat
    rw [hmove, EdgeSt.upto_move (e := { e with restAt := some now }) heff rfl]
    exact ⟨rfl, rfl, heff⟩

end Edge

/-- A channel's record after its move to its rest level. -/
def State.restedEdge (s : State) (b ch : Nat) : EdgeSt :=
  (((s.edge b ch).upto (s.chRest b ch) s.now).restMove (s.chRest b ch) s.now).upto (s.chRest b ch) s.now

/-- A channel that drains and can rest drives its rest level, and leaves DRAINING. -/
theorem State.edgeDrained_rests {s : State} {b ch x : Nat} (hx : (s.edge b ch).drainAt = some x) (h : s.restable b ch) :
    s.edgeDrained b ch =
      (s.setEdge b ch { s.restedEdge b ch with drainAt := none, dk := none }).setBit (chStat b ch) 5 false := by
  have hvec : s.vecOn b ch = false := by
    unfold State.vecOn
    simp [h.mode]
  have heff := EdgeSt.upto_eff (rest := s.chRest b ch) h.ended
  obtain ⟨hrest, hon, -⟩ := EdgeSt.restMove_upto heff h.still h.base
  unfold State.edgeDrained
  simp only [hx, h.owed, heff, hvec, Bool.false_and, Bool.false_eq_true, if_false]
  exact if_neg (by simp [hrest, hon, Nat.not_lt.mpr h.on])

/-- What a drained channel may become. -/
theorem State.edgeDrained_cases (s : State) (b ch : Nat) : s.edgeDrained b ch = s ∨
    ∃ e, s.edgeDrained b ch = s.setEdge b ch e ∨ s.edgeDrained b ch = (s.setEdge b ch e).setBit (chStat b ch) 5 false := by
  unfold State.edgeDrained
  dsimp only
  split
  · exact .inl rfl
  split
  · exact .inl rfl
  split
  · split
    · exact .inr ⟨_, .inl rfl⟩
    · exact .inl rfl
  split
  · exact .inl rfl
  generalize (if (s.vecOn b ch && !(s.edge b ch).driverOn s.now) = true then s.stopEffect s b ch (s.offLevel b ch)
    else ((s.edge b ch).upto (s.chRest b ch) s.now, s.now)) = stop
  split
  · exact .inr ⟨_, .inl rfl⟩
  · exact .inr ⟨_, .inr rfl⟩

/-- It reaches its record and its CHc_STAT. -/
theorem State.onlyChannel_edgeDrained (s : State) (b ch : Nat) : s.onlyChannel (s.edgeDrained b ch) b ch [chStat b ch] := by
  rcases s.edgeDrained_cases b ch with h | ⟨e, h | h⟩ <;> rw [h]
  · exact .refl s b ch _
  · exact (State.onlyChannel.refl s b ch _).setEdge e
  · exact ((State.onlyChannel.refl s b ch _).setEdge e).setBit List.mem_cons_self 5 false

theorem State.drainsTo_edgeDrained (s : State) {b ch p : Nat} (hch : 4 + ch / 8 = p) : s.drainsTo (s.edgeDrained b ch) (bp b p) := by
  refine ⟨?_, ?_, (s.onlyChannel_edgeDrained b ch).regs.pages fun a ha => List.mem_singleton.mpr ?_⟩
  · rcases s.edgeDrained_cases b ch with h | ⟨e, h | h⟩ <;> rw [h]
    · exact ⟨s.regs, s.edges, s.tones, s.caps, rfl⟩
    · exact ⟨s.regs, _, s.tones, s.caps, rfl⟩
    · exact ⟨_, _, s.tones, s.caps, rfl⟩
  · rcases s.edgeDrained_cases b ch with h | ⟨e, h | h⟩ <;> rw [h]
    · rfl
    · exact s.heads_setBit (offHead_block (bp_mod _ _) (by decide) (by decide)) 5 false
  · rw [List.mem_singleton.mp ha, ← hch]
    exact pageOf_add (bp_mod _ _) (by unfold Off.EDGE_CH_STAT; omega)

/-- A channel that has left DRAINING, if it drained, with nothing of an effect left. -/
def State.leftDraining (u x : State) (b ch : Nat) : Prop := (x.edge b ch).drainAt = none ∧ (x.edge b ch).ended u.now ∧
  ((u.edge b ch).drainAt.isSome = true → x.bit (chStat b ch) 5 = false)

/-- A channel that can rest has left DRAINING after its step. -/
theorem State.edgeDrained_leaves {u x : State} {b ch pg : Nat} (hu : u.restable b ch) (h : u.channelAs x b ch)
    (hto : u.drainsTo x pg) : u.leftDraining (x.edgeDrained b ch) b ch := by
  have hrest : x.chRest b ch = u.chRest b ch := State.bit_of_reg h.stat 6
  have hx : x.restable b ch :=
    ⟨by rw [hto.laneOwed]; exact hu.owed, by rw [State.chMode, State.fld_of_reg h.ctrl]; exact hu.mode,
      by rw [h.edge, h.now]; exact hu.ended, by rw [h.edge, h.now, hrest]; exact hu.still, by rw [h.edge, h.now, hrest]; exact hu.on,
      by rw [h.edge, h.now, hrest]; exact hu.base⟩
  cases hat : (u.edge b ch).drainAt with
  | none =>
    have hsame : x.edgeDrained b ch = x := by
      unfold State.edgeDrained
      rw [h.edge, hat]
    rw [hsame, State.leftDraining, h.edge, hat]
    exact ⟨rfl, hu.ended, nofun⟩
  | some d =>
    have heff : (x.restedEdge b ch).eff = none :=
      (EdgeSt.restMove_upto (EdgeSt.upto_eff hx.ended) hx.still hx.base).2.2
    rw [State.edgeDrained_rests (by rw [h.edge, hat]) hx, State.leftDraining, State.edge_setBit, State.edge_setEdge_same]
    refine ⟨rfl, fun f hf => ?_, fun _ => State.bit_setBit_same _ _ _ _ (by decide)⟩
    cases heff.symm.trans hf

/-- The channels of an edge page that drain. -/
def State.edgesDrained (s : State) (b p : Nat) : State := (pageChannels p).foldl (fun s ch => s.edgeDrained b ch) s

section EdgePage

variable {u : State} {b p : Nat} (hp : 4 ≤ p)

include hp

theorem State.drainsTo_edgesDrained (u : State) : u.drainsTo (u.edgesDrained b p) (bp b p) :=
  State.drainsTo_foldl _ (fun _ hch x => x.drainsTo_edgeDrained ((mem_pageChannels hp).mp hch)) u

/-- Every channel of the page that can rest has left DRAINING. -/
theorem State.edgesDrained_leave {ch : Nat} (hch : 4 + ch / 8 = p) (h : u.restable b ch) :
    u.leftDraining (u.edgesDrained b p) b ch := by
  have hmem : ∀ j ∈ pageChannels p, 4 + ch / 8 = 4 + j / 8 := fun j hj => hch.trans ((mem_pageChannels hp).mp hj).symm
  refine foldl_at (P := fun x => u.channelAs x b ch ∧ u.drainsTo x (bp b p)) (Q := fun x => u.leftDraining x b ch)
    (pageChannels_nodup p) ((mem_pageChannels hp).mpr hch) (fun j hj hne x hx => ?_) (fun j hj hne x hx => ?_)
    (fun x hx => State.edgeDrained_leaves h hx.1 hx.2) u ⟨⟨rfl, rfl, rfl, rfl, rfl⟩, .refl u _⟩
  · have hchannel := x.onlyChannel_edgeDrained b j
    have hto := x.drainsTo_edgeDrained (b := b) ((mem_pageChannels hp).mp hj)
    obtain ⟨has, hx⟩ := hx
    have hctrl : chCtrl b ch ∉ [chStat b j] := fun hm => chCtrl_not_mem (hmem j hj) (List.mem_cons.mpr (.inl (List.mem_singleton.mp hm)))
    exact ⟨⟨hto.heads.trans has.heads, hto.now.trans has.now, (hchannel.edges b ch (by omega)).trans has.edge,
      (hchannel.regs _ (by simpa using chStat_inj (hmem j hj) (Ne.symm hne))).trans has.stat, (hchannel.regs _ hctrl).trans has.ctrl⟩,
      hx.trans hto⟩
  · have hchannel := x.onlyChannel_edgeDrained b j
    have hstat := hchannel.regs (chStat b ch) (by simpa using chStat_inj (hmem j hj) (Ne.symm hne))
    rw [State.leftDraining, hchannel.edges b ch (by omega), State.bit_of_reg hstat]
    exact hx

end EdgePage

end Sys2Proof.Machine
end

section
/-!
PROOFS. DRAINED (R117, R191, R221, R289, R369): a page on which nothing is left.
-/

namespace Sys2Proof.Machine

/-! ### The lanes of a page -/

theorem laneKind_pageLanes {b p l : Nat} (hl : l ∈ pageLanes b p) (hp : ¬ (4 ≤ p ∧ p < 8)) : laneKind l ≠ 0 := by
  have hkind : ∀ k i, 0 < k → k < 16 → i < 0x100 → laneKind (laneAddr b k i) ≠ 0 := fun k i h0 h16 hi => by
    unfold laneKind laneAddr; omega
  unfold pageLanes pageTones at hl
  split_ifs at hl <;> simp only [List.mem_map, List.mem_range, List.mem_cons, List.not_mem_nil, or_false] at hl
  · obtain ⟨i, hi, rfl⟩ := hl
    exact hkind 1 _ (by decide) (by decide) (by omega)
  · obtain ⟨i, hi, rfl⟩ := hl
    exact hkind 2 _ (by decide) (by decide) (by omega)
  · obtain ⟨i, hi, rfl⟩ := hl
    exact hkind 3 _ (by decide) (by decide) (by omega)
  · obtain ⟨i, hi, rfl⟩ := hl
    exact hkind 5 _ (by decide) (by decide) (by omega)
  · exact hl ▸ hkind 4 _ (by decide) (by decide) (by omega)
  · obtain ⟨i, hi, rfl⟩ := hl
    exact hkind 6 _ (by decide) (by decide) (by omega)
  · rcases hl with rfl | rfl <;> exact hkind 6 _ (by decide) (by decide) (by decide)

/-- The lanes of an edge page are its channels'. -/
theorem mem_pageLanes_edge {b p l : Nat} (hp : 4 ≤ p ∧ p < 8) : l ∈ pageLanes b p ↔ ∃ ch ∈ pageChannels p, l = laneAddr b 0 ch := by
  unfold pageLanes
  rw [if_pos hp]
  simp only [pageChannels, List.mem_map]
  constructor
  · rintro ⟨c, hc, rfl⟩
    exact ⟨_, ⟨c, hc, rfl⟩, rfl⟩
  · rintro ⟨_, ⟨c, hc, rfl⟩, rfl⟩
    exact ⟨c, hc, rfl⟩

/-! ### Edge pages (R117) -/

theorem State.pageIdle_edge {s : State} {b p : Nat} (hp : 4 ≤ p ∧ p < 8) : s.pageIdle b p = true ↔
    ∀ ch ∈ pageChannels p, s.queue (laneAddr b 0 ch) = [] ∧ (s.edge b ch).ended s.now := by
  have hended : ∀ e : EdgeSt, (match e.eff with
      | none => true
      | some f => (match f.end_ with
        | none => false
        | some q => decide (q ≤ s.now))) = true ↔ e.ended s.now := fun e => by
    unfold EdgeSt.ended
    cases e.eff with
    | none => simp
    | some f => cases hf : f.end_ <;> simp [hf]
  unfold State.pageIdle
  dsimp only
  rw [if_pos hp]
  simp only [List.all_eq_true, Bool.and_eq_true, List.isEmpty_iff, pageChannels, List.forall_mem_map]
  exact forall₂_congr fun _ _ => and_congr_right fun _ => hended _

/-! ### Tone, probe and flux pages (R191) -/

/-- Nothing of a pulse is left at `now`. -/
def ToneSt.ended (z : ToneSt) (now : Nat) : Prop := ∀ q, z.pulse = some q → q.end_ ≤ now

theorem State.pageIdle_tone {s : State} {b p : Nat} (hp : 8 ≤ p ∧ p < 0xF) : s.pageIdle b p = true ↔
    ∀ l ∈ pageTones b p, s.queue l = [] ∧ (s.tone l).ended s.now := by
  have hended : ∀ z : ToneSt, (match z.pulse with
      | none => true
      | some q => decide (q.end_ ≤ s.now)) = true ↔ z.ended s.now := fun z => by
    unfold ToneSt.ended
    cases z.pulse <;> simp
  unfold State.pageIdle
  dsimp only
  rw [if_neg (by omega), if_pos hp]
  simp only [List.all_eq_true, Bool.and_eq_true, List.isEmpty_iff]
  exact forall₂_congr fun _ _ => and_congr_right fun _ => hended _

theorem ToneSt.ended_upto {z : ToneSt} {now : Nat} (h : z.ended now) (p : Nat) : (z.upto p).ended now := by
  unfold ToneSt.upto
  split
  · exact h
  · split
    · exact nofun
    · exact h

theorem State.toneDrained_cases (s : State) (l : Nat) : s.toneDrained l = s ∨
    s.toneDrained l = s.setTone l { (s.tone l).upto s.now with drainAt := none } := by
  unfold State.toneDrained
  dsimp only
  split
  · exact .inl rfl
  · exact .inr rfl

/-- The end of a lane's drain leaves nothing of a pulse where there was nothing. -/
theorem State.toneDrained_shows (s : State) (l pg : Nat) : s.drainsTo (s.toneDrained l) pg ∧
    ∀ k now, (s.tone k).ended now → ((s.toneDrained l).tone k).ended now := by
  rcases s.toneDrained_cases l with h | h <;> rw [h]
  · exact ⟨.refl s pg, fun _ _ hk => hk⟩
  · refine ⟨⟨⟨s.regs, s.edges, _, s.caps, rfl⟩, rfl, fun _ _ => rfl⟩, fun k now hk => ?_⟩
    by_cases hkl : k = l
    · subst hkl
      rw [State.tone_setTone_same]
      exact ToneSt.ended_upto hk s.now
    · rwa [State.tone_setTone_ne _ _ _ _ hkl]

/-- The lanes of a tone page that drain. -/
def State.tonesDrained (s : State) (b p : Nat) : State := (pageTones b p).foldl (fun s l => s.toneDrained l) s

theorem State.tonesDrained_shows (s : State) (b p : Nat) : s.drainsTo (s.tonesDrained b p) (bp b p) ∧
    ∀ k now, (s.tone k).ended now → ((s.tonesDrained b p).tone k).ended now := by
  refine ⟨State.drainsTo_foldl _ (fun l _ x => (x.toneDrained_shows l _).1) s, ?_⟩
  unfold State.tonesDrained
  induction pageTones b p generalizing s with
  | nil => exact fun _ _ h => h
  | cons l r ih => exact fun k now h => ih _ k now ((s.toneDrained_shows l 0).2 k now h)

/-! ### Capture pages (R221) -/

/-- An input put as busy as it was does not begin to be touched. -/
theorem State.drainsTo_setCap (s : State) (b i : Nat) {z : CapSt} (hz : z.busy = (s.cap b i).busy) (pg : Nat) :
    s.drainsTo (s.setCap b i z) pg := by
  refine ⟨⟨s.regs, s.edges, s.tones, mapSet (fun _ => CapSt.init) s.caps (b * 4 + i) z, ?_⟩, rfl, fun _ _ => rfl⟩
  unfold State.setCap
  rw [hz, Bool.and_not_self]
  rfl

theorem State.capDrained_shows (s : State) {b p : Nat} (hp : 0x10 ≤ p ∧ p < 0x14) (pg : Nat) :
    s.drainsTo (s.capDrained b (p - 0x10)) pg ∧ (s.capDrained b (p - 0x10)).pageIdle b p = s.pageIdle b p := by
  unfold State.capDrained
  dsimp only
  split
  · exact ⟨.refl s pg, rfl⟩
  · refine ⟨s.drainsTo_setCap b (p - 0x10) ?_ pg, ?_⟩
    · rfl
    unfold State.pageIdle
    simp (disch := omega) only [if_neg, if_pos, State.cap_setCap_same, State.queue_setCap]

/-! ### The page -/

/-- The lanes of a page that drain, have drained. -/
def State.lanesDrained (s : State) (b p : Nat) : State :=
  if 4 ≤ p ∧ p < 8 then s.edgesDrained b p
  else if 8 ≤ p ∧ p < 0xF then s.tonesDrained b p
  else if 0x10 ≤ p ∧ p < 0x14 then s.capDrained b (p - 0x10)
  else s

/-- Each lane of a page has nothing of an admitted shot, and an edge channel has left DRAINING. -/
def State.lanesDone (s : State) (b p : Nat) : Bool :=
  (pageLanes b p).all fun l => !s.laneOwed l && (laneKind l != 0 || (s.edge b (laneIdx l)).drainAt.isNone)

theorem State.drainDone_eq (s : State) (b p : Nat) : s.drainDone b p =
    if (s.lanesDrained b p).drainAsked b p && (s.lanesDrained b p).pageIdle b p && (s.lanesDrained b p).lanesDone b p then
      (s.lanesDrained b p).setDrained (bp b p) true
    else s.lanesDrained b p := rfl

section Drained

variable {u : State} {b p : Nat} (hidle : u.pageIdle b p = true)

theorem State.drainsTo_lanesDrained (u : State) (b p : Nat) : u.drainsTo (u.lanesDrained b p) (bp b p) := by
  unfold State.lanesDrained
  split_ifs with h1 h2 h3
  · exact u.drainsTo_edgesDrained h1.1
  · exact (u.tonesDrained_shows b p).1
  · exact (u.capDrained_shows h3 _).1
  · exact .refl u _

/-- On a page without lanes there is none to drain. -/
theorem State.lanesDrained_none (h : pageLanes b p = []) : u.lanesDrained b p = u := by
  unfold pageLanes at h
  unfold State.lanesDrained
  split_ifs with h1 h2 h3
  · simp [h1] at h
  · rw [if_neg h1, if_pos h2] at h
    rw [State.tonesDrained, h]
    rfl
  · simp (disch := omega) only [if_neg, if_pos] at h
    cases h
  · rfl

/-- What DRAIN_DONE asks of the lanes of a page: nothing of an admitted shot, and an edge channel that can rest. -/
def State.lanesReady (u : State) (b p : Nat) : Prop := ∀ l ∈ pageLanes b p, u.laneOwed l = false ∧
  (laneKind l = 0 → u.chMode b (laneIdx l) ≠ 3 ∧ ∀ e, e = (u.edge b (laneIdx l)).upto (u.chRest b (laneIdx l)) u.now →
    e.restAt = none ∧ e.onAt ≤ u.now ∧ (e.base = u.chRest b (laneIdx l) ∨ e.spaced u.now = true))

section Ready

variable (hready : u.lanesReady b p)

include hidle hready

/-- Every channel of an idle edge page leaves DRAINING. -/
theorem State.channels_leave (hp : 4 ≤ p ∧ p < 8) {ch : Nat} (hch : 4 + ch / 8 = p) :
    u.leftDraining (u.lanesDrained b p) b ch := by
  have hlane : laneAddr b 0 ch ∈ pageLanes b p := (mem_pageLanes_edge hp).mpr ⟨ch, (mem_pageChannels hp.1).mpr hch, rfl⟩
  have hkind : laneKind (laneAddr b 0 ch) = 0 := by unfold laneKind laneAddr; omega
  have hidx : laneIdx (laneAddr b 0 ch) = ch := by unfold laneIdx laneAddr; omega
  obtain ⟨howed, hch'⟩ := hready _ hlane
  rw [hidx] at hch'
  obtain ⟨hmode, he⟩ := hch' hkind
  have hmem := (mem_pageChannels (ch := ch) hp.1).mpr hch
  obtain ⟨hstill, hon, hbase⟩ := he _ rfl
  rw [State.lanesDrained, if_pos hp]
  exact State.edgesDrained_leave hp.1 hch
    ⟨howed, hmode, ((State.pageIdle_edge hp).mp hidle ch hmem).2, hstill, hon, hbase⟩

/-- The page stays idle as its lanes leave the drain. -/
theorem State.lanesDrained_idle : (u.lanesDrained b p).pageIdle b p = true := by
  have hto := u.drainsTo_lanesDrained b p
  by_cases h1 : 4 ≤ p ∧ p < 8
  · refine (State.pageIdle_edge h1).mpr fun ch hch => ?_
    obtain ⟨-, hended, -⟩ := State.channels_leave hidle hready h1 ((mem_pageChannels h1.1).mp hch)
    exact ⟨(hto.queue _).trans ((State.pageIdle_edge h1).mp hidle ch hch).1, hto.now.symm ▸ hended⟩
  by_cases h2 : 8 ≤ p ∧ p < 0xF
  · refine (State.pageIdle_tone h2).mpr fun l hl => ?_
    obtain ⟨hqueue, hended⟩ := (State.pageIdle_tone h2).mp hidle l hl
    refine ⟨(hto.queue _).trans hqueue, hto.now.symm ▸ ?_⟩
    rw [State.lanesDrained, if_neg h1, if_pos h2]
    exact (u.tonesDrained_shows b p).2 l u.now hended
  rw [State.lanesDrained, if_neg h1, if_neg h2]
  split
  · next h3 => exact ((u.capDrained_shows h3 0).2).trans hidle
  · exact hidle

/-- Nothing is left on its lanes. -/
theorem State.lanesDrained_done : (u.lanesDrained b p).lanesDone b p = true := by
  refine List.all_eq_true.mpr fun l hl => ?_
  have howed : (u.lanesDrained b p).laneOwed l = false := ((u.drainsTo_lanesDrained b p).laneOwed l).trans (hready l hl).1
  rw [howed]
  by_cases hp : 4 ≤ p ∧ p < 8
  · obtain ⟨ch, hch, rfl⟩ := (mem_pageLanes_edge hp).mp hl
    have hidx : laneIdx (laneAddr b 0 ch) = ch := by
      have := (mem_pageChannels hp.1).mp hch
      unfold laneIdx laneAddr; omega
    obtain ⟨hat, -, -⟩ := State.channels_leave hidle hready hp ((mem_pageChannels hp.1).mp hch)
    simp [hidx, hat]
  · simp [laneKind_pageLanes hl hp]

end Ready

theorem State.drainDone_drains (hasked : u.drainAsked b p = true) (hidle : u.pageIdle b p = true) (hready : u.lanesReady b p) :
    u.drainDone b p = (u.lanesDrained b p).setDrained (bp b p) true := by
  rw [State.drainDone_eq, State.drainAsked_of_heads (u.drainsTo_lanesDrained b p).heads, hasked,
    State.lanesDrained_idle hidle hready, State.lanesDrained_done hidle hready]
  rfl

end Drained

/-! ### DRAIN_DONE -/

section Done

variable {s u : State} {t : PT} {r : PageRow} (hu : u = s.arrive t)

include hu

/-- A package page has no lanes. -/
theorem pkgDrained_next {q : Fin 6} {a : Nat} (ha : a = pageBase (.pkg q)) (hp : pageRow? u.variant a = some r)
    (hd : u.draining a = true) : ∃ s', exec (.drainDone t (.pkg q)) s = .next s' ∧ s'.drained a = true ∧
      u.sameRegs s' [a + Off.PG_PAGE_STAT] ∧ s' = { u with regs := s'.regs, ev := s'.ev } := by
  have honly := u.onlyRegs_setBit (a + Off.PG_PAGE_STAT) 1 true
  refine pageRegs_next (x := u.setDrained a true) hu (.inl rfl) (ha ▸ hp) (by subst ha; exact if_pos hd) honly
    ⟨?_, State.sameRegs_keep (State.sameRegs_setBit (u.sameRegs_refl _) List.mem_cons_self 1 true) honly.variant, honly.keep⟩
  exact (State.bit_of_reg (State.reg_keep_settle honly.variant _) 1).trans (State.bit_setBit_same _ _ _ _ (by decide))

theorem bentDrained_next {b : Fin 8} {p : Fin 48} (hp : pageRow? u.variant (bp b p) = some r) (hasked : u.drainAsked b p = true)
    (hidle : u.pageIdle b p = true) (hready : u.lanesReady b p) :
    ∃ s', exec (.drainDone t (.bent b p)) s = .next s' ∧ s'.drained (bp b p) = true ∧
      (∀ ch, ch < 32 → 4 ≤ p.val → p.val < 8 → ch / 8 = p.val - 4 → ((u.edge b ch).drainAt).isSome = true →
        s'.bit (chStat b ch) 5 = false ∧ (s'.edge b ch).drainAt = none) ∧
      (pageLanes b p = [] → u.sameRegs s' [bp b p + Off.PG_PAGE_STAT]) ∧ u.samePages s' [bp b p] ∧
      s' = { u with regs := s'.regs, ev := s'.ev, edges := s'.edges, tones := s'.tones, caps := s'.caps } := by
  have hto := u.drainsTo_lanesDrained b p
  have hv : ((u.lanesDrained b p).setDrained (bp b p) true).variant = u.variant := by
    obtain ⟨_, _, _, _, h⟩ := hto.only
    rw [h]
    rfl
  have hreg (c : Nat) := State.reg_keep_settle hv c
  have hstat : pageOf (bp b p + Off.PG_PAGE_STAT) = bp b p := pageOf_add (bp_mod b p) (by decide)
  refine pageCommand_next hu rfl hp (State.drainDone_drains hasked hidle hready)
    ⟨?_, fun ch _ h4 h8 hch hdrains => ?_, fun hnone => ?_, fun c hc => ?_, ?_⟩
  · exact (State.bit_of_reg (hreg _) 1).trans (State.bit_setBit_same _ _ _ _ (by decide))
  · obtain ⟨hat, -, hbit⟩ := State.channels_leave hidle hready ⟨h4, h8⟩ (by omega : 4 + ch / 8 = p.val)
    have hne : chStat b ch ≠ bp b p + Off.PG_PAGE_STAT := by
      rw [show bp b p = edgePg b ch by rw [edgePg]; congr 1; omega]
      exact (edgePg_block_ne_stat (by decide)).symm
    exact ⟨(State.bit_of_reg (hreg _) 5).trans ((State.bit_of_reg (State.reg_setBit_ne _ _ _ hne) 5).trans (hbit hdrains)),
      by rw [State.edge_keep, State.edge_settle]; exact hat⟩
  · have hnone' := State.lanesDrained_none (u := u) hnone
    refine State.sameRegs_keep ?_ hv
    rw [hnone']
    exact State.sameRegs_setBit (u.sameRegs_refl _) List.mem_cons_self 1 true
  · have hne : c ≠ bp b p + Off.PG_PAGE_STAT := fun e => hc (List.mem_singleton.mpr (e ▸ hstat))
    exact (hreg c).trans ((State.reg_setBit_ne _ _ _ hne).trans (hto.pages c hc))
  · obtain ⟨r, m, t, c, h⟩ := hto.only
    rw [h, State.keep_settle]
    rfl

end Done

/-- Settles O37: what a self-test starts and leaves, and a page by its lanes as DRAIN_DONE finds them. -/
theorem selftestsAndDrains : Obligations.SelftestsAndDrains := by
  intro s u t pg r a hu ha hp
  refine ⟨fun hl hn => ?_, fun pass h => selftestDone_next hu ha hp pass h, fun q hq hd => ?_, fun b p hb hasked hidle hready => ?_⟩
  · obtain ⟨hedge, hcap, htime⟩ := State.testRefused_kinds u a r.kind
    refine ⟨selftest_starts_next hu ha hp hl hn, fun c hc => ?_, hedge, hcap, htime⟩
    exact pageRefused_next hu ha (.inl rfl) hp (ha ▸ State.selftest_refused hl hn hc)
  · subst hq
    exact pkgDrained_next hu ha hp hd
  · subst hb ha
    exact bentDrained_next hu hp hasked hidle hready

end Sys2Proof.Machine
end
